-- ==== Sys2Proof/Word.lean ====
section
/-! DEFINITION. The word types of the EM9256 model: register words (R12), memory bytes, Antler units and addresses. -/

namespace Sys2Proof

/-- A register word (R12). -/
abbrev Word := BitVec 32

/-- A byte of memory. -/
abbrev Byte := BitVec 8

/-- An Antler unit (flit), an on-chip word and a Tahr vector: 128 bits (R11, R174). -/
abbrev Unit128 := BitVec 128

/-- A 48-bit Antler byte address (R29). -/
abbrev Addr := BitVec 48

end Sys2Proof
end

