-- ==== Sys2Proof/Syntax.lean ====
section
/-! DEFINITION. The commands of the EM9256 block (spec/opcode_table.json), one constructor of `Instr` per row, and
the types of their operands. A command names the object it acts on; what only the world outside the device decides
(a partner's offer, a sensor's reading, whether a trained link locked) is an operand of the event that carries it. -/

namespace Sys2Proof

/-- The accessors of register space (R37). -/
inductive Accessor where
  | host0 | host1 | userLogic | board | tahr | remote | debugger | chamois
  deriving DecidableEq, Repr

/-- Where a frame's stamp point meets the wire: `sub`/32 ns after the tick, on lane `carrier` of its MAC (R80). -/
structure WireEdge where
  sub : BitVec 6
  carrier : Fin 8
  deriving DecidableEq, Repr

/-- What lanes meet in a LANE_CONFIG: the frames in flight on those that carry traffic, and whether they took the new configuration
in time (R57, R100). -/
structure Rebind where
  inflight : Fin 65536
  done : Bool
  deriving DecidableEq, Repr

/-- One Antler data unit with its POISON sideband (R133). -/
structure DataUnit where
  data : BitVec 128
  poison : Bool
  deriving DecidableEq, Repr

/-- One Antler packet: the header fields of R133 and the data units. `acc` is the accessor of R37 on whose behalf
the injection interface sends it. -/
structure Packet where
  dest : BitVec 10 := 0
  src : BitVec 10 := 0
  cmd : BitVec 4 := 0
  vc : BitVec 2 := 0
  tag : BitVec 10 := 0
  len : BitVec 4 := 0
  key : BitVec 8 := 0
  secure : Bool := false
  debug : Bool := false
  poison : Bool := false
  ordered : Bool := false
  rsv : BitVec 12 := 0
  be : BitVec 16 := 0xFFFF
  addr : BitVec 48 := 0
  data : List DataUnit := []
  acc : Accessor := .chamois
  /-- the access of an instruction with SZ 0: register space refuses it whatever bytes it enables (R221) -/
  wide : Bool := false
  deriving DecidableEq, Repr

/-- One mailbox request (R47): tag, interface version, payload length and the 56 payload bytes, byte 8 first. -/
structure Msg where
  tag : BitVec 16
  ver : BitVec 8
  len : BitVec 8
  payload : BitVec 448
  deriving DecidableEq, Repr

/-- How a stored word was damaged: a pattern its code corrects, or one it does not, with the syndrome. -/
inductive Damage where
  | single (syn : BitVec 9)
  | uncorr (syn : BitVec 9)
  deriving DecidableEq, Repr

/-- An upset that has struck storage: the 16-byte word, with the damage to an on-chip word or, of the packaged-memory line the word
lies in, the symbols it changed and how (R297, R306). -/
structure Upset where
  word : Nat
  damage : Damage
  symbols : List (Fin 72 × Byte) := []
  deriving DecidableEq, Repr

/-- The descriptor rings of R101. -/
inductive RingKind where
  | macTx | macRx | fhTx | cpriTx | cpriRx | pcieDma
  deriving DecidableEq, Repr

/-- One PRB of a U-plane section (R109): the shared exponent and the 12 mantissa pairs. -/
structure Prb where
  exp : BitVec 4
  iq : List (BitVec 16 × BitVec 16)
  deriving DecidableEq, Repr

/-- What the partner's Clause 73 page offers (R104): its abilities, one bit for each row of R103's table by lane count and
rate, and the FEC codes it permits. -/
structure MacPage where
  abilities : BitVec 12
  fec : BitVec 3
  deriving DecidableEq, Repr

/-- A received fronthaul frame (R108): the fields R108 to R112 use. -/
structure FhFrame where
  /-- IEEE 1914.3 transport; otherwise eCPRI -/
  roe : Bool
  /-- message type: 0 U-plane, 2 C-plane, 5 delay measurement -/
  msgType : BitVec 8
  srcMac : BitVec 48
  vlan : BitVec 12
  eaxc : BitVec 16
  frameId : BitVec 8
  subframeId : BitVec 4
  slotId : BitVec 6
  symbolId : BitVec 6
  startPrb : BitVec 10
  /-- compression method code of the frame: 0 none, 1 block floating point, others unsupported -/
  method : BitVec 4
  /-- iqWidth field: 0 means 16 -/
  width : BitVec 4
  /-- of a delay measurement: its measurement ID and action type -/
  measId : BitVec 8
  action : BitVec 8
  prbs : List Prb
  deriving DecidableEq, Repr

/-- A PCIe memory request from the link partner (R117). -/
structure PcieReq where
  bar2 : Bool
  write : Bool
  poisoned : Bool
  off : BitVec 36
  len : Nat
  data : List Byte
  deriving DecidableEq, Repr

/-- What the scrubber meets at a frame (R377): bits that upsets have just flipped, 4,096 to 4,111 in the check bits, and the chunks of the
boot flash that hold the frame, which a comparing lap reads (R379). -/
structure FrameRead where
  flips : List (Fin 4112) := []
  chunk : List Byte := []
  deriving DecidableEq, Repr

/-- An access of user logic to one port of a block memory (R325, R326): word address, write, byte enables, data. -/
structure BmReq where
  addr : BitVec 14
  we : Bool
  be : BitVec 16
  data : BitVec 128
  deriving DecidableEq, Repr


/-- The commands: one constructor per row of the opcode table. -/
inductive Instr where
  /-- REGISTER_WRITE (R15). A write to a register that has no behaviour of its own sets its fields by their access types, applying reserved-bit, ownership and select-bank rules. -/
  | registerWrite (acc : Accessor) (core : Fin 256) (size : Nat) (posted : Bool) (off : BitVec 26) (v : Word)
  /-- DEV_OWN_VIOL_CLEAR (R61). Writing 1 to DEV_OWN_VIOL.VALID clears the captured violation record. -/
  | devOwnViolClear (acc : Accessor)
  /-- MBX_DOORBELL (R41). A doorbell write advances the request producer index, or is refused and sets OVERRUN if the count would leave 0-32. -/
  | mbxDoorbell (acc : Accessor) (b : Fin 8) (idx : BitVec 8)
  /-- MAILBOX_TAKE_REQUEST (R44). Firmware takes the next request of a mailbox round-robin, copies it, advances REQ_CONS and starts the command. -/
  | mailboxTakeRequest
  /-- MBX_RESET (R46). Writing MBX_CTRL.RESET ends the session, zeroes all four indices and clears OVERRUN and RSP_STALL. -/
  | mbxReset (acc : Accessor) (b : Fin 8)
  /-- MBX_RSP_CONS_WRITE (R60). Writing the response consumer index re-arms notification and sends a new one at once if responses remain. -/
  | mbxRspConsWrite (acc : Accessor) (b : Fin 8) (idx : BitVec 8)
  /-- HELLO (R51). Opens or renegotiates a mailbox session at the highest common interface version. -/
  | hello (b : Fin 8) (m : Msg)
  /-- INFO_DEVICE (R57). Returns device identity, lifecycle, anti-rollback counters, versions and serial number. -/
  | infoDevice (b : Fin 8) (m : Msg)
  /-- INFO_SENSORS (R57). Returns per-quadrant hottest temperature, power and lowest pace for the quadrants in the mask. -/
  | infoSensors (b : Fin 8) (m : Msg)
  /-- BYE (R57). Ends the session after it has been answered. -/
  | bye (b : Fin 8) (m : Msg)
  /-- POWER_BUDGET_SET (R57). Writes GOV_BUDGET and the four quadrant shares, refusing shares that do not total 100. -/
  | powerBudgetSet (b : Fin 8) (m : Msg)
  /-- POWER_STATE_DOZE (R391). Checks, drains running tasks, answers and enters DOZE. -/
  | powerStateDoze (b : Fin 8) (m : Msg)
  /-- POWER_STATE_NAP (R391). Checks, drains, answers and powers down clusters, accelerator groups, regions and unkept lane quads and puts HBM in self-refresh. -/
  | powerStateNap (b : Fin 8) (m : Msg)
  /-- POWER_STATE_HIBERNATE (R391). Checks, drains, answers, writes the hibernate context and powers down every domain but Mitten. -/
  | powerStateHibernate (b : Fin 8) (m : Msg)
  /-- POWER_DOMAIN_ON (R389). Removes any lock, clears FAIL and powers the domain up at once. -/
  | powerDomainOn (b : Fin 8) (m : Msg)
  /-- POWER_DOMAIN_OFF (R385). Powers the domain down by the drain-fence sequence with up to four attempts. -/
  | powerDomainOff (b : Fin 8) (m : Msg)
  /-- POWER_DOMAIN_LOCK_OFF (R389). Powers the domain down and locks it off so requests get DOMAIN_OFF. -/
  | powerDomainLockOff (b : Fin 8) (m : Msg)
  /-- POWER_DOMAIN_UNLOCK (R389). Removes the lock and leaves the domain off so the next access wakes it. -/
  | powerDomainUnlock (b : Fin 8) (m : Msg)
  /-- POWER_THERMAL_SET (R57). Writes the soft and hard temperature limits and the heat scale after range checks. -/
  | powerThermalSet (b : Fin 8) (m : Msg)
  /-- POWER_READ (R57). Returns device power, budget, array rail voltages and maximum temperature. -/
  | powerRead (b : Fin 8) (m : Msg)
  /-- TIME_OWNER (R88). Moves servo ownership between firmware and host, stopping the previous owner's servo before responding. -/
  | timeOwner (b : Fin 8) (m : Msg)
  /-- TIME_GET (R57). Returns ToD, NS64, tod_valid and the servo state. -/
  | timeGet (b : Fin 8) (m : Msg)
  /-- TIME_STEP (R57). Stages and arms a ToD step unless STEP_LOCK is set, returning the apply second. -/
  | timeStep (b : Fin 8) (m : Msg)
  /-- TIME_ADJ_RATE (R68). Converts a rate in 2^-16 ppm to the ToD addend and writes it. -/
  | timeAdjRate (b : Fin 8) (m : Msg)
  /-- TIME_REARM_STEP (R77). Clears STEP_LOCK through TOD_REARM only if the servo has declared loss of lock or holdover exit. -/
  | timeRearmStep (b : Fin 8) (m : Msg)
  /-- TIME_SLOT_CFG (R91). Checks slot timer values, disables the timer, writes them and re-enables it if asked. -/
  | timeSlotCfg (b : Fin 8) (m : Msg)
  /-- TIME_PROFILE (R87). Selects the PTP telecom profile for the MACs in the mask. -/
  | timeProfile (b : Fin 8) (m : Msg)
  /-- LANE_CONFIG (R100). Binds a range of lanes at a rate to an engine, unbinding any current use and loading timestamp delays. -/
  | laneConfig (b : Fin 8) (m : Msg) (lanes : Rebind)
  /-- LANE_STATUS (R57). Returns a lane's state, eye figures and pre-FEC error count. -/
  | laneStatus (b : Fin 8) (m : Msg)
  /-- LANE_EYE_SCAN (R98). Runs an eye scan of a lane and writes the points to a buffer. -/
  | laneEyeScan (b : Fin 8) (m : Msg) (points : List Word)
  /-- LANE_CHL_NEGOTIATE (R125). Renegotiates an up chassis link or brings a down one up with a new version mask. -/
  | laneChlNegotiate (b : Fin 8) (m : Msg)
  /-- LANE_FH_TABLE (R110). Copies the fronthaul discovery table as an engine sees it into a buffer. -/
  | laneFhTable (b : Fin 8) (m : Msg)
  /-- CONFIG_LOAD_OVERLAY (R370). Loads an overlay container into its regions, isolating, zeroing, writing and starting them. -/
  | configLoadOverlay (b : Fin 8) (m : Msg)
  /-- CONFIG_UNLOAD (R57). Unloads the regions in the mask unless CFG_LOCK is set. -/
  | configUnload (b : Fin 8) (m : Msg)
  /-- CONFIG_STATUS (R381). Returns the loaded and failed region masks and the scrub lap time. -/
  | configStatus (b : Fin 8) (m : Msg)
  /-- CONFIG_LOCK (R57). Writes CFG_LOCK so overlay loads and unloads are refused until reset. -/
  | configLock (b : Fin 8) (m : Msg)
  /-- CONFIG_READBACK (R376). Captures a region's flip-flops at a chosen clock edge and shifts the snapshot into a buffer. -/
  | configReadback (b : Fin 8) (m : Msg) (edge : Bool)
  /-- MEMKEY_LOAD (R301). Unwraps a key pair with the device key and installs it in a memory key slot after earlier requests complete. -/
  | memkeyLoad (b : Fin 8) (m : Msg)
  /-- MEMKEY_CLEAR (R301). Empties a memory key slot after requests taken under it complete. -/
  | memkeyClear (b : Fin 8) (m : Msg)
  /-- MEMKEY_REGION (R302). Writes a cipher region's base, limit and allow mask and enables or disables it. -/
  | memkeyRegion (b : Fin 8) (m : Msg)
  /-- MEMKEY_STATUS (R316). Returns which memory key slots hold a key. -/
  | memkeyStatus (b : Fin 8) (m : Msg)
  /-- TASK_CQ_CFG (R169). Configures a completion queue's base, size and vector. -/
  | taskCqCfg (b : Fin 8) (m : Msg)
  /-- TASK_TICK (R173). Writes a quadrant's dispatcher tick length. -/
  | taskTick (b : Fin 8) (m : Msg)
  /-- TASK_STATS (R173). Returns a quadrant's dispatch, late-risk and variant counts and energy account. -/
  | taskStats (b : Fin 8) (m : Msg)
  /-- TASK_FLUSH (R171). Cancels every waiting or ready task of the masked priorities with status FLUSHED. -/
  | taskFlush (b : Fin 8) (m : Msg)
  /-- ERROR_READ (R457). Copies held device-log entries in SEQ order from first into a buffer. -/
  | errorRead (b : Fin 8) (m : Msg)
  /-- ERROR_CLEAR (R457). Frees every held log entry whose SEQ precedes up_to. -/
  | errorClear (b : Fin 8) (m : Msg)
  /-- ERROR_CONFIG (R461). Writes the coalescing window and notification mask. -/
  | errorConfig (b : Fin 8) (m : Msg)
  /-- ERROR_INJECT (R459). Enters an injected event at the level its source reports to. -/
  | errorInject (b : Fin 8) (m : Msg)
  /-- ATTEST_REPORT (R445). Builds and signs an attestation report over the nonce and measurements and writes it to a buffer. -/
  | attestReport (b : Fin 8) (m : Msg)
  /-- ATTEST_CERTS (R443). Writes the attestation, identity and manufacturing CA certificates to a buffer. -/
  | attestCerts (b : Fin 8) (m : Msg)
  /-- DEBUG_CHALLENGE (R447). Returns a fresh 256-bit challenge replacing any earlier one. -/
  | debugChallenge (b : Fin 8) (m : Msg)
  /-- DEBUG_UNLOCK (R447). Checks a signed challenge against a debug hash slot and sets the debug level. -/
  | debugUnlock (b : Fin 8) (m : Msg)
  /-- DEBUG_TRACE_CFG (R477). Configures the trace sink through the trace controller. -/
  | debugTraceCfg (b : Fin 8) (m : Msg)
  /-- DEBUG_LOCK (R447). Returns the debug level to 0 at once and releases halts. -/
  | debugLock (b : Fin 8) (m : Msg)
  /-- UPDATE_STAGE (R57). Checks and stages a firmware, base or golden image. -/
  | updateStage (b : Fin 8) (m : Msg)
  /-- UPDATE_COMMIT (R44). Commits the staged image to flash. -/
  | updateCommit (b : Fin 8) (m : Msg) (flashOk : Bool)
  /-- UPDATE_STATUS (R57). Returns whether an image is staged and the progress. -/
  | updateStatus (b : Fin 8) (m : Msg)
  /-- UPDATE_ACTIVATE (R434). Answers, optionally raises the anti-rollback counter, and performs a WARM reset. -/
  | updateActivate (b : Fin 8) (m : Msg) (goldenArb : BitVec 16) (blow : Fin 3) (bits : BitVec 9)
  /-- TIME_TICK (R67). Each 2 ns TIME_LOOP tick advances ToD and NS64 and commits staged addend, increment and offset values. -/
  | timeTick
  /-- TOD_ADDEND_LO_WRITE (R68). Writing TOD_ADDEND_LO commits both addend words at the next tick, clamping and setting RATE_CLAMP. -/
  | todAddendLoWrite (acc : Accessor) (v : Word)
  /-- NS_INCR_WRITE (R69). Writing NS_INCR sets the NS64 increment, clamped to ±1,000 ppm with INCR_CLAMP. -/
  | nsIncrWrite (acc : Accessor) (v : Word)
  /-- NS_FALLBACK_OFF_LO_WRITE (R70). Commits the fallback offset at the next tick while VALID is 0, jumping the time in use. -/
  | nsFallbackOffLoWrite (acc : Accessor) (v : Word)
  /-- TOD_INVALIDATE (R70). Clears VALID and latches NS_FALLBACK_OFF from ToD minus NS64. -/
  | todInvalidate (acc : Accessor)
  /-- TOD_SNAP (R72). Captures ToD and NS64 at the same tick into the accessor's snapshot set. -/
  | todSnap (acc : Accessor) (core : Fin 256)
  /-- TOD_STEP_ARM (R75). Arms the staged step, sets STEP_PENDING and TOD_STEP_AT, or is refused under STEP_LOCK. -/
  | todStepArm (acc : Accessor)
  /-- TOD_STEP_APPLY (R75). At the first second boundary 2 µs after arming, applies the step, sets VALID and STEP_LOCK, or discards it on range. -/
  | todStepApply
  /-- TOD_REARM (R77). Writing 1 to TOD_REARM clears STEP_LOCK. -/
  | todRearm (acc : Accessor)
  /-- TOD_SERVO_WRITE (R78). Writing the servo state sets LOSS_SEEN or HOLD_EXIT on the defined transitions. -/
  | todServoWrite (acc : Accessor) (v : Word)
  /-- TIME_CMP_TGT_LO_WRITE (R73). Writing the low target word commits the comparator target and arms it. -/
  | timeCmpTgtLoWrite (acc : Accessor) (n : Fin 32) (v : Word)
  /-- COMPARATOR_FIRE (R73). A comparator fires when its base reaches its target, sets FIRED, may interrupt and advances by its period. -/
  | comparatorFire (n : Fin 32)
  /-- PPS_IN_EDGE (R84). A rising PPS_IN edge is stamped with the time in use and increments SEQ, ignored if within 1 µs. -/
  | ppsInEdge (n : Fin 2) (sub : BitVec 6)
  /-- PPS_OUT_PULSE_END (R85). The pulse ends after WIDTH µs. -/
  | ppsOutPulseEnd (n : Fin 4)
  /-- SLOT_START (R92). At each slot start the timer sets COUNT, records NS64 and sends a slot-start event to all dispatchers. -/
  | slotStart (n : Fin 8)
  /-- SLOT_TMR_CTRL_WRITE (R91). Enabling checks PERIOD and OFFSET, setting CFG_REJ on failure or on an EPOCH change while enabled. -/
  | slotTmrCtrlWrite (acc : Accessor) (n : Fin 8) (v : Word)
  /-- TSU_TX_POP (R82). Removes the head of the MAC's transmit stamp FIFO. -/
  | tsuTxPop (acc : Accessor)
  /-- TSU_RCLK_CTRL_WRITE (R86). Selects a recovered-clock lane and divider, raising DIV to keep 200 MHz or less and setting DIV_ADJ. -/
  | tsuRclkCtrlWrite (acc : Accessor) (n : Fin 2) (v : Word)
  /-- LANE_LOSS_OF_SIGNAL (R99). A lane reports loss of signal and its engine takes the link-down action. -/
  | laneLossOfSignal (lane : Fin 256) (inflight : Fin 65536)
  /-- EYE_MONITOR_UPDATE (R98). Every 1 ms the eye monitor updates LANE_EYE. -/
  | eyeMonitorUpdate (lane : Fin 256) (eyes : BitVec 16 × BitVec 16 × BitVec 16) (width : BitVec 8) (errs : BitVec 16) (uncorr : BitVec 16)
  /-- RING_PROD_WRITE (R101). Software advances a ring producer index, ignored if it would exceed the ring size. -/
  | ringProdWrite (acc : Accessor) (ring : RingKind) (v : Word)
  /-- MAC_LINK_UP (R104). After auto-negotiation and link training with a matching partner the MAC link comes up. -/
  | macLinkUp (mac : Fin 64) (partner : MacPage) (trained : Bool)
  /-- MAC_TX_DESCRIPTOR (R105). The MAC reads a transmit descriptor and buffer, applies MACsec and stamping, sends the frame and writes back DONE. -/
  | macTxDescriptor (mac : Fin 72) (edge : WireEdge) (ingress : Nat)
  /-- MAC_RX_FRAME (R106). A received frame is checked, verified by MACsec, stamped and written to a posted receive descriptor or dropped. -/
  | macRxFrame (mac : Fin 72) (frame : List Byte) (fcsOk : Bool) (edge : WireEdge)
  /-- FH_RX_FRAME (R111). A fronthaul frame is matched in the discovery table, windowed, expanded and written with POSTED_WRITE, or dropped and counted. -/
  | fhRxFrame (f : Fin 16) (frame : FhFrame) (edge : WireEdge)
  /-- FH_TX_DEPARTURE (R114). A fronthaul transmit descriptor departs at S minus its advance, is rushed, or completes late. -/
  | fhTxDeparture (f : Fin 16)
  /-- FH_FLUSH (R110). Releases every discovery entry the engine owns. -/
  | fhFlush (acc : Accessor)
  /-- FH_ENTRY_AGE_OUT (R110). An entry that sees no frame for AGE seconds is released with its binding. -/
  | fhEntryAgeOut (isRu : Bool) (idx : Fin 4096)
  /-- CPRI_STARTUP (R116). The framer runs CPRI layer-1 start-up and aligns radio frames to the slot timer. -/
  | cpriStartup (f : Fin 8) (nextState : BitVec 3) (rtt : Word)
  /-- CPRI_BASIC_FRAME (R116). Each basic frame's antenna-carrier samples are expanded and written, or read and inserted. -/
  | cpriBasicFrame (f : Fin 8) (bits : List Byte)
  /-- CPRI_LINK_LOSS (R116). On link loss the framer counts it and restarts start-up. -/
  | cpriLinkLoss (f : Fin 8)
  /-- PCIE_INBOUND_REQUEST (R117). An inbound BAR0 or BAR2 memory request is translated and injected as the function's accessor. -/
  | pcieInboundRequest (c : Fin 2) (fn : Fin 2) (req : PcieReq)
  /-- PCIE_DMA_DESCRIPTOR (R118). A DMA channel performs one descriptor's transfer and writes back its status. -/
  | pcieDmaDescriptor (c : Fin 2) (ch : Fin 4) (cpl : Option (List Byte))
  /-- PCIE_LINK_DOWN (R119). When a PCIe link goes down pending DMA descriptors finish with status 3. -/
  | pcieLinkDown (c : Fin 2)
  /-- CHL_BRING_UP (R122). Training at version-1 rate exchanges bitmaps, trains common versions and switches to the highest, reaching UP. -/
  | chlBringUp (f : Fin 16) (partner : BitVec 4) (partnerLanes : BitVec 3) (trained : BitVec 4)
  /-- CHL_VERSION_FAIL (R123). A version that fails training or drops three times in 10 s is removed with higher ones and bring-up restarts. -/
  | chlVersionFail (f : Fin 16) (version : BitVec 3)
  /-- CHL_RETRY (R123). With no common version left the engine retries once per second at the lowest original version. -/
  | chlRetry (f : Fin 16) (trained : Bool)
  /-- CHL_RENEGOTIATE (R124). An up link exchanges new bitmaps in band and switches to the highest common version. -/
  | chlRenegotiate (f : Fin 16) (partner : BitVec 4) (trained : Bool)
  /-- CHL_LINK_DROP (R126). On link loss pending requests get LINK_DOWN, queued posted writes are discarded and owed responses dropped. -/
  | chlLinkDrop (f : Fin 16)
  /-- CHL_CFG_EN_WRITE (R125). A write of 1 to CHL_CFG.EN starts bring-up with the held version mask. -/
  | chlCfgEnWrite (acc : Accessor) (v : Word)
  /-- CHL_WIN_XLAT_WRITE (R127). Writing a window's translation base accepts only 0 or 1 and sets XLAT_REJ otherwise. -/
  | chlWinXlatWrite (acc : Accessor) (v : Word)
  /-- CHL_REMOTE_REQUEST (R121). A request arriving over the chassis link is forwarded into Antler with the engine as initiator. -/
  | chlRemoteRequest (f : Fin 16) (p : Packet)
  /-- REQUEST_INJECTION (R138). An injection interface decodes a request, checks it, applies outstanding limit and tokens, and injects or refuses it. -/
  | requestInjection (p : Packet)
  /-- TOKEN_REFILL (R147). Every 250 ns of NS64 each VC0 and VC1 bucket gains RATE tokens up to BURST. -/
  | tokenRefill
  /-- NOC_RATE_WRITE (R147). Writing a rate regulator sets RATE, BURST and EN, filling the bucket on enable and trimming it to a lower BURST. -/
  | nocRateWrite (acc : Accessor) (vc1 : Bool) (v : Word)
  /-- NOC_STAT_CLR (R149). Zeroes every network counter of the selected initiator. -/
  | nocStatClr (acc : Accessor)
  /-- READ (R134). A READ arriving at its target returns READ_RESPONSE or ERROR_RESPONSE. -/
  | read (p : Packet) (ups : List Upset)
  /-- WRITE (R134). A WRITE arriving at its target is performed and answered with WRITE_RESPONSE or ERROR_RESPONSE. -/
  | write (p : Packet) (ups : List Upset)
  /-- POSTED_WRITE (R134). A POSTED_WRITE arriving at its target is performed without response, or discarded with a UE event. -/
  | postedWrite (p : Packet) (ups : List Upset)
  /-- ATOMIC (R135). An ATOMIC is checked and performed indivisibly, returning the old value. -/
  | atomic (p : Packet) (ups : List Upset)
  /-- MESSAGE (R209). A MESSAGE is written to a core inbox slot or delivered on a fabric port's TREQ, or discarded elsewhere. -/
  | message (p : Packet)
  /-- SUBMIT (R153). A SUBMIT's descriptor is checked and taken into the dispatcher pool or refused with MALFORMED. -/
  | submit (p : Packet)
  /-- DEBUG_READ (R464). A side-effect-free read returns data without popping, clearing or reserving. -/
  | debugRead (p : Packet)
  /-- DEBUG_WRITE (R134). A debug write is performed and answered with WRITE_RESPONSE. -/
  | debugWrite (p : Packet)
  /-- READ_RESPONSE (R146). A read response arriving at its initiator delivers data and frees the reservation. -/
  | readResponse (p : Packet)
  /-- WRITE_RESPONSE (R146). A write response arriving at its initiator completes the request and frees its reservation. -/
  | writeResponse (p : Packet)
  /-- ERROR_RESPONSE (R137). An error response arriving at its initiator completes the request with its status code. -/
  | errorResponse (p : Packet)
  /-- NOC_BRIDGE_FAULT (R149). An uncorrected bridge fault sets FAULT and is logged as FE. -/
  | nocBridgeFault
  /-- TSK_SUBMIT_GO (R153). Submits the accessor's 16 staged words to the quadrant in TSK_SEL, setting SUB_REJ on refusal. -/
  | tskSubmitGo (acc : Accessor) (v : Word)
  /-- DISPATCH_TICK (R157). At each tick the dispatcher adds the allowance, releases due delay-list entries and makes a decision pass. -/
  | dispatchTick (q : Fin 4)
  /-- TSK_SIGNAL (R158). Writing an ID signals it in the quadrant in TSK_SEL. -/
  | tskSignal (acc : Accessor) (v : Word)
  /-- SIGNAL_ARRIVAL (R158). A signal decrements a waiting task's counter, is ignored as extra, or is held or lost in the pending table. -/
  | signalArrival (q : Fin 4)
  /-- TASK_DELIVERY (R150). A descriptor sent over a task link arrives at its element. -/
  | taskDelivery (q : Fin 4)
  /-- TASK_END (R168). An element reports a task's end; the dispatcher signals, posts a completion entry and frees the pool entry. -/
  | taskEnd (q : Fin 4)
  /-- VARIANT_FETCH_COMPLETE (R162). A variant fetch response arrives, setting var_ready or VAR_FAIL. -/
  | variantFetchComplete (p : Packet)
  /-- PREEMPT_TIMEOUT (R166). A preemption not accepted within TMO_US is withdrawn and counted. -/
  | preemptTimeout (q : Fin 4) (k : Fin 64)
  /-- CQ_ENTRY_WRITTEN (R169). The completion entry write's response arrives and PROD advances, with MSI-X. -/
  | cqEntryWritten (p : Packet)
  /-- TSK_CQ_IDX_WRITE (R170). Software advances a completion queue's CONS, freeing room for buffered entries. -/
  | tskCqIdxWrite (acc : Accessor) (v : Word)
  /-- TSK_FLUSH (R171). Writing TSK_FLUSH cancels waiting tasks of the masked priorities. -/
  | tskFlush (acc : Accessor) (v : Word)
  /-- PEND_CLR (R173). Empties the pending-signal table. -/
  | pendClr (acc : Accessor) (v : Word)
  /-- TSK_STAT_CLR (R173). Zeroes the five dispatcher counters. -/
  | tskStatClr (acc : Accessor) (v : Word)
  /-- TSK_TICK_WRITE (R173). Writes the tick length, clamped with TICK_CLAMP, effective at the next tick boundary. -/
  | tskTickWrite (acc : Accessor) (v : Word)
  /-- PACE_SENSOR_UPDATE (R175). Every 1 µs each cluster sensor writes CL_PACE with the unstalled pace. -/
  | paceSensorUpdate (e : Fin 136) (pace : BitVec 16)
  /-- TASK_START (R193). A delivered task loads STAT, sets A_0, A_1, A_15, loads the watchdog and begins at ENTRY. -/
  | taskStart (core : Fin 256)
  /-- ILLEGAL_BUNDLE (R214). An illegal bundle executes as a NOP in all slots and raises ILLEGAL_OP. -/
  | illegalBundle (core : Fin 256)
  /-- NOP (R214). A zero slot word does nothing. -/
  | nop (core : Fin 256) (k : Fin 4)
  /-- LDX (R218). Loads a word or lane from P, X, control page or scratchpad with addressing and post-modify. -/
  | ldx (core : Fin 256)
  /-- STX (R218). Stores a word or lane to P, X, control page or scratchpad. -/
  | stx (core : Fin 256)
  /-- LDG (R221). Sends an interlocked READ through an Antler window. -/
  | ldg (core : Fin 256)
  /-- STG (R221). Sends a WRITE or POSTED_WRITE through an Antler window. -/
  | stg (core : Fin 256)
  /-- ATOM_GLOBAL (R222). Sends an ATOMIC through a window returning the old value. -/
  | atomGlobal (core : Fin 256)
  /-- ATOM_LOAD_RESERVED (R208). Reads a scratchpad word and reserves it. -/
  | atomLoadReserved (core : Fin 256)
  /-- ATOM_STORE_CONDITIONAL (R208). Stores a scratchpad word only if the reservation holds and reports success. -/
  | atomStoreConditional (core : Fin 256)
  /-- LDY (R218). Loads a word from Y or the scratchpad. -/
  | ldy (core : Fin 256)
  /-- STY (R218). Stores a word to Y or the scratchpad. -/
  | sty (core : Fin 256)
  /-- CMA (R182). Adds a × b to the accumulator lanes. -/
  | cma (core : Fin 256)
  /-- CMAJ (R182). Adds a × conj(b) to the accumulator lanes. -/
  | cmaj (core : Fin 256)
  /-- CMUL (R182). Replaces the accumulator lanes with a × b. -/
  | cmul (core : Fin 256)
  /-- RNDN (R183). Narrows an accumulator into a V register with rounding and optional saturation. -/
  | rndn (core : Fin 256)
  /-- MOV_V_ACC (R223). Copies an accumulator into three V registers. -/
  | movVAcc (core : Fin 256)
  /-- MOV_ACC_V (R223). Loads an accumulator from three V registers. -/
  | movAccV (core : Fin 256)
  /-- MOV_ACC_ZERO (R223). Zeroes an accumulator and clears its poison. -/
  | movAccZero (core : Fin 256)
  /-- VADD (R225). Adds vector elements lane-wise with optional saturation. -/
  | vadd (core : Fin 256)
  /-- VSUB (R225). Subtracts vector elements lane-wise with optional saturation. -/
  | vsub (core : Fin 256)
  /-- VADD_A (R225). Adds A registers or an immediate with wrap. -/
  | vaddA (core : Fin 256)
  /-- VSUB_A (R225). Subtracts A registers or an immediate with wrap. -/
  | vsubA (core : Fin 256)
  /-- VSHF_PERM (R225). Permutes 32-bit lanes by PAT. -/
  | vshfPerm (core : Fin 256)
  /-- VSHF_SHL (R225). Shifts elements left by SH. -/
  | vshfShl (core : Fin 256)
  /-- VSHF_SHR (R225). Shifts elements logically right by SH. -/
  | vshfShr (core : Fin 256)
  /-- VSHF_ASR (R225). Shifts elements arithmetically right by SH. -/
  | vshfAsr (core : Fin 256)
  /-- BFLY (R225). Writes sum and difference of two vectors, optionally halved. -/
  | bfly (core : Fin 256)
  /-- SAT (R225). Clamps elements to w bits and sets OVF on a clamp. -/
  | sat (core : Fin 256)
  /-- MOV (R226). Moves between numbered registers under the move rules. -/
  | mov (core : Fin 256)
  /-- MOVI (R226). Writes a 16-bit immediate into an A register, low sign-extended or high half. -/
  | movi (core : Fin 256)
  /-- LOOP (R190). Starts a hardware loop level with start, end and count. -/
  | loop (core : Fin 256)
  /-- BR (R227). Branches to a bundle index after two delay slots. -/
  | br (core : Fin 256)
  /-- BRC (R228). Branches conditionally on an A register or predicate. -/
  | brc (core : Fin 256)
  /-- CALL (R227). Branches and writes the return address to A_d. -/
  | call (core : Fin 256)
  /-- RET (R227). Branches to the address in A_s. -/
  | ret (core : Fin 256)
  /-- RET_I (R201). Branches to IPC and restores STAT from ISTAT. -/
  | retI (core : Fin 256)
  /-- SYNC_MEM (R194). Stalls until earlier global and scratchpad stores complete. -/
  | syncMem (core : Fin 256)
  /-- SYNC_P (R178). Waits until earlier stores to P can be fetched. -/
  | syncP (core : Fin 256)
  /-- SYNC_END (R194). Ends the running task, reports DONE, stops the watchdog and idles or resumes a lower task. -/
  | syncEnd (core : Fin 256)
  /-- SYNC_ACCEPT (R195). Accepts a pending preemption and starts the new task, or branches to A_r. -/
  | syncAccept (core : Fin 256)
  /-- WAITEV (R196). Stalls until a masked interrupt source is pending. -/
  | waitev (core : Fin 256)
  /-- SUBMIT_INSTRUCTION (R230). Reads a descriptor and sends it as an Antler SUBMIT, stalling until taken or refused. -/
  | submitInstruction (core : Fin 256)
  /-- STIM (R231). Writes a stimulus port, emitting a trace packet without stalling. -/
  | stim (core : Fin 256)
  /-- INTERLOCKED_LOAD_ARRIVAL (R189). Data for an interlocked load arrives and writes its destination, or writes poisoned 0 with GLOBAL_ERR. -/
  | interlockedLoadArrival (core : Fin 256) (k : Fin 64)
  /-- INTERRUPT_ENTRY (R200). At a legal bundle boundary the core retires in-flight operations, saves IPC and ISTAT and branches to the vector. -/
  | interruptEntry (core : Fin 256)
  /-- CORE_TIMER_FIRE (R206). The core timer reaches its target and sets source 1 pending once. -/
  | coreTimerFire (core : Fin 256)
  /-- TC_TIMER_LO_WRITE (R206). Commits the core timer target and re-arms it. -/
  | tcTimerLoWrite (acc : Accessor) (v : Word)
  /-- WATCHDOG_EXPIRY (R206). The core watchdog expires, warning and reloading once or faulting with WDT_EXPIRED. -/
  | watchdogExpiry (core : Fin 256)
  /-- TC_WDT_KICK (R206). Reloads the watchdog and clears WARNED. -/
  | tcWdtKick (acc : Accessor) (v : Word)
  /-- TC_IRQ_SET (R197). Sets doorbell or software interrupt sources pending. -/
  | tcIrqSet (acc : Accessor) (v : Word)
  /-- CLUSTER_RESET (R426). CL_CTRL.RESET stops the cluster's cores, ends tasks with RESET, drains and restores defaults. -/
  | clusterReset (req : Option Accessor) (c : Fin 32)
  /-- PAGE_REBUILD (R282). An uncorrectable word holds its bank while the page is read and up to two erasures recovered, or words stored as poison. -/
  | pageRebuild (g : Fin 43) (word : Fin 4194304) (ups : List Upset)
  /-- AGENT_ACCESS_STARVED (R278). An agent access waiting over 10 µs for its bank is marked starved and counted. -/
  | agentAccessStarved (g : Fin 43) (bank : Fin 256)
  /-- ENGINE_JOB_START (R234). An engine reads its 64-byte job once and checks it, ending with JOB_FORMAT or JOB_READ on failure. -/
  | engineJobStart (e : Fin 104)
  /-- LDPC_DECODE_JOB (R242). Decodes code blocks by layered min-sum with early termination and CRC checks. -/
  | ldpcDecodeJob (e : Fin 104)
  /-- LDPC_ENCODE_JOB (R246). Appends CRC, encodes code blocks and writes codeword bits. -/
  | ldpcEncodeJob (e : Fin 104)
  /-- TURBO_DECODE_JOB (R247). Decodes turbo code blocks by max-log-MAP. -/
  | turboDecodeJob (e : Fin 104)
  /-- POLAR_DECODE_JOB (R248). Rate-recovers and list-decodes polar blocks with CRC aid. -/
  | polarDecodeJob (e : Fin 104)
  /-- NR_UPLINK_DE_RATE_MATCHING (R250). Descrambles, de-interleaves and maps NR LLRs to circular buffers with optional HARQ combining. -/
  | nrUplinkDeRateMatching (e : Fin 104)
  /-- NR_DOWNLINK_RATE_MATCHING (R250). Selects, interleaves and scrambles NR coded bits. -/
  | nrDownlinkRateMatching (e : Fin 104)
  /-- LTE_UPLINK_DE_RATE_MATCHING (R250). De-rate-matches LTE LLRs with optional HARQ combining. -/
  | lteUplinkDeRateMatching (e : Fin 104)
  /-- LTE_DOWNLINK_RATE_MATCHING (R250). Rate-matches LTE coded bits. -/
  | lteDownlinkRateMatching (e : Fin 104)
  /-- SOFT_BUFFER_CLEAR (R250). Writes zeros over a HARQ process's soft buffers. -/
  | softBufferClear (e : Fin 104)
  /-- HARQ_LOCK_GRANT (R252). A waiting job is granted its (space, process) lock after release. -/
  | harqLockGrant (e : Fin 104)
  /-- FFT_JOB (R263). Transforms symbols forward or inverse with prefix handling, mapping and scaling. -/
  | fftJob (e : Fin 104)
  /-- MATRIX_MUL (R266). Computes op(A) × B per problem. -/
  | matrixMul (e : Fin 104)
  /-- MATRIX_CHOL (R266). Computes the Cholesky factor or its inverse with pivot flooring. -/
  | matrixChol (e : Fin 104)
  /-- MATRIX_QR (R266). Computes R and optionally Q per problem. -/
  | matrixQr (e : Fin 104)
  /-- MATRIX_MMSE_IRC (R266). Computes MMSE-IRC weights and optional gains per problem. -/
  | matrixMmseIrc (e : Fin 104)
  /-- MATRIX_INTERP (R266). Averages pilot vectors and interpolates them by F. -/
  | matrixInterp (e : Fin 104)
  /-- PRACH_JOB (R271). Correlates preambles over roots, antennas and repetitions and lists detections. -/
  | prachJob (e : Fin 104)
  /-- ENGINE_TASK_END (R236). After output and record responses the engine reports the task end with its status code. -/
  | engineTaskEnd (e : Fin 104) (fault : Bool)
  /-- CLEAR_FAULT (R238). Re-initialises a faulted engine, returning it to idle within 20 µs. -/
  | clearFault (acc : Accessor) (v : Word)
  /-- ACC_ENG_STAT_CLR (R255). Zeroes the selected engine's job and iteration counters. -/
  | accEngStatClr (acc : Accessor) (v : Word)
  /-- ACC_ENG_HARQ_CFG_WRITE (R256). Enables a HARQ space only if stride, count and range are valid, else sets REJ. -/
  | accEngHarqCfgWrite (acc : Accessor) (v : Word)
  /-- SCRUB_WORD (R289). The scrubber reads the next word of a group at its interval and corrects or rebuilds it. -/
  | scrubWord (g : Fin 43) (ups : List Upset)
  /-- RANGE_GO (R290). Starts a range pass, or refuses it with RANGE_REJ. -/
  | rangeGo (acc : Accessor)
  /-- RANGE_ABORT (R290). Ends a running range pass and sets RANGE_DONE. -/
  | rangeAbort (acc : Accessor)
  /-- RANGE_PASS_WORD (R290). A range pass checks one word in an idle step and counts it. -/
  | rangePassWord (g : Fin 43) (ups : List Upset)
  /-- BIST_BLOCK_START (R291). Copies the next block into the shadow and begins its March test. -/
  | bistBlockStart (g : Fin 43) (ups : List Upset)
  /-- BIST_BLOCK_END (R291). Copies the block back on pass or repairs it with a spare row on fail. -/
  | bistBlockEnd (g : Fin 43) (pass : Bool)
  /-- COUNTER_NODE_REBUILD (R287). A disagreeing non-leaf counter node is rebuilt from its children and STALE cleared. -/
  | counterNodeRebuild (level : Fin 5) (idx : Fin 16384)
  /-- ECC_TBL_CLR (R294). Empties the group's error table. -/
  | eccTblClr (acc : Accessor)
  /-- ECC_CNT_CLR (R294). Zeroes every counter node and clears PARTIAL. -/
  | eccCntClr (acc : Accessor)
  /-- HBM_INIT_FILL (R312). Each controller fills its stack with zeros under a fresh integrity key and sets INIT_DONE. -/
  | hbmInitFill (st : Fin 2)
  /-- HBM_TRAINING (R311). Firmware trains a stack, setting TRAINED or marking failed pseudo-channels offline. -/
  | hbmTraining (st : Fin 2) (failed : BitVec 32)
  /-- HBM_SCRUB_LINE (R314). A pseudo-channel reads one line at its interval and corrects or counts it. -/
  | hbmScrubLine (pc : Fin 64) (damage : List (Fin 72 × Byte))
  /-- HBM_PC_FAULT (R313). An uncorrected interface fault makes the pseudo-channel answer TARGET_FAULT. -/
  | hbmPcFault (pc : Fin 64)
  /-- HBM_PC_OFFLINE (R313). Firmware sets the faulted pseudo-channel offline and records HBM_PC_FAIL. -/
  | hbmPcOffline (pc : Fin 64)
  /-- CIPH_REGION_CTRL_WRITE (R316). Enables a cipher region only if its limit is above its base and within 32 GiB, else sets REJ. -/
  | ciphRegionCtrlWrite (acc : Accessor) (v : Word)
  /-- BM_PORT_ACCESS (R327). A block memory port reads or writes at its clock edge, resolving collisions bit by bit. -/
  | bmPortAccess (block : Fin 8192) (a : Option BmReq) (b : Option BmReq) (ups : List Upset)
  /-- BM_PAGE_REBUILD (R329). An uncorrectable block-memory word is rebuilt with WAIT raised, or stored as poison. -/
  | bmPageRebuild (block : Fin 8192) (page : Bool) (ups : List Upset)
  /-- BM_COLL_CLR (R352). Clears the COLL flags of a region's blocks. -/
  | bmCollClr (acc : Accessor) (v : Word)
  /-- FP_IREQ_PACKET (R339). A user-logic request on IREQ has its header fixed, is checked for key and VC, and is injected or refused. -/
  | fpIreqPacket (port : Fin 128) (p : Packet)
  /-- FP_TRSP_RESPONSE (R341). A user-logic response is matched to an outstanding TREQ request or discarded with BAD_RSP. -/
  | fpTrspResponse (port : Fin 128) (p : Packet)
  /-- FP_TARGET_TIMEOUT (R341). An unanswered TREQ request is answered with TARGET_FAULT after TGT_TMO_US. -/
  | fpTargetTimeout (port : Fin 128)
  /-- FP_PORT_INACTIVE (R342). A port going inactive faults outstanding requests and completes a partial IREQ packet with poison. -/
  | fpPortInactive (acc : Accessor) (v : Word)
  /-- IO_BANK_SUPPLY_LOST (R349). A bank's supply leaves range, its outputs float and state reads LOST. -/
  | ioBankSupplyLost (bank : Fin 16)
  /-- IO_BANK_SUPPLY_RESTORED (R349). A bank supply in range for 1 ms resumes with the image's settings. -/
  | ioBankSupplyRestored (bank : Fin 16)
  /-- BOOT_FLOW (R367). After reset release the engine clears frames and reads the boot container from the strapped source. -/
  | bootFlow (mode : BitVec 3) (gold : BitVec 2)
  /-- CRYSTAL_STABLE (R405). The 25 MHz crystal completes its stable count and boot continues with the fuse read. -/
  | crystalStable
  /-- CONTAINER_HEADER (R362). The container header passes or fails checks 1-5 before anything is written. -/
  | containerHeader (bytes : List Byte)
  /-- CONTAINER_CHUNK (R362). A chunk's CRC and GCM tag are checked and its records deciphered. -/
  | containerChunk (bytes : List Byte)
  /-- FRAMES (R360). Writes frames with their data after the contention check. -/
  | frames
  /-- ZERO (R360). Writes frames to 0. -/
  | zero
  /-- DATA (R360). Writes bytes to a global address with WRITE on VC3 and measures program images. -/
  | data
  /-- ISO (R360). Writes a region's isolation modes. -/
  | iso
  /-- PORT (R360). Writes a fabric port's control and key mask. -/
  | port
  /-- FIRMWARE (R360). Places the Chamois firmware package in private memory. -/
  | firmware
  /-- END (R360). Marks the end of the payload. -/
  | endRecord
  /-- SIGNATURE_BLOCK (R362). The signer's key hash and signature are checked, ending the load. -/
  | signatureBlock (bytes : List Byte) (extra : Bool)
  /-- LOAD_STALL_TIMEOUT (R362). A streamed source delivering nothing for 50 ms ends the load with EARLY_END. -/
  | loadStallTimeout
  /-- GOLDEN_FALLBACK (R366). After a primary failure frames are cleared and the golden container is read. -/
  | goldenFallback
  /-- START_UP (R369). Releases GSR, starts regions, applies I/O settings, releases DONE and starts Chamois. -/
  | startUp (supplies : List (BitVec 16))
  /-- REGION_STARTUP (R372). Releases set-reset, applies ports, passes inputs and lifts clamps to ACTIVE. -/
  | regionStartup (r : Fin 64)
  /-- PR_HOST_CTRL_GO (R368). Starts a boot load from host memory in boot mode 010. -/
  | prHostCtrlGo (acc : Accessor) (v : Word)
  /-- INTPORT_CONTAINER (R374). An overlay delivered through the internal configuration port is checked and loaded or refused with LOCKED. -/
  | intportContainer (hdr : List Byte)
  /-- REGION_RESET (R373). Isolates a region, holds set-reset 1 µs and restarts it with its configuration. -/
  | regionReset (r : Fin 64) (ended : Bool)
  /-- PR_ISO_MODE_WRITE (R371). Sets the isolation values of border groups, effective at once. -/
  | prIsoModeWrite (acc : Accessor) (w : Fin 4) (v : Word)
  /-- CFG_SCRUB_FRAME (R377). The scrubber reads a frame, correcting single-bit errors in place. -/
  | cfgScrubFrame (hit : FrameRead)
  /-- CFG_FRAME_REPAIR (R377). A multi-bit frame error is reloaded from its repair source, or recorded as lost. -/
  | cfgFrameRepair (chunk : List Byte)
  /-- CFG_SCRUB_LAP_END (R379). At lap end the device CRC is compared and a mismatch sets CRC_ERR. -/
  | cfgScrubLapEnd (mismatch : Bool)
  /-- PROGRAM_N_LOW (R365). PROGRAM_N held low at least 1 µs starts a FABRIC reset and aborts any load. -/
  | programNLow (ns : BitVec 32) (seen : Bool)
  /-- POWER_DOWN_ATTEMPT (R385). A domain stops issuing requests and drains outstanding requests. -/
  | powerDownAttempt (d : Fin 256)
  /-- DRAIN_TIMEOUT (R385). Outstanding requests not drained in 1 ms end the attempt with the domain ON. -/
  | drainTimeout (d : Fin 256)
  /-- FENCE (R385). With outstanding count 0 the domain's ingress is marked closing. -/
  | fence (d : Fin 256)
  /-- POINT_OF_NO_RETURN (R385). Retention save begins and later requests are parked. -/
  | pointOfNoReturn (d : Fin 256)
  /-- DOMAIN_OFF (R385). The domain reaches OFF and wakes at once if a request was parked. -/
  | domainOff (d : Fin 256)
  /-- POWER_DOWN_RETRY (R386). After 100 µs without access firmware begins a new power-down attempt. -/
  | powerDownRetry (d : Fin 256)
  /-- DOMAIN_POWER_UP_COMPLETE (R387). A waking domain becomes ready and parked packets are delivered in order. -/
  | domainPowerUpComplete (d : Fin 256)
  /-- WAKE_TIMEOUT (R388). A domain not ready within its wake time-out fails parked requests and sets FAIL. -/
  | wakeTimeout (d : Fin 256)
  /-- PWR_DOM_CTRL_ON (R389). Register action powering the selected domain on and removing its lock. -/
  | pwrDomCtrlOn (acc : Accessor) (v : Word)
  /-- PWR_DOM_CTRL_OFF (R385). Register action powering the selected domain down. -/
  | pwrDomCtrlOff (acc : Accessor) (v : Word)
  /-- PWR_DOM_CTRL_LOCK_OFF (R389). Register action powering the domain down locked off. -/
  | pwrDomCtrlLockOff (acc : Accessor) (v : Word)
  /-- PWR_DOM_CTRL_UNLOCK (R389). Register action removing the lock and leaving the domain off. -/
  | pwrDomCtrlUnlock (acc : Accessor) (v : Word)
  /-- ENTRY_WINDOW_CLOSE (R394). The 122 µs entry window closes and the state is entered, or left at once on an active level source. -/
  | entryWindowClose
  /-- WAKE_EVENT (R392). An enabled wake source becomes active and wakes the device from DOZE, NAP or HIBERNATE. -/
  | wakeEvent (k : Fin 7) (active : Bool)
  /-- NAP_WAKE (R393). Domains restored in reverse order within 2 ms, dispatch resumes and LAST_WAKE records the source. -/
  | napWake
  /-- HIBERNATE_WAKE (R393). The Mitten regulator returns to normal mode, the crystal settles and the boot flow runs. -/
  | hibernateWake
  /-- HIBERNATE_WAKE_FAIL (R397). A regulator or crystal failing its bound retries the wake, then sets WAKE_FAIL and asserts ALERT_N. -/
  | hibernateWakeFail
  /-- NAP_IDLE_POWER_DOWN (R390). A domain woken on demand in NAP is powered down again after 1 ms without access. -/
  | napIdlePowerDown (d : Fin 256)
  /-- RTC_ALARM (R396). The RTC alarm becomes active at its second. -/
  | rtcAlarm (ticks : BitVec 47)
  /-- PWR_RTC_ALARM_WRITE (R396). Writing the alarm sets it and clears an active alarm. -/
  | pwrRtcAlarmWrite (acc : Accessor) (v : Word)
  /-- GOVERNOR_PERIOD (R400). Every 10 µs the governor updates P̄ and steps or releases a lever against the budget. -/
  | governorPeriod (rails : BitVec 512)
  /-- AVS_TIMEOUT (R401). An unacknowledged AVSBus command sets AVS_FAIL and holds the rail. -/
  | avsTimeout (q : Fin 4)
  /-- DROOP_EVENT (R402). A rail sag stretches the quadrant's fabric clocks and counts the event. -/
  | droopEvent (k : Fin 16) (mv : BitVec 10)
  /-- DROOP_RELEASE (R402). The stretch ends 1 µs after the sag ends. -/
  | droopRelease (q : Fin 4)
  /-- TEMP_SOFT_CROSSING (R399). A sensor reaching TEMP_SOFT makes the quadrant hot, released below TEMP_SOFT − 3 °C. -/
  | tempSoftCrossing (t : Fin 64) (v : BitVec 12)
  /-- TEMP_HARD (R403). Reaching TEMP_HARD drops rails to 0.55 V, divides fabric clocks, sets HARD and asserts ALERT_N. -/
  | tempHard (t : Fin 64) (v : BitVec 12)
  /-- TEMP_HARD_RELEASE (R496). All sensors below TEMP_HARD − 5 °C release the hard limit. -/
  | tempHardRelease (t : Fin 64) (v : BitVec 12)
  /-- THERMAL_TRIP (R403). At 115 °C the comparator asserts THERM_TRIP_N. -/
  | thermalTrip (t : Fin 64) (v : BitVec 12)
  /-- CLOCK_MONITOR_WINDOW (R406). Each 40.96 µs window judges a source GOOD or BAD. -/
  | clockMonitorWindow (k : Fin 61) (count : Word)
  /-- CLOCK_SOURCE_STOPPED (R406). No edge within 5 periods marks a source STOPPED. -/
  | clockSourceStopped (k : Fin 61)
  /-- LOOP_LOSS (R409). A loop losing its source or lock coasts at the lowest VCO frequency and sets LOSS and COASTING. -/
  | loopLoss (l : Fin 85)
  /-- LOOP_AUTO_RELOCK (R409). With AUTO set, a loop reacquires once its source has been GOOD for 1 ms. -/
  | loopAutoRelock (l : Fin 85)
  /-- RELOCK (R408). Starts acquisition with the staged settings, refusing invalid ones with CFG_REJ. -/
  | relock (acc : Accessor) (v : Word)
  /-- LOOP_LOCK (R409). A loop locks and its outputs move to the locked frequency, switching root muxes or releasing held domains. -/
  | loopLock (l : Fin 85)
  /-- CLK_MUX_SWITCH (R413). A SEL write starts a glitch-free switch and sets MUX_PENDING. -/
  | clkMuxSwitch (acc : Accessor) (v : Word)
  /-- CLK_MUX_SWITCH_COMPLETE (R413). After the falling edges the mux passes the new clock and CUR updates. -/
  | clkMuxSwitchComplete (m : Fin 48) (first : Bool)
  /-- MUX_STUCK (R413). A switch waiting 1 ms sets MUX_STUCK. -/
  | muxStuck (m : Fin 48)
  /-- DOM_RESET (R414). SEL with DOM_RESET takes the new input at once and resets the mux's domain. -/
  | domReset (acc : Accessor) (v : Word)
  /-- CLOCK_GATE_REQUEST (R415). A block idle for IDLE cycles requests a gate and closes it unless an access is held. -/
  | clockGateRequest (blk : Fin 15) (held : Bool)
  /-- GATED_BLOCK_WAKE (R415). An access to a gated block restarts its clock and is served. -/
  | gatedBlockWake (blk : Fin 15)
  /-- POR (R420). Power-on or monitored-rail loss resets the whole device including Mitten. -/
  | por
  /-- PIN_RESET (R420). RESET_N low for 1 µs resets all but Mitten and debug. -/
  | pinReset (ns : BitVec 32) (seen : Bool)
  /-- WARM_RESET (R420). A WARM reset restarts the boot flow from step 2 keeping error state and memories. -/
  | warmReset
  /-- WATCHDOG_RESET (R420). The Chamois watchdog expiring after 1 s without a kick causes a WARM-like reset. -/
  | watchdogReset
  /-- DEBUG_RESET (R427). Releases every halt and clears breakpoints, trace and the debug unlock. -/
  | debugReset
  /-- FIRMWARE_RESTORE (R428). After boot firmware restores loops, HBM, lanes, servo and governor, records RESET_CAUSE and sets FW_READY. -/
  | firmwareRestore
  /-- GET_NONCE (R437). Provisioning request returning the next nonce. -/
  | getNonce (req : BitVec 2176)
  /-- ADVANCE (R431). Blows the next lifecycle fuse; RETIRED zeroises keys at once. -/
  | advance (req : BitVec 2176) (blow : Fin 3)
  /-- IMAGE_SLOT (R437). Programs an image-key slot with a wrapped key and signing-key hash. -/
  | imageSlot (req : BitVec 2176) (blow : Fin 3)
  /-- REVOKE_SLOT (R433). Revokes an image-key slot if a higher slot is usable. -/
  | revokeSlot (req : BitVec 2176) (blow : Fin 3)
  /-- DEBUG_HASH (R437). Programs a debug-authorisation hash slot. -/
  | debugHash (req : BitVec 2176) (blow : Fin 3)
  /-- GOLDEN_BASE (R437). Programs the golden base fuse. -/
  | goldenBase (req : BitVec 2176) (blow : Fin 3)
  /-- KEY_RAM_LOAD (R439). Loads a wrapped key into a key RAM entry. -/
  | keyRamLoad (req : BitVec 2176)
  /-- KEY_RAM_CLEAR (R437). Clears one or all key RAM entries. -/
  | keyRamClear (req : BitVec 2176)
  /-- PROVE (R438). Returns identity and lifecycle signed with the identity key over the verifier's challenge. -/
  | prove (req : BitVec 2176)
  /-- CERT_READ (R438). Returns one 64-byte block of the certificate store. -/
  | certRead (req : BitVec 2176)
  /-- TAMPER (R440). TAMPER_N low 2 µs zeroises the key RAM, clears key slots and the debug unlock. -/
  | tamper (ns : BitVec 32) (powered : Bool)
  /-- VBAT_LOSS (R440). Loss of VBAT zeroises the key RAM and clears TAMPERED. -/
  | vbatLoss
  /-- DEBUG_CHALLENGE_EXPIRY (R447). A challenge expires 60 s after issue. -/
  | debugChallengeExpiry
  /-- LOCKOUT_END (R447). The 10 s debug unlock lockout ends. -/
  | lockoutEnd
  /-- COALESCE_WINDOW_CLOSE (R456). An entry's window closes ERR_COALESCE_NS after its last event and it waits to be forwarded. -/
  | coalesceWindowClose (k : Fin 180) (entry : Fin 256)
  /-- COLLECTOR_FORWARD (R456). A collector forwards one closed entry per µs to the next level, which merges or stores it. -/
  | collectorForward (q : Fin 4)
  /-- ERR_STATUS_FE_CLEAR (R449). Clearing ERR_STATUS.FE releases ALERT_N for this cause. -/
  | errStatusFeClear (acc : Accessor) (v : Word)
  /-- DBG_ACCESS (R463). A JTAG debug request is injected as DEBUG_READ, DEBUG_WRITE or a mailbox access after level checks. -/
  | dbgAccess (p : Packet)
  /-- HALT (R465). Requests a halt of the selected agent. -/
  | halt (acc : Accessor)
  /-- CORE_HALTED (R465). After in-flight operations retire the agent halts with its cause recorded. -/
  | coreHalted (core : Fin 256)
  /-- RESUME (R467). Restarts issue at DBG_CORE_PC with the watchdog grace rule. -/
  | resume (acc : Accessor)
  /-- STEP (R467). Issues one bundle and halts again with cause STEP. -/
  | step (acc : Accessor)
  /-- BREAKPOINT_HIT (R468). A bundle matching a breakpoint halts, interrupts or traces before it issues. -/
  | breakpointHit (core : Fin 256)
  /-- HALT_GROUP_PROPAGATE (R469). A member's halt halts every other member of its group. -/
  | haltGroupPropagate (m : Fin 258)
  /-- DBG_REG_DATA_WRITE (R467). Writes a halted core's register and clears its poison, or sets NOT_HALTED. -/
  | dbgRegDataWrite (acc : Accessor) (k : Fin 4) (v : Word)
  /-- DBG_CORE_PC_WRITE (R467). Changes a halted core's resume point and clears loop levels and delay slots. -/
  | dbgCorePcWrite (acc : Accessor) (v : Word)
  /-- DBG_WARM_KEY (R473). A valid key pair within 1 µs at level 2 starts a WARM reset. -/
  | dbgWarmKey (acc : Accessor) (v : Word)
  /-- DBG_CTRL_WRITE (R472). Setting ATTACHED keeps the debug domain powered through every state. -/
  | dbgCtrlWrite (acc : Accessor) (v : Word)
  /-- FABRIC_STIMULUS (R474). A fabric stimulus port write queues a trace packet. -/
  | fabricStimulus (port : Fin 64) (data : BitVec 64) (d64 : Bool)
  /-- CHAMOIS_STIMULUS (R474). A firmware stimulus port write queues a trace packet. -/
  | chamoisStimulus (port : Fin 16) (data : BitVec 64) (d64 : Bool)
  /-- TRACE_DRAIN (R475). The controller drains a source queue round-robin into the selected sink. -/
  | traceDrain
  /-- TRACE_TIME_PACKET (R476). At trace enable and each whole second the controller emits the full NS64. -/
  | traceTimePacket
  /-- LANE_LOCKED (R97). A lane's receiver gains signal, adapts and reaches the locked state, after which LMS adaptation runs and its engine can bring its link up. -/
  | laneLocked (lane : Fin 256)
  /-- MAC_LINK_DOWN (R105). A MAC's link goes down on loss of block or FEC lock, frames in flight complete with status 3 and a link drop is counted. -/
  | macLinkDown (mac : Fin 64) (inflight : Fin 65536)
  /-- PCIE_LINK_UP (R119). A PCIe controller completes link training and PCIE_STATUS.LINK_UP, WIDTH and GEN are set so host accesses and DMA can proceed. -/
  | pcieLinkUp (c : Fin 2) (width : BitVec 3) (gen : BitVec 3)
  /-- QUIET_PERIOD_TIMEOUT (R386). When no 100 µs quiet period comes within 100 ms after a failed power-down attempt, that attempt and all remaining ones count as failed, so POWER_DOMAIN completes with E_TIMEOUT or the domain is kept on with KEPT_ON. -/
  | quietPeriodTimeout (d : Fin 256)
  deriving DecidableEq, Repr

end Sys2Proof
end

