-- ==== Sys2Proof/Decode.lean ====
section
/-! DEFINITION. The commands of the opcode table have no bit encoding: no row of spec/opcode_table.json gives bits, so
no word spells a command. -/

namespace Sys2Proof

/-- The command that the word `w` of `nbits` bits spells: none, since the table gives no row bits. -/
def decodeTableWord (_nbits _w : Nat) : Option Instr := none

end Sys2Proof
end

