-- ==== Sys2Proof/Config.lean ====
section
/-! DEFINITION. What one implementation fixes and the spec leaves open: the free values. Each is an opaque constant,
applied to the operands it depends on or to the counter `State.free`, so that no proof can see its value. -/

namespace Sys2Proof.Config

/-- A value Gauntlet draws from its random generator: nonces, challenges, integrity keys (R298, R436, R447). -/
opaque random (w : Nat) : Nat → BitVec w

/-- A hardware fault keeps firmware from the sensors (R54); firmware's state bars a change of profile, which the spec names and does
not define (R57). -/
opaque sensorFault (n : Nat) : Bool
opaque profileBarred (n : Nat) : Bool

/-- A register or memory value the spec calls undefined. -/
opaque undefinedBits (w : Nat) : Nat → BitVec w

/-- Latency in ns of a request the model performs whole (R148): timing the spec bounds and does not fix (log 37). -/
opaque latency : Nat → BitVec 16

/-- What user logic or a remote device answers a request with: 0 where it performs it, else a code of R137 (log 37). -/
opaque farCode : Nat → BitVec 16

/-- The shift at row `m`, column `c` of a base graph for a set of lifting sizes: in tables of TS 38.212 that the spec names and does
not print (R240; log 44). -/
opaque ldpcShift (bg : Bool) (set m c : Nat) : Nat

/-- A value of `v` sixteenths that is no integer is rounded up (R242, R247). -/
opaque roundsUp (v : Nat) : Bool

/-- The hard decision of bit `k` where its LLR is 0 (R240, R243). -/
opaque llrTie (k : Nat) : Bool

/-- Order among polar paths of one metric (R248). -/
opaque pathRank (bits : List Bool) : Nat

/-- A CRC24C of a polar block with this RNTI starts from 24 ones (R248). -/
opaque crcOnes (rnti : Nat) : Bool

/-- How far a converted value lies from the exact result, in LSB, before the bound of R264 and R268 is put on it. -/
opaque deviation (n : Nat) : Nat

/-- An engine reads its next item before it writes this one (R259, log 48). -/
opaque readsAhead (n : Nat) : Bool

/-- A pivot of 0 under a floor of 0 counts as one that is not finite (R267). -/
opaque zeroPivotIll : Bool

/-- The filter a PRACH detector decimates with (R270): number of taps, the place of its centre and tap `k`, in units of which the
sum makes 2^32. -/
opaque prachTaps (dec : Nat) : Nat
opaque prachCentre (dec : Nat) : Nat
opaque prachTap (dec k : Nat) : Int

/-- Full-scale power of a PRACH detector (R271, R273): the spec does not scale its transforms (log 50). -/
opaque prachFull (short : Bool) (dec : Nat) : Nat

/-- Offset of a peak whose neighbours form no parabola with it, in 1/8 lag (R271). -/
opaque prachFlat (power : Nat) : Nat

/-- A level of `num / den` between two sixteenths of a dB is given by the upper one (R273). -/
opaque decibelUp (num den : Nat) : Bool

/-- A flip-flop of a logic cell as the configuration sets it (R318): what it takes (0 and 1 the LUT outputs, 2 the cell input), whether
its set-reset is asynchronous, the value set-reset gives, and its initial value. -/
structure FfSet where
  src : Nat
  async : Bool
  set : Bool
  init : Bool
  deriving DecidableEq, Repr, Inhabited

/-- A logic cell as the configuration sets it (R318, R319): the LUT's table, whether it is split, whether the carry stage adds to the
first output, whether a tile's first stage starts a chain of its own, and the flip-flops. -/
structure CellSet where
  lut : BitVec 64
  split : Bool
  carry : Bool
  start : Bool
  ff0 : FfSet
  ff1 : FfSet
  deriving DecidableEq, Repr, Inhabited

/-- Half a tile as the configuration sets it (R318): its leaf net, and whether its clock enable and set-reset are connected. -/
structure HalfSet where
  net : Nat
  ce : Bool
  sr : Bool
  deriving DecidableEq, Repr, Inhabited

/-- An arithmetic slice as the configuration sets it (R322 to R324): its leaf net, the operands' signedness, complex-pair mode, the
pipeline registers used (bit 0 inputs, 1 product, 2 accumulator, 3 output), and the output stage. -/
structure SliceSet where
  net : Nat
  signA : Bool
  signB : Bool
  pair : Bool
  regs : Nat
  shift : Nat
  wide : Bool
  rnd : Bool
  sat : Bool
  deriving DecidableEq, Repr, Inhabited

/-- Standards of a user I/O pin (R346). -/
inductive IoStd where
  | lvcmos10 | lvcmos12 | lvcmos15 | lvcmos18 | lvcmos25 | lvcmos33 | lvttl | lvds
  deriving DecidableEq, Repr, Inhabited

/-- Registers of a user I/O pin (R346): with `serial n` the serialiser or deserialiser n:1. -/
inductive IoReg where
  | none | sdr | ddr | serial (n : Nat)
  deriving DecidableEq, Repr, Inhabited

/-- A user I/O pin as the configuration sets it (R346, R347): 0 no pull, 1 up, 2 down; the keeper; its standard, whether it is an
output, the drive strength in mA, the slew (0 SLOW to 3 FASTEST), the input termination and the registers. -/
structure PinSet where
  pull : Nat := 0
  keeper : Bool := false
  std : IoStd := .lvcmos18
  out : Bool := false
  drive : Nat := 2
  slew : Nat := 0
  term : Bool := false
  reg : IoReg := .none
  deriving DecidableEq, Repr, Inhabited

/-- Where a wire of a region takes its value from: every wire has exactly one driver, which a multiplexer selects (R335). -/
inductive WireSrc where
  | low
  /-- an output of a cell's LUT and carry stage, or a flip-flop -/
  | lut (cell : Nat) (second : Bool)
  | ff (b : Nat)
  /-- bit `j` of a slice's output, 32 its OVF -/
  | slice (k j : Nat)
  /-- bit `j` of a block memory port's read output, 128 its DERR, 129 its WAIT -/
  | bm (block port j : Nat)
  /-- an incoming border cell, and a receive tap of a long line -/
  | border (k : Nat)
  | line (l tap : Nat)
  /-- a signal that a fabric port brings -/
  | port (p j : Nat)
  deriving DecidableEq, Repr, Inhabited

/-- Where the static logic takes a value from: a user pin, an outgoing border cell, or an output of the internal configuration port (0
BUSY, 1 DONE_OUT, 2 FAIL, 3 to 10 CODE, 11 READY; R374). -/
inductive StaticSrc where
  | low
  | pin (i : Nat)
  | border (r k : Nat)
  | intport (j : Nat)
  deriving DecidableEq, Repr, Inhabited

/-- What the frames of region `r` set for its cells, half tiles and slices, and the selection of a leaf net: 0 held low, 1 + g global
net g, 33 + i regional net i of its quadrant (R332, R334). The spec does not give the places of these bits (log 51). -/
opaque cell (r k : Nat) (frames : List (Nat × BitVec 4096)) : CellSet
opaque halfTile (r k : Nat) (frames : List (Nat × BitVec 4096)) : HalfSet
opaque slice (r k : Nat) (frames : List (Nat × BitVec 4096)) : SliceSet
opaque leafNet (r k : Nat) (frames : List (Nat × BitVec 4096)) : Nat

/-- What the static frames set: the driver of net `k` (0 to 31 the global nets, 32 + 24 q + i regional net i of quadrant q), as
`netDriver` codes it, and the global net that clocks the die-boundary crossings of region `r` (R320). -/
opaque netSource (k : Nat) (frames : List (Nat × BitVec 4096)) : Nat
opaque crossNet (r : Nat) (frames : List (Nat × BitVec 4096)) : Nat

/-- The user I/O pins whose options a static frame declares, and the banks whose voltage, in mV, it declares (R346, R349; log 51). -/
opaque framePins (frame : Nat) (data : BitVec 4096) : List (Nat × PinSet)
opaque frameVolts (frame : Nat) (data : BitVec 4096) : List (Nat × Nat)

/-- The multiplexers: what drives wire `k` of a region (R335), what the static logic brings to incoming cell `k` of a border that no
region lies behind, and what it drives onto a pin and enables it with. -/
opaque route (r k : Nat) (frames : List (Nat × BitVec 4096)) : WireSrc
opaque staticRoute (r k : Nat) (frames : List (Nat × BitVec 4096)) : StaticSrc
opaque pinRoute (k : Nat) (enable : Bool) (frames : List (Nat × BitVec 4096)) : StaticSrc

/-- In round `n`, what no rule fixes: a wire of a combinational loop, a floating or contended long line (R335, R337), a signal a fabric
port brings, a floating pin; and what the board drives onto a pin (log 51). -/
opaque wire (n r k : Nat) : Bool
opaque boardDrives (n pin : Nat) : Option Bool

/-- User logic's READY on IRSP or, with `req`, on TREQ of a fabric port (R338): the design's own signal. -/
opaque portReady (n port : Nat) (req : Bool) : Bool

/-- An upset of round `n` in a configuration frame (R337, R377): its frame address and the bits it flips, 4,096 to 4,111 in the check
bits; and what the SEC-DED code makes of three or more flipped bits, which it does not promise to see (log 111). -/
opaque upset (n : Nat) : Option (Nat × List Nat)
inductive FrameSeen where
  | clean
  | single (bit : Nat)
  | multi
  deriving DecidableEq, Repr, Inhabited
opaque frameSeen (flips : List Nat) : FrameSeen

/-- The 16 check bits of a frame's data (R354): the spec does not give the code. -/
opaque frameCheck (data : BitVec 4096) : BitVec 16

/-- Long lines whose driver taps a frame enables, with the tap (R335, R354): the spec does not give the places of
these bits. -/
opaque frameDrivers (frame : Nat) (data : BitVec 4096) : List (Nat × Nat)

/-- A frame with every driver tap of one long line disabled (R336). -/
opaque frameDisable (frame : Nat) (data : BitVec 4096) (line : Nat) : BitVec 4096

/-- Settings of fabric loop `loop` (5 to 20) that the static frames write (R411): `k` 0 CLK_LOOP_CFG, 1 CLK_LOOP_FRAC, 2
CLK_LOOP_CTRL, 3 to 6 CLK_FAB_OUT_0 to _3, 7 the code of its reference mux, 8 that of its output mux. -/
opaque fabLoop (loop k : Nat) (frames : List (Nat × BitVec 4096)) : Nat

/-- Settings of a block memory that a region's frames hold (R325, R326, R328): BM_INFO, and the two WRITE_MODEs. -/
opaque bmInfo (block : Nat) (frames : List (Nat × BitVec 4096)) : Nat
opaque bmModes (block : Nat) (frames : List (Nat × BitVec 4096)) : Nat

/-- The leaf net that clocks port `port` of a block memory (R325). -/
opaque bmClock (block port : Nat) (frames : List (Nat × BitVec 4096)) : Nat

/-- What Rondan programs at manufacture (R432): device secret, serial number, certificate store (2,048 bytes) and the
hash of debug slot 7. -/
opaque deviceSecret : BitVec 256
opaque serial : BitVec 64
opaque certStore : BitVec 16384
opaque rondanHash : BitVec 256

/-- The attestation certificate Gauntlet issues for a firmware measurement (R442), in DER: its length and bytes. -/
opaque attestCertLen (fw : BitVec 256) : Nat
opaque attestCert (fw : BitVec 256) (k : Nat) : BitVec 8

/-- Lengths of the two certificates in the store. -/
opaque identCertLen : Nat
opaque caCertLen : Nat

/-- The device's own MAC address at MAC `m`, and the subType and flowID of the IEEE 1914.3 frames a fronthaul engine sends: the
spec gives neither (R114; log 99). -/
opaque macAddr (m : Nat) : BitVec 48
opaque roeHead (cplane : Bool) (eaxc : BitVec 16) : BitVec 16

/-- The bytes of the table LANE_FH_TABLE copies (R110): the engine, its radio units (MAC address, VLAN ID, index) and its
flows (radio unit, eAxC ID, index). -/
opaque fhTable (engine : Nat) (units flows : List (List Nat)) : List (BitVec 8)

/-- The progress UPDATE_STATUS reports, before it is limited to 100 % (R57). -/
opaque updateProgress : Nat → Nat

/-- The device integrity key of the n-th draw, and the tag key Gauntlet derives from a slot's key pair: random, and a derivation
the spec does not give (R298; log 21). -/
opaque integrityKey : Nat → BitVec 256
opaque tagKey : BitVec 512 → BitVec 256

/-- Whether, of a counter node whose copies disagree, one copy's parity holds (R287). -/
opaque copyGood : Nat → Bool

/-- At a POR, with VBAT lost before it, VAUX had been absent too (R395): a free choice of the occasion. -/
opaque vauxAbsent : Nat → Bool

/-- The edges of the monitor window in which a clock source stopped all came before it did (R406, log 117). -/
opaque stoppedStill : Nat → Bool

end Sys2Proof.Config
end

