-- ==== Sys2Proof/Machine/RegMap.lean ====
section
/-! DEFINITION. The register map: every software-visible register of the map tables of R61, R62, R95, R128, R149,
R173, R210, R255, R274, R293, R294, R316, R351, R381, R404, R419, R448, R461 and R478, with its register-space
byte offset, the select register that reaches it (R36), its ownership class (R63), the reset kinds and power states
it survives (bit k of the mask is the k-th of POR, PIN, WARM, WATCHDOG, FABRIC, REGION, CLUSTER, DEBUG, DOZE, NAP,
HIBERNATE), its reset value and its fields (lowest bit, width, access type of R15). A register without a field
table holds one 32-bit value. `F.<register>.<field>` names one field. The reset values the spec gives per instance
are in `resetOf`; those of registers that read other state (fuses, live status) are read there. -/

namespace Sys2Proof.Machine

/-- The access types of R15. -/
inductive Acc where
  | rw | ro | wo | w1c | w1s | rc | w1b
  deriving DecidableEq, Repr

/-- The ownership classes of R63; TOD_, TSU_ and SLOT_ registers follow the servo, DBG_ registers the debugger. -/
inductive Owner where
  | hostOwned | firmware | servo | shared | debugger
  deriving DecidableEq, Repr

/-- What selects the instance of a register (R36): nothing, the accessor's bank, or a select register. -/
inductive SelKind where
  | one | bank | snap | tsu | lane | mac | macStat | macSa | fh | fhStat | fhFlow | cpri | cpriAxc | chl | chlWin
  | pcie | pcieFn | pcieDma | init | tsk | tskPace | tskCq | cluster | tc | eng | harq | grp | grpTbl | node
  | grpRepair | pc | ciph | bm | fp | region | dom | govQ | govTemp | loop | mux | mon | errQ | dbgCore | dbgReg
  | trcSrc | trcBuf | mbx
  deriving DecidableEq, Repr

/-- One field of a field table (R18): its lowest bit, its width and its access type. -/
structure Fld where
  lo : Nat
  width : Nat
  acc : Acc
  deriving DecidableEq, Repr

/-- One row of a map table (R18). An array of `n` registers has its elements `stride` bytes apart. -/
structure RegRow where
  name : String
  off : Nat
  n : Nat
  stride : Nat
  sel : SelKind
  own : Owner
  surv : Nat
  reset : Nat
  fields : List Fld
  deriving DecidableEq, Repr

/-- A named field of a register. -/
structure Fd where
  reg : RegRow
  lo : Nat
  width : Nat
  deriving DecidableEq, Repr

/-- `off` is the offset of one of the row's registers. -/
def RegRow.hit (r : RegRow) (off : Nat) : Bool :=
  r.off ≤ off && (off - r.off) % r.stride == 0 && (off - r.off) / r.stride < r.n

/-! The rows of the map tables. -/

abbrev R.DEV_ID : RegRow := ⟨"DEV_ID", 0x000000, 1, 4, .one, .firmware, 0x7FF, 0xEDE9256, [⟨0, 32, .ro⟩]⟩
abbrev R.DEV_REV : RegRow := ⟨"DEV_REV", 0x000004, 1, 4, .one, .firmware, 0x7FF, 0xB0, [⟨0, 32, .ro⟩]⟩
abbrev R.DEV_FW_VERSION : RegRow := ⟨"DEV_FW_VERSION", 0x000008, 1, 4, .one, .firmware, 0x3E0, 0x0, [⟨0, 32, .ro⟩]⟩
abbrev R.DEV_FW_STATE : RegRow := ⟨"DEV_FW_STATE", 0x00000C, 1, 4, .one, .firmware, 0x3E0, 0x0, [⟨0, 4, .ro⟩]⟩
abbrev R.DEV_OWN_VIOL : RegRow := ⟨"DEV_OWN_VIOL", 0x000010, 1, 4, .one, .firmware, 0x3FC, 0x0, [⟨0, 24, .ro⟩, ⟨24, 3, .ro⟩, ⟨31, 1, .w1c⟩]⟩
abbrev R.DEV_OWN_VIOL_CNT : RegRow := ⟨"DEV_OWN_VIOL_CNT", 0x000014, 1, 4, .one, .firmware, 0x3FC, 0x0, [⟨0, 32, .rc⟩]⟩
abbrev R.PWR_STATE : RegRow := ⟨"PWR_STATE", 0x200000, 1, 4, .one, .firmware, 0x0, 0x0, [⟨0, 2, .ro⟩, ⟨2, 1, .ro⟩]⟩
abbrev R.PWR_WAKE_CFG : RegRow := ⟨"PWR_WAKE_CFG", 0x200008, 1, 4, .one, .firmware, 0x7FF, 0x0, [⟨0, 4, .rw⟩, ⟨4, 4, .rw⟩]⟩
abbrev R.PWR_WAKE_TMO : RegRow := ⟨"PWR_WAKE_TMO", 0x20000C, 1, 4, .one, .firmware, 0x3E0, 0x501F4, [⟨0, 16, .rw⟩, ⟨16, 8, .rw⟩]⟩
abbrev R.PWR_BOUNCE : RegRow := ⟨"PWR_BOUNCE", 0x200010, 1, 4, .one, .firmware, 0x3E0, 0x0, [⟨0, 32, .rc⟩]⟩
abbrev R.PWR_DOM_SEL : RegRow := ⟨"PWR_DOM_SEL", 0x200014, 1, 4, .bank, .firmware, 0x3E0, 0x0, [⟨0, 8, .rw⟩]⟩
abbrev R.PWR_DOM_STATUS : RegRow := ⟨"PWR_DOM_STATUS", 0x200018, 1, 4, .dom, .firmware, 0x0, 0x2, [⟨0, 3, .ro⟩, ⟨3, 1, .ro⟩, ⟨4, 1, .w1c⟩, ⟨5, 1, .w1c⟩, ⟨8, 4, .ro⟩, ⟨12, 4, .ro⟩]⟩
abbrev R.PWR_DOM_CTRL : RegRow := ⟨"PWR_DOM_CTRL", 0x20001C, 1, 4, .dom, .firmware, 0x0, 0x0, [⟨0, 2, .wo⟩]⟩
abbrev R.PWR_RTC_SEC : RegRow := ⟨"PWR_RTC_SEC", 0x200020, 1, 4, .one, .firmware, 0x7FF, 0x0, [⟨0, 32, .rw⟩]⟩
abbrev R.PWR_RTC_SUB : RegRow := ⟨"PWR_RTC_SUB", 0x200024, 1, 4, .one, .firmware, 0x7FF, 0x0, [⟨0, 15, .ro⟩]⟩
abbrev R.PWR_RTC_ALARM : RegRow := ⟨"PWR_RTC_ALARM", 0x200028, 1, 4, .one, .firmware, 0x7FF, 0x0, [⟨0, 32, .rw⟩]⟩
abbrev R.PWR_MITTEN_STATUS : RegRow := ⟨"PWR_MITTEN_STATUS", 0x20002C, 1, 4, .one, .firmware, 0x7FF, 0x0, [⟨0, 1, .ro⟩, ⟨1, 1, .w1c⟩, ⟨2, 1, .w1c⟩, ⟨4, 2, .ro⟩, ⟨8, 3, .ro⟩, ⟨16, 1, .ro⟩]⟩
abbrev R.GOV_CTRL : RegRow := ⟨"GOV_CTRL", 0x200100, 1, 4, .one, .firmware, 0x3E0, 0x0, [⟨0, 1, .rw⟩]⟩
abbrev R.GOV_BUDGET : RegRow := ⟨"GOV_BUDGET", 0x200104, 1, 4, .one, .firmware, 0x3E0, 0x1E0, [⟨0, 9, .rw⟩]⟩
abbrev R.GOV_SHARE : RegRow := ⟨"GOV_SHARE", 0x200108, 1, 4, .one, .firmware, 0x3E0, 0x19191919, [⟨0, 32, .rw⟩]⟩
abbrev R.GOV_OTHER_W : RegRow := ⟨"GOV_OTHER_W", 0x20010C, 1, 4, .one, .firmware, 0x3E0, 0x0, [⟨0, 9, .rw⟩]⟩
abbrev R.GOV_TEMP_LIMITS : RegRow := ⟨"GOV_TEMP_LIMITS", 0x200110, 1, 4, .one, .firmware, 0x3E0, 0x34802F8, [⟨0, 12, .rw⟩, ⟨16, 12, .rw⟩]⟩
abbrev R.GOV_HEAT_SCALE : RegRow := ⟨"GOV_HEAT_SCALE", 0x200114, 1, 4, .one, .firmware, 0x3E0, 0x300, [⟨0, 11, .rw⟩]⟩
abbrev R.GOV_STATUS : RegRow := ⟨"GOV_STATUS", 0x200118, 1, 4, .one, .firmware, 0x0, 0x0, [⟨0, 4, .ro⟩, ⟨4, 1, .ro⟩, ⟨5, 1, .w1c⟩, ⟨6, 1, .w1c⟩, ⟨7, 1, .w1c⟩, ⟨8, 1, .w1c⟩, ⟨9, 1, .ro⟩, ⟨10, 3, .ro⟩]⟩
abbrev R.GOV_POWER : RegRow := ⟨"GOV_POWER", 0x20011C, 1, 4, .one, .firmware, 0x0, 0x0, [⟨0, 32, .ro⟩]⟩
abbrev R.GOV_QUAD_SEL : RegRow := ⟨"GOV_QUAD_SEL", 0x200120, 1, 4, .bank, .firmware, 0x3E0, 0x0, [⟨0, 2, .rw⟩]⟩
abbrev R.GOV_Q_VCFG : RegRow := ⟨"GOV_Q_VCFG", 0x200124, 1, 4, .govQ, .firmware, 0x3E0, 0x22602EE, [⟨0, 10, .rw⟩, ⟨16, 10, .rw⟩]⟩
abbrev R.GOV_Q_STATE : RegRow := ⟨"GOV_Q_STATE", 0x200128, 1, 4, .govQ, .firmware, 0x0, 0x0, [⟨0, 10, .ro⟩, ⟨12, 2, .ro⟩, ⟨14, 1, .ro⟩, ⟨16, 16, .ro⟩]⟩
abbrev R.GOV_TEMP_SEL : RegRow := ⟨"GOV_TEMP_SEL", 0x200130, 1, 4, .bank, .firmware, 0x3E0, 0x0, [⟨0, 6, .rw⟩]⟩
abbrev R.GOV_TEMP : RegRow := ⟨"GOV_TEMP", 0x200134, 1, 4, .govTemp, .firmware, 0x0, 0x0, [⟨0, 12, .ro⟩, ⟨15, 1, .ro⟩]⟩
abbrev R.GOV_LANE_SHED_LO : RegRow := ⟨"GOV_LANE_SHED_LO", 0x200138, 1, 4, .one, .firmware, 0x3E0, 0x0, [⟨0, 32, .rw⟩]⟩
abbrev R.GOV_LANE_SHED_HI : RegRow := ⟨"GOV_LANE_SHED_HI", 0x20013C, 1, 4, .one, .firmware, 0x3E0, 0x0, [⟨0, 32, .rw⟩]⟩
abbrev R.GOV_DROOP_CFG : RegRow := ⟨"GOV_DROOP_CFG", 0x200140, 1, 4, .one, .firmware, 0x3E0, 0x1E, [⟨0, 8, .rw⟩]⟩
abbrev R.GOV_DROOP_CNT : RegRow := ⟨"GOV_DROOP_CNT", 0x200144, 1, 4, .one, .firmware, 0x3E0, 0x0, [⟨0, 32, .rc⟩]⟩
abbrev R.CLK_LOOP_SEL : RegRow := ⟨"CLK_LOOP_SEL", 0x300000, 1, 4, .bank, .firmware, 0x3E0, 0x0, [⟨0, 7, .rw⟩]⟩
abbrev R.CLK_LOOP_CFG : RegRow := ⟨"CLK_LOOP_CFG", 0x300004, 1, 4, .loop, .firmware, 0x3E0, 0x0, [⟨0, 5, .rw⟩, ⟨8, 10, .rw⟩, ⟨24, 5, .rw⟩]⟩
abbrev R.CLK_LOOP_FRAC : RegRow := ⟨"CLK_LOOP_FRAC", 0x300008, 1, 4, .loop, .firmware, 0x3E0, 0x0, [⟨0, 24, .rw⟩]⟩
abbrev R.CLK_LOOP_CTRL : RegRow := ⟨"CLK_LOOP_CTRL", 0x30000C, 1, 4, .loop, .firmware, 0x3E0, 0x3, [⟨0, 1, .rw⟩, ⟨1, 1, .rw⟩, ⟨2, 1, .wo⟩, ⟨3, 1, .rw⟩]⟩
abbrev R.CLK_LOOP_STATUS : RegRow := ⟨"CLK_LOOP_STATUS", 0x300010, 1, 4, .loop, .firmware, 0x0, 0x0, [⟨0, 1, .ro⟩, ⟨1, 1, .w1c⟩, ⟨2, 1, .ro⟩, ⟨3, 1, .w1c⟩]⟩
abbrev R.CLK_FAB_OUT : RegRow := ⟨"CLK_FAB_OUT_k", 0x300014, 4, 4, .loop, .firmware, 0x3E0, 0x0, [⟨0, 7, .rw⟩, ⟨8, 1, .rw⟩]⟩
abbrev R.CLK_MUX_SEL : RegRow := ⟨"CLK_MUX_SEL", 0x300100, 1, 4, .bank, .firmware, 0x3E0, 0x0, [⟨0, 6, .rw⟩]⟩
abbrev R.CLK_MUX_CTRL : RegRow := ⟨"CLK_MUX_CTRL", 0x300104, 1, 4, .mux, .firmware, 0x3E0, 0x0, [⟨0, 4, .rw⟩, ⟨8, 1, .wo⟩, ⟨9, 1, .w1c⟩]⟩
abbrev R.CLK_MUX_STATUS : RegRow := ⟨"CLK_MUX_STATUS", 0x300108, 1, 4, .mux, .firmware, 0x0, 0x0, [⟨0, 4, .ro⟩, ⟨4, 1, .ro⟩, ⟨5, 1, .w1c⟩]⟩
abbrev R.CLK_MON_SEL : RegRow := ⟨"CLK_MON_SEL", 0x300200, 1, 4, .bank, .firmware, 0x3E0, 0x0, [⟨0, 6, .rw⟩]⟩
abbrev R.CLK_MON_CFG : RegRow := ⟨"CLK_MON_CFG", 0x300204, 1, 4, .mon, .firmware, 0x3E0, 0x0, [⟨0, 18, .rw⟩, ⟨24, 4, .rw⟩]⟩
abbrev R.CLK_MON_STATUS : RegRow := ⟨"CLK_MON_STATUS", 0x300208, 1, 4, .mon, .firmware, 0x0, 0x0, [⟨0, 1, .ro⟩, ⟨1, 1, .w1c⟩, ⟨2, 1, .ro⟩]⟩
abbrev R.CLK_MON_COUNT : RegRow := ⟨"CLK_MON_COUNT", 0x30020C, 1, 4, .mon, .firmware, 0x0, 0x0, [⟨0, 32, .ro⟩]⟩
abbrev R.CLK_GATE_CFG : RegRow := ⟨"CLK_GATE_CFG", 0x300300, 1, 4, .one, .firmware, 0x3E0, 0x1000001, [⟨0, 1, .rw⟩, ⟨16, 16, .rw⟩]⟩
abbrev R.CLK_GATE_WAKES : RegRow := ⟨"CLK_GATE_WAKES", 0x300304, 1, 4, .one, .firmware, 0x3E0, 0x0, [⟨0, 32, .rc⟩]⟩
abbrev R.TOD_STATUS : RegRow := ⟨"TOD_STATUS", 0x400000, 1, 4, .one, .servo, 0x3E0, 0x0, [⟨0, 1, .ro⟩, ⟨1, 1, .ro⟩, ⟨2, 1, .ro⟩, ⟨3, 1, .w1c⟩, ⟨4, 1, .w1c⟩, ⟨5, 1, .w1c⟩, ⟨6, 1, .w1c⟩, ⟨7, 1, .ro⟩]⟩
abbrev R.TOD_CTRL : RegRow := ⟨"TOD_CTRL", 0x400004, 1, 4, .one, .servo, 0x0, 0x0, [⟨0, 1, .wo⟩, ⟨1, 1, .wo⟩, ⟨2, 1, .wo⟩]⟩
abbrev R.TOD_REARM : RegRow := ⟨"TOD_REARM", 0x400008, 1, 4, .one, .firmware, 0x0, 0x0, [⟨0, 1, .wo⟩]⟩
abbrev R.TOD_SERVO : RegRow := ⟨"TOD_SERVO", 0x40000C, 1, 4, .one, .servo, 0x3E0, 0x0, [⟨0, 3, .rw⟩, ⟨8, 1, .ro⟩, ⟨9, 1, .ro⟩]⟩
abbrev R.TOD_ADDEND_HI : RegRow := ⟨"TOD_ADDEND_HI", 0x400010, 1, 4, .one, .servo, 0x3E0, 0x2, [⟨0, 4, .rw⟩]⟩
abbrev R.TOD_ADDEND_LO : RegRow := ⟨"TOD_ADDEND_LO", 0x400014, 1, 4, .one, .servo, 0x3E0, 0x0, [⟨0, 32, .rw⟩]⟩
abbrev R.NS_INCR : RegRow := ⟨"NS_INCR", 0x400018, 1, 4, .one, .shared, 0x3E0, 0x2000000, [⟨0, 24, .rw⟩, ⟨24, 4, .rw⟩]⟩
abbrev R.TOD_STEP_AT : RegRow := ⟨"TOD_STEP_AT", 0x40001C, 1, 4, .one, .servo, 0x3E0, 0x0, [⟨0, 32, .ro⟩]⟩
abbrev R.TOD_STEP_SEC_HI : RegRow := ⟨"TOD_STEP_SEC_HI", 0x400020, 1, 4, .one, .servo, 0x3E0, 0x0, [⟨0, 16, .rw⟩]⟩
abbrev R.TOD_STEP_SEC_LO : RegRow := ⟨"TOD_STEP_SEC_LO", 0x400024, 1, 4, .one, .servo, 0x3E0, 0x0, [⟨0, 32, .rw⟩]⟩
abbrev R.TOD_STEP_NS : RegRow := ⟨"TOD_STEP_NS", 0x400028, 1, 4, .one, .servo, 0x3E0, 0x0, [⟨0, 32, .rw⟩]⟩
abbrev R.TOD_SNAP_SEC_HI : RegRow := ⟨"TOD_SNAP_SEC_HI", 0x400030, 1, 4, .snap, .servo, 0x3E0, 0x0, [⟨0, 16, .ro⟩]⟩
abbrev R.TOD_SNAP_SEC_LO : RegRow := ⟨"TOD_SNAP_SEC_LO", 0x400034, 1, 4, .snap, .servo, 0x3E0, 0x0, [⟨0, 32, .ro⟩]⟩
abbrev R.TOD_SNAP_NS : RegRow := ⟨"TOD_SNAP_NS", 0x400038, 1, 4, .snap, .servo, 0x3E0, 0x0, [⟨0, 30, .ro⟩]⟩
abbrev R.TOD_SNAP_FRAC : RegRow := ⟨"TOD_SNAP_FRAC", 0x40003C, 1, 4, .snap, .servo, 0x3E0, 0x0, [⟨0, 32, .ro⟩]⟩
abbrev R.NS_SNAP_LO : RegRow := ⟨"NS_SNAP_LO", 0x400040, 1, 4, .snap, .shared, 0x3E0, 0x0, [⟨0, 32, .ro⟩]⟩
abbrev R.NS_SNAP_HI : RegRow := ⟨"NS_SNAP_HI", 0x400044, 1, 4, .snap, .shared, 0x3E0, 0x0, [⟨0, 32, .ro⟩]⟩
abbrev R.NS_FALLBACK_OFF_LO : RegRow := ⟨"NS_FALLBACK_OFF_LO", 0x400048, 1, 4, .one, .shared, 0x3E0, 0x0, [⟨0, 32, .rw⟩]⟩
abbrev R.NS_FALLBACK_OFF_HI : RegRow := ⟨"NS_FALLBACK_OFF_HI", 0x40004C, 1, 4, .one, .shared, 0x3E0, 0x0, [⟨0, 32, .rw⟩]⟩
abbrev R.TOD_PPS_IN_SEC_LO : RegRow := ⟨"TOD_PPS_IN_n_SEC_LO", 0x400100, 2, 16, .one, .servo, 0x3E0, 0x0, [⟨0, 32, .ro⟩]⟩
abbrev R.TOD_PPS_IN_NS : RegRow := ⟨"TOD_PPS_IN_n_NS", 0x400104, 2, 16, .one, .servo, 0x3E0, 0x0, [⟨0, 30, .ro⟩]⟩
abbrev R.TOD_PPS_IN_STAT : RegRow := ⟨"TOD_PPS_IN_n_STAT", 0x400108, 2, 16, .one, .servo, 0x3E0, 0x0, [⟨0, 5, .ro⟩, ⟨8, 1, .ro⟩, ⟨16, 8, .ro⟩]⟩
abbrev R.TOD_PPS_OUT_CTRL : RegRow := ⟨"TOD_PPS_OUT_n_CTRL", 0x400140, 4, 16, .one, .servo, 0x3E0, 0x0, [⟨0, 1, .rw⟩, ⟨1, 1, .rw⟩, ⟨2, 5, .rw⟩, ⟨7, 1, .rw⟩]⟩
abbrev R.TOD_PPS_OUT_PHASE : RegRow := ⟨"TOD_PPS_OUT_n_PHASE", 0x400144, 4, 16, .one, .servo, 0x3E0, 0x0, [⟨0, 32, .rw⟩]⟩
abbrev R.TOD_PPS_OUT_WIDTH : RegRow := ⟨"TOD_PPS_OUT_n_WIDTH", 0x400148, 4, 16, .one, .servo, 0x3E0, 0x0, [⟨0, 20, .rw⟩]⟩
abbrev R.TIME_CMP_TGT_LO : RegRow := ⟨"TIME_CMP_n_TGT_LO", 0x400200, 32, 16, .one, .shared, 0x3E0, 0x0, [⟨0, 32, .rw⟩]⟩
abbrev R.TIME_CMP_TGT_HI : RegRow := ⟨"TIME_CMP_n_TGT_HI", 0x400204, 32, 16, .one, .shared, 0x3E0, 0x0, [⟨0, 32, .rw⟩]⟩
abbrev R.TIME_CMP_PERIOD : RegRow := ⟨"TIME_CMP_n_PERIOD", 0x400208, 32, 16, .one, .shared, 0x3E0, 0x0, [⟨0, 32, .rw⟩]⟩
abbrev R.TIME_CMP_CTRL : RegRow := ⟨"TIME_CMP_n_CTRL", 0x40020C, 32, 16, .one, .shared, 0x3E0, 0x0, [⟨0, 1, .rw⟩, ⟨1, 1, .rw⟩, ⟨2, 1, .rw⟩, ⟨3, 1, .w1c⟩, ⟨16, 8, .ro⟩]⟩
abbrev R.SLOT_TMR_CTRL : RegRow := ⟨"SLOT_TMR_n_CTRL", 0x400400, 8, 32, .one, .servo, 0x3E0, 0x0, [⟨0, 1, .rw⟩, ⟨1, 1, .rw⟩, ⟨2, 1, .rw⟩, ⟨3, 1, .w1c⟩, ⟨4, 1, .w1c⟩]⟩
abbrev R.SLOT_TMR_PERIOD : RegRow := ⟨"SLOT_TMR_n_PERIOD", 0x400404, 8, 32, .one, .servo, 0x3E0, 0x0, [⟨0, 24, .rw⟩]⟩
abbrev R.SLOT_TMR_OFFSET : RegRow := ⟨"SLOT_TMR_n_OFFSET", 0x400408, 8, 32, .one, .servo, 0x3E0, 0x0, [⟨0, 24, .rw⟩]⟩
abbrev R.SLOT_TMR_COUNT : RegRow := ⟨"SLOT_TMR_n_COUNT", 0x40040C, 8, 32, .one, .servo, 0x3E0, 0x0, [⟨0, 32, .ro⟩]⟩
abbrev R.SLOT_TMR_LAST_LO : RegRow := ⟨"SLOT_TMR_n_LAST_LO", 0x400410, 8, 32, .one, .servo, 0x3E0, 0x0, [⟨0, 32, .ro⟩]⟩
abbrev R.SLOT_TMR_LAST_HI : RegRow := ⟨"SLOT_TMR_n_LAST_HI", 0x400414, 8, 32, .one, .servo, 0x3E0, 0x0, [⟨0, 32, .ro⟩]⟩
abbrev R.TSU_SEL : RegRow := ⟨"TSU_SEL", 0x400800, 1, 4, .bank, .servo, 0x60, 0x0, [⟨0, 6, .rw⟩]⟩
abbrev R.TSU_CTRL : RegRow := ⟨"TSU_CTRL", 0x400804, 1, 4, .tsu, .servo, 0x60, 0x0, [⟨0, 1, .rw⟩, ⟨1, 1, .rw⟩, ⟨2, 1, .rw⟩]⟩
abbrev R.TSU_STATUS : RegRow := ⟨"TSU_STATUS", 0x400808, 1, 4, .tsu, .servo, 0x60, 0x0, [⟨0, 5, .ro⟩]⟩
abbrev R.TSU_COUNTS : RegRow := ⟨"TSU_COUNTS", 0x40080C, 1, 4, .tsu, .servo, 0x60, 0x0, [⟨0, 16, .rc⟩, ⟨16, 16, .rc⟩]⟩
abbrev R.TSU_TX_ID : RegRow := ⟨"TSU_TX_ID", 0x400810, 1, 4, .tsu, .servo, 0x60, 0x0, [⟨0, 16, .ro⟩, ⟨16, 5, .ro⟩, ⟨30, 1, .ro⟩, ⟨31, 1, .ro⟩]⟩
abbrev R.TSU_TX_SEC_LO : RegRow := ⟨"TSU_TX_SEC_LO", 0x400814, 1, 4, .tsu, .servo, 0x60, 0x0, [⟨0, 32, .ro⟩]⟩
abbrev R.TSU_TX_NS : RegRow := ⟨"TSU_TX_NS", 0x400818, 1, 4, .tsu, .servo, 0x60, 0x0, [⟨0, 30, .ro⟩]⟩
abbrev R.TSU_TX_POP : RegRow := ⟨"TSU_TX_POP", 0x40081C, 1, 4, .tsu, .servo, 0x0, 0x0, [⟨0, 1, .wo⟩]⟩
abbrev R.TSU_RCLK_CTRL : RegRow := ⟨"TSU_RCLK_n_CTRL", 0x400900, 2, 4, .one, .servo, 0x60, 0x0, [⟨0, 8, .rw⟩, ⟨8, 12, .rw⟩, ⟨28, 1, .rw⟩, ⟨29, 1, .ro⟩, ⟨30, 1, .w1c⟩]⟩
abbrev R.LANE_SEL : RegRow := ⟨"LANE_SEL", 0x500000, 1, 4, .bank, .shared, 0x60, 0x0, [⟨0, 8, .rw⟩]⟩
abbrev R.LANE_CTRL : RegRow := ⟨"LANE_CTRL", 0x500004, 1, 4, .lane, .shared, 0x60, 0x0, [⟨0, 1, .rw⟩, ⟨1, 1, .rw⟩, ⟨2, 3, .rw⟩, ⟨8, 4, .rw⟩, ⟨12, 2, .rw⟩]⟩
abbrev R.LANE_RATE : RegRow := ⟨"LANE_RATE", 0x500008, 1, 4, .lane, .shared, 0x60, 0x0, [⟨0, 27, .rw⟩]⟩
abbrev R.LANE_STATUS : RegRow := ⟨"LANE_STATUS", 0x50000C, 1, 4, .lane, .shared, 0x60, 0x0, [⟨0, 3, .ro⟩, ⟨3, 1, .ro⟩]⟩
abbrev R.LANE_TS_TX_DELAY : RegRow := ⟨"LANE_TS_TX_DELAY", 0x500010, 1, 4, .lane, .shared, 0x60, 0x0, [⟨0, 16, .rw⟩]⟩
abbrev R.LANE_TS_RX_DELAY : RegRow := ⟨"LANE_TS_RX_DELAY", 0x500014, 1, 4, .lane, .shared, 0x60, 0x0, [⟨0, 16, .rw⟩]⟩
abbrev R.LANE_EQ_CTRL : RegRow := ⟨"LANE_EQ_CTRL", 0x500018, 1, 4, .lane, .shared, 0x60, 0x0, [⟨0, 1, .rw⟩, ⟨8, 5, .rw⟩]⟩
abbrev R.LANE_EQ_TAP : RegRow := ⟨"LANE_EQ_TAP", 0x50001C, 1, 4, .lane, .shared, 0x60, 0x0, [⟨0, 8, .rw⟩]⟩
abbrev R.LANE_EYE : RegRow := ⟨"LANE_EYE", 0x500020, 1, 4, .lane, .shared, 0x60, 0x0, [⟨0, 16, .ro⟩, ⟨16, 8, .ro⟩]⟩
abbrev R.LANE_ERR_LO : RegRow := ⟨"LANE_ERR_LO", 0x500024, 1, 4, .lane, .shared, 0x60, 0x0, [⟨0, 32, .ro⟩]⟩
abbrev R.LANE_ERR_HI : RegRow := ⟨"LANE_ERR_HI", 0x500028, 1, 4, .lane, .shared, 0x60, 0x0, [⟨0, 32, .ro⟩]⟩
abbrev R.MAC_SEL : RegRow := ⟨"MAC_SEL", 0x501000, 1, 4, .bank, .shared, 0x60, 0x0, [⟨0, 6, .rw⟩]⟩
abbrev R.MAC_CFG : RegRow := ⟨"MAC_CFG", 0x501004, 1, 4, .mac, .shared, 0x60, 0x0, [⟨0, 1, .rw⟩, ⟨1, 2, .rw⟩, ⟨3, 1, .rw⟩, ⟨4, 1, .rw⟩, ⟨8, 6, .rw⟩, ⟨16, 14, .rw⟩]⟩
abbrev R.MAC_STATUS : RegRow := ⟨"MAC_STATUS", 0x501008, 1, 4, .mac, .shared, 0x60, 0x0, [⟨0, 1, .ro⟩, ⟨1, 3, .ro⟩, ⟨4, 1, .ro⟩, ⟨5, 1, .w1c⟩]⟩
abbrev R.MAC_TX_RING_LO : RegRow := ⟨"MAC_TX_RING_LO", 0x50100C, 1, 4, .mac, .shared, 0x60, 0x0, [⟨6, 26, .rw⟩]⟩
abbrev R.MAC_TX_RING_HI : RegRow := ⟨"MAC_TX_RING_HI", 0x501010, 1, 4, .mac, .shared, 0x60, 0x0, [⟨0, 16, .rw⟩, ⟨16, 4, .rw⟩]⟩
abbrev R.MAC_TX_IDX : RegRow := ⟨"MAC_TX_IDX", 0x501014, 1, 4, .mac, .shared, 0x60, 0x0, [⟨0, 16, .rw⟩, ⟨16, 16, .ro⟩]⟩
abbrev R.MAC_RX_RING_LO : RegRow := ⟨"MAC_RX_RING_LO", 0x501018, 1, 4, .mac, .shared, 0x60, 0x0, [⟨6, 26, .rw⟩]⟩
abbrev R.MAC_RX_RING_HI : RegRow := ⟨"MAC_RX_RING_HI", 0x50101C, 1, 4, .mac, .shared, 0x60, 0x0, [⟨0, 16, .rw⟩, ⟨16, 4, .rw⟩]⟩
abbrev R.MAC_RX_IDX : RegRow := ⟨"MAC_RX_IDX", 0x501020, 1, 4, .mac, .shared, 0x60, 0x0, [⟨0, 16, .rw⟩, ⟨16, 16, .ro⟩]⟩
abbrev R.MAC_SEC_CTRL : RegRow := ⟨"MAC_SEC_CTRL", 0x501024, 1, 4, .mac, .shared, 0x60, 0x0, [⟨0, 1, .rw⟩]⟩
abbrev R.MAC_STAT_SEL : RegRow := ⟨"MAC_STAT_SEL", 0x501028, 1, 4, .bank, .shared, 0x60, 0x0, [⟨0, 4, .rw⟩]⟩
abbrev R.MAC_STAT_LO : RegRow := ⟨"MAC_STAT_LO", 0x50102C, 1, 4, .macStat, .shared, 0x60, 0x0, [⟨0, 32, .rc⟩]⟩
abbrev R.MAC_STAT_HI : RegRow := ⟨"MAC_STAT_HI", 0x501030, 1, 4, .macStat, .shared, 0x60, 0x0, [⟨0, 32, .rc⟩]⟩
abbrev R.MAC_SA_SEL : RegRow := ⟨"MAC_SA_SEL", 0x501040, 1, 4, .bank, .shared, 0x60, 0x0, [⟨0, 6, .rw⟩]⟩
abbrev R.MAC_SA_CFG : RegRow := ⟨"MAC_SA_CFG", 0x501044, 1, 4, .macSa, .shared, 0x60, 0x0, [⟨0, 1, .rw⟩, ⟨1, 1, .rw⟩, ⟨2, 2, .rw⟩, ⟨8, 6, .rw⟩]⟩
abbrev R.MAC_SA_SCI_LO : RegRow := ⟨"MAC_SA_SCI_LO", 0x501048, 1, 4, .macSa, .shared, 0x60, 0x0, [⟨0, 32, .rw⟩]⟩
abbrev R.MAC_SA_SCI_HI : RegRow := ⟨"MAC_SA_SCI_HI", 0x50104C, 1, 4, .macSa, .shared, 0x60, 0x0, [⟨0, 32, .rw⟩]⟩
abbrev R.MAC_SA_SSCI : RegRow := ⟨"MAC_SA_SSCI", 0x501050, 1, 4, .macSa, .shared, 0x60, 0x0, [⟨0, 32, .rw⟩]⟩
abbrev R.MAC_SA_SALT_0 : RegRow := ⟨"MAC_SA_SALT_0", 0x501054, 1, 4, .macSa, .shared, 0x60, 0x0, [⟨0, 32, .rw⟩]⟩
abbrev R.MAC_SA_SALT_1 : RegRow := ⟨"MAC_SA_SALT_1", 0x501058, 1, 4, .macSa, .shared, 0x60, 0x0, [⟨0, 32, .rw⟩]⟩
abbrev R.MAC_SA_SALT_2 : RegRow := ⟨"MAC_SA_SALT_2", 0x50105C, 1, 4, .macSa, .shared, 0x60, 0x0, [⟨0, 32, .rw⟩]⟩
abbrev R.MAC_SA_PN_LO : RegRow := ⟨"MAC_SA_PN_LO", 0x501060, 1, 4, .macSa, .shared, 0x60, 0x0, [⟨0, 32, .rw⟩]⟩
abbrev R.MAC_SA_PN_HI : RegRow := ⟨"MAC_SA_PN_HI", 0x501064, 1, 4, .macSa, .shared, 0x60, 0x0, [⟨0, 32, .rw⟩]⟩
abbrev R.FH_SEL : RegRow := ⟨"FH_SEL", 0x502000, 1, 4, .bank, .shared, 0x60, 0x0, [⟨0, 4, .rw⟩]⟩
abbrev R.FH_CTRL : RegRow := ⟨"FH_CTRL", 0x502004, 1, 4, .fh, .shared, 0x60, 0x0, [⟨0, 1, .rw⟩, ⟨1, 1, .rw⟩, ⟨2, 1, .rw⟩, ⟨3, 1, .wo⟩, ⟨4, 3, .rw⟩, ⟨8, 2, .rw⟩, ⟨10, 6, .rw⟩, ⟨16, 8, .rw⟩]⟩
abbrev R.FH_STATUS : RegRow := ⟨"FH_STATUS", 0x502008, 1, 4, .fh, .shared, 0x60, 0x0, [⟨0, 1, .w1c⟩, ⟨1, 1, .w1c⟩, ⟨2, 1, .w1c⟩, ⟨3, 1, .w1c⟩]⟩
abbrev R.FH_RX_WIN_MIN : RegRow := ⟨"FH_RX_WIN_MIN", 0x50200C, 1, 4, .fh, .shared, 0x60, 0x0, [⟨0, 32, .rw⟩]⟩
abbrev R.FH_RX_WIN_MAX : RegRow := ⟨"FH_RX_WIN_MAX", 0x502010, 1, 4, .fh, .shared, 0x60, 0x0, [⟨0, 32, .rw⟩]⟩
abbrev R.FH_TX_ADV_U : RegRow := ⟨"FH_TX_ADV_U", 0x502014, 1, 4, .fh, .shared, 0x60, 0x0, [⟨0, 32, .rw⟩]⟩
abbrev R.FH_TX_ADV_C : RegRow := ⟨"FH_TX_ADV_C", 0x502018, 1, 4, .fh, .shared, 0x60, 0x0, [⟨0, 32, .rw⟩]⟩
abbrev R.FH_TX_RING_LO : RegRow := ⟨"FH_TX_RING_LO", 0x50201C, 1, 4, .fh, .shared, 0x60, 0x0, [⟨6, 26, .rw⟩]⟩
abbrev R.FH_TX_RING_HI : RegRow := ⟨"FH_TX_RING_HI", 0x502020, 1, 4, .fh, .shared, 0x60, 0x0, [⟨0, 16, .rw⟩, ⟨16, 4, .rw⟩]⟩
abbrev R.FH_TX_IDX : RegRow := ⟨"FH_TX_IDX", 0x502024, 1, 4, .fh, .shared, 0x60, 0x0, [⟨0, 16, .rw⟩, ⟨16, 16, .ro⟩]⟩
abbrev R.FH_STAT_SEL : RegRow := ⟨"FH_STAT_SEL", 0x502028, 1, 4, .bank, .shared, 0x60, 0x0, [⟨0, 4, .rw⟩]⟩
abbrev R.FH_STAT : RegRow := ⟨"FH_STAT", 0x50202C, 1, 4, .fhStat, .shared, 0x60, 0x0, [⟨0, 32, .rc⟩]⟩
abbrev R.FH_FLOW_SEL : RegRow := ⟨"FH_FLOW_SEL", 0x502040, 1, 4, .bank, .shared, 0x60, 0x0, [⟨0, 12, .rw⟩]⟩
abbrev R.FH_FLOW_INFO : RegRow := ⟨"FH_FLOW_INFO", 0x502044, 1, 4, .fhFlow, .shared, 0x60, 0x0, [⟨0, 16, .ro⟩, ⟨16, 8, .ro⟩, ⟨24, 4, .ro⟩, ⟨31, 1, .ro⟩]⟩
abbrev R.FH_FLOW_DEST_LO : RegRow := ⟨"FH_FLOW_DEST_LO", 0x502048, 1, 4, .fhFlow, .shared, 0x60, 0x0, [⟨4, 28, .rw⟩]⟩
abbrev R.FH_FLOW_DEST_HI : RegRow := ⟨"FH_FLOW_DEST_HI", 0x50204C, 1, 4, .fhFlow, .shared, 0x60, 0x0, [⟨0, 16, .rw⟩, ⟨16, 8, .rw⟩, ⟨24, 2, .rw⟩, ⟨31, 1, .rw⟩]⟩
abbrev R.FH_FLOW_STRIDE : RegRow := ⟨"FH_FLOW_STRIDE", 0x502050, 1, 4, .fhFlow, .shared, 0x60, 0x0, [⟨4, 20, .rw⟩]⟩
abbrev R.CPRI_SEL : RegRow := ⟨"CPRI_SEL", 0x503000, 1, 4, .bank, .shared, 0x60, 0x0, [⟨0, 3, .rw⟩]⟩
abbrev R.CPRI_CFG : RegRow := ⟨"CPRI_CFG", 0x503004, 1, 4, .cpri, .shared, 0x60, 0x0, [⟨0, 1, .rw⟩, ⟨1, 4, .rw⟩, ⟨5, 3, .rw⟩, ⟨8, 8, .rw⟩, ⟨16, 6, .rw⟩]⟩
abbrev R.CPRI_STATUS : RegRow := ⟨"CPRI_STATUS", 0x503008, 1, 4, .cpri, .shared, 0x60, 0x0, [⟨0, 3, .ro⟩, ⟨8, 8, .ro⟩]⟩
abbrev R.CPRI_RTT : RegRow := ⟨"CPRI_RTT", 0x50300C, 1, 4, .cpri, .shared, 0x60, 0x0, [⟨0, 32, .ro⟩]⟩
abbrev R.CPRI_CM_TX_RING_LO : RegRow := ⟨"CPRI_CM_TX_RING_LO", 0x503010, 1, 4, .cpri, .shared, 0x60, 0x0, [⟨6, 26, .rw⟩]⟩
abbrev R.CPRI_CM_TX_RING_HI : RegRow := ⟨"CPRI_CM_TX_RING_HI", 0x503014, 1, 4, .cpri, .shared, 0x60, 0x0, [⟨0, 16, .rw⟩, ⟨16, 4, .rw⟩]⟩
abbrev R.CPRI_CM_TX_IDX : RegRow := ⟨"CPRI_CM_TX_IDX", 0x503018, 1, 4, .cpri, .shared, 0x60, 0x0, [⟨0, 16, .rw⟩, ⟨16, 16, .ro⟩]⟩
abbrev R.CPRI_CM_RX_RING_LO : RegRow := ⟨"CPRI_CM_RX_RING_LO", 0x50301C, 1, 4, .cpri, .shared, 0x60, 0x0, [⟨6, 26, .rw⟩]⟩
abbrev R.CPRI_CM_RX_RING_HI : RegRow := ⟨"CPRI_CM_RX_RING_HI", 0x503020, 1, 4, .cpri, .shared, 0x60, 0x0, [⟨0, 16, .rw⟩, ⟨16, 4, .rw⟩]⟩
abbrev R.CPRI_CM_RX_IDX : RegRow := ⟨"CPRI_CM_RX_IDX", 0x503024, 1, 4, .cpri, .shared, 0x60, 0x0, [⟨0, 16, .rw⟩, ⟨16, 16, .ro⟩]⟩
abbrev R.CPRI_AXC_SEL : RegRow := ⟨"CPRI_AXC_SEL", 0x503028, 1, 4, .bank, .shared, 0x60, 0x0, [⟨0, 32, .rw⟩]⟩
abbrev R.CPRI_AXC_CFG : RegRow := ⟨"CPRI_AXC_CFG", 0x50302C, 1, 4, .cpriAxc, .shared, 0x60, 0x0, [⟨0, 1, .rw⟩, ⟨1, 1, .rw⟩, ⟨2, 5, .rw⟩, ⟨8, 12, .rw⟩, ⟨20, 8, .rw⟩]⟩
abbrev R.CPRI_AXC_ADDR_LO : RegRow := ⟨"CPRI_AXC_ADDR_LO", 0x503030, 1, 4, .cpriAxc, .shared, 0x60, 0x0, [⟨0, 32, .rw⟩]⟩
abbrev R.CPRI_AXC_ADDR_HI : RegRow := ⟨"CPRI_AXC_ADDR_HI", 0x503034, 1, 4, .cpriAxc, .shared, 0x60, 0x0, [⟨0, 32, .rw⟩]⟩
abbrev R.CPRI_AXC_STRIDE : RegRow := ⟨"CPRI_AXC_STRIDE", 0x503038, 1, 4, .cpriAxc, .shared, 0x60, 0x0, [⟨0, 32, .rw⟩]⟩
abbrev R.CHL_SEL : RegRow := ⟨"CHL_SEL", 0x504000, 1, 4, .bank, .shared, 0x60, 0x0, [⟨0, 4, .rw⟩]⟩
abbrev R.CHL_CFG : RegRow := ⟨"CHL_CFG", 0x504004, 1, 4, .chl, .shared, 0x60, 0xF, [⟨0, 4, .rw⟩, ⟨4, 1, .rw⟩]⟩
abbrev R.CHL_STATUS : RegRow := ⟨"CHL_STATUS", 0x504008, 1, 4, .chl, .shared, 0x60, 0x0, [⟨0, 2, .ro⟩, ⟨2, 3, .ro⟩, ⟨5, 1, .w1c⟩, ⟨6, 1, .ro⟩]⟩
abbrev R.CHL_PARTNER : RegRow := ⟨"CHL_PARTNER", 0x50400C, 1, 4, .chl, .shared, 0x60, 0x0, [⟨0, 4, .ro⟩, ⟨4, 3, .ro⟩]⟩
abbrev R.CHL_COUNTS : RegRow := ⟨"CHL_COUNTS", 0x504010, 1, 4, .chl, .shared, 0x60, 0x0, [⟨0, 16, .rc⟩, ⟨16, 16, .rc⟩]⟩
abbrev R.CHL_WIN_SEL : RegRow := ⟨"CHL_WIN_SEL", 0x504040, 1, 4, .bank, .shared, 0x60, 0x0, [⟨0, 6, .rw⟩]⟩
abbrev R.CHL_WIN_CTRL : RegRow := ⟨"CHL_WIN_CTRL", 0x504044, 1, 4, .chlWin, .shared, 0x60, 0x0, [⟨0, 1, .rw⟩, ⟨1, 4, .rw⟩, ⟨5, 1, .w1c⟩]⟩
abbrev R.CHL_WIN_XLAT : RegRow := ⟨"CHL_WIN_XLAT", 0x504048, 1, 4, .chlWin, .shared, 0x60, 0x0, [⟨0, 7, .rw⟩]⟩
abbrev R.PCIE_SEL : RegRow := ⟨"PCIE_SEL", 0x505000, 1, 4, .bank, .shared, 0x60, 0x0, [⟨0, 1, .rw⟩, ⟨8, 1, .rw⟩]⟩
abbrev R.PCIE_CFG : RegRow := ⟨"PCIE_CFG", 0x505004, 1, 4, .pcie, .shared, 0x60, 0x50, [⟨0, 1, .rw⟩, ⟨1, 3, .rw⟩, ⟨4, 3, .rw⟩, ⟨8, 6, .rw⟩]⟩
abbrev R.PCIE_STATUS : RegRow := ⟨"PCIE_STATUS", 0x505008, 1, 4, .pcie, .shared, 0x60, 0x0, [⟨0, 1, .ro⟩, ⟨1, 3, .ro⟩, ⟨4, 3, .ro⟩, ⟨7, 1, .w1c⟩, ⟨8, 1, .w1c⟩]⟩
abbrev R.PCIE_BAR2_XLAT_LO : RegRow := ⟨"PCIE_BAR2_XLAT_LO", 0x50500C, 1, 4, .pcieFn, .shared, 0x60, 0x0, [⟨0, 32, .rw⟩]⟩
abbrev R.PCIE_BAR2_XLAT_HI : RegRow := ⟨"PCIE_BAR2_XLAT_HI", 0x505010, 1, 4, .pcieFn, .shared, 0x60, 0x0, [⟨0, 32, .rw⟩]⟩
abbrev R.PCIE_BAR2_CTRL : RegRow := ⟨"PCIE_BAR2_CTRL", 0x505014, 1, 4, .pcieFn, .shared, 0x60, 0x0, [⟨0, 6, .rw⟩, ⟨8, 8, .rw⟩]⟩
abbrev R.PCIE_IN_XLAT_LO : RegRow := ⟨"PCIE_IN_XLAT_LO", 0x505018, 1, 4, .pcie, .shared, 0x60, 0x0, [⟨0, 32, .rw⟩]⟩
abbrev R.PCIE_IN_XLAT_HI : RegRow := ⟨"PCIE_IN_XLAT_HI", 0x50501C, 1, 4, .pcie, .shared, 0x60, 0x0, [⟨0, 32, .rw⟩]⟩
abbrev R.PCIE_IN_CTRL : RegRow := ⟨"PCIE_IN_CTRL", 0x505020, 1, 4, .pcie, .shared, 0x60, 0x0, [⟨0, 6, .rw⟩, ⟨8, 8, .rw⟩]⟩
abbrev R.PCIE_DMA_SEL : RegRow := ⟨"PCIE_DMA_SEL", 0x505024, 1, 4, .bank, .shared, 0x60, 0x0, [⟨0, 2, .rw⟩]⟩
abbrev R.PCIE_DMA_RING_LO : RegRow := ⟨"PCIE_DMA_RING_LO", 0x505028, 1, 4, .pcieDma, .shared, 0x60, 0x0, [⟨6, 26, .rw⟩]⟩
abbrev R.PCIE_DMA_RING_HI : RegRow := ⟨"PCIE_DMA_RING_HI", 0x50502C, 1, 4, .pcieDma, .shared, 0x60, 0x0, [⟨0, 16, .rw⟩, ⟨16, 4, .rw⟩]⟩
abbrev R.PCIE_DMA_IDX : RegRow := ⟨"PCIE_DMA_IDX", 0x505030, 1, 4, .pcieDma, .shared, 0x60, 0x0, [⟨0, 16, .rw⟩, ⟨16, 16, .ro⟩]⟩
abbrev R.INIT_SEL : RegRow := ⟨"INIT_SEL", 0x600000, 1, 4, .bank, .hostOwned, 0x3E0, 0x0, [⟨0, 10, .rw⟩]⟩
abbrev R.NOC_INIT_CFG : RegRow := ⟨"NOC_INIT_CFG", 0x600004, 1, 4, .init, .hostOwned, 0x3E0, 0x40, [⟨0, 7, .rw⟩]⟩
abbrev R.NOC_RATE_VC0 : RegRow := ⟨"NOC_RATE_VC0", 0x600008, 1, 4, .init, .hostOwned, 0x3E0, 0x0, [⟨0, 10, .rw⟩, ⟨16, 12, .rw⟩, ⟨31, 1, .rw⟩]⟩
abbrev R.NOC_RATE_VC1 : RegRow := ⟨"NOC_RATE_VC1", 0x60000C, 1, 4, .init, .hostOwned, 0x3E0, 0x0, [⟨0, 10, .rw⟩, ⟨16, 12, .rw⟩, ⟨31, 1, .rw⟩]⟩
abbrev R.NOC_INIT_STATUS : RegRow := ⟨"NOC_INIT_STATUS", 0x600010, 1, 4, .init, .hostOwned, 0x0, 0x0, [⟨0, 7, .ro⟩, ⟨8, 1, .ro⟩, ⟨9, 1, .ro⟩, ⟨10, 1, .ro⟩]⟩
abbrev R.NOC_STAT_RD_LO : RegRow := ⟨"NOC_STAT_RD_LO", 0x600014, 1, 4, .init, .hostOwned, 0x3E0, 0x0, [⟨0, 32, .ro⟩]⟩
abbrev R.NOC_STAT_RD_HI : RegRow := ⟨"NOC_STAT_RD_HI", 0x600018, 1, 4, .init, .hostOwned, 0x3E0, 0x0, [⟨0, 16, .ro⟩]⟩
abbrev R.NOC_STAT_WR_LO : RegRow := ⟨"NOC_STAT_WR_LO", 0x60001C, 1, 4, .init, .hostOwned, 0x3E0, 0x0, [⟨0, 32, .ro⟩]⟩
abbrev R.NOC_STAT_WR_HI : RegRow := ⟨"NOC_STAT_WR_HI", 0x600020, 1, 4, .init, .hostOwned, 0x3E0, 0x0, [⟨0, 16, .ro⟩]⟩
abbrev R.NOC_STAT_REQ_LO : RegRow := ⟨"NOC_STAT_REQ_LO", 0x600024, 1, 4, .init, .hostOwned, 0x3E0, 0x0, [⟨0, 32, .ro⟩]⟩
abbrev R.NOC_STAT_REQ_HI : RegRow := ⟨"NOC_STAT_REQ_HI", 0x600028, 1, 4, .init, .hostOwned, 0x3E0, 0x0, [⟨0, 16, .ro⟩]⟩
abbrev R.NOC_STAT_LAT_SUM_LO : RegRow := ⟨"NOC_STAT_LAT_SUM_LO", 0x60002C, 1, 4, .init, .hostOwned, 0x3E0, 0x0, [⟨0, 32, .ro⟩]⟩
abbrev R.NOC_STAT_LAT_SUM_HI : RegRow := ⟨"NOC_STAT_LAT_SUM_HI", 0x600030, 1, 4, .init, .hostOwned, 0x3E0, 0x0, [⟨0, 16, .ro⟩]⟩
abbrev R.NOC_STAT_LAT_MAX : RegRow := ⟨"NOC_STAT_LAT_MAX", 0x600034, 1, 4, .init, .hostOwned, 0x3E0, 0x0, [⟨0, 32, .ro⟩]⟩
abbrev R.NOC_STAT_FLAGS : RegRow := ⟨"NOC_STAT_FLAGS", 0x600038, 1, 4, .init, .hostOwned, 0x3E0, 0x0, [⟨0, 1, .w1c⟩]⟩
abbrev R.NOC_STAT_CLR : RegRow := ⟨"NOC_STAT_CLR", 0x60003C, 1, 4, .init, .hostOwned, 0x0, 0x0, [⟨0, 1, .wo⟩]⟩
abbrev R.NOC_STAT_HIST : RegRow := ⟨"NOC_STAT_HIST_b", 0x600040, 8, 4, .init, .hostOwned, 0x3E0, 0x0, [⟨0, 32, .ro⟩]⟩
abbrev R.NOC_HIST_CFG : RegRow := ⟨"NOC_HIST_CFG", 0x600100, 1, 4, .one, .hostOwned, 0x3E0, 0x19, [⟨0, 16, .rw⟩]⟩
abbrev R.NOC_BRIDGE_STATUS : RegRow := ⟨"NOC_BRIDGE_STATUS", 0x600104, 1, 4, .one, .hostOwned, 0x0, 0x0, [⟨0, 1, .ro⟩, ⟨1, 1, .w1c⟩]⟩
abbrev R.NOC_DROP_COUNT : RegRow := ⟨"NOC_DROP_COUNT", 0x600108, 1, 4, .one, .hostOwned, 0x3E0, 0x0, [⟨0, 32, .rc⟩]⟩
abbrev R.TSK_SEL : RegRow := ⟨"TSK_SEL", 0x700000, 1, 4, .bank, .shared, 0x3E0, 0x0, [⟨0, 2, .rw⟩]⟩
abbrev R.TSK_CTRL : RegRow := ⟨"TSK_CTRL", 0x700004, 1, 4, .tsk, .shared, 0x3E0, 0x1, [⟨0, 1, .rw⟩, ⟨1, 1, .rw⟩, ⟨2, 1, .rw⟩, ⟨3, 1, .wo⟩]⟩
abbrev R.TSK_STATUS : RegRow := ⟨"TSK_STATUS", 0x700008, 1, 4, .tsk, .shared, 0x3E0, 0x100, [⟨0, 1, .ro⟩, ⟨1, 1, .ro⟩, ⟨2, 1, .ro⟩, ⟨3, 1, .ro⟩, ⟨4, 1, .w1c⟩, ⟨5, 1, .w1c⟩, ⟨6, 1, .w1c⟩, ⟨7, 1, .w1c⟩, ⟨8, 1, .ro⟩, ⟨9, 1, .w1c⟩, ⟨10, 1, .w1c⟩]⟩
abbrev R.TSK_TICK : RegRow := ⟨"TSK_TICK", 0x70000C, 1, 4, .tsk, .shared, 0x3E0, 0x3E8, [⟨0, 14, .rw⟩]⟩
abbrev R.TSK_ACCT : RegRow := ⟨"TSK_ACCT", 0x700010, 1, 4, .tsk, .shared, 0x3E0, 0x0, [⟨0, 32, .ro⟩]⟩
abbrev R.TSK_ACCT_CAP : RegRow := ⟨"TSK_ACCT_CAP", 0x700014, 1, 4, .tsk, .shared, 0x3E0, 0x4000, [⟨0, 31, .rw⟩]⟩
abbrev R.TSK_ALLOW_LAST : RegRow := ⟨"TSK_ALLOW_LAST", 0x700018, 1, 4, .tsk, .shared, 0x3E0, 0x0, [⟨0, 24, .ro⟩, ⟨31, 1, .ro⟩]⟩
abbrev R.TSK_POOL : RegRow := ⟨"TSK_POOL", 0x70001C, 1, 4, .tsk, .shared, 0x3E0, 0x1000, [⟨0, 13, .ro⟩, ⟨16, 13, .ro⟩]⟩
abbrev R.TSK_READY_MASK : RegRow := ⟨"TSK_READY_MASK", 0x700020, 1, 4, .tsk, .shared, 0x3E0, 0x0, [⟨0, 16, .ro⟩]⟩
abbrev R.TSK_DISPATCHED_LO : RegRow := ⟨"TSK_DISPATCHED_LO", 0x700024, 1, 4, .tsk, .shared, 0x3E0, 0x0, [⟨0, 32, .ro⟩]⟩
abbrev R.TSK_DISPATCHED_HI : RegRow := ⟨"TSK_DISPATCHED_HI", 0x700028, 1, 4, .tsk, .shared, 0x3E0, 0x0, [⟨0, 32, .ro⟩]⟩
abbrev R.TSK_LATE_RISK : RegRow := ⟨"TSK_LATE_RISK", 0x70002C, 1, 4, .tsk, .shared, 0x3E0, 0x0, [⟨0, 32, .ro⟩]⟩
abbrev R.TSK_VARIANTS : RegRow := ⟨"TSK_VARIANTS", 0x700030, 1, 4, .tsk, .shared, 0x3E0, 0x0, [⟨0, 32, .ro⟩]⟩
abbrev R.TSK_DROPS : RegRow := ⟨"TSK_DROPS", 0x700034, 1, 4, .tsk, .shared, 0x3E0, 0x0, [⟨0, 32, .ro⟩]⟩
abbrev R.TSK_LATE_DONE : RegRow := ⟨"TSK_LATE_DONE", 0x700038, 1, 4, .tsk, .shared, 0x3E0, 0x0, [⟨0, 32, .ro⟩]⟩
abbrev R.TSK_STAT_CLR : RegRow := ⟨"TSK_STAT_CLR", 0x70003C, 1, 4, .tsk, .shared, 0x0, 0x0, [⟨0, 1, .wo⟩]⟩
abbrev R.TSK_SIGNAL : RegRow := ⟨"TSK_SIGNAL", 0x700040, 1, 4, .tsk, .shared, 0x0, 0x0, [⟨0, 14, .wo⟩]⟩
abbrev R.TSK_SIG_STATUS : RegRow := ⟨"TSK_SIG_STATUS", 0x700044, 1, 4, .tsk, .shared, 0x3E0, 0x0, [⟨0, 9, .ro⟩, ⟨16, 8, .ro⟩, ⟨24, 8, .ro⟩]⟩
abbrev R.TSK_PREEMPT : RegRow := ⟨"TSK_PREEMPT", 0x700048, 1, 4, .tsk, .shared, 0x3E0, 0x140003, [⟨0, 4, .rw⟩, ⟨16, 16, .rw⟩]⟩
abbrev R.TSK_PREEMPT_CNT : RegRow := ⟨"TSK_PREEMPT_CNT", 0x70004C, 1, 4, .tsk, .shared, 0x3E0, 0x0, [⟨0, 16, .ro⟩, ⟨16, 16, .ro⟩]⟩
abbrev R.TSK_PACE_SEL : RegRow := ⟨"TSK_PACE_SEL", 0x700050, 1, 4, .bank, .shared, 0x3E0, 0x0, [⟨0, 6, .rw⟩]⟩
abbrev R.TSK_PACE : RegRow := ⟨"TSK_PACE", 0x700054, 1, 4, .tskPace, .shared, 0x0, 0x0, [⟨0, 16, .ro⟩]⟩
abbrev R.TSK_FLUSH : RegRow := ⟨"TSK_FLUSH", 0x700058, 1, 4, .tsk, .shared, 0x0, 0x0, [⟨0, 16, .wo⟩]⟩
abbrev R.TSK_SUBMIT_GO : RegRow := ⟨"TSK_SUBMIT_GO", 0x70005C, 1, 4, .tsk, .shared, 0x0, 0x0, [⟨0, 1, .wo⟩]⟩
abbrev R.TSK_SUBMIT : RegRow := ⟨"TSK_SUBMIT_w", 0x700060, 16, 4, .bank, .shared, 0x3E0, 0x0, [⟨0, 32, .rw⟩]⟩
abbrev R.TSK_CQ_SEL : RegRow := ⟨"TSK_CQ_SEL", 0x7000A0, 1, 4, .bank, .shared, 0x3E0, 0x0, [⟨0, 4, .rw⟩]⟩
abbrev R.TSK_CQ_BASE_LO : RegRow := ⟨"TSK_CQ_BASE_LO", 0x7000A4, 1, 4, .tskCq, .shared, 0x3E0, 0x0, [⟨6, 26, .rw⟩]⟩
abbrev R.TSK_CQ_BASE_HI : RegRow := ⟨"TSK_CQ_BASE_HI", 0x7000A8, 1, 4, .tskCq, .shared, 0x3E0, 0x0, [⟨0, 16, .rw⟩, ⟨16, 4, .rw⟩]⟩
abbrev R.TSK_CQ_IDX : RegRow := ⟨"TSK_CQ_IDX", 0x7000AC, 1, 4, .tskCq, .shared, 0x3E0, 0x0, [⟨0, 16, .ro⟩, ⟨16, 16, .rw⟩]⟩
abbrev R.TSK_CQ_CFG : RegRow := ⟨"TSK_CQ_CFG", 0x7000B0, 1, 4, .tskCq, .shared, 0x3E0, 0x0, [⟨0, 1, .rw⟩, ⟨8, 6, .rw⟩, ⟨30, 1, .w1c⟩, ⟨31, 1, .ro⟩]⟩
abbrev R.CLUSTER_SEL : RegRow := ⟨"CLUSTER_SEL", 0x800000, 1, 4, .bank, .shared, 0x3E0, 0x0, [⟨0, 5, .rw⟩]⟩
abbrev R.CL_PACE : RegRow := ⟨"CL_PACE", 0x800004, 1, 4, .cluster, .shared, 0x0, 0x0, [⟨0, 16, .ro⟩]⟩
abbrev R.CL_STATUS : RegRow := ⟨"CL_STATUS", 0x800008, 1, 4, .cluster, .shared, 0x0, 0x0, [⟨0, 8, .ro⟩, ⟨8, 8, .ro⟩, ⟨16, 1, .ro⟩]⟩
abbrev R.CL_CTRL : RegRow := ⟨"CL_CTRL", 0x80000C, 1, 4, .cluster, .shared, 0x0, 0x0, [⟨0, 1, .wo⟩]⟩
abbrev R.TC_SEL : RegRow := ⟨"TC_SEL", 0x800400, 1, 4, .bank, .shared, 0x3E0, 0x0, [⟨0, 8, .rw⟩]⟩
abbrev R.TC_STATE : RegRow := ⟨"TC_STATE", 0x801000, 1, 4, .tc, .shared, 0x1A0, 0x0, [⟨0, 3, .ro⟩, ⟨3, 1, .ro⟩, ⟨4, 1, .ro⟩, ⟨5, 1, .ro⟩]⟩
abbrev R.TC_TASK : RegRow := ⟨"TC_TASK", 0x801004, 1, 4, .tc, .shared, 0x1A0, 0x0, [⟨0, 14, .ro⟩, ⟨14, 2, .ro⟩, ⟨16, 14, .ro⟩, ⟨31, 1, .ro⟩]⟩
abbrev R.TC_STEP_LO : RegRow := ⟨"TC_STEP_LO", 0x801008, 1, 4, .tc, .shared, 0x1A0, 0x0, [⟨0, 32, .ro⟩]⟩
abbrev R.TC_STEP_HI : RegRow := ⟨"TC_STEP_HI", 0x80100C, 1, 4, .tc, .shared, 0x1A0, 0x0, [⟨0, 32, .ro⟩]⟩
abbrev R.TC_STAT_INIT : RegRow := ⟨"TC_STAT_INIT", 0x801010, 1, 4, .tc, .shared, 0x3A0, 0xFF0001, [⟨0, 24, .rw⟩]⟩
abbrev R.TC_SP_INIT : RegRow := ⟨"TC_SP_INIT", 0x801014, 1, 4, .tc, .shared, 0x3A0, 0x120000, [⟨4, 28, .rw⟩]⟩
abbrev R.TC_VBASE : RegRow := ⟨"TC_VBASE", 0x801018, 1, 4, .tc, .shared, 0x3A0, 0x0, [⟨6, 10, .rw⟩]⟩
abbrev R.TC_IRQ_PEND : RegRow := ⟨"TC_IRQ_PEND", 0x80101C, 1, 4, .tc, .shared, 0x1A0, 0x0, [⟨0, 8, .w1c⟩]⟩
abbrev R.TC_IRQ_SET : RegRow := ⟨"TC_IRQ_SET", 0x801020, 1, 4, .tc, .shared, 0x1A0, 0x0, [⟨0, 8, .w1s⟩]⟩
abbrev R.TC_ERR : RegRow := ⟨"TC_ERR", 0x801024, 1, 4, .tc, .shared, 0x1A0, 0x0, [⟨0, 8, .ro⟩, ⟨8, 16, .ro⟩, ⟨30, 1, .ro⟩, ⟨31, 1, .w1c⟩]⟩
abbrev R.TC_ERR_ADDR : RegRow := ⟨"TC_ERR_ADDR", 0x801028, 1, 4, .tc, .shared, 0x1A0, 0x0, [⟨0, 32, .ro⟩]⟩
abbrev R.TC_TIMER_LO : RegRow := ⟨"TC_TIMER_LO", 0x80102C, 1, 4, .tc, .shared, 0x3A0, 0x0, [⟨0, 32, .rw⟩]⟩
abbrev R.TC_TIMER_HI : RegRow := ⟨"TC_TIMER_HI", 0x801030, 1, 4, .tc, .shared, 0x3A0, 0x0, [⟨0, 32, .rw⟩]⟩
abbrev R.TC_TIMER_CTRL : RegRow := ⟨"TC_TIMER_CTRL", 0x801034, 1, 4, .tc, .shared, 0x3A0, 0x0, [⟨0, 1, .rw⟩, ⟨1, 1, .w1c⟩]⟩
abbrev R.TC_WDT_LOAD : RegRow := ⟨"TC_WDT_LOAD", 0x801038, 1, 4, .tc, .shared, 0x3A0, 0xF4240, [⟨0, 32, .rw⟩]⟩
abbrev R.TC_WDT_CTRL : RegRow := ⟨"TC_WDT_CTRL", 0x80103C, 1, 4, .tc, .shared, 0x3A0, 0x0, [⟨0, 1, .rw⟩, ⟨1, 1, .rw⟩, ⟨2, 1, .ro⟩]⟩
abbrev R.TC_WDT_KICK : RegRow := ⟨"TC_WDT_KICK", 0x801040, 1, 4, .tc, .shared, 0x0, 0x0, [⟨0, 1, .wo⟩]⟩
abbrev R.TC_WDT_REMAIN : RegRow := ⟨"TC_WDT_REMAIN", 0x801044, 1, 4, .tc, .shared, 0x0, 0x0, [⟨0, 32, .ro⟩]⟩
abbrev R.TC_INBOX_BASE : RegRow := ⟨"TC_INBOX_BASE", 0x801048, 1, 4, .tc, .shared, 0x3A0, 0x0, [⟨0, 1, .rw⟩, ⟨1, 3, .rw⟩, ⟨4, 28, .rw⟩]⟩
abbrev R.TC_INBOX_IDX : RegRow := ⟨"TC_INBOX_IDX", 0x80104C, 1, 4, .tc, .shared, 0x3A0, 0x0, [⟨0, 8, .ro⟩, ⟨16, 8, .rw⟩]⟩
abbrev R.TC_WIN_LO : RegRow := ⟨"TC_WIN_w_LO", 0x801080, 12, 12, .tc, .shared, 0x3A0, 0x0, [⟨28, 4, .rw⟩]⟩
abbrev R.TC_WIN_HI : RegRow := ⟨"TC_WIN_w_HI", 0x801084, 12, 12, .tc, .shared, 0x3A0, 0x0, [⟨0, 16, .rw⟩]⟩
abbrev R.TC_WIN_CTRL : RegRow := ⟨"TC_WIN_w_CTRL", 0x801088, 12, 12, .tc, .shared, 0x3A0, 0x0, [⟨0, 1, .rw⟩, ⟨1, 2, .rw⟩, ⟨3, 1, .rw⟩, ⟨4, 1, .rw⟩, ⟨8, 8, .rw⟩]⟩
abbrev R.ACC_ENG_SEL : RegRow := ⟨"ACC_ENG_SEL", 0x900000, 1, 4, .bank, .shared, 0x3E0, 0x0, [⟨0, 7, .rw⟩]⟩
abbrev R.ACC_ENG_INFO : RegRow := ⟨"ACC_ENG_INFO", 0x900004, 1, 4, .eng, .shared, 0x7FF, 0x0, [⟨0, 4, .ro⟩, ⟨8, 10, .ro⟩]⟩
abbrev R.ACC_ENG_STATE : RegRow := ⟨"ACC_ENG_STATE", 0x900008, 1, 4, .eng, .shared, 0x0, 0x0, [⟨0, 2, .ro⟩, ⟨2, 1, .ro⟩, ⟨16, 14, .ro⟩, ⟨30, 2, .ro⟩]⟩
abbrev R.ACC_ENG_CTRL : RegRow := ⟨"ACC_ENG_CTRL", 0x90000C, 1, 4, .eng, .shared, 0x0, 0x0, [⟨0, 1, .wo⟩]⟩
abbrev R.ACC_ENG_CODE_CFG : RegRow := ⟨"ACC_ENG_CODE_CFG", 0x900010, 1, 4, .eng, .shared, 0x3E0, 0xB0C, [⟨0, 4, .rw⟩, ⟨8, 4, .rw⟩]⟩
abbrev R.ACC_ENG_JOBS : RegRow := ⟨"ACC_ENG_JOBS", 0x900014, 1, 4, .eng, .shared, 0x3E0, 0x0, [⟨0, 32, .ro⟩]⟩
abbrev R.ACC_ENG_ITER_LO : RegRow := ⟨"ACC_ENG_ITER_LO", 0x900018, 1, 4, .eng, .shared, 0x3E0, 0x0, [⟨0, 32, .ro⟩]⟩
abbrev R.ACC_ENG_ITER_HI : RegRow := ⟨"ACC_ENG_ITER_HI", 0x90001C, 1, 4, .eng, .shared, 0x3E0, 0x0, [⟨0, 32, .ro⟩]⟩
abbrev R.ACC_ENG_ERR : RegRow := ⟨"ACC_ENG_ERR", 0x900020, 1, 4, .eng, .shared, 0x3E0, 0x0, [⟨0, 16, .ro⟩, ⟨16, 8, .ro⟩, ⟨30, 1, .ro⟩, ⟨31, 1, .w1c⟩]⟩
abbrev R.ACC_ENG_ERR_TASK : RegRow := ⟨"ACC_ENG_ERR_TASK", 0x900024, 1, 4, .eng, .shared, 0x3E0, 0x0, [⟨0, 14, .ro⟩, ⟨14, 2, .ro⟩]⟩
abbrev R.ACC_ENG_STAT_CLR : RegRow := ⟨"ACC_ENG_STAT_CLR", 0x900028, 1, 4, .eng, .shared, 0x0, 0x0, [⟨0, 1, .wo⟩]⟩
abbrev R.ACC_ENG_HARQ_SEL : RegRow := ⟨"ACC_ENG_HARQ_SEL", 0x900100, 1, 4, .bank, .shared, 0x3E0, 0x0, [⟨0, 4, .rw⟩]⟩
abbrev R.ACC_ENG_HARQ_BASE_LO : RegRow := ⟨"ACC_ENG_HARQ_BASE_LO", 0x900104, 1, 4, .harq, .shared, 0x3E0, 0x0, [⟨12, 20, .rw⟩]⟩
abbrev R.ACC_ENG_HARQ_BASE_HI : RegRow := ⟨"ACC_ENG_HARQ_BASE_HI", 0x900108, 1, 4, .harq, .shared, 0x3E0, 0x0, [⟨0, 16, .rw⟩]⟩
abbrev R.ACC_ENG_HARQ_STRIDE : RegRow := ⟨"ACC_ENG_HARQ_STRIDE", 0x90010C, 1, 4, .harq, .shared, 0x3E0, 0x0, [⟨0, 16, .rw⟩]⟩
abbrev R.ACC_ENG_HARQ_CFG : RegRow := ⟨"ACC_ENG_HARQ_CFG", 0x900110, 1, 4, .harq, .shared, 0x3E0, 0x0, [⟨0, 1, .rw⟩, ⟨1, 1, .w1c⟩, ⟨8, 8, .rw⟩, ⟨16, 16, .rw⟩]⟩
abbrev R.ACC_ENG_HARQ_WAITS : RegRow := ⟨"ACC_ENG_HARQ_WAITS", 0x900114, 1, 4, .one, .shared, 0x3E0, 0x0, [⟨0, 32, .rc⟩]⟩
abbrev R.ACC_ENG_ITEMS_LO : RegRow := ⟨"ACC_ENG_ITEMS_LO", 0x900400, 1, 4, .eng, .shared, 0x3E0, 0x0, [⟨0, 32, .ro⟩]⟩
abbrev R.ACC_ENG_ITEMS_HI : RegRow := ⟨"ACC_ENG_ITEMS_HI", 0x900404, 1, 4, .eng, .shared, 0x3E0, 0x0, [⟨0, 32, .ro⟩]⟩
abbrev R.ACC_ENG_SAT_CNT : RegRow := ⟨"ACC_ENG_SAT_CNT", 0x900408, 1, 4, .eng, .shared, 0x3E0, 0x0, [⟨0, 32, .rc⟩]⟩
abbrev R.ACC_ENG_MTX_CFG : RegRow := ⟨"ACC_ENG_MTX_CFG", 0x90040C, 1, 4, .eng, .shared, 0x3E0, 0x14, [⟨0, 5, .rw⟩]⟩
abbrev R.ACC_ENG_ILL_CNT : RegRow := ⟨"ACC_ENG_ILL_CNT", 0x900410, 1, 4, .eng, .shared, 0x3E0, 0x0, [⟨0, 32, .rc⟩]⟩
abbrev R.ACC_ENG_PRACH_CFG : RegRow := ⟨"ACC_ENG_PRACH_CFG", 0x900414, 1, 4, .eng, .shared, 0x3E0, 0x4028, [⟨0, 6, .rw⟩, ⟨8, 7, .rw⟩]⟩
abbrev R.ACC_ENG_PRACH_DET : RegRow := ⟨"ACC_ENG_PRACH_DET", 0x900418, 1, 4, .eng, .shared, 0x3E0, 0x0, [⟨0, 32, .rc⟩]⟩
abbrev R.ECC_GRP_SEL : RegRow := ⟨"ECC_GRP_SEL", 0xA00000, 1, 4, .bank, .shared, 0x3E0, 0x0, [⟨0, 6, .rw⟩]⟩
abbrev R.ECC_GRP_STATUS : RegRow := ⟨"ECC_GRP_STATUS", 0xA00004, 1, 4, .grp, .shared, 0x3FC, 0x0, [⟨0, 1, .w1c⟩, ⟨16, 16, .ro⟩]⟩
abbrev R.ECC_TBL_SEL : RegRow := ⟨"ECC_TBL_SEL", 0xA00008, 1, 4, .bank, .shared, 0x3E0, 0x0, [⟨0, 4, .rw⟩]⟩
abbrev R.ECC_TBL_ADDR : RegRow := ⟨"ECC_TBL_ADDR", 0xA0000C, 1, 4, .grpTbl, .shared, 0x3FC, 0x0, [⟨0, 22, .ro⟩, ⟨31, 1, .ro⟩]⟩
abbrev R.ECC_TBL_INFO : RegRow := ⟨"ECC_TBL_INFO", 0xA00010, 1, 4, .grpTbl, .shared, 0x3FC, 0x0, [⟨0, 9, .ro⟩, ⟨9, 1, .ro⟩, ⟨16, 8, .ro⟩]⟩
abbrev R.ECC_TBL_CLR : RegRow := ⟨"ECC_TBL_CLR", 0xA00014, 1, 4, .grp, .shared, 0x0, 0x0, [⟨0, 1, .wo⟩]⟩
abbrev R.ECC_TBL_OVF : RegRow := ⟨"ECC_TBL_OVF", 0xA00018, 1, 4, .grp, .shared, 0x3FC, 0x0, [⟨0, 32, .rc⟩]⟩
abbrev R.ECC_NODE_SEL : RegRow := ⟨"ECC_NODE_SEL", 0xA00020, 1, 4, .bank, .shared, 0x3E0, 0x0, [⟨0, 2, .rw⟩, ⟨8, 6, .rw⟩, ⟨16, 8, .rw⟩, ⟨24, 2, .rw⟩]⟩
abbrev R.ECC_NODE_CORR_LO : RegRow := ⟨"ECC_NODE_CORR_LO", 0xA00024, 1, 4, .node, .shared, 0x3FC, 0x0, [⟨0, 32, .ro⟩]⟩
abbrev R.ECC_NODE_CORR_HI : RegRow := ⟨"ECC_NODE_CORR_HI", 0xA00028, 1, 4, .node, .shared, 0x3FC, 0x0, [⟨0, 16, .ro⟩]⟩
abbrev R.ECC_NODE_UNCORR_LO : RegRow := ⟨"ECC_NODE_UNCORR_LO", 0xA0002C, 1, 4, .node, .shared, 0x3FC, 0x0, [⟨0, 32, .ro⟩]⟩
abbrev R.ECC_NODE_UNCORR_HI : RegRow := ⟨"ECC_NODE_UNCORR_HI", 0xA00030, 1, 4, .node, .shared, 0x3FC, 0x0, [⟨0, 16, .ro⟩]⟩
abbrev R.ECC_NODE_FLAGS : RegRow := ⟨"ECC_NODE_FLAGS", 0xA00034, 1, 4, .node, .shared, 0x3FC, 0x0, [⟨0, 1, .w1c⟩, ⟨1, 1, .ro⟩]⟩
abbrev R.ECC_CNT_CLR : RegRow := ⟨"ECC_CNT_CLR", 0xA00038, 1, 4, .one, .shared, 0x0, 0x0, [⟨0, 1, .wo⟩]⟩
abbrev R.ECC_BIST_CTRL : RegRow := ⟨"ECC_BIST_CTRL", 0xA00040, 1, 4, .grp, .shared, 0x3E0, 0x640001, [⟨0, 1, .rw⟩, ⟨16, 16, .rw⟩]⟩
abbrev R.ECC_BIST_STATUS : RegRow := ⟨"ECC_BIST_STATUS", 0xA00044, 1, 4, .grp, .shared, 0x3FC, 0x0, [⟨0, 1, .w1c⟩, ⟨1, 1, .w1c⟩, ⟨2, 1, .ro⟩]⟩
abbrev R.ECC_BIST_LAPS : RegRow := ⟨"ECC_BIST_LAPS", 0xA00048, 1, 4, .grp, .shared, 0x3FC, 0x0, [⟨0, 32, .ro⟩]⟩
abbrev R.ECC_REPAIR_SEL : RegRow := ⟨"ECC_REPAIR_SEL", 0xA0004C, 1, 4, .bank, .shared, 0x3E0, 0x0, [⟨0, 4, .rw⟩]⟩
abbrev R.ECC_REPAIR_INFO : RegRow := ⟨"ECC_REPAIR_INFO", 0xA00050, 1, 4, .grpRepair, .shared, 0x3FC, 0x0, [⟨0, 22, .ro⟩, ⟨24, 2, .ro⟩, ⟨28, 1, .ro⟩, ⟨31, 1, .ro⟩]⟩
abbrev R.CL_DMA_STARVE : RegRow := ⟨"CL_DMA_STARVE", 0x800100, 1, 4, .cluster, .shared, 0x3A0, 0x0, [⟨0, 16, .w1c⟩, ⟨16, 8, .w1c⟩]⟩
abbrev R.CL_DMA_STARVE_CNT : RegRow := ⟨"CL_DMA_STARVE_CNT", 0x800104, 1, 4, .cluster, .shared, 0x3A0, 0x0, [⟨0, 32, .rc⟩]⟩
abbrev R.SCRUB_CTRL : RegRow := ⟨"SCRUB_CTRL", 0xA00200, 1, 4, .grp, .shared, 0x3E0, 0x640001, [⟨0, 1, .rw⟩, ⟨1, 1, .wo⟩, ⟨2, 1, .wo⟩, ⟨16, 16, .rw⟩]⟩
abbrev R.SCRUB_STATUS : RegRow := ⟨"SCRUB_STATUS", 0xA00204, 1, 4, .grp, .shared, 0x3FC, 0x0, [⟨0, 1, .w1c⟩, ⟨1, 1, .ro⟩, ⟨2, 1, .w1c⟩, ⟨3, 1, .w1c⟩]⟩
abbrev R.SCRUB_LAP_NS : RegRow := ⟨"SCRUB_LAP_NS", 0xA00208, 1, 4, .grp, .shared, 0x3FC, 0x0, [⟨0, 32, .ro⟩]⟩
abbrev R.SCRUB_LAP_LIMIT : RegRow := ⟨"SCRUB_LAP_LIMIT", 0xA0020C, 1, 4, .grp, .shared, 0x3E0, 0x5F5E100, [⟨0, 32, .rw⟩]⟩
abbrev R.SCRUB_LAPS : RegRow := ⟨"SCRUB_LAPS", 0xA00210, 1, 4, .grp, .shared, 0x3FC, 0x0, [⟨0, 32, .ro⟩]⟩
abbrev R.SCRUB_RANGE_START : RegRow := ⟨"SCRUB_RANGE_START", 0xA00214, 1, 4, .grp, .shared, 0x3E0, 0x0, [⟨0, 22, .rw⟩]⟩
abbrev R.SCRUB_RANGE_END : RegRow := ⟨"SCRUB_RANGE_END", 0xA00218, 1, 4, .grp, .shared, 0x3E0, 0x0, [⟨0, 22, .rw⟩]⟩
abbrev R.SCRUB_SUM_CHECKED : RegRow := ⟨"SCRUB_SUM_CHECKED", 0xA0021C, 1, 4, .grp, .shared, 0x3FC, 0x0, [⟨0, 32, .ro⟩]⟩
abbrev R.SCRUB_SUM_CORRECTED : RegRow := ⟨"SCRUB_SUM_CORRECTED", 0xA00220, 1, 4, .grp, .shared, 0x3FC, 0x0, [⟨0, 32, .ro⟩]⟩
abbrev R.SCRUB_SUM_UNCORR : RegRow := ⟨"SCRUB_SUM_UNCORR", 0xA00224, 1, 4, .grp, .shared, 0x3FC, 0x0, [⟨0, 32, .ro⟩]⟩
abbrev R.SCRUB_SUM_REBUILT : RegRow := ⟨"SCRUB_SUM_REBUILT", 0xA00228, 1, 4, .grp, .shared, 0x3FC, 0x0, [⟨0, 32, .ro⟩]⟩
abbrev R.SCRUB_SUM_NS : RegRow := ⟨"SCRUB_SUM_NS", 0xA0022C, 1, 4, .grp, .shared, 0x3FC, 0x0, [⟨0, 32, .ro⟩]⟩
abbrev R.HBM_STATUS : RegRow := ⟨"HBM_STATUS", 0xA01000, 1, 4, .one, .firmware, 0x0, 0x0, [⟨0, 2, .ro⟩, ⟨2, 2, .ro⟩, ⟨4, 2, .ro⟩]⟩
abbrev R.HBM_CTRL : RegRow := ⟨"HBM_CTRL", 0xA01004, 1, 4, .one, .firmware, 0x3E0, 0x1, [⟨0, 1, .rw⟩]⟩
abbrev R.HBM_SCRUB_INTERVAL : RegRow := ⟨"HBM_SCRUB_INTERVAL", 0xA01008, 1, 4, .one, .firmware, 0x3E0, 0x3E8, [⟨0, 24, .rw⟩]⟩
abbrev R.HBM_SCRUB_LAP_MS : RegRow := ⟨"HBM_SCRUB_LAP_MS_s", 0xA0100C, 2, 4, .one, .firmware, 0x3FC, 0x0, [⟨0, 32, .ro⟩]⟩
abbrev R.HBM_PC_SEL : RegRow := ⟨"HBM_PC_SEL", 0xA01020, 1, 4, .bank, .firmware, 0x3E0, 0x0, [⟨0, 6, .rw⟩]⟩
abbrev R.HBM_PC_CTRL : RegRow := ⟨"HBM_PC_CTRL", 0xA01024, 1, 4, .pc, .firmware, 0x3E0, 0x0, [⟨0, 1, .rw⟩]⟩
abbrev R.HBM_PC_CORR : RegRow := ⟨"HBM_PC_CORR", 0xA01028, 1, 4, .pc, .firmware, 0x3FC, 0x0, [⟨0, 32, .rc⟩]⟩
abbrev R.HBM_PC_UNCORR : RegRow := ⟨"HBM_PC_UNCORR", 0xA0102C, 1, 4, .pc, .firmware, 0x3FC, 0x0, [⟨0, 32, .rc⟩]⟩
abbrev R.HBM_PC_TAG_FAIL : RegRow := ⟨"HBM_PC_TAG_FAIL", 0xA01030, 1, 4, .pc, .firmware, 0x3FC, 0x0, [⟨0, 32, .rc⟩]⟩
abbrev R.HBM_PC_DENIED : RegRow := ⟨"HBM_PC_DENIED", 0xA01034, 1, 4, .pc, .firmware, 0x3FC, 0x0, [⟨0, 32, .rc⟩]⟩
abbrev R.HBM_PC_STATUS : RegRow := ⟨"HBM_PC_STATUS", 0xA01038, 1, 4, .pc, .firmware, 0x0, 0x0, [⟨0, 1, .ro⟩, ⟨1, 1, .ro⟩]⟩
abbrev R.HBM_ERR_ADDR_LO : RegRow := ⟨"HBM_ERR_ADDR_LO", 0xA01040, 1, 4, .one, .firmware, 0x3FC, 0x0, [⟨6, 26, .ro⟩]⟩
abbrev R.HBM_ERR_ADDR_HI : RegRow := ⟨"HBM_ERR_ADDR_HI", 0xA01044, 1, 4, .one, .firmware, 0x3FC, 0x0, [⟨0, 16, .ro⟩]⟩
abbrev R.HBM_ERR_INFO : RegRow := ⟨"HBM_ERR_INFO", 0xA01048, 1, 4, .one, .firmware, 0x3FC, 0x0, [⟨0, 8, .ro⟩, ⟨8, 3, .ro⟩, ⟨16, 6, .ro⟩, ⟨30, 1, .ro⟩, ⟨31, 1, .w1c⟩]⟩
abbrev R.CIPH_REGION_SEL : RegRow := ⟨"CIPH_REGION_SEL", 0xA01100, 1, 4, .bank, .firmware, 0x3E0, 0x0, [⟨0, 4, .rw⟩]⟩
abbrev R.CIPH_REGION_BASE_LO : RegRow := ⟨"CIPH_REGION_BASE_LO", 0xA01104, 1, 4, .ciph, .firmware, 0x3E0, 0x0, [⟨12, 20, .rw⟩]⟩
abbrev R.CIPH_REGION_BASE_HI : RegRow := ⟨"CIPH_REGION_BASE_HI", 0xA01108, 1, 4, .ciph, .firmware, 0x3E0, 0x0, [⟨0, 16, .rw⟩]⟩
abbrev R.CIPH_REGION_LIMIT_LO : RegRow := ⟨"CIPH_REGION_LIMIT_LO", 0xA0110C, 1, 4, .ciph, .firmware, 0x3E0, 0x0, [⟨12, 20, .rw⟩]⟩
abbrev R.CIPH_REGION_LIMIT_HI : RegRow := ⟨"CIPH_REGION_LIMIT_HI", 0xA01110, 1, 4, .ciph, .firmware, 0x3E0, 0x0, [⟨0, 16, .rw⟩]⟩
abbrev R.CIPH_REGION_ALLOW_LO : RegRow := ⟨"CIPH_REGION_ALLOW_LO", 0xA01114, 1, 4, .ciph, .firmware, 0x3E0, 0x0, [⟨0, 32, .rw⟩]⟩
abbrev R.CIPH_REGION_ALLOW_HI : RegRow := ⟨"CIPH_REGION_ALLOW_HI", 0xA01118, 1, 4, .ciph, .firmware, 0x3E0, 0x0, [⟨0, 32, .rw⟩]⟩
abbrev R.CIPH_REGION_CTRL : RegRow := ⟨"CIPH_REGION_CTRL", 0xA0111C, 1, 4, .ciph, .firmware, 0x3E0, 0x0, [⟨0, 1, .rw⟩, ⟨1, 1, .w1c⟩]⟩
abbrev R.CIPH_KEYS_LO : RegRow := ⟨"CIPH_KEYS_LO", 0xA01120, 1, 4, .one, .firmware, 0x0, 0x0, [⟨0, 32, .ro⟩]⟩
abbrev R.CIPH_KEYS_HI : RegRow := ⟨"CIPH_KEYS_HI", 0xA01124, 1, 4, .one, .firmware, 0x0, 0x0, [⟨0, 32, .ro⟩]⟩
abbrev R.CIPH_STATUS : RegRow := ⟨"CIPH_STATUS", 0xA01128, 1, 4, .one, .firmware, 0x0, 0x0, [⟨0, 1, .ro⟩]⟩
abbrev R.CFG_STATUS : RegRow := ⟨"CFG_STATUS", 0xB00000, 1, 4, .one, .firmware, 0x0, 0x0, [⟨0, 3, .ro⟩, ⟨3, 1, .ro⟩, ⟨4, 1, .ro⟩, ⟨5, 1, .ro⟩, ⟨8, 3, .ro⟩, ⟨11, 1, .ro⟩]⟩
abbrev R.CFG_FAIL : RegRow := ⟨"CFG_FAIL", 0xB00004, 1, 4, .one, .firmware, 0x3FC, 0x0, [⟨0, 8, .ro⟩, ⟨8, 1, .ro⟩, ⟨9, 1, .ro⟩, ⟨10, 1, .ro⟩, ⟨11, 1, .ro⟩, ⟨30, 1, .ro⟩, ⟨31, 1, .w1c⟩]⟩
abbrev R.CFG_FAIL_POS : RegRow := ⟨"CFG_FAIL_POS", 0xB00008, 1, 4, .one, .firmware, 0x3FC, 0x0, [⟨0, 32, .ro⟩]⟩
abbrev R.CFG_GOLDEN_BASE : RegRow := ⟨"CFG_GOLDEN_BASE", 0xB0000C, 1, 4, .one, .firmware, 0x3EC, 0x0, [⟨0, 29, .ro⟩, ⟨31, 1, .ro⟩]⟩
abbrev R.CFG_LOCK : RegRow := ⟨"CFG_LOCK", 0xB00010, 1, 4, .one, .firmware, 0x3E0, 0x0, [⟨0, 1, .w1b⟩]⟩
abbrev R.CFG_BASE_VERSION : RegRow := ⟨"CFG_BASE_VERSION", 0xB00014, 1, 4, .one, .firmware, 0x3E0, 0x0, [⟨0, 32, .ro⟩]⟩
abbrev R.CFG_REPAIR_BASE_LO : RegRow := ⟨"CFG_REPAIR_BASE_LO", 0xB00018, 1, 4, .one, .firmware, 0x3E0, 0x0, [⟨12, 20, .rw⟩]⟩
abbrev R.CFG_REPAIR_BASE_HI : RegRow := ⟨"CFG_REPAIR_BASE_HI", 0xB0001C, 1, 4, .one, .firmware, 0x3E0, 0x0, [⟨0, 16, .rw⟩]⟩
abbrev R.CFG_REPAIR_SIZE : RegRow := ⟨"CFG_REPAIR_SIZE", 0xB00020, 1, 4, .one, .firmware, 0x3E0, 0x0, [⟨0, 16, .rw⟩]⟩
abbrev R.CFG_SCRUB_CTRL : RegRow := ⟨"CFG_SCRUB_CTRL", 0xB00100, 1, 4, .one, .firmware, 0x3E0, 0x1, [⟨0, 1, .rw⟩]⟩
abbrev R.CFG_SCRUB_STATUS : RegRow := ⟨"CFG_SCRUB_STATUS", 0xB00104, 1, 4, .one, .firmware, 0x3FC, 0x0, [⟨0, 1, .w1c⟩, ⟨1, 1, .w1c⟩, ⟨2, 1, .w1c⟩, ⟨3, 1, .ro⟩, ⟨4, 1, .ro⟩]⟩
abbrev R.CFG_SCRUB_LAP_US : RegRow := ⟨"CFG_SCRUB_LAP_US", 0xB00108, 1, 4, .one, .firmware, 0x3FC, 0x0, [⟨0, 32, .ro⟩]⟩
abbrev R.CFG_SCRUB_CORR : RegRow := ⟨"CFG_SCRUB_CORR", 0xB0010C, 1, 4, .one, .firmware, 0x3FC, 0x0, [⟨0, 32, .rc⟩]⟩
abbrev R.CFG_SCRUB_REPAIRED : RegRow := ⟨"CFG_SCRUB_REPAIRED", 0xB00110, 1, 4, .one, .firmware, 0x3FC, 0x0, [⟨0, 32, .rc⟩]⟩
abbrev R.CFG_SCRUB_LOST : RegRow := ⟨"CFG_SCRUB_LOST", 0xB00114, 1, 4, .one, .firmware, 0x3FC, 0x0, [⟨0, 32, .rc⟩]⟩
abbrev R.CFG_LOST_ADDR : RegRow := ⟨"CFG_LOST_ADDR", 0xB00118, 1, 4, .one, .firmware, 0x3FC, 0x0, [⟨0, 25, .ro⟩, ⟨31, 1, .w1c⟩]⟩
abbrev R.PR_REGION_SEL : RegRow := ⟨"PR_REGION_SEL", 0xB00200, 1, 4, .bank, .shared, 0x3E0, 0x0, [⟨0, 6, .rw⟩]⟩
abbrev R.PR_REGION_STATE : RegRow := ⟨"PR_REGION_STATE", 0xB00204, 1, 4, .region, .shared, 0x0, 0x10, [⟨0, 3, .ro⟩, ⟨4, 1, .ro⟩, ⟨5, 1, .ro⟩, ⟨6, 1, .ro⟩, ⟨7, 1, .ro⟩]⟩
abbrev R.PR_REGION_CTRL : RegRow := ⟨"PR_REGION_CTRL", 0xB00208, 1, 4, .region, .shared, 0x0, 0x0, [⟨0, 1, .wo⟩]⟩
abbrev R.PR_REGION_VERSION : RegRow := ⟨"PR_REGION_VERSION", 0xB0020C, 1, 4, .region, .shared, 0x3C0, 0x0, [⟨0, 32, .ro⟩]⟩
abbrev R.PR_ISO_MODE : RegRow := ⟨"PR_ISO_MODE_w", 0xB00210, 4, 4, .region, .shared, 0x3C0, 0x0, [⟨0, 32, .rw⟩]⟩
abbrev R.PR_LOADED_LO : RegRow := ⟨"PR_LOADED_LO", 0xB00220, 1, 4, .one, .shared, 0x0, 0x0, [⟨0, 32, .ro⟩]⟩
abbrev R.PR_LOADED_HI : RegRow := ⟨"PR_LOADED_HI", 0xB00224, 1, 4, .one, .shared, 0x0, 0x0, [⟨0, 32, .ro⟩]⟩
abbrev R.PR_FAILED_LO : RegRow := ⟨"PR_FAILED_LO", 0xB00228, 1, 4, .one, .shared, 0x0, 0x0, [⟨0, 32, .ro⟩]⟩
abbrev R.PR_FAILED_HI : RegRow := ⟨"PR_FAILED_HI", 0xB0022C, 1, 4, .one, .shared, 0x0, 0x0, [⟨0, 32, .ro⟩]⟩
abbrev R.PR_HOST_ADDR_LO : RegRow := ⟨"PR_HOST_ADDR_LO", 0xB00300, 1, 4, .one, .shared, 0x3E0, 0x0, [⟨4, 28, .rw⟩]⟩
abbrev R.PR_HOST_ADDR_HI : RegRow := ⟨"PR_HOST_ADDR_HI", 0xB00304, 1, 4, .one, .shared, 0x3E0, 0x0, [⟨0, 32, .rw⟩]⟩
abbrev R.PR_HOST_LEN : RegRow := ⟨"PR_HOST_LEN", 0xB00308, 1, 4, .one, .shared, 0x3E0, 0x0, [⟨0, 32, .rw⟩]⟩
abbrev R.PR_HOST_CTRL : RegRow := ⟨"PR_HOST_CTRL", 0xB0030C, 1, 4, .one, .shared, 0x0, 0x0, [⟨0, 1, .wo⟩]⟩
abbrev R.BM_SEL : RegRow := ⟨"BM_SEL", 0xB08000, 1, 4, .bank, .shared, 0x3E0, 0x0, [⟨0, 13, .rw⟩]⟩
abbrev R.BM_INFO : RegRow := ⟨"BM_INFO", 0xB08004, 1, 4, .bm, .shared, 0x3C0, 0x0, [⟨0, 3, .ro⟩, ⟨3, 3, .ro⟩, ⟨8, 1, .ro⟩, ⟨9, 1, .ro⟩]⟩
abbrev R.BM_STATUS : RegRow := ⟨"BM_STATUS", 0xB08008, 1, 4, .bm, .shared, 0x3C0, 0x0, [⟨0, 1, .w1c⟩, ⟨1, 1, .w1c⟩, ⟨2, 1, .w1c⟩, ⟨3, 1, .ro⟩]⟩
abbrev R.BM_ECC_CNT : RegRow := ⟨"BM_ECC_CNT", 0xB0800C, 1, 4, .bm, .shared, 0x3FC, 0x0, [⟨0, 16, .rc⟩, ⟨16, 16, .rc⟩]⟩
abbrev R.BM_COLL_SUM_LO : RegRow := ⟨"BM_COLL_SUM_LO", 0xB08010, 1, 4, .one, .shared, 0x3C0, 0x0, [⟨0, 32, .ro⟩]⟩
abbrev R.BM_COLL_SUM_HI : RegRow := ⟨"BM_COLL_SUM_HI", 0xB08014, 1, 4, .one, .shared, 0x3C0, 0x0, [⟨0, 32, .ro⟩]⟩
abbrev R.BM_COLL_CLR : RegRow := ⟨"BM_COLL_CLR", 0xB08018, 1, 4, .one, .shared, 0x0, 0x0, [⟨0, 6, .wo⟩, ⟨8, 1, .wo⟩]⟩
abbrev R.PR_FP_SEL : RegRow := ⟨"PR_FP_SEL", 0xB08100, 1, 4, .bank, .shared, 0x3E0, 0x0, [⟨0, 7, .rw⟩]⟩
abbrev R.PR_FP_CTRL : RegRow := ⟨"PR_FP_CTRL", 0xB08104, 1, 4, .fp, .shared, 0x3C0, 0x640000, [⟨0, 1, .rw⟩, ⟨1, 4, .rw⟩, ⟨8, 1, .rw⟩, ⟨16, 16, .rw⟩]⟩
abbrev R.PR_FP_KEYMASK_LO : RegRow := ⟨"PR_FP_KEYMASK_LO", 0xB08108, 1, 4, .fp, .shared, 0x3C0, 0x1, [⟨0, 32, .rw⟩]⟩
abbrev R.PR_FP_KEYMASK_HI : RegRow := ⟨"PR_FP_KEYMASK_HI", 0xB0810C, 1, 4, .fp, .shared, 0x3C0, 0x0, [⟨0, 32, .rw⟩]⟩
abbrev R.PR_FP_STATUS : RegRow := ⟨"PR_FP_STATUS", 0xB08110, 1, 4, .fp, .shared, 0x3C0, 0x0, [⟨0, 1, .ro⟩, ⟨1, 1, .w1c⟩, ⟨2, 1, .w1c⟩, ⟨3, 1, .w1c⟩, ⟨4, 1, .ro⟩, ⟨8, 7, .ro⟩, ⟨16, 9, .ro⟩]⟩
abbrev R.PR_FP_COUNTS : RegRow := ⟨"PR_FP_COUNTS", 0xB08114, 1, 4, .fp, .shared, 0x3C0, 0x0, [⟨0, 16, .rc⟩, ⟨16, 16, .rc⟩]⟩
abbrev R.CFG_CONT_INFO : RegRow := ⟨"CFG_CONT_INFO", 0xB08200, 1, 4, .one, .firmware, 0x3E0, 0x0, [⟨0, 10, .ro⟩, ⟨16, 6, .ro⟩, ⟨30, 1, .ro⟩, ⟨31, 1, .ro⟩]⟩
abbrev R.CFG_IO_BANK_STATUS : RegRow := ⟨"CFG_IO_BANK_STATUS", 0xB08204, 1, 4, .one, .firmware, 0x0, 0x0, [⟨0, 32, .ro⟩]⟩
abbrev R.CFG_IO_IN : RegRow := ⟨"CFG_IO_IN_k", 0xB08240, 24, 4, .one, .firmware, 0x0, 0x0, [⟨0, 32, .ro⟩]⟩
abbrev R.SEC_LIFECYCLE : RegRow := ⟨"SEC_LIFECYCLE", 0xC00000, 1, 4, .one, .firmware, 0x7FF, 0x0, [⟨0, 2, .ro⟩, ⟨4, 2, .ro⟩, ⟨8, 1, .ro⟩]⟩
abbrev R.SEC_FUSE_STATUS : RegRow := ⟨"SEC_FUSE_STATUS", 0xC00004, 1, 4, .one, .firmware, 0x7FF, 0x0, [⟨0, 4, .ro⟩, ⟨4, 4, .ro⟩, ⟨8, 3, .ro⟩, ⟨11, 1, .ro⟩, ⟨16, 8, .ro⟩, ⟨24, 1, .ro⟩, ⟨25, 1, .ro⟩]⟩
abbrev R.SEC_ARB : RegRow := ⟨"SEC_ARB", 0xC00008, 1, 4, .one, .firmware, 0x7FF, 0x0, [⟨0, 9, .ro⟩, ⟨16, 9, .ro⟩]⟩
abbrev R.SEC_DBG_STATUS : RegRow := ⟨"SEC_DBG_STATUS", 0xC0000C, 1, 4, .one, .firmware, 0x77E, 0x0, [⟨0, 2, .ro⟩, ⟨4, 3, .ro⟩, ⟨8, 1, .ro⟩, ⟨9, 3, .ro⟩, ⟨16, 1, .ro⟩]⟩
abbrev R.SEC_TAMPER : RegRow := ⟨"SEC_TAMPER", 0xC00010, 1, 4, .one, .firmware, 0x7FF, 0x0, [⟨0, 1, .w1c⟩, ⟨1, 1, .ro⟩]⟩
abbrev R.SEC_KEYRAM : RegRow := ⟨"SEC_KEYRAM", 0xC00014, 1, 4, .one, .firmware, 0x7FF, 0x0, [⟨0, 8, .ro⟩]⟩
abbrev R.SEC_LOCKS : RegRow := ⟨"SEC_LOCKS", 0xC00018, 1, 4, .one, .firmware, 0x3E0, 0x0, [⟨0, 1, .w1b⟩, ⟨1, 1, .w1b⟩, ⟨2, 1, .w1b⟩]⟩
abbrev R.SEC_REQ_STATUS : RegRow := ⟨"SEC_REQ_STATUS", 0xC0001C, 1, 4, .one, .firmware, 0x0, 0x0, [⟨0, 1, .ro⟩, ⟨8, 8, .ro⟩, ⟨16, 16, .ro⟩]⟩
abbrev R.FUSE_SERIAL_LO : RegRow := ⟨"FUSE_SERIAL_LO", 0xC00100, 1, 4, .one, .firmware, 0x7FF, 0x0, [⟨0, 32, .ro⟩]⟩
abbrev R.FUSE_SERIAL_HI : RegRow := ⟨"FUSE_SERIAL_HI", 0xC00104, 1, 4, .one, .firmware, 0x7FF, 0x0, [⟨0, 32, .ro⟩]⟩
abbrev R.FUSE_SPOILED : RegRow := ⟨"FUSE_SPOILED", 0xC00108, 1, 4, .one, .firmware, 0x7FF, 0x0, [⟨0, 4, .ro⟩, ⟨8, 8, .ro⟩, ⟨16, 1, .ro⟩]⟩
abbrev R.ERR_CFG : RegRow := ⟨"ERR_CFG", 0xD00000, 1, 4, .one, .shared, 0x3FC, 0xE002710, [⟨0, 24, .rw⟩, ⟨24, 4, .rw⟩]⟩
abbrev R.ERR_STATUS : RegRow := ⟨"ERR_STATUS", 0xD00004, 1, 4, .one, .shared, 0x3FC, 0x0, [⟨0, 4, .w1c⟩, ⟨4, 1, .w1c⟩, ⟨5, 1, .ro⟩, ⟨16, 11, .ro⟩]⟩
abbrev R.ERR_LOST : RegRow := ⟨"ERR_LOST", 0xD00008, 1, 4, .one, .shared, 0x3FC, 0x0, [⟨0, 32, .ro⟩]⟩
abbrev R.ERR_LOG_SEQ : RegRow := ⟨"ERR_LOG_SEQ", 0xD0000C, 1, 4, .one, .shared, 0x3FC, 0x0, [⟨0, 16, .ro⟩, ⟨16, 16, .ro⟩]⟩
abbrev R.ERR_Q_SEL : RegRow := ⟨"ERR_Q_SEL", 0xD00010, 1, 4, .bank, .shared, 0x3E0, 0x0, [⟨0, 2, .rw⟩]⟩
abbrev R.ERR_Q_STATUS : RegRow := ⟨"ERR_Q_STATUS", 0xD00014, 1, 4, .errQ, .shared, 0x3FC, 0x0, [⟨0, 9, .ro⟩, ⟨16, 9, .ro⟩]⟩
abbrev R.ERR_Q_SUPPR : RegRow := ⟨"ERR_Q_SUPPR", 0xD00018, 1, 4, .errQ, .shared, 0x3FC, 0x0, [⟨0, 32, .ro⟩]⟩
abbrev R.ERR_Q_FWD : RegRow := ⟨"ERR_Q_FWD", 0xD0001C, 1, 4, .errQ, .shared, 0x3FC, 0x0, [⟨0, 32, .ro⟩]⟩
abbrev R.DBG_CTRL : RegRow := ⟨"DBG_CTRL", 0xE00000, 1, 4, .one, .debugger, 0x77E, 0x0, [⟨0, 1, .rw⟩]⟩
abbrev R.DBG_STATUS : RegRow := ⟨"DBG_STATUS", 0xE00004, 1, 4, .one, .debugger, 0x77E, 0x0, [⟨0, 2, .ro⟩, ⟨2, 1, .w1c⟩]⟩
abbrev R.DBG_WDT_GRACE : RegRow := ⟨"DBG_WDT_GRACE", 0xE00008, 1, 4, .one, .debugger, 0x77E, 0xF4240, [⟨0, 32, .rw⟩]⟩
abbrev R.DBG_WARM_KEY : RegRow := ⟨"DBG_WARM_KEY", 0xE0000C, 1, 4, .one, .debugger, 0x0, 0x0, [⟨0, 32, .wo⟩]⟩
abbrev R.DBG_CORE_SEL : RegRow := ⟨"DBG_CORE_SEL", 0xE00010, 1, 4, .bank, .debugger, 0x77E, 0x0, [⟨0, 9, .rw⟩]⟩
abbrev R.DBG_CORE_CTRL : RegRow := ⟨"DBG_CORE_CTRL", 0xE00014, 1, 4, .dbgCore, .debugger, 0x0, 0x0, [⟨0, 1, .wo⟩, ⟨1, 1, .wo⟩, ⟨2, 1, .wo⟩]⟩
abbrev R.DBG_CORE_STATUS : RegRow := ⟨"DBG_CORE_STATUS", 0xE00018, 1, 4, .dbgCore, .debugger, 0x77E, 0x0, [⟨0, 1, .ro⟩, ⟨1, 3, .ro⟩, ⟨4, 1, .w1c⟩, ⟨5, 1, .w1c⟩, ⟨6, 2, .ro⟩]⟩
abbrev R.DBG_CORE_PC : RegRow := ⟨"DBG_CORE_PC", 0xE0001C, 1, 4, .dbgCore, .debugger, 0x77E, 0x0, [⟨4, 12, .rw⟩]⟩
abbrev R.DBG_CORE_GROUP : RegRow := ⟨"DBG_CORE_GROUP", 0xE00020, 1, 4, .dbgCore, .debugger, 0x77E, 0x0, [⟨0, 3, .rw⟩, ⟨3, 1, .rw⟩]⟩
abbrev R.DBG_REG_SEL : RegRow := ⟨"DBG_REG_SEL", 0xE00024, 1, 4, .bank, .debugger, 0x77E, 0x0, [⟨0, 8, .rw⟩, ⟨8, 2, .rw⟩]⟩
abbrev R.DBG_REG_DATA : RegRow := ⟨"DBG_REG_DATA_k", 0xE00028, 4, 4, .dbgReg, .debugger, 0x77E, 0x0, [⟨0, 32, .rw⟩]⟩
abbrev R.DBG_BP_ADDR : RegRow := ⟨"DBG_BP_b_ADDR", 0xE00040, 4, 8, .dbgCore, .debugger, 0x77E, 0x0, [⟨0, 12, .rw⟩]⟩
abbrev R.DBG_BP_CTRL : RegRow := ⟨"DBG_BP_b_CTRL", 0xE00044, 4, 8, .dbgCore, .debugger, 0x77E, 0x0, [⟨0, 1, .rw⟩, ⟨1, 2, .rw⟩]⟩
abbrev R.DBG_WP_LO : RegRow := ⟨"DBG_WP_w_LO", 0xE00060, 2, 12, .dbgCore, .debugger, 0x77E, 0x0, [⟨0, 32, .rw⟩]⟩
abbrev R.DBG_WP_HI : RegRow := ⟨"DBG_WP_w_HI", 0xE00064, 2, 12, .dbgCore, .debugger, 0x77E, 0x0, [⟨0, 32, .rw⟩]⟩
abbrev R.DBG_WP_CTRL : RegRow := ⟨"DBG_WP_w_CTRL", 0xE00068, 2, 12, .dbgCore, .debugger, 0x77E, 0x0, [⟨0, 1, .rw⟩, ⟨1, 2, .rw⟩, ⟨3, 2, .rw⟩]⟩
abbrev R.TRC_CTRL : RegRow := ⟨"TRC_CTRL", 0xE00800, 1, 4, .one, .hostOwned, 0x77E, 0x0, [⟨0, 1, .rw⟩, ⟨1, 2, .rw⟩, ⟨3, 1, .rw⟩, ⟨8, 8, .rw⟩]⟩
abbrev R.TRC_STATUS : RegRow := ⟨"TRC_STATUS", 0xE00804, 1, 4, .one, .hostOwned, 0x77E, 0x0, [⟨0, 1, .ro⟩, ⟨1, 1, .w1c⟩]⟩
abbrev R.TRC_RING_BASE_LO : RegRow := ⟨"TRC_RING_BASE_LO", 0xE00808, 1, 4, .one, .hostOwned, 0x77E, 0x0, [⟨6, 26, .rw⟩]⟩
abbrev R.TRC_RING_BASE_HI : RegRow := ⟨"TRC_RING_BASE_HI", 0xE0080C, 1, 4, .one, .hostOwned, 0x77E, 0x0, [⟨0, 16, .rw⟩, ⟨16, 5, .rw⟩]⟩
abbrev R.TRC_WPTR : RegRow := ⟨"TRC_WPTR", 0xE00810, 1, 4, .one, .hostOwned, 0x77E, 0x0, [⟨0, 32, .ro⟩]⟩
abbrev R.TRC_DROPS : RegRow := ⟨"TRC_DROPS", 0xE00814, 1, 4, .one, .hostOwned, 0x77E, 0x0, [⟨0, 32, .rc⟩]⟩
abbrev R.TRC_SRC_SEL : RegRow := ⟨"TRC_SRC_SEL", 0xE00818, 1, 4, .bank, .hostOwned, 0x77E, 0x0, [⟨0, 9, .rw⟩]⟩
abbrev R.TRC_PORT_EN_LO : RegRow := ⟨"TRC_PORT_EN_LO", 0xE0081C, 1, 4, .trcSrc, .hostOwned, 0x77E, 0x0, [⟨0, 32, .rw⟩]⟩
abbrev R.TRC_PORT_EN_HI : RegRow := ⟨"TRC_PORT_EN_HI", 0xE00820, 1, 4, .trcSrc, .hostOwned, 0x77E, 0x0, [⟨0, 32, .rw⟩]⟩
abbrev R.TRC_BUF_ADDR : RegRow := ⟨"TRC_BUF_ADDR", 0xE00824, 1, 4, .bank, .hostOwned, 0x77E, 0x0, [⟨0, 16, .rw⟩]⟩
abbrev R.TRC_BUF_DATA : RegRow := ⟨"TRC_BUF_DATA_k", 0xE00828, 4, 4, .trcBuf, .hostOwned, 0x77E, 0x0, [⟨0, 32, .ro⟩]⟩
abbrev R.MBX_DOORBELL : RegRow := ⟨"MBX_DOORBELL_b", 0x101000, 8, 65536, .mbx, .shared, 0x0, 0x0, [⟨0, 32, .wo⟩]⟩
abbrev R.MBX_STATUS : RegRow := ⟨"MBX_STATUS_b", 0x101004, 8, 65536, .mbx, .shared, 0x3E0, 0x0, [⟨0, 1, .ro⟩, ⟨1, 1, .ro⟩, ⟨4, 4, .ro⟩, ⟨8, 1, .w1c⟩, ⟨9, 1, .ro⟩, ⟨16, 8, .ro⟩]⟩
abbrev R.MBX_REQ_CONS : RegRow := ⟨"MBX_REQ_CONS_b", 0x101008, 8, 65536, .mbx, .shared, 0x3E0, 0x0, [⟨0, 8, .ro⟩]⟩
abbrev R.MBX_RSP_PROD : RegRow := ⟨"MBX_RSP_PROD_b", 0x10100C, 8, 65536, .mbx, .shared, 0x3E0, 0x0, [⟨0, 8, .ro⟩]⟩
abbrev R.MBX_RSP_CONS : RegRow := ⟨"MBX_RSP_CONS_b", 0x101010, 8, 65536, .mbx, .shared, 0x3E0, 0x0, [⟨0, 8, .rw⟩]⟩
abbrev R.MBX_CTRL : RegRow := ⟨"MBX_CTRL_b", 0x101014, 8, 65536, .mbx, .shared, 0x3E0, 0x0, [⟨0, 1, .wo⟩, ⟨1, 1, .rw⟩, ⟨8, 8, .rw⟩]⟩
/-- The spec gives no reset content: the model resets every word to 0 (DESIGN CHOICE, log 103). -/
abbrev R.MBX_REQ_RING : RegRow := ⟨"MBX_REQ_RING_b", 0x100000, 1, 4, .mbx, .shared, 0x3E0, 0x0, [⟨0, 32, .rw⟩]⟩
/-- The spec gives no reset content: the model resets every word to 0 (DESIGN CHOICE, log 103). -/
abbrev R.MBX_RSP_RING : RegRow := ⟨"MBX_RSP_RING_b", 0x100800, 1, 4, .mbx, .shared, 0x3E0, 0x0, [⟨0, 32, .ro⟩]⟩

/-! The fields of the field tables. -/

abbrev F.DEV_FW_STATE.STATE : Fd := ⟨R.DEV_FW_STATE, 0, 4⟩
abbrev F.DEV_OWN_VIOL.WORD_OFFSET : Fd := ⟨R.DEV_OWN_VIOL, 0, 24⟩
abbrev F.DEV_OWN_VIOL.ACCESSOR : Fd := ⟨R.DEV_OWN_VIOL, 24, 3⟩
abbrev F.DEV_OWN_VIOL.VALID : Fd := ⟨R.DEV_OWN_VIOL, 31, 1⟩
abbrev F.PWR_STATE.STATE : Fd := ⟨R.PWR_STATE, 0, 2⟩
abbrev F.PWR_STATE.ENTERING : Fd := ⟨R.PWR_STATE, 2, 1⟩
abbrev F.PWR_WAKE_CFG.EDGE : Fd := ⟨R.PWR_WAKE_CFG, 0, 4⟩
abbrev F.PWR_WAKE_CFG.POL : Fd := ⟨R.PWR_WAKE_CFG, 4, 4⟩
abbrev F.PWR_WAKE_TMO.TMO_US : Fd := ⟨R.PWR_WAKE_TMO, 0, 16⟩
abbrev F.PWR_WAKE_TMO.LANE_MS : Fd := ⟨R.PWR_WAKE_TMO, 16, 8⟩
abbrev F.PWR_BOUNCE.COUNT : Fd := ⟨R.PWR_BOUNCE, 0, 32⟩
abbrev F.PWR_DOM_SEL.DOMAIN : Fd := ⟨R.PWR_DOM_SEL, 0, 8⟩
abbrev F.PWR_DOM_STATUS.STATE : Fd := ⟨R.PWR_DOM_STATUS, 0, 3⟩
abbrev F.PWR_DOM_STATUS.LOCKED : Fd := ⟨R.PWR_DOM_STATUS, 3, 1⟩
abbrev F.PWR_DOM_STATUS.FAIL : Fd := ⟨R.PWR_DOM_STATUS, 4, 1⟩
abbrev F.PWR_DOM_STATUS.KEPT_ON : Fd := ⟨R.PWR_DOM_STATUS, 5, 1⟩
abbrev F.PWR_DOM_STATUS.PARKED : Fd := ⟨R.PWR_DOM_STATUS, 8, 4⟩
abbrev F.PWR_DOM_STATUS.ATTEMPTS : Fd := ⟨R.PWR_DOM_STATUS, 12, 4⟩
abbrev F.PWR_DOM_CTRL.ACTION : Fd := ⟨R.PWR_DOM_CTRL, 0, 2⟩
abbrev F.PWR_RTC_SEC.SEC : Fd := ⟨R.PWR_RTC_SEC, 0, 32⟩
abbrev F.PWR_RTC_SUB.SUB : Fd := ⟨R.PWR_RTC_SUB, 0, 15⟩
abbrev F.PWR_RTC_ALARM.SEC : Fd := ⟨R.PWR_RTC_ALARM, 0, 32⟩
abbrev F.PWR_MITTEN_STATUS.LP : Fd := ⟨R.PWR_MITTEN_STATUS, 0, 1⟩
abbrev F.PWR_MITTEN_STATUS.WAKE_FAIL : Fd := ⟨R.PWR_MITTEN_STATUS, 1, 1⟩
abbrev F.PWR_MITTEN_STATUS.ALARM : Fd := ⟨R.PWR_MITTEN_STATUS, 2, 1⟩
abbrev F.PWR_MITTEN_STATUS.RETRIES : Fd := ⟨R.PWR_MITTEN_STATUS, 4, 2⟩
abbrev F.PWR_MITTEN_STATUS.LAST_WAKE : Fd := ⟨R.PWR_MITTEN_STATUS, 8, 3⟩
abbrev F.PWR_MITTEN_STATUS.CTX_VALID : Fd := ⟨R.PWR_MITTEN_STATUS, 16, 1⟩
abbrev F.GOV_CTRL.EN : Fd := ⟨R.GOV_CTRL, 0, 1⟩
abbrev F.GOV_BUDGET.W : Fd := ⟨R.GOV_BUDGET, 0, 9⟩
abbrev F.GOV_SHARE.SHARE : Fd := ⟨R.GOV_SHARE, 0, 32⟩
abbrev F.GOV_OTHER_W.W : Fd := ⟨R.GOV_OTHER_W, 0, 9⟩
abbrev F.GOV_TEMP_LIMITS.SOFT : Fd := ⟨R.GOV_TEMP_LIMITS, 0, 12⟩
abbrev F.GOV_TEMP_LIMITS.HARD : Fd := ⟨R.GOV_TEMP_LIMITS, 16, 12⟩
abbrev F.GOV_HEAT_SCALE.SCALE : Fd := ⟨R.GOV_HEAT_SCALE, 0, 11⟩
abbrev F.GOV_STATUS.HOT : Fd := ⟨R.GOV_STATUS, 0, 4⟩
abbrev F.GOV_STATUS.HARD : Fd := ⟨R.GOV_STATUS, 4, 1⟩
abbrev F.GOV_STATUS.AVS_FAIL : Fd := ⟨R.GOV_STATUS, 5, 1⟩
abbrev F.GOV_STATUS.BUDGET_CLAMP : Fd := ⟨R.GOV_STATUS, 6, 1⟩
abbrev F.GOV_STATUS.SHARE_REJ : Fd := ⟨R.GOV_STATUS, 7, 1⟩
abbrev F.GOV_STATUS.LIMIT_REJ : Fd := ⟨R.GOV_STATUS, 8, 1⟩
abbrev F.GOV_STATUS.OVER : Fd := ⟨R.GOV_STATUS, 9, 1⟩
abbrev F.GOV_STATUS.LEVER : Fd := ⟨R.GOV_STATUS, 10, 3⟩
abbrev F.GOV_POWER.MW : Fd := ⟨R.GOV_POWER, 0, 32⟩
abbrev F.GOV_QUAD_SEL.QUAD : Fd := ⟨R.GOV_QUAD_SEL, 0, 2⟩
abbrev F.GOV_Q_VCFG.VTARGET : Fd := ⟨R.GOV_Q_VCFG, 0, 10⟩
abbrev F.GOV_Q_VCFG.VMIN : Fd := ⟨R.GOV_Q_VCFG, 16, 10⟩
abbrev F.GOV_Q_STATE.VSET : Fd := ⟨R.GOV_Q_STATE, 0, 10⟩
abbrev F.GOV_Q_STATE.FABDIV : Fd := ⟨R.GOV_Q_STATE, 12, 2⟩
abbrev F.GOV_Q_STATE.HOT : Fd := ⟨R.GOV_Q_STATE, 14, 1⟩
abbrev F.GOV_Q_STATE.POWER : Fd := ⟨R.GOV_Q_STATE, 16, 16⟩
abbrev F.GOV_TEMP_SEL.SENSOR : Fd := ⟨R.GOV_TEMP_SEL, 0, 6⟩
abbrev F.GOV_TEMP.TEMP : Fd := ⟨R.GOV_TEMP, 0, 12⟩
abbrev F.GOV_TEMP.VALID : Fd := ⟨R.GOV_TEMP, 15, 1⟩
abbrev F.GOV_LANE_SHED_LO.MASK : Fd := ⟨R.GOV_LANE_SHED_LO, 0, 32⟩
abbrev F.GOV_LANE_SHED_HI.MASK : Fd := ⟨R.GOV_LANE_SHED_HI, 0, 32⟩
abbrev F.GOV_DROOP_CFG.MV : Fd := ⟨R.GOV_DROOP_CFG, 0, 8⟩
abbrev F.GOV_DROOP_CNT.COUNT : Fd := ⟨R.GOV_DROOP_CNT, 0, 32⟩
abbrev F.CLK_LOOP_SEL.LOOP : Fd := ⟨R.CLK_LOOP_SEL, 0, 7⟩
abbrev F.CLK_LOOP_CFG.REFDIV : Fd := ⟨R.CLK_LOOP_CFG, 0, 5⟩
abbrev F.CLK_LOOP_CFG.FBDIV : Fd := ⟨R.CLK_LOOP_CFG, 8, 10⟩
abbrev F.CLK_LOOP_CFG.OUTDIV : Fd := ⟨R.CLK_LOOP_CFG, 24, 5⟩
abbrev F.CLK_LOOP_FRAC.FRAC : Fd := ⟨R.CLK_LOOP_FRAC, 0, 24⟩
abbrev F.CLK_LOOP_CTRL.EN : Fd := ⟨R.CLK_LOOP_CTRL, 0, 1⟩
abbrev F.CLK_LOOP_CTRL.AUTO : Fd := ⟨R.CLK_LOOP_CTRL, 1, 1⟩
abbrev F.CLK_LOOP_CTRL.RELOCK : Fd := ⟨R.CLK_LOOP_CTRL, 2, 1⟩
abbrev F.CLK_LOOP_CTRL.RESET : Fd := ⟨R.CLK_LOOP_CTRL, 3, 1⟩
abbrev F.CLK_LOOP_STATUS.LOCK : Fd := ⟨R.CLK_LOOP_STATUS, 0, 1⟩
abbrev F.CLK_LOOP_STATUS.LOSS : Fd := ⟨R.CLK_LOOP_STATUS, 1, 1⟩
abbrev F.CLK_LOOP_STATUS.COASTING : Fd := ⟨R.CLK_LOOP_STATUS, 2, 1⟩
abbrev F.CLK_LOOP_STATUS.CFG_REJ : Fd := ⟨R.CLK_LOOP_STATUS, 3, 1⟩
abbrev F.CLK_FAB_OUT.OUTDIV : Fd := ⟨R.CLK_FAB_OUT, 0, 7⟩
abbrev F.CLK_FAB_OUT.EN : Fd := ⟨R.CLK_FAB_OUT, 8, 1⟩
abbrev F.CLK_MUX_SEL.MUX : Fd := ⟨R.CLK_MUX_SEL, 0, 6⟩
abbrev F.CLK_MUX_CTRL.SEL : Fd := ⟨R.CLK_MUX_CTRL, 0, 4⟩
abbrev F.CLK_MUX_CTRL.DOM_RESET : Fd := ⟨R.CLK_MUX_CTRL, 8, 1⟩
abbrev F.CLK_MUX_CTRL.CFG_REJ : Fd := ⟨R.CLK_MUX_CTRL, 9, 1⟩
abbrev F.CLK_MUX_STATUS.CUR : Fd := ⟨R.CLK_MUX_STATUS, 0, 4⟩
abbrev F.CLK_MUX_STATUS.MUX_PENDING : Fd := ⟨R.CLK_MUX_STATUS, 4, 1⟩
abbrev F.CLK_MUX_STATUS.MUX_STUCK : Fd := ⟨R.CLK_MUX_STATUS, 5, 1⟩
abbrev F.CLK_MON_SEL.SOURCE : Fd := ⟨R.CLK_MON_SEL, 0, 6⟩
abbrev F.CLK_MON_CFG.EXP_KHZ : Fd := ⟨R.CLK_MON_CFG, 0, 18⟩
abbrev F.CLK_MON_CFG.TOL : Fd := ⟨R.CLK_MON_CFG, 24, 4⟩
abbrev F.CLK_MON_STATUS.GOOD : Fd := ⟨R.CLK_MON_STATUS, 0, 1⟩
abbrev F.CLK_MON_STATUS.BAD : Fd := ⟨R.CLK_MON_STATUS, 1, 1⟩
abbrev F.CLK_MON_STATUS.STOPPED : Fd := ⟨R.CLK_MON_STATUS, 2, 1⟩
abbrev F.CLK_MON_COUNT.COUNT : Fd := ⟨R.CLK_MON_COUNT, 0, 32⟩
abbrev F.CLK_GATE_CFG.EN : Fd := ⟨R.CLK_GATE_CFG, 0, 1⟩
abbrev F.CLK_GATE_CFG.IDLE : Fd := ⟨R.CLK_GATE_CFG, 16, 16⟩
abbrev F.CLK_GATE_WAKES.COUNT : Fd := ⟨R.CLK_GATE_WAKES, 0, 32⟩
abbrev F.TOD_STATUS.VALID : Fd := ⟨R.TOD_STATUS, 0, 1⟩
abbrev F.TOD_STATUS.STEP_PENDING : Fd := ⟨R.TOD_STATUS, 1, 1⟩
abbrev F.TOD_STATUS.STEP_LOCK : Fd := ⟨R.TOD_STATUS, 2, 1⟩
abbrev F.TOD_STATUS.STEP_REFUSED : Fd := ⟨R.TOD_STATUS, 3, 1⟩
abbrev F.TOD_STATUS.STEP_RANGE : Fd := ⟨R.TOD_STATUS, 4, 1⟩
abbrev F.TOD_STATUS.RATE_CLAMP : Fd := ⟨R.TOD_STATUS, 5, 1⟩
abbrev F.TOD_STATUS.INCR_CLAMP : Fd := ⟨R.TOD_STATUS, 6, 1⟩
abbrev F.TOD_STATUS.LOSS : Fd := ⟨R.TOD_STATUS, 7, 1⟩
abbrev F.TOD_CTRL.INVALIDATE : Fd := ⟨R.TOD_CTRL, 0, 1⟩
abbrev F.TOD_CTRL.SNAP : Fd := ⟨R.TOD_CTRL, 1, 1⟩
abbrev F.TOD_CTRL.STEP_ARM : Fd := ⟨R.TOD_CTRL, 2, 1⟩
abbrev F.TOD_REARM.REARM : Fd := ⟨R.TOD_REARM, 0, 1⟩
abbrev F.TOD_SERVO.STATE : Fd := ⟨R.TOD_SERVO, 0, 3⟩
abbrev F.TOD_SERVO.LOSS_SEEN : Fd := ⟨R.TOD_SERVO, 8, 1⟩
abbrev F.TOD_SERVO.HOLD_EXIT : Fd := ⟨R.TOD_SERVO, 9, 1⟩
abbrev F.TOD_ADDEND_HI.INT : Fd := ⟨R.TOD_ADDEND_HI, 0, 4⟩
abbrev F.TOD_ADDEND_LO.FRAC : Fd := ⟨R.TOD_ADDEND_LO, 0, 32⟩
abbrev F.NS_INCR.FRAC : Fd := ⟨R.NS_INCR, 0, 24⟩
abbrev F.NS_INCR.INT : Fd := ⟨R.NS_INCR, 24, 4⟩
abbrev F.TOD_STEP_SEC_HI.SEC : Fd := ⟨R.TOD_STEP_SEC_HI, 0, 16⟩
abbrev F.TOD_STEP_NS.NS : Fd := ⟨R.TOD_STEP_NS, 0, 32⟩
abbrev F.TOD_SNAP_SEC_HI.SEC : Fd := ⟨R.TOD_SNAP_SEC_HI, 0, 16⟩
abbrev F.TOD_SNAP_NS.NS : Fd := ⟨R.TOD_SNAP_NS, 0, 30⟩
abbrev F.TOD_PPS_IN_NS.NS : Fd := ⟨R.TOD_PPS_IN_NS, 0, 30⟩
abbrev F.TOD_PPS_IN_STAT.SUB : Fd := ⟨R.TOD_PPS_IN_STAT, 0, 5⟩
abbrev F.TOD_PPS_IN_STAT.VALID : Fd := ⟨R.TOD_PPS_IN_STAT, 8, 1⟩
abbrev F.TOD_PPS_IN_STAT.SEQ : Fd := ⟨R.TOD_PPS_IN_STAT, 16, 8⟩
abbrev F.TOD_PPS_OUT_CTRL.EN : Fd := ⟨R.TOD_PPS_OUT_CTRL, 0, 1⟩
abbrev F.TOD_PPS_OUT_CTRL.SRC : Fd := ⟨R.TOD_PPS_OUT_CTRL, 1, 1⟩
abbrev F.TOD_PPS_OUT_CTRL.CMP : Fd := ⟨R.TOD_PPS_OUT_CTRL, 2, 5⟩
abbrev F.TOD_PPS_OUT_CTRL.POL : Fd := ⟨R.TOD_PPS_OUT_CTRL, 7, 1⟩
abbrev F.TOD_PPS_OUT_WIDTH.WIDTH : Fd := ⟨R.TOD_PPS_OUT_WIDTH, 0, 20⟩
abbrev F.TIME_CMP_CTRL.EN : Fd := ⟨R.TIME_CMP_CTRL, 0, 1⟩
abbrev F.TIME_CMP_CTRL.BASE : Fd := ⟨R.TIME_CMP_CTRL, 1, 1⟩
abbrev F.TIME_CMP_CTRL.IRQ_EN : Fd := ⟨R.TIME_CMP_CTRL, 2, 1⟩
abbrev F.TIME_CMP_CTRL.FIRED : Fd := ⟨R.TIME_CMP_CTRL, 3, 1⟩
abbrev F.TIME_CMP_CTRL.MISSED : Fd := ⟨R.TIME_CMP_CTRL, 16, 8⟩
abbrev F.SLOT_TMR_CTRL.EN : Fd := ⟨R.SLOT_TMR_CTRL, 0, 1⟩
abbrev F.SLOT_TMR_CTRL.EPOCH : Fd := ⟨R.SLOT_TMR_CTRL, 1, 1⟩
abbrev F.SLOT_TMR_CTRL.IRQ_EN : Fd := ⟨R.SLOT_TMR_CTRL, 2, 1⟩
abbrev F.SLOT_TMR_CTRL.RESYNC : Fd := ⟨R.SLOT_TMR_CTRL, 3, 1⟩
abbrev F.SLOT_TMR_CTRL.CFG_REJ : Fd := ⟨R.SLOT_TMR_CTRL, 4, 1⟩
abbrev F.SLOT_TMR_PERIOD.NS : Fd := ⟨R.SLOT_TMR_PERIOD, 0, 24⟩
abbrev F.SLOT_TMR_OFFSET.NS : Fd := ⟨R.SLOT_TMR_OFFSET, 0, 24⟩
abbrev F.TSU_SEL.MAC : Fd := ⟨R.TSU_SEL, 0, 6⟩
abbrev F.TSU_CTRL.ONESTEP_SYNC : Fd := ⟨R.TSU_CTRL, 0, 1⟩
abbrev F.TSU_CTRL.ONESTEP_TC : Fd := ⟨R.TSU_CTRL, 1, 1⟩
abbrev F.TSU_CTRL.UDP6_TRAILER : Fd := ⟨R.TSU_CTRL, 2, 1⟩
abbrev F.TSU_STATUS.TX_LEVEL : Fd := ⟨R.TSU_STATUS, 0, 5⟩
abbrev F.TSU_COUNTS.TX_OVF : Fd := ⟨R.TSU_COUNTS, 0, 16⟩
abbrev F.TSU_COUNTS.FALLBACK : Fd := ⟨R.TSU_COUNTS, 16, 16⟩
abbrev F.TSU_TX_ID.ID : Fd := ⟨R.TSU_TX_ID, 0, 16⟩
abbrev F.TSU_TX_ID.SUB : Fd := ⟨R.TSU_TX_ID, 16, 5⟩
abbrev F.TSU_TX_ID.TOD_VALID : Fd := ⟨R.TSU_TX_ID, 30, 1⟩
abbrev F.TSU_TX_ID.VALID : Fd := ⟨R.TSU_TX_ID, 31, 1⟩
abbrev F.TSU_TX_NS.NS : Fd := ⟨R.TSU_TX_NS, 0, 30⟩
abbrev F.TSU_TX_POP.POP : Fd := ⟨R.TSU_TX_POP, 0, 1⟩
abbrev F.TSU_RCLK_CTRL.LANE : Fd := ⟨R.TSU_RCLK_CTRL, 0, 8⟩
abbrev F.TSU_RCLK_CTRL.DIV : Fd := ⟨R.TSU_RCLK_CTRL, 8, 12⟩
abbrev F.TSU_RCLK_CTRL.EN : Fd := ⟨R.TSU_RCLK_CTRL, 28, 1⟩
abbrev F.TSU_RCLK_CTRL.SQUELCH : Fd := ⟨R.TSU_RCLK_CTRL, 29, 1⟩
abbrev F.TSU_RCLK_CTRL.DIV_ADJ : Fd := ⟨R.TSU_RCLK_CTRL, 30, 1⟩
abbrev F.LANE_SEL.LANE : Fd := ⟨R.LANE_SEL, 0, 8⟩
abbrev F.LANE_CTRL.EN : Fd := ⟨R.LANE_CTRL, 0, 1⟩
abbrev F.LANE_CTRL.PAM4 : Fd := ⟨R.LANE_CTRL, 1, 1⟩
abbrev F.LANE_CTRL.BIND : Fd := ⟨R.LANE_CTRL, 2, 3⟩
abbrev F.LANE_CTRL.ENGINE : Fd := ⟨R.LANE_CTRL, 8, 4⟩
abbrev F.LANE_CTRL.LOOPBACK : Fd := ⟨R.LANE_CTRL, 12, 2⟩
abbrev F.LANE_RATE.KBPS : Fd := ⟨R.LANE_RATE, 0, 27⟩
abbrev F.LANE_STATUS.STATE : Fd := ⟨R.LANE_STATUS, 0, 3⟩
abbrev F.LANE_STATUS.CFG_BUSY : Fd := ⟨R.LANE_STATUS, 3, 1⟩
abbrev F.LANE_EQ_CTRL.FREEZE : Fd := ⟨R.LANE_EQ_CTRL, 0, 1⟩
abbrev F.LANE_EQ_CTRL.TAP_SEL : Fd := ⟨R.LANE_EQ_CTRL, 8, 5⟩
abbrev F.LANE_EQ_TAP.VALUE : Fd := ⟨R.LANE_EQ_TAP, 0, 8⟩
abbrev F.LANE_EYE.HEIGHT : Fd := ⟨R.LANE_EYE, 0, 16⟩
abbrev F.LANE_EYE.WIDTH : Fd := ⟨R.LANE_EYE, 16, 8⟩
abbrev F.LANE_ERR_LO.COUNT : Fd := ⟨R.LANE_ERR_LO, 0, 32⟩
abbrev F.LANE_ERR_HI.COUNT : Fd := ⟨R.LANE_ERR_HI, 0, 32⟩
abbrev F.MAC_SEL.MAC : Fd := ⟨R.MAC_SEL, 0, 6⟩
abbrev F.MAC_CFG.EN : Fd := ⟨R.MAC_CFG, 0, 1⟩
abbrev F.MAC_CFG.FEC : Fd := ⟨R.MAC_CFG, 1, 2⟩
abbrev F.MAC_CFG.AN_EN : Fd := ⟨R.MAC_CFG, 3, 1⟩
abbrev F.MAC_CFG.LT_EN : Fd := ⟨R.MAC_CFG, 4, 1⟩
abbrev F.MAC_CFG.VECTOR : Fd := ⟨R.MAC_CFG, 8, 6⟩
abbrev F.MAC_CFG.MTU : Fd := ⟨R.MAC_CFG, 16, 14⟩
abbrev F.MAC_STATUS.LINK : Fd := ⟨R.MAC_STATUS, 0, 1⟩
abbrev F.MAC_STATUS.SPEED : Fd := ⟨R.MAC_STATUS, 1, 3⟩
abbrev F.MAC_STATUS.CFG_ERR : Fd := ⟨R.MAC_STATUS, 4, 1⟩
abbrev F.MAC_STATUS.RING_ERR : Fd := ⟨R.MAC_STATUS, 5, 1⟩
abbrev F.MAC_TX_RING_LO.ADDR : Fd := ⟨R.MAC_TX_RING_LO, 6, 26⟩
abbrev F.MAC_TX_RING_HI.ADDR : Fd := ⟨R.MAC_TX_RING_HI, 0, 16⟩
abbrev F.MAC_TX_RING_HI.SIZE : Fd := ⟨R.MAC_TX_RING_HI, 16, 4⟩
abbrev F.MAC_TX_IDX.PROD : Fd := ⟨R.MAC_TX_IDX, 0, 16⟩
abbrev F.MAC_TX_IDX.CONS : Fd := ⟨R.MAC_TX_IDX, 16, 16⟩
abbrev F.MAC_RX_RING_LO.ADDR : Fd := ⟨R.MAC_RX_RING_LO, 6, 26⟩
abbrev F.MAC_RX_RING_HI.ADDR : Fd := ⟨R.MAC_RX_RING_HI, 0, 16⟩
abbrev F.MAC_RX_RING_HI.SIZE : Fd := ⟨R.MAC_RX_RING_HI, 16, 4⟩
abbrev F.MAC_RX_IDX.PROD : Fd := ⟨R.MAC_RX_IDX, 0, 16⟩
abbrev F.MAC_RX_IDX.CONS : Fd := ⟨R.MAC_RX_IDX, 16, 16⟩
abbrev F.MAC_SEC_CTRL.REQUIRE : Fd := ⟨R.MAC_SEC_CTRL, 0, 1⟩
abbrev F.MAC_STAT_SEL.CNT : Fd := ⟨R.MAC_STAT_SEL, 0, 4⟩
abbrev F.MAC_SA_SEL.SA : Fd := ⟨R.MAC_SA_SEL, 0, 6⟩
abbrev F.MAC_SA_CFG.EN : Fd := ⟨R.MAC_SA_CFG, 0, 1⟩
abbrev F.MAC_SA_CFG.DIR : Fd := ⟨R.MAC_SA_CFG, 1, 1⟩
abbrev F.MAC_SA_CFG.AN : Fd := ⟨R.MAC_SA_CFG, 2, 2⟩
abbrev F.MAC_SA_CFG.KEY_SLOT : Fd := ⟨R.MAC_SA_CFG, 8, 6⟩
abbrev F.FH_SEL.ENGINE : Fd := ⟨R.FH_SEL, 0, 4⟩
abbrev F.FH_CTRL.EN : Fd := ⟨R.FH_CTRL, 0, 1⟩
abbrev F.FH_CTRL.TRANSPORT : Fd := ⟨R.FH_CTRL, 1, 1⟩
abbrev F.FH_CTRL.DISCOVER : Fd := ⟨R.FH_CTRL, 2, 1⟩
abbrev F.FH_CTRL.FLUSH : Fd := ⟨R.FH_CTRL, 3, 1⟩
abbrev F.FH_CTRL.SLOT_TMR : Fd := ⟨R.FH_CTRL, 4, 3⟩
abbrev F.FH_CTRL.MU : Fd := ⟨R.FH_CTRL, 8, 2⟩
abbrev F.FH_CTRL.VECTOR : Fd := ⟨R.FH_CTRL, 10, 6⟩
abbrev F.FH_CTRL.AGE : Fd := ⟨R.FH_CTRL, 16, 8⟩
abbrev F.FH_STATUS.NEW_RU : Fd := ⟨R.FH_STATUS, 0, 1⟩
abbrev F.FH_STATUS.NEW_FLOW : Fd := ⟨R.FH_STATUS, 1, 1⟩
abbrev F.FH_STATUS.FULL : Fd := ⟨R.FH_STATUS, 2, 1⟩
abbrev F.FH_STATUS.RING_ERR : Fd := ⟨R.FH_STATUS, 3, 1⟩
abbrev F.FH_RX_WIN_MIN.NS : Fd := ⟨R.FH_RX_WIN_MIN, 0, 32⟩
abbrev F.FH_RX_WIN_MAX.NS : Fd := ⟨R.FH_RX_WIN_MAX, 0, 32⟩
abbrev F.FH_TX_ADV_U.NS : Fd := ⟨R.FH_TX_ADV_U, 0, 32⟩
abbrev F.FH_TX_ADV_C.NS : Fd := ⟨R.FH_TX_ADV_C, 0, 32⟩
abbrev F.FH_TX_RING_LO.ADDR : Fd := ⟨R.FH_TX_RING_LO, 6, 26⟩
abbrev F.FH_TX_RING_HI.ADDR : Fd := ⟨R.FH_TX_RING_HI, 0, 16⟩
abbrev F.FH_TX_RING_HI.SIZE : Fd := ⟨R.FH_TX_RING_HI, 16, 4⟩
abbrev F.FH_TX_IDX.PROD : Fd := ⟨R.FH_TX_IDX, 0, 16⟩
abbrev F.FH_TX_IDX.CONS : Fd := ⟨R.FH_TX_IDX, 16, 16⟩
abbrev F.FH_STAT_SEL.CNT : Fd := ⟨R.FH_STAT_SEL, 0, 4⟩
abbrev F.FH_STAT.COUNT : Fd := ⟨R.FH_STAT, 0, 32⟩
abbrev F.FH_FLOW_SEL.FLOW : Fd := ⟨R.FH_FLOW_SEL, 0, 12⟩
abbrev F.FH_FLOW_INFO.EAXC : Fd := ⟨R.FH_FLOW_INFO, 0, 16⟩
abbrev F.FH_FLOW_INFO.RU : Fd := ⟨R.FH_FLOW_INFO, 16, 8⟩
abbrev F.FH_FLOW_INFO.OWNER : Fd := ⟨R.FH_FLOW_INFO, 24, 4⟩
abbrev F.FH_FLOW_INFO.VALID : Fd := ⟨R.FH_FLOW_INFO, 31, 1⟩
abbrev F.FH_FLOW_DEST_LO.ADDR : Fd := ⟨R.FH_FLOW_DEST_LO, 4, 28⟩
abbrev F.FH_FLOW_DEST_HI.ADDR : Fd := ⟨R.FH_FLOW_DEST_HI, 0, 16⟩
abbrev F.FH_FLOW_DEST_HI.KEY : Fd := ⟨R.FH_FLOW_DEST_HI, 16, 8⟩
abbrev F.FH_FLOW_DEST_HI.NBUF : Fd := ⟨R.FH_FLOW_DEST_HI, 24, 2⟩
abbrev F.FH_FLOW_DEST_HI.BOUND : Fd := ⟨R.FH_FLOW_DEST_HI, 31, 1⟩
abbrev F.FH_FLOW_STRIDE.SYM_STRIDE : Fd := ⟨R.FH_FLOW_STRIDE, 4, 20⟩
abbrev F.CPRI_SEL.FRAMER : Fd := ⟨R.CPRI_SEL, 0, 3⟩
abbrev F.CPRI_CFG.EN : Fd := ⟨R.CPRI_CFG, 0, 1⟩
abbrev F.CPRI_CFG.OPTION : Fd := ⟨R.CPRI_CFG, 1, 4⟩
abbrev F.CPRI_CFG.SLOT_TMR : Fd := ⟨R.CPRI_CFG, 5, 3⟩
abbrev F.CPRI_CFG.LANE : Fd := ⟨R.CPRI_CFG, 8, 8⟩
abbrev F.CPRI_CFG.VECTOR : Fd := ⟨R.CPRI_CFG, 16, 6⟩
abbrev F.CPRI_STATUS.STATE : Fd := ⟨R.CPRI_STATUS, 0, 3⟩
abbrev F.CPRI_STATUS.LOSSES : Fd := ⟨R.CPRI_STATUS, 8, 8⟩
abbrev F.CPRI_RTT.RTT : Fd := ⟨R.CPRI_RTT, 0, 32⟩
abbrev F.CPRI_CM_TX_RING_LO.ADDR : Fd := ⟨R.CPRI_CM_TX_RING_LO, 6, 26⟩
abbrev F.CPRI_CM_TX_RING_HI.ADDR : Fd := ⟨R.CPRI_CM_TX_RING_HI, 0, 16⟩
abbrev F.CPRI_CM_TX_RING_HI.SIZE : Fd := ⟨R.CPRI_CM_TX_RING_HI, 16, 4⟩
abbrev F.CPRI_CM_TX_IDX.PROD : Fd := ⟨R.CPRI_CM_TX_IDX, 0, 16⟩
abbrev F.CPRI_CM_TX_IDX.CONS : Fd := ⟨R.CPRI_CM_TX_IDX, 16, 16⟩
abbrev F.CPRI_CM_RX_RING_LO.ADDR : Fd := ⟨R.CPRI_CM_RX_RING_LO, 6, 26⟩
abbrev F.CPRI_CM_RX_RING_HI.ADDR : Fd := ⟨R.CPRI_CM_RX_RING_HI, 0, 16⟩
abbrev F.CPRI_CM_RX_RING_HI.SIZE : Fd := ⟨R.CPRI_CM_RX_RING_HI, 16, 4⟩
abbrev F.CPRI_CM_RX_IDX.PROD : Fd := ⟨R.CPRI_CM_RX_IDX, 0, 16⟩
abbrev F.CPRI_CM_RX_IDX.CONS : Fd := ⟨R.CPRI_CM_RX_IDX, 16, 16⟩
abbrev F.CPRI_AXC_CFG.EN : Fd := ⟨R.CPRI_AXC_CFG, 0, 1⟩
abbrev F.CPRI_AXC_CFG.DIR : Fd := ⟨R.CPRI_AXC_CFG, 1, 1⟩
abbrev F.CPRI_AXC_CFG.WIDTH : Fd := ⟨R.CPRI_AXC_CFG, 2, 5⟩
abbrev F.CPRI_AXC_CFG.START : Fd := ⟨R.CPRI_AXC_CFG, 8, 12⟩
abbrev F.CPRI_AXC_CFG.KEY : Fd := ⟨R.CPRI_AXC_CFG, 20, 8⟩
abbrev F.CHL_SEL.ENGINE : Fd := ⟨R.CHL_SEL, 0, 4⟩
abbrev F.CHL_CFG.VERSION_MASK : Fd := ⟨R.CHL_CFG, 0, 4⟩
abbrev F.CHL_CFG.EN : Fd := ⟨R.CHL_CFG, 4, 1⟩
abbrev F.CHL_STATUS.STATE : Fd := ⟨R.CHL_STATUS, 0, 2⟩
abbrev F.CHL_STATUS.VERSION : Fd := ⟨R.CHL_STATUS, 2, 3⟩
abbrev F.CHL_STATUS.STEPDOWN : Fd := ⟨R.CHL_STATUS, 5, 1⟩
abbrev F.CHL_STATUS.FAILED : Fd := ⟨R.CHL_STATUS, 6, 1⟩
abbrev F.CHL_PARTNER.BITMAP : Fd := ⟨R.CHL_PARTNER, 0, 4⟩
abbrev F.CHL_PARTNER.LANES : Fd := ⟨R.CHL_PARTNER, 4, 3⟩
abbrev F.CHL_COUNTS.DROPS : Fd := ⟨R.CHL_COUNTS, 0, 16⟩
abbrev F.CHL_COUNTS.RENEG : Fd := ⟨R.CHL_COUNTS, 16, 16⟩
abbrev F.CHL_WIN_SEL.WINDOW : Fd := ⟨R.CHL_WIN_SEL, 0, 6⟩
abbrev F.CHL_WIN_CTRL.EN : Fd := ⟨R.CHL_WIN_CTRL, 0, 1⟩
abbrev F.CHL_WIN_CTRL.ENGINE : Fd := ⟨R.CHL_WIN_CTRL, 1, 4⟩
abbrev F.CHL_WIN_CTRL.XLAT_REJ : Fd := ⟨R.CHL_WIN_CTRL, 5, 1⟩
abbrev F.CHL_WIN_XLAT.BASE : Fd := ⟨R.CHL_WIN_XLAT, 0, 7⟩
abbrev F.PCIE_SEL.CTRL : Fd := ⟨R.PCIE_SEL, 0, 1⟩
abbrev F.PCIE_SEL.FUNCTION : Fd := ⟨R.PCIE_SEL, 8, 1⟩
abbrev F.PCIE_CFG.MODE : Fd := ⟨R.PCIE_CFG, 0, 1⟩
abbrev F.PCIE_CFG.WIDTH : Fd := ⟨R.PCIE_CFG, 1, 3⟩
abbrev F.PCIE_CFG.GEN : Fd := ⟨R.PCIE_CFG, 4, 3⟩
abbrev F.PCIE_CFG.VECTOR : Fd := ⟨R.PCIE_CFG, 8, 6⟩
abbrev F.PCIE_STATUS.LINK_UP : Fd := ⟨R.PCIE_STATUS, 0, 1⟩
abbrev F.PCIE_STATUS.WIDTH : Fd := ⟨R.PCIE_STATUS, 1, 3⟩
abbrev F.PCIE_STATUS.GEN : Fd := ⟨R.PCIE_STATUS, 4, 3⟩
abbrev F.PCIE_STATUS.XLAT_REJ : Fd := ⟨R.PCIE_STATUS, 7, 1⟩
abbrev F.PCIE_STATUS.RING_ERR : Fd := ⟨R.PCIE_STATUS, 8, 1⟩
abbrev F.PCIE_BAR2_CTRL.SIZE : Fd := ⟨R.PCIE_BAR2_CTRL, 0, 6⟩
abbrev F.PCIE_BAR2_CTRL.KEY : Fd := ⟨R.PCIE_BAR2_CTRL, 8, 8⟩
abbrev F.PCIE_IN_CTRL.SIZE : Fd := ⟨R.PCIE_IN_CTRL, 0, 6⟩
abbrev F.PCIE_IN_CTRL.KEY : Fd := ⟨R.PCIE_IN_CTRL, 8, 8⟩
abbrev F.PCIE_DMA_SEL.CHANNEL : Fd := ⟨R.PCIE_DMA_SEL, 0, 2⟩
abbrev F.PCIE_DMA_RING_LO.ADDR : Fd := ⟨R.PCIE_DMA_RING_LO, 6, 26⟩
abbrev F.PCIE_DMA_RING_HI.ADDR : Fd := ⟨R.PCIE_DMA_RING_HI, 0, 16⟩
abbrev F.PCIE_DMA_RING_HI.SIZE : Fd := ⟨R.PCIE_DMA_RING_HI, 16, 4⟩
abbrev F.PCIE_DMA_IDX.PROD : Fd := ⟨R.PCIE_DMA_IDX, 0, 16⟩
abbrev F.PCIE_DMA_IDX.CONS : Fd := ⟨R.PCIE_DMA_IDX, 16, 16⟩
abbrev F.INIT_SEL.ENDPOINT : Fd := ⟨R.INIT_SEL, 0, 10⟩
abbrev F.NOC_INIT_CFG.LIMIT : Fd := ⟨R.NOC_INIT_CFG, 0, 7⟩
abbrev F.NOC_RATE_VC0.RATE : Fd := ⟨R.NOC_RATE_VC0, 0, 10⟩
abbrev F.NOC_RATE_VC0.BURST : Fd := ⟨R.NOC_RATE_VC0, 16, 12⟩
abbrev F.NOC_RATE_VC0.EN : Fd := ⟨R.NOC_RATE_VC0, 31, 1⟩
abbrev F.NOC_RATE_VC1.RATE : Fd := ⟨R.NOC_RATE_VC1, 0, 10⟩
abbrev F.NOC_RATE_VC1.BURST : Fd := ⟨R.NOC_RATE_VC1, 16, 12⟩
abbrev F.NOC_RATE_VC1.EN : Fd := ⟨R.NOC_RATE_VC1, 31, 1⟩
abbrev F.NOC_INIT_STATUS.OUTSTANDING : Fd := ⟨R.NOC_INIT_STATUS, 0, 7⟩
abbrev F.NOC_INIT_STATUS.LIMIT_WAIT : Fd := ⟨R.NOC_INIT_STATUS, 8, 1⟩
abbrev F.NOC_INIT_STATUS.TOKEN_WAIT_VC0 : Fd := ⟨R.NOC_INIT_STATUS, 9, 1⟩
abbrev F.NOC_INIT_STATUS.TOKEN_WAIT_VC1 : Fd := ⟨R.NOC_INIT_STATUS, 10, 1⟩
abbrev F.NOC_STAT_RD_HI.COUNT : Fd := ⟨R.NOC_STAT_RD_HI, 0, 16⟩
abbrev F.NOC_STAT_WR_HI.COUNT : Fd := ⟨R.NOC_STAT_WR_HI, 0, 16⟩
abbrev F.NOC_STAT_REQ_HI.COUNT : Fd := ⟨R.NOC_STAT_REQ_HI, 0, 16⟩
abbrev F.NOC_STAT_LAT_SUM_HI.COUNT : Fd := ⟨R.NOC_STAT_LAT_SUM_HI, 0, 16⟩
abbrev F.NOC_STAT_LAT_MAX.NS : Fd := ⟨R.NOC_STAT_LAT_MAX, 0, 32⟩
abbrev F.NOC_STAT_FLAGS.STALE : Fd := ⟨R.NOC_STAT_FLAGS, 0, 1⟩
abbrev F.NOC_STAT_CLR.CLR : Fd := ⟨R.NOC_STAT_CLR, 0, 1⟩
abbrev F.NOC_STAT_HIST.COUNT : Fd := ⟨R.NOC_STAT_HIST, 0, 32⟩
abbrev F.NOC_HIST_CFG.STEP_NS : Fd := ⟨R.NOC_HIST_CFG, 0, 16⟩
abbrev F.NOC_BRIDGE_STATUS.UP : Fd := ⟨R.NOC_BRIDGE_STATUS, 0, 1⟩
abbrev F.NOC_BRIDGE_STATUS.FAULT : Fd := ⟨R.NOC_BRIDGE_STATUS, 1, 1⟩
abbrev F.NOC_DROP_COUNT.COUNT : Fd := ⟨R.NOC_DROP_COUNT, 0, 32⟩
abbrev F.TSK_SEL.QUAD : Fd := ⟨R.TSK_SEL, 0, 2⟩
abbrev F.TSK_CTRL.EN : Fd := ⟨R.TSK_CTRL, 0, 1⟩
abbrev F.TSK_CTRL.ENERGY_ORDER : Fd := ⟨R.TSK_CTRL, 1, 1⟩
abbrev F.TSK_CTRL.PREEMPT_EN : Fd := ⟨R.TSK_CTRL, 2, 1⟩
abbrev F.TSK_CTRL.PEND_CLR : Fd := ⟨R.TSK_CTRL, 3, 1⟩
abbrev F.TSK_STATUS.POOL_FULL : Fd := ⟨R.TSK_STATUS, 0, 1⟩
abbrev F.TSK_STATUS.ENERGY_HOLD : Fd := ⟨R.TSK_STATUS, 1, 1⟩
abbrev F.TSK_STATUS.CQ_STALL : Fd := ⟨R.TSK_STATUS, 2, 1⟩
abbrev F.TSK_STATUS.OFF_WAIT : Fd := ⟨R.TSK_STATUS, 3, 1⟩
abbrev F.TSK_STATUS.ACCT_SAT : Fd := ⟨R.TSK_STATUS, 4, 1⟩
abbrev F.TSK_STATUS.TICK_CLAMP : Fd := ⟨R.TSK_STATUS, 5, 1⟩
abbrev F.TSK_STATUS.VAR_FAIL : Fd := ⟨R.TSK_STATUS, 6, 1⟩
abbrev F.TSK_STATUS.SIG_LOST : Fd := ⟨R.TSK_STATUS, 7, 1⟩
abbrev F.TSK_STATUS.NO_ALLOW : Fd := ⟨R.TSK_STATUS, 8, 1⟩
abbrev F.TSK_STATUS.SLOT_PAST : Fd := ⟨R.TSK_STATUS, 9, 1⟩
abbrev F.TSK_STATUS.SUB_REJ : Fd := ⟨R.TSK_STATUS, 10, 1⟩
abbrev F.TSK_TICK.NS : Fd := ⟨R.TSK_TICK, 0, 14⟩
abbrev F.TSK_ACCT.UNITS : Fd := ⟨R.TSK_ACCT, 0, 32⟩
abbrev F.TSK_ACCT_CAP.UNITS : Fd := ⟨R.TSK_ACCT_CAP, 0, 31⟩
abbrev F.TSK_ALLOW_LAST.ALLOW : Fd := ⟨R.TSK_ALLOW_LAST, 0, 24⟩
abbrev F.TSK_ALLOW_LAST.HOT : Fd := ⟨R.TSK_ALLOW_LAST, 31, 1⟩
abbrev F.TSK_POOL.FREE : Fd := ⟨R.TSK_POOL, 0, 13⟩
abbrev F.TSK_POOL.DELAYED : Fd := ⟨R.TSK_POOL, 16, 13⟩
abbrev F.TSK_READY_MASK.LEVELS : Fd := ⟨R.TSK_READY_MASK, 0, 16⟩
abbrev F.TSK_DISPATCHED_HI.COUNT : Fd := ⟨R.TSK_DISPATCHED_HI, 0, 32⟩
abbrev F.TSK_LATE_RISK.COUNT : Fd := ⟨R.TSK_LATE_RISK, 0, 32⟩
abbrev F.TSK_VARIANTS.COUNT : Fd := ⟨R.TSK_VARIANTS, 0, 32⟩
abbrev F.TSK_DROPS.COUNT : Fd := ⟨R.TSK_DROPS, 0, 32⟩
abbrev F.TSK_LATE_DONE.COUNT : Fd := ⟨R.TSK_LATE_DONE, 0, 32⟩
abbrev F.TSK_STAT_CLR.CLR : Fd := ⟨R.TSK_STAT_CLR, 0, 1⟩
abbrev F.TSK_SIGNAL.ID : Fd := ⟨R.TSK_SIGNAL, 0, 14⟩
abbrev F.TSK_SIG_STATUS.PEND : Fd := ⟨R.TSK_SIG_STATUS, 0, 9⟩
abbrev F.TSK_SIG_STATUS.EXTRA : Fd := ⟨R.TSK_SIG_STATUS, 16, 8⟩
abbrev F.TSK_SIG_STATUS.LOST : Fd := ⟨R.TSK_SIG_STATUS, 24, 8⟩
abbrev F.TSK_PREEMPT.PMAX : Fd := ⟨R.TSK_PREEMPT, 0, 4⟩
abbrev F.TSK_PREEMPT.TMO_US : Fd := ⟨R.TSK_PREEMPT, 16, 16⟩
abbrev F.TSK_PREEMPT_CNT.DONE : Fd := ⟨R.TSK_PREEMPT_CNT, 0, 16⟩
abbrev F.TSK_PREEMPT_CNT.TMO : Fd := ⟨R.TSK_PREEMPT_CNT, 16, 16⟩
abbrev F.TSK_PACE_SEL.ELEMENT : Fd := ⟨R.TSK_PACE_SEL, 0, 6⟩
abbrev F.TSK_PACE.PACE : Fd := ⟨R.TSK_PACE, 0, 16⟩
abbrev F.TSK_FLUSH.PRIO_MASK : Fd := ⟨R.TSK_FLUSH, 0, 16⟩
abbrev F.TSK_SUBMIT_GO.GO : Fd := ⟨R.TSK_SUBMIT_GO, 0, 1⟩
abbrev F.TSK_SUBMIT.WORD : Fd := ⟨R.TSK_SUBMIT, 0, 32⟩
abbrev F.TSK_CQ_SEL.QUEUE : Fd := ⟨R.TSK_CQ_SEL, 0, 4⟩
abbrev F.TSK_CQ_BASE_LO.ADDR : Fd := ⟨R.TSK_CQ_BASE_LO, 6, 26⟩
abbrev F.TSK_CQ_BASE_HI.ADDR : Fd := ⟨R.TSK_CQ_BASE_HI, 0, 16⟩
abbrev F.TSK_CQ_BASE_HI.SIZE : Fd := ⟨R.TSK_CQ_BASE_HI, 16, 4⟩
abbrev F.TSK_CQ_IDX.PROD : Fd := ⟨R.TSK_CQ_IDX, 0, 16⟩
abbrev F.TSK_CQ_IDX.CONS : Fd := ⟨R.TSK_CQ_IDX, 16, 16⟩
abbrev F.TSK_CQ_CFG.EN : Fd := ⟨R.TSK_CQ_CFG, 0, 1⟩
abbrev F.TSK_CQ_CFG.VECTOR : Fd := ⟨R.TSK_CQ_CFG, 8, 6⟩
abbrev F.TSK_CQ_CFG.CQ_ERR : Fd := ⟨R.TSK_CQ_CFG, 30, 1⟩
abbrev F.TSK_CQ_CFG.FULL : Fd := ⟨R.TSK_CQ_CFG, 31, 1⟩
abbrev F.CLUSTER_SEL.CLUSTER : Fd := ⟨R.CLUSTER_SEL, 0, 5⟩
abbrev F.CL_PACE.PACE : Fd := ⟨R.CL_PACE, 0, 16⟩
abbrev F.CL_STATUS.IDLE : Fd := ⟨R.CL_STATUS, 0, 8⟩
abbrev F.CL_STATUS.HALTED : Fd := ⟨R.CL_STATUS, 8, 8⟩
abbrev F.CL_STATUS.POWERED : Fd := ⟨R.CL_STATUS, 16, 1⟩
abbrev F.CL_CTRL.RESET : Fd := ⟨R.CL_CTRL, 0, 1⟩
abbrev F.TC_SEL.CORE : Fd := ⟨R.TC_SEL, 0, 8⟩
abbrev F.TC_STATE.STATE : Fd := ⟨R.TC_STATE, 0, 3⟩
abbrev F.TC_STATE.HALTED : Fd := ⟨R.TC_STATE, 3, 1⟩
abbrev F.TC_STATE.WAITING : Fd := ⟨R.TC_STATE, 4, 1⟩
abbrev F.TC_STATE.IN_INT : Fd := ⟨R.TC_STATE, 5, 1⟩
abbrev F.TC_TASK.ID : Fd := ⟨R.TC_TASK, 0, 14⟩
abbrev F.TC_TASK.QUAD : Fd := ⟨R.TC_TASK, 14, 2⟩
abbrev F.TC_TASK.LOWER_ID : Fd := ⟨R.TC_TASK, 16, 14⟩
abbrev F.TC_TASK.VALID : Fd := ⟨R.TC_TASK, 31, 1⟩
abbrev F.TC_STEP_LO.COUNT : Fd := ⟨R.TC_STEP_LO, 0, 32⟩
abbrev F.TC_STEP_HI.COUNT : Fd := ⟨R.TC_STEP_HI, 0, 32⟩
abbrev F.TC_STAT_INIT.STAT : Fd := ⟨R.TC_STAT_INIT, 0, 24⟩
abbrev F.TC_SP_INIT.ADDR : Fd := ⟨R.TC_SP_INIT, 4, 28⟩
abbrev F.TC_VBASE.ADDR : Fd := ⟨R.TC_VBASE, 6, 10⟩
abbrev F.TC_IRQ_PEND.PEND : Fd := ⟨R.TC_IRQ_PEND, 0, 8⟩
abbrev F.TC_IRQ_SET.SET : Fd := ⟨R.TC_IRQ_SET, 0, 8⟩
abbrev F.TC_ERR.CODE : Fd := ⟨R.TC_ERR, 0, 8⟩
abbrev F.TC_ERR.DETAIL : Fd := ⟨R.TC_ERR, 8, 16⟩
abbrev F.TC_ERR.MORE : Fd := ⟨R.TC_ERR, 30, 1⟩
abbrev F.TC_ERR.VALID : Fd := ⟨R.TC_ERR, 31, 1⟩
abbrev F.TC_ERR_ADDR.ADDR : Fd := ⟨R.TC_ERR_ADDR, 0, 32⟩
abbrev F.TC_TIMER_LO.TARGET : Fd := ⟨R.TC_TIMER_LO, 0, 32⟩
abbrev F.TC_TIMER_HI.TARGET : Fd := ⟨R.TC_TIMER_HI, 0, 32⟩
abbrev F.TC_TIMER_CTRL.EN : Fd := ⟨R.TC_TIMER_CTRL, 0, 1⟩
abbrev F.TC_TIMER_CTRL.FIRED : Fd := ⟨R.TC_TIMER_CTRL, 1, 1⟩
abbrev F.TC_WDT_LOAD.NS : Fd := ⟨R.TC_WDT_LOAD, 0, 32⟩
abbrev F.TC_WDT_CTRL.EN : Fd := ⟨R.TC_WDT_CTRL, 0, 1⟩
abbrev F.TC_WDT_CTRL.WARN : Fd := ⟨R.TC_WDT_CTRL, 1, 1⟩
abbrev F.TC_WDT_CTRL.WARNED : Fd := ⟨R.TC_WDT_CTRL, 2, 1⟩
abbrev F.TC_WDT_KICK.KICK : Fd := ⟨R.TC_WDT_KICK, 0, 1⟩
abbrev F.TC_WDT_REMAIN.NS : Fd := ⟨R.TC_WDT_REMAIN, 0, 32⟩
abbrev F.TC_INBOX_BASE.EN : Fd := ⟨R.TC_INBOX_BASE, 0, 1⟩
abbrev F.TC_INBOX_BASE.SIZE : Fd := ⟨R.TC_INBOX_BASE, 1, 3⟩
abbrev F.TC_INBOX_BASE.ADDR : Fd := ⟨R.TC_INBOX_BASE, 4, 28⟩
abbrev F.TC_INBOX_IDX.PROD : Fd := ⟨R.TC_INBOX_IDX, 0, 8⟩
abbrev F.TC_INBOX_IDX.CONS : Fd := ⟨R.TC_INBOX_IDX, 16, 8⟩
abbrev F.TC_WIN_LO.BASE : Fd := ⟨R.TC_WIN_LO, 28, 4⟩
abbrev F.TC_WIN_HI.BASE : Fd := ⟨R.TC_WIN_HI, 0, 16⟩
abbrev F.TC_WIN_CTRL.EN : Fd := ⟨R.TC_WIN_CTRL, 0, 1⟩
abbrev F.TC_WIN_CTRL.VC : Fd := ⟨R.TC_WIN_CTRL, 1, 2⟩
abbrev F.TC_WIN_CTRL.ORDERED : Fd := ⟨R.TC_WIN_CTRL, 3, 1⟩
abbrev F.TC_WIN_CTRL.POSTED : Fd := ⟨R.TC_WIN_CTRL, 4, 1⟩
abbrev F.TC_WIN_CTRL.KEY : Fd := ⟨R.TC_WIN_CTRL, 8, 8⟩
abbrev F.ACC_ENG_SEL.ENGINE : Fd := ⟨R.ACC_ENG_SEL, 0, 7⟩
abbrev F.ACC_ENG_INFO.ETYPE : Fd := ⟨R.ACC_ENG_INFO, 0, 4⟩
abbrev F.ACC_ENG_INFO.BUF_KIB : Fd := ⟨R.ACC_ENG_INFO, 8, 10⟩
abbrev F.ACC_ENG_STATE.STATE : Fd := ⟨R.ACC_ENG_STATE, 0, 2⟩
abbrev F.ACC_ENG_STATE.LOCK_WAIT : Fd := ⟨R.ACC_ENG_STATE, 2, 1⟩
abbrev F.ACC_ENG_STATE.TASK_ID : Fd := ⟨R.ACC_ENG_STATE, 16, 14⟩
abbrev F.ACC_ENG_STATE.QUAD : Fd := ⟨R.ACC_ENG_STATE, 30, 2⟩
abbrev F.ACC_ENG_CTRL.CLEAR_FAULT : Fd := ⟨R.ACC_ENG_CTRL, 0, 1⟩
abbrev F.ACC_ENG_CODE_CFG.LDPC_ALPHA : Fd := ⟨R.ACC_ENG_CODE_CFG, 0, 4⟩
abbrev F.ACC_ENG_CODE_CFG.TURBO_SCALE : Fd := ⟨R.ACC_ENG_CODE_CFG, 8, 4⟩
abbrev F.ACC_ENG_JOBS.COUNT : Fd := ⟨R.ACC_ENG_JOBS, 0, 32⟩
abbrev F.ACC_ENG_ITER_LO.COUNT : Fd := ⟨R.ACC_ENG_ITER_LO, 0, 32⟩
abbrev F.ACC_ENG_ITER_HI.COUNT : Fd := ⟨R.ACC_ENG_ITER_HI, 0, 32⟩
abbrev F.ACC_ENG_ERR.CODE : Fd := ⟨R.ACC_ENG_ERR, 0, 16⟩
abbrev F.ACC_ENG_ERR.AUX : Fd := ⟨R.ACC_ENG_ERR, 16, 8⟩
abbrev F.ACC_ENG_ERR.MORE : Fd := ⟨R.ACC_ENG_ERR, 30, 1⟩
abbrev F.ACC_ENG_ERR.VALID : Fd := ⟨R.ACC_ENG_ERR, 31, 1⟩
abbrev F.ACC_ENG_ERR_TASK.TASK_ID : Fd := ⟨R.ACC_ENG_ERR_TASK, 0, 14⟩
abbrev F.ACC_ENG_ERR_TASK.QUAD : Fd := ⟨R.ACC_ENG_ERR_TASK, 14, 2⟩
abbrev F.ACC_ENG_STAT_CLR.CLR : Fd := ⟨R.ACC_ENG_STAT_CLR, 0, 1⟩
abbrev F.ACC_ENG_HARQ_SEL.SPACE : Fd := ⟨R.ACC_ENG_HARQ_SEL, 0, 4⟩
abbrev F.ACC_ENG_HARQ_BASE_LO.ADDR : Fd := ⟨R.ACC_ENG_HARQ_BASE_LO, 12, 20⟩
abbrev F.ACC_ENG_HARQ_BASE_HI.ADDR : Fd := ⟨R.ACC_ENG_HARQ_BASE_HI, 0, 16⟩
abbrev F.ACC_ENG_HARQ_STRIDE.SECTORS : Fd := ⟨R.ACC_ENG_HARQ_STRIDE, 0, 16⟩
abbrev F.ACC_ENG_HARQ_CFG.EN : Fd := ⟨R.ACC_ENG_HARQ_CFG, 0, 1⟩
abbrev F.ACC_ENG_HARQ_CFG.REJ : Fd := ⟨R.ACC_ENG_HARQ_CFG, 1, 1⟩
abbrev F.ACC_ENG_HARQ_CFG.KEY : Fd := ⟨R.ACC_ENG_HARQ_CFG, 8, 8⟩
abbrev F.ACC_ENG_HARQ_CFG.COUNT : Fd := ⟨R.ACC_ENG_HARQ_CFG, 16, 16⟩
abbrev F.ACC_ENG_HARQ_WAITS.COUNT : Fd := ⟨R.ACC_ENG_HARQ_WAITS, 0, 32⟩
abbrev F.ACC_ENG_ITEMS_LO.COUNT : Fd := ⟨R.ACC_ENG_ITEMS_LO, 0, 32⟩
abbrev F.ACC_ENG_ITEMS_HI.COUNT : Fd := ⟨R.ACC_ENG_ITEMS_HI, 0, 32⟩
abbrev F.ACC_ENG_SAT_CNT.COUNT : Fd := ⟨R.ACC_ENG_SAT_CNT, 0, 32⟩
abbrev F.ACC_ENG_MTX_CFG.PIVOT_EXP : Fd := ⟨R.ACC_ENG_MTX_CFG, 0, 5⟩
abbrev F.ACC_ENG_ILL_CNT.COUNT : Fd := ⟨R.ACC_ENG_ILL_CNT, 0, 32⟩
abbrev F.ACC_ENG_PRACH_CFG.FLOOR : Fd := ⟨R.ACC_ENG_PRACH_CFG, 0, 6⟩
abbrev F.ACC_ENG_PRACH_CFG.MAXDET : Fd := ⟨R.ACC_ENG_PRACH_CFG, 8, 7⟩
abbrev F.ACC_ENG_PRACH_DET.COUNT : Fd := ⟨R.ACC_ENG_PRACH_DET, 0, 32⟩
abbrev F.ECC_GRP_SEL.GROUP : Fd := ⟨R.ECC_GRP_SEL, 0, 6⟩
abbrev F.ECC_GRP_STATUS.STARVE : Fd := ⟨R.ECC_GRP_STATUS, 0, 1⟩
abbrev F.ECC_GRP_STATUS.STARVE_CNT : Fd := ⟨R.ECC_GRP_STATUS, 16, 16⟩
abbrev F.ECC_TBL_SEL.ENTRY : Fd := ⟨R.ECC_TBL_SEL, 0, 4⟩
abbrev F.ECC_TBL_ADDR.WORD : Fd := ⟨R.ECC_TBL_ADDR, 0, 22⟩
abbrev F.ECC_TBL_ADDR.VALID : Fd := ⟨R.ECC_TBL_ADDR, 31, 1⟩
abbrev F.ECC_TBL_INFO.SYNDROME : Fd := ⟨R.ECC_TBL_INFO, 0, 9⟩
abbrev F.ECC_TBL_INFO.REBUILT : Fd := ⟨R.ECC_TBL_INFO, 9, 1⟩
abbrev F.ECC_TBL_INFO.COUNT : Fd := ⟨R.ECC_TBL_INFO, 16, 8⟩
abbrev F.ECC_TBL_CLR.CLR : Fd := ⟨R.ECC_TBL_CLR, 0, 1⟩
abbrev F.ECC_TBL_OVF.COUNT : Fd := ⟨R.ECC_TBL_OVF, 0, 32⟩
abbrev F.ECC_NODE_SEL.LEVEL : Fd := ⟨R.ECC_NODE_SEL, 0, 2⟩
abbrev F.ECC_NODE_SEL.GROUP : Fd := ⟨R.ECC_NODE_SEL, 8, 6⟩
abbrev F.ECC_NODE_SEL.BANK : Fd := ⟨R.ECC_NODE_SEL, 16, 8⟩
abbrev F.ECC_NODE_SEL.QUAD : Fd := ⟨R.ECC_NODE_SEL, 24, 2⟩
abbrev F.ECC_NODE_CORR_HI.COUNT : Fd := ⟨R.ECC_NODE_CORR_HI, 0, 16⟩
abbrev F.ECC_NODE_UNCORR_HI.COUNT : Fd := ⟨R.ECC_NODE_UNCORR_HI, 0, 16⟩
abbrev F.ECC_NODE_FLAGS.STALE : Fd := ⟨R.ECC_NODE_FLAGS, 0, 1⟩
abbrev F.ECC_NODE_FLAGS.PARTIAL : Fd := ⟨R.ECC_NODE_FLAGS, 1, 1⟩
abbrev F.ECC_CNT_CLR.CLR : Fd := ⟨R.ECC_CNT_CLR, 0, 1⟩
abbrev F.ECC_BIST_CTRL.EN : Fd := ⟨R.ECC_BIST_CTRL, 0, 1⟩
abbrev F.ECC_BIST_CTRL.INTERVAL : Fd := ⟨R.ECC_BIST_CTRL, 16, 16⟩
abbrev F.ECC_BIST_STATUS.FAIL : Fd := ⟨R.ECC_BIST_STATUS, 0, 1⟩
abbrev F.ECC_BIST_STATUS.NO_SPARE : Fd := ⟨R.ECC_BIST_STATUS, 1, 1⟩
abbrev F.ECC_BIST_STATUS.BUSY : Fd := ⟨R.ECC_BIST_STATUS, 2, 1⟩
abbrev F.ECC_BIST_LAPS.COUNT : Fd := ⟨R.ECC_BIST_LAPS, 0, 32⟩
abbrev F.ECC_REPAIR_SEL.ENTRY : Fd := ⟨R.ECC_REPAIR_SEL, 0, 4⟩
abbrev F.ECC_REPAIR_INFO.WORD : Fd := ⟨R.ECC_REPAIR_INFO, 0, 22⟩
abbrev F.ECC_REPAIR_INFO.SPARE : Fd := ⟨R.ECC_REPAIR_INFO, 24, 2⟩
abbrev F.ECC_REPAIR_INFO.SOURCE : Fd := ⟨R.ECC_REPAIR_INFO, 28, 1⟩
abbrev F.ECC_REPAIR_INFO.VALID : Fd := ⟨R.ECC_REPAIR_INFO, 31, 1⟩
abbrev F.CL_DMA_STARVE.SP_BANK : Fd := ⟨R.CL_DMA_STARVE, 0, 16⟩
abbrev F.CL_DMA_STARVE.CORE : Fd := ⟨R.CL_DMA_STARVE, 16, 8⟩
abbrev F.CL_DMA_STARVE_CNT.COUNT : Fd := ⟨R.CL_DMA_STARVE_CNT, 0, 32⟩
abbrev F.SCRUB_CTRL.EN : Fd := ⟨R.SCRUB_CTRL, 0, 1⟩
abbrev F.SCRUB_CTRL.RANGE_GO : Fd := ⟨R.SCRUB_CTRL, 1, 1⟩
abbrev F.SCRUB_CTRL.RANGE_ABORT : Fd := ⟨R.SCRUB_CTRL, 2, 1⟩
abbrev F.SCRUB_CTRL.INTERVAL : Fd := ⟨R.SCRUB_CTRL, 16, 16⟩
abbrev F.SCRUB_STATUS.LAP_OVERDUE : Fd := ⟨R.SCRUB_STATUS, 0, 1⟩
abbrev F.SCRUB_STATUS.RANGE_BUSY : Fd := ⟨R.SCRUB_STATUS, 1, 1⟩
abbrev F.SCRUB_STATUS.RANGE_DONE : Fd := ⟨R.SCRUB_STATUS, 2, 1⟩
abbrev F.SCRUB_STATUS.RANGE_REJ : Fd := ⟨R.SCRUB_STATUS, 3, 1⟩
abbrev F.SCRUB_LAP_NS.NS : Fd := ⟨R.SCRUB_LAP_NS, 0, 32⟩
abbrev F.SCRUB_LAP_LIMIT.NS : Fd := ⟨R.SCRUB_LAP_LIMIT, 0, 32⟩
abbrev F.SCRUB_LAPS.COUNT : Fd := ⟨R.SCRUB_LAPS, 0, 32⟩
abbrev F.SCRUB_RANGE_START.WORD : Fd := ⟨R.SCRUB_RANGE_START, 0, 22⟩
abbrev F.SCRUB_RANGE_END.WORD : Fd := ⟨R.SCRUB_RANGE_END, 0, 22⟩
abbrev F.SCRUB_SUM_CHECKED.COUNT : Fd := ⟨R.SCRUB_SUM_CHECKED, 0, 32⟩
abbrev F.SCRUB_SUM_CORRECTED.COUNT : Fd := ⟨R.SCRUB_SUM_CORRECTED, 0, 32⟩
abbrev F.SCRUB_SUM_UNCORR.COUNT : Fd := ⟨R.SCRUB_SUM_UNCORR, 0, 32⟩
abbrev F.SCRUB_SUM_REBUILT.COUNT : Fd := ⟨R.SCRUB_SUM_REBUILT, 0, 32⟩
abbrev F.SCRUB_SUM_NS.NS : Fd := ⟨R.SCRUB_SUM_NS, 0, 32⟩
abbrev F.HBM_STATUS.TRAINED : Fd := ⟨R.HBM_STATUS, 0, 2⟩
abbrev F.HBM_STATUS.INIT_DONE : Fd := ⟨R.HBM_STATUS, 2, 2⟩
abbrev F.HBM_STATUS.SELF_REFRESH : Fd := ⟨R.HBM_STATUS, 4, 2⟩
abbrev F.HBM_CTRL.SCRUB_EN : Fd := ⟨R.HBM_CTRL, 0, 1⟩
abbrev F.HBM_SCRUB_INTERVAL.NS : Fd := ⟨R.HBM_SCRUB_INTERVAL, 0, 24⟩
abbrev F.HBM_SCRUB_LAP_MS.MS : Fd := ⟨R.HBM_SCRUB_LAP_MS, 0, 32⟩
abbrev F.HBM_PC_SEL.PC : Fd := ⟨R.HBM_PC_SEL, 0, 6⟩
abbrev F.HBM_PC_CTRL.OFFLINE : Fd := ⟨R.HBM_PC_CTRL, 0, 1⟩
abbrev F.HBM_PC_CORR.COUNT : Fd := ⟨R.HBM_PC_CORR, 0, 32⟩
abbrev F.HBM_PC_UNCORR.COUNT : Fd := ⟨R.HBM_PC_UNCORR, 0, 32⟩
abbrev F.HBM_PC_TAG_FAIL.COUNT : Fd := ⟨R.HBM_PC_TAG_FAIL, 0, 32⟩
abbrev F.HBM_PC_DENIED.COUNT : Fd := ⟨R.HBM_PC_DENIED, 0, 32⟩
abbrev F.HBM_PC_STATUS.TRAINED : Fd := ⟨R.HBM_PC_STATUS, 0, 1⟩
abbrev F.HBM_PC_STATUS.OFFLINE : Fd := ⟨R.HBM_PC_STATUS, 1, 1⟩
abbrev F.HBM_ERR_ADDR_LO.ADDR : Fd := ⟨R.HBM_ERR_ADDR_LO, 6, 26⟩
abbrev F.HBM_ERR_ADDR_HI.ADDR : Fd := ⟨R.HBM_ERR_ADDR_HI, 0, 16⟩
abbrev F.HBM_ERR_INFO.KEY : Fd := ⟨R.HBM_ERR_INFO, 0, 8⟩
abbrev F.HBM_ERR_INFO.KIND : Fd := ⟨R.HBM_ERR_INFO, 8, 3⟩
abbrev F.HBM_ERR_INFO.PC : Fd := ⟨R.HBM_ERR_INFO, 16, 6⟩
abbrev F.HBM_ERR_INFO.MORE : Fd := ⟨R.HBM_ERR_INFO, 30, 1⟩
abbrev F.HBM_ERR_INFO.VALID : Fd := ⟨R.HBM_ERR_INFO, 31, 1⟩
abbrev F.CIPH_REGION_SEL.REGION : Fd := ⟨R.CIPH_REGION_SEL, 0, 4⟩
abbrev F.CIPH_REGION_BASE_LO.ADDR : Fd := ⟨R.CIPH_REGION_BASE_LO, 12, 20⟩
abbrev F.CIPH_REGION_BASE_HI.ADDR : Fd := ⟨R.CIPH_REGION_BASE_HI, 0, 16⟩
abbrev F.CIPH_REGION_LIMIT_LO.ADDR : Fd := ⟨R.CIPH_REGION_LIMIT_LO, 12, 20⟩
abbrev F.CIPH_REGION_LIMIT_HI.ADDR : Fd := ⟨R.CIPH_REGION_LIMIT_HI, 0, 16⟩
abbrev F.CIPH_REGION_ALLOW_LO.MASK : Fd := ⟨R.CIPH_REGION_ALLOW_LO, 0, 32⟩
abbrev F.CIPH_REGION_ALLOW_HI.MASK : Fd := ⟨R.CIPH_REGION_ALLOW_HI, 0, 32⟩
abbrev F.CIPH_REGION_CTRL.EN : Fd := ⟨R.CIPH_REGION_CTRL, 0, 1⟩
abbrev F.CIPH_REGION_CTRL.REJ : Fd := ⟨R.CIPH_REGION_CTRL, 1, 1⟩
abbrev F.CIPH_KEYS_LO.LOADED : Fd := ⟨R.CIPH_KEYS_LO, 0, 32⟩
abbrev F.CIPH_KEYS_HI.LOADED : Fd := ⟨R.CIPH_KEYS_HI, 0, 32⟩
abbrev F.CIPH_STATUS.INT_KEY : Fd := ⟨R.CIPH_STATUS, 0, 1⟩
abbrev F.CFG_STATUS.STATE : Fd := ⟨R.CFG_STATUS, 0, 3⟩
abbrev F.CFG_STATUS.GOLDEN : Fd := ⟨R.CFG_STATUS, 3, 1⟩
abbrev F.CFG_STATUS.LOAD_BUSY : Fd := ⟨R.CFG_STATUS, 4, 1⟩
abbrev F.CFG_STATUS.INTPORT_BUSY : Fd := ⟨R.CFG_STATUS, 5, 1⟩
abbrev F.CFG_STATUS.BOOT_MODE : Fd := ⟨R.CFG_STATUS, 8, 3⟩
abbrev F.CFG_STATUS.FLASH_REPAIR : Fd := ⟨R.CFG_STATUS, 11, 1⟩
abbrev F.CFG_FAIL.CODE : Fd := ⟨R.CFG_FAIL, 0, 8⟩
abbrev F.CFG_FAIL.CLASS : Fd := ⟨R.CFG_FAIL, 8, 1⟩
abbrev F.CFG_FAIL.IN_GOLDEN : Fd := ⟨R.CFG_FAIL, 9, 1⟩
abbrev F.CFG_FAIL.OVERLAY : Fd := ⟨R.CFG_FAIL, 10, 1⟩
abbrev F.CFG_FAIL.INTPORT : Fd := ⟨R.CFG_FAIL, 11, 1⟩
abbrev F.CFG_FAIL.MORE : Fd := ⟨R.CFG_FAIL, 30, 1⟩
abbrev F.CFG_FAIL.VALID : Fd := ⟨R.CFG_FAIL, 31, 1⟩
abbrev F.CFG_FAIL_POS.OFFSET : Fd := ⟨R.CFG_FAIL_POS, 0, 32⟩
abbrev F.CFG_GOLDEN_BASE.ADDR : Fd := ⟨R.CFG_GOLDEN_BASE, 0, 29⟩
abbrev F.CFG_GOLDEN_BASE.FUSED : Fd := ⟨R.CFG_GOLDEN_BASE, 31, 1⟩
abbrev F.CFG_LOCK.LOCK : Fd := ⟨R.CFG_LOCK, 0, 1⟩
abbrev F.CFG_BASE_VERSION.VERSION : Fd := ⟨R.CFG_BASE_VERSION, 0, 32⟩
abbrev F.CFG_REPAIR_BASE_LO.ADDR : Fd := ⟨R.CFG_REPAIR_BASE_LO, 12, 20⟩
abbrev F.CFG_REPAIR_BASE_HI.ADDR : Fd := ⟨R.CFG_REPAIR_BASE_HI, 0, 16⟩
abbrev F.CFG_REPAIR_SIZE.MIB : Fd := ⟨R.CFG_REPAIR_SIZE, 0, 16⟩
abbrev F.CFG_SCRUB_CTRL.EN : Fd := ⟨R.CFG_SCRUB_CTRL, 0, 1⟩
abbrev F.CFG_SCRUB_STATUS.LAP_OVERDUE : Fd := ⟨R.CFG_SCRUB_STATUS, 0, 1⟩
abbrev F.CFG_SCRUB_STATUS.CRC_ERR : Fd := ⟨R.CFG_SCRUB_STATUS, 1, 1⟩
abbrev F.CFG_SCRUB_STATUS.LOST : Fd := ⟨R.CFG_SCRUB_STATUS, 2, 1⟩
abbrev F.CFG_SCRUB_STATUS.PAUSED : Fd := ⟨R.CFG_SCRUB_STATUS, 3, 1⟩
abbrev F.CFG_SCRUB_STATUS.REPAIRING : Fd := ⟨R.CFG_SCRUB_STATUS, 4, 1⟩
abbrev F.CFG_SCRUB_LAP_US.US : Fd := ⟨R.CFG_SCRUB_LAP_US, 0, 32⟩
abbrev F.CFG_SCRUB_CORR.COUNT : Fd := ⟨R.CFG_SCRUB_CORR, 0, 32⟩
abbrev F.CFG_SCRUB_REPAIRED.COUNT : Fd := ⟨R.CFG_SCRUB_REPAIRED, 0, 32⟩
abbrev F.CFG_SCRUB_LOST.COUNT : Fd := ⟨R.CFG_SCRUB_LOST, 0, 32⟩
abbrev F.CFG_LOST_ADDR.FRAME : Fd := ⟨R.CFG_LOST_ADDR, 0, 25⟩
abbrev F.CFG_LOST_ADDR.VALID : Fd := ⟨R.CFG_LOST_ADDR, 31, 1⟩
abbrev F.PR_REGION_SEL.REGION : Fd := ⟨R.PR_REGION_SEL, 0, 6⟩
abbrev F.PR_REGION_STATE.STATE : Fd := ⟨R.PR_REGION_STATE, 0, 3⟩
abbrev F.PR_REGION_STATE.ISOLATED : Fd := ⟨R.PR_REGION_STATE, 4, 1⟩
abbrev F.PR_REGION_STATE.COPY : Fd := ⟨R.PR_REGION_STATE, 5, 1⟩
abbrev F.PR_REGION_STATE.INTERNAL : Fd := ⟨R.PR_REGION_STATE, 6, 1⟩
abbrev F.PR_REGION_STATE.BASE : Fd := ⟨R.PR_REGION_STATE, 7, 1⟩
abbrev F.PR_REGION_CTRL.RESET : Fd := ⟨R.PR_REGION_CTRL, 0, 1⟩
abbrev F.PR_REGION_VERSION.VERSION : Fd := ⟨R.PR_REGION_VERSION, 0, 32⟩
abbrev F.PR_ISO_MODE.GROUP : Fd := ⟨R.PR_ISO_MODE, 0, 32⟩
abbrev F.PR_LOADED_LO.MASK : Fd := ⟨R.PR_LOADED_LO, 0, 32⟩
abbrev F.PR_LOADED_HI.MASK : Fd := ⟨R.PR_LOADED_HI, 0, 32⟩
abbrev F.PR_FAILED_LO.MASK : Fd := ⟨R.PR_FAILED_LO, 0, 32⟩
abbrev F.PR_FAILED_HI.MASK : Fd := ⟨R.PR_FAILED_HI, 0, 32⟩
abbrev F.PR_HOST_ADDR_LO.ADDR : Fd := ⟨R.PR_HOST_ADDR_LO, 4, 28⟩
abbrev F.PR_HOST_ADDR_HI.ADDR : Fd := ⟨R.PR_HOST_ADDR_HI, 0, 32⟩
abbrev F.PR_HOST_LEN.BYTES : Fd := ⟨R.PR_HOST_LEN, 0, 32⟩
abbrev F.PR_HOST_CTRL.GO : Fd := ⟨R.PR_HOST_CTRL, 0, 1⟩
abbrev F.BM_SEL.BLOCK : Fd := ⟨R.BM_SEL, 0, 13⟩
abbrev F.BM_INFO.WIDTH_A : Fd := ⟨R.BM_INFO, 0, 3⟩
abbrev F.BM_INFO.WIDTH_B : Fd := ⟨R.BM_INFO, 3, 3⟩
abbrev F.BM_INFO.CODE_EN : Fd := ⟨R.BM_INFO, 8, 1⟩
abbrev F.BM_INFO.IN_USE : Fd := ⟨R.BM_INFO, 9, 1⟩
abbrev F.BM_STATUS.COLL : Fd := ⟨R.BM_STATUS, 0, 1⟩
abbrev F.BM_STATUS.CORR : Fd := ⟨R.BM_STATUS, 1, 1⟩
abbrev F.BM_STATUS.LOST : Fd := ⟨R.BM_STATUS, 2, 1⟩
abbrev F.BM_STATUS.REBUILDING : Fd := ⟨R.BM_STATUS, 3, 1⟩
abbrev F.BM_ECC_CNT.CORR : Fd := ⟨R.BM_ECC_CNT, 0, 16⟩
abbrev F.BM_ECC_CNT.UNCORR : Fd := ⟨R.BM_ECC_CNT, 16, 16⟩
abbrev F.BM_COLL_SUM_LO.REGIONS : Fd := ⟨R.BM_COLL_SUM_LO, 0, 32⟩
abbrev F.BM_COLL_SUM_HI.REGIONS : Fd := ⟨R.BM_COLL_SUM_HI, 0, 32⟩
abbrev F.BM_COLL_CLR.REGION : Fd := ⟨R.BM_COLL_CLR, 0, 6⟩
abbrev F.BM_COLL_CLR.GO : Fd := ⟨R.BM_COLL_CLR, 8, 1⟩
abbrev F.PR_FP_SEL.PORT : Fd := ⟨R.PR_FP_SEL, 0, 7⟩
abbrev F.PR_FP_CTRL.EN : Fd := ⟨R.PR_FP_CTRL, 0, 1⟩
abbrev F.PR_FP_CTRL.CLK : Fd := ⟨R.PR_FP_CTRL, 1, 4⟩
abbrev F.PR_FP_CTRL.ALLOW_VC3 : Fd := ⟨R.PR_FP_CTRL, 8, 1⟩
abbrev F.PR_FP_CTRL.TGT_TMO_US : Fd := ⟨R.PR_FP_CTRL, 16, 16⟩
abbrev F.PR_FP_KEYMASK_LO.MASK : Fd := ⟨R.PR_FP_KEYMASK_LO, 0, 32⟩
abbrev F.PR_FP_KEYMASK_HI.MASK : Fd := ⟨R.PR_FP_KEYMASK_HI, 0, 32⟩
abbrev F.PR_FP_STATUS.ACTIVE : Fd := ⟨R.PR_FP_STATUS, 0, 1⟩
abbrev F.PR_FP_STATUS.KEY_REJ : Fd := ⟨R.PR_FP_STATUS, 1, 1⟩
abbrev F.PR_FP_STATUS.TGT_TMO : Fd := ⟨R.PR_FP_STATUS, 2, 1⟩
abbrev F.PR_FP_STATUS.BAD_RSP : Fd := ⟨R.PR_FP_STATUS, 3, 1⟩
abbrev F.PR_FP_STATUS.CLK_STOP : Fd := ⟨R.PR_FP_STATUS, 4, 1⟩
abbrev F.PR_FP_STATUS.TGT_OUT : Fd := ⟨R.PR_FP_STATUS, 8, 7⟩
abbrev F.PR_FP_STATUS.RSP_LEVEL : Fd := ⟨R.PR_FP_STATUS, 16, 9⟩
abbrev F.PR_FP_COUNTS.TGT_TMO : Fd := ⟨R.PR_FP_COUNTS, 0, 16⟩
abbrev F.PR_FP_COUNTS.KEY_REJ : Fd := ⟨R.PR_FP_COUNTS, 16, 16⟩
abbrev F.CFG_CONT_INFO.LINE : Fd := ⟨R.CFG_CONT_INFO, 0, 10⟩
abbrev F.CFG_CONT_INFO.REGION : Fd := ⟨R.CFG_CONT_INFO, 16, 6⟩
abbrev F.CFG_CONT_INFO.MORE : Fd := ⟨R.CFG_CONT_INFO, 30, 1⟩
abbrev F.CFG_CONT_INFO.VALID : Fd := ⟨R.CFG_CONT_INFO, 31, 1⟩
abbrev F.CFG_IO_BANK_STATUS.BANK : Fd := ⟨R.CFG_IO_BANK_STATUS, 0, 32⟩
abbrev F.CFG_IO_IN.LEVEL : Fd := ⟨R.CFG_IO_IN, 0, 32⟩
abbrev F.SEC_LIFECYCLE.STATE : Fd := ⟨R.SEC_LIFECYCLE, 0, 2⟩
abbrev F.SEC_LIFECYCLE.FUSED : Fd := ⟨R.SEC_LIFECYCLE, 4, 2⟩
abbrev F.SEC_LIFECYCLE.PENDING : Fd := ⟨R.SEC_LIFECYCLE, 8, 1⟩
abbrev F.SEC_FUSE_STATUS.IMG_VALID : Fd := ⟨R.SEC_FUSE_STATUS, 0, 4⟩
abbrev F.SEC_FUSE_STATUS.IMG_REVOKED : Fd := ⟨R.SEC_FUSE_STATUS, 4, 4⟩
abbrev F.SEC_FUSE_STATUS.SLOT : Fd := ⟨R.SEC_FUSE_STATUS, 8, 3⟩
abbrev F.SEC_FUSE_STATUS.NO_SLOT : Fd := ⟨R.SEC_FUSE_STATUS, 11, 1⟩
abbrev F.SEC_FUSE_STATUS.DBG_VALID : Fd := ⟨R.SEC_FUSE_STATUS, 16, 8⟩
abbrev F.SEC_FUSE_STATUS.GOLDEN_FUSED : Fd := ⟨R.SEC_FUSE_STATUS, 24, 1⟩
abbrev F.SEC_FUSE_STATUS.SECRET_VALID : Fd := ⟨R.SEC_FUSE_STATUS, 25, 1⟩
abbrev F.SEC_ARB.BASE : Fd := ⟨R.SEC_ARB, 0, 9⟩
abbrev F.SEC_ARB.FW : Fd := ⟨R.SEC_ARB, 16, 9⟩
abbrev F.SEC_DBG_STATUS.LEVEL : Fd := ⟨R.SEC_DBG_STATUS, 0, 2⟩
abbrev F.SEC_DBG_STATUS.FAILS : Fd := ⟨R.SEC_DBG_STATUS, 4, 3⟩
abbrev F.SEC_DBG_STATUS.LOCKOUT : Fd := ⟨R.SEC_DBG_STATUS, 8, 1⟩
abbrev F.SEC_DBG_STATUS.SLOT : Fd := ⟨R.SEC_DBG_STATUS, 9, 3⟩
abbrev F.SEC_DBG_STATUS.CHAL_VALID : Fd := ⟨R.SEC_DBG_STATUS, 16, 1⟩
abbrev F.SEC_TAMPER.TAMPERED : Fd := ⟨R.SEC_TAMPER, 0, 1⟩
abbrev F.SEC_TAMPER.PIN_LOW : Fd := ⟨R.SEC_TAMPER, 1, 1⟩
abbrev F.SEC_KEYRAM.VALID : Fd := ⟨R.SEC_KEYRAM, 0, 8⟩
abbrev F.SEC_LOCKS.PROV_LOCK : Fd := ⟨R.SEC_LOCKS, 0, 1⟩
abbrev F.SEC_LOCKS.DBG_DISABLE : Fd := ⟨R.SEC_LOCKS, 1, 1⟩
abbrev F.SEC_LOCKS.KEYRAM_LOCK : Fd := ⟨R.SEC_LOCKS, 2, 1⟩
abbrev F.SEC_REQ_STATUS.BUSY : Fd := ⟨R.SEC_REQ_STATUS, 0, 1⟩
abbrev F.SEC_REQ_STATUS.OP : Fd := ⟨R.SEC_REQ_STATUS, 8, 8⟩
abbrev F.SEC_REQ_STATUS.STATUS : Fd := ⟨R.SEC_REQ_STATUS, 16, 16⟩
abbrev F.FUSE_SERIAL_LO.SERIAL : Fd := ⟨R.FUSE_SERIAL_LO, 0, 32⟩
abbrev F.FUSE_SERIAL_HI.SERIAL : Fd := ⟨R.FUSE_SERIAL_HI, 0, 32⟩
abbrev F.FUSE_SPOILED.IMG : Fd := ⟨R.FUSE_SPOILED, 0, 4⟩
abbrev F.FUSE_SPOILED.DBG : Fd := ⟨R.FUSE_SPOILED, 8, 8⟩
abbrev F.FUSE_SPOILED.GOLDEN : Fd := ⟨R.FUSE_SPOILED, 16, 1⟩
abbrev F.ERR_CFG.COALESCE_NS : Fd := ⟨R.ERR_CFG, 0, 24⟩
abbrev F.ERR_CFG.NOTIFY : Fd := ⟨R.ERR_CFG, 24, 4⟩
abbrev F.ERR_STATUS.PENDING : Fd := ⟨R.ERR_STATUS, 0, 4⟩
abbrev F.ERR_STATUS.FE : Fd := ⟨R.ERR_STATUS, 4, 1⟩
abbrev F.ERR_STATUS.LOG_FULL : Fd := ⟨R.ERR_STATUS, 5, 1⟩
abbrev F.ERR_STATUS.LOG_COUNT : Fd := ⟨R.ERR_STATUS, 16, 11⟩
abbrev F.ERR_LOST.COUNT : Fd := ⟨R.ERR_LOST, 0, 32⟩
abbrev F.ERR_LOG_SEQ.OLDEST : Fd := ⟨R.ERR_LOG_SEQ, 0, 16⟩
abbrev F.ERR_LOG_SEQ.NEXT : Fd := ⟨R.ERR_LOG_SEQ, 16, 16⟩
abbrev F.ERR_Q_SEL.QUAD : Fd := ⟨R.ERR_Q_SEL, 0, 2⟩
abbrev F.ERR_Q_STATUS.HELD : Fd := ⟨R.ERR_Q_STATUS, 0, 9⟩
abbrev F.ERR_Q_STATUS.WAITING : Fd := ⟨R.ERR_Q_STATUS, 16, 9⟩
abbrev F.ERR_Q_SUPPR.COUNT : Fd := ⟨R.ERR_Q_SUPPR, 0, 32⟩
abbrev F.ERR_Q_FWD.COUNT : Fd := ⟨R.ERR_Q_FWD, 0, 32⟩
abbrev F.DBG_CTRL.ATTACHED : Fd := ⟨R.DBG_CTRL, 0, 1⟩
abbrev F.DBG_STATUS.LEVEL : Fd := ⟨R.DBG_STATUS, 0, 2⟩
abbrev F.DBG_STATUS.LOCKSEQ_CANCELLED : Fd := ⟨R.DBG_STATUS, 2, 1⟩
abbrev F.DBG_WDT_GRACE.NS : Fd := ⟨R.DBG_WDT_GRACE, 0, 32⟩
abbrev F.DBG_WARM_KEY.VALUE : Fd := ⟨R.DBG_WARM_KEY, 0, 32⟩
abbrev F.DBG_CORE_SEL.AGENT : Fd := ⟨R.DBG_CORE_SEL, 0, 9⟩
abbrev F.DBG_CORE_CTRL.HALT : Fd := ⟨R.DBG_CORE_CTRL, 0, 1⟩
abbrev F.DBG_CORE_CTRL.RESUME : Fd := ⟨R.DBG_CORE_CTRL, 1, 1⟩
abbrev F.DBG_CORE_CTRL.STEP : Fd := ⟨R.DBG_CORE_CTRL, 2, 1⟩
abbrev F.DBG_CORE_STATUS.HALTED : Fd := ⟨R.DBG_CORE_STATUS, 0, 1⟩
abbrev F.DBG_CORE_STATUS.CAUSE : Fd := ⟨R.DBG_CORE_STATUS, 1, 3⟩
abbrev F.DBG_CORE_STATUS.NOT_HALTED : Fd := ⟨R.DBG_CORE_STATUS, 4, 1⟩
abbrev F.DBG_CORE_STATUS.LOCKSEQ_CANCELLED : Fd := ⟨R.DBG_CORE_STATUS, 5, 1⟩
abbrev F.DBG_CORE_STATUS.UNIT : Fd := ⟨R.DBG_CORE_STATUS, 6, 2⟩
abbrev F.DBG_CORE_PC.BUNDLE : Fd := ⟨R.DBG_CORE_PC, 4, 12⟩
abbrev F.DBG_CORE_GROUP.GROUP : Fd := ⟨R.DBG_CORE_GROUP, 0, 3⟩
abbrev F.DBG_CORE_GROUP.EN : Fd := ⟨R.DBG_CORE_GROUP, 3, 1⟩
abbrev F.DBG_REG_SEL.REG : Fd := ⟨R.DBG_REG_SEL, 0, 8⟩
abbrev F.DBG_REG_SEL.PART : Fd := ⟨R.DBG_REG_SEL, 8, 2⟩
abbrev F.DBG_REG_DATA.DATA : Fd := ⟨R.DBG_REG_DATA, 0, 32⟩
abbrev F.DBG_BP_ADDR.BUNDLE : Fd := ⟨R.DBG_BP_ADDR, 0, 12⟩
abbrev F.DBG_BP_CTRL.EN : Fd := ⟨R.DBG_BP_CTRL, 0, 1⟩
abbrev F.DBG_BP_CTRL.ACTION : Fd := ⟨R.DBG_BP_CTRL, 1, 2⟩
abbrev F.DBG_WP_LO.ADDR : Fd := ⟨R.DBG_WP_LO, 0, 32⟩
abbrev F.DBG_WP_HI.ADDR : Fd := ⟨R.DBG_WP_HI, 0, 32⟩
abbrev F.DBG_WP_CTRL.EN : Fd := ⟨R.DBG_WP_CTRL, 0, 1⟩
abbrev F.DBG_WP_CTRL.ACTION : Fd := ⟨R.DBG_WP_CTRL, 1, 2⟩
abbrev F.DBG_WP_CTRL.RW : Fd := ⟨R.DBG_WP_CTRL, 3, 2⟩
abbrev F.TRC_CTRL.EN : Fd := ⟨R.TRC_CTRL, 0, 1⟩
abbrev F.TRC_CTRL.SINK : Fd := ⟨R.TRC_CTRL, 1, 2⟩
abbrev F.TRC_CTRL.STOP_FULL : Fd := ⟨R.TRC_CTRL, 3, 1⟩
abbrev F.TRC_CTRL.LANE : Fd := ⟨R.TRC_CTRL, 8, 8⟩
abbrev F.TRC_STATUS.FULL : Fd := ⟨R.TRC_STATUS, 0, 1⟩
abbrev F.TRC_STATUS.SINK_ERR : Fd := ⟨R.TRC_STATUS, 1, 1⟩
abbrev F.TRC_RING_BASE_LO.ADDR : Fd := ⟨R.TRC_RING_BASE_LO, 6, 26⟩
abbrev F.TRC_RING_BASE_HI.ADDR : Fd := ⟨R.TRC_RING_BASE_HI, 0, 16⟩
abbrev F.TRC_RING_BASE_HI.SIZE : Fd := ⟨R.TRC_RING_BASE_HI, 16, 5⟩
abbrev F.TRC_WPTR.COUNT : Fd := ⟨R.TRC_WPTR, 0, 32⟩
abbrev F.TRC_DROPS.COUNT : Fd := ⟨R.TRC_DROPS, 0, 32⟩
abbrev F.TRC_SRC_SEL.SOURCE : Fd := ⟨R.TRC_SRC_SEL, 0, 9⟩
abbrev F.TRC_PORT_EN_LO.MASK : Fd := ⟨R.TRC_PORT_EN_LO, 0, 32⟩
abbrev F.TRC_PORT_EN_HI.MASK : Fd := ⟨R.TRC_PORT_EN_HI, 0, 32⟩
abbrev F.TRC_BUF_ADDR.PACKET : Fd := ⟨R.TRC_BUF_ADDR, 0, 16⟩
abbrev F.TRC_BUF_DATA.DATA : Fd := ⟨R.TRC_BUF_DATA, 0, 32⟩
abbrev F.MBX_DOORBELL.INDEX : Fd := ⟨R.MBX_DOORBELL, 0, 8⟩
abbrev F.MBX_STATUS.FW_READY : Fd := ⟨R.MBX_STATUS, 0, 1⟩
abbrev F.MBX_STATUS.SESSION : Fd := ⟨R.MBX_STATUS, 1, 1⟩
abbrev F.MBX_STATUS.VERSION : Fd := ⟨R.MBX_STATUS, 4, 4⟩
abbrev F.MBX_STATUS.OVERRUN : Fd := ⟨R.MBX_STATUS, 8, 1⟩
abbrev F.MBX_STATUS.RSP_STALL : Fd := ⟨R.MBX_STATUS, 9, 1⟩
abbrev F.MBX_STATUS.IN_FLIGHT : Fd := ⟨R.MBX_STATUS, 16, 8⟩
abbrev F.MBX_REQ_CONS.INDEX : Fd := ⟨R.MBX_REQ_CONS, 0, 8⟩
abbrev F.MBX_RSP_PROD.INDEX : Fd := ⟨R.MBX_RSP_PROD, 0, 8⟩
abbrev F.MBX_RSP_CONS.INDEX : Fd := ⟨R.MBX_RSP_CONS, 0, 8⟩
abbrev F.MBX_CTRL.RESET : Fd := ⟨R.MBX_CTRL, 0, 1⟩
abbrev F.MBX_CTRL.IRQ_EN : Fd := ⟨R.MBX_CTRL, 1, 1⟩
abbrev F.MBX_CTRL.TARGET : Fd := ⟨R.MBX_CTRL, 8, 8⟩

def regRowsDevA : List RegRow := [
  R.DEV_ID, R.DEV_REV, R.DEV_FW_VERSION, R.DEV_FW_STATE, R.DEV_OWN_VIOL, R.DEV_OWN_VIOL_CNT]

def regRowsMbxA : List RegRow := [
  R.MBX_DOORBELL, R.MBX_STATUS, R.MBX_REQ_CONS, R.MBX_RSP_PROD, R.MBX_RSP_CONS, R.MBX_CTRL]

def regRowsPwrA : List RegRow := [
  R.PWR_STATE, R.PWR_WAKE_CFG, R.PWR_WAKE_TMO, R.PWR_BOUNCE, R.PWR_DOM_SEL, R.PWR_DOM_STATUS, R.PWR_DOM_CTRL, 
  R.PWR_RTC_SEC, R.PWR_RTC_SUB, R.PWR_RTC_ALARM, R.PWR_MITTEN_STATUS, R.GOV_CTRL, R.GOV_BUDGET, R.GOV_SHARE, 
  R.GOV_OTHER_W, R.GOV_TEMP_LIMITS, R.GOV_HEAT_SCALE, R.GOV_STATUS, R.GOV_POWER, R.GOV_QUAD_SEL, R.GOV_Q_VCFG, 
  R.GOV_Q_STATE, R.GOV_TEMP_SEL, R.GOV_TEMP, R.GOV_LANE_SHED_LO, R.GOV_LANE_SHED_HI, R.GOV_DROOP_CFG, 
  R.GOV_DROOP_CNT]

def regRowsClkA : List RegRow := [
  R.CLK_LOOP_SEL, R.CLK_LOOP_CFG, R.CLK_LOOP_FRAC, R.CLK_LOOP_CTRL, R.CLK_LOOP_STATUS, R.CLK_FAB_OUT, 
  R.CLK_MUX_SEL, R.CLK_MUX_CTRL, R.CLK_MUX_STATUS, R.CLK_MON_SEL, R.CLK_MON_CFG, R.CLK_MON_STATUS, 
  R.CLK_MON_COUNT, R.CLK_GATE_CFG, R.CLK_GATE_WAKES]

def regRowsTimeA : List RegRow := [
  R.TOD_STATUS, R.TOD_CTRL, R.TOD_REARM, R.TOD_SERVO, R.TOD_ADDEND_HI, R.TOD_ADDEND_LO, R.NS_INCR, 
  R.TOD_STEP_AT, R.TOD_STEP_SEC_HI, R.TOD_STEP_SEC_LO, R.TOD_STEP_NS, R.TOD_SNAP_SEC_HI, R.TOD_SNAP_SEC_LO, 
  R.TOD_SNAP_NS, R.TOD_SNAP_FRAC, R.NS_SNAP_LO, R.NS_SNAP_HI, R.NS_FALLBACK_OFF_LO, R.NS_FALLBACK_OFF_HI, 
  R.TOD_PPS_IN_SEC_LO, R.TOD_PPS_IN_NS, R.TOD_PPS_IN_STAT, R.TOD_PPS_OUT_CTRL, R.TOD_PPS_OUT_PHASE, 
  R.TOD_PPS_OUT_WIDTH, R.TIME_CMP_TGT_LO, R.TIME_CMP_TGT_HI, R.TIME_CMP_PERIOD, R.TIME_CMP_CTRL, 
  R.SLOT_TMR_CTRL, R.SLOT_TMR_PERIOD, R.SLOT_TMR_OFFSET, R.SLOT_TMR_COUNT, R.SLOT_TMR_LAST_LO, 
  R.SLOT_TMR_LAST_HI, R.TSU_SEL, R.TSU_CTRL, R.TSU_STATUS, R.TSU_COUNTS, R.TSU_TX_ID, R.TSU_TX_SEC_LO, 
  R.TSU_TX_NS, R.TSU_TX_POP, R.TSU_RCLK_CTRL]

def regRowsLanesA : List RegRow := [
  R.LANE_SEL, R.LANE_CTRL, R.LANE_RATE, R.LANE_STATUS, R.LANE_TS_TX_DELAY, R.LANE_TS_RX_DELAY, R.LANE_EQ_CTRL, 
  R.LANE_EQ_TAP, R.LANE_EYE, R.LANE_ERR_LO, R.LANE_ERR_HI, R.MAC_SEL, R.MAC_CFG, R.MAC_STATUS, 
  R.MAC_TX_RING_LO, R.MAC_TX_RING_HI, R.MAC_TX_IDX, R.MAC_RX_RING_LO, R.MAC_RX_RING_HI, R.MAC_RX_IDX, 
  R.MAC_SEC_CTRL, R.MAC_STAT_SEL, R.MAC_STAT_LO, R.MAC_STAT_HI, R.MAC_SA_SEL, R.MAC_SA_CFG, R.MAC_SA_SCI_LO, 
  R.MAC_SA_SCI_HI, R.MAC_SA_SSCI, R.MAC_SA_SALT_0, R.MAC_SA_SALT_1, R.MAC_SA_SALT_2, R.MAC_SA_PN_LO, 
  R.MAC_SA_PN_HI, R.FH_SEL, R.FH_CTRL, R.FH_STATUS, R.FH_RX_WIN_MIN, R.FH_RX_WIN_MAX, R.FH_TX_ADV_U, 
  R.FH_TX_ADV_C, R.FH_TX_RING_LO, R.FH_TX_RING_HI, R.FH_TX_IDX, R.FH_STAT_SEL, R.FH_STAT, R.FH_FLOW_SEL, 
  R.FH_FLOW_INFO, R.FH_FLOW_DEST_LO, R.FH_FLOW_DEST_HI, R.FH_FLOW_STRIDE, R.CPRI_SEL, R.CPRI_CFG, 
  R.CPRI_STATUS, R.CPRI_RTT, R.CPRI_CM_TX_RING_LO, R.CPRI_CM_TX_RING_HI, R.CPRI_CM_TX_IDX, 
  R.CPRI_CM_RX_RING_LO, R.CPRI_CM_RX_RING_HI]

def regRowsLanesB : List RegRow := [
  R.CPRI_CM_RX_IDX, R.CPRI_AXC_SEL, R.CPRI_AXC_CFG, R.CPRI_AXC_ADDR_LO, R.CPRI_AXC_ADDR_HI, R.CPRI_AXC_STRIDE, 
  R.CHL_SEL, R.CHL_CFG, R.CHL_STATUS, R.CHL_PARTNER, R.CHL_COUNTS, R.CHL_WIN_SEL, R.CHL_WIN_CTRL, 
  R.CHL_WIN_XLAT, R.PCIE_SEL, R.PCIE_CFG, R.PCIE_STATUS, R.PCIE_BAR2_XLAT_LO, R.PCIE_BAR2_XLAT_HI, 
  R.PCIE_BAR2_CTRL, R.PCIE_IN_XLAT_LO, R.PCIE_IN_XLAT_HI, R.PCIE_IN_CTRL, R.PCIE_DMA_SEL, R.PCIE_DMA_RING_LO, 
  R.PCIE_DMA_RING_HI, R.PCIE_DMA_IDX]

def regRowsNocA : List RegRow := [
  R.INIT_SEL, R.NOC_INIT_CFG, R.NOC_RATE_VC0, R.NOC_RATE_VC1, R.NOC_INIT_STATUS, R.NOC_STAT_RD_LO, 
  R.NOC_STAT_RD_HI, R.NOC_STAT_WR_LO, R.NOC_STAT_WR_HI, R.NOC_STAT_REQ_LO, R.NOC_STAT_REQ_HI, 
  R.NOC_STAT_LAT_SUM_LO, R.NOC_STAT_LAT_SUM_HI, R.NOC_STAT_LAT_MAX, R.NOC_STAT_FLAGS, R.NOC_STAT_CLR, 
  R.NOC_STAT_HIST, R.NOC_HIST_CFG, R.NOC_BRIDGE_STATUS, R.NOC_DROP_COUNT]

def regRowsTskA : List RegRow := [
  R.TSK_SEL, R.TSK_CTRL, R.TSK_STATUS, R.TSK_TICK, R.TSK_ACCT, R.TSK_ACCT_CAP, R.TSK_ALLOW_LAST, R.TSK_POOL, 
  R.TSK_READY_MASK, R.TSK_DISPATCHED_LO, R.TSK_DISPATCHED_HI, R.TSK_LATE_RISK, R.TSK_VARIANTS, R.TSK_DROPS, 
  R.TSK_LATE_DONE, R.TSK_STAT_CLR, R.TSK_SIGNAL, R.TSK_SIG_STATUS, R.TSK_PREEMPT, R.TSK_PREEMPT_CNT, 
  R.TSK_PACE_SEL, R.TSK_PACE, R.TSK_FLUSH, R.TSK_SUBMIT_GO, R.TSK_SUBMIT, R.TSK_CQ_SEL, R.TSK_CQ_BASE_LO, 
  R.TSK_CQ_BASE_HI, R.TSK_CQ_IDX, R.TSK_CQ_CFG]

def regRowsTahrA : List RegRow := [
  R.CLUSTER_SEL, R.CL_PACE, R.CL_STATUS, R.CL_CTRL, R.CL_DMA_STARVE,
  R.CL_DMA_STARVE_CNT, R.TC_SEL, R.TC_STATE, R.TC_TASK, R.TC_STEP_LO, 
  R.TC_STEP_HI, R.TC_STAT_INIT, R.TC_SP_INIT, R.TC_VBASE, R.TC_IRQ_PEND, R.TC_IRQ_SET, R.TC_ERR, R.TC_ERR_ADDR, 
  R.TC_TIMER_LO, R.TC_TIMER_HI, R.TC_TIMER_CTRL, R.TC_WDT_LOAD, R.TC_WDT_CTRL, R.TC_WDT_KICK, R.TC_WDT_REMAIN, 
  R.TC_INBOX_BASE, R.TC_INBOX_IDX, R.TC_WIN_LO, R.TC_WIN_HI, R.TC_WIN_CTRL]

def regRowsAccA : List RegRow := [
  R.ACC_ENG_SEL, R.ACC_ENG_INFO, R.ACC_ENG_STATE, R.ACC_ENG_CTRL, R.ACC_ENG_CODE_CFG, R.ACC_ENG_JOBS, 
  R.ACC_ENG_ITER_LO, R.ACC_ENG_ITER_HI, R.ACC_ENG_ERR, R.ACC_ENG_ERR_TASK, R.ACC_ENG_STAT_CLR, 
  R.ACC_ENG_HARQ_SEL, R.ACC_ENG_HARQ_BASE_LO, R.ACC_ENG_HARQ_BASE_HI, R.ACC_ENG_HARQ_STRIDE, 
  R.ACC_ENG_HARQ_CFG, R.ACC_ENG_HARQ_WAITS, R.ACC_ENG_ITEMS_LO, R.ACC_ENG_ITEMS_HI, R.ACC_ENG_SAT_CNT, 
  R.ACC_ENG_MTX_CFG, R.ACC_ENG_ILL_CNT, R.ACC_ENG_PRACH_CFG, R.ACC_ENG_PRACH_DET]

def regRowsMemA : List RegRow := [
  R.ECC_GRP_SEL, R.ECC_GRP_STATUS, R.ECC_TBL_SEL, R.ECC_TBL_ADDR, R.ECC_TBL_INFO, R.ECC_TBL_CLR, R.ECC_TBL_OVF, 
  R.ECC_NODE_SEL, R.ECC_NODE_CORR_LO, R.ECC_NODE_CORR_HI, R.ECC_NODE_UNCORR_LO, R.ECC_NODE_UNCORR_HI, 
  R.ECC_NODE_FLAGS, R.ECC_CNT_CLR, R.ECC_BIST_CTRL, R.ECC_BIST_STATUS, R.ECC_BIST_LAPS, R.ECC_REPAIR_SEL, 
  R.ECC_REPAIR_INFO, R.SCRUB_CTRL, R.SCRUB_STATUS, R.SCRUB_LAP_NS, 
  R.SCRUB_LAP_LIMIT, R.SCRUB_LAPS, R.SCRUB_RANGE_START, R.SCRUB_RANGE_END, R.SCRUB_SUM_CHECKED, 
  R.SCRUB_SUM_CORRECTED, R.SCRUB_SUM_UNCORR, R.SCRUB_SUM_REBUILT, R.SCRUB_SUM_NS, R.HBM_STATUS, R.HBM_CTRL, 
  R.HBM_SCRUB_INTERVAL, R.HBM_SCRUB_LAP_MS, R.HBM_PC_SEL, R.HBM_PC_CTRL, R.HBM_PC_CORR, R.HBM_PC_UNCORR, 
  R.HBM_PC_TAG_FAIL, R.HBM_PC_DENIED, R.HBM_PC_STATUS, R.HBM_ERR_ADDR_LO, R.HBM_ERR_ADDR_HI, R.HBM_ERR_INFO, 
  R.CIPH_REGION_SEL, R.CIPH_REGION_BASE_LO, R.CIPH_REGION_BASE_HI, R.CIPH_REGION_LIMIT_LO, 
  R.CIPH_REGION_LIMIT_HI, R.CIPH_REGION_ALLOW_LO, R.CIPH_REGION_ALLOW_HI, R.CIPH_REGION_CTRL, R.CIPH_KEYS_LO, 
  R.CIPH_KEYS_HI, R.CIPH_STATUS]

def regRowsCfgA : List RegRow := [
  R.CFG_STATUS, R.CFG_FAIL, R.CFG_FAIL_POS, R.CFG_GOLDEN_BASE, R.CFG_LOCK, R.CFG_BASE_VERSION, 
  R.CFG_REPAIR_BASE_LO, R.CFG_REPAIR_BASE_HI, R.CFG_REPAIR_SIZE, R.CFG_SCRUB_CTRL, R.CFG_SCRUB_STATUS, 
  R.CFG_SCRUB_LAP_US, R.CFG_SCRUB_CORR, R.CFG_SCRUB_REPAIRED, R.CFG_SCRUB_LOST, R.CFG_LOST_ADDR, 
  R.PR_REGION_SEL, R.PR_REGION_STATE, R.PR_REGION_CTRL, R.PR_REGION_VERSION, R.PR_ISO_MODE, R.PR_LOADED_LO, 
  R.PR_LOADED_HI, R.PR_FAILED_LO, R.PR_FAILED_HI, R.PR_HOST_ADDR_LO, R.PR_HOST_ADDR_HI, R.PR_HOST_LEN, 
  R.PR_HOST_CTRL, R.BM_SEL, R.BM_INFO, R.BM_STATUS, R.BM_ECC_CNT, R.BM_COLL_SUM_LO, R.BM_COLL_SUM_HI, 
  R.BM_COLL_CLR, R.PR_FP_SEL, R.PR_FP_CTRL, R.PR_FP_KEYMASK_LO, R.PR_FP_KEYMASK_HI, R.PR_FP_STATUS, 
  R.PR_FP_COUNTS, R.CFG_CONT_INFO, R.CFG_IO_BANK_STATUS, R.CFG_IO_IN]

def regRowsSecA : List RegRow := [
  R.SEC_LIFECYCLE, R.SEC_FUSE_STATUS, R.SEC_ARB, R.SEC_DBG_STATUS, R.SEC_TAMPER, R.SEC_KEYRAM, R.SEC_LOCKS, 
  R.SEC_REQ_STATUS, R.FUSE_SERIAL_LO, R.FUSE_SERIAL_HI, R.FUSE_SPOILED]

def regRowsErrA : List RegRow := [
  R.ERR_CFG, R.ERR_STATUS, R.ERR_LOST, R.ERR_LOG_SEQ, R.ERR_Q_SEL, R.ERR_Q_STATUS, R.ERR_Q_SUPPR, R.ERR_Q_FWD]

def regRowsDbgA : List RegRow := [
  R.DBG_CTRL, R.DBG_STATUS, R.DBG_WDT_GRACE, R.DBG_WARM_KEY, R.DBG_CORE_SEL, R.DBG_CORE_CTRL, 
  R.DBG_CORE_STATUS, R.DBG_CORE_PC, R.DBG_CORE_GROUP, R.DBG_REG_SEL, R.DBG_REG_DATA, R.DBG_BP_ADDR, 
  R.DBG_BP_CTRL, R.DBG_WP_LO, R.DBG_WP_HI, R.DBG_WP_CTRL, R.TRC_CTRL, R.TRC_STATUS, R.TRC_RING_BASE_LO, 
  R.TRC_RING_BASE_HI, R.TRC_WPTR, R.TRC_DROPS, R.TRC_SRC_SEL, R.TRC_PORT_EN_LO, R.TRC_PORT_EN_HI, 
  R.TRC_BUF_ADDR, R.TRC_BUF_DATA]

/-- The rows of one 1 MiB block of R34. -/
def regBlock : Nat → List RegRow
  | 0 => regRowsDevA
  | 1 => regRowsMbxA
  | 2 => regRowsPwrA
  | 3 => regRowsClkA
  | 4 => regRowsTimeA
  | 5 => regRowsLanesA ++ regRowsLanesB
  | 6 => regRowsNocA
  | 7 => regRowsTskA
  | 8 => regRowsTahrA
  | 9 => regRowsAccA
  | 10 => regRowsMemA
  | 11 => regRowsCfgA
  | 12 => regRowsSecA
  | 13 => regRowsErrA
  | 14 => regRowsDbgA
  | _ => []

/-- The row that holds register-space byte offset `off`, with the array element it names (R34, R62). -/
def regLookup (off : Nat) : Option (RegRow × Nat) :=
  if off / 0x100000 = 1 ∧ off % 0x10000 < 0x1000 then
    if (off / 0x10000) % 16 < 8 then
      if off % 0x1000 < 0x800 then some (R.MBX_REQ_RING, (off / 0x10000) % 8 * 512 + off % 0x800 / 4)
      else some (R.MBX_RSP_RING, (off / 0x10000) % 8 * 512 + off % 0x800 / 4)
    else none
  else
    ((regBlock (off / 0x100000)).find? (fun r => r.hit off)).map (fun r => (r, (off - r.off) / r.stride))

/-- Nominal frequency in kHz of a monitored source (R405, R407); 0 where its monitor resets disabled. -/
def monNominalKhz (src : Nat) : Nat :=
  match src with
  | 0 => 25000 | 1 => 33 | 40 => 1000000 | 41 => 750000 | 42 => 1600000 | 43 => 1250000 | 44 => 500000
  | _ => 0

/-- Reset of CLK_LOOP_CFG per loop (R407): REFDIV, FBDIV, OUTDIV. DESIGN CHOICE for fabric and lane loops, whose
FBDIV and OUTDIV the spec does not give: REFDIV 1, the rest 0 (log 7). -/
def loopCfgReset (l : Nat) : Nat :=
  match l with
  | 0 => 1 + 240 * 2 ^ 8 + 6 * 2 ^ 24 | 1 => 1 + 240 * 2 ^ 8 + 8 * 2 ^ 24 | 2 => 1 + 256 * 2 ^ 8 + 4 * 2 ^ 24
  | 3 => 1 + 250 * 2 ^ 8 + 5 * 2 ^ 24 | 4 => 1 + 200 * 2 ^ 8 + 10 * 2 ^ 24
  | _ => 1

/-- Reset of CLK_MON_CFG per source: EXP_KHZ and TOL 4. DESIGN CHOICE where the nominal frequency does not fit
EXP_KHZ's 18 bits or is no whole number of kHz (log 8). -/
def monCfgReset (src : Nat) : Nat := min (monNominalKhz src) 0x3FFFF + 4 * 2 ^ 24

/-- Engine type of engine i of a quadrant (R232, R257). -/
def engineType (e : Nat) : Nat :=
  let i := e % 26
  if i ≤ 3 then 0 else if i ≤ 5 then 1 else if i ≤ 7 then 2 else if i ≤ 9 then 3 else if i ≤ 12 then 4
  else if i ≤ 20 then 5 else if i ≤ 24 then 6 else 7

/-- Buffer size in KiB by engine type (R232). -/
def engineBufKib (t : Nat) : Nat :=
  match t with
  | 0 => 512 | 1 => 256 | 2 => 384 | 3 => 128 | 4 => 512 | 5 => 128 | 6 => 384 | _ => 512

/-- Reset value of instance `i` of a register: the map table's, or the value the spec gives that instance. -/
def resetOf (r : RegRow) (i : Nat) : Nat :=
  if r.off = R.CLK_LOOP_CFG.off then loopCfgReset i
  else if r.off = R.CLK_LOOP_CTRL.off then (if 5 ≤ i ∧ i ≤ 20 then 2 else 3)
  else if r.off = R.CLK_MUX_CTRL.off then (if 21 ≤ i ∧ i ≤ 36 then 12 else 0)
  else if r.off = R.CLK_MUX_STATUS.off then (if 21 ≤ i ∧ i ≤ 36 then 12 else 0)
  else if r.off = R.CLK_MON_CFG.off then monCfgReset i
  else if r.off = R.ACC_ENG_INFO.off then engineType i + engineBufKib (engineType i) * 2 ^ 8
  else r.reset

end Sys2Proof.Machine
end

