-- ==== Sys2Proof/Machine/SMap.lean ====
section
/-! DEFINITION. Sparse maps in one canonical form: keys strictly rising, and no entry equal to what an unlisted key
reads as. Memory, the register file and every indexed family of state (cores, tasks, engines) are held so, and so
equal contents are equal data. -/

namespace Sys2Proof.Machine

/-- A sparse map from keys to values. -/
abbrev SMap (α : Type) := List (Nat × α)

/-- The value at key `k`; an unlisted key reads as `d`. -/
def SMap.get {α : Type} (m : SMap α) (d : α) (k : Nat) : α :=
  match m with
  | [] => d
  | (j, v) :: r => if j = k then v else SMap.get r d k

/-- `m` without key `k`. -/
def SMap.drop {α : Type} (m : SMap α) (k : Nat) : SMap α :=
  match m with
  | [] => []
  | (j, v) :: r => if j = k then SMap.drop r k else (j, v) :: SMap.drop r k

/-- `m` with an entry for `k` before the first larger key. -/
def SMap.ins {α : Type} (m : SMap α) (k : Nat) (v : α) : SMap α :=
  match m with
  | [] => [(k, v)]
  | (j, w) :: r => if k < j then (k, v) :: (j, w) :: r else (j, w) :: SMap.ins r k v

/-- `m` with `v` at key `k`, in canonical form: no entry where `v` is what an unlisted key reads as. -/
def SMap.set {α : Type} [DecidableEq α] (m : SMap α) (d : α) (k : Nat) (v : α) : SMap α :=
  if v = d then SMap.drop m k else SMap.ins (SMap.drop m k) k v

/-- Every key of `m` is above `lo`, the keys rise strictly, and no entry equals `d`. -/
def SMap.above {α : Type} [DecidableEq α] (m : SMap α) (d : α) (lo : Option Nat) : Bool :=
  match m with
  | [] => true
  | (j, w) :: r => (match lo with | none => true | some l => decide (l < j)) && decide (w ≠ d) &&
      SMap.above r d (some j)

/-- The keys rise strictly from above `lo`. -/
def SMap.risesFrom {α : Type} (m : SMap α) (lo : Option Nat) : Bool :=
  match m with
  | [] => true
  | (j, _) :: r => (match lo with | none => true | some l => decide (l < j)) && SMap.risesFrom r (some j)

/-- The keys rise strictly. -/
def SMap.rises {α : Type} (m : SMap α) : Bool := SMap.risesFrom m none

/-- The canonical form. -/
def SMap.wf {α : Type} [DecidableEq α] (m : SMap α) (d : α) : Bool := SMap.above m d none

end Sys2Proof.Machine
end

