-- ==== Sys2Proof/Machine/State.lean ====
section
/-! DEFINITION. The state of the EM9256 block: every register (R12 to R18), every memory, FIFO, table, queue and mode
the spec gives it, as plain data, and the queue of waiting commands. Software-visible registers live in `regs`,
keyed by register and instance; an unlisted register holds its reset value. Indexed families are sparse maps, an
unlisted member being in its reset condition. -/

namespace Sys2Proof.Machine

/-! ### Chamois mailboxes -/

/-- A command firmware has taken and not yet answered (R42); `discard` after a mailbox reset (R46). -/
structure Taken where
  /-- its number since the last reset -/
  id : Nat
  box : Fin 8
  op : Nat
  msg : Msg
  discard : Bool
  deriving DecidableEq, Repr

/-- A response waiting for a free response slot (R43): its mailbox and its 16 words. -/
structure WaitingRsp where
  box : Fin 8
  words : List Word
  deriving DecidableEq, Repr

/-- What firmware holds of the mailboxes beside their registers. -/
structure Mbx where
  started : List Taken := []
  /-- commands taken since the last reset -/
  taken : Nat := 0
  rspWait : List WaitingRsp := []
  /-- mailboxes whose one notification is spent (R60) -/
  notified : SMap Bool := []
  /-- the mailbox served last, for the round robin of R44 -/
  turn : Nat := 7
  /-- NS64 before which the Chamois watchdog does not expire: the end of its grace after a RESUME of Chamois (R471) -/
  fwWait : Nat := 0
  deriving DecidableEq, Repr

/-! ### Device time -/

/-- A transmit stamp in a MAC's FIFO (R82). -/
structure Stamp where
  id : BitVec 16
  sec : Nat
  ns : Nat
  sub : BitVec 5
  valid : Bool
  deriving DecidableEq, Repr

/-- The time unit (R66 to R94) beside its registers. -/
structure TimeUnit where
  /-- ToD: 48-bit seconds, nanoseconds, 32-bit fraction (R67) -/
  sec : Nat := 0
  ns : Nat := 0
  frac : Nat := 0
  /-- NS64 and its 24-bit fraction (R69) -/
  ns64 : Nat := 0
  nsFrac : Nat := 0
  /-- the addend in use, in 2^-32 ns (R68), and the increment in use, in 2^-24 ns (R69) -/
  addend : Nat := 2 * 2 ^ 32
  incr : Nat := 2 * 2 ^ 24
  /-- a committing write waits for the next tick -/
  addendStaged : Bool := false
  incrStaged : Bool := false
  fallbackStaged : Bool := false
  /-- NS_FALLBACK_OFF in use, modulo 2^64 (R70) -/
  fallback : Nat := 0
  /-- the last tick was a ToD second boundary (R67); it was one of the time in use (R85) -/
  carried : Bool := false
  bound : Bool := false
  /-- NS64 of the last jump of the time in use (R74, R85, R94), plus 1 -/
  jumpAt : Nat := 0
  /-- the armed step: seconds (48-bit two's complement), nanoseconds (32-bit), NS64 of the arm (R75) -/
  stepSec : Nat := 0
  stepNs : Nat := 0
  stepArmed : Nat := 0
  /-- ToD seconds at the boundary at which it applies -/
  stepBoundary : Nat := 0
  /-- the servo belongs to the host (R88) -/
  hostServo : Bool := false
  /-- committed comparator targets (R73) and armed comparators -/
  cmpTgt : SMap Nat := []
  cmpArmed : SMap Bool := []
  /-- per slot timer: the time in use at which its next slot starts, plus 1, and a resync is due (R93, R94) -/
  slotNext : SMap Nat := []
  slotResync : SMap Bool := []
  /-- per PPS_IN: the last accepted edge in 1/32 ns of NS64, plus 1 (R84) -/
  ppsInLast : SMap Nat := []
  /-- per PPS_OUT: pulses scheduled or running: NS64 at their start and end (R85) -/
  ppsRun : SMap (List (Nat × Nat)) := []
  /-- per PPS_OUT: its next event, and an armed step's boundary, have been pulsed ahead of time (R85) -/
  ppsEarly : SMap Bool := []
  ppsStepEarly : SMap Bool := []
  /-- per PPS_OUT: pulses emitted, newest first: NS64 of the tick that scheduled one, and its start from there in 1/32 ns -/
  ppsPulses : SMap (List (Nat × Int)) := []
  /-- per MAC: the transmit stamp FIFO (R82) -/
  txFifo : SMap (List Stamp) := []
  /-- per MAC: the PTP profile TIME_PROFILE chose (R87) -/
  profile : SMap Nat := []
  deriving DecidableEq, Repr

/-! ### Lanes and links -/

/-- A radio unit of the discovery table (R110). -/
structure RuEntry where
  used : Bool := false
  mac : BitVec 48 := 0
  vlan : BitVec 12 := 0
  owner : Nat := 0
  last : Nat := 0
  deriving DecidableEq, Repr

/-- A flow of the discovery table (R110); its destination is in the FH_FLOW_ registers. -/
structure FlowEntry where
  used : Bool := false
  ru : Nat := 0
  eaxc : BitVec 16 := 0
  owner : Nat := 0
  last : Nat := 0
  /-- the sequence ID of the next frame sent (R114) -/
  seq : Nat := 0
  deriving DecidableEq, Repr

/-- A chassis link engine beside its registers (R120 to R126). -/
structure Chl where
  /-- versions removed under R123, bit v - 1 -/
  removed : BitVec 4 := 0
  /-- versions whose equaliser settings are stored (R122) -/
  stored : BitVec 4 := 0
  /-- versions the partner has offered since VERSION_MASK was last restored (R123) -/
  offered : BitVec 4 := 0
  /-- lanes in use, and the version at which the link was last up -/
  lanes : Nat := 0
  lastVer : Nat := 0
  /-- NS64 of recent drops at the current version, newest first (R123) -/
  drops : List Nat := []
  /-- requests forwarded to the remote device and awaiting a response -/
  fwd : List Packet := []
  /-- packets that wait to be sent over the link, oldest first -/
  queued : List Packet := []
  /-- requests of the remote device that await a response, with the tag the engine injected each under -/
  owed : List (Packet × BitVec 10) := []
  /-- per VC: units sent for which the remote device has not returned a credit (R121) -/
  spent : SMap Nat := []
  /-- NS64 of the last retry under R123, plus 1 -/
  lastRetry : Nat := 0
  /-- a LANE_CHL_NEGOTIATE awaits UP: mailbox and message (R125) -/
  waiting : Option Taken := none
  /-- NS64 of its start -/
  waitStart : Nat := 0
  deriving DecidableEq, Repr

/-- A PCIe partner's read in the device: function, byte offset in the first unit, and length (R117). -/
structure HostRead where
  fn : Nat
  off : Nat
  len : Nat
  deriving DecidableEq, Repr

/-- A received frame that waits to be written: its ring, the receiving endpoint, its bytes, the key index MACsec gives it,
word 2 beyond LEN and TRUNC, and its stamp in 1/32 ns (R106). -/
structure RxHeld where
  ring : RingKind
  idx : Nat
  ep : Nat
  frame : List Nat
  key : Option Nat
  info : Nat
  stamp : Nat
  deriving DecidableEq, Repr

/-- The lanes and protocol engines beside their registers. -/
structure Links where
  /-- discovery table (R110) -/
  rus : SMap RuEntry := []
  flows : SMap FlowEntry := []
  chl : SMap Chl := []
  /-- per framer: basic frames since the last radio frame boundary (R116) -/
  cpriFrame : SMap Nat := []
  /-- per engine interrupt: NS64 of the last ring message, plus 1 (R102) -/
  ringIrq : SMap Nat := []
  /-- rings stopped by a failed descriptor access (R102) -/
  ringStop : SMap Bool := []
  /-- per MAC: lanes LANE_CONFIG gave it (R103) -/
  macLanes : SMap Nat := []
  /-- per lane and tap (32 × lane + tap): equaliser taps (R97) -/
  taps : SMap (BitVec 8) := []
  /-- per lane: skew the PCS measured against the MAC's lowest lane, in 1/32 ns (R80) -/
  laneSkew : SMap Int := []
  /-- per ring: descriptors still to be finished with status 3 (R105, R119) -/
  aborts : SMap Nat := []
  /-- per controller and tag (1024 × controller + tag): reads a PCIe partner awaits -/
  hostReads : SMap (Option HostRead) := []
  /-- per controller: the tag its next request takes -/
  hostTag : SMap Nat := []
  /-- received frames that wait for their buffer's domain, oldest first (R106, R387) -/
  rxHeld : List RxHeld := []
  deriving DecidableEq, Repr

/-! ### The Antler network -/

/-- A request awaiting its response (R146): tag, command, reserved units, NS64 of injection. -/
structure Outst where
  tag : BitVec 10
  cmd : BitVec 4
  units : Nat
  at64 : Nat
  deriving DecidableEq, Repr

/-- A direction out of a router, or into one: its five ports in a plane (R129). -/
inductive Dir where
  | localPort | north | east | south | west
  deriving DecidableEq, Repr

/-- Where units of a packet are buffered: an input port of a router, or the die-to-die bridge east (`port = .west`) or west
(`port = .east`) of router (x, y) (R140, R143). -/
structure Hop where
  x : Nat
  y : Nat
  port : Dir
  bridge : Bool
  /-- units of the packet held here -/
  units : Nat
  /-- when its header entered, in moves of the network: what entered first leaves first -/
  since : Nat
  deriving DecidableEq, Repr

/-- A packet in a plane of the network, stretched over the buffers its units are in (R140). -/
structure Worm where
  pkt : Packet
  plane : Bool := false
  /-- an error response the initiator's own injection interface generated (R138) -/
  own : Bool := false
  /-- units the initiator has yet to inject -/
  left : Nat := 0
  /-- buffers that hold its units, the header's first -/
  path : List Hop := []
  /-- units handed to the endpoint -/
  out : Nat := 0
  /-- a request its target's local port had parked: none arrives before one parked ahead of it (R387) -/
  parked : Bool := false
  deriving DecidableEq, Repr

/-- Antler: packets between injection and arrival, per-initiator reservations, regulators and waiting packets. -/
structure Net where
  /-- packets in the network, oldest injection first -/
  flight : List Worm := []
  /-- per output port and VC (R140): the input port served last, and units it has been passed over for -/
  served : SMap Nat := []
  passed : SMap Nat := []
  /-- moves of the network so far -/
  moves : Nat := 0
  /-- per initiator (endpoint ID): outstanding requests -/
  outst : SMap (List Outst) := []
  /-- per initiator: packets held at the injection interface -/
  wait : SMap (List Packet) := []
  /-- per initiator and VC (2 × endpoint + VC): tokens below BURST in the bucket (R147); more than BURST where a command the model
  performs whole took what later refills give (log 37), with NS64 plus 1 of the last such command -/
  spent : SMap Nat := []
  drewAt : SMap Nat := []
  /-- per initiator: the plane the next adaptive packet takes on a tie (R141) -/
  plane : SMap Bool := []
  /-- NS64 div 250 of the last refill -/
  refills : Nat := 0
  /-- responses that arrived at an initiator and were consumed, newest first (R146) -/
  arrived : List Packet := []
  deriving DecidableEq, Repr

/-! ### On-chip and packaged memory -/

/-- A node of the counter tree (R286). Its two copies agree but while `stale` holds at a node that is not a leaf: it is being
rebuilt, reads as the copy whose parity holds or as 0, and takes no increment (R287). -/
structure Node where
  corr : Nat := 0
  uncorr : Nat := 0
  stale : Bool := false
  partialCnt : Bool := false
  deriving DecidableEq, Repr

/-- An entry of a group's table of corrected words (R285). -/
structure TblEntry where
  word : Nat
  syn : BitVec 9
  rebuilt : Bool
  count : Nat
  deriving DecidableEq, Repr

/-- A port-A access to a scratchpad word in the step of a core whose bundle is open: the core, its step, the word, what the word held
before, and of a store the bytes it wrote and their poison (R277). -/
structure PortA where
  core : Nat
  step : Nat
  word : Nat
  old : DataUnit
  store : Option (Nat × Bool) := none
  deriving DecidableEq, Repr

/-- A repair-log entry (R292). -/
structure Repair where
  word : Nat
  spare : Nat
  source : Nat
  deriving DecidableEq, Repr

/-- One memory group's scrubber, range pass and background test (R289 to R292). -/
structure Grp where
  tbl : List TblEntry := []
  /-- next word of the lap, as an index into the group's words -/
  lapPos : Nat := 0
  lapNs : Nat := 0
  /-- NS64 up to which the lap's time is counted, plus 1; 0 while it is not counted -/
  lapAt : Nat := 1
  /-- NS64 of the scrubber's last read, plus 1 -/
  lastRead : Nat := 0
  rangePos : Nat := 0
  rangeStart : Nat := 0
  /-- ns of the range pass before the reset that set NS64 to 0 -/
  rangeNs : Nat := 0
  /-- the next block the background test takes, as an index into the group's rows -/
  bistPos : Nat := 0
  /-- the block in the shadow, by its first word offset; its accesses are served from the shadow (R291), which holds
  the block's current words, so `Store.bytes` goes on giving them -/
  shadow : Option Nat := none
  /-- NS64 at which the last block's test ended, plus 1 -/
  bistEnd : Nat := 0
  repairs : List Repair := []
  /-- per bank: spare rows used or retired, 0 to 4 -/
  spares : SMap Nat := []
  /-- the repair map: per row, by its first word offset, the spare of its bank that serves it, plus 1 (R291, R292) -/
  rowMap : SMap Nat := []
  /-- port-A accesses of the steps in progress (R277) -/
  portA : List PortA := []
  deriving DecidableEq, Repr

/-- One line of packaged memory (R297): the key index, pair and tweak base it was tagged under, and where its 72 stored symbols
differ from the codeword of that write: 0 to 63 the data bytes, 64 to 66 TAG, 67 to 71 CHECK. Stored poison is a difference of
0xFF in every check symbol (R299); an upset is any other. An unlisted line is as the fill of R312 left it. -/
structure Line where
  key : Nat := 0
  pair : BitVec 512 := 0
  base : Nat := 0
  err : SMap Byte := []
  deriving DecidableEq, Repr

/-- The storage of the device. -/
structure Store where
  /-- every byte of on-chip and packaged memory, by storage address; packaged memory as stored (R300) -/
  bytes : SMap Byte := []
  /-- on-chip words stored as poison (R280), by storage address / 16 -/
  poison : SMap Bool := []
  /-- on-chip words struck by an upset -/
  damage : SMap (Option Damage) := []
  /-- packaged-memory lines, by address / 64 -/
  lines : SMap Line := []
  /-- draws of the device integrity key so far: one at every POR, PIN and wake from HIBERNATE (R298) -/
  fills : Nat := 0
  grps : SMap Grp := []
  nodes : SMap Node := []
  /-- packaged-memory key slots (R301): slot k holds a pair -/
  keys : SMap (Option (BitVec 512)) := []
  /-- pseudo-channels with an uncorrected interface fault (R313) -/
  pcFault : SMap Bool := []
  /-- per pseudo-channel: next line of the scrub lap, NS64 of the last line read plus 1, NS64 of the lap's start, and
  the length of its last lap in ms (R314) -/
  pcScrub : SMap Nat := []
  pcScrubAt : SMap Nat := []
  pcLapStart : SMap Nat := []
  pcLapMs : SMap Nat := []
  deriving DecidableEq, Repr

/-! ### Errors -/

/-- A log entry (R454); collector entries have SEQ 0. `closed` is the place in the order of closing, from 1. -/
structure Entry where
  code : Nat
  sev : Nat
  tgt : Bool := false
  injected : Bool := false
  source : Nat
  detail : Nat := 0
  rep : Nat := 1
  addr : Option Nat := none
  first : Nat := 0
  last : Nat := 0
  req : Option (Nat × Nat) := none
  seq : Nat := 0
  closed : Nat := 0
  deriving DecidableEq, Repr

/-- The collector path (R453). -/
structure Errors where
  /-- cluster-level stages: 0-31 clusters, 32-47 accelerator groups, 48-111 regions, 112-175 lane quads -/
  stages : SMap (List Entry) := []
  /-- quadrant collectors -/
  colls : SMap (List Entry) := []
  /-- the device log, oldest first -/
  log : List Entry := []
  next : Nat := 0
  /-- closings seen, per collector -/
  closings : SMap Nat := []
  /-- per collector: NS64 of the last forwarding, plus 1 -/
  lastFwd : SMap Nat := []
  deriving DecidableEq, Repr

/-! ### Outputs -/

/-- A PCIe request sent (R118): controller, kind as DIR codes it (0 memory write, 1 memory read, 2 configuration write, 3
configuration read), address, bytes to read, poison and payload. -/
structure PcieSent where
  ctrl : Nat
  kind : Nat
  addr : Nat
  len : Nat
  poison : Bool
  data : List Byte
  deriving DecidableEq, Repr

/-- What the device has sent to the outside, newest first. -/
structure Out where
  /-- MSI-X messages: PCIe function and vector (R58) -/
  msix : List (Nat × Nat) := []
  /-- responses and error codes returned to register accessors (R13) -/
  regRsp : List (Nat × Nat) := []
  /-- Ethernet frames sent: MAC and bytes -/
  frames : List (Nat × List Byte) := []
  /-- CPRI samples inserted: framer, container, I and Q -/
  cpriSent : List (Nat × Nat × Nat × Nat) := []
  /-- PCIe requests sent, newest first -/
  pcie : List PcieSent := []
  /-- packets sent over chassis links: engine and packet -/
  chlSent : List (Nat × Packet) := []
  /-- completions returned to PCIe requesters: controller, function, bytes (none: error) -/
  pcieCpl : List (Nat × Nat × Option (List Byte)) := []
  deriving DecidableEq, Repr

/-! ### Power -/

/-- A power-down of a domain from its request to its end (R385, R386). -/
structure Down where
  /-- action 2: requests are denied from FENCE on -/
  deny : Bool := false
  /-- OFF leaves the domain locked: action 2, or a lane quad the governor sheds -/
  lock : Bool := false
  /-- the entry of a device state, or NAP's return to it -/
  entry : Bool := false
  /-- the POWER_DOMAIN command to answer -/
  cmd : Option Taken := none
  /-- once off the domain powers on again: action 0 came past the point of no return (R389) -/
  on : Bool := false
  attempts : Nat := 0
  /-- NS64 of the attempt's start -/
  start : Nat := 0
  /-- NS64 of the last attempt's failure, while the next one is awaited -/
  failed : Option Nat := none
  deriving DecidableEq, Repr

/-- A POWER_STATE under way, or the state it led to (R390, R391). -/
structure DevState where
  /-- 1 DOZE, 2 NAP, 3 HIBERNATE -/
  target : Nat
  wakes : Nat
  lanes : Nat
  cmd : Option Taken
  /-- NS64 of the drain's start -/
  start : Nat
  /-- answered with OK -/
  answered : Bool := false
  /-- domains still to be powered down, and those that were on before entry -/
  todo : List Nat := []
  restore : List Nat := []
  /-- NS64 at which the entry window opened -/
  window : Option Nat := none
  entered : Bool := false
  /-- a latched wake: its source -/
  wake : Option Nat := none
  deriving DecidableEq, Repr

/-- The governor beside its registers (R398 to R403). -/
structure Gov where
  /-- the last 10 values of P in mW, newest first -/
  samples : List Nat := []
  /-- the last period processed: NS64 / 10,000 -/
  period : Nat := 0
  /-- consecutive periods below 0.95 of the budget -/
  under : Nat := 0
  /-- lane quads shed, newest first -/
  shed : List Nat := []
  /-- per quadrant: the last acknowledged setting, and the AVSBus commands since with their NS64, oldest first -/
  avs : SMap (Option (Nat × List (Nat × Nat))) := []
  /-- droop sensors whose rail sags, quadrants whose fabric clocks are stretched, NS64 of their last sag's end -/
  sags : SMap Bool := []
  stretch : SMap Bool := []
  sagEnd : SMap Nat := []
  /-- THERM_TRIP_N is asserted -/
  trip : Bool := false
  deriving DecidableEq, Repr

/-- The power domains and device states beside their registers (R382 to R403). -/
structure Power where
  /-- per domain: requests parked at its routers, oldest first (R387) -/
  parked : SMap (List Packet) := []
  /-- per domain: requests of the device's own engines that it has parked: endpoint and initiator (R387) -/
  asked : SMap (List (Nat × Nat)) := []
  /-- per domain: NS64 of the first demand on a waking domain, plus 1 -/
  wakeAt : SMap Nat := []
  /-- per domain: NS64 of the last access, plus 1 -/
  access : SMap Nat := []
  downs : SMap (Option Down) := []
  /-- POWER_DOMAIN commands that await ON -/
  ups : SMap (Option Taken) := []
  /-- the dispatchers hold dispatch for a device state (R390, R391) -/
  hold : Bool := false
  dev : Option DevState := none
  /-- WAKE_0 to WAKE_3 active on level-sensitive pins (bits 0 to 3), and a PCIe request not yet taken (bit 4) -/
  pins : Nat := 0
  /-- after a third failed wake only an active level-sensitive WAKE pin or RESET_N is accepted (R397) -/
  stuck : Bool := false
  /-- cycles left of the 32.768 kHz crystal's stable count (R405) -/
  settle : Nat := 4096
  /-- the RTC alarm has fired since it was last written (R396) -/
  alarmDone : Bool := false
  /-- VBAT has been lost, and may be absent since (R395) -/
  vbatGone : Bool := false
  /-- HBM_PWR_EN, which Mitten holds (R488) -/
  hbmPwr : Bool := false
  gov : Gov := {}
  deriving DecidableEq, Repr

/-! ### Clocks -/

/-- The clock plan beside its registers (R405 to R415). -/
structure Clk where
  /-- per loop: CLK_LOOP_CFG and CLK_LOOP_FRAC in use; none: the reset settings -/
  used : SMap (Option (Nat × Nat)) := []
  /-- loops that do not acquire: coasting, waiting for AUTO or RELOCK -/
  idle : SMap Bool := []
  /-- TIME_LOOP has locked: the time unit's clock runs (R410) -/
  timeUp : Bool := false
  /-- SYS_LOOP_3 has locked: the protocol engines' domain is released -/
  engUp : Bool := false
  /-- per monitored source: NS64 since which it is GOOD, plus 1 -/
  good : SMap Nat := []
  /-- per monitored source: NS64 at which it last stopped -/
  stopAt : SMap Nat := []
  /-- per mux: NS64 at which a pending switch started, plus 1, and step 1 is done (R413) -/
  muxAt : SMap Nat := []
  muxLow : SMap Bool := []
  /-- register blocks whose clock is gated (R415) -/
  gated : SMap Bool := []
  /-- fabric loops that keep their nets low until they lock (R411), and those whose outputs are stopped in DOZE (R416) -/
  low : SMap Bool := []
  parked : SMap Bool := []
  deriving DecidableEq, Repr

/-! ### Dispatchers -/

/-- The states of a taken descriptor (R155). -/
inductive TaskState where
  | slotWait | delayed | depWait | ready | running
  deriving DecidableEq, Repr

/-- A pool entry (R155): the descriptor with what its variant replaced (R162), its resolved times and its history. -/
structure Task where
  /-- place in taking order -/
  handle : Nat
  d : BitVec 512
  st : TaskState
  release : Nat := 0
  deadline : Nat := 0
  /-- release and deadline are resolved: not a task still in SLOT_WAIT (R156) -/
  fixed : Bool := true
  count : Nat := 0
  /-- place in the order of becoming READY -/
  readyAt : Nat := 0
  /-- fetched variants not yet taken, nearest first -/
  vars : List (BitVec 512) := []
  /-- address of the variant whose fetch waits for a pool entry or a response -/
  want : Option Nat := none
  /-- tag of the fetch's READ, once sent -/
  fetch : Option (BitVec 10) := none
  /-- pool entries its variants hold -/
  held : Nat := 0
  /-- the variant at the end of its chain could not be had (R162) -/
  dead : Bool := false
  /-- replacements made (R161) -/
  depth : Nat := 0
  risk : Bool := false
  preempted : Bool := false
  /-- dispatched by preemption onto a core that held a lower task -/
  upper : Bool := false
  elem : Nat := 0
  at64 : Nat := 0
  deriving DecidableEq, Repr

/-- How a register write came: the endpoint that posted it, if it was posted, and the accessor to answer, if one waits. -/
structure WriteVia where
  poster : Option Nat := none
  answer : Option Accessor := none
  deriving DecidableEq, Repr

/-- A TSK_SUBMIT_GO write held unanswered while the pool is full (R154). A SUBMIT packet waits in the network instead
(R145). -/
structure Waiting where
  d : BitVec 512
  via : WriteVia
  deriving DecidableEq, Repr

/-- A completion entry being written (R169): queue, tag, written. -/
structure CqWrite where
  queue : Nat
  tag : BitVec 10
  done : Bool
  deriving DecidableEq, Repr

/-- A report on a task link (R150): the task's end with STATUS and DETAIL of R168. -/
structure EndReport where
  handle : Nat
  status : Nat
  detail : Nat
  deriving DecidableEq, Repr

/-- The dispatcher of one quadrant beside its registers. Elements are numbered within the quadrant: 0-63 cores, 64 + i
engine i. -/
structure Disp where
  /-- pool entries in taking order -/
  pool : List Task := []
  nextHandle : Nat := 0
  nextReady : Nat := 0
  /-- per slot timer: COUNT, NS64 and resync flag of the last slot-start event (R94, R156) -/
  slots : SMap (Option (Nat × Nat × Bool)) := []
  /-- NS64 of the last tick processed, plus 1 -/
  lastTick : Nat := 0
  /-- held signals (R158) -/
  pend : List Nat := []
  /-- tasks the last decision pass held (R160) -/
  holding : List Nat := []
  /-- an element has become free outside a dispatcher's own work: a decision pass is due (R160) -/
  due : Bool := false
  ingress : List Waiting := []
  /-- descriptors on the task links: element and handle -/
  sent : List (Nat × Nat) := []
  /-- reports on the task links -/
  ends : List EndReport := []
  /-- signals on their way here from other dispatchers -/
  signals : List Nat := []
  /-- pending preemptions: core, handle of the new task, NS64 of the interrupt -/
  preempt : List (Nat × Nat × Nat) := []
  /-- completion buffer (R170): queue and entry -/
  cbuf : List (Nat × BitVec 256) := []
  writes : List CqWrite := []
  /-- per queue: NS64 of the last MSI-X message, plus 1 -/
  cqIrq : SMap Nat := []
  deriving DecidableEq, Repr

/-! ### Tahr cores -/

/-- A fixed-latency result in flight (R185): the bits it writes of one register, as a value or as a sum in lanes of
`add` bits, the step at which it can be read, and its rank under R187. -/
structure Flight where
  reg : Nat
  val : Nat
  mask : Nat
  add : Nat := 0
  poison : Bool := false
  /-- sets OVF -/
  ovf : Bool := false
  /-- core-local address of a load -/
  load : Option Nat := none
  due : Nat
  issued : Nat
  rank : Nat
  deriving DecidableEq, Repr

/-- What an outstanding access of a core waits for (R188, R194, R230). -/
inductive AccKind where
  /-- data for a register; the lane for a 32-bit load -/
  | load (reg : Nat) (lane : Option Nat)
  /-- the result of an ATOM on the cluster's scratchpad, with its lane -/
  | reserve (reg : Nat) (lane : Option Nat)
  /-- the old value of an ATOM through a window -/
  | atom (reg : Nat)
  /-- a store's response -/
  | store
  /-- the answer to a SUBMIT -/
  | submit (reg : Nat)
  deriving DecidableEq, Repr

/-- An outstanding access: by tag through Antler, or with the unit already read through port A or the control page. -/
structure Access where
  kind : AccKind
  addr : Nat
  tag : Option (BitVec 10)
  unit : DataUnit := ⟨0, false⟩
  deriving DecidableEq, Repr

/-- A branch in its delay slots (R185). -/
structure Branch where
  /-- where issue goes after them; none for a branch that is not performed (R227) -/
  target : Option Nat
  left : Nat
  /-- STAT[23:0] that a RET.I restores, read at its issue (R201, R215) -/
  stat : Option Nat
  deriving DecidableEq, Repr

/-- A task a core holds: its pool handle and descriptor. -/
structure Held where
  handle : Nat
  d : BitVec 512
  deriving DecidableEq, Repr

/-- A Tahr core beside its TC registers (R180). -/
structure Core where
  /-- registers by the numbers of R226, ACC_n at 0x60 + n; PRED_0 and STEP have no entry -/
  r : SMap (BitVec 384) := []
  pz : SMap Bool := []
  step : Nat := 0
  pc : Nat := 0
  /-- next slot of the bundle being issued: 1 X, 2 Y, 3 MAC, 4 control/vector; 0 between bundles -/
  slot : Nat := 0
  bundle : BitVec 128 := 0
  br : Option Branch := none
  /-- address after a LOOP of count 0 -/
  skip : Option Nat := none
  flight : List Flight := []
  accesses : List Access := []
  /-- stores to P: address, bundle before, step (R178) -/
  pOld : List (Nat × BitVec 128 × Nat) := []
  /-- a delivered task not yet started -/
  arrived : Option Held := none
  task : Option Held := none
  lower : Option Held := none
  resume : Nat := 0
  /-- NS64 of the watchdog's expiry; its remaining time while frozen -/
  wdt : Option Nat := none
  frozen : Option Nat := none
  /-- armed timer target -/
  timer : Option Nat := none
  /-- a halt is requested: CAUSE and UNIT (R465) -/
  haltReq : Option (Nat × Nat) := none
  /-- one bundle may issue under STEP -/
  stepping : Bool := false
  /-- the breakpoints of the next bundle have acted (R468) -/
  bpDone : Bool := false
  deriving DecidableEq, Repr

/-! ### Trace -/

/-- The trace controller beside its registers (R474 to R477). Sources are 0-255 cores, 256 the fabric channel, 257
Chamois, 258 the controller itself. -/
structure Trace where
  queues : SMap (List (BitVec 128)) := []
  /-- packets dropped since the source's last accepted one -/
  drops : SMap Nat := []
  /-- the source drained last -/
  turn : Nat := 258
  /-- whole seconds of NS64 reported -/
  secs : Nat := 0
  /-- packets written since the trace was enabled -/
  since : Nat := 0
  /-- packets drained and not yet a whole line or frame -/
  partly : List (BitVec 128) := []
  deriving DecidableEq, Repr

/-- The debug logic beside its registers (R465 to R473). Agents are 0-255 cores, 256 Chamois, 257 Gauntlet. -/
structure Dbg where
  /-- halts that have not yet reached the agent's group (R469) -/
  fresh : SMap Bool := []
  /-- NS64 of the first write of a DBG_WARM_KEY pair (R473) -/
  key : Option Nat := none
  deriving DecidableEq, Repr

/-! ### Engines -/

/-- Where an engine's job stands (R234 to R236, R252): read and checked, waiting for its lock, all but its end done. -/
inductive EngPhase where
  | idle | ready | lockWait | done
  deriving DecidableEq, Repr

/-- An engine beside its registers. -/
structure Eng where
  task : Option Held := none
  job : BitVec 512 := 0
  phase : EngPhase := .idle
  /-- status code and AUX of R237 -/
  code : Nat := 0
  aux : Nat := 0
  /-- NS64 of the task's start -/
  start : Nat := 0
  /-- the configuration register at the job's start: a change applies from the next job (R255, R274) -/
  cfg : Nat := 0
  /-- base and key of the process's soft buffer (R251) -/
  sbase : Nat := 0
  skey : Nat := 0
  /-- the lock it holds or waits for, plus 1 (R252) -/
  lock : Nat := 0
  fault : Bool := false
  deriving DecidableEq, Repr

/-! ### The fabric -/

/-- A fabric port beside its registers (R339 to R342). -/
structure FPort where
  /-- TREQ requests that await user logic's answer, oldest first, with the NS64 of their delivery -/
  treq : List (Packet × Nat) := []
  /-- a request packet partly taken on IREQ -/
  part : Option Packet := none
  /-- packets delivered to user logic on TREQ and IRSP, newest first -/
  toUser : List Packet := []
  /-- the response buffer: responses that wait for user logic to take them, oldest first (R340) -/
  rsp : List Packet := []
  /-- tags of requests from before the port last became inactive: their responses are discarded (R342) -/
  dead : List (BitVec 10) := []
  deriving DecidableEq, Repr

/-- A frame that upsets have struck since it was written or corrected: the bits they have flipped, 4,096 to 4,111 in the check bits,
and whether it is recorded as lost (R377, R378). -/
structure FrameHit where
  flips : List Nat
  lost : Bool := false
  deriving DecidableEq, Repr

/-- The registers of an arithmetic slice (R322): inputs, product, accumulator, narrowed output and OVF. -/
structure Slice where
  a : BitVec 32 := 0
  b : BitVec 32 := 0
  prod : BitVec 96 := 0
  acc : BitVec 96 := 0
  out : BitVec 32 := 0
  ovf : Bool := false
  deriving DecidableEq, Repr

/-- The fabric beside its registers. Frames are keyed by frame address (R355), block-memory words by block × 512 + internal
word (R328), block-memory ports by block × 2 + port, long lines by region × 1,024 + line. -/
structure Fabric where
  frames : SMap (BitVec 4096) := []
  /-- check bits of the frames (R354) -/
  checks : SMap (BitVec 16) := []
  hits : SMap (Option FrameHit) := []
  /-- per long line: frame and tap of each enabled driver (R336) -/
  drivers : SMap (List (Nat × Nat)) := []
  bmWords : SMap (BitVec 128) := []
  bmPoison : SMap Bool := []
  bmDamage : SMap (Option Damage) := []
  /-- damage of the check words: block × 4 + 2 × page + 0 for P, 1 for Q (R328) -/
  bmCheck : SMap (Option Damage) := []
  /-- leaf net that clocks each port (R325) -/
  bmClk : SMap Nat := []
  /-- read outputs of block-memory ports, and their DERR -/
  bmOut : SMap (BitVec 128) := []
  bmDerr : SMap Bool := []
  /-- WRITE_MODE of each port of each block: bits 1:0 port A, bits 3:2 port B (R326) -/
  bmMode : SMap Nat := []
  ports : SMap FPort := []
  /-- per region: NS64 at which start-up began, plus 1 (R372), or at which a reset began (R373) -/
  startAt : SMap Nat := []
  /-- per region: its flip-flops in the order of R376 -/
  ffs : SMap (BitVec 172032) := []
  /-- per region: the values its logic gives the outgoing border cells, the values they held when its isolation began (R371), and the
  second register of the die-boundary cells into it (R320) -/
  borders : SMap (BitVec 4096) := []
  held : SMap (BitVec 4096) := []
  crossed : SMap (BitVec 1024) := []
  /-- arithmetic slices, by region × 192 + slice -/
  slices : SMap Slice := []
  /-- leaf nets, by region × 16 + net: what each selects (R334), and NS64 of its last edge -/
  leaf : SMap Nat := []
  edgeAt : SMap Nat := []
  /-- drivers of the global and regional nets (R332) -/
  nets : SMap Nat := []
  /-- user I/O pins: their options, what user logic drives, and the pin's level (R346, R347, R350); the voltage declared for each bank,
  in mV (R349) -/
  pins : SMap Config.PinSet := []
  volts : SMap Nat := []
  pinOut : SMap (Option Bool) := []
  pinLevel : SMap Bool := []
  deriving DecidableEq, Repr

/-! ### Configuration -/

/-- The path of a container (R362, R366, R370, R374). -/
inductive LoadPath where
  | primary | golden | mailbox | intport
  deriving DecidableEq, Repr

/-- A PORT record: port, PR_FP_CTRL and the key mask (R360). -/
structure PortRec where
  port : Nat
  ctrl : Nat
  mask : Nat
  deriving DecidableEq, Repr

/-- Where a container holds frames that a record writes: the first address, their number and the payload offset of the first; none
for a ZERO record. -/
structure FramePlace where
  addr : Nat
  count : Nat
  at' : Option Nat
  deriving DecidableEq, Repr

/-- A container as a repair source (R377): its header, where its frames lie, and the address of its copy in the repair store; none in
boot flash. -/
structure RepairSrc where
  hdr : List Byte := []
  places : List FramePlace := []
  copy : Option Nat := none
  deriving DecidableEq, Repr

/-- The status outputs the internal configuration port keeps (R374): DONE_OUT, FAIL and CODE. -/
structure IntPort where
  done : Bool := false
  fail : Bool := false
  code : Nat := 0
  deriving DecidableEq, Repr

/-- A load in progress (R356 to R362). -/
structure Load where
  path : LoadPath
  /-- the header, once it has passed checks 1 to 5 -/
  hdr : List Byte := []
  /-- container bytes taken so far -/
  seen : List Byte := []
  /-- chunks taken -/
  chunk : Nat := 0
  /-- deciphered payload not yet taken by a record, and payload bytes that records have taken -/
  buf : List Byte := []
  taken : Nat := 0
  /-- header of the record under way, and the bytes of its body not yet taken -/
  head : List Byte := []
  left : Nat := 0
  places : List FramePlace := []
  /-- frames written by FRAMES and ZERO records -/
  frames : Nat := 0
  ended : Bool := false
  iso : List (Nat × List Nat) := []
  ports : List PortRec := []
  fwHash : Option (BitVec 256) := none
  /-- NS64 of the last bytes delivered -/
  last : Nat := 0
  /-- a mailbox load: its command, and the buffer; for the PCIe host its address and length (R368) -/
  cmd : Option Taken := none
  base : Nat := 0
  len : Nat := 0
  /-- the PCIe host has written GO (R368) -/
  go : Bool := false
  deriving DecidableEq, Repr

/-- The image that configured a region: what start-up applies again after a REGION reset (R373, R381). -/
structure RegionImage where
  configured : Bool := false
  ver : Nat := 0
  /-- SHA-256 over the container's signed bytes -/
  hash : BitVec 256 := 0
  iso : List Nat := []
  ports : List PortRec := []
  src : RepairSrc := {}
  deriving DecidableEq, Repr

/-- An overlay whose regions are starting (R370 step 5): regions, version, measurement and the command to answer. -/
structure Starting where
  mask : Nat
  ver : Nat
  hash : BitVec 256
  cmd : Option Taken
  deriving DecidableEq, Repr

/-- Where the boot flow of R367 stands: waiting for the crystal, for the straps and frame clearing, loading, waiting for
the golden image, verified, started, dark. -/
inductive BootPhase where
  | crystal | released | loading | fallback | verified | started | dark
  deriving DecidableEq, Repr

/-- The configuration engine beside its registers. -/
structure Cfg where
  phase : BootPhase := .crystal
  /-- the straps are to be sampled (R365) -/
  strapsDue : Bool := true
  /-- the reset this boot follows, as RESET_CAUSE gives it (R425): 0 POR, 1 PIN, 2 WARM, 3 WATCHDOG, 4 FABRIC, 5 HIBERNATE wake -/
  cause : Nat := 0
  /-- BOOT_MODE and the golden-base straps, as sampled -/
  mode : Nat := 0
  gold : Nat := 0
  load : Option Load := none
  /-- the booting or running base image: header, and measurement over its signed bytes -/
  bootHdr : List Byte := []
  bootHash : BitVec 256 := 0
  bootSrc : RepairSrc := {}
  images : SMap RegionImage := []
  starting : List Starting := []
  /-- scrubber: next frame of the lap, NS64 of the lap's start, time it has been paused, NS64 of the pause plus 1, frame
  under repair, and whether the lap compares every frame (R377 to R380) -/
  scrubPos : Nat := 0
  lapStart : Nat := 0
  lapPaused : Nat := 0
  pausedAt : Nat := 0
  repair : Option Nat := none
  compare : Bool := false
  /-- the lap's XOR of the CRC-32s of the frames read with those the device CRC counts for them (R379) -/
  lapDiff : Nat := 0
  intport : IntPort := {}
  /-- bytes of the repair store in use (R370) -/
  storeUsed : Nat := 0
  deriving DecidableEq, Repr

/-! ### Gauntlet -/

/-- An image-key slot's fuses (R432); `partly`: data bits blown without VALID (R435). -/
structure ImgSlot where
  key : BitVec 256 := 0
  hash : BitVec 256 := 0
  valid : Bool := false
  revoke : Bool := false
  partly : Bool := false
  deriving DecidableEq, Repr

/-- A debug-authorisation hash slot's fuses. -/
structure DbgSlot where
  hash : BitVec 256 := 0
  valid : Bool := false
  kill : Bool := false
  partly : Bool := false
  deriving DecidableEq, Repr

/-- The fuse map (R432) beside what Rondan programs, which Config holds. -/
structure Fuses where
  /-- lifecycle fuses blown: 0 BLANK to 3 RETIRED -/
  life : Nat := 0
  base : Nat := 0
  fw : Nat := 0
  img : SMap ImgSlot := []
  dbg : SMap DbgSlot := []
  golden : Option Nat := none
  goldenPartly : Bool := false
  /-- the memory repair map (R292, R432): group and first word offset of each row repaired at manufacture -/
  repairs : List (Nat × Nat) := []
  /-- items found spoiled at a boot: bits of FUSE_SPOILED -/
  spoiled : Nat := 0
  deriving DecidableEq, Repr

/-- Gauntlet beside its registers and the memory key slots. -/
structure Sec where
  fuses : Fuses := {}
  /-- lifecycle state, counters and slot in use, as read at boot (R429, R433) -/
  life : Nat := 0
  base : Nat := 0
  fw : Nat := 0
  slot : Option Nat := none
  keyRam : SMap (Option (BitVec 256)) := []
  nonce : BitVec 256 := 0
  /-- the debug challenge and NS64 of its issue (R447) -/
  challenge : Option (BitVec 256 × Nat) := none
  /-- NS64 of the lockout's start -/
  lockAt : Nat := 0
  /-- measurements (R444): firmware, overlays (mask, version, hash), programs (address, length, hash) -/
  fwHash : BitVec 256 := 0
  overlays : List (Nat × Nat × BitVec 256) := []
  programs : List (Nat × Nat × BitVec 256) := []
  progAgg : BitVec 256 := 0
  progOvf : Bool := false
  /-- responses shifted out through SEC_RSP, newest first -/
  rsp : List (List Byte) := []
  deriving DecidableEq, Repr

/-- An image firmware has staged or committed (R57, R434): kind 0 firmware, 1 base, 2 golden. -/
structure UpdImage where
  kind : Nat
  version : Nat
  arb : Nat
  deriving DecidableEq, Repr

/-- The update stager: the staged image, and the image last committed to flash, which is not volatile (R423). -/
structure Upd where
  staged : Option UpdImage := none
  committed : Option UpdImage := none
  /-- firmware has a WARM reset to begin once no command that changes flash, fuses or key slots is in progress (R423) -/
  warmDue : Bool := false
  deriving DecidableEq, Repr

/-- The state of the block. -/
structure State where
  /-- commands waiting, first in, first out -/
  pending : List Instr := []
  /-- software-visible registers: key = register offset × 2^32 + instance -/
  regs : SMap Word := []
  mbx : Mbx := {}
  time : TimeUnit := {}
  links : Links := {}
  net : Net := {}
  store : Store := {}
  err : Errors := {}
  out : Out := {}
  power : Power := {}
  clk : Clk := {}
  disp : SMap Disp := []
  cores : SMap Core := []
  /-- per cluster: a CLUSTER reset in progress: 1 draining, or 2 + NS64 of step 3 (R426) -/
  clReset : SMap Nat := []
  /-- per core: the storage word its reservation holds, plus 1 (R208) -/
  resv : SMap Nat := []
  /-- per engine: the reading of its pace sensor -/
  engPace : SMap Nat := []
  /-- per engine: a delivered task not yet started -/
  engIn : SMap (Option Held) := []
  engs : SMap Eng := []
  /-- HARQ locks held, by space × 65,536 + process: the engine, plus 1 (R252) -/
  harqHeld : SMap Nat := []
  /-- engines that wait for a lock, in the order of their requests -/
  harqWait : List Nat := []
  trace : Trace := {}
  dbg : Dbg := {}
  fab : Fabric := {}
  cfg : Cfg := {}
  sec : Sec := {}
  upd : Upd := {}
  /-- the model's own field: free values drawn so far -/
  free : Nat := 0
  deriving DecidableEq, Repr

/-- Why a step stops with a fault. No meaning of this model raises one. -/
inductive Fault where
  /-- Raised by no command: every event of the spec leaves a next state. Safe. -/
  | none
  deriving DecidableEq, Repr

/-- Why a command has no meaning. -/
inductive Refusal where
  /-- Raised by an arm of `exec` whose command the model does not give yet. Safe. -/
  | notModelled (mnemonic : String)
  deriving DecidableEq, Repr

/-- The machine right after power-on reset (R420): every register at its reset value, every memory, table and queue
empty, the boot flow of R367 not yet begun. -/
def State.reset : State := {}

end Sys2Proof.Machine
end

