-- ==== Sys2Proof/Machine/Ops.lean ====
section
/-! DEFINITION. The named operations over the state: registers and fields, bits, free values, messages to the host,
the numbering and placement of R4, R5, R24 to R26, R130 and R131, and the powered state of domains. -/

namespace Sys2Proof.Machine

/-! ### Bits and signed values -/

/-- Field `[lo + w - 1 : lo]` of a natural number. -/
def bitsOf (v lo w : Nat) : Nat := v / 2 ^ lo % 2 ^ w

/-- `v` with field `[lo + w - 1 : lo]` replaced by `x` mod 2^w. -/
def bitsSet (v lo w x : Nat) : Nat := v - bitsOf v lo w * 2 ^ lo + x % 2 ^ w * 2 ^ lo

/-- Bit `k`. -/
def bitAt (v k : Nat) : Bool := v / 2 ^ k % 2 == 1

/-- The signed value of the low `w` bits. -/
def toSigned (w v : Nat) : Int :=
  if v % 2 ^ w < 2 ^ (w - 1) then (v % 2 ^ w : Nat) else ((v % 2 ^ w : Nat) : Int) - ((2 ^ w : Nat) : Int)

/-- The low `w` bits of a signed value. -/
def ofSigned (w : Nat) (v : Int) : Nat := (v % ((2 ^ w : Nat) : Int)).toNat

/-- 1 for true. -/
def bit (b : Bool) : Nat := if b then 1 else 0

/-- `v` shifted right by `n`: floor, or rounded half to even (R183). -/
def roundShift (trunc : Bool) (v : Int) (n : Nat) : Int :=
  let m : Int := ((2 ^ n : Nat) : Int)
  let q := v / m
  let r := 2 * (v % m)
  if trunc ∨ n = 0 then q else if m < r ∨ (r = m ∧ q % 2 = 1) then q + 1 else q

/-- `v` fitted to `w` bits: saturated with overflow, or its low bits (R183). -/
def fitTo (w : Nat) (sat : Bool) (v : Int) : Nat × Bool :=
  let hi : Int := ((2 ^ (w - 1) : Nat) : Int)
  if v < -hi then (if sat then (2 ^ (w - 1), true) else (ofSigned w v, false))
  else if hi ≤ v then (if sat then (2 ^ (w - 1) - 1, true) else (ofSigned w v, false))
  else (ofSigned w v, false)

/-- Saturating increment by `k` at `w` bits. -/
def satAdd (w v k : Nat) : Nat := min (v + k) (2 ^ w - 1)

/-- The set bits of a mask of width `w`, in ascending order. -/
def maskBits (w v : Nat) : List Nat := (List.range w).filter (fun k => bitAt v k)

/-- The bytes of `v`, little-endian. -/
def leBytes : Nat → Nat → List Byte
  | 0, _ => []
  | n + 1, v => BitVec.ofNat 8 v :: leBytes n (v / 256)

/-- The value of little-endian bytes. -/
def leValue : List Byte → Nat
  | [] => 0
  | b :: r => b.toNat + 256 * leValue r

/-! ### Registers -/

/-- The key of instance `i` of a register. -/
def regKey (r : RegRow) (i : Nat) : Nat := r.off * 2 ^ 32 + i

/-- A register's value. -/
def State.reg (s : State) (r : RegRow) (i : Nat) : Nat :=
  (s.regs.get (BitVec.ofNat 32 (resetOf r i)) (regKey r i)).toNat

/-- Sets a register's value. -/
def State.setReg (s : State) (r : RegRow) (i v : Nat) : State :=
  { s with regs := s.regs.set (BitVec.ofNat 32 (resetOf r i)) (regKey r i) (BitVec.ofNat 32 v) }

/-- A field's value. -/
def State.get (s : State) (f : Fd) (i : Nat) : Nat := bitsOf (s.reg f.reg i) f.lo f.width

/-- Sets a field. -/
def State.put (s : State) (f : Fd) (i v : Nat) : State :=
  s.setReg f.reg i (bitsSet (s.reg f.reg i) f.lo f.width v)

/-- A one-bit field is set. -/
def State.isSet (s : State) (f : Fd) (i : Nat) : Bool := s.get f i == 1

/-- Adds `k` to a saturating counter field. -/
def State.count (s : State) (f : Fd) (i k : Nat) : State := s.put f i (satAdd f.width (s.get f i) k)

/-- Adds `k` to a 32-bit saturating counter register. -/
def State.countReg (s : State) (r : RegRow) (i k : Nat) : State := s.setReg r i (satAdd 32 (s.reg r i) k)

/-- The 64-bit value in a low and a high register. -/
def State.pair (s : State) (lo hi : RegRow) (i : Nat) : Nat := s.reg lo i + s.reg hi i * 2 ^ 32

/-- Sets a low and a high register from a 64-bit value. -/
def State.setPair (s : State) (lo hi : RegRow) (i v : Nat) : State :=
  (s.setReg lo i (v % 2 ^ 32)).setReg hi i (v / 2 ^ 32)

/-! ### Free values -/

/-- Draws the next free value counter. -/
def State.draw (s : State) : Nat × State := (s.free, { s with free := s.free + 1 })

/-! ### Accessors (R37) -/

/-- The accessor ID of R37. -/
def accId : Accessor → Nat
  | .host0 => 0 | .host1 => 1 | .userLogic => 2 | .board => 3 | .tahr => 4 | .remote => 5 | .debugger => 6
  | .chamois => 7

/-- The accessor has a bank of select registers (R37, R38). -/
def accBanked (a : Accessor) : Bool := a ≠ .tahr

/-- The accessor that owns mailbox `b` (R37). -/
def mailboxOwner : Nat → Accessor
  | 0 => .host0 | 1 => .host0 | 2 => .host0 | 3 => .host1 | 4 => .userLogic | 5 => .board | 6 => .tahr
  | _ => .debugger

/-- Value of a field of a select register in the accessor's bank (R65). -/
def State.sel (s : State) (a : Accessor) (f : Fd) : Nat := s.get f (accId a)

/-! ### Messages to the host (R58) -/

/-- Sends MSI-X vector `v` of PCIe function `fn`. -/
def State.msix (s : State) (fn v : Nat) : State := { s with out := { s.out with msix := (fn, v) :: s.out.msix } }

/-! ### Numbering and placement -/

/-- Quadrant of a cluster, core, engine, region, lane, lane quad, fabric port (R4, R23, R25). -/
def quadOfCluster (c : Nat) : Nat := c / 8
def quadOfCore (n : Nat) : Nat := n / 64
def quadOfEngine (e : Nat) : Nat := e / 26
def quadOfRegion (r : Nat) : Nat := r / 16
def quadOfLane (l : Nat) : Nat := l / 64
def quadOfPort (p : Nat) : Nat := p / 32

/-- Quadrant of a router (R5). -/
def quadOfRouter (x y : Nat) : Nat := 2 * (y / 8) + x / 8

/-- Endpoint ID of a sub-port at a router (R130). -/
def endpointId (x y sub : Nat) : Nat := 64 * x + 4 * y + sub

/-- Quadrant of an endpoint. -/
def quadOfEndpoint (ep : Nat) : Nat := quadOfRouter (ep / 64 % 16) (ep / 4 % 16)

/-- Router of core `n` (R24). -/
def coreRouter (n : Nat) : Nat × Nat :=
  let q := n / 64; let k := n / 8 % 8; let j := n % 8
  (8 * (q % 2) + 2 * (k % 4) + j % 2, 8 * (q / 2) + 4 * (k / 4) + j / 2)

/-- Endpoint of core `n` (R131). -/
def epCore (n : Nat) : Nat := endpointId (coreRouter n).1 (coreRouter n).2 0

/-- Endpoint of HBM stack `st` port `y` (R131). -/
def epHbm (st y : Nat) : Nat := endpointId (15 * st) y 1

/-- Endpoint of lane quad `m` (R25, R131). -/
def epLaneQuad (m : Nat) : Nat :=
  let q := m / 16; let i := m % 16
  endpointId (8 * (q % 2) + i / 2) (if q < 2 then 0 else 15) (if i % 2 = 0 then 2 else 3)

/-- Endpoint of a PCIe controller (R131). -/
def epPcie (c : Nat) : Nat := if c = 0 then endpointId 1 0 1 else endpointId 1 15 1

/-- Endpoint of scratchpad port B of cluster `c` (R131). -/
def epScratch (c : Nat) : Nat :=
  let q := c / 8; let k := c % 8
  endpointId (8 * (q % 2) + 2 * (k % 4)) (8 * (q / 2) + 4 * (k / 4) + 1) 2

/-- Endpoint of engine `e` (R131). -/
def epEngine (e : Nat) : Nat :=
  let q := e / 26; let i := e % 26
  endpointId (8 * (q % 2) + 1 + i % 6) ((if q < 2 then 1 else 10) + i / 6) 1

/-- Endpoint of fabric port `p` (R131). -/
def epPort (p : Nat) : Nat :=
  let q := p / 32; let i := p % 32
  endpointId (8 * (q % 2) + i % 8) (8 * (q / 2) + 2 * (i / 8) + 1 - q / 2) 3

/-- Router of the dispatcher and error collector of quadrant `q` (R26). -/
def dispRouter : Nat → Nat × Nat
  | 0 => (7, 7) | 1 => (8, 7) | 2 => (7, 8) | _ => (8, 8)

/-- Endpoint of the dispatcher of quadrant `q` (R131). -/
def epDispatcher (q : Nat) : Nat := endpointId (dispRouter q).1 (dispRouter q).2 1

/-- Endpoint of the error collector of quadrant `q` (R131). -/
def epCollector (q : Nat) : Nat := endpointId (dispRouter q).1 (dispRouter q).2 2

/-- Endpoints of the device-wide blocks (R26, R131). -/
def epChamois : Nat := endpointId 6 7 1
def epGovernor : Nat := endpointId 5 7 1
def epTime : Nat := endpointId 4 7 1
def epGauntlet : Nat := endpointId 6 8 1
def epConfig : Nat := endpointId 5 8 1
def epDebug : Nat := endpointId 4 8 1
def epHub : Nat := endpointId 3 7 1

/-- Banks of a memory group (R284). -/
def groupBanks (g : Nat) : Nat :=
  if g < 32 then 176 else if g < 36 then 234 else if g < 40 then 8 else if g = 40 then 16 else if g = 41 then 65
  else if g = 42 then 8 else 0

/-- Returns the answer to a register write: its code, 0 for a write response. -/
def State.regAnswer (s : State) (a : Accessor) (code : Nat) : State :=
  { s with out := { s.out with regRsp := (accId a, code) :: s.out.regRsp } }

/-- An endpoint ID that names an endpoint; the others are vacant (R130, R131). -/
def epPlaced (ep : Nat) : Bool :=
  ep % 4 == 0 || (List.range 64).any (fun k => epLaneQuad k == ep) || (List.range 32).any (fun k => epHbm (k / 16) (k % 16) == ep) ||
    (List.range 32).any (fun k => epScratch k == ep) || (List.range 104).any (fun k => epEngine k == ep) ||
    (List.range 128).any (fun k => epPort k == ep) || (List.range 4).any (fun q => epDispatcher q == ep || epCollector q == ep) ||
    [epPcie 0, epPcie 1, epChamois, epGovernor, epTime, epGauntlet, epConfig, epDebug, epHub].contains ep

/-- The least index below `n` that satisfies `f`. -/
def findBelow (n : Nat) (f : Nat → Bool) : Option Nat := (List.range n).find? f

/-- The core at an endpoint. -/
def coreOfEp (ep : Nat) : Option Nat :=
  if ep % 4 = 0 then
    let x := ep / 64 % 16; let y := ep / 4 % 16
    some (64 * quadOfRouter x y + 8 * (4 * (y % 8 / 4) + x % 8 / 2) + 2 * (y % 4) + x % 2)
  else none

/-- Die of a router column: 0 west, 1 east (R5). -/
def dieOf (x : Nat) : Nat := x / 8

/-! ### Power domains (R382) -/

/-- Domain numbers. -/
def domCluster (c : Nat) : Nat := 0x10 + c
def domAccGroup (q g : Nat) : Nat := 0x30 + 4 * q + g
def domRegion (r : Nat) : Nat := 0x40 + r
def domLaneQuad (m : Nat) : Nat := 0x80 + m
def domHbm (st : Nat) : Nat := 0xC0 + st

/-- Accelerator group of engine `i` of a quadrant (R382). -/
def accGroupOf (i : Nat) : Nat := if i ≤ 5 then 0 else if i ≤ 12 then 1 else if i ≤ 20 then 2 else 3

/-- Domain of engine `e`. -/
def domEngine (e : Nat) : Nat := domAccGroup (e / 26) (accGroupOf (e % 26))

/-- The domain number is listed in R382. -/
def domListed (d : Nat) : Bool :=
  d ≤ 3 || (0x10 ≤ d && d < 0x40) || (0x40 ≤ d && d < 0x80) || (0x80 ≤ d && d < 0xC0) || d == 0xC0 || d == 0xC1

/-- Software can switch the domain (R382). -/
def domSwitchable (d : Nat) : Bool := 0x10 ≤ d && d < 0xC0

/-- STATE of a domain: 0 OFF, 1 WAKING, 2 ON, 3 DRAINING, 4 FENCED, 5 SAVING (R404). -/
def State.domState (s : State) (d : Nat) : Nat := s.get F.PWR_DOM_STATUS.STATE d

/-- HIBERNATE has been entered: every domain but Mitten is off, and routers, dispatchers, hub, time unit and configuration engine with
them (R382, R390). -/
def State.dark (s : State) : Bool := match s.power.dev with | some x => x.entered && x.target == 3 | none => false

/-- A debugger holds the debug domain, Chamois and Gauntlet powered (R472). -/
def State.attached (s : State) : Bool := s.isSet F.DBG_CTRL.ATTACHED 0

/-- HIBERNATE leaves an accessor no register hub; an attached debugger still reaches it (R382, R472). -/
def State.asleep (s : State) (a : Accessor) : Bool := s.dark && !(a == .debugger && s.attached)

/-- The domain takes requests: ON, or still draining or fenced before its point of no return (R385). -/
def State.domUp (s : State) (d : Nat) : Bool := s.domState d == 2 || s.domState d == 3 || s.domState d == 4

/-! ### Time (R71) -/

/-- NS64. -/
def State.now (s : State) : Nat := s.time.ns64

/-- The time in use as whole nanoseconds since the PTP epoch (R71, R73). -/
def TimeUnit.inUse (t : TimeUnit) (valid : Bool) : Nat :=
  if valid then t.sec * 1000000000 + t.ns else (t.ns64 + t.fallback) % 2 ^ 64

/-- The time in use. -/
def State.timeInUse (s : State) : Nat := s.time.inUse (s.isSet F.TOD_STATUS.VALID 0)

end Sys2Proof.Machine
end

