-- ==== Sys2Proof/Machine/Crypto.lean ====
section
/-! DEFINITION. The published algorithms the spec names: AES-256 with XTS (R300), key wrap (R301, R439), GCM (R107,
R358), CMAC (R298), CRC-32 (R356), SHA-256, HMAC and the SP 800-108 KDF (R442) and ECDSA on P-256 (R358, R447). The spec names
them and does not reprint them: their bodies are PRESUMED from the standards (log 20). -/

namespace Sys2Proof.Machine.Crypto

open Sys2Proof

/-! ### AES-256 on 16-byte blocks -/

/-- Doubling in GF(2^8) modulo `poly`. -/
def xtime (poly a : Nat) : Nat := if a < 128 then 2 * a else (2 * a) ^^^ poly

/-- Product in GF(2^8) modulo `poly` (0x11B for AES, 0x11D for the memory codes). -/
def gmul (poly : Nat) : Nat → Nat → Nat → Nat
  | 0, _, _ => 0
  | n + 1, a, b => (if b % 2 = 1 then a else 0) ^^^ gmul poly n (xtime poly a) (b / 2)

/-- Product of two bytes in the AES field. -/
def aesMul (a b : Nat) : Nat := gmul 0x11B 8 a b

/-- `a` to the power 2^n - 1 ... of the inversion chain: `a^254` is the inverse. -/
def gpow (mul : Nat → Nat → Nat) : Nat → Nat → Nat → Nat
  | 0, _, acc => acc
  | n + 1, a, acc => gpow mul n a (mul acc a)

/-- Multiplicative inverse in the AES field, 0 for 0. -/
def aesInv (a : Nat) : Nat := gpow aesMul 254 a 1

/-- Left rotation of a byte. -/
def rotl8 (a k : Nat) : Nat := (a * 2 ^ k ||| a / 2 ^ (8 - k)) % 256

/-- The AES S-box. -/
def sbox (a : Nat) : Nat :=
  let b := aesInv a
  b ^^^ rotl8 b 1 ^^^ rotl8 b 2 ^^^ rotl8 b 3 ^^^ rotl8 b 4 ^^^ 0x63

/-- The inverse S-box. -/
def sboxInv (a : Nat) : Nat := aesInv (rotl8 a 1 ^^^ rotl8 a 3 ^^^ rotl8 a 6 ^^^ 0x05)

/-- A list as sublists of length `n`. -/
def chunks {α : Type} (n : Nat) (l : List α) : List (List α) :=
  (List.range ((l.length + n - 1) / n)).map (fun i => (l.drop (i * n)).take n)

/-- Exclusive or of two byte strings. -/
def xorB (a b : List Nat) : List Nat := List.zipWith (· ^^^ ·) a b

/-- One word of the AES-256 key schedule from word `i - 1` and word `i - 8`. -/
def nextWord (i : Nat) (prev back rcon : List Nat) : List Nat :=
  let t := if i % 8 = 0 then xorB ((prev.rotateLeft 1).map sbox) rcon
           else if i % 8 = 4 then prev.map sbox else prev
  xorB back t

/-- The expanded key: 60 words, newest first while it grows. -/
def expandFrom : Nat → Nat → Nat → List (List Nat) → List (List Nat)
  | 0, _, _, ws => ws
  | n + 1, i, rc, ws =>
    let w := nextWord i (ws.getD 0 []) (ws.getD 7 []) [rc, 0, 0, 0]
    expandFrom n (i + 1) (if i % 8 = 0 then xtime 0x11B rc else rc) (w :: ws)

/-- The 15 round keys of a 32-byte key. -/
def roundKeys (key : List Nat) : List (List Nat) :=
  (chunks 4 (expandFrom 52 8 1 (chunks 4 key).reverse).reverse).map List.flatten

/-- MixColumns of one column with the given coefficients. -/
def mixCol (m : List Nat) (c : List Nat) : List Nat :=
  (List.range 4).map (fun r =>
    (List.range 4).foldl (fun a k => a ^^^ aesMul (m.getD ((k + 4 - r) % 4) 0) (c.getD k 0)) 0)

/-- ShiftRows by `dir` (1 forward, 3 backward) on a column-major block. -/
def shiftRows (dir : Nat) (b : List Nat) : List Nat :=
  (List.range 16).map (fun i => b.getD ((i % 4) + 4 * ((i / 4 + dir * (i % 4)) % 4)) 0)

/-- Middle rounds forward. -/
def encRounds : List (List Nat) → List Nat → List Nat
  | [], b => b
  | [k], b => xorB (shiftRows 1 (b.map sbox)) k
  | k :: ks, b => encRounds ks (xorB (((chunks 4 (shiftRows 1 (b.map sbox))).map (mixCol [2, 3, 1, 1])).flatten) k)

/-- AES-256 encryption of one block. -/
def aesEnc (key block : List Nat) : List Nat :=
  match roundKeys key with
  | k :: ks => encRounds ks (xorB block k)
  | [] => block

/-- Middle rounds backward. -/
def decRounds : List (List Nat) → List Nat → List Nat
  | [], b => b
  | [k], b => xorB ((shiftRows 3 b).map sboxInv) k
  | k :: ks, b =>
    decRounds ks (((chunks 4 (xorB ((shiftRows 3 b).map sboxInv) k)).map (mixCol [14, 11, 13, 9])).flatten)

/-- AES-256 decryption of one block. -/
def aesDec (key block : List Nat) : List Nat :=
  match (roundKeys key).reverse with
  | k :: ks => decRounds ks (xorB block k)
  | [] => block

/-! ### XTS-AES-256 (R300) -/

/-- `n` bytes of a number, little-endian. -/
def leNat : Nat → Nat → List Nat
  | 0, _ => []
  | n + 1, v => v % 256 :: leNat n (v / 256)

/-- The number of little-endian bytes. -/
def natLe : List Nat → Nat
  | [] => 0
  | b :: r => b + 256 * natLe r

/-- `n` bytes of a number, big-endian. -/
def beNat (n v : Nat) : List Nat := (leNat n v).reverse

/-- The number of big-endian bytes. -/
def natBe (l : List Nat) : Nat := natLe l.reverse

/-- Multiplication of a 128-bit tweak by α. -/
def tweakStep (t : Nat) : Nat := let d := 2 * t; if d < 2 ^ 128 then d else (d - 2 ^ 128) ^^^ 0x87

/-- The tweak of block `j` of sector `lbn`. -/
def tweakOf (tweakKey : List Nat) (lbn : Nat) : Nat → Nat
  | 0 => natLe (aesEnc tweakKey (leNat 16 lbn))
  | j + 1 => tweakStep (tweakOf tweakKey lbn j)

/-- The halves of a 512-bit key pair: data key and tweak key, 32 bytes each. -/
def pairKeys (pair : BitVec 512) : List Nat × List Nat :=
  let b := leNat 64 pair.toNat
  (b.take 32, b.drop 32)

/-- Enciphers 16-byte block `j` of sector `lbn`. -/
def xtsEnc (pair : BitVec 512) (lbn j : Nat) (d : BitVec 128) : BitVec 128 :=
  let (k1, k2) := pairKeys pair
  let t := tweakOf k2 lbn j
  BitVec.ofNat 128 (natLe (aesEnc k1 (leNat 16 (d.toNat ^^^ t))) ^^^ t)

/-- Deciphers 16-byte block `j` of sector `lbn`. -/
def xtsDec (pair : BitVec 512) (lbn j : Nat) (d : BitVec 128) : BitVec 128 :=
  let (k1, k2) := pairKeys pair
  let t := tweakOf k2 lbn j
  BitVec.ofNat 128 (natLe (aesDec k1 (leNat 16 (d.toNat ^^^ t))) ^^^ t)

/-! ### AES key wrap, unwrap side (R301, R439) -/

/-- One unwrap step at counter `t` on registers `rs`, working on register `i`. -/
def unwrapStep (kek : List Nat) (t i : Nat) (a : List Nat) (rs : List (List Nat)) : List Nat × List (List Nat) :=
  let b := aesDec kek (xorB a (beNat 8 t) ++ rs.getD i [])
  (b.take 8, rs.set i (b.drop 8))

/-- All unwrap steps, counter `t` down to 1. -/
def unwrapAll (kek : List Nat) (n : Nat) : Nat → List Nat × List (List Nat) → List Nat × List (List Nat)
  | 0, st => st
  | t + 1, st => unwrapAll kek n t (unwrapStep kek (t + 1) (t % n) st.1 st.2)

/-- The unwrapped key of a wrapped blob, if its integrity value is right. -/
def unwrap (kek blob : List Nat) : Option (List Nat) :=
  let rs := (chunks 8 blob).drop 1
  let (a, out) := unwrapAll kek rs.length (6 * rs.length) (blob.take 8, rs)
  if a = List.replicate 8 0xA6 then some out.flatten else none

/-! ### GCM (R107, R358) -/

/-- Product in GF(2^128) of GCM, bits taken from the most significant of `x`. -/
def ghashMul : Nat → Nat → Nat → Nat → Nat
  | 0, _, _, z => z
  | n + 1, x, v, z =>
    let z := if x / 2 ^ n % 2 = 1 then z ^^^ v else z
    ghashMul n x (if v % 2 = 1 then (v / 2) ^^^ 0xE1 * 2 ^ 120 else v / 2) z

/-- GHASH over 16-byte blocks. -/
def ghash (h : Nat) (blocks : List (List Nat)) : Nat :=
  blocks.foldl (fun y b => ghashMul 128 (y ^^^ natBe (b ++ List.replicate (16 - b.length) 0)) h 0) 0

/-- Counter-mode keystream applied to data. -/
def ctrXor (key iv : List Nat) (data : List Nat) : List Nat :=
  ((chunks 16 data).mapIdx (fun i b => xorB b (aesEnc key (iv ++ beNat 4 (i + 2))))).flatten

/-- The GCM tag over ciphertext and associated data. -/
def gcmTag (key iv aad cipher : List Nat) : List Nat :=
  let h := natBe (aesEnc key (List.replicate 16 0))
  let s := ghash h (chunks 16 aad ++ chunks 16 cipher ++ [beNat 8 (8 * aad.length) ++ beNat 8 (8 * cipher.length)])
  xorB (beNat 16 s) (aesEnc key (iv ++ beNat 4 1))

/-! ### CMAC (R298) -/

/-- Doubling of a 128-bit block, most significant bit first. -/
def cmacDouble (x : Nat) : Nat := let d := 2 * x; if d < 2 ^ 128 then d else (d - 2 ^ 128) ^^^ 0x87

/-- AES-CMAC with a 32-byte key over a message that does not fill its last block. -/
def cmac (key m : List Nat) : List Nat :=
  let k2 := beNat 16 (cmacDouble (cmacDouble (natBe (aesEnc key (List.replicate 16 0)))))
  let bs := chunks 16 (m ++ 0x80 :: List.replicate (15 - m.length % 16) 0)
  (bs.mapIdx (fun i b => if i + 1 = bs.length then xorB b k2 else b)).foldl (fun y b => aesEnc key (xorB y b)) (List.replicate 16 0)

/-! ### CRC-32 of IEEE 802.3 (R356) -/

/-- One bit of the reflected CRC. -/
def crcBits : Nat → Nat → Nat
  | 0, c => c
  | n + 1, c => crcBits n (if c % 2 = 1 then (c / 2) ^^^ 0xEDB88320 else c / 2)

/-- CRC-32 of a byte string. -/
def crc32 (l : List Nat) : Nat := (l.foldl (fun c b => crcBits 8 (c ^^^ b)) 0xFFFFFFFF) ^^^ 0xFFFFFFFF

/-! ### SHA-256, HMAC and the KDF of R442 -/

/-- Greatest `r` with `r^k ≤ n`, searched bit by bit. -/
def rootBits (k n : Nat) : Nat → Nat → Nat
  | 0, r => r
  | b + 1, r => rootBits k n b (if (r + 2 ^ b) ^ k ≤ n then r + 2 ^ b else r)

/-- The first 64 primes, from which SHA-256 takes its constants. -/
def primes64 : List Nat :=
  ((List.range 312).filter (fun n => 2 ≤ n && (List.range n).all (fun d => d < 2 || n % d ≠ 0))).take 64

/-- Round constants: fractions of the cube roots of the primes. -/
def shaK : List Nat := primes64.map (fun p => rootBits 3 (p * 2 ^ 96) 36 0 % 2 ^ 32)

/-- Initial hash: fractions of the square roots of the first eight primes. -/
def shaH : List Nat := (primes64.take 8).map (fun p => rootBits 2 (p * 2 ^ 64) 37 0 % 2 ^ 32)

/-- Right rotation of a 32-bit word. -/
def rotr (k x : Nat) : Nat := x / 2 ^ k ||| x * 2 ^ (32 - k) % 2 ^ 32

/-- Extends the message schedule, newest word first. -/
def shaSched : Nat → List Nat → List Nat
  | 0, w => w
  | n + 1, w =>
    let a := w.getD 1 0; let b := w.getD 14 0
    let s1 := rotr 17 a ^^^ rotr 19 a ^^^ a / 2 ^ 10
    let s0 := rotr 7 b ^^^ rotr 18 b ^^^ b / 2 ^ 3
    shaSched n ((s1 + w.getD 6 0 + s0 + w.getD 15 0) % 2 ^ 32 :: w)

/-- One round on the eight working words. -/
def shaRound (st : List Nat) (kw : Nat) : List Nat :=
  match st with
  | [a, b, c, d, e, f, g, h] =>
    let t1 := h + (rotr 6 e ^^^ rotr 11 e ^^^ rotr 25 e) + ((e &&& f) ^^^ ((2 ^ 32 - 1 - e) &&& g)) + kw
    let t2 := (rotr 2 a ^^^ rotr 13 a ^^^ rotr 22 a) + ((a &&& b) ^^^ (a &&& c) ^^^ (b &&& c))
    [(t1 + t2) % 2 ^ 32, a, b, c, (d + t1) % 2 ^ 32, e, f, g]
  | _ => st

/-- One 64-byte block. -/
def shaBlock (st : List Nat) (blk : List Nat) : List Nat :=
  let w := (shaSched 48 ((chunks 4 blk).map natBe).reverse).reverse
  let r := (List.zipWith (· + ·) shaK w).foldl shaRound st
  List.zipWith (fun a b => (a + b) % 2 ^ 32) st r

/-- SHA-256 of a byte string, 32 bytes. -/
def sha256 (m : List Nat) : List Nat :=
  let pad := (119 - m.length % 64) % 64
  let msg := m ++ [0x80] ++ List.replicate pad 0 ++ beNat 8 (8 * m.length)
  ((chunks 64 msg).foldl shaBlock shaH).flatMap (beNat 4)

/-- HMAC-SHA-256. -/
def hmac (key m : List Nat) : List Nat :=
  let k := (if key.length ≤ 64 then key else sha256 key)
  let k := k ++ List.replicate (64 - k.length) 0
  sha256 (k.map (· ^^^ 0x5C) ++ sha256 (k.map (· ^^^ 0x36) ++ m))

/-- The counter-mode KDF: 256 bits for a label and a context. -/
def kdf (secret label context : List Nat) : List Nat :=
  hmac secret (beNat 4 1 ++ label ++ [0] ++ context ++ beNat 4 256)

/-! ### ECDSA on P-256 (R358, R438, R445, R447) -/

def p256 : Nat := 0xFFFFFFFF00000001000000000000000000000000FFFFFFFFFFFFFFFFFFFFFFFF
def n256 : Nat := 0xFFFFFFFF00000000FFFFFFFFFFFFFFFFBCE6FAADA7179E84F3B9CAC2FC632551
def b256 : Nat := 0x5AC635D8AA3A93E7B3EBBD55769886BC651D06B0CC53B0F63BCE3C3E27D2604B
def gx256 : Nat := 0x6B17D1F2E12C4247F8BCE6E563A440F277037D812DEB33A0F4A13945D898C296
def gy256 : Nat := 0x4FE342E2FE1A7F9B8EE7EB4A7C0F9E162BCE33576B315ECECBB6406837BF51F5

/-- `a^e mod m` over `n` bits of the exponent. -/
def powMod (m : Nat) : Nat → Nat → Nat → Nat → Nat
  | 0, _, _, acc => acc
  | n + 1, a, e, acc => powMod m n (a * a % m) (e / 2) (if e % 2 = 1 then acc * a % m else acc)

/-- Inverse modulo a prime. -/
def invMod (m a : Nat) : Nat := powMod m 256 (a % m) (m - 2) 1

/-- Sum of two curve points; none is the point at infinity. -/
def ecAdd (a b : Option (Nat × Nat)) : Option (Nat × Nat) :=
  match a, b with
  | none, q => q
  | q, none => q
  | some (x1, y1), some (x2, y2) =>
    let p := p256
    if x1 = x2 ∧ (y1 + y2) % p = 0 then none
    else
      let l := if x1 = x2 then (3 * x1 * x1 + (p - 3)) * invMod p (2 * y1) % p
               else (y2 + p - y1) * invMod p (x2 + p - x1) % p
      let x3 := (l * l + 2 * p - x1 - x2) % p
      some (x3, (l * (x1 + p - x3) + p - y1) % p)

/-- Scalar multiple over `n` bits. -/
def ecMul : Nat → Nat → Option (Nat × Nat) → Option (Nat × Nat) → Option (Nat × Nat)
  | 0, _, _, acc => acc
  | n + 1, k, q, acc => ecMul n (k / 2) (ecAdd q q) (if k % 2 = 1 then ecAdd acc q else acc)

/-- The point lies on the curve. -/
def onCurve (x y : Nat) : Bool :=
  x < p256 && y < p256 && y * y % p256 == (x * x % p256 * x + (p256 - 3) * x + b256) % p256

/-- ECDSA verification of signature (r, s) over a 32-byte hash under the key (x, y), all big-endian. -/
def ecdsaVerify (hash : List Nat) (x y r s : Nat) : Bool :=
  if onCurve x y ∧ 0 < r ∧ r < n256 ∧ 0 < s ∧ s < n256 then
    let w := invMod n256 s
    match ecAdd (ecMul 256 (natBe hash * w % n256) (some (gx256, gy256)) none)
        (ecMul 256 (r * w % n256) (some (x, y)) none) with
    | some (px, _) => px % n256 == r
    | none => false
  else false

/-- ECDSA signature over a 32-byte hash with private key `d` and per-signature secret `k`: r then s, 64 bytes. -/
def ecdsaSign (hash : List Nat) (d k : Nat) : List Nat :=
  match ecMul 256 k (some (gx256, gy256)) none with
  | some (px, _) =>
    let r := px % n256
    beNat 32 r ++ beNat 32 (invMod n256 k * (natBe hash + r * d) % n256)
  | none => List.replicate 64 0

/-- The public key of a private key: X then Y, 64 bytes. -/
def publicKey (d : Nat) : List Nat :=
  match ecMul 256 d (some (gx256, gy256)) none with
  | some (x, y) => beNat 32 x ++ beNat 32 y
  | none => List.replicate 64 0

end Sys2Proof.Machine.Crypto
end

