-- ==== Sys2Proof/Machine/Errors.lean ====
section
/-! DEFINITION. Error reporting (R449 to R461): events, the cluster-level stages, the quadrant collectors and the
device log, with merging, suppression, forwarding, notification and the FE actions. -/

namespace Sys2Proof.Machine

/-- An event on its way into the collector path (R450 to R452). -/
structure Ev where
  code : Nat
  sev : Nat
  source : Nat
  detail : Nat := 0
  addr : Option Nat := none
  tgt : Bool := false
  req : Option Nat := none
  injected : Bool := false
  deriving DecidableEq, Repr

/-- Where an event enters the collector path (R453). -/
inductive Place where
  | stage (k : Nat)
  | coll (q : Nat)
  | log
  deriving DecidableEq, Repr

/-- SOURCE from CLASS and INDEX (R451). -/
def src (cls idx : Nat) : Nat := cls * 2 ^ 24 + idx

/-- SOURCE of the named device-wide blocks (R451). -/
def srcFirmware : Nat := src 0 0
def srcGauntlet : Nat := src 0 1
def srcConfig : Nat := src 0 2
def srcGovernor : Nat := src 0 4
def srcBridge : Nat := src 0 7
def srcCounterTree : Nat := src 0 8

/-- SOURCE of a power domain, a chassis link engine and a fabric port (R451). -/
def srcDomain (d : Nat) : Nat := src 0x14 d
def srcChl (f : Nat) : Nat := src 0x09 f
def srcPort (p : Nat) : Nat := src 0x0E p

/-- Quadrant of a cluster-level stage. -/
def stageQuad (k : Nat) : Nat :=
  if k < 32 then k / 8 else if k < 48 then (k - 32) / 4 else if k < 112 then (k - 48) / 16 else (k - 112) / 16

/-- The device-wide blocks' endpoints, which report into the device log directly (R453). -/
def deviceWideEp (ep : Nat) : Bool :=
  [epChamois, epGovernor, epTime, epGauntlet, epConfig, epDebug, epHub].contains ep

/-- Where a block at an endpoint reports without a cluster-level stage (R452). -/
def placeOfEp (ep : Nat) : Place := if deviceWideEp ep then .log else .coll (quadOfEndpoint ep)

/-- Quadrant of a power domain, if it lies in one. -/
def quadOfDomain (d : Nat) : Option Nat :=
  if 0x10 ≤ d ∧ d < 0x30 then some ((d - 0x10) / 8)
  else if 0x30 ≤ d ∧ d < 0x40 then some ((d - 0x30) / 4)
  else if 0x40 ≤ d ∧ d < 0x80 then some ((d - 0x40) / 16)
  else if 0x80 ≤ d ∧ d < 0xC0 then some ((d - 0x80) / 16)
  else none

/-- The level the SOURCE reports to (R453). Protocol engines report by the quadrant they lie in. -/
def placeOf (source : Nat) : Place :=
  let cls := source / 2 ^ 24; let i := source % 2 ^ 24
  match cls with
  | 0x01 => .stage (i / 8)
  | 0x02 => .stage (32 + 4 * (i / 26) + accGroupOf (i % 26))
  | 0x03 =>
    let g := i / 256; let b := i % 256
    if g < 32 then .stage g
    else if g < 36 then .stage (32 + 4 * (g - 32) + accGroupOf (b / 9))
    else if g < 40 then .coll (g - 36) else .log
  | 0x04 => .coll (quadOfRouter (15 * (i / 32)) (i % 32 / 2))
  | 0x05 => .stage (112 + i / 4)
  | 0x06 => .stage (112 + i)
  | 0x07 => .coll (i / 4)
  | 0x08 => .coll (i / 2)
  | 0x09 => .coll (i / 4)
  | 0x0A => .stage (112 + 32 * i)
  | 0x0B => .coll i
  | 0x0C => .stage (48 + i)
  | 0x0D => .stage (48 + i / 128)
  | 0x0E => .coll (i / 32)
  | 0x0F => .coll (i / 4)
  | 0x12 => placeOfEp i
  | 0x14 => match quadOfDomain i with | some q => .coll q | none => .log
  | _ => .log

/-- The entry an event opens. -/
def Ev.entry (e : Ev) (now : Nat) : Entry :=
  { code := e.code, sev := e.sev, tgt := e.tgt, injected := e.injected, source := e.source, detail := e.detail
    addr := e.addr, first := now, last := now, req := e.req.map (fun r => (r, r)) }

/-- Two entries have one key (R455). -/
def sameKey (a b : Entry) : Bool := a.source == b.source && a.code == b.code && a.sev == b.sev

/-- The event window of a held entry still takes an event at NS64 `t` (R455). -/
def windowOpen (coal : Nat) (h : Entry) (t : Nat) : Bool :=
  coal ≠ 0 && decide ((t : Int) - (h.last : Int) < (coal : Int))

/-- Merges `e` into a held entry of the same key whose window is open (R455). -/
def mergeInto (coal : Nat) (e : Entry) : List Entry → Option (List Entry)
  | [] => none
  | h :: r =>
    if sameKey h e && h.closed == 0 && windowOpen coal h e.first then
      some ({ h with rep := satAdd 32 h.rep e.rep, last := e.last
                     req := match h.req, e.req with
                       | some (a, _), some (_, b) => some (a, b)
                       | none, x => x
                       | x, none => x } :: r)
    else (mergeInto coal e r).map (h :: ·)

/-- The action of R449 for an FE event. -/
def State.feAct (s : State) : State := (s.put F.ERR_STATUS.FE 0 1).msix 0 4

/-- Enters an entry into the device log (R453, R457, R458). -/
def State.logEntry (s : State) (e : Entry) : State :=
  match mergeInto (s.get F.ERR_CFG.COALESCE_NS 0) { e with closed := 0 } s.err.log with
  | some l => { s with err := { s.err with log := l } }
  | none =>
    if s.err.log.length < 1024 then
      let s := { s with err := { s.err with
        log := s.err.log ++ [{ e with seq := s.err.next, closed := 0 }], next := (s.err.next + 1) % 65536 } }
      if bitAt (s.get F.ERR_CFG.NOTIFY 0) e.sev then
        let was := bitAt (s.get F.ERR_STATUS.PENDING 0) e.sev
        let s := s.put F.ERR_STATUS.PENDING 0 (s.get F.ERR_STATUS.PENDING 0 ||| 2 ^ e.sev)
        if was then s else s.msix 0 3
      else s
    else s.countReg R.ERR_LOST 0 e.rep

/-- Enters an entry into the collector of quadrant `q`, or suppresses it (R455, R456). -/
def State.collEntry (s : State) (q : Nat) (e : Entry) : State :=
  let es := s.err.colls.get [] q
  let e := { e with closed := 0 }
  match mergeInto (s.get F.ERR_CFG.COALESCE_NS 0) e es with
  | some l => { s with err := { s.err with colls := s.err.colls.set [] q l } }
  | none =>
    if es.length < 256 then { s with err := { s.err with colls := s.err.colls.set [] q (es ++ [e]) } }
    else s.countReg R.ERR_Q_SUPPR q e.rep

/-- Enters an entry into a cluster-level stage, or suppresses it (R455, R456). -/
def State.stageEntry (s : State) (k : Nat) (e : Entry) : State :=
  let es := s.err.stages.get [] k
  match mergeInto (s.get F.ERR_CFG.COALESCE_NS 0) e es with
  | some l => { s with err := { s.err with stages := s.err.stages.set [] k l } }
  | none =>
    if es.length < 4 then { s with err := { s.err with stages := s.err.stages.set [] k (es ++ [e]) } }
    else s.countReg R.ERR_Q_SUPPR (stageQuad k) e.rep

/-- Enters an entry at a place of the collector path. -/
def State.enter (s : State) (p : Place) (e : Entry) : State :=
  match p with
  | .stage k => s.stageEntry k e
  | .coll q => s.collEntry q e
  | .log => s.logEntry e

/-- Records an event at a place; an FE event acts under R449 at once, whatever becomes of its entry. -/
def State.raiseAt (s : State) (p : Place) (e : Ev) : State :=
  let s := s.enter p (e.entry s.now)
  if e.sev = 3 then s.feAct else s

/-- Records an event at the level its SOURCE reports to (R453). -/
def State.raise (s : State) (e : Ev) : State := s.raiseAt (placeOf e.source) e

/-- Event codes of R450, with the response codes of R137, the engine codes of R237 and the core codes of R204. -/
def eventCode (c : Nat) : Bool :=
  decide (1 ≤ c ∧ c ≤ 0xE) || decide (0x100 ≤ c ∧ c ≤ 0x107) || decide (0x201 ≤ c ∧ c ≤ 0x20C) ||
    decide (0x300 ≤ c ∧ c ≤ 0x305) || decide (0x310 ≤ c ∧ c ≤ 0x314) || decide (0x320 ≤ c ∧ c ≤ 0x322) ||
    decide (0x330 ≤ c ∧ c ≤ 0x334) || decide (0x340 ≤ c ∧ c ≤ 0x342) ||
    [0x350, 0x351, 0x360, 0x370, 0x371, 0x380, 0x381, 0x390].contains c

/-- A SOURCE that names something (R451). -/
def sourceAssigned (x : Nat) : Bool :=
  let i := x % 2 ^ 24
  match x / 2 ^ 24 with
  | 0x00 => decide (i ≤ 8) | 0x01 => decide (i < 256) | 0x02 => decide (i < 104)
  | 0x03 => decide (i % 256 < groupBanks (i / 256)) | 0x04 => decide (i < 64) | 0x05 => decide (i < 256)
  | 0x06 => decide (i < 64) | 0x07 => decide (i < 16) | 0x08 => decide (i < 8) | 0x09 => decide (i < 16)
  | 0x0A => decide (i < 2) | 0x0B => decide (i < 4) | 0x0C => decide (i < 64) | 0x0D => decide (i < 8192)
  | 0x0E => decide (i < 128) | 0x0F => decide (i < 16) | 0x10 => decide (i < 85) | 0x11 => decide (i < 48)
  | 0x12 => decide (i < 1024) && epPlaced i | 0x14 => domListed i
  | _ => false

/-- Records an event of firmware, which enters the device log directly (R453). -/
def State.raiseFw (s : State) (e : Ev) : State := s.raiseAt .log e

/-- A hardware fault that ends a command with E_HW: the error log holds an entry (R54), whose code the spec does not give: it is
free (DESIGN CHOICE, log 100). -/
def State.hwFault (s : State) : State :=
  { s with free := s.free + 1 }.raiseFw { code := (Config.undefinedBits 16 s.free).toNat, sev := 2, source := srcFirmware }

/-- An error code of R137 that a target records about the request it answers (R452). -/
def targetRecorded (code : Nat) : Bool := [0x9, 0xA, 0xC, 0xD, 0xE].contains code

/-- Records a failed posted request: requester as SOURCE (R452), at the block that refused it. -/
def State.postedFailed (s : State) (place : Place) (srcEp code addr : Nat) : State :=
  s.raiseAt place { code := code, sev := 2, source := src 0x12 srcEp, addr := some addr }

/-- Records an event of a target about a request it answers with an error (R452). -/
def State.targetEvent (s : State) (p : Packet) (source code : Nat) : State :=
  s.raiseAt (placeOfEp p.dest.toNat)
    { code := code, sev := 2, source := source, addr := some p.addr.toNat, tgt := true, req := some p.src.toNat }

/-! ### Windows, forwarding and the FE clear -/

/-- Closes the window of entry `i` of a list, giving it place `n` in the order of closing, once its window has run
out (R456). -/
def closeEntry (coal now n : Nat) : List Entry → Nat → List Entry
  | [], _ => []
  | h :: r, 0 => (if h.closed = 0 ∧ windowOpen coal h now = false then { h with closed := n } else h) :: r
  | h :: r, i + 1 => h :: closeEntry coal now n r i

/-- COALESCE_WINDOW_CLOSE (R456): at a cluster-level stage (`k` below 176) a closed entry is forwarded at once; at
the collector of quadrant `k - 176` it waits to be forwarded. -/
def execCoalesceWindowClose (k : Fin 180) (i : Fin 256) (s : State) : Host.Outcome State Fault Refusal :=
  let coal := s.get F.ERR_CFG.COALESCE_NS 0
  if k.val < 176 then
    let es := s.err.stages.get [] k.val
    match es[i.val]? with
    | some e =>
      if windowOpen coal e s.now then .next s
      else .next (({ s with err := { s.err with stages := s.err.stages.set [] k.val (es.eraseIdx i.val) } }).collEntry
        (stageQuad k.val) e)
    | none => .next s
  else
    let q := k.val - 176
    let n := s.err.closings.get 0 q + 1
    .next { s with err := { s.err with
      colls := s.err.colls.set [] q (closeEntry coal s.now n (s.err.colls.get [] q) i.val)
      closings := s.err.closings.set 0 q n } }

/-- The closed entry that waits longest. -/
def firstClosed (es : List Entry) : Option Entry :=
  es.foldl (fun a e => if e.closed = 0 then a else
    match a with | none => some e | some b => if e.closed < b.closed then some e else a) none

/-- COLLECTOR_FORWARD (R456): the collector of quadrant `q` forwards its longest-closed entry, at most one per µs. -/
def execCollectorForward (q : Fin 4) (s : State) : Host.Outcome State Fault Refusal :=
  let es := s.err.colls.get [] q.val
  let lastF := s.err.lastFwd.get 0 q.val
  match firstClosed es with
  | none => .next s
  | some e =>
    if lastF ≠ 0 ∧ s.now < lastF - 1 + 1000 then .next s
    else
      let s := { s with err := { s.err with colls := s.err.colls.set [] q.val (es.erase e)
                                            lastFwd := s.err.lastFwd.set 0 q.val (s.now + 1) } }
      .next ((s.countReg R.ERR_Q_FWD q.val 1).logEntry e)

/-- A write of ERR_STATUS: W1C of PENDING and FE (R461). -/
def State.writeErrStatus (s : State) (v : Word) : State :=
  let s := s.put F.ERR_STATUS.PENDING 0 (s.get F.ERR_STATUS.PENDING 0 &&& (15 - v.toNat % 16))
  if bitAt v.toNat 4 then s.put F.ERR_STATUS.FE 0 0 else s

end Sys2Proof.Machine
end

