-- ==== Sys2Proof/Machine/Memory.lean ====
section
/-! DEFINITION. The memories: the global address map (R29, R30), the on-chip memories with word code, page code,
stored poison, error tables and counter tree (R275 to R288), and packaged memory with its interleave, cipher regions,
keys, integrity tags and symbol code (R295 to R310). -/

namespace Sys2Proof.Machine

/-! ### The global address map -/

/-- What a global address lies in (R29, R30). -/
inductive Target where
  | hbm (pc : Nat)
  | scratch (c : Nat)
  | core (n : Nat)
  | engine (e : Nat)
  | port (p : Nat)
  | regs
  | chamoisMem
  | gauntletMem
  | window (w : Nat)
  | unmapped
  deriving DecidableEq, Repr

def baseScratch : Nat := 0x010000000000
def baseCore : Nat := 0x011000000000
def baseEngine : Nat := 0x012000000000
def basePort : Nat := 0x020000000000
def baseRegs : Nat := 0x030000000000
def basePriv : Nat := 0x031000000000
def baseWindow : Nat := 0x040000000000

/-- Pseudo-channel of a packaged-memory address, stack × 32 + p (R296). -/
def hbmPc (a : Nat) : Nat := 32 * (a / 2 ^ 34 % 2) + (a / 2 ^ 8 % 32 ^^^ a / 2 ^ 16 % 32)

/-- Offset inside a core window that P, X or Y holds (R30). -/
def coreMapped (o : Nat) : Bool :=
  o < 0x10000 || (0x40000 ≤ o && o < 0x60000) || (0x80000 ≤ o && o < 0xA0000)

/-- Offset inside engine `e`'s window that its buffer or job port holds (R30, R232). -/
def engineMapped (e o : Nat) : Bool :=
  o < engineBufKib (engineType e) * 1024 || (0x80000 ≤ o && o < 0x90000)

/-- Decodes a global address (R29, R30). DESIGN CHOICE: the 4 MiB Chamois memory and the hibernate context stand at
the base of the private range, the Gauntlet memory at +8 MiB (log 9), and the rest of the private range is UNMAPPED for every
requester, Chamois and Gauntlet among them (log 102). -/
def decodeAddr (a : Nat) : Target :=
  if a < 2 ^ 35 then .hbm (hbmPc a)
  else if baseScratch ≤ a ∧ a < baseScratch + 32 * 0x200000 then .scratch ((a - baseScratch) / 0x200000)
  else if baseCore ≤ a ∧ a < baseCore + 256 * 0x100000 then
    if coreMapped ((a - baseCore) % 0x100000) then .core ((a - baseCore) / 0x100000) else .unmapped
  else if baseEngine ≤ a ∧ a < baseEngine + 104 * 0x100000 then
    if engineMapped ((a - baseEngine) / 0x100000) ((a - baseEngine) % 0x100000)
    then .engine ((a - baseEngine) / 0x100000) else .unmapped
  else if basePort ≤ a ∧ a < basePort + 128 * 2 ^ 32 then .port ((a - basePort) / 2 ^ 32)
  else if baseRegs ≤ a ∧ a < baseRegs + 0x4000000 then .regs
  else if basePriv ≤ a ∧ a < basePriv + 0x401000 then .chamoisMem
  else if basePriv + 0x800000 ≤ a ∧ a < basePriv + 0x880000 then .gauntletMem
  else if baseWindow ≤ a ∧ a < baseWindow + 64 * 2 ^ 41 then .window ((a - baseWindow) / 2 ^ 41)
  else .unmapped

/-- End of the range decoded from an address, which a request's units must not pass (R137 BOUNDARY, R296). -/
def rangeEnd (a : Nat) : Nat :=
  match decodeAddr a with
  | .hbm _ => a / 256 * 256 + 256
  | .scratch c => baseScratch + (c + 1) * 0x200000
  | .core n =>
    let o := a % 0x100000
    baseCore + n * 0x100000 + (if o < 0x10000 then 0x10000 else if o < 0x60000 then 0x60000 else 0xA0000)
  | .engine e =>
    let o := a % 0x100000
    baseEngine + e * 0x100000 + (if o < 0x80000 then engineBufKib (engineType e) * 1024 else 0x90000)
  | .port p => basePort + (p + 1) * 2 ^ 32
  | .regs => baseRegs + 0x4000000
  | .chamoisMem => basePriv + 0x401000
  | .gauntletMem => basePriv + 0x880000
  | .window w => baseWindow + (w + 1) * 2 ^ 41
  | .unmapped => a

/-- Endpoint that serves a target; a window goes to its link engine's lane quad, filled in by the network. -/
def targetEp : Target → Nat
  | .hbm pc => epHbm (pc / 32) (pc % 32 / 2)
  | .scratch c => epScratch c
  | .core n => epCore n
  | .engine e => epEngine e
  | .port p => epPort p
  | .regs => epHub
  | .chamoisMem => epChamois
  | .gauntletMem => epGauntlet
  | .window _ => 1023
  | .unmapped => 1023

/-- Power domain of a target, if it has one that can be off. -/
def targetDomain : Target → Option Nat
  | .hbm pc => some (domHbm (pc / 32))
  | .scratch c => some (domCluster c)
  | .core n => some (domCluster (n / 8))
  | .engine e => some (domEngine e)
  | _ => none

/-! ### Bytes -/

/-- One stored byte. Memory nothing has written reads 0: packaged memory as R312 gives; for on-chip memory a DESIGN
CHOICE (log 2). -/
def State.byte (s : State) (a : Nat) : Byte := s.store.bytes.get 0 a

/-- Stores one byte. -/
def State.setByte (s : State) (a : Nat) (b : Byte) : State :=
  { s with store := { s.store with bytes := s.store.bytes.set 0 a b } }

/-- The little-endian value of `n` stored bytes. -/
def State.loadNat (s : State) : Nat → Nat → Nat
  | 0, _ => 0
  | n + 1, a => (s.byte a).toNat + 256 * s.loadNat n (a + 1)

/-- The canonical form of memory: addresses rise strictly, and no entry equals the 0 an unlisted address reads as. -/
def Memory.wf (m : SMap Byte) : Bool := m.wf 0

/-- Stores `n` bytes of a value, little-endian. -/
def State.storeNat (s : State) : Nat → Nat → Nat → State
  | 0, _, _ => s
  | n + 1, a, v => (s.setByte a (BitVec.ofNat 8 v)).storeNat n (a + 1) (v / 256)

/-- The stored 16-byte word at address `16 w`. -/
def State.word (s : State) (w : Nat) : BitVec 128 := BitVec.ofNat 128 (s.loadNat 16 (16 * w))

/-- Stores a 16-byte word. -/
def State.setWord (s : State) (w : Nat) (d : BitVec 128) : State := s.storeNat 16 (16 * w) d.toNat

/-- `old` with the bytes that `be` enables taken from `new`. -/
def mergeBytes (be : Nat) (old new : BitVec 128) : BitVec 128 :=
  BitVec.ofNat 128 ((List.range 16).foldl (fun a k =>
    a + bitsOf (if bitAt be k then new.toNat else old.toNat) (8 * k) 8 * 2 ^ (8 * k)) 0)

/-! ### Groups, banks and the counter tree (R275, R284 to R286) -/

/-- Storage base of memories that no global address reaches: dispatcher memories and the trace buffer. -/
def baseHidden : Nat := 2 ^ 48

/-- Group and byte offset of an on-chip storage address (R284). -/
def groupOf (a : Nat) : Option (Nat × Nat) :=
  if baseScratch ≤ a ∧ a < baseScratch + 32 * 0x200000 then
    some ((a - baseScratch) / 0x200000, (a - baseScratch) % 0x200000)
  else if baseCore ≤ a ∧ a < baseCore + 256 * 0x100000 then
    let n := (a - baseCore) / 0x100000
    some (n / 8, 0x200000 + n % 8 * 0x100000 + (a - baseCore) % 0x100000)
  else if baseEngine ≤ a ∧ a < baseEngine + 104 * 0x100000 then
    let e := (a - baseEngine) / 0x100000
    some (32 + e / 26, e % 26 * 0x100000 + (a - baseEngine) % 0x100000)
  else if basePriv ≤ a ∧ a < basePriv + 0x401000 then some (41, a - basePriv)
  else if basePriv + 0x800000 ≤ a ∧ a < basePriv + 0x880000 then some (42, a - basePriv - 0x800000)
  else if baseHidden ≤ a ∧ a < baseHidden + 4 * 0x80000 then
    some (36 + (a - baseHidden) / 0x80000, (a - baseHidden) % 0x80000)
  else if baseHidden + 0x200000 ≤ a ∧ a < baseHidden + 0x300000 then some (40, a - baseHidden - 0x200000)
  else none

/-- Storage address of a group's byte offset. -/
def groupAddr (g o : Nat) : Nat :=
  if g < 32 then
    if o < 0x200000 then baseScratch + g * 0x200000 + o else baseCore + g * 8 * 0x100000 + (o - 0x200000)
  else if g < 36 then baseEngine + (g - 32) * 26 * 0x100000 + o
  else if g < 40 then baseHidden + (g - 36) * 0x80000 + o
  else if g = 40 then baseHidden + 0x200000 + o
  else if g = 41 then basePriv + o
  else basePriv + 0x800000 + o

/-- Bank index within the group (R275, R284). -/
def bankOf (g o : Nat) : Nat :=
  if g < 32 then
    if o < 0x200000 then o / 2 ^ 12 % 16
    else
      let j := (o - 0x200000) / 0x100000; let c := (o - 0x200000) % 0x100000
      16 + 20 * j + (if c < 0x40000 then c / 2 ^ 12 % 4
        else if c < 0x80000 then 4 + c / 2 ^ 12 % 8 else 12 + c / 2 ^ 12 % 8)
  else if g < 36 then
    let i := o / 0x100000; let c := o % 0x100000
    9 * i + (if c < 0x80000 then c / 2 ^ 16 else 8)
  else o / 0x10000

/-- Node keys of the counter tree: level × 2^24 + index (R286). -/
def nodeKey (level idx : Nat) : Nat := level * 2 ^ 24 + idx

/-- The quadrant above a group, if any (R284). -/
def groupQuad (g : Nat) : Option Nat :=
  if g < 32 then some (g / 8) else if g < 36 then some (g - 32) else if g < 40 then some (g - 36) else none

/-- A node of the counter tree. -/
def State.node (s : State) (k : Nat) : Node := s.store.nodes.get {} k

/-- Sets a node. -/
def State.setNode (s : State) (k : Nat) (n : Node) : State :=
  { s with store := { s.store with nodes := s.store.nodes.set {} k n } }

/-- A memory group's record. -/
def State.grp (s : State) (g : Nat) : Grp := s.store.grps.get {} g

/-- Sets a group's record. -/
def State.setGrp (s : State) (g : Nat) (x : Grp) : State :=
  { s with store := { s.store with grps := s.store.grps.set {} g x } }

/-- Adds to one node at its width: banks saturate at 16 bits, the others wrap (R286). -/
def State.bumpNode (s : State) (level idx corr uncorr : Nat) : State :=
  let n := s.node (nodeKey level idx)
  if n.stale && level != 0 then s
  else
  let add := fun v k => match level with
    | 0 => satAdd 16 v k | 1 => (v + k) % 2 ^ 32 | 2 => (v + k) % 2 ^ 40 | _ => (v + k) % 2 ^ 48
  s.setNode (nodeKey level idx) { n with corr := add n.corr corr, uncorr := add n.uncorr uncorr }

/-- Counts an error at its leaf and at every ancestor (R286). -/
def State.countErr (s : State) (g bank corr uncorr : Nat) : State :=
  let s := (s.bumpNode 0 (g * 256 + bank) corr uncorr).bumpNode 1 g corr uncorr
  let s := match groupQuad g with | some q => s.bumpNode 2 q corr uncorr | none => s
  s.bumpNode 3 0 corr uncorr

/-- Enters a corrected word into the group's table (R285). -/
def State.tblEnter (s : State) (g word : Nat) (syn : BitVec 9) (rebuilt : Bool) : State :=
  let gr := s.grp g
  if gr.tbl.any (fun e => e.word == word) then
    s.setGrp g { gr with tbl := gr.tbl.map (fun e => if e.word = word then { e with count := satAdd 8 e.count 1 } else e) }
  else if gr.tbl.length < 16 then
    s.setGrp g { gr with tbl := gr.tbl ++ [{ word := word, syn := syn, rebuilt := rebuilt, count := 1 }] }
  else s.countReg R.ECC_TBL_OVF g 1

/-- SOURCE of an on-chip memory bank (R451). -/
def srcBank (g bank : Nat) : Nat := src 0x03 (g * 256 + bank)

/-! ### The word and page codes (R279 to R283) -/

/-- Damage marked at a storage word. -/
def State.damageAt (s : State) (w : Nat) : Option Damage := s.store.damage.get none w

/-- Sets or clears a damage mark. -/
def State.setDamage (s : State) (w : Nat) (d : Option Damage) : State :=
  { s with store := { s.store with damage := s.store.damage.set none w d } }

/-- The word is stored as poison. -/
def State.poisonAt (s : State) (w : Nat) : Bool := s.store.poison.get false w

/-- Sets or clears the poison marking of a word. -/
def State.setPoison (s : State) (w : Nat) (p : Bool) : State :=
  { s with store := { s.store with poison := s.store.poison.set false w p } }

/-- A word's syndrome is neither 0, 0x1FF nor a single-bit pattern: a single-bit error in a word stored as poison is
such a syndrome too (R279). -/
def State.uncorrAt (s : State) (w : Nat) : Bool :=
  match s.damageAt w with
  | none => false
  | some (.single _) => s.poisonAt w
  | some (.uncorr _) => true

/-- Storage word keys of the check words P and Q of a page, which no address reaches (R281). -/
def checkWord (page k : Nat) : Nat := 2 ^ 60 + 2 * page + k

/-- A word times a field element, byte lane by byte lane over the page code's field (R281). -/
def laneMul (i : Nat) (d : BitVec 128) : BitVec 128 :=
  BitVec.ofNat 128 ((List.range 16).foldl (fun a k =>
    a + Crypto.gmul 0x11D 8 i (bitsOf d.toNat (8 * k) 8) * 2 ^ (8 * k)) 0)

/-- Quotient of a word by a field element. -/
def laneDiv (i : Nat) (d : BitVec 128) : BitVec 128 :=
  laneMul (Crypto.gpow (Crypto.gmul 0x11D 8) 254 i 1) d

/-- P of a page: the exclusive or of its words (R281). -/
def pageP (ws : List (BitVec 128)) : BitVec 128 := ws.foldl (· ^^^ ·) 0

/-- Q of a page: the sum of the words, each times its index (R281). -/
def pageQ (ws : List (BitVec 128)) : BitVec 128 :=
  (ws.mapIdx (fun i d => laneMul i d)).foldl (· ^^^ ·) 0

/-- Recovers the erased words `es` (at most two) of a page from P, Q and the surviving words (R282). `pOk` and `qOk`
say that the check words survive. -/
def recover (ws : List (BitVec 128)) (es : List Nat) (pOk : Bool) : List (Nat × BitVec 128) :=
  let surv := ws.mapIdx (fun i d => if es.contains i then 0 else d)
  let p' := pageP ws ^^^ pageP surv
  let q' := pageQ ws ^^^ pageQ surv
  match es with
  | [i] => [(i, if pOk then p' else laneDiv i q')]
  | [i, j] =>
    let wi := laneDiv (i ^^^ j) (q' ^^^ laneMul j p')
    [(i, wi), (j, p' ^^^ wi)]
  | _ => []

/-- Corrects a single-bit error: counts it, logs it and clears it (R279, R283). -/
def State.correctWord (s : State) (w : Nat) (syn : BitVec 9) : State :=
  match groupOf (16 * w) with
  | none => s.setDamage w none
  | some (g, o) =>
    let b := bankOf g o
    ((((s.setDamage w none).countErr g b 1 0).tblEnter g (o / 16) syn false).raise
      { code := 0x0300, sev := 0, source := srcBank g b, detail := o / 16 })

/-- Syndrome of a damaged word, as the code sees it: that of an upset, with the mark of stored poison (R279, R280). -/
def State.synAt (s : State) (w : Nat) : BitVec 9 :=
  match s.damageAt w with | some (.single x) => if s.poisonAt w then x ^^^ 0x1FF else x | some (.uncorr x) => x | none => 0

/-- Rebuilds the page of storage word `w`, which a reader found uncorrectable (R282, R283). -/
def State.rebuildPage (s : State) (w : Nat) : State :=
  let base := w / 256 * 256
  let idx := List.range 256
  let es := idx.filter (fun i => s.uncorrAt (base + i))
  let pOk := !s.uncorrAt (checkWord (w / 256) 0)
  let qOk := !s.uncorrAt (checkWord (w / 256) 1)
  let g := (groupOf (16 * w)).getD (0, 0)
  let bank := bankOf g.1 g.2
  let erased := es.length + bit (!pOk) + bit (!qOk)
  let s1 := idx.foldl (fun t i => if t.uncorrAt (base + i) then t else
    match t.damageAt (base + i) with | some (.single x) => t.correctWord (base + i) x | _ => t) s
  let s1 := (s1.setDamage (checkWord (w / 256) 0) none).setDamage (checkWord (w / 256) 1) none
  if erased ≤ 2 then
    let vals := recover (idx.map (fun i => s.word (base + i))) es pOk
    let s2 := vals.foldl (fun t (i, d) =>
      let o := (groupOf (16 * (base + i))).getD (0, 0)
      ((((t.setWord (base + i) d).setPoison (base + i) false).tblEnter g.1 (o.2 / 16) (s.synAt (base + i)) true).setDamage
        (base + i) none).countErr g.1 bank 1 0) s1
    s2.raise { code := 0x0301, sev := 0, source := srcBank g.1 bank, detail := g.2 / 16 }
  else
    let s2 := es.foldl (fun t i =>
      (((t.setWord (base + i) 0).setPoison (base + i) true).setDamage (base + i) none).countErr g.1 bank 0 1) s1
    s2.raise { code := 0x0302, sev := 2, source := srcBank g.1 bank, detail := es.length, addr := some (g.2 / 16) }

/-- First byte of the hibernate context, which Mitten holds (R284, R391). -/
def baseContext : Nat := basePriv + 0x400000

/-- A word of the hibernate context, which carries the word code only (R279). -/
def contextWord (w : Nat) : Bool := decide (baseContext ≤ 16 * w) && decide (16 * w < baseContext + 0x1000)

/-- An uncorrectable word of the hibernate context: no page code rebuilds it. It is counted and stored as poison (DESIGN CHOICE,
log 110: R279 gives it the word code alone). -/
def State.contextLost (s : State) (w : Nat) : State :=
  let g := (groupOf (16 * w)).getD (0, 0)
  ((s.setDamage w none).setPoison w true).countErr g.1 (bankOf g.1 g.2) 0 1

/-- Makes word `w` readable: corrects a single-bit error, rebuilds an uncorrectable word's page (R279, R282). -/
def State.settleWord (s : State) (w : Nat) : State :=
  if s.uncorrAt w then (if contextWord w then s.contextLost w else s.rebuildPage w)
  else match s.damageAt w with
    | some (.single x) => s.correctWord w x
    | _ => s

/-- Reads an on-chip word: the state after correction, its data and its poison (R279, R280). -/
def State.ocRead (s : State) (w : Nat) : State × DataUnit :=
  let t := s.settleWord w
  (t, { data := t.word w, poison := t.poisonAt w })

/-- Ends every reservation of a word (R208). -/
def State.endReservations (s : State) (w : Nat) : State := { s with resv := s.resv.filter (fun e => e.2 != w + 1) }

/-- Writes the enabled bytes of an on-chip word (R280, R281), which ends its reservations. -/
def State.ocWrite (s : State) (w be : Nat) (d : BitVec 128) (poison : Bool) : State :=
  let t := (s.settleWord w).endReservations w
  let full := be % 65536 == 65535
  (t.setWord w (mergeBytes be (t.word w) d)).setPoison w (poison || (!full && t.poisonAt w))

/-! ### Packaged memory (R295 to R310) -/

/-- The lowest-numbered enabled cipher region that covers an address (R302, R303). -/
def State.cipherRegion (s : State) (a : Nat) : Option Nat :=
  findBelow 16 (fun r => s.isSet F.CIPH_REGION_CTRL.EN r &&
    decide (s.pair R.CIPH_REGION_BASE_LO R.CIPH_REGION_BASE_HI r ≤ a) &&
    decide (a < s.pair R.CIPH_REGION_LIMIT_LO R.CIPH_REGION_LIMIT_HI r))

/-- The governing region allows key index `k` at `a` (R302, R303). -/
def State.keyAllowed (s : State) (a k : Nat) : Bool :=
  match s.cipherRegion a with
  | some r => bitAt (s.pair R.CIPH_REGION_ALLOW_LO R.CIPH_REGION_ALLOW_HI r) k
  | none => k == 0

/-- Tweak base of the region that governs an address (R300). -/
def State.cipherBase (s : State) (a : Nat) : Nat :=
  match s.cipherRegion a with
  | some r => s.pair R.CIPH_REGION_BASE_LO R.CIPH_REGION_BASE_HI r
  | none => 0

/-- The pair in key slot `k`. -/
def State.keySlot (s : State) (k : Nat) : Option (BitVec 512) := s.store.keys.get none k

/-- A pseudo-channel answers TARGET_FAULT: offline, or with an interface fault (R305 check 2, R313). -/
def State.pcDown (s : State) (pc : Nat) : Bool := s.isSet F.HBM_PC_CTRL.OFFLINE pc || s.store.pcFault.get false pc

/-- The stack has completed initialisation (R305 check 1). -/
def State.hbmReady (s : State) (pc : Nat) : Bool := bitAt (s.get F.HBM_STATUS.INIT_DONE 0) (pc / 32)

/-- Checks 2 to 4 of R305, in order: the code of the first that fails, 0 if none. -/
def State.hbmCheck (s : State) (a key : Nat) : Nat :=
  if s.pcDown (hbmPc a) then 0xE
  else if key > 63 ∨ s.keyAllowed a key = false then 0x7
  else if key ≠ 0 ∧ (s.keySlot key).isNone then 0x8
  else 0

/-- Counts a refusal under checks 3 and 4 (R305). -/
def State.countDenied (s : State) (a code : Nat) : State :=
  if code = 0x7 ∨ code = 0x8 then s.countReg R.HBM_PC_DENIED (hbmPc a) 1 else s

/-- Deciphers stored word `w` under key index `k` (R300). -/
def State.decipher (s : State) (k w : Nat) (d : BitVec 128) : BitVec 128 :=
  if k = 0 then d else match s.keySlot k with
    | some pair => Crypto.xtsDec pair ((16 * w - s.cipherBase (16 * w)) / 4096) (w % 256) d
    | none => d

/-- Enciphers a word under key index `k` for storage (R300). -/
def State.encipher (s : State) (k w : Nat) (d : BitVec 128) : BitVec 128 :=
  if k = 0 then d else match s.keySlot k with
    | some pair => Crypto.xtsEnc pair ((16 * w - s.cipherBase (16 * w)) / 4096) (w % 256) d
    | none => d

/-- Records the first HBM failure, or MORE after it (R316). KIND as HBM_ERR_INFO gives it. -/
def State.hbmErr (s : State) (line key kind : Nat) : State :=
  if s.isSet F.HBM_ERR_INFO.VALID 0 then s.put F.HBM_ERR_INFO.MORE 0 1
  else
    let a := 64 * line
    ((s.setReg R.HBM_ERR_ADDR_LO 0 (a % 2 ^ 32)).setReg R.HBM_ERR_ADDR_HI 0 (a / 2 ^ 32)).setReg R.HBM_ERR_INFO 0
      (key % 256 + kind * 2 ^ 8 + hbmPc a * 2 ^ 16 + 2 ^ 31)

/-- An event of packaged memory about a request it answers (R307, R452). -/
def State.hbmEvent (s : State) (line key code sev reqEp : Nat) : State :=
  let pc := hbmPc (64 * line)
  s.raiseAt (.coll (quadOfEndpoint (targetEp (.hbm pc))))
    { code := code, sev := sev, source := src 0x04 pc, detail := key, addr := some (64 * line), tgt := true
      req := some reqEp }

/-- A line's record. -/
def State.line (s : State) (n : Nat) : Line := s.store.lines.get {} n

/-- Sets a line's record. -/
def State.setLine (s : State) (n : Nat) (l : Line) : State :=
  { s with store := { s.store with lines := s.store.lines.set {} n l } }

/-! The symbol code (R297). The spec gives the field and five check symbols; the roots 1, α, …, α⁴ and symbol i as the coefficient
of x^(71−i) are the model's (DESIGN CHOICE, log 21). -/

/-- α to a power, in the field of the symbol code. -/
def alphaPow : Nat → Nat
  | 0 => 1
  | n + 1 => Crypto.xtime 0x11D (alphaPow n)

/-- What a difference `e` at symbol `i` adds to syndrome `k`. -/
def symSyn (k i e : Nat) : Nat := Crypto.gmul 0x11D 8 e (alphaPow (k * (71 - i)))

/-- The five syndromes of differences from a codeword. -/
def errSyn (err : SMap Byte) : List Nat :=
  (List.range 5).map (fun k => err.foldl (fun a x => a ^^^ symSyn k x.1 x.2.toNat) 0)

/-- CHECK of a line stored as poison: 0xFF in each of its five symbols (R299). -/
def poisonErr : SMap Byte := [(67, 255), (68, 255), (69, 255), (70, 255), (71, 255)]

/-- What the symbol code finds in a line (R306). -/
inductive LineFound where
  | clean
  | poison
  | one (i e : Nat)
  | bad
  deriving DecidableEq, Repr

/-- The symbol code's finding: no error, stored poison, one symbol `i` in error by `e`, or errors it cannot correct (R297, R299,
R306). -/
def lineFound (err : SMap Byte) : LineFound :=
  let y := errSyn err
  if y = [0, 0, 0, 0, 0] then .clean
  else if y = errSyn poisonErr then .poison
  else match findBelow 72 (fun i => y == (List.range 5).map (fun k => symSyn k i (y.headD 0))) with
    | some i => .one i (y.headD 0)
    | none => .bad

/-- Coefficients of the code's generator, highest first. -/
def rsGenerator : List Nat :=
  (List.range 5).foldl (fun g k => List.zipWith (· ^^^ ·) (g ++ [0]) (0 :: g.map (Crypto.gmul 0x11D 8 (alphaPow k)))) [1]

/-- CHECK of a line's 67 data and tag symbols (R297). -/
def rsCheck (syms : List Nat) : List Nat :=
  syms.foldl (fun st x =>
    let fb := x ^^^ st.headD 0
    List.zipWith (· ^^^ ·) (st.drop 1 ++ [0]) ((rsGenerator.drop 1).map (Crypto.gmul 0x11D 8 fb))) [0, 0, 0, 0, 0]

/-- Symbol `i` of a line differs by `e` from what it held. -/
def State.xorSymbol (s : State) (n i e : Nat) : State :=
  let l := s.line n
  let t := if i < 64 then s.setByte (64 * n + i) (s.byte (64 * n + i) ^^^ BitVec.ofNat 8 e) else s
  t.setLine n { l with err := l.err.set 0 i (l.err.get 0 i ^^^ BitVec.ofNat 8 e) }

/-- The data bytes of a line as stored. -/
def State.lineData (s : State) (n : Nat) : List Nat := (List.range 64).map (fun i => (s.byte (64 * n + i)).toNat)

/-- TAG of data under a key index and pair (R298): the key is the device integrity key or the one derived from the pair. -/
def State.tagOf (s : State) (n key : Nat) (pair : BitVec 512) (data : List Nat) : Nat :=
  let k := if key = 0 then Config.integrityKey s.store.fills else Config.tagKey pair
  Crypto.natBe ((Crypto.cmac (Crypto.beNat 32 k.toNat) (data ++ Crypto.leNat 6 (64 * n) ++ [key % 256, 0])).take 3)

/-- The data bytes a line was written with. -/
def State.lineWritten (s : State) (n : Nat) : List Nat :=
  (List.range 64).map (fun i => ((s.byte (64 * n + i)) ^^^ (s.line n).err.get 0 i).toNat)

/-- TAG of a line as stored: that of its write, with what upsets changed (R298). -/
def State.lineTag (s : State) (n : Nat) : Nat :=
  let l := s.line n
  s.tagOf n l.key l.pair (s.lineWritten n) ^^^ Crypto.natLe ((List.range 3).map (fun i => (l.err.get 0 (64 + i)).toNat))

/-- CHECK of a line as stored: that of its write, with poison's mark and what upsets changed (R297, R299). -/
def State.lineCheck (s : State) (n : Nat) : Nat :=
  let l := s.line n
  Crypto.natLe (Crypto.xorB (rsCheck (s.lineWritten n ++ Crypto.leNat 3 (s.tagOf n l.key l.pair (s.lineWritten n))))
    ((List.range 5).map (fun i => (l.err.get 0 (67 + i)).toNat)))

/-- The line's TAG matches under key index `k` (R298, R303). A line written under another index, pair or tweak base fails, as R298
and R303 say; one that differs from what was written is judged by the tag of its stored data (log 21). -/
def State.tagOk (s : State) (n k : Nat) : Bool :=
  let l := s.line n
  l.key == k && (k == 0 || (s.keySlot k == some l.pair && l.base == s.cipherBase (64 * n))) &&
    (l.err.all (fun x => decide (67 ≤ x.1)) || s.lineTag n == s.tagOf n k l.pair (s.lineData n))

/-- Corrects symbol `i` of a line (R306). -/
def State.hbmCorrect (s : State) (n i e key reqEp : Nat) : State :=
  ((s.xorSymbol n i e).countReg R.HBM_PC_CORR (hbmPc (64 * n)) 1).hbmEvent n key 0x0310 0 reqEp

/-- What the symbol code finds in line `n`. -/
def State.lineState (s : State) (n : Nat) : LineFound := lineFound (s.line n).err

/-- Corrects a line if one symbol is in error (R306). -/
def State.settleLine (s : State) (n key reqEp : Nat) : State :=
  match s.lineState n with | .one i e => s.hbmCorrect n i e key reqEp | _ => s

/-- Reads one word of a line as R307 delivers it: the data as read where the errors are uncorrectable, else as deciphered under the
request's key (DEDUCED, log 22). -/
def State.hbmWord (s : State) (w key : Nat) (unreadable marked : Bool) : DataUnit :=
  { data := if unreadable then s.word w else s.decipher key w (s.word w)
    poison := unreadable || marked }

/-- Reads words `ws` of one line, counting and recording what the line shows (R306, R307). -/
def State.hbmReadLine (s : State) (n : Nat) (ws : List Nat) (key reqEp : Nat) : State × List DataUnit :=
  let s := s.settleLine n key reqEp
  let bad := s.lineState n == .bad
  let tagBad := !bad && !s.tagOk n key
  let d := ws.map (fun w => s.hbmWord w key bad (tagBad || s.lineState n == .poison))
  if bad then
    (((s.countReg R.HBM_PC_UNCORR (hbmPc (64 * n)) 1).hbmErr n key 0).hbmEvent n key 0x0311 1 reqEp, d)
  else if tagBad then
    (((s.countReg R.HBM_PC_TAG_FAIL (hbmPc (64 * n)) 1).hbmErr n key 1).hbmEvent n key 0x0312 1 reqEp, d)
  else (s, d)

/-- Upsets change symbols of a line. -/
def State.strikeLine (s : State) (n : Nat) (xs : List (Fin 72 × Byte)) : State :=
  xs.foldl (fun t x => t.xorSymbol n x.1.val x.2.toNat) s

/-- Upsets that have struck storage since the last command: packaged-memory lines by their symbols, on-chip words by what their
code sees. -/
def State.strike (s : State) (ups : List Upset) : State :=
  ups.foldl (fun t u => if u.word < 2 ^ 31 then t.strikeLine (u.word / 4) u.symbols else t.setDamage u.word (some u.damage)) s

/-- One unit of a write: storage word, byte enables, data, poison. -/
structure WUnit where
  w : Nat
  be : Nat
  data : BitVec 128
  poison : Bool
  deriving DecidableEq, Repr

/-- A line is written in full: all four words with every byte enabled (R308). -/
def fullLine (us : List WUnit) : Bool :=
  us.length == 4 && us.all (fun u => u.be % 65536 == 65535)

/-- Checks the old content of a partially written line: 0, TARGET_FAULT or TAG_FAIL (R309). -/
def State.oldLineCode (s : State) (n key : Nat) : Nat :=
  if s.lineState n = .bad then 0xE else if s.tagOk n key then 0 else 0x9

/-- Writes the units of one line under key index `key` (R299, R300, R308). -/
def State.hbmWriteLine (s : State) (n : Nat) (us : List WUnit) (key : Nat) : State :=
  let full := fullLine us
  let p := us.any (·.poison) || (!full && s.lineState n == .poison)
  let old := (List.range 4).map (fun k => if full then 0 else s.decipher key (4 * n + k) (s.word (4 * n + k)))
  let new := old.mapIdx (fun k d => us.foldl (fun d u => if u.w = 4 * n + k then mergeBytes u.be d u.data else d) d)
  let t := (List.range 4).foldl (fun t k => t.setWord (4 * n + k) (s.encipher key (4 * n + k) (new.getD k 0))) s
  t.setLine n { key := key, pair := if key = 0 then 0 else (s.keySlot key).getD 0
                base := if key = 0 then 0 else s.cipherBase (64 * n), err := if p then poisonErr else [] }

/-- The lines the units of a request lie in, in order. -/
def linesOf (us : List WUnit) : List Nat := (us.map (fun u => u.w / 4)).eraseDups

/-- Counts and records a partial line that fails (R309). -/
def State.partFailed (s : State) (n key reqEp : Nat) : State :=
  if s.oldLineCode n key = 0xE
  then ((s.countReg R.HBM_PC_UNCORR (hbmPc (64 * n)) 1).hbmErr n key 2).hbmEvent n key 0x0311 2 reqEp
  else ((s.countReg R.HBM_PC_TAG_FAIL (hbmPc (64 * n)) 1).hbmErr n key 3).hbmEvent n key 0x0009 2 reqEp

/-- A write request's lines in packaged memory: all or nothing (R308, R309). Each partial line that fails is counted and recorded;
the answer is the first one's code, 0 when performed. -/
def State.hbmWrite (s : State) (us : List WUnit) (key reqEp : Nat) : Nat × State :=
  let ls := linesOf us
  let part := ls.filter (fun n => !fullLine (us.filter (fun u => u.w / 4 == n)))
  let s := part.foldl (fun t n => t.settleLine n key reqEp) s
  match part.filter (fun n => s.oldLineCode n key != 0) with
  | n :: r => (s.oldLineCode n key, (n :: r).foldl (fun t m => t.partFailed m key reqEp) s)
  | [] => (0, ls.foldl (fun t n => t.hbmWriteLine n (us.filter (fun u => u.w / 4 == n)) key) s)

/-! ### Reads, writes and atomics at a memory target -/

/-- Code a memory access ends with when it cannot be served yet: its stack is not initialised or its domain is
not up, so the request waits (R305 check 1, R387). -/
def codeWaits : Nat := 0xFFFF

/-! ### Scratchpad ports (R277) and the idle step (R276) -/

/-- Port-A accesses of the steps in progress at cluster `c`: a bundle is one step of its core. -/
def State.portASteps (s : State) (c : Nat) : List PortA :=
  (s.grp c).portA.filter (fun e =>
    let k := s.cores.get {} e.core
    k.slot != 0 && k.step == e.step)

/-- Records a port-A access of core `n`. -/
def State.portA (s : State) (n w : Nat) (store : Option (Nat × Bool)) : State :=
  let c := n / 8
  s.setGrp c { s.grp c with portA := s.portASteps c ++ [⟨n, (s.cores.get {} n).step, w, ⟨s.word w, s.poisonAt w⟩, store⟩] }

/-- The first store of port A to a word in a step in progress, with what the word held before it. -/
def State.portAStore (s : State) (c w : Nat) : Option PortA :=
  (s.portASteps c).find? (fun e => e.word == w && e.store.isSome)

/-- A port-B write to word `w` waits: port A writes another word of its bank in this step (R277). -/
def State.portBWaits (s : State) (c w : Nat) : Bool :=
  let bank := fun x => bankOf c (16 * x - (baseScratch + c * 0x200000))
  (s.portASteps c).any (fun e => e.store.isSome && e.word != w && bank e.word == bank w)

/-- A port-B read: where port A writes the word in the same step, it returns the old data (R277). -/
def State.portBRead (s : State) (c w : Nat) : State × DataUnit :=
  match s.portAStore c w with
  | some e => (s, e.old)
  | none => s.ocRead w

/-- A port-B write: where port A writes the word in the same step, B's write is ordered first and A's overwrites it (R277). -/
def State.portBWrite (s : State) (c w be : Nat) (d : BitVec 128) (poison : Bool) : State :=
  match s.portAStore c w with
  | none => s.ocWrite w be d poison
  | some e =>
    let full := fun b => b % 65536 == 65535
    let stores := (s.portASteps c).filterMap (fun x => if x.word = w then x.store else none)
    let wrote := stores.foldl (fun a x => a ||| x.1) 0
    let first := poison || (!full be && e.old.poison)
    ((s.setWord w (mergeBytes (be % 65536 &&& (65535 - wrote % 65536)) (s.word w) d)).endReservations w).setPoison w
      (stores.foldl (fun p x => x.2 || (!full x.1 && p)) first)

/-- An agent waits for an idle step: the core is inside a bundle, which is one step of its banks (R276). -/
def State.coreBusy (s : State) (n : Nat) : Bool := (s.cores.get {} n).slot != 0

/-- Groups consecutive words by line, in order. -/
def wordsByLine (w n : Nat) : List (Nat × List Nat) :=
  let ws := (List.range n).map (w + ·)
  (ws.map (· / 4)).eraseDups.map (fun l => (l, ws.filter (fun x => x / 4 == l)))

/-- Reads `n` words from `16 w` at a memory target: code, units and the state after. -/
def State.memRead (s : State) (w n key reqEp : Nat) : Nat × List DataUnit × State :=
  match decodeAddr (16 * w) with
  | .hbm pc =>
    if s.hbmReady pc = false then (codeWaits, [], s)
    else
      let c := s.hbmCheck (16 * w) key
      if c ≠ 0 then (c, [], s.countDenied (16 * w) c)
      else
        let r := (wordsByLine w n).foldl (fun (acc : State × List DataUnit) lw =>
          let (t, d) := acc.1.hbmReadLine lw.1 lw.2 key reqEp
          (t, acc.2 ++ d)) (s, [])
        (0, r.2, r.1)
  | .unmapped => (0x1, [], s)
  | .regs => (0x5, [], s)
  | .port _ => (0x5, [], s)
  | .window _ => (0x5, [], s)
  | tgt =>
    if (match tgt with | .core c => s.coreBusy c | _ => false) then (codeWaits, [], s)
    else
      let r := (List.range n).foldl (fun (acc : State × List DataUnit) k =>
        let (t, d) := (match tgt with | .scratch c => acc.1.portBRead c (w + k) | _ => acc.1.ocRead (w + k))
        (t, acc.2 ++ [d])) (s, [])
      (0, r.2, r.1)

/-- A write by core endpoint `ep` leaves that core's own reservation as `s` has it: only another agent's write clears it
(R208). -/
def State.keepOwn (t s : State) (ep : Nat) : State :=
  match coreOfEp ep with | some n => { t with resv := t.resv.set 0 n (s.resv.get 0 n) } | none => t

/-- Writes units at a memory target: code and the state after. -/
def State.memWrite (s : State) (us : List WUnit) (key reqEp : Nat) : Nat × State :=
  match us with
  | [] => (0, s)
  | u :: _ =>
    match decodeAddr (16 * u.w) with
    | .hbm pc =>
      if s.hbmReady pc = false then (codeWaits, s)
      else
        let c := s.hbmCheck (16 * u.w) key
        if c ≠ 0 then (c, s.countDenied (16 * u.w) c) else s.hbmWrite us key reqEp
    | .unmapped => (0x1, s)
    | .regs => (0x5, s)
    | .port _ => (0x5, s)
    | .window _ => (0x5, s)
    | tgt =>
      if (match tgt with
        | .core c => s.coreBusy c
        | .scratch c => us.any (fun u => s.portBWaits c u.w)
        | _ => false) then (codeWaits, s)
      else
        (0, (us.foldl (fun t u => match tgt with
          | .scratch c => t.portBWrite c u.w u.be u.data u.poison
          | _ => t.ocWrite u.w u.be u.data u.poison) s).keepOwn s reqEp)

/-- The new value of an atomic operation at width `w` bits (R135); none for an unlisted code. -/
def atomicOp (op w old a b : Nat) : Option Nat :=
  let m := 2 ^ w
  let a := a % m; let b := b % m
  match op with
  | 0 => some a
  | 1 => some (if old = b then a else old)
  | 2 => some ((old + a) % m)
  | 3 => some (old &&& a)
  | 4 => some (old ||| a)
  | 5 => some (old ^^^ a)
  | 6 => some (if toSigned w a < toSigned w old then a else old)
  | 7 => some (if toSigned w old < toSigned w a then a else old)
  | 8 => some (min old a)
  | 9 => some (max old a)
  | _ => none

/-- An atomic at byte address `addr` (R135): the target's checks, then the indivisible operation. Answers the code,
the old value with its poison, and the state after. -/
def State.memAtomic (s : State) (addr key reqEp : Nat) (x0 x1 : DataUnit) : Nat × DataUnit × State :=
  let u0 := x0.data; let u1 := x1.data
  let poison := x0.poison || x1.poison
  let wide := bitAt u1.toNat 4
  let w := if wide then 64 else 32
  let tgt := decodeAddr addr
  let early := match tgt with
    | .hbm pc => if s.hbmReady pc = false then codeWaits else s.hbmCheck addr key
    | _ => 0
  let off := addr % 0x100000
  let ok := match tgt with
    | .hbm _ => true
    | .scratch _ => true
    | .core _ => 0x40000 ≤ off
    | _ => false
  if early ≠ 0 then (early, ⟨0, false⟩, s.countDenied addr early)
  else if tgt = .unmapped then (0x1, ⟨0, false⟩, s)
  else if tgt = .regs ∧ (wide = true ∨ addr % 4 ≠ 0) then (0x2, ⟨0, false⟩, s)
  else if tgt = .regs ∧ baseRegs + 0xF00000 ≤ addr then (0x1, ⟨0, false⟩, s)
  else if ok = false then (0x5, ⟨0, false⟩, s)
  else if addr % (w / 8) ≠ 0 then (0x6, ⟨0, false⟩, s)
  else if u1.toNat / 32 ≠ 0 ∨ u1.toNat % 16 > 9 then (0x3, ⟨0, false⟩, s)
  else
    let wd := addr / 16
    let (c, ds, t) := s.memRead wd 1 key reqEp
    match c, ds with
    | 0, d :: _ =>
      let sh := 8 * (addr % 16)
      let old := bitsOf d.data.toNat sh w
      let a := bitsOf u0.toNat 0 64
      let b := bitsOf u0.toNat 64 64
      match atomicOp (u1.toNat % 16) w old a b with
      | some v =>
        let be := (2 ^ (w / 8) - 1) * 2 ^ (addr % 16)
        let (c2, t2) := (match tgt with
          | .hbm _ => s.memWrite [⟨wd, be, BitVec.ofNat 128 (v * 2 ^ sh), poison⟩] key reqEp
          | _ => t.memWrite [⟨wd, be, BitVec.ofNat 128 (v * 2 ^ sh), poison⟩] key reqEp)
        (c2, ⟨BitVec.ofNat 128 old, d.poison⟩, t2)
      | none => (0x3, ⟨0, false⟩, s)
    | c, _ => (c, ⟨0, false⟩, t)

end Sys2Proof.Machine
end

