-- ==== Sys2Proof/Machine/Mesh.lean ====
section
/-! DEFINITION. Inside Antler (R129, R133, R139 to R143): units and their sidebands, routers with five ports in two planes,
class buffers and credits, wormhole switching with its arbitration, routes, and the die-to-die bridge. One round of the
network is what a step on an empty queue does (DESIGN CHOICE, log 1): the network has no clock and the table no row for it. -/

namespace Sys2Proof.Machine

/-! ### Units (R133) -/

/-- The header unit of a packet. -/
def headerUnit (p : Packet) : BitVec 128 :=
  p.dest ++ p.src ++ p.cmd ++ p.vc ++ p.tag ++ p.len ++ p.key ++ BitVec.ofBool p.secure ++ BitVec.ofBool p.debug ++
    BitVec.ofBool p.poison ++ BitVec.ofBool p.ordered ++ p.rsv ++ p.be ++ p.addr

/-- A unit as it crosses a link, with its sidebands. -/
structure LinkUnit where
  data : BitVec 128
  poison : Bool
  last : Bool
  deriving DecidableEq, Repr

/-- The units of a packet, the header first; the last one carries LAST. -/
def packetUnits (p : Packet) : List LinkUnit :=
  (⟨headerUnit p, false⟩ :: p.data : List DataUnit).mapIdx (fun k u => ⟨u.data, u.poison, k == p.data.length⟩)

/-- Units of a packet: the header and its data. -/
def pktUnits (p : Packet) : Nat := 1 + p.data.length

/-! ### Routes (R141, R142) -/

/-- The minimal directions the odd-even turn model allows from `c` for a packet from column `sx` to `d` (R141);
x grows east and y grows south. -/
def routeDirs (cx cy sx dx dy : Nat) : List Dir :=
  let vert := if cy < dy then Dir.south else Dir.north
  if cx = dx ∧ cy = dy then [.localPort]
  else if cx = dx then [vert]
  else if cx < dx then
    if cy = dy then [.east]
    else (if cx % 2 = 1 ∨ cx = sx then [vert] else []) ++ (if dx % 2 = 1 ∨ dx - cx ≠ 1 then [Dir.east] else [])
  else Dir.west :: (if cy ≠ dy ∧ cx % 2 = 0 then [vert] else [])

/-- The direction of an ordered packet: east or west first, then north or south (R142). -/
def routeXy (cx cy dx dy : Nat) : Dir :=
  if cx < dx then .east else if dx < cx then .west else if cy < dy then .south else if dy < cy then .north else .localPort

/-- The plane of an ordered packet (R142). -/
def orderedPlane (dx dy : Nat) : Nat := (dx + dy) % 2

/-- Router of an endpoint (R130). -/
def epX (e : BitVec 10) : Nat := e.toNat / 64
def epY (e : BitVec 10) : Nat := e.toNat / 4 % 16

/-- The buffer a unit that leaves router (x, y) in a direction enters: the neighbour's facing input port, or on the
die boundary, between columns 7 and 8, the bridge's (R143). -/
def nextHop (x y : Nat) : Dir → Option Hop
  | .east => if x = 7 then some ⟨7, y, .west, true, 0, 0⟩ else some ⟨x + 1, y, .west, false, 0, 0⟩
  | .west => if x = 8 then some ⟨8, y, .east, true, 0, 0⟩ else some ⟨x - 1, y, .east, false, 0, 0⟩
  | .south => some ⟨x, y + 1, .north, false, 0, 0⟩
  | .north => some ⟨x, y - 1, .south, false, 0, 0⟩
  | .localPort => none

/-- The far side of the bridge. -/
def Hop.across (h : Hop) : Hop := if h.port = .west then ⟨8, h.y, .west, false, 0, 0⟩ else ⟨7, h.y, .east, false, 0, 0⟩

/-! ### Buffers and credits (R140) -/

/-- Units a class buffer holds: the adaptive class 8, the ordered class 4; the bridge's buffers, whose depth the spec does
not give, the same (DESIGN CHOICE, log 97). -/
def classDepth (ordered : Bool) : Nat := if ordered then 4 else 8

/-- Two hops are the same input port or bridge buffer. -/
def Hop.same (h k : Hop) : Bool := h.x == k.x && h.y == k.y && h.port == k.port && h.bridge == k.bridge

/-- A packet uses the buffers of this plane, VC and class. -/
def Worm.inClass (w : Worm) (plane : Bool) (vc : BitVec 2) (ordered : Bool) : Bool :=
  w.plane == plane && w.pkt.vc == vc && w.pkt.ordered == ordered

/-- Free credits of a class at a buffer. -/
def Net.credits (n : Net) (plane : Bool) (vc : BitVec 2) (ordered : Bool) (h : Hop) : Nat :=
  classDepth ordered - (n.flight.filter (fun w => w.inClass plane vc ordered)).foldl (fun a w =>
    (w.path.filter h.same).foldl (fun a k => a + k.units) a) 0

/-- The input port of an endpoint's router. -/
def sourceHop (e : BitVec 10) : Hop := ⟨epX e, epY e, .localPort, false, 0, 0⟩

/-- The plane a packet is sent into (R141, R142): an ordered one's is fixed; an adaptive one's has more free credits at the
local port, and on a tie the planes alternate. The second part says that they tied. -/
def Net.planeFor (n : Net) (p : Packet) : Bool × Bool :=
  if p.ordered then (orderedPlane (epX p.dest) (epY p.dest) == 1, false)
  else
    let c0 := n.credits false p.vc false (sourceHop p.src)
    let c1 := n.credits true p.vc false (sourceHop p.src)
    if c0 = c1 then (n.plane.get false p.src.toNat, true) else (decide (c0 < c1), false)

/-- Sends a packet into the network: it waits at its endpoint to be injected. -/
def State.sendPacket (s : State) (p : Packet) : State :=
  let (pl, tie) := s.net.planeFor p
  { s with net := { s.net with
      flight := s.net.flight ++ [{ pkt := p, plane := pl, left := pktUnits p }]
      plane := if tie then s.net.plane.set false p.src.toNat (!pl) else s.net.plane } }

/-- Hands an endpoint packets that need no way through the network: parked ones, or, with `own`, an injection interface's own error
responses. -/
def State.handPackets (s : State) (ps : List Packet) (own : Bool) : State :=
  { s with net := { s.net with
      flight := ps.map (fun p => { pkt := p, own := own, parked := !own, out := pktUnits p }) ++ s.net.flight } }

/-- Every unit of the packet has been handed over. -/
def Worm.whole (w : Worm) : Bool := w.out == pktUnits w.pkt

/-- The packets in the network. -/
def Net.packets (n : Net) : List Packet := n.flight.map (·.pkt)

/-! ### Output ports (R140) -/

/-- Key of an output port: plane, router and port; 5 is an endpoint's way in, 6 the far side of the bridge. -/
def portKey (plane : Bool) (x y port : Nat) : Nat := ((bit plane * 16 + x) * 16 + y) * 8 + port

/-- Number of a port. -/
def Dir.code : Dir → Nat
  | .localPort => 0 | .north => 1 | .east => 2 | .south => 3 | .west => 4

/-- The output port by which units leave hop `a` for hop `b`. -/
def outPort (plane : Bool) (a b : Hop) : Nat :=
  portKey plane a.x a.y (if a.bridge then 6 else match b.port with
    | .west => 2 | .east => 4 | .north => 3 | .south => 1 | .localPort => 5)

/-- Pairs of neighbouring hops, the later first. -/
def hopPairs : List Hop → List (Hop × Hop)
  | b :: a :: r => (b, a) :: hopPairs (a :: r)
  | _ => []

/-- The output ports a packet holds on its VC: its header has passed them and its last unit has not. An endpoint that has not
taken a whole packet off VC0, VC1 or VC3 holds its local port on that VC; VC2 is never held (R144, R145). -/
def Worm.holds (w : Worm) : List Nat :=
  (hopPairs w.path).map (fun (b, a) => outPort w.plane a b) ++
  (if w.path ≠ [] ∧ w.left ≠ 0 then [portKey w.plane (epX w.pkt.src) (epY w.pkt.src) 5] else []) ++
  (if w.out ≠ 0 ∧ (w.whole = false ∨ w.pkt.vc ≠ 2) then [portKey w.plane (epX w.pkt.dest) (epY w.pkt.dest) 0] else [])

/-- Another packet than the one at `i` holds an output port on a VC. -/
def Net.heldBy (n : Net) (i key : Nat) (vc : BitVec 2) : Bool :=
  (n.flight.mapIdx (fun j w => (j, w))).any (fun (j, w) => j != i && w.pkt.vc == vc && w.holds.contains key)

/-! ### Moves -/

/-- A unit that may move: packet `i`, from its hop `from?` (none: from the endpoint) to the buffer `to?` (none: to the
endpoint), through an output port, for which input port `inp` competes. `header`: the packet does not hold the port yet. -/
structure Move where
  i : Nat
  from? : Option Nat
  to? : Option Hop
  key : Nat
  inp : Nat
  header : Bool
  deriving DecidableEq, Repr

/-- A hop's units are at the front of their buffer. -/
def Net.atFront (n : Net) (i : Nat) (w : Worm) (h : Hop) : Bool :=
  h.units != 0 && !(n.flight.mapIdx (fun j v => (j, v))).any (fun (j, v) => j != i &&
    v.inClass w.plane w.pkt.vc w.pkt.ordered && v.path.any (fun k => k.same h && k.units != 0 && decide (k.since < h.since)))

/-- The direction a header takes where two are allowed: more free credits downstream, then the axis with more distance left,
then east or west (R141). -/
def Net.choose (n : Net) (w : Worm) (x y : Nat) (ds : List Dir) : Dir :=
  match ds with
  | [a, b] =>
    let (v, h) := if a = .east ∨ a = .west then (b, a) else (a, b)
    let cr := fun d => match nextHop x y d with | some k => n.credits w.plane w.pkt.vc false k | none => 0
    let far := fun (p q : Nat) => if p < q then q - p else p - q
    if cr h < cr v then v
    else if cr v < cr h then h
    else if far x (epX w.pkt.dest) < far y (epY w.pkt.dest) then v else h
  | d :: _ => d
  | [] => .localPort

/-- The direction of a header at router (x, y). -/
def Net.heading (n : Net) (w : Worm) (x y : Nat) : Dir :=
  let dx := epX w.pkt.dest; let dy := epY w.pkt.dest
  if w.pkt.ordered then routeXy x y dx dy else n.choose w x y (routeDirs x y (epX w.pkt.src) dx dy)

/-- The next move out of hop `k` of packet `i`, whatever stands in its way. -/
def Net.moveFrom (n : Net) (i : Nat) (w : Worm) (k : Nat) (h : Hop) : Move :=
  match k with
  | 0 =>
    let local' : Move := ⟨i, some 0, none, portKey w.plane h.x h.y 0, h.port.code, w.out == 0⟩
    if w.out ≠ 0 then local'
    else if h.bridge then ⟨i, some 0, some h.across, portKey w.plane h.x h.y 6, h.port.code, true⟩
    else match nextHop h.x h.y (n.heading w h.x h.y) with
      | some b => ⟨i, some 0, some b, outPort w.plane h b, h.port.code, true⟩
      | none => local'
  | k + 1 =>
    let b := w.path.getD k h
    ⟨i, some (k + 1), some b, outPort w.plane h b, h.port.code, false⟩

/-- The moves of packet `i` that nothing stands in the way of: units at the front of their buffer, a credit where they go,
the output port held by no other packet on the VC; and over the bridge while it runs, `up` (R143). -/
def Net.movesOf (n : Net) (up : Bool) (i : Nat) (w : Worm) : List Move :=
  let inject : List Move := if w.left = 0 then [] else
    [⟨i, none, some (sourceHop w.pkt.src), portKey w.plane (epX w.pkt.src) (epY w.pkt.src) 5, w.pkt.src.toNat % 4, w.path == []⟩]
  let hops := (w.path.mapIdx (fun k h => (k, h))).filterMap (fun (k, h) =>
    if n.atFront i w h && (up || !h.bridge) then some (n.moveFrom i w k h) else none)
  (inject ++ hops).filter (fun m =>
    (match m.to? with | some b => decide (0 < n.credits w.plane w.pkt.vc w.pkt.ordered b) | none => true) &&
    !n.heldBy i m.key w.pkt.vc)

/-- Every move the network could make. -/
def Net.allMoves (n : Net) (up : Bool) : List Move := (n.flight.mapIdx (fun i w => n.movesOf up i w)).flatten

/-- The order of the VCs at an output port. -/
def vcOrder : List Nat := [2, 0, 3, 1]

/-- VC of a move's packet. -/
def Net.vcOf (n : Net) (m : Move) : Nat := match n.flight[m.i]? with | some w => w.pkt.vc.toNat | none => 0

/-- The VC an output port serves: one passed over for 32 consecutive units, else the first in order. -/
def Net.pickVc (n : Net) (key : Nat) (waiting : Nat → Bool) : Option Nat :=
  match vcOrder.find? (fun v => waiting v && decide (32 ≤ n.passed.get 0 (4 * key + v))) with
  | some v => some v
  | none => vcOrder.find? waiting

/-- The move an output port makes on a VC: the holder's, else the next input port's in turn. -/
def Net.pickMove (n : Net) (key v : Nat) (ms : List Move) : Option Move :=
  match ms.find? (fun m => !m.header) with
  | some m => some m
  | none =>
    let last := n.served.get 7 (4 * key + v)
    ((List.range 8).map (fun k => (last + 1 + k) % 8)).findSome? (fun p => ms.find? (fun m => m.inp == p))

/-- A unit more at, or less from, one hop of a path. -/
def addUnit (k : Nat) (up : Bool) (path : List Hop) : List Hop :=
  path.mapIdx (fun j h => if j = k then { h with units := if up then h.units + 1 else h.units - 1 } else h)

/-- Drops the hops the last unit has left. -/
def trimPath (left : Nat) (path : List Hop) : List Hop :=
  if left = 0 then (path.reverse.dropWhile (fun h => h.units == 0)).reverse else path

/-- A packet after a move of one of its units. -/
def Worm.moved (w : Worm) (m : Move) (now : Nat) : Worm :=
  let w := match m.from? with
    | none => { w with left := w.left - 1 }
    | some k => { w with path := addUnit k false w.path }
  let w := match m.to? with
    | none => { w with out := w.out + 1 }
    | some b =>
      if m.header then { w with path := { b with units := 1, since := now } :: w.path }
      else match m.from? with
        | none => { w with path := addUnit (w.path.length - 1) true w.path }
        | some k => { w with path := addUnit (k - 1) true w.path }
  { w with path := trimPath w.left w.path }

/-- One output port serves one unit, if any may move through it (R140). -/
def Net.portMove (n : Net) (up : Bool) (key : Nat) : Net :=
  let ms := (n.allMoves up).filter (fun m => m.key == key)
  let waiting := fun v => ms.any (fun m => n.vcOf m == v)
  match n.pickVc key waiting with
  | none => n
  | some v =>
    match n.pickMove key v (ms.filter (fun m => n.vcOf m == v)) with
    | none => n
    | some m =>
      let passed := vcOrder.foldl (fun t u =>
        if u = v then t.set 0 (4 * key + u) 0
        else if waiting u then t.set 0 (4 * key + u) (t.get 0 (4 * key + u) + 1) else t) n.passed
      { n with
        flight := n.flight.mapIdx (fun i w => if i = m.i then w.moved m n.moves else w)
        served := if m.header then n.served.set 7 (4 * key + v) m.inp else n.served
        passed := passed
        moves := n.moves + 1 }

/-- A round of the network: every output port through which a unit may move serves one. -/
def Net.round (n : Net) (up : Bool) : Net := (((n.allMoves up).map (·.key)).eraseDups).foldl (fun n key => n.portMove up key) n

end Sys2Proof.Machine
end

