-- ==== Sys2Proof/Machine/Frames.lean ====
section
/-! DEFINITION. Configuration frames (R354, R355): their addresses, what they hold, and the upsets that strike them (R337, R377). -/

namespace Sys2Proof.Machine

/-- Region of a region frame; none for a static frame. -/
def frameRegion (a : Nat) : Option Nat := if bitAt a 24 then none else some (a / 2 ^ 16 % 64)

/-- The address names a frame that holds configuration, not the contents of a block memory (R354, R355). -/
def logicFrame (a : Nat) : Bool :=
  if bitAt a 24 then decide (a - 2 ^ 24 < 16384) else decide (a < 2 ^ 22) && decide (a % 2 ^ 16 < 7168)

/-- Frames whose address meets `f`. -/
def State.framesOf (s : State) (f : Nat → Bool) : List (Nat × BitVec 4096) := s.fab.frames.filter (fun e => f e.1)

/-- Frames of region `r`, and the static frames. -/
def State.regionFrames (s : State) (r : Nat) : List (Nat × BitVec 4096) := s.framesOf (fun a => a / 2 ^ 16 == r)
def State.staticFrames (s : State) : List (Nat × BitVec 4096) := s.framesOf (fun a => bitAt a 24)

/-- Key of a long line of a region. -/
def lineKey (r line : Nat) : Nat := r * 1024 + line % 1024

/-- Bits of a frame and its check bits that are flipped, as a mask. -/
def flipMask (flips : List Nat) : Nat := flips.foldl (fun m b => m ^^^ 2 ^ (b % 4112)) 0

/-- Flips the bits of a frame that a mask names, in its data and its check bits. -/
def State.flipFrame (s : State) (a mask : Nat) : State :=
  { s with fab := { s.fab with
    frames := s.fab.frames.set 0 a (s.fab.frames.get 0 a ^^^ BitVec.ofNat 4096 mask)
    checks := s.fab.checks.set 0 a (s.fab.checks.get 0 a ^^^ BitVec.ofNat 16 (mask / 2 ^ 4096)) } }

/-- Sets what upsets have done to a frame. -/
def State.setHit (s : State) (a : Nat) (h : Option FrameHit) : State :=
  { s with fab := { s.fab with hits := s.fab.hits.set none a h } }

/-- Bits of a frame that upsets have flipped since it was written or corrected. -/
def State.flips (s : State) (a : Nat) : List Nat := match s.fab.hits.get none a with | some h => h.flips | none => []

/-- Upsets flip bits of a frame; a bit flipped twice is as it was written. -/
def State.strikeFrame (s : State) (a : Nat) (bits : List Nat) : State :=
  if logicFrame a = false then s
  else
    let flips := bits.foldl (fun l b => if l.contains (b % 4112) then l.erase (b % 4112) else l ++ [b % 4112]) (s.flips a)
    let lost := match s.fab.hits.get none a with | some h => h.lost | none => false
    (s.flipFrame a (flipMask bits)).setHit a (if flips.isEmpty && !lost then none else some ⟨flips, lost⟩)

/-- A frame's data as the engine wrote it, which the device CRC counts (R379). -/
def State.frameWritten (s : State) (a : Nat) : BitVec 4096 := s.fab.frames.get 0 a ^^^ BitVec.ofNat 4096 (flipMask (s.flips a))

/-- A free choice strikes a frame (R337). -/
def State.upsetRound (s : State) : State :=
  let (n, s) := s.draw
  match Config.upset n with
  | some (a, bits) => s.strikeFrame a bits
  | none => s

end Sys2Proof.Machine
end

