-- ==== Sys2Proof/Machine/Nets.lean ====
section
/-! DEFINITION. The fabric's clock nets (R332, R334): what drives a global or regional net, which leaf nets run, and which fabric
loops a region's nets come from; fabric ports and the clocks they run on (R338). -/

namespace Sys2Proof.Machine

/-! ### Drivers (R332, R412) -/

/-- Input code of a mux that names a monitored source: its monitor index (R405, R412). -/
def codeMonitor (code : Nat) : Option Nat :=
  if code = 0 then some 0 else if code ≤ 4 then some (code + 1) else if code ≤ 6 then some (code + 1)
  else if code = 7 then some 40 else none

/-- What drives a net: output k of FAB_LOOP j, a clock-capable pin, or a tap of the system clocks (CLK_MUX_37 to _44). -/
inductive NetDriver where
  | low
  | loop (j k : Nat)
  | pin (i : Nat)
  | tap (m : Nat)
  deriving DecidableEq, Repr

/-- Quadrant of a bank, and a pin that may drive a clock net (R345). -/
def bankQuadrant (b : Nat) : Nat := b / 4
def clockPin (i : Nat) : Bool := decide (i % 48 < 4)

/-- Quadrant of a regional net; none for the 32 global nets. -/
def netQuadrant (k : Nat) : Option Nat := if k < 32 then none else some ((k - 32) / 24)

/-- The driver of net `k` by its code: 0 none, 1 to 64 the fabric loops' outputs, 65 to 832 pins, 833 to 840 taps. A pin is clock-capable,
and a regional net takes only its quadrant's loops and banks (R332); any other code leaves the net low. -/
def netDriver (k c : Nat) : NetDriver :=
  let near := fun q => match netQuadrant k with | some n => n == q | none => true
  if c = 0 then .low
  else if c ≤ 64 then (if near ((c - 1) / 16) then .loop ((c - 1) / 4) ((c - 1) % 4) else .low)
  else if c ≤ 832 then (if clockPin (c - 65) && near (bankQuadrant ((c - 65) / 48)) then .pin (c - 65) else .low)
  else if c ≤ 840 ∧ (netQuadrant k).isNone then .tap (37 + (c - 833))
  else .low

/-- The source a mux's input code names has not stopped; a pin has no monitor. -/
def State.codeRuns (s : State) (code : Nat) : Bool :=
  match codeMonitor code with | some k => !s.isSet F.CLK_MON_STATUS.STOPPED k | none => true

/-- State of a bank: 0 ABSENT, 1 GOOD, 2 MISMATCH, 3 LOST. -/
def State.bankState (s : State) (b : Nat) : Nat := bitsOf (s.reg R.CFG_IO_BANK_STATUS 0) (2 * b) 2

/-- Output `k` of FAB_LOOP `j` runs: enabled, not stopped in DOZE, its mux passing the loop or the loop's reference (R409, R411,
R412, R416). A coasting loop's outputs run. -/
def State.loopOutRuns (s : State) (j k : Nat) : Bool :=
  let l := 5 + j
  s.isSet F.CLK_FAB_OUT.EN (4 * l + k) && !s.clk.parked.get false l && !s.clk.muxLow.get false (16 + l) &&
    (if s.get F.CLK_MUX_STATUS.CUR (16 + l) = 13 then s.codeRuns (s.get F.CLK_MUX_STATUS.CUR l)
     else s.isSet F.CLK_LOOP_CTRL.EN l && !s.clk.low.get false l)

/-- A global or regional net runs. -/
def State.netRuns (s : State) (k : Nat) : Bool :=
  match netDriver k (s.fab.nets.get 0 k) with
  | .low => false
  | .loop j o => s.loopOutRuns j o
  | .pin i => s.bankState (i / 48) == 1
  | .tap m => !s.clk.muxLow.get false m && s.codeRuns (s.get F.CLK_MUX_STATUS.CUR m)

/-- The net a leaf net selects, if any (R334). -/
def State.leafSource (s : State) (r n : Nat) : Option Nat :=
  match s.fab.leaf.get 0 (16 * r + n) with
  | 0 => none
  | c => if c ≤ 32 then some (c - 1) else some (32 + 24 * (r / 16) + (c - 33) % 24)

/-- Leaf net `n` of region `r` runs: a net whose driver has stopped has no edge, and its flip-flops hold their state. -/
def State.leafRuns (s : State) (r n : Nat) : Bool :=
  match s.leafSource r n with | some k => s.netRuns k | none => false

/-- Leaf net `n` of region `r` has an edge where the nets `edges` have one. -/
def State.leafEdge (s : State) (r n : Nat) (edges : Nat → Bool) : Bool :=
  match s.leafSource r n with | some k => edges k && s.netRuns k | none => false

/-- Fabric loops that drive a net of region `r`. -/
def State.regionLoops (s : State) (r : Nat) : List Nat :=
  (List.range 16).filterMap (fun n => match s.leafSource r n with
    | some k => (match netDriver k (s.fab.nets.get 0 k) with | .loop j _ => some (5 + j) | _ => none)
    | none => none)

/-- Outputs of loops that DOZE has stopped run again (R416). -/
def State.restartLoops (s : State) (ls : List Nat) : State :=
  { s with clk := { s.clk with parked := s.clk.parked.filter (fun e => !ls.contains e.1) } }

/-- DOZE stops the outputs of the fabric loops that drive no net of an ACTIVE region (R416). -/
def State.parkLoops (s : State) : State :=
  let used := (List.range 64).flatMap (fun r => if s.get F.PR_REGION_STATE.STATE r = 3 then s.regionLoops r else [])
  { s with clk := { s.clk with parked := (List.range 16).foldl (fun m j =>
      m.set false (5 + j) (!used.contains (5 + j))) s.clk.parked } }

/-! ### Fabric ports and their clock (R338, R341) -/

/-- A port's record. -/
def State.fport (s : State) (p : Nat) : FPort := s.fab.ports.get {} p
def State.setFport (s : State) (p : Nat) (x : FPort) : State :=
  { s with fab := { s.fab with ports := s.fab.ports.set {} p x } }

/-- Region of a port (R338). -/
def portRegion (p : Nat) : Nat := 16 * (p / 32) + p % 32 / 2

def State.portActive (s : State) (p : Nat) : Bool := s.isSet F.PR_FP_STATUS.ACTIVE p

/-- Key of the leaf net a port runs on: PR_FP_CTRL.CLK of its region (R338). -/
def State.portNet (s : State) (p : Nat) : Nat := 16 * portRegion p + s.get F.PR_FP_CTRL.CLK p

/-- The port clock runs: without its cycles no unit moves on the port's channels. -/
def State.portClocked (s : State) (p : Nat) : Bool := s.leafRuns (portRegion p) (s.get F.PR_FP_CTRL.CLK p)

/-- User logic's READY on IRSP or, with `req`, on TREQ: its own signal, a free choice of the moment (R338, log 113). -/
def State.portReady (s : State) (p : Nat) (req : Bool) : Bool := Config.portReady s.free p req

/-- The port holds its ingress (R341): 64 requests await their responses, user logic holds TREQ, or no clock moves its channel. -/
def State.treqHeld (s : State) (p : Nat) : Bool :=
  !s.portClocked p || decide (64 ≤ (s.fport p).treq.length) || !s.portReady p true

end Sys2Proof.Machine
end

