-- ==== Sys2Proof/Machine/Bus.lean ====
section
/-! DEFINITION. Requests of the device's own engines, descriptor rings, DMA and firmware: what they meet on their way to a
target (R132, R138, R146, R147, R342, R385 to R389) and how they read and write. The model performs each whole within its
command (log 37). -/

namespace Sys2Proof.Machine

/-! ### Byte accesses of the device's own engines -/

/-- The wake time-out of a domain counts from now, unless it counts already (R388). -/
def State.startWake (s : State) (d : Nat) : State :=
  if s.power.wakeAt.get 0 d = 0 then { s with power := { s.power with wakeAt := s.power.wakeAt.set 0 d (s.now + 1) } } else s

/-- Requests that a domain be powered up on demand, as a parked request does (R387); a locked or failed domain stays
as it is. -/
def State.wakeDomain (s : State) (d : Nat) : State :=
  if s.domState d = 0 ∧ s.get F.PWR_DOM_STATUS.LOCKED d = 0 ∧ s.get F.PWR_DOM_STATUS.FAIL d = 0 then
    (s.put F.PWR_DOM_STATUS.STATE d 1).startWake d
  else s

/-- The lane quad a protocol engine's lanes lie in: the quad of the lowest lane bound to it with the given BIND. -/
def State.boundQuad (s : State) (bind eng : Nat) : Option Nat :=
  (findBelow 256 (fun l => s.get F.LANE_CTRL.BIND l == bind && s.get F.LANE_CTRL.ENGINE l == eng)).map (· / 4)

/-- The domain a request to a target meets: a fabric port's region, a window's lane quad (R382, R387). -/
def State.targetDom (s : State) (t : Target) : Option Nat :=
  match t with
  | .port p => some (domRegion (16 * (p / 32) + p % 32 / 2))
  | .window w => (s.boundQuad 4 (s.get F.CHL_WIN_CTRL.ENGINE w)).map domLaneQuad
  | t => targetDomain t

/-- A power-down by action 2 has passed FENCE: it denies requests (R385 step 4′, R389). -/
def State.denying (s : State) (d : Nat) : Bool :=
  (s.domState d == 4 || s.domState d == 5) && (match s.power.downs.get none d with | some x => x.deny | none => false)

/-- What a domain makes of a new request: 0 it is served, WAKE_TIMEOUT, DOMAIN_OFF, or it waits while the domain wakes
(R387 to R389). -/
def State.domCode (s : State) (d : Nat) : Nat :=
  if (s.get F.PWR_DOM_STATUS.LOCKED d = 1 ∧ s.domState d = 0) ∨ s.denying d = true then 0xB
  else if s.get F.PWR_DOM_STATUS.FAIL d = 1 ∧ s.domState d = 0 then 0xA
  else if s.domUp d then 0 else codeWaits

/-- The same for the domain of a target, whose cluster may be in a CLUSTER reset (R426). -/
def State.domainCode (s : State) (t : Target) : Nat :=
  if (match t with | .scratch c => s.clReset.get 0 c != 0 | .core n => s.clReset.get 0 (n / 8) != 0 | _ => false) = true
  then codeWaits
  else match s.targetDom t with
  | none => 0
  | some d => s.domCode d

/-- An access reaches a domain: it ends a fenced attempt to power the domain down, and its elements may be free again (R160, R385
step 4, R386). -/
def State.touchDomain (s : State) (d : Nat) : State :=
  let s := { s with power := { s.power with access := s.power.access.set 0 d (s.now + 1) } }
  if s.domState d = 4 then
    let s := { s.put F.PWR_DOM_STATUS.STATE d 2 with power := { s.power with
      downs := s.power.downs.set none d ((s.power.downs.get none d).map (fun x => { x with failed := some s.now })) } }
    match (if d < 0x40 then quadOfDomain d else none) with
    | some q => { s with disp := s.disp.set {} q { s.disp.get {} q with due := true } }
    | none => s
  else s

/-- An access reaches a target. -/
def State.touch (s : State) (t : Target) : State :=
  match s.targetDom t with
  | some d => s.touchDomain d
  | none => s

/-! ### Regulators and outstanding requests (R146, R147) -/

/-- Commands of R134. -/
def cmdRead : Nat := 0
def cmdWrite : Nat := 1
def cmdPosted : Nat := 2
def cmdAtomic : Nat := 3
def cmdMessage : Nat := 4
def cmdSubmit : Nat := 5
def cmdDebugRead : Nat := 6
def cmdDebugWrite : Nat := 7
def cmdReadRsp : Nat := 8
def cmdWriteRsp : Nat := 9
def cmdErrorRsp : Nat := 10

/-- The command expects a response (R134). -/
def expectsResponse (cmd : Nat) : Bool := cmd ≤ 7 && cmd != cmdPosted && cmd != cmdMessage

/-- Response units to reserve for a request (R146). -/
def responseUnits (cmd len : Nat) : Nat :=
  if cmd = cmdRead ∨ cmd = cmdDebugRead then len + 2 else if cmd = cmdAtomic then 2 else 1

/-- The regulator register of a VC. -/
def rateReg (vc : Nat) : RegRow := if vc = 0 then R.NOC_RATE_VC0 else R.NOC_RATE_VC1

/-- BURST, RATE and EN of an initiator's bucket. A RATE of 1,001 to 1,023, whose effect R149 leaves open, acts as it stands
(DESIGN CHOICE, log 93). -/
def State.rateBurst (s : State) (i vc : Nat) : Nat := max 17 (bitsOf (s.reg (rateReg vc) i) 16 12)
def State.rateRate (s : State) (i vc : Nat) : Nat := s.reg (rateReg vc) i % 1024
def State.rateOn (s : State) (i vc : Nat) : Bool := bitAt (s.reg (rateReg vc) i) 31

/-- Key of a bucket. -/
def bucketKey (i vc : Nat) : Nat := 2 * i + vc

/-- Tokens in a bucket. -/
def State.tokens (s : State) (i vc : Nat) : Nat := s.rateBurst i vc - s.net.spent.get 0 (bucketKey i vc)

/-- Units that commands the model performs whole have sent beyond the bucket's tokens: later refills give them first (log 37). -/
def State.tokenDebt (s : State) (i vc : Nat) : Nat := s.net.spent.get 0 (bucketKey i vc) - s.rateBurst i vc

/-- Sets the tokens a bucket has given and not regained. -/
def State.setSpent (s : State) (i vc n : Nat) : State :=
  { s with net := { s.net with spent := s.net.spent.set 0 (bucketKey i vc) n } }

/-- Takes tokens out of a bucket. -/
def State.takeTokens (s : State) (i vc n : Nat) : State := s.setSpent i vc (s.net.spent.get 0 (bucketKey i vc) + n)

/-- The bucket lets `units` through (R147, R149): RATE 0 holds the VC while EN is 1. -/
def State.tokensAllow (s : State) (i vc units : Nat) : Bool :=
  decide (2 ≤ vc) || !s.rateOn i vc || (s.rateRate i vc != 0 && decide (units ≤ s.tokens i vc))

/-- Outstanding limit of an initiator (R146). -/
def State.initLimit (s : State) (i : Nat) : Nat := min 64 (max 1 (s.get F.NOC_INIT_CFG.LIMIT i))

/-- Outstanding requests of an initiator. -/
def State.outstanding (s : State) (i : Nat) : List Outst := s.net.outst.get [] i


/-! ### Requests the model performs whole (log 37) -/

/-- Adds to a 48-bit counter of an initiator, wrapping. -/
def State.nocAdd (s : State) (lo hi : RegRow) (i k : Nat) : State :=
  s.setPair lo hi i ((s.pair lo hi i + k) % 2 ^ 48)

/-- Set bits among the low 16. -/
def popCount16 (v : Nat) : Nat := (maskBits 16 v).length

/-- Counts a latency (R148): 2 ns resolution, rounded down. -/
def State.nocLatency (s : State) (i ns : Nat) : State :=
  let ns := ns / 2 * 2
  let step := max 1 (s.get F.NOC_HIST_CFG.STEP_NS 0)
  let s := s.nocAdd R.NOC_STAT_LAT_SUM_LO R.NOC_STAT_LAT_SUM_HI i ns
  let s := s.setReg R.NOC_STAT_LAT_MAX i (max (s.reg R.NOC_STAT_LAT_MAX i) (min ns (2 ^ 32 - 1)))
  s.countReg R.NOC_STAT_HIST (i * 8 + min (ns / step) 7) 1

/-- The request of endpoint `ep` to a target goes through Antler: an engine reaches its own buffer without it (R233). -/
def viaAntler (ep : Nat) (t : Target) : Bool := targetEp t != ep || t == .unmapped

/-- Counts a request of endpoint `ep`, with the bytes it writes (R148). -/
def State.countReq (s : State) (ep : Nat) (t : Target) (wr : Nat) : State :=
  if viaAntler ep t then
    (s.nocAdd R.NOC_STAT_REQ_LO R.NOC_STAT_REQ_HI ep 1).nocAdd R.NOC_STAT_WR_LO R.NOC_STAT_WR_HI ep wr
  else s

/-- Counts the response to it, with the bytes it delivers and its latency, a free value (log 37). -/
def State.countRsp (s : State) (ep : Nat) (t : Target) (rd : Nat) : State :=
  if viaAntler ep t then
    let (k, s) := s.draw
    (s.nocAdd R.NOC_STAT_RD_LO R.NOC_STAT_RD_HI ep rd).nocLatency ep (Config.latency k).toNat
  else s

/-- A chassis link engine. -/
def State.chl (s : State) (f : Nat) : Chl := s.links.chl.get {} f
def State.setChl (s : State) (f : Nat) (c : Chl) : State :=
  { s with links := { s.links with chl := s.links.chl.set {} f c } }

/-- STATE of a link: 0 down, 1 training, 2 UP, 3 renegotiating. -/
def State.chlState (s : State) (f : Nat) : Nat := s.get F.CHL_STATUS.STATE f

/-- Sends a packet over a link, which takes a credit for each of its units (R121). -/
def State.chlSend (s : State) (f : Nat) (p : Packet) : State :=
  let c := s.chl f
  { s.setChl f { c with spent := c.spent.set 0 p.vc.toNat (c.spent.get 0 p.vc.toNat + pktUnits p) } with
    out := { s.out with chlSent := (f, p) :: s.out.chlSent } }

/-- Credits of a VC toward the remote device, which advertises 1,024 units for each (R121). -/
def Chl.credits (c : Chl) (vc : Nat) : Nat := 1024 - c.spent.get 0 vc

/-- What waits to be sent goes out in order on each VC, as far as the credits reach; `vcs` are held. -/
def State.chlPumpList (f : Nat) : List Packet → List Nat → State → List Packet → State × List Packet
  | [], _, s, kept => (s, kept)
  | p :: r, vcs, s, kept =>
    if vcs.contains p.vc.toNat ∨ (s.chl f).credits p.vc.toNat < pktUnits p then
      State.chlPumpList f r (p.vc.toNat :: vcs) s (kept ++ [p])
    else State.chlPumpList f r vcs (s.chlSend f p) kept

/-- Sends over an up link what it can. -/
def State.chlPump (s : State) (f : Nat) : State :=
  if s.chlState f = 2 then
    let (t, kept) := State.chlPumpList f (s.chl f).queued [] s []
    t.setChl f { t.chl f with queued := kept }
  else s

/-- Gives a link a packet to send. -/
def State.chlQueue (s : State) (f : Nat) (p : Packet) : State :=
  (s.setChl f { s.chl f with queued := (s.chl f).queued ++ [p] }).chlPump f

/-- A packet as it crosses a link through window `w`, its address translated (R33, R127). -/
def State.winXlat (s : State) (w : Nat) (p : Packet) : Packet :=
  { p with addr := BitVec.ofNat 48 (s.get F.CHL_WIN_XLAT.BASE w * 2 ^ 41 + p.addr.toNat % 2 ^ 41) }

/-- The way of a request: its initiator's endpoint, key index, VC, and whether its writes are posted. -/
structure Way where
  ep : Nat
  key : Nat
  vc : Nat := 0
  posted : Bool := false
  deriving DecidableEq, Repr

/-- The injection interface of endpoint `ep` refuses an address with UNMAPPED: unmapped, secure-only, or behind a disabled window
(R132, R138). -/
def State.injectBad (s : State) (ep : Nat) (t : Target) : Bool :=
  match t with
  | .unmapped => true
  | .chamoisMem => ep != epChamois && ep != epGauntlet
  | .gauntletMem => ep != epChamois && ep != epGauntlet
  | .window w => !s.isSet F.CHL_WIN_CTRL.EN w
  | _ => false

/-- Code a request of `units` units meets where it arrives, before its target serves it: the target's domain, a link that is down,
renegotiates, has no credits or awaits 256 responses (R121, R124, R126), a port that is inactive or holds its ingress (R341, R342). -/
def State.reachCode (s : State) (x : Way) (t : Target) (units : Nat) : Nat :=
  if s.domainCode t ≠ 0 then s.domainCode t
  else match t with
  | .window w =>
    let f := s.get F.CHL_WIN_CTRL.ENGINE w
    let c := s.chl f
    if s.chlState f < 2 then 0xC
    else if s.chlState f = 3 ∨ c.queued.any (fun p => p.vc.toNat == x.vc) = true ∨ c.credits x.vc < units ∨ 256 ≤ c.fwd.length
    then codeWaits else 0
  | .port p => if s.portActive p then (if s.treqHeld p then codeWaits else 0) else 1
  | _ => 0

/-- Counts a request refused at injection (R138). -/
def State.countDrop (s : State) : State := s.countReg R.NOC_DROP_COUNT 0 1

/-- The target is not a memory: a fabric port, register space or a remote window. -/
def farTarget : Target → Bool
  | .regs => true
  | .port _ => true
  | .window _ => true
  | _ => false

/-- Endpoint that serves an address, a window's being the lane quad of its link engine (R132). Where no lane is bound to the
engine the spec names none, and the model takes ID 1023 (DESIGN CHOICE, log 98): its link is down. -/
def State.addrEp (s : State) (a : Nat) : Nat :=
  match decodeAddr a with
  | .window w => match s.boundQuad 4 (s.get F.CHL_WIN_CTRL.ENGINE w) with
    | some m => epLaneQuad m
    | none => 1023
  | t => targetEp t

/-- A read packet of `n` units. -/
def State.readPacket (s : State) (x : Way) (addr n : Nat) : Packet :=
  { dest := BitVec.ofNat 10 (s.addrEp addr), src := BitVec.ofNat 10 x.ep, cmd := 0, vc := BitVec.ofNat 2 x.vc
    len := BitVec.ofNat 4 (n - 1), key := BitVec.ofNat 8 x.key, addr := BitVec.ofNat 48 addr, acc := .tahr }

/-! ### DOZE (R390) -/

/-- DOZE is left: the fabric loops run again, and dispatch with them. -/
def State.dozeExit (s : State) : State :=
  let s := (s.restartLoops ((List.range 16).map (5 + ·))).put F.PWR_STATE.STATE 0 0
  let s := { s with power := { s.power with dev := none, hold := false } }
  (List.range 4).foldl (fun t q => { t with disp := t.disp.set {} q { t.disp.get {} q with due := true } }) s

/-- A request of endpoint `ep` leaves DOZE where it is a PCIe controller, a lane engine or a fabric port. -/
def State.dozeLeft (s : State) (ep : Nat) : State :=
  match s.power.dev with
  | none => s
  | some x =>
    if x.entered && x.target == 1 && ([epPcie 0, epPcie 1].contains ep || (List.range 64).any (fun m => epLaneQuad m == ep) ||
      (List.range 128).any (fun k => epPort k == ep)) then s.dozeExit else s

/-! ### Waiting at the injection interface -/

/-- A core's inbox takes no message: its ring is full, or disabled (R209). -/
def State.inboxFull (s : State) (n : Nat) : Bool :=
  !s.isSet F.TC_INBOX_BASE.EN n || decide (2 ^ min 6 (s.get F.TC_INBOX_BASE.SIZE n) ≤
    (s.get F.TC_INBOX_IDX.PROD n + 256 - s.get F.TC_INBOX_IDX.CONS n) % 256)

/-- An endpoint holds its ingress, in both planes, on the VC of a packet that has come to it: a message whose inbox is full, a request at a
fabric port that takes none (R129, R145, R209, R341). -/
def State.holdsIngress (s : State) (w : Worm) : Bool :=
  w.whole && (match coreOfEp w.pkt.dest.toNat with
    | some n => w.pkt.cmd.toNat == cmdMessage && s.inboxFull n
    | none => match findBelow 128 (fun k => epPort k == w.pkt.dest.toNat) with
      | some k => s.treqHeld k
      | none => false)

/-- The local port of endpoint `ep` is held on a VC: by other packets in both planes, or by the endpoint (R140, R144, R145). -/
def State.localHeld (s : State) (ep vc : Nat) : Bool :=
  let e := BitVec.ofNat 10 ep
  let on := s.net.flight.filter (fun w => w.pkt.vc.toNat == vc && w.out != 0)
  [false, true].all (fun pl => on.any (fun w => w.holds.contains (portKey pl (epX e) (epY e) 0))) ||
    on.any (fun w => w.pkt.dest == e && s.holdsIngress w)

/-- The bucket lacks the tokens of a request of `units` units. What one moment's commands send beyond them is taken from later refills:
the time it waits for them lies within its command (log 37). -/
def State.busStarved (s : State) (x : Way) (units : Nat) : Bool :=
  decide (x.vc < 2) && s.rateOn x.ep x.vc && (s.rateRate x.ep x.vc == 0 ||
    (decide (s.tokens x.ep x.vc < units) && s.net.drewAt.get 0 (bucketKey x.ep x.vc) != s.now + 1))

/-- A request of `units` units to `a` waits at its injection interface: for the outstanding limit, where it expects a response, for
tokens, or for the local port of its target (R140, R146, R147, R149). -/
def State.busHeld (s : State) (x : Way) (a units : Nat) (rsp : Bool) : Bool :=
  viaAntler x.ep (decodeAddr a) && ((rsp && decide (s.initLimit x.ep ≤ (s.outstanding x.ep).length)) ||
    s.busStarved x units || s.localHeld (s.addrEp a) x.vc)

/-- A request is injected: it is counted, with the bytes it writes, and takes its tokens (R147, R148). -/
def State.busInject (s : State) (x : Way) (t : Target) (units wr : Nat) : State :=
  let s := (s.dozeLeft x.ep).countReq x.ep t wr
  if viaAntler x.ep t && decide (x.vc < 2) && s.rateOn x.ep x.vc then
    let s := s.takeTokens x.ep x.vc units
    { s with net := { s.net with drewAt := s.net.drewAt.set 0 (bucketKey x.ep x.vc) (s.now + 1) } }
  else s

/-! ### Parking (R387) -/

def State.parkedAt (s : State) (d : Nat) : List Packet := s.power.parked.get [] d
def State.askedAt (s : State) (d : Nat) : List (Nat × Nat) := s.power.asked.get [] d

/-- Sets what a domain has parked, with PARKED. -/
def State.setParked (s : State) (d : Nat) (l : List Packet) (asked : List (Nat × Nat)) : State :=
  { s with power := { s.power with parked := s.power.parked.set [] d l, asked := s.power.asked.set [] d asked } }.put
    F.PWR_DOM_STATUS.PARKED d (min 8 (l.length + asked.length))

/-- Endpoint `e` of a domain has parked fewer than 8 requests. -/
def State.parkRoom (s : State) (d e : Nat) : Bool :=
  decide (((s.parkedAt d).filter (fun q => q.dest.toNat == e)).length + ((s.askedAt d).filter (fun q => q.1 == e)).length < 8)

/-- Parks a request at its router's local port: at most 8 per endpoint, and the domain wakes (R387). None where it stays in
the network. -/
def State.park (s : State) (d : Nat) (p : Packet) : Option State :=
  if s.parkRoom d p.dest.toNat then
    some (((s.setParked d (s.parkedAt d ++ [p]) (s.askedAt d)).startWake d).wakeDomain d)
  else none

/-- Parks a request that initiator `ep` makes of address `a`, where its domain has it wait. -/
def State.parkBus (s : State) (ep a : Nat) : State :=
  match s.targetDom (decodeAddr a) with
  | none => s
  | some d =>
    if s.domCode d ≠ codeWaits then s
    else
      let e := s.addrEp a
      let s := if s.parkRoom d e = true ∧ (s.askedAt d).contains (e, ep) = false
        then s.setParked d (s.parkedAt d) (s.askedAt d ++ [(e, ep)]) else s
      (s.startWake d).wakeDomain d

/-- What requests of a command that waits have asked of domains happens all the same: they park there, and wake them. -/
def State.wakeLike (s t : State) : State :=
  (List.range 0xC2).foldl (fun u d =>
    let u := if t.askedAt d = s.askedAt d then u else u.setParked d (u.parkedAt d) (t.askedAt d)
    if t.power.wakeAt.get 0 d = s.power.wakeAt.get 0 d then u else (u.startWake d).wakeDomain d) s

/-- Ends a request that meets code `c` where it arrives: it waits, parked, or it has been injected and its error is counted and recorded
(R148, R388, R452). -/
def State.busRefused (s : State) (x : Way) (a c units wr : Nat) : State :=
  if c = codeWaits then s.parkBus x.ep a
  else
    let t := decodeAddr a
    let s := s.busInject x t units wr
    let p := s.readPacket x a 1
    let s := if c = 0xA then (match s.targetDom t with | some d => s.targetEvent p (srcDomain d) c | none => s)
      else match t with
        | .window w => if c = 0xC ∧ x.posted = false then s.targetEvent p (srcChl (s.get F.CHL_WIN_CTRL.ENGINE w)) c else s
        | _ => s
    if x.posted then s else s.countRsp x.ep t 0

/-! ### Reads -/

/-- Records a request as user logic or a remote device takes it: at a fabric port as it is, through a window with its address
translated (R33, R127). -/
def State.farTake (s : State) (t : Target) (p : Packet) : State :=
  match t with
  | .port k =>
    let x := s.fab.ports.get {} k
    { s with fab := { s.fab with ports := s.fab.ports.set {} k { x with toUser := p :: x.toUser } } }
  | .window w =>
    s.chlQueue (s.get F.CHL_WIN_CTRL.ENGINE w) (s.winXlat w p)
  | _ => s

/-- The code user logic or a remote device answers a request with, 0 for none: a free value. -/
def State.farCode (s : State) : Nat × State :=
  let (k, s) := s.draw
  ((Config.farCode k).toNat, s)

/-- What user logic or a remote device answers a read with: a code and units that are free values (log 37). -/
def State.farRead (s : State) (t : Target) (p : Packet) (n : Nat) : Nat × List DataUnit × State :=
  let (c, s) := (s.farTake t p).farCode
  if c ≠ 0 then (c, [], s)
  else (0, (List.range n).map (fun k => ⟨Config.undefinedBits 128 (s.free + k), false⟩), { s with free := s.free + n })

/-- Reads `n` units from `16 w`, in requests of at most 16 units inside a granule. Register space takes no read of whole units
(R13). Answers the first failing code (0 if none), the units and the state after. -/
def State.busUnits (s : State) (x : Way) : Nat → Nat → Nat → Nat × List DataUnit × State
  | 0, _, _ => (0, [], s)
  | fuel + 1, w, n =>
    if n = 0 then (0, [], s)
    else
      let a := 16 * w
      let t := decodeAddr a
      let m := min n (min (rangeEnd a / 16 - w) (16 - w % 16))
      if s.injectBad x.ep t = true ∨ m = 0 then (1, [], s.countDrop)
      else if s.busHeld x a 1 true then (codeWaits, [], s)
      else
        let c0 := s.reachCode x t 1
        if c0 ≠ 0 then (c0, [], s.busRefused x a c0 1 0)
        else
          let r := (s.touch t).busInject x t 1 0
          let (c, ds, s1) := (match t with
            | .port _ => r.farRead t (r.readPacket x a m) m
            | .window _ => r.farRead t (r.readPacket x a m) m
            | .regs => (2, [], r)
            | _ => r.memRead w m x.key x.ep)
          if c = codeWaits then (c, [], s)
          else if c ≠ 0 then (c, [], s1.countRsp x.ep t 0)
          else
            let (c2, rest, s2) := (s1.countRsp x.ep t (16 * m)).busUnits x fuel (w + m) (n - m)
            (c2, ds ++ rest, s2)

/-- Bytes of consecutive units from byte offset `o`. -/
def unitBytes (ds : List DataUnit) (o n : Nat) : List Byte :=
  ((ds.flatMap (fun d => leBytes 16 d.data.toNat)).drop o).take n

/-- How register space answers a read of one word at an offset: a code, the word, and the state after. -/
abbrev RegReader := State → Nat → Nat × Nat × State

/-- Reads `len` bytes of register space: four aligned ones are a READ of LEN 0 with their BE, which `rr` serves; anything else has
ACCESS_SIZE (R13, R134). -/
def State.busReg (s : State) (x : Way) (rr : RegReader) (a len : Nat) : Nat × Bool × Nat × List Byte × State :=
  if s.busHeld x a 1 true then (codeWaits, false, 0, [], s)
  else
    let t := s.busInject x .regs 1 0
    let (c, v, u) := if len = 4 ∧ a % 4 = 0 then rr t (a - baseRegs) else (2, 0, t)
    (c, false, 0, if c = 0 then leBytes 4 v else [], u.countRsp x.ep .regs (if c = 0 then 16 else 0))

/-- Reads `len` bytes at `addr` as one of the device's engines does. Answers the first failing code (0 if none), whether
any unit carried poison, the byte offset of the first failing request or poisoned unit, the bytes and the state after. -/
def State.readBytes (s : State) (x : Way) (addr len : Nat) (rr : RegReader := fun s _ => (2, 0, s)) :
    Nat × Bool × Nat × List Byte × State :=
  if len = 0 then (0, false, 0, [], s)
  else if decodeAddr addr = .regs then s.busReg x rr addr len
  else
    let w := addr / 16
    let cnt := (addr + len - 1) / 16 - w + 1
    let (c, ds, t) := s.busUnits x (cnt + 1) w cnt
    if c ≠ 0 then (c, false, 16 * ds.length - addr % 16, [], t)
    else (0, ds.any (·.poison), (ds.findIdx? (·.poison)).getD 0 * 16 - addr % 16, unitBytes ds (addr % 16) len, t)

/-! ### Writes -/

/-- The write units that store `bs` at `addr`. -/
def unitsFor (addr : Nat) (bs : List Byte) (poison : Bool) : List WUnit :=
  let w := addr / 16
  let cnt := if bs.isEmpty then 0 else (addr + bs.length - 1) / 16 - w + 1
  (List.range cnt).map (fun k =>
    let lo := 16 * (w + k)
    let idx := (List.range 16).filter (fun j => addr ≤ lo + j && lo + j < addr + bs.length)
    { w := w + k
      be := idx.foldl (fun a j => a + 2 ^ j) 0
      data := BitVec.ofNat 128 (idx.foldl (fun a j => a + (bs.getD (lo + j - addr) 0).toNat * 2 ^ (8 * j)) 0)
      poison := poison })

/-- A write packet. In register space it acts as the Tahr accessor, which has no select bank (DESIGN CHOICE, log 98: R37 names
no accessor for engines, lane quads and DMA). -/
def State.writePacket (s : State) (x : Way) (addr : Nat) (us : List WUnit) : Packet :=
  { dest := BitVec.ofNat 10 (s.addrEp addr), src := BitVec.ofNat 10 x.ep, cmd := if x.posted then 2 else 1
    vc := BitVec.ofNat 2 x.vc
    len := BitVec.ofNat 4 (us.length - 1), key := BitVec.ofNat 8 x.key, poison := us.any (·.poison)
    be := BitVec.ofNat 16 ((us.headD ⟨0, 0, 0, false⟩).be), addr := BitVec.ofNat 48 addr
    data := us.map (fun u => ⟨u.data, u.poison⟩), acc := .tahr }

/-- The aligned group of four bytes that BE enables exactly (R134). -/
def beGroup (be : Nat) : Option Nat := findBelow 4 (fun g => be == 15 * 2 ^ (4 * g))

/-- The code register space answers a write with (R13, R35, R137): 0 where it is performed. -/
def regWriteCode (us : List WUnit) : Nat :=
  match us with
  | [u] => if (beGroup u.be).isNone then 2 else if baseRegs + 0xF00000 ≤ 16 * u.w then 1 else if u.poison then 0xD else 0
  | _ => 2

/-- Writes units to a target that is no memory: the code it answers with. A write that register space performs travels there
as a packet. -/
def State.farSend (s : State) (x : Way) (t : Target) (addr : Nat) (us : List WUnit) : Nat × State :=
  let p := s.writePacket x addr us
  if t = .regs then (if regWriteCode us = 0 then (0, s.sendPacket { p with cmd := 2 }) else (regWriteCode us, s))
  else (s.farTake t p).farCode

/-- Writes one request's units, all inside a granule. A posted write to a target that is no memory travels there as a packet, and meets
there what it meets. -/
def State.busSend (s : State) (x : Way) (us : List WUnit) : Nat × State :=
  match us with
  | [] => (0, s)
  | u :: _ =>
    let a := 16 * u.w
    let t := decodeAddr a
    let units := 1 + us.length
    let wr := us.foldl (fun a u => a + popCount16 u.be) 0
    if s.injectBad x.ep t then (1, s.countDrop)
    else if s.busHeld x a units (!x.posted) then (codeWaits, s)
    else if farTarget t && x.posted then (0, (s.busInject x t units wr).sendPacket (s.writePacket x a us))
    else
      let c0 := s.reachCode x t units
      if c0 ≠ 0 then (c0, s.busRefused x a c0 units wr)
      else
        let r := (s.touch t).busInject x t units wr
        let (c, s1) := if farTarget t then r.farSend x t a us else r.memWrite us x.key x.ep
        if c = codeWaits then (c, s) else (c, if x.posted then s1 else s1.countRsp x.ep t 0)

/-- Units of the request that begins a list of consecutive units: at most 16, inside a granule and a range; after the first every one
is written in full, and one that is not begins a request of its own (R134). -/
def reqUnits : List WUnit → Nat
  | [] => 0
  | u :: r => min ((r.takeWhile (fun v => v.be == 65535)).length + 1)
      (max 1 (min (rangeEnd (16 * u.w) / 16 - u.w) (16 - u.w % 16)))

/-- Writes consecutive units. Answers the first failing code, the units written before it and the
state after. -/
def State.busPut (s : State) (x : Way) : Nat → List WUnit → Nat × Nat × State
  | 0, _ => (0, 0, s)
  | fuel + 1, us =>
    if us.isEmpty then (0, 0, s)
    else
      let n := reqUnits us
      let (c, s1) := s.busSend x (us.take n)
      if c ≠ 0 then (c, 0, s1)
      else
        let (c2, o2, s2) := s1.busPut x fuel (us.drop n)
        (c2, n + o2, s2)

/-- Writes bytes. Answers the first failing code, its byte offset and the state after. -/
def State.writeBytes (s : State) (x : Way) (addr : Nat) (bs : List Byte) (poison : Bool := false) : Nat × Nat × State :=
  let us := unitsFor addr bs poison
  let (c, k, t) := s.busPut x (us.length + 1) us
  (c, 16 * k - addr % 16, t)

end Sys2Proof.Machine
end

