-- ==== Sys2Proof/Machine/Registers.lean ====
section
/-! DEFINITION. Register access (R12 to R17, R34 to R40, R61 to R65): which instance an access reaches, ownership and
its violations, and what a write of each access type does to a field. The registers with behaviours of their own are
in the family files; Machine/RegWrite.lean joins them. -/

namespace Sys2Proof.Machine

/-- `k` if it is below `n` (R36: an index outside its range reaches a reserved register). -/
def inRange (n k : Nat) : Option Nat := if k < n then some k else none

/-- Node key that an ECC_NODE_SEL value names (R294). -/
def State.nodeSel (s : State) (a : Accessor) : Option Nat :=
  let g := s.sel a F.ECC_NODE_SEL.GROUP
  match s.sel a F.ECC_NODE_SEL.LEVEL with
  | 0 => if s.sel a F.ECC_NODE_SEL.BANK < groupBanks g then some (nodeKey 0 (g * 256 + s.sel a F.ECC_NODE_SEL.BANK)) else none
  | 1 => if g < 43 then some (nodeKey 1 g) else none
  | 2 => some (nodeKey 2 (s.sel a F.ECC_NODE_SEL.QUAD))
  | _ => some (nodeKey 3 0)

/-- A second index under a first: `a` in `na`, `b` in `nb`, as `a * nb + b`. -/
def pairIdx (na a nb b : Nat) : Option Nat := if a < na ∧ b < nb then some (a * nb + b) else none

/-- The index a select register of the accessor's bank names for a register (R36, R65); none for a reserved one. A
Tahr core has no bank: it reaches only unselected registers and its own snapshot set (R38, R72). -/
def State.selIndex (s : State) (a : Accessor) (core : Nat) (k : SelKind) : Option Nat :=
  if k = .one then some 0
  else if k = .mbx then some 0
  else if k = .snap then some (if a = .tahr then 16 + core else accId a)
  else if accBanked a = false then none
  else match k with
  | .one => some 0
  | .mbx => some 0
  | .snap => some 0
  | .bank => some (accId a)
  | .tsu => some (s.sel a F.TSU_SEL.MAC)
  | .lane => some (s.sel a F.LANE_SEL.LANE)
  | .mac => some (s.sel a F.MAC_SEL.MAC)
  | .macStat => if s.sel a F.MAC_STAT_SEL.CNT < 10
      then some (s.sel a F.MAC_SEL.MAC * 16 + s.sel a F.MAC_STAT_SEL.CNT) else none
  | .macSa => some (s.sel a F.MAC_SEL.MAC * 64 + s.sel a F.MAC_SA_SEL.SA)
  | .fh => some (s.sel a F.FH_SEL.ENGINE)
  | .fhStat => if s.sel a F.FH_STAT_SEL.CNT < 11
      then some (s.sel a F.FH_SEL.ENGINE * 16 + s.sel a F.FH_STAT_SEL.CNT) else none
  | .fhFlow => some (s.sel a F.FH_FLOW_SEL.FLOW)
  | .cpri => some (s.sel a F.CPRI_SEL.FRAMER)
  | .cpriAxc => pairIdx 8 (s.sel a F.CPRI_SEL.FRAMER) 32 (s.reg R.CPRI_AXC_SEL (accId a))
  | .chl => some (s.sel a F.CHL_SEL.ENGINE)
  | .chlWin => some (s.sel a F.CHL_WIN_SEL.WINDOW)
  | .pcie => some (s.sel a F.PCIE_SEL.CTRL)
  | .pcieFn => if s.sel a F.PCIE_SEL.CTRL = 1 ∧ s.sel a F.PCIE_SEL.FUNCTION = 1 then none
      else some (s.sel a F.PCIE_SEL.CTRL * 2 + s.sel a F.PCIE_SEL.FUNCTION)
  | .pcieDma => some (s.sel a F.PCIE_SEL.CTRL * 4 + s.sel a F.PCIE_DMA_SEL.CHANNEL)
  | .init => if epPlaced (s.sel a F.INIT_SEL.ENDPOINT) then some (s.sel a F.INIT_SEL.ENDPOINT) else none
  | .tsk => some (s.sel a F.TSK_SEL.QUAD)
  | .tskPace => pairIdx 4 (s.sel a F.TSK_SEL.QUAD) 64 (s.sel a F.TSK_PACE_SEL.ELEMENT)
  | .tskCq => pairIdx 4 (s.sel a F.TSK_SEL.QUAD) 16 (s.sel a F.TSK_CQ_SEL.QUEUE)
  | .cluster => some (s.sel a F.CLUSTER_SEL.CLUSTER)
  | .tc => some (s.sel a F.TC_SEL.CORE)
  | .eng => inRange 104 (s.sel a F.ACC_ENG_SEL.ENGINE)
  | .harq => some (s.sel a F.ACC_ENG_HARQ_SEL.SPACE)
  | .grp => inRange 43 (s.sel a F.ECC_GRP_SEL.GROUP)
  | .grpTbl => pairIdx 43 (s.sel a F.ECC_GRP_SEL.GROUP) 16 (s.sel a F.ECC_TBL_SEL.ENTRY)
  | .node => s.nodeSel a
  | .grpRepair => pairIdx 43 (s.sel a F.ECC_GRP_SEL.GROUP) 16 (s.sel a F.ECC_REPAIR_SEL.ENTRY)
  | .pc => some (s.sel a F.HBM_PC_SEL.PC)
  | .ciph => some (s.sel a F.CIPH_REGION_SEL.REGION)
  | .bm => some (s.sel a F.BM_SEL.BLOCK)
  | .fp => some (s.sel a F.PR_FP_SEL.PORT)
  | .region => some (s.sel a F.PR_REGION_SEL.REGION)
  | .dom => if domListed (s.sel a F.PWR_DOM_SEL.DOMAIN) then some (s.sel a F.PWR_DOM_SEL.DOMAIN) else none
  | .govQ => some (s.sel a F.GOV_QUAD_SEL.QUAD)
  | .govTemp => some (s.sel a F.GOV_TEMP_SEL.SENSOR)
  | .loop => inRange 85 (s.sel a F.CLK_LOOP_SEL.LOOP)
  | .mux => inRange 48 (s.sel a F.CLK_MUX_SEL.MUX)
  | .mon => inRange 61 (s.sel a F.CLK_MON_SEL.SOURCE)
  | .errQ => some (s.sel a F.ERR_Q_SEL.QUAD)
  | .dbgCore => inRange 258 (s.sel a F.DBG_CORE_SEL.AGENT)
  | .dbgReg => inRange 258 (s.sel a F.DBG_CORE_SEL.AGENT)
  | .trcSrc => inRange 258 (s.sel a F.TRC_SRC_SEL.SOURCE)
  | .trcBuf => some (accId a)

/-- The instance an access reaches, with the element of a register array. -/
def State.instOf (s : State) (a : Accessor) (core : Nat) (r : RegRow) (elem : Nat) : Option Nat :=
  if r.sel = .mbx then some elem else (s.selIndex a core r.sel).map (fun k => k * r.n + elem)

/-- Power domain whose being off takes a register's block away (R383). -/
def regDomain (r : RegRow) (i : Nat) : Option Nat :=
  match r.sel with
  | .cluster => some (domCluster i)
  | .tc => some (domCluster (i / r.n / 8))
  | .eng => some (domEngine (i / r.n))
  | .lane => some (domLaneQuad (i / 4))
  | _ => none

/-- The register lies in a domain that is off, or not on again yet, and does not keep its value there (R383). A domain is off in RUN as
it is in NAP: bit 9 of the survival mask (DEDUCED, log 12). -/
def State.regAway (s : State) (r : RegRow) (i : Nat) : Bool :=
  match regDomain r i with
  | some d => decide (s.domState d ≤ 1) && !bitAt r.surv 9
  | none => false

/-! ### What a write does to a field (R14 to R16) -/

/-- Applies one field's access type to the register value `acc`; `old`, `rst` and `v` are the register's old value,
its reset value and the written value. -/
def writeField (old rst v : Nat) (acc : Nat) (f : Fld) : Nat :=
  let o := bitsOf old f.lo f.width
  let w := bitsOf v f.lo f.width
  match f.acc with
  | .rw => bitsSet acc f.lo f.width w
  | .w1c => bitsSet acc f.lo f.width (o &&& (2 ^ f.width - 1 - w))
  | .w1s => bitsSet acc f.lo f.width (o ||| w)
  | .w1b => if o = bitsOf rst f.lo f.width then bitsSet acc f.lo f.width w else acc
  | .ro => acc
  | .wo => acc
  | .rc => acc

/-- The value a register holds after a write: reserved bits ignored, each field by its access type (R14, R15). -/
def writeFields (r : RegRow) (old rst v : Nat) : Nat := r.fields.foldl (writeField old rst v) old

/-- A register's own write, with no behaviour beside its fields (R15). -/
def State.writePlain (s : State) (r : RegRow) (i v : Nat) : State :=
  s.setReg r i (writeFields r (s.reg r i) (resetOf r i) v)

/-- The bits a read returns: WO and reserved bits read 0 (R14, R15). -/
def readMask (r : RegRow) : Nat :=
  r.fields.foldl (fun a f => if f.acc = .wo then a else a ||| (2 ^ f.width - 1) * 2 ^ f.lo) 0

/-- What a read leaves: RC fields cleared (R15). -/
def readClear (r : RegRow) (v : Nat) : Nat :=
  r.fields.foldl (fun a f => if f.acc = .rc then bitsSet a f.lo f.width 0 else a) v

/-! ### Interrupts to cores (R197) -/

/-- Sets bit `k` of a core's TC_IRQ_PEND. -/
def State.coreIrq (s : State) (n k : Nat) : State :=
  s.put F.TC_IRQ_PEND.PEND n (s.get F.TC_IRQ_PEND.PEND n ||| 2 ^ k)

/-- Clears it. -/
def State.coreIrqClear (s : State) (n k : Nat) : State := s.setReg R.TC_IRQ_PEND n (bitsSet (s.reg R.TC_IRQ_PEND n) k 1 0)

/-! ### Ownership (R17, R39, R63, R64) -/

/-- A debugger with Rondan authorisation (R64, R430: debug level 2). -/
def State.rondan (s : State) (a : Accessor) : Bool := a == .debugger && s.get F.SEC_DBG_STATUS.LEVEL 0 == 2

/-- The debug level in force: the unlock's (R446), with level 1 open in BLANK and PROVISIONED and never open in RETIRED (R430). -/
def State.debugLevel (s : State) : Nat :=
  let v := s.get F.SEC_DBG_STATUS.LEVEL 0
  if s.sec.life ≤ 1 then max 1 v else if s.sec.life = 2 then v else if v = 2 then 2 else 0

/-- The accessor may write a register of this class. -/
def State.mayWrite (s : State) (a : Accessor) (r : RegRow) (i : Nat) : Bool :=
  if r.sel = .mbx then
    a == .chamois || a == mailboxOwner (if r.off = R.MBX_REQ_RING.off ∨ r.off = R.MBX_RSP_RING.off then i / 512 else i)
  else match r.own with
  | .hostOwned => true
  | .shared => true
  | .firmware => a == .chamois || s.rondan a
  | .servo => s.time.hostServo || a == .chamois || s.rondan a
  | .debugger => a == .debugger

/-- Records an ownership violation (R17, R61): the first is captured, every one counted. -/
def State.violate (s : State) (off : Nat) (a : Accessor) : State :=
  let s := s.countReg R.DEV_OWN_VIOL_CNT 0 1
  if s.isSet F.DEV_OWN_VIOL.VALID 0 then s
  else s.setReg R.DEV_OWN_VIOL 0 (off / 4 % 2 ^ 24 + accId a * 2 ^ 24 + 2 ^ 31)

/-- Register-space offset of element `elem` of a row. -/
def regOffset (r : RegRow) (elem : Nat) : Nat :=
  if r.off = R.MBX_REQ_RING.off ∨ r.off = R.MBX_RSP_RING.off then r.off + elem / 512 * 0x10000 + elem % 512 * 4
  else r.off + elem * r.stride

/-- A debugger below level 1 reaches only its mailbox (R463). -/
def State.dbgBlocked (s : State) (a : Accessor) (r : RegRow) : Bool :=
  a == .debugger && s.debugLevel == 0 && r.sel != .mbx

/-- An access to a block whose clock is gated restarts the clock and is served (R415). -/
def State.ungate (s : State) (blk : Nat) : State :=
  if s.clk.gated.get false blk then
    { s with clk := { s.clk with gated := s.clk.gated.set false blk false } }.countReg R.CLK_GATE_WAKES 0 1
  else s

/-- A register write of an accessor that runs `act` on the instance it reaches, if ownership lets it (R17) and the
register is not a reserved one in its place (R36, R38) nor off (R383). -/
def State.ownedWrite (s : State) (a : Accessor) (core : Nat) (r : RegRow) (elem : Nat)
    (act : Nat → State → State) : State :=
  if s.asleep a then s
  else
  let s := s.ungate (r.off / 0x100000)
  match s.instOf a core r elem with
  | none => s
  | some i =>
    if s.dbgBlocked a r then s
    else if s.mayWrite a r i then (if s.regAway r i then s else act i s) else s.violate (regOffset r elem) a

/-- Clears the ownership-violation record (R61). -/
def State.clearViolation (s : State) : State := s.setReg R.DEV_OWN_VIOL 0 0

/-- DEV_OWN_VIOL_CLEAR (R61): a write of 1 to DEV_OWN_VIOL.VALID, which every accessor may make (R63) but a debugger below
level 1 (R463). -/
def execDevOwnViolClear (acc : Accessor) (s : State) : Host.Outcome State Fault Refusal :=
  .next (if s.dbgBlocked acc R.DEV_OWN_VIOL || s.asleep acc then s else s.clearViolation)

/-- ERR_STATUS_FE_CLEAR (R449): a write of ERR_STATUS that may clear FE, releasing ALERT_N for this cause. ERR_
registers are shared (R63). -/
def execErrStatusFeClear (acc : Accessor) (v : Word) (s : State) : Host.Outcome State Fault Refusal :=
  .next (s.ownedWrite acc 0 R.ERR_STATUS 0 (fun _ t => t.writeErrStatus v))

end Sys2Proof.Machine
end

