-- ==== Sys2Proof/Machine/Antler.lean ====
section
/-! DEFINITION. The Antler network (R129 to R149): packet checks and injection, outstanding limits, rate regulators,
statistics, responses and routes. What a request does at its target is in Machine/AntlerTarget.lean. -/

namespace Sys2Proof.Machine

/-! ### Packets (R133 to R137) -/

/-- CMD matches VC (R136). -/
def vcAllows (cmd vc : Nat) : Bool :=
  if cmd ≤ 5 then vc != 2 else if cmd ≤ 7 then vc == 3 else false

/-- LEN and the data units are what R134 gives for CMD. -/
def lenAllows (cmd len units : Nat) : Bool :=
  if cmd = cmdRead ∨ cmd = cmdDebugRead then units == 0
  else if cmd = cmdAtomic then len == 1 && units == 2
  else if cmd = cmdSubmit then len == 3 && units == 4
  else units == len + 1

/-- The checks of R138, in which the debugger's interface is the debug endpoint. -/
def pktOk (p : Packet) : Bool :=
  vcAllows p.cmd.toNat p.vc.toNat && lenAllows p.cmd.toNat p.len.toNat p.data.length && p.rsv == 0 &&
    (!p.debug || p.src.toNat == epDebug) &&
    (p.cmd != 5 || decide (p.addr.toNat < 4))

/-- The accessor on whose behalf an endpoint reaches register space (R37). -/
def pktAccessor (p : Packet) : Accessor :=
  let e := p.src.toNat
  if (coreOfEp e).isSome then .tahr
  else if e = epChamois then .chamois
  else if e = epDebug then .debugger
  else if e = epPcie 0 then (if p.acc = .host1 ∨ p.acc = .tahr then p.acc else .host0)
  else if (List.range 128).any (fun k => epPort k == e) then .userLogic
  else p.acc

/-- The core of a packet sent by one, for R72. -/
def pktCore (p : Packet) : Nat := (coreOfEp p.src.toNat).getD 0

/-- SECURE as the injection interface forces it (R138). -/
def State.forcedSecure (s : State) (p : Packet) : Bool :=
  p.src.toNat == epChamois || p.src.toNat == epGauntlet || (p.src.toNat == epDebug && s.rondan .debugger)

/-- Poison of a packet: the OR of its units' (R139). -/
def pktPoison (p : Packet) : Bool := p.data.any (·.poison)

/-- The window is enabled (R33). -/
def State.windowOn (s : State) (w : Nat) : Bool := s.isSet F.CHL_WIN_CTRL.EN w

/-- Core whose local-memory window holds an address, gaps included (R132). -/
def coreWindow (a : Nat) : Option Nat :=
  if baseCore ≤ a ∧ a < baseCore + 256 * 0x100000 then some ((a - baseCore) / 0x100000) else none

/-- What an injection interface makes of a request's address (R132, R138): the destination endpoint, or the code it
refuses with. -/
def State.decodeRequest (s : State) (p : Packet) (secure : Bool) : Except Nat Nat :=
  let a := p.addr.toNat
  if p.cmd = 5 then .ok (epDispatcher (a % 4))
  else if p.cmd = 4 ∧ (coreWindow a).isSome then .ok (epCore ((coreWindow a).getD 0))
  else
    let t := decodeAddr a
    let units := if p.cmd = 3 then 1 else if p.data.isEmpty then p.len.toNat + 1 else p.data.length
    let excess := decide (rangeEnd a < a / 16 * 16 + 16 * units)
    match t with
    | .unmapped => .error 1
    | .port _ => if excess ∧ p.cmd ≠ 4 then .error 4 else .ok (targetEp t)
    | .window w => if s.windowOn w then (if excess then .error 4 else .ok (s.addrEp a)) else .error 1
    | .chamoisMem => if secure = false then .error 1 else if excess then .error 4 else .ok epChamois
    | .gauntletMem => if secure = false then .error 1 else if excess then .error 4 else .ok epGauntlet
    | .regs => .ok epHub
    | _ => if excess then .error 4 else .ok (targetEp t)

/-! ### Responses -/

/-- A response to a request (R136, R137). -/
def pktResponse (p : Packet) (cmd code : Nat) (data : List DataUnit) : Packet :=
  { dest := p.src, src := p.dest, cmd := BitVec.ofNat 4 cmd, vc := 2, tag := p.tag
    len := BitVec.ofNat 4 (data.length - 1), key := p.key, poison := data.any (·.poison), ordered := p.ordered
    addr := BitVec.ofNat 48 code, data := data, acc := p.acc }

/-- Sends an ERROR_RESPONSE with a code. -/
def State.respondError (s : State) (p : Packet) (code : Nat) : State :=
  s.sendPacket (pktResponse p cmdErrorRsp code [])

/-- Sends a READ_RESPONSE. -/
def State.respondData (s : State) (p : Packet) (data : List DataUnit) : State :=
  s.sendPacket (pktResponse p cmdReadRsp 0 data)

/-- Sends a WRITE_RESPONSE. -/
def State.respondDone (s : State) (p : Packet) : State := s.sendPacket (pktResponse p cmdWriteRsp 0 [])

/-! ### Statistics (R148) -/

/-- Bytes a sent packet counts as written (R148). -/
def pktBytes (p : Packet) : Nat :=
  if p.cmd = 1 ∨ p.cmd = 2 ∨ p.cmd = 7 ∨ p.cmd = 4 ∨ p.cmd = 5 then
    popCount16 p.be.toNat + 16 * (p.data.length - 1)
  else 0

/-! ### Regulators (R147) and outstanding requests (R146) -/

/-- Units of an initiator's response buffer: a fabric port's 256 (R340); the spec gives no other initiator a depth, and
64 responses of 17 units fit in the model's (DESIGN CHOICE, log 98). -/
def rspBuffer (ep : Nat) : Nat := if (List.range 128).any (fun k => epPort k == ep) then 256 else 64 * 17

/-- Units of the response buffer that responses not yet consumed hold: a fabric port's, until user logic takes them (R146, R340). -/
def State.rspHeld (s : State) (ep : Nat) : Nat :=
  match findBelow 128 (fun k => epPort k == ep) with
  | some k => (s.fab.ports.get {} k).rsp.foldl (fun a q => a + pktUnits q) 0
  | none => 0

/-- The limit and the response buffer let a request through (R146). -/
def State.limitAllows (s : State) (p : Packet) : Bool :=
  let os := s.outstanding p.src.toNat
  !expectsResponse p.cmd.toNat || (decide (os.length < s.initLimit p.src.toNat) &&
    decide ((os.map (·.units)).foldl (· + ·) 0 + responseUnits p.cmd.toNat p.len.toNat +
      s.rspHeld p.src.toNat ≤ rspBuffer p.src.toNat))

/-- Puts a checked packet into the network (R141, R146 to R148). -/
def State.launch (s : State) (p : Packet) : State :=
  let i := p.src.toNat
  let vc := p.vc.toNat
  let s := if vc < 2 ∧ s.rateOn i vc = true then s.takeTokens i vc (pktUnits p) else s
  let s := if expectsResponse p.cmd.toNat then
      { s with net := { s.net with outst := s.net.outst.set [] i (s.outstanding i ++
        [{ tag := p.tag, cmd := p.cmd, units := responseUnits p.cmd.toNat p.len.toNat, at64 := s.now }]) } }
    else s
  let s := s.nocAdd R.NOC_STAT_REQ_LO R.NOC_STAT_REQ_HI i 1
  let s := s.nocAdd R.NOC_STAT_WR_LO R.NOC_STAT_WR_HI i (pktBytes p)
  s.sendPacket p

/-- What the packets that wait at an initiator do when something changes: in order, a request that meets the limit
holds every packet behind it, one that meets its bucket holds its VC (R146, R147). -/
def State.pumpList : List Packet → Bool → List Nat → State → List Packet → State × List Packet
  | [], _, _, s, kept => (s, kept)
  | p :: r, all, vcs, s, kept =>
    if all || vcs.contains p.vc.toNat then State.pumpList r all vcs s (kept ++ [p])
    else if s.limitAllows p = false then State.pumpList r true vcs s (kept ++ [p])
    else if s.tokensAllow p.src.toNat p.vc.toNat (pktUnits p) = false then
      State.pumpList r all (p.vc.toNat :: vcs) s (kept ++ [p])
    else State.pumpList r all vcs (s.launch p) kept

/-- Injects what can be injected at an initiator. -/
def State.pump (s : State) (i : Nat) : State :=
  let (t, kept) := State.pumpList (s.net.wait.get [] i) false [] s []
  { t with net := { t.net with wait := t.net.wait.set [] i kept } }

/-- Ends a request at its own injection interface, which generates an ERROR_RESPONSE itself, or records a UE event (R138). -/
def State.refuseLocal (s : State) (p : Packet) (code : Nat) : State :=
  if expectsResponse p.cmd.toNat then s.handPackets [pktResponse { p with dest := p.src } cmdErrorRsp code []] true
  else s.postedFailed (placeOfEp p.src.toNat) p.src.toNat code p.addr.toNat

/-- Counts and refuses a packet at injection (R138). -/
def State.refuseInjection (s : State) (p : Packet) (code : Nat) : State :=
  (s.countReg R.NOC_DROP_COUNT 0 1).refuseLocal p code

/-- The tag is in use among the initiator's outstanding or waiting requests (R146). -/
def State.tagUsed (s : State) (p : Packet) : Bool :=
  expectsResponse p.cmd.toNat && ((s.outstanding p.src.toNat).any (fun o => o.tag == p.tag) ||
    (s.net.wait.get [] p.src.toNat).any (fun q => expectsResponse q.cmd.toNat && q.tag == p.tag))

/-- In HIBERNATE the network and its endpoints are off (R382); an attached debugger's requests and their responses still pass
(R472). -/
def State.darkFor (s : State) (p : Packet) : Bool :=
  s.dark && !(s.attached && (p.src.toNat == epDebug || p.dest.toNat == epDebug))

/-- Injection of a request (R132, R138, R146, R147), which may leave DOZE (R390). -/
def State.inject (s : State) (p : Packet) : State :=
  let s := s.dozeLeft p.src.toNat
  if s.darkFor p then s
  else if pktOk p = false ∨ s.tagUsed p = true then s.refuseInjection p 3
  else
    let sec := s.forcedSecure p
    match s.decodeRequest p sec with
    | .error c => s.refuseInjection p c
    | .ok d =>
      let i := p.src.toNat
      let q := { p with dest := BitVec.ofNat 10 d, secure := sec, poison := pktPoison p }
      { s with net := { s.net with wait := s.net.wait.set [] i (s.net.wait.get [] i ++ [q]) } }.pump i

/-- REQUEST_INJECTION (R138). -/
def execRequestInjection (p : Packet) (s : State) : Host.Outcome State Fault Refusal := .next (s.inject p)

/-- One bucket after `k` refills (R147). -/
def State.refill (s : State) (k key : Nat) : State :=
  let i := key / 2; let vc := key % 2
  s.setSpent i vc (s.net.spent.get 0 key - k * s.rateRate i vc)

/-- TOKEN_REFILL (R147): at each 250 ns of NS64, buckets gain RATE tokens and waiting packets are tried again. -/
def execTokenRefill (s : State) : Host.Outcome State Fault Refusal :=
  let n := s.now / 250
  if n ≤ s.net.refills then .next s
  else
    let k := n - s.net.refills
    let s := { s with net := { s.net with refills := n } }
    let s := (s.net.spent.map (·.1)).foldl (fun t key => t.refill k key) s
    .next ((s.net.wait.map (·.1)).foldl (fun t i => t.pump i) s)

/-- A write of a rate regulator (R147): a bucket that goes on holds no more than the new BURST, and owes what it owed. -/
def State.rateWrite (s : State) (i vc : Nat) (v : Word) : State :=
  let was := s.rateOn i vc
  let old := s.tokens i vc
  let owed := s.tokenDebt i vc
  let s := s.writePlain (rateReg vc) i v.toNat
  if was && s.rateOn i vc then (s.setSpent i vc (s.rateBurst i vc - min old (s.rateBurst i vc) + owed)).pump i
  else (s.setSpent i vc 0).pump i

/-- NOC_RATE_WRITE (R147). -/
def execNocRateWrite (acc : Accessor) (vc1 : Bool) (v : Word) (s : State) : Host.Outcome State Fault Refusal :=
  .next (s.ownedWrite acc 0 (rateReg (bit vc1)) 0 (fun i t => t.rateWrite i (bit vc1) v))

/-- Zeroes every counter of an initiator (R149). -/
def State.nocClear (s : State) (i : Nat) : State :=
  let s := [R.NOC_STAT_RD_LO, R.NOC_STAT_RD_HI, R.NOC_STAT_WR_LO, R.NOC_STAT_WR_HI, R.NOC_STAT_REQ_LO, R.NOC_STAT_REQ_HI,
    R.NOC_STAT_LAT_SUM_LO, R.NOC_STAT_LAT_SUM_HI, R.NOC_STAT_LAT_MAX].foldl (fun t r => t.setReg r i 0) s
  (List.range 8).foldl (fun t b => t.setReg R.NOC_STAT_HIST (i * 8 + b) 0) s

/-- NOC_STAT_CLR (R149). -/
def execNocStatClr (acc : Accessor) (s : State) : Host.Outcome State Fault Refusal :=
  .next (s.ownedWrite acc 0 R.NOC_STAT_CLR 0 (fun i t => t.nocClear i))

/-- NOC_BRIDGE_FAULT (R149): an uncorrected bridge fault. -/
def execNocBridgeFault (s : State) : Host.Outcome State Fault Refusal :=
  .next ((s.put F.NOC_BRIDGE_STATUS.FAULT 0 1).raise { code := 0x0351, sev := 3, source := srcBridge })

/-- Frees a response's reservation and counts it (R146, R148); a response to no outstanding request frees nothing. -/
def State.consumeResponse (s : State) (p : Packet) : State :=
  let i := p.dest.toNat
  match (s.outstanding i).find? (fun o => o.tag == p.tag) with
  | none => s
  | some o =>
    let s := { s with net := { s.net with outst := s.net.outst.set [] i ((s.outstanding i).erase o) } }
    let s := if p.cmd.toNat = cmdReadRsp then s.nocAdd R.NOC_STAT_RD_LO R.NOC_STAT_RD_HI i (16 * p.data.length) else s
    (s.nocLatency i (s.now - o.at64)).pump i

/-- NOC_INIT_STATUS of an initiator (R149). -/
def State.initStatus (s : State) (i : Nat) : Nat :=
  let ws := s.net.wait.get [] i
  let short := fun vc => s.rateOn i vc && s.tokenDebt i vc != 0
  (s.outstanding i).length % 128 + bit (ws.any (fun p => !s.limitAllows p)) * 2 ^ 8 +
    bit (ws.any (fun p => p.vc == 0 && !s.tokensAllow i 0 (pktUnits p)) || short 0) * 2 ^ 9 +
    bit (ws.any (fun p => p.vc == 1 && !s.tokensAllow i 1 (pktUnits p)) || short 1) * 2 ^ 10

/-! ### Arrival (R142) -/

/-- Two packets must keep their order (R142). -/
def sameFlow (p q : Packet) : Bool := p.ordered && q.ordered && p.src == q.src && p.dest == q.dest && p.vc == q.vc

/-- A packet in the network keeps request `p` from its endpoint: on the same VC, while the endpoint holds its ingress for it or where it
was parked; and, parked before `p` was, on any VC the endpoint does not hold (R140, R145, R387). -/
def State.keepsBack (s : State) (p : Packet) (w : Worm) : Bool :=
  w.pkt.dest == p.dest && decide (p.cmd.toNat ≤ 7) &&
    (if w.pkt.vc = p.vc then w.parked || s.holdsIngress w
     else w.parked && !s.holdsIngress w && s.net.flight.any (fun v => v.pkt == p && v.parked))

/-- The packet has been handed to its endpoint whole, and no other comes before it: an ordered one is the oldest of its flow (R142). -/
def State.arrives (s : State) (p : Packet) : Bool :=
  !s.darkFor p && match s.net.flight.find? (fun w => sameFlow w.pkt p || s.keepsBack p w || (w.pkt == p && w.whole)) with
  | some w => w.pkt == p && w.whole
  | none => false

/-- Takes an arriving packet out of the network; its local port is free for the next. -/
def State.takePacket (s : State) (p : Packet) : State :=
  { s with net := { s.net with flight := s.net.flight.eraseP (fun w => w.pkt == p && w.whole) } }

/-- An initiator takes an arriving response: one its own injection interface generated frees no reservation (R138, R146). -/
def State.takeResponse (s : State) (p : Packet) : State :=
  let own := match s.net.flight.find? (fun w => w.pkt == p && w.whole) with | some w => w.own | none => false
  if own then s.takePacket p else (s.takePacket p).consumeResponse p

end Sys2Proof.Machine
end

