-- ==== Sys2Proof/Machine/Time.lean ====
section
/-! DEFINITION. The time unit (R66 to R94): the 2 ns tick, rates, fallback offset, snapshots, steps, comparators, PPS
pins, slot timers and the transmit-stamp FIFO. Lanes own the recovered clocks (Machine/Lanes.lean). -/

namespace Sys2Proof.Machine

/-! ### Values and limits -/

/-- Nanoseconds of a second. -/
def nsPerSec : Nat := 1000000000

/-- The addend limits of R68, 2 ns ± 1,000 ppm, rounded to 2^-32 ns as TIME_ADJ_RATE rounds (log 30). -/
def addendLo : Nat := 8581344657
def addendHi : Nat := 8598524527

/-- The NS_INCR limits of R69 in 2^-24 ns, rounded alike (log 30). -/
def incrLo : Nat := 33520878
def incrHi : Nat := 33587986

/-- `v` moved to the nearer limit. -/
def clampTo (lo hi v : Nat) : Nat := if v < lo then lo else if hi < v then hi else v

/-- The staged addend in 2^-32 ns (R68). -/
def State.stagedAddend (s : State) : Nat := s.get F.TOD_ADDEND_HI.INT 0 * 2 ^ 32 + s.reg R.TOD_ADDEND_LO 0

/-- The written NS_INCR in 2^-24 ns (R69). -/
def State.stagedIncr (s : State) : Nat := s.reg R.NS_INCR 0 % 2 ^ 28

/-- Commits a staged addend, clamped (R68). -/
def State.commitAddend (s : State) : State :=
  if s.time.addendStaged then
    let v := s.stagedAddend
    let c := clampTo addendLo addendHi v
    let s := { s with time := { s.time with addend := c, addendStaged := false } }
    if c = v then s
    else ((s.put F.TOD_ADDEND_HI.INT 0 (c / 2 ^ 32)).setReg R.TOD_ADDEND_LO 0 (c % 2 ^ 32)).put
      F.TOD_STATUS.RATE_CLAMP 0 1
  else s

/-- Commits a staged increment, clamped (R69). -/
def State.commitIncr (s : State) : State :=
  if s.time.incrStaged then
    let v := s.stagedIncr
    let c := clampTo incrLo incrHi v
    let s := { s with time := { s.time with incr := c, incrStaged := false } }
    if c = v then s else (s.setReg R.NS_INCR 0 c).put F.TOD_STATUS.INCR_CLAMP 0 1
  else s

/-! ### Slot timers: when slots start (R90) -/

/-- Offset E + OFFSET of slot timer `n` in ns of the time in use (R90). -/
def State.slotBase (s : State) (n : Nat) : Nat :=
  (if s.isSet F.SLOT_TMR_CTRL.EPOCH n then 315964819 * nsPerSec else 0) +
    s.reg R.SLOT_TMR_OFFSET n % 2 ^ 24

/-- The first slot start of timer `n` at or after time `t` (R90); slots before the epoch have negative numbers. -/
def State.slotStartFrom (s : State) (n t : Nat) : Nat :=
  let p : Nat := s.reg R.SLOT_TMR_PERIOD n % 2 ^ 24
  let d : Int := (t : Int) - (s.slotBase n : Int)
  ((s.slotBase n : Int) - (-d) / (p : Int) * (p : Int)).toNat

/-- Number of the slot that starts at time `t`, modulo 2^32 (R90, R92). -/
def State.slotNumber (s : State) (n t : Nat) : Nat :=
  ofSigned 32 (((t : Int) - (s.slotBase n : Int)) / Int.ofNat (s.reg R.SLOT_TMR_PERIOD n % 2 ^ 24))

/-- Resynchronises every enabled slot timer to the new time in use (R94). -/
def State.resyncSlots (s : State) : State :=
  (List.range 8).foldl (fun t n =>
    if t.isSet F.SLOT_TMR_CTRL.EN n then
      { t with time := { t.time with
        slotNext := t.time.slotNext.set 0 n (t.slotStartFrom n t.timeInUse + 1)
        slotResync := t.time.slotResync.set false n true } }
    else t) s

/-- What a jump of the time in use does (R70, R74, R94); `moved`: it changes the time, and the events that were expected
before it are gone. -/
def State.jumped (s : State) (moved : Bool) : State :=
  let s := { s with time := { s.time with jumpAt := s.now + 1 } }.resyncSlots
  if moved then { s with time := { s.time with ppsEarly := s.time.ppsEarly.filter (fun e =>
    s.isSet F.TOD_PPS_OUT_CTRL.SRC e.1 && !s.isSet F.TIME_CMP_CTRL.BASE (s.get F.TOD_PPS_OUT_CTRL.CMP e.1)) } }
  else s

/-! ### PPS outputs (R85) -/

/-- PHASE of a PPS_OUT pin in 1/32 ns; a value beyond the range of R85 acts as it stands (DESIGN CHOICE, log 93). -/
def State.ppsPhase (s : State) (p : Nat) : Int := toSigned 32 (s.reg R.TOD_PPS_OUT_PHASE p)

/-- Width of a pulse in ns (R85). -/
def State.ppsWidth (s : State) (p : Nat) : Nat :=
  let w := s.get F.TOD_PPS_OUT_WIDTH.WIDTH p
  (if w = 0 then 1 else min w 500000) * 1000

/-- Emits a pulse on pin `p`, `shift`/32 ns from the present tick. -/
def State.ppsEmit (s : State) (p : Nat) (shift : Int) : State :=
  let start := ((s.now : Int) + shift / 32).toNat
  { s with time := { s.time with
    ppsPulses := s.time.ppsPulses.set [] p ((s.now, shift) :: s.time.ppsPulses.get [] p)
    ppsRun := s.time.ppsRun.set [] p (s.time.ppsRun.get [] p ++ [(start, start + s.ppsWidth p)]) } }

/-- Pin `p`'s event, `past`/32 ns before the present tick: its pulse is shifted by PHASE from there, is emitted at the next tick
where that has passed, and is not emitted again where it was emitted ahead (R85). -/
def State.ppsEvent (s : State) (p : Nat) (past : Int) : State :=
  if s.time.ppsEarly.get false p then { s with time := { s.time with ppsEarly := s.time.ppsEarly.set false p false } }
  else s.ppsEmit p (if s.ppsPhase p < past then 64 else s.ppsPhase p - past)

/-- Pins that pulse at second boundaries. -/
def State.ppsSecondPins (s : State) : List Nat :=
  (List.range 4).filter (fun p => s.isSet F.TOD_PPS_OUT_CTRL.EN p && !s.isSet F.TOD_PPS_OUT_CTRL.SRC p)

/-- Pins that pulse with comparator `n`. -/
def State.ppsCmpPins (s : State) (n : Nat) : List Nat :=
  (List.range 4).filter (fun p => s.isSet F.TOD_PPS_OUT_CTRL.EN p && s.isSet F.TOD_PPS_OUT_CTRL.SRC p &&
    s.get F.TOD_PPS_OUT_CTRL.CMP p == n)

/-- Ticks until a counter `have` below `want` reaches it by steps of `step`. -/
def ticksTo (want have' step : Nat) : Nat := (want - have' + step - 1) / step

/-- The comparator's base (R73). -/
def State.cmpBase (s : State) (n : Nat) : Nat :=
  if s.isSet F.TIME_CMP_CTRL.BASE n then s.timeInUse % 2 ^ 64 else s.now

/-- How far the base has passed the target, as a signed 64-bit value (R73). -/
def State.cmpDiff (s : State) (n : Nat) : Int :=
  toSigned 64 (ofSigned 64 ((s.cmpBase n : Int) - (s.time.cmpTgt.get 0 n : Int)))

/-- The base of comparator `n` is the ToD count; otherwise it advances with NS64. -/
def State.cmpOnTod (s : State) (n : Nat) : Bool := s.isSet F.TIME_CMP_CTRL.BASE n && s.isSet F.TOD_STATUS.VALID 0

/-- Ticks until the next event of pin `p`: a second boundary of the time in use, or its comparator's target; none where no event
lies ahead. -/
def State.ppsAhead (s : State) (p : Nat) : Option Nat :=
  let t := s.time
  if s.isSet F.TOD_PPS_OUT_CTRL.SRC p then
    let n := s.get F.TOD_PPS_OUT_CTRL.CMP p
    let d := s.cmpDiff n
    if s.isSet F.TIME_CMP_CTRL.EN n ∧ t.cmpArmed.get false n = true ∧ d < 0 then
      some (if s.cmpOnTod n then ticksTo ((-d).toNat * 2 ^ 32) t.frac t.addend else ticksTo ((-d).toNat * 2 ^ 24) t.nsFrac t.incr)
    else none
  else if s.isSet F.TOD_STATUS.VALID 0 then some (ticksTo (nsPerSec * 2 ^ 32) (t.ns * 2 ^ 32 + t.frac) t.addend)
  else some (ticksTo (nsPerSec * 2 ^ 24) (s.timeInUse % nsPerSec * 2 ^ 24 + t.nsFrac) t.incr)

/-- Ticks until the boundary of an armed step, where that is no boundary of the time in use (R75, R79). -/
def State.ppsStepAhead (s : State) (p : Nat) : Option Nat :=
  let t := s.time
  if s.isSet F.TOD_STATUS.STEP_PENDING 0 && !s.isSet F.TOD_STATUS.VALID 0 && !s.isSet F.TOD_PPS_OUT_CTRL.SRC p then
    some (ticksTo (t.stepBoundary * nsPerSec * 2 ^ 32) ((t.sec * nsPerSec + t.ns) * 2 ^ 32 + t.frac) t.addend)
  else none

/-- The present tick emits a pulse ahead of an event `k` ticks away: its shifted time falls in this tick, or had passed when the
event became known before this tick (R85). Answers where in the tick. -/
def State.ppsDue (s : State) (p : Nat) (k : Option Nat) (early : Bool) : Option Int :=
  match k with
  | none => none
  | some k =>
    let e := 64 * (k : Int) + s.ppsPhase p
    if early ∨ k = 0 ∨ 64 ≤ e then none
    else if 0 ≤ e then some e
    else if s.time.jumpAt = s.now + 1 then none else some 0

/-- Pulses pins ahead of their events (R85). -/
def State.ppsSchedule (s : State) : State :=
  (List.range 4).foldl (fun s p =>
    if s.isSet F.TOD_PPS_OUT_CTRL.EN p then
      let s := match s.ppsDue p (s.ppsAhead p) (s.time.ppsEarly.get false p) with
        | some e => let t := s.ppsEmit p e; { t with time := { t.time with ppsEarly := t.time.ppsEarly.set false p true } }
        | none => s
      match s.ppsDue p (s.ppsStepAhead p) (s.time.ppsStepEarly.get false p) with
      | some e => let t := s.ppsEmit p e; { t with time := { t.time with ppsStepEarly := t.time.ppsStepEarly.set false p true } }
      | none => s
    else s) s

/-! ### The tick (R66 to R71) -/

/-- Commits a staged fallback offset, a jump of the time in use (R70). -/
def State.commitFallback (s : State) : State :=
  if s.time.fallbackStaged then
    let s := { s with time := { s.time with fallbackStaged := false } }
    if s.isSet F.TOD_STATUS.VALID 0 then s
    else { s with time := { s.time with
      fallback := s.pair R.NS_FALLBACK_OFF_LO R.NS_FALLBACK_OFF_HI 0 } }.jumped
        (s.time.fallback != s.pair R.NS_FALLBACK_OFF_LO R.NS_FALLBACK_OFF_HI 0)
  else s

/-- One tick of both counters (R67, R69). -/
def TimeUnit.advance (t : TimeUnit) : TimeUnit :=
  let f := t.frac + t.addend
  let ns := t.ns + f / 2 ^ 32
  let carry := decide (nsPerSec ≤ ns)
  let m := t.nsFrac + t.incr
  { t with frac := f % 2 ^ 32
           ns := if carry then ns - nsPerSec else ns
           sec := if carry then (t.sec + 1) % 2 ^ 48 else t.sec
           carried := carry
           nsFrac := m % 2 ^ 24
           ns64 := (t.ns64 + m / 2 ^ 24) % 2 ^ 64 }

/-- A tick: commits staged rates, advances ToD and NS64, commits a staged fallback offset, and pulses the pins (R67, R70, R85). A
second boundary of ToD is the tick of its carry; of the fallback time, the first tick at or past it. The tick of a commit is one
where it lands on a whole second (DESIGN CHOICE, log 99). -/
def State.tick (s : State) : State :=
  let s := s.commitAddend.commitIncr
  let before := s.timeInUse
  let jump := s.time.fallbackStaged && !s.isSet F.TOD_STATUS.VALID 0
  let s := { s with time := s.time.advance }.commitFallback
  let now := s.timeInUse
  let boundary := if s.isSet F.TOD_STATUS.VALID 0 then s.time.carried
    else if jump then now % nsPerSec == 0 else now / nsPerSec != before / nsPerSec
  let s := { s with time := { s.time with bound := boundary } }
  (if boundary then s.ppsSecondPins.foldl (fun t p => t.ppsEvent p 0) s else s).ppsSchedule

/-- TIME_TICK (R67). Until TIME_LOOP first locks the time unit is held in reset with its clock stopped (R410), and in
HIBERNATE it is off (R382). -/
def execTimeTick (s : State) : Host.Outcome State Fault Refusal := .next (if s.clk.timeUp = true ∧ s.dark = false then s.tick else s)

/-! ### Rates and the fallback offset -/

/-- A write of TOD_ADDEND_LO (R68). -/
def State.addendLoWrite (s : State) (v : Word) : State :=
  { (s.setReg R.TOD_ADDEND_LO 0 v.toNat) with time := { s.time with addendStaged := true } }

/-- TOD_ADDEND_LO_WRITE (R68). -/
def execTodAddendLoWrite (acc : Accessor) (v : Word) (s : State) : Host.Outcome State Fault Refusal :=
  .next (s.ownedWrite acc 0 R.TOD_ADDEND_LO 0 (fun _ t => t.addendLoWrite v))

/-- A write of NS_INCR (R69). -/
def State.nsIncrWrite (s : State) (v : Word) : State :=
  { (s.writePlain R.NS_INCR 0 v.toNat) with time := { s.time with incrStaged := true } }

/-- NS_INCR_WRITE (R69). -/
def execNsIncrWrite (acc : Accessor) (v : Word) (s : State) : Host.Outcome State Fault Refusal :=
  .next (s.ownedWrite acc 0 R.NS_INCR 0 (fun _ t => t.nsIncrWrite v))

/-- The accessor is the servo owner (R88): firmware, or a host-side accessor once TIME_OWNER gave it the servo. -/
def State.servoOwner (s : State) (a : Accessor) : Bool :=
  if s.time.hostServo then a != .chamois else a == .chamois || s.rondan a

/-- A write of NS_FALLBACK_OFF_LO: ignored while VALID is 1 or by another than the servo owner (R70). -/
def State.fallbackLoWrite (s : State) (a : Accessor) (v : Word) : State :=
  if s.isSet F.TOD_STATUS.VALID 0 ∨ s.servoOwner a = false then s
  else { (s.setReg R.NS_FALLBACK_OFF_LO 0 v.toNat) with time := { s.time with fallbackStaged := true } }

/-- A write of NS_FALLBACK_OFF_HI, staged under the same conditions (R70). -/
def State.fallbackHiWrite (s : State) (a : Accessor) (v : Word) : State :=
  if s.isSet F.TOD_STATUS.VALID 0 ∨ s.servoOwner a = false then s else s.setReg R.NS_FALLBACK_OFF_HI 0 v.toNat

/-- NS_FALLBACK_OFF_LO_WRITE (R70). -/
def execNsFallbackOffLoWrite (acc : Accessor) (v : Word) (s : State) : Host.Outcome State Fault Refusal :=
  .next (s.ownedWrite acc 0 R.NS_FALLBACK_OFF_LO 0 (fun _ t => t.fallbackLoWrite acc v))

/-! ### TOD_CTRL: invalidate, snapshot, arm (R70, R72, R75 to R77) -/

/-- Clears VALID and latches the fallback offset (R70). A written NS_FALLBACK_OFF that still waits for its tick is dropped: the
latch replaces it. With VALID 0 already it latches again, which moves the time in use where ToD has drifted from it, and acts as
any INVALIDATE (DESIGN CHOICE, log 99). -/
def State.todInvalidate (s : State) : State :=
  let off := ofSigned 64 ((s.time.sec * nsPerSec + s.time.ns : Nat) - (s.now : Int))
  let moved := !s.isSet F.TOD_STATUS.VALID 0 && s.time.fallback != off
  let s := (s.put F.TOD_STATUS.VALID 0 0).setPair R.NS_FALLBACK_OFF_LO R.NS_FALLBACK_OFF_HI 0 off
  { s with time := { s.time with fallback := off, fallbackStaged := false } }.jumped moved

/-- TOD_INVALIDATE (R70). -/
def execTodInvalidate (acc : Accessor) (s : State) : Host.Outcome State Fault Refusal :=
  .next (s.ownedWrite acc 0 R.TOD_CTRL 0 (fun _ t => t.todInvalidate))

/-- Captures ToD and NS64 into snapshot set `i` (R72). -/
def State.snapshot (s : State) (i : Nat) : State :=
  let t := s.time
  ((((s.setReg R.TOD_SNAP_SEC_HI i (t.sec / 2 ^ 32)).setReg R.TOD_SNAP_SEC_LO i (t.sec % 2 ^ 32)).setReg R.TOD_SNAP_NS i
    t.ns).setReg R.TOD_SNAP_FRAC i t.frac).setPair R.NS_SNAP_LO R.NS_SNAP_HI i t.ns64

/-- TOD_SNAP (R72): every accessor may take a snapshot, a core into its own set; R72 gives that right beside the
ownership of TOD_CTRL's other bits (DEDUCED, log 31). -/
def execTodSnap (acc : Accessor) (core : Fin 256) (s : State) : Host.Outcome State Fault Refusal :=
  .next (match s.selIndex acc core.val .snap with | some i => s.snapshot i | none => s)

/-- The ToD seconds at the boundary at which a step armed now applies (R75): the first second boundary at which NS64
has advanced by 2,000 or more. -/
def TimeUnit.stepAt (t : TimeUnit) : Nat :=
  let k := (2000 * 2 ^ 24 - t.nsFrac + t.incr - 1) / t.incr
  (t.sec + (t.ns * 2 ^ 32 + t.frac + (k - 1) * t.addend) / 2 ^ 32 / nsPerSec + 1) % 2 ^ 48

/-- Arms the staged step, or refuses it under STEP_LOCK (R75, R76, R77). -/
def State.stepArm (s : State) : State :=
  if s.isSet F.TOD_STATUS.STEP_LOCK 0 then s.put F.TOD_STATUS.STEP_REFUSED 0 1
  else
    let s := (s.put F.TOD_STATUS.STEP_PENDING 0 1).setReg R.TOD_STEP_AT 0 (s.time.stepAt % 2 ^ 32)
    { s with time := { s.time with
      stepSec := s.reg R.TOD_STEP_SEC_LO 0 + s.get F.TOD_STEP_SEC_HI.SEC 0 * 2 ^ 32
      stepNs := s.reg R.TOD_STEP_NS 0, stepArmed := s.now, stepBoundary := s.time.stepAt, ppsStepEarly := [] } }

/-- TOD_STEP_ARM (R75). -/
def execTodStepArm (acc : Accessor) (s : State) : Host.Outcome State Fault Refusal :=
  .next (s.ownedWrite acc 0 R.TOD_CTRL 0 (fun _ t => t.stepArm))

/-- Pins that pulse because a step applies: those of second boundaries, where the tick is no boundary of the time in use (R79). -/
def State.ppsStepPins (s : State) : List Nat := if s.time.bound then [] else s.ppsSecondPins

/-- The boundary of an armed step, for pin `p`. -/
def State.ppsStepEvent (s : State) (p : Nat) : State :=
  if s.time.ppsStepEarly.get false p then s else s.ppsEmit p (if s.ppsPhase p < 0 then 64 else s.ppsPhase p)

/-- Applies the armed step at the present tick, a second boundary (R75, R76, R79). A TOD_STEP_NS of 10^9 or more in magnitude acts
as it stands (DESIGN CHOICE, log 93). -/
def State.stepApply (s : State) : State :=
  let t := s.time
  let base : Int := if t.sec = 0 then 2 ^ 48 else (t.sec : Int)
  let n : Int := (t.ns : Int) + toSigned 32 t.stepNs
  let sec : Int := base + toSigned 48 t.stepSec + n / (nsPerSec : Int)
  let s := s.put F.TOD_STATUS.STEP_PENDING 0 0
  if sec < 0 ∨ (2 ^ 48 : Int) ≤ sec then s.put F.TOD_STATUS.STEP_RANGE 0 1
  else
    let s := s.ppsStepPins.foldl (fun t p => t.ppsStepEvent p) s
    let s := { s with time := { s.time with
      sec := sec.toNat, ns := (n % (nsPerSec : Int)).toNat, ppsStepEarly := [] } }
    let s := ((s.put F.TOD_STATUS.VALID 0 1).put F.TOD_STATUS.STEP_LOCK 0 1)
    ((s.put F.TOD_SERVO.LOSS_SEEN 0 0).put F.TOD_SERVO.HOLD_EXIT 0 0).jumped true

/-- TOD_STEP_APPLY (R75): due at the first ToD second boundary 2 µs or more after the arming write. -/
def execTodStepApply (s : State) : Host.Outcome State Fault Refusal :=
  if s.isSet F.TOD_STATUS.STEP_PENDING 0 ∧ s.time.carried = true ∧ s.time.stepArmed + 2000 ≤ s.now then
    .next s.stepApply
  else .next s

/-- TOD_REARM (R77): clears STEP_LOCK; firmware-owned in every servo-ownership state. -/
def execTodRearm (acc : Accessor) (s : State) : Host.Outcome State Fault Refusal :=
  .next (s.ownedWrite acc 0 R.TOD_REARM 0 (fun _ t => t.put F.TOD_STATUS.STEP_LOCK 0 0))

/-- A write of TOD_SERVO.STATE (R78); values 4 to 7 are ignored (R95). -/
def State.servoWrite (s : State) (v : Word) : State :=
  let new := v.toNat % 8
  let old := s.get F.TOD_SERVO.STATE 0
  if 3 < new then s
  else
    let s := s.put F.TOD_SERVO.STATE 0 new
    let s := if old = 2 ∧ new ≤ 1 then s.put F.TOD_SERVO.LOSS_SEEN 0 1 else s
    if old = 3 ∧ new ≠ 3 then s.put F.TOD_SERVO.HOLD_EXIT 0 1 else s

/-- TOD_SERVO_WRITE (R78). -/
def execTodServoWrite (acc : Accessor) (v : Word) (s : State) : Host.Outcome State Fault Refusal :=
  .next (s.ownedWrite acc 0 R.TOD_SERVO 0 (fun _ t => t.servoWrite v))

/-- A write of TOD_CTRL with every bit it sets: INVALIDATE, SNAP, STEP_ARM, in bit order. -/
def State.todCtrlWrite (s : State) (a : Accessor) (core : Nat) (v : Word) : State :=
  let snap := fun (t : State) => if bitAt v.toNat 1
    then (match t.selIndex a core .snap with | some i => t.snapshot i | none => t) else t
  if s.mayWrite a R.TOD_CTRL 0 then
    let s := if bitAt v.toNat 0 then s.todInvalidate else s
    let s := snap s
    if bitAt v.toNat 2 then s.stepArm else s
  else
    let s := if bitAt v.toNat 0 || bitAt v.toNat 2 then s.violate R.TOD_CTRL.off a else s
    snap s

/-! ### Comparators (R73, R74) -/

/-- Pin `p` pulses with comparator `n`. -/
def State.cmpPin (s : State) (n p : Nat) : Bool := s.isSet F.TOD_PPS_OUT_CTRL.SRC p && s.get F.TOD_PPS_OUT_CTRL.CMP p == n

/-- A write of TIME_CMP_n_TGT_LO commits the target and arms (R73). -/
def State.cmpCommit (s : State) (n : Nat) (v : Word) : State :=
  let s := s.setReg R.TIME_CMP_TGT_LO n v.toNat
  { s with time := { s.time with
    cmpTgt := s.time.cmpTgt.set 0 n (s.pair R.TIME_CMP_TGT_LO R.TIME_CMP_TGT_HI n)
    cmpArmed := s.time.cmpArmed.set false n true
    ppsEarly := s.time.ppsEarly.filter (fun e => !s.cmpPin n e.1) } }

/-- TIME_CMP_TGT_LO_WRITE (R73). -/
def execTimeCmpTgtLoWrite (acc : Accessor) (n : Fin 32) (v : Word) (s : State) : Host.Outcome State Fault Refusal :=
  .next (s.ownedWrite acc 0 R.TIME_CMP_TGT_LO n.val (fun i t => t.cmpCommit i v))

/-- A comparator fires (R73, R74, R85). Its event for a pin is the tick of its firing, or its target's time where it catches up. -/
def State.cmpFire (s : State) (n : Nat) : State :=
  let d := (s.cmpDiff n).toNat
  let late := if s.cmpOnTod n then decide (s.time.addend ≤ d * 2 ^ 32 + s.time.frac)
    else decide (s.time.incr ≤ d * 2 ^ 24 + s.time.nsFrac)
  let s := s.put F.TIME_CMP_CTRL.FIRED n 1
  let s := if s.isSet F.TIME_CMP_CTRL.IRQ_EN n then s.msix 0 5 else s
  let s := (s.ppsCmpPins n).foldl (fun t p => t.ppsEvent p (if late then 32 * (d : Int) else 0)) s
  let per := s.reg R.TIME_CMP_PERIOD n
  if per = 0 then { s with time := { s.time with cmpArmed := s.time.cmpArmed.set false n false } }
  else
    let m := d / per + 1
    let s := s.put F.TIME_CMP_CTRL.MISSED n (satAdd 8 (s.get F.TIME_CMP_CTRL.MISSED n) (m - 1))
    { s with time := { s.time with cmpTgt := s.time.cmpTgt.set 0 n ((s.time.cmpTgt.get 0 n + m * per) % 2 ^ 64) } }

/-- COMPARATOR_FIRE (R73): an enabled, armed comparator whose base has reached its target fires; after a jump of its
base, at the next tick (R74). -/
def execComparatorFire (n : Fin 32) (s : State) : Host.Outcome State Fault Refusal :=
  if s.isSet F.TIME_CMP_CTRL.EN n.val ∧ s.time.cmpArmed.get false n.val = true ∧ 0 ≤ s.cmpDiff n.val ∧
      (s.isSet F.TIME_CMP_CTRL.BASE n.val = false ∨ s.time.jumpAt ≤ s.now) then .next (s.cmpFire n.val)
  else .next s

/-! ### PPS pins -/

/-- The time in use in 1/32 ns (R67, R71). -/
def State.use32 (s : State) : Nat :=
  s.timeInUse * 32 + (if s.isSet F.TOD_STATUS.VALID 0 then s.time.frac / 2 ^ 27 else 0)

/-- PPS_IN_EDGE (R84): a rising edge, `sub`/32 ns after its tick, stamped with the time in use. -/
def execPpsInEdge (n : Fin 2) (sub : BitVec 6) (s : State) : Host.Outcome State Fault Refusal :=
  let lastE := s.time.ppsInLast.get 0 n.val
  let edge := s.now * 32 + s.time.nsFrac / 2 ^ 19 + sub.toNat
  if lastE ≠ 0 ∧ edge < lastE - 1 + 32000 then .next s
  else
    let u32 := s.use32 + sub.toNat
    let u := u32 / 32
    let s := { s with time := { s.time with ppsInLast := s.time.ppsInLast.set 0 n.val (edge + 1) } }
    let s := (s.setReg R.TOD_PPS_IN_SEC_LO n.val (u / nsPerSec % 2 ^ 32)).setReg R.TOD_PPS_IN_NS n.val (u % nsPerSec)
    let s := (s.put F.TOD_PPS_IN_STAT.SUB n.val (u32 % 32)).put F.TOD_PPS_IN_STAT.VALID n.val
      (s.get F.TOD_STATUS.VALID 0)
    .next (s.put F.TOD_PPS_IN_STAT.SEQ n.val (s.get F.TOD_PPS_IN_STAT.SEQ n.val + 1))

/-- PPS_OUT_PULSE_END (R85): pulses whose width has passed end. -/
def execPpsOutPulseEnd (n : Fin 4) (s : State) : Host.Outcome State Fault Refusal :=
  .next { s with time := { s.time with
    ppsRun := s.time.ppsRun.set [] n.val ((s.time.ppsRun.get [] n.val).filter (fun r => decide (s.now < r.2))) } }

/-- A pulse runs on pin `p`. -/
def State.ppsActive (s : State) (p : Nat) : Bool := (s.time.ppsRun.get [] p).any (fun r => decide (r.1 ≤ s.now))

/-- A write of TOD_PPS_OUT_n_CTRL: a disabled pin drives its inactive level (R85). -/
def State.ppsCtrlWrite (s : State) (n : Nat) (v : Word) : State :=
  let t := s.writePlain R.TOD_PPS_OUT_CTRL n v.toNat
  if t.isSet F.TOD_PPS_OUT_CTRL.EN n = false then
    { t with time := { t.time with ppsRun := t.time.ppsRun.set [] n [], ppsEarly := t.time.ppsEarly.set false n false
                                   ppsStepEarly := t.time.ppsStepEarly.set false n false } }
  else if t.get F.TOD_PPS_OUT_CTRL.SRC n ≠ s.get F.TOD_PPS_OUT_CTRL.SRC n ∨
      t.get F.TOD_PPS_OUT_CTRL.CMP n ≠ s.get F.TOD_PPS_OUT_CTRL.CMP n then
    { t with time := { t.time with ppsEarly := t.time.ppsEarly.set false n false } }
  else t

/-! ### Slot timers (R91 to R94) -/

/-- PERIOD and OFFSET are within R91's limits. -/
def slotValid (period offset : Nat) : Bool :=
  decide (62500 ≤ period) && decide (period ≤ 10000000) && 10000000 % period == 0 && decide (offset ≤ 9999999)

/-- Enables timer `n`: its first event is at the next slot start (R93). -/
def State.slotEnable (s : State) (n : Nat) : State :=
  let s := s.put F.SLOT_TMR_CTRL.EN n 1
  { s with time := { s.time with
    slotNext := s.time.slotNext.set 0 n (s.slotStartFrom n (s.timeInUse + 1) + 1)
    slotResync := s.time.slotResync.set false n false } }

/-- Disables timer `n`. -/
def State.slotDisable (s : State) (n : Nat) : State :=
  let s := s.put F.SLOT_TMR_CTRL.EN n 0
  { s with time := { s.time with slotNext := s.time.slotNext.set 0 n 0
                                 slotResync := s.time.slotResync.set false n false } }

/-- A write of SLOT_TMR_n_CTRL (R91). -/
def State.slotCtrlWrite (s : State) (n : Nat) (v : Word) : State :=
  let v := v.toNat
  let was := s.isSet F.SLOT_TMR_CTRL.EN n
  let epochDiffers := s.get F.SLOT_TMR_CTRL.EPOCH n != bit (bitAt v 1)
  let s := if bitAt v 3 then s.put F.SLOT_TMR_CTRL.RESYNC n 0 else s
  let s := if bitAt v 4 then s.put F.SLOT_TMR_CTRL.CFG_REJ n 0 else s
  let s := s.put F.SLOT_TMR_CTRL.IRQ_EN n (bit (bitAt v 2))
  let s := if was then (if epochDiffers then s.put F.SLOT_TMR_CTRL.CFG_REJ n 1 else s)
    else s.put F.SLOT_TMR_CTRL.EPOCH n (bit (bitAt v 1))
  if bitAt v 0 then
    if was then s
    else if slotValid (s.reg R.SLOT_TMR_PERIOD n) (s.reg R.SLOT_TMR_OFFSET n) then s.slotEnable n
    else s.put F.SLOT_TMR_CTRL.CFG_REJ n 1
  else if was then s.slotDisable n else s

/-- SLOT_TMR_CTRL_WRITE (R91). -/
def execSlotTmrCtrlWrite (acc : Accessor) (n : Fin 8) (v : Word) (s : State) : Host.Outcome State Fault Refusal :=
  .next (s.ownedWrite acc 0 R.SLOT_TMR_CTRL n.val (fun i t => t.slotCtrlWrite i v))

/-- A write of SLOT_TMR_n_PERIOD or _OFFSET: ignored while EN is 1, setting CFG_REJ (R91). -/
def State.slotCfgWrite (s : State) (r : RegRow) (n : Nat) (v : Word) : State :=
  if s.isSet F.SLOT_TMR_CTRL.EN n then s.put F.SLOT_TMR_CTRL.CFG_REJ n 1 else s.writePlain r n v.toNat

/-- Timer `n` has a slot start due. -/
def State.slotDue (s : State) (n : Nat) : Bool :=
  let t := s.time.slotNext.get 0 n
  s.isSet F.SLOT_TMR_CTRL.EN n && t != 0 && decide (t - 1 ≤ s.timeInUse)

/-- The timer's side of a slot start (R92, R94): answers the resync flag and the state after. -/
def State.slotFire (s : State) (n : Nat) : Bool × State :=
  let t := s.time.slotNext.get 0 n - 1
  let resync := s.time.slotResync.get false n
  let s := (s.setReg R.SLOT_TMR_COUNT n (s.slotNumber n t)).setPair R.SLOT_TMR_LAST_LO R.SLOT_TMR_LAST_HI n s.now
  let s := if resync then s.put F.SLOT_TMR_CTRL.RESYNC n 1 else s
  let s := if s.isSet F.SLOT_TMR_CTRL.IRQ_EN n then s.msix 0 5 else s
  (resync, { s with time := { s.time with
    slotNext := s.time.slotNext.set 0 n (t + s.reg R.SLOT_TMR_PERIOD n + 1)
    slotResync := s.time.slotResync.set false n false } })

/-! ### Transmit stamps (R82) -/

/-- Puts a transmit stamp into the FIFO of MAC `m` (R82). -/
def State.stampPush (s : State) (m : Nat) (x : Stamp) : State :=
  let f := s.time.txFifo.get [] m
  if f.length < 16 then { s with time := { s.time with txFifo := s.time.txFifo.set [] m (f ++ [x]) } }
  else s.count F.TSU_COUNTS.TX_OVF m 1

/-- Removes the head of the FIFO of MAC `m`. -/
def State.stampPop (s : State) (m : Nat) : State :=
  { s with time := { s.time with txFifo := s.time.txFifo.set [] m (s.time.txFifo.get [] m).tail } }

/-- TSU_TX_POP (R82). -/
def execTsuTxPop (acc : Accessor) (s : State) : Host.Outcome State Fault Refusal :=
  .next (s.ownedWrite acc 0 R.TSU_TX_POP 0 (fun m t => t.stampPop m))

end Sys2Proof.Machine
end

