-- ==== Sys2Proof/Machine/Lanes.lean ====
section
/-! DEFINITION. Lanes (R96 to R99), their equalisers and eye monitors, the recovered clocks (R86), and what the
descriptor rings share (R101, R102). -/

namespace Sys2Proof.Machine

/-! ### Descriptor rings -/

/-- Registers of a ring: base, size and indices. -/
structure RingRegs where
  lo : RegRow
  hi : RegRow
  idx : RegRow
  deriving DecidableEq, Repr

/-- The registers of each kind of ring (R128). -/
def ringRegs : RingKind → RingRegs
  | .macTx => ⟨R.MAC_TX_RING_LO, R.MAC_TX_RING_HI, R.MAC_TX_IDX⟩
  | .macRx => ⟨R.MAC_RX_RING_LO, R.MAC_RX_RING_HI, R.MAC_RX_IDX⟩
  | .fhTx => ⟨R.FH_TX_RING_LO, R.FH_TX_RING_HI, R.FH_TX_IDX⟩
  | .cpriTx => ⟨R.CPRI_CM_TX_RING_LO, R.CPRI_CM_TX_RING_HI, R.CPRI_CM_TX_IDX⟩
  | .cpriRx => ⟨R.CPRI_CM_RX_RING_LO, R.CPRI_CM_RX_RING_HI, R.CPRI_CM_RX_IDX⟩
  | .pcieDma => ⟨R.PCIE_DMA_RING_LO, R.PCIE_DMA_RING_HI, R.PCIE_DMA_IDX⟩

/-- Number of a kind of ring. -/
def ringNo : RingKind → Nat
  | .macTx => 0 | .macRx => 1 | .fhTx => 2 | .cpriTx => 3 | .cpriRx => 4 | .pcieDma => 5

/-- Key of ring `i` of a kind. -/
def ringKey (k : RingKind) (i : Nat) : Nat := ringNo k * 65536 + i

/-- Base address of a ring (R101). -/
def State.ringBase (s : State) (k : RingKind) (i : Nat) : Nat :=
  s.reg (ringRegs k).lo i / 64 * 64 + s.reg (ringRegs k).hi i % 65536 * 2 ^ 32

/-- Entries of a ring (R101). -/
def State.ringEntries (s : State) (k : RingKind) (i : Nat) : Nat := 2 ^ bitsOf (s.reg (ringRegs k).hi i) 16 4

/-- Producer and consumer index (R101). -/
def State.ringProd (s : State) (k : RingKind) (i : Nat) : Nat := s.reg (ringRegs k).idx i % 65536
def State.ringCons (s : State) (k : RingKind) (i : Nat) : Nat := s.reg (ringRegs k).idx i / 65536

/-- The ring has a descriptor to process and is not stopped. -/
def State.ringReady (s : State) (k : RingKind) (i : Nat) : Bool :=
  s.ringProd k i != s.ringCons k i && !s.links.ringStop.get false (ringKey k i)

/-- Address of the next descriptor of `size` bytes. -/
def State.ringHead (s : State) (k : RingKind) (i size : Nat) : Nat :=
  s.ringBase k i + s.ringCons k i % s.ringEntries k i * size

/-- A write of PROD: ignored if it would make the ring hold more than its size (R101). -/
def State.ringProdWrite (s : State) (k : RingKind) (i : Nat) (v : Word) : State :=
  let p := v.toNat % 65536
  let c := s.ringCons k i
  if s.ringEntries k i < (p + 65536 - c) % 65536 then s else s.setReg (ringRegs k).idx i (p + c * 65536)

/-- RING_PROD_WRITE (R101). -/
def execRingProdWrite (acc : Accessor) (ring : RingKind) (v : Word) (s : State) : Host.Outcome State Fault Refusal :=
  .next (s.ownedWrite acc 0 (ringRegs ring).idx 0 (fun i t => t.ringProdWrite ring i v))

/-- Descriptors must lie in packaged memory or a scratchpad (R102). -/
def ringMemory (a : Nat) : Bool :=
  match decodeAddr a with
  | .hbm _ => true
  | .scratch _ => true
  | _ => false

/-- Stops a ring whose descriptor access failed (R102). -/
def State.ringFail (s : State) (k : RingKind) (i : Nat) : State :=
  let s := { s with links := { s.links with ringStop := s.links.ringStop.set false (ringKey k i) true } }
  match k with
  | .macTx => s.put F.MAC_STATUS.RING_ERR i 1
  | .macRx => s.put F.MAC_STATUS.RING_ERR i 1
  | .fhTx => s.put F.FH_STATUS.RING_ERR i 1
  | .pcieDma => s.put F.PCIE_STATUS.RING_ERR (i / 4) 1
  | _ => s

/-- What reading a descriptor gives. -/
inductive RingGot where
  | bytes (bs : List Byte)
  | failed
  | waits
  deriving DecidableEq, Repr

/-- Reads the next descriptor with key index 0: its bytes; a failure, where the access fails or the descriptor is poisoned;
or neither yet, where the access must wait (R102, R387). -/
def State.ringFetch (s : State) (k : RingKind) (i ep size : Nat) : RingGot × State :=
  let a := s.ringHead k i size
  if ringMemory a = false then (.failed, s)
  else
    let (c, poison, _, bs, t) := s.readBytes ⟨ep, 0, 0, false⟩ a size
    if c = codeWaits then (.waits, s.wakeLike t)
    else if c ≠ 0 ∨ poison = true then (.failed, t) else (.bytes bs, t)

/-- Reads the next descriptor; none where that fails, which stops the ring, and none where it must wait, which leaves the ring
as it is. -/
def State.ringRead (s : State) (k : RingKind) (i ep size : Nat) : Option (List Byte) × State :=
  match s.ringFetch k i ep size with
  | (.bytes bs, t) => (some bs, t)
  | (.failed, t) => (none, t.ringFail k i)
  | (.waits, t) => (none, t)

/-- Interrupt identity and vector of the engine a ring belongs to. -/
def State.ringVector (s : State) (k : RingKind) (i : Nat) : Nat × Nat :=
  match k with
  | .macTx => (i, s.get F.MAC_CFG.VECTOR i)
  | .macRx => (i, s.get F.MAC_CFG.VECTOR i)
  | .fhTx => (64 + i, s.get F.FH_CTRL.VECTOR i)
  | .cpriTx => (80 + i, s.get F.CPRI_CFG.VECTOR i)
  | .cpriRx => (80 + i, s.get F.CPRI_CFG.VECTOR i)
  | .pcieDma => (96 + i / 4, s.get F.PCIE_CFG.VECTOR (i / 4))

/-- Sends an engine's vector, at most once per 1 µs (R102). -/
def State.ringMsi (s : State) (k : RingKind) (i : Nat) : State :=
  let (e, v) := s.ringVector k i
  let lastM := s.links.ringIrq.get 0 e
  if v = 0 ∨ (lastM ≠ 0 ∧ s.now < lastM - 1 + 1000) then s
  else { s with links := { s.links with ringIrq := s.links.ringIrq.set 0 e (s.now + 1) } }.msix 0 v

/-- Writes back bytes `bs` at byte `off` of the next descriptor and completes it (R101, R102). The descriptor has just been
read, so its write finds nothing to wait for. -/
def State.ringComplete (s : State) (k : RingKind) (i ep size off : Nat) (bs : List Byte) : State :=
  let (c, _, t) := s.writeBytes ⟨ep, 0, 0, false⟩ (s.ringHead k i size + off) bs
  if c ≠ 0 then t.ringFail k i
  else (t.setReg (ringRegs k).idx i (t.ringProd k i + (t.ringCons k i + 1) % 65536 * 65536)).ringMsi k i

/-- Little-endian word `n` of a descriptor. -/
def wordOf (bs : List Byte) (n : Nat) : Nat := leValue ((bs.drop (4 * n)).take 4)

/-- A ring's descriptor: its size, and the byte offset, bit and width of its STATUS; DONE is bit 31 of that word (R105, R113,
R118). -/
def ringStatus : RingKind → Nat × Nat × Nat × Nat
  | .macTx => (16, 8, 20, 4)
  | .cpriTx => (16, 8, 20, 4)
  | .macRx => (32, 8, 0, 0)
  | .cpriRx => (32, 8, 0, 0)
  | .fhTx => (32, 24, 0, 8)
  | .pcieDma => (32, 24, 0, 8)

/-- Completes the descriptor at the head, `d`, with a STATUS and DONE. -/
def State.ringDone (s : State) (k : RingKind) (i ep : Nat) (d : List Byte) (st : Nat) : State :=
  let (_, off, lo, n) := ringStatus k
  s.ringComplete k i ep (ringStatus k).1 off (leBytes 4 (bitsSet (bitsSet (wordOf d (off / 4)) lo n st) 31 1 1))

/-- Descriptors of a ring still to be finished with status 3. -/
def State.setAborts (s : State) (k : RingKind) (i n : Nat) : State :=
  { s with links := { s.links with aborts := s.links.aborts.set 0 (ringKey k i) n } }

/-- Finishes up to `n` pending descriptors of a ring with status 3 (R105, R119), stopped or not; those whose memory must be
waited for are finished later. -/
def State.ringAbort (s : State) (k : RingKind) (i ep : Nat) : Nat → State
  | 0 => s.setAborts k i 0
  | n + 1 =>
    if s.ringProd k i = s.ringCons k i then s.setAborts k i 0
    else match s.ringFetch k i ep (ringStatus k).1 with
      | (.bytes d, t) => (t.ringDone k i ep d 3).ringAbort k i ep n
      | (.failed, t) => (t.ringFail k i).setAborts k i 0
      | (.waits, t) => t.setAborts k i (n + 1)

/-- What remains to be finished of a ring with status 3 is tried again. -/
def State.abortRetry (s : State) (k : RingKind) (i ep : Nat) : State :=
  if s.links.aborts.get 0 (ringKey k i) = 0 then s else s.ringAbort k i ep (s.links.aborts.get 0 (ringKey k i))

/-- Posted writes of consecutive units: one that is refused is recorded by the block that refuses it, and the rest go on; one that must
wait is injected as a packet (R134, R138, R387, R452). -/
def State.postUnits (s : State) (x : Way) : Nat → List WUnit → State
  | 0, _ => s
  | fuel + 1, us =>
    if us.isEmpty then s
    else
      let n := reqUnits us
      let a := 16 * (us.headD ⟨0, 0, 0, false⟩).w
      let (c, t) := s.busSend x (us.take n)
      let t := if c = 0 ∨ c = 0xA then t
        else if c = codeWaits then s.inject (s.writePacket x a (us.take n))
        else t.postedFailed (placeOfEp (if s.injectBad x.ep (decodeAddr a) then x.ep else s.addrEp a)) x.ep c a
      t.postUnits x fuel (us.drop n)

/-- Writes bytes as posted writes do. -/
def State.postBytes (s : State) (ep key addr : Nat) (bs : List Byte) (poison : Bool := false) : State :=
  let us := unitsFor addr bs poison
  s.postUnits ⟨ep, key, 0, true⟩ us.length us

/-! ### Lanes (R96 to R99) -/

/-- State of a lane: 0 off, 1 no signal, 2 adapting, 3 locked, 4 fault. -/
def State.laneState (s : State) (l : Nat) : Nat := s.get F.LANE_STATUS.STATE l

/-- Lanes of a protocol engine. -/
def State.boundLanes (s : State) (bind eng : Nat) : List Nat :=
  (List.range 256).filter (fun l => s.isSet F.LANE_CTRL.EN l && s.get F.LANE_CTRL.BIND l == bind &&
    s.get F.LANE_CTRL.ENGINE l == eng)

/-- SQUELCH of the recovered-clock outputs that use lane `l` (R86). -/
def State.squelch (s : State) (l v : Nat) : State :=
  (List.range 2).foldl (fun t n =>
    if t.get F.TSU_RCLK_CTRL.LANE n = l then t.put F.TSU_RCLK_CTRL.SQUELCH n v else t) s

/-- The taps a lane's equaliser has (R97): CTLE 0; for PAM4 the 24 of the FFE, 1 to 24, and one of the DFE, 25; for NRZ the
DFE's five, 25 to 29. -/
def laneTap (pam4 : Bool) (k : Nat) : Bool :=
  k == 0 || (if pam4 then decide (k ≤ 25) else decide (25 ≤ k ∧ k ≤ 29))

/-- The taps of a lane that adapts and is not frozen move: what LMS makes of them is free (R97). -/
def State.laneAdapt (s : State) (l : Nat) : State :=
  if s.isSet F.LANE_EQ_CTRL.FREEZE l = false ∧ 2 ≤ s.laneState l then
    { s with free := s.free + 30
             links := { s.links with taps := (List.range 30).foldl (fun m k =>
               if laneTap (s.isSet F.LANE_CTRL.PAM4 l) k then m.set 0 (32 * l + k) (Config.undefinedBits 8 (s.free + k))
               else m.set 0 (32 * l + k) 0) s.links.taps } }
  else s

/-- Loop of the quad of lane `l` (R407). -/
def quadLoop (l : Nat) : Nat := 21 + l / 4

/-- The loop of a lane's quad is set to a lane rate, and acquires where it ran at another or at none (R407, R408). -/
def State.setQuadLoop (s : State) (l kbps : Nat) (pam4 : Bool) : State :=
  let k := quadLoop l
  if s.clk.used.get none k = some (kbps, bit pam4) then s
  else
    let s := (s.put F.CLK_LOOP_STATUS.LOCK k 0).put F.CLK_LOOP_STATUS.COASTING k 1
    { s with clk := { s.clk with used := s.clk.used.set none k (some (kbps, bit pam4)), idle := s.clk.idle.set false k false } }

/-- The loop of quad `m` stops: its quad is off, or none of its lanes is enabled any more and it loses its setting. -/
def State.stopQuadLoop (s : State) (m : Nat) (off : Bool) : State :=
  if off = false ∧ (List.range 4).any (fun k => s.isSet F.LANE_CTRL.EN (4 * m + k)) = true then s
  else
    let s := (s.put F.CLK_LOOP_STATUS.LOCK (21 + m) 0).put F.CLK_LOOP_STATUS.COASTING (21 + m) 0
    if off then s else { s with clk := { s.clk with used := s.clk.used.set none (21 + m) none } }

/-- A lane locks: the recovered clocks that use it run. The loop of its quad has locked before it (DEDUCED, log 115). -/
def State.laneLock (s : State) (l : Nat) : State :=
  let s := (s.put F.LANE_STATUS.STATE l 3).squelch l 0
  if (s.clk.used.get none (quadLoop l)).isSome
  then (s.put F.CLK_LOOP_STATUS.LOCK (quadLoop l) 1).put F.CLK_LOOP_STATUS.COASTING (quadLoop l) 0 else s

/-- The quad of lane `l` is powered (R99). -/
def State.laneOn (s : State) (l : Nat) : Bool := s.domState (domLaneQuad (l / 4)) != 0

/-- The engines of lane quad `m` take packets: one that powers down has stopped (R385 step 1). -/
def State.quadTakes (s : State) (m : Nat) : Bool := s.domState (domLaneQuad m) == 2

/-- Lanes `ls` may run at a rate: the other enabled lanes of their quads run at it too, or at none yet (R96). A link that would need
another rate does not come up (DESIGN CHOICE, log 115: R96 speaks of LANE_CONFIG alone). -/
def State.quadFits (s : State) (ls : List Nat) (kbps : Nat) (pam4 : Bool) : Bool :=
  ls.all (fun l => (List.range 4).all (fun k =>
    let j := l / 4 * 4 + k
    ls.contains j || !s.isSet F.LANE_CTRL.EN j || s.get F.LANE_RATE.KBPS j == 0 ||
      (s.get F.LANE_RATE.KBPS j == kbps && s.isSet F.LANE_CTRL.PAM4 j == pam4)))

/-- LANE_LOCKED (R97): an enabled lane gains signal, adapts and locks. -/
def execLaneLocked (lane : Fin 256) (s : State) : Host.Outcome State Fault Refusal :=
  if s.isSet F.LANE_CTRL.EN lane.val ∧ s.laneOn lane.val = true then .next ((s.laneLock lane.val).laneAdapt lane.val)
  else .next s

/-- MAC that uses a lane bound under bind 1 or 2: MAC m uses lanes from 4m (R100). -/
def State.laneMac (s : State) (l : Nat) : Nat :=
  let m := l / 4
  if m % 2 = 1 ∧ s.links.macLanes.get 0 (m - 1) = 8 then m - 1 else m

/-- Adds to a 64-bit MAC counter. -/
def State.macCount (s : State) (m cnt k : Nat) : State :=
  s.setPair R.MAC_STAT_LO R.MAC_STAT_HI (m * 16 + cnt)
    (min (s.pair R.MAC_STAT_LO R.MAC_STAT_HI (m * 16 + cnt) + k) (2 ^ 64 - 1))

/-- EYE_MONITOR_UPDATE (R98): the eye monitor's 1 ms figures of a locked lane, the heights of its eyes, of which NRZ has the
first alone, with the FEC symbols it corrected and failed to correct. Adaptation goes on meanwhile (R97). -/
def execEyeMonitorUpdate (lane : Fin 256) (eyes : BitVec 16 × BitVec 16 × BitVec 16) (width : BitVec 8) (errs uncorr : BitVec 16) (s : State) :
    Host.Outcome State Fault Refusal :=
  if s.laneState lane.val = 3 then
    let height := if s.isSet F.LANE_CTRL.PAM4 lane.val then min eyes.1.toNat (min eyes.2.1.toNat eyes.2.2.toNat) else eyes.1.toNat
    let s := ((s.put F.LANE_EYE.HEIGHT lane.val height).put F.LANE_EYE.WIDTH lane.val width.toNat).laneAdapt lane.val
    let s := s.setPair R.LANE_ERR_LO R.LANE_ERR_HI lane.val
      ((s.pair R.LANE_ERR_LO R.LANE_ERR_HI lane.val + errs.toNat) % 2 ^ 64)
    let b := s.get F.LANE_CTRL.BIND lane.val
    .next (if b = 1 ∨ b = 2 then
      (s.macCount (s.laneMac lane.val) 7 errs.toNat).macCount (s.laneMac lane.val) 8 uncorr.toNat else s)
  else .next s

/-- A write of LANE_EQ_CTRL: freezing stops adaptation and holds the taps as they are then; clearing FREEZE resumes from them
(R97). -/
def State.eqCtrlWrite (s : State) (l : Nat) (v : Word) : State := (s.laneAdapt l).writePlain R.LANE_EQ_CTRL l v.toNat

/-- The tap TAP_SEL names. -/
def State.tapKey (s : State) (l : Nat) : Nat := 32 * l + s.get F.LANE_EQ_CTRL.TAP_SEL l

/-- A write of LANE_EQ_TAP: ignored unless frozen (R128), and for a tap the lane does not have (R97). -/
def State.eqTapWrite (s : State) (l : Nat) (v : Word) : State :=
  if s.isSet F.LANE_EQ_CTRL.FREEZE l ∧ laneTap (s.isSet F.LANE_CTRL.PAM4 l) (s.get F.LANE_EQ_CTRL.TAP_SEL l) = true then
    { s with links := { s.links with taps := s.links.taps.set 0 (s.tapKey l) (BitVec.ofNat 8 v.toNat) } }
  else s

/-! ### Recovered clocks (R86) -/

/-- The smallest divider that gives 200 MHz or less: the symbol rate is the bit rate for NRZ and half of it for PAM4. -/
def State.rclkLeast (s : State) (l : Nat) : Nat :=
  let d := if s.isSet F.LANE_CTRL.PAM4 l then 400000 else 200000
  (s.get F.LANE_RATE.KBPS l + d - 1) / d

/-- Raises the divider of output `n` where it would give more than 200 MHz (R86). -/
def State.rclkRaise (s : State) (n : Nat) : State :=
  let need := s.rclkLeast (s.get F.TSU_RCLK_CTRL.LANE n)
  if max 1 (s.get F.TSU_RCLK_CTRL.DIV n) < need
  then (s.put F.TSU_RCLK_CTRL.DIV n need).put F.TSU_RCLK_CTRL.DIV_ADJ n 1 else s

/-- A write of TSU_RCLK_n_CTRL (R86). -/
def State.rclkWrite (s : State) (n : Nat) (v : Word) : State :=
  let s := (s.writePlain R.TSU_RCLK_CTRL n v.toNat).rclkRaise n
  s.put F.TSU_RCLK_CTRL.SQUELCH n (bit (s.laneState (s.get F.TSU_RCLK_CTRL.LANE n) != 3))

/-- A lane runs at a rate with a modulation; the outputs that use it follow (R86). -/
def State.laneRun (s : State) (l kbps : Nat) (pam4 : Bool) : State :=
  let s := (s.put F.LANE_RATE.KBPS l kbps).put F.LANE_CTRL.PAM4 l (bit pam4)
  (List.range 2).foldl (fun t n => if t.get F.TSU_RCLK_CTRL.LANE n = l then t.rclkRaise n else t) s

/-- TSU_RCLK_CTRL_WRITE (R86). -/
def execTsuRclkCtrlWrite (acc : Accessor) (n : Fin 2) (v : Word) (s : State) : Host.Outcome State Fault Refusal :=
  .next (s.ownedWrite acc 0 R.TSU_RCLK_CTRL n.val (fun i t => t.rclkWrite i v))

end Sys2Proof.Machine
end

