-- ==== Sys2Proof/Machine/Mac.lean ====
section
/-! DEFINITION. Ethernet MACs (R103 to R107), their time stamps and one-step insertion (R80, R82, R83). Frame formats
the spec names by standard (IEEE 802.3, 802.1AE, 1588) are PRESUMED from them (log 32). -/

namespace Sys2Proof.Machine

/-! ### Configuration and link (R103, R104) -/

/-- SPEED code of a lane count, lane rate in kbit/s, PAM4 flag and FEC choice; none for another combination (R103). -/
def macSpeed (lanes kbps : Nat) (pam4 : Bool) (fec : Nat) : Option Nat :=
  match pam4, kbps, lanes with
  | false, 10312500, 1 => if fec = 0 then some 0 else none
  | false, 25781250, 1 => if fec ≤ 1 then some 1 else none
  | false, 25781250, 2 => if fec = 1 then some 2 else none
  | false, 25781250, 4 => if fec = 1 then some 3 else none
  | true, 53125000, 1 => if fec = 2 then some 2 else none
  | true, 53125000, 2 => if fec = 2 then some 3 else none
  | true, 53125000, 4 => if fec = 2 then some 4 else none
  | true, 53125000, 8 => if fec = 2 then some 5 else none
  | true, 106250000, 1 => if fec = 2 then some 3 else none
  | true, 106250000, 2 => if fec = 2 then some 4 else none
  | true, 106250000, 4 => if fec = 2 then some 5 else none
  | true, 106250000, 8 => if fec = 2 then some 6 else none
  | _, _, _ => none

/-- The ability a lane configuration implies, by its row of R103's table. -/
def macAbility (lanes kbps : Nat) (pam4 : Bool) : Option Nat :=
  [(false, 10312500, 1), (false, 25781250, 1), (false, 25781250, 2), (true, 53125000, 1), (false, 25781250, 4),
    (true, 53125000, 2), (true, 106250000, 1), (true, 53125000, 4), (true, 106250000, 2), (true, 53125000, 8),
    (true, 106250000, 4), (true, 106250000, 8)].findIdx? (fun r => r == (pam4, kbps, lanes))

/-- Speed of MAC `m` as its LANE_CONFIG and FEC choice give it. -/
def State.macSpeedOf (s : State) (m : Nat) : Option Nat :=
  macSpeed (s.links.macLanes.get 0 m) (s.get F.LANE_RATE.KBPS (4 * m)) (s.isSet F.LANE_CTRL.PAM4 (4 * m))
    (s.get F.MAC_CFG.FEC m)

/-- Sets CFG_ERR as the configuration has it (R103). -/
def State.macCheck (s : State) (m : Nat) : State :=
  s.put F.MAC_STATUS.CFG_ERR m (bit (s.links.macLanes.get 0 m != 0 && (s.macSpeedOf m).isNone))

/-- The link event on a MAC's vector (R100). -/
def State.macEvent (s : State) (m : Nat) : State :=
  let v := s.get F.MAC_CFG.VECTOR m
  if v = 0 then s else s.msix 0 v

/-- The partner's page shares the single ability MAC `m`'s lanes imply, with the FEC that MAC_CFG.FEC permits (R104). -/
def State.macShares (s : State) (m : Nat) (q : MacPage) : Bool :=
  match macAbility (s.links.macLanes.get 0 m) (s.get F.LANE_RATE.KBPS (4 * m)) (s.isSet F.LANE_CTRL.PAM4 (4 * m)) with
  | some a => bitAt q.abilities.toNat a && bitAt q.fec.toNat (s.get F.MAC_CFG.FEC m)
  | none => false

/-- The PCS measures the skew of a MAC's lanes against its lowest one: free values (R80). -/
def State.macSkew (s : State) (m n : Nat) : State :=
  { s with free := s.free + n
           links := { s.links with laneSkew := (List.range n).foldl (fun k i =>
             k.set 0 (4 * m + i) (if i = 0 then 0 else (Config.undefinedBits 16 (s.free + i)).toInt)) s.links.laneSkew } }

/-- MAC_LINK_UP (R104): an enabled MAC with a valid configuration and every lane locked comes up; with AN_EN only if the partner
shares its ability, and with LT_EN too, on PAM4 lanes, only if training completed. Until SYS_LOOP_3 has locked the engines are held in
reset (R410). -/
def execMacLinkUp (mac : Fin 64) (partner : MacPage) (trained : Bool) (s : State) : Host.Outcome State Fault Refusal :=
  let m := mac.val
  let s := s.macCheck m
  let n := s.links.macLanes.get 0 m
  match s.macSpeedOf m with
  | none => .next s
  | some sp =>
    if s.clk.engUp = true ∧ s.isSet F.MAC_CFG.EN m ∧ (List.range n).all (fun k => s.laneState (4 * m + k) == 3) = true ∧
        (s.isSet F.MAC_CFG.AN_EN m = false ∨ (s.macShares m partner = true ∧
          (s.isSet F.MAC_CFG.LT_EN m = false ∨ s.isSet F.LANE_CTRL.PAM4 (4 * m) = false ∨ trained = true))) then
      .next ((((s.put F.MAC_STATUS.LINK m 1).put F.MAC_STATUS.SPEED m sp).macSkew m n).macEvent m)
    else .next s

/-- A MAC's link goes down with `inflight` frames in flight (R105). -/
def State.macDown (s : State) (m inflight : Nat) : State :=
  if s.isSet F.MAC_STATUS.LINK m then
    (((s.put F.MAC_STATUS.LINK m 0).ringAbort .macTx m (epLaneQuad m) inflight).macCount m 9 1).macEvent m
  else s

/-- MAC_LINK_DOWN (R105): loss of block or FEC lock. -/
def execMacLinkDown (mac : Fin 64) (inflight : Fin 65536) (s : State) : Host.Outcome State Fault Refusal :=
  .next (s.macDown mac.val inflight.val)

/-- A write of MAC_CFG: clearing EN, or a combination R103 does not list, takes the link down. -/
def State.macCfgWrite (s : State) (m : Nat) (v : Word) : State :=
  let s := (s.writePlain R.MAC_CFG m v.toNat).macCheck m
  if s.isSet F.MAC_CFG.EN m ∧ s.isSet F.MAC_STATUS.CFG_ERR m = false then s else s.put F.MAC_STATUS.LINK m 0

/-! ### Frames -/

/-- Two bytes of a frame, big-endian. -/
def be16 (f : List Nat) (o : Nat) : Nat := f.getD o 0 * 256 + f.getD (o + 1) 0

/-- Offset of the EtherType after at most `n` VLAN tags. -/
def etherOff : Nat → List Nat → Nat → Nat
  | 0, _, o => o
  | n + 1, f, o => if be16 f o = 0x8100 ∨ be16 f o = 0x88A8 then etherOff n f (o + 4) else o

/-- Offset of a frame's EtherType. -/
def frameType (f : List Nat) : Nat := etherOff 2 f 12

/-- Bytes of `f` at `o` replaced by `bs`. -/
def putBytes (f : List Nat) (o : Nat) (bs : List Nat) : List Nat := f.take o ++ bs ++ f.drop (o + bs.length)

/-- Where a frame's PTP message starts, and how it is carried: 0 Ethernet, 1 UDP/IPv4, 2 UDP/IPv6 (R87). -/
def ptpAt (f : List Nat) : Option (Nat × Nat) :=
  let o := frameType f
  let t := be16 f o
  if t = 0x88F7 then some (o + 2, 0)
  else if t = 0x0800 ∧ f.getD (o + 11) 0 = 17 then
    let u := o + 2 + f.getD (o + 2) 0 % 16 * 4
    if be16 f (u + 2) = 319 ∨ be16 f (u + 2) = 320 then some (u + 8, 1) else none
  else if t = 0x86DD ∧ f.getD (o + 8) 0 = 17 then
    let u := o + 42
    if be16 f (u + 2) = 319 ∨ be16 f (u + 2) = 320 then some (u + 8, 2) else none
  else none

/-- messageType of a PTP message at `p`: 0 Sync; 0 to 3 are event messages. -/
def ptpType (f : List Nat) (p : Nat) : Nat := f.getD p 0 % 16

/-- Ones'-complement sum of the 16-bit words from `o` on. -/
def onesSum : List Nat → Nat
  | a :: b :: r => (a * 256 + b + onesSum r) % 65535
  | [a] => a * 256
  | [] => 0

/-- The trailer that keeps a UDP payload's sum: its last two bytes, by the UDP length, take up the change (R83). -/
def fixTrailer (old new : List Nat) (p : Nat) : List Nat :=
  let n := min new.length (p - 8 + be16 new (p - 4))
  let old := old.take n
  let tail := new.drop n
  let new := new.take n
  let d := (onesSum (old.drop p) + 65535 - onesSum (new.drop p)) % 65535
  let d := if (n - p) % 2 = 0 then d else d % 256 * 256 + d / 256
  let t := (be16 new (n - 2) + d) % 65535
  putBytes new (n - 2) [t / 256, t % 256] ++ tail

/-- What carries a one-step change past the UDP checksum (R83). -/
def udpFix (old new : List Nat) (p kind : Nat) : List Nat :=
  match kind with
  | 1 => putBytes new (p - 2) [0, 0]
  | 2 => fixTrailer old new p
  | _ => new

/-- Adds to the correctionField of the PTP message at `p`, in 2^-16 ns. -/
def addCorrection (f : List Nat) (p : Nat) (k : Int) : List Nat :=
  putBytes f (p + 8) (Crypto.beNat 8 (ofSigned 64 ((Crypto.natBe ((f.drop (p + 8)).take 8) : Nat) + k)))

/-- Inserts the departure stamp (1/32 ns) and residence time as TSU_CTRL asks; the frame, and whether it is stamped
two-step instead (R83). -/
def oneStep (sync tc trailer secured : Bool) (stamp ingress : Nat) (f : List Nat) : List Nat × Bool :=
  match ptpAt f with
  | none => (f, false)
  | some (p, kind) =>
    let wantSync := sync && ptpType f p == 0
    let wantTc := tc && decide (ptpType f p ≤ 3)
    if (wantSync || wantTc) = false then (f, false)
    else if secured || (kind == 2 && !trailer) then (f, true)
    else
      let f1 := if wantSync then
          addCorrection (putBytes f (p + 34) (Crypto.beNat 6 (stamp / 32 / nsPerSec) ++
            Crypto.beNat 4 (stamp / 32 % nsPerSec))) p ((stamp % 32 * 2048 : Nat) : Int)
        else f
      let f2 := if wantTc then addCorrection f1 p (((stamp : Int) - (ingress : Int)) * 2048) else f1
      (udpFix f f2 p kind, false)

/-- The frame is inserted one-step, so that no stamp enters the FIFO; a frame whose residence time alone is added counts as
inserted too (DESIGN CHOICE, log 99: R82 speaks of stamps "not inserted under R83"). -/
def oneStepTaken (sync tc : Bool) (f : List Nat) : Bool :=
  match ptpAt f with
  | none => false
  | some (p, _) => (sync && ptpType f p == 0) || (tc && decide (ptpType f p ≤ 3))

/-! ### MACsec (R107) -/

/-- SA `k` of MAC `m` is enabled in a direction and its key slot holds a pair. -/
def State.saUsable (s : State) (m k dir : Nat) : Bool :=
  let i := m * 64 + k
  s.isSet F.MAC_SA_CFG.EN i && s.get F.MAC_SA_CFG.DIR i == dir && (s.keySlot (s.get F.MAC_SA_CFG.KEY_SLOT i)).isSome

/-- PN of an SA. -/
def State.saPn (s : State) (i : Nat) : Nat := s.pair R.MAC_SA_PN_LO R.MAC_SA_PN_HI i

/-- SCI of an SA, 8 bytes. -/
def State.saSci (s : State) (i : Nat) : List Nat :=
  Crypto.beNat 4 (s.reg R.MAC_SA_SCI_HI i) ++ Crypto.beNat 4 (s.reg R.MAC_SA_SCI_LO i)

/-- SAK of an SA: the first key of its slot's pair. -/
def State.saKey (s : State) (i : Nat) : List Nat :=
  match s.keySlot (s.get F.MAC_SA_CFG.KEY_SLOT i) with | some p => (Crypto.pairKeys p).1 | none => []

/-- The XPN nonce of a packet number: salt combined with SSCI and PN. MAC_SA_SALT_2 holds the most significant word of the salt
(DESIGN CHOICE, log 108: R107 does not say which does). -/
def State.saIv (s : State) (i pn : Nat) : List Nat :=
  Crypto.xorB
    (Crypto.beNat 4 (s.reg R.MAC_SA_SALT_2 i) ++ Crypto.beNat 4 (s.reg R.MAC_SA_SALT_1 i) ++
      Crypto.beNat 4 (s.reg R.MAC_SA_SALT_0 i))
    (Crypto.beNat 4 (s.reg R.MAC_SA_SSCI i) ++ Crypto.beNat 8 pn)

/-- Protects a frame under SA index `i` with packet number `pn`. -/
def State.saProtect (s : State) (i pn : Nat) (f : List Nat) : List Nat :=
  let rest := f.drop 12
  let tag := [0x88, 0xE5, 0x2C + s.get F.MAC_SA_CFG.AN i, if rest.length < 48 then rest.length else 0] ++
    Crypto.beNat 4 (pn % 2 ^ 32) ++ s.saSci i
  let c := Crypto.ctrXor (s.saKey i) (s.saIv i pn) rest
  f.take 12 ++ tag ++ c ++ Crypto.gcmTag (s.saKey i) (s.saIv i pn) (f.take 12 ++ tag) c

/-- The packet number a frame's low half stands for, nearest above the SA's lowest acceptable PN. -/
def recoverPn (low lowest : Nat) : Nat :=
  let c := lowest / 2 ^ 32 * 2 ^ 32 + low
  if lowest % 2 ^ 32 ≥ 2 ^ 31 ∧ low < lowest % 2 ^ 32 - 2 ^ 31 then c + 2 ^ 32 else c

/-- Verifies a MACsec frame: the SA, the packet number and the clear frame, or none where it is dropped (R107). The secure data ends
where SL says, in a frame padded after its ICV too; without E it is authenticated as it stands. -/
def State.saVerify (s : State) (m : Nat) (f : List Nat) : Option (Nat × Nat × List Nat) :=
  let tci := f.getD 14 0
  let sc := bitAt tci 5
  let low := Crypto.natBe ((f.drop 16).take 4)
  let sci := if sc then (f.drop 20).take 8 else (f.drop 6).take 6 ++ [0, 1]
  let h := if sc then 28 else 20
  match findBelow 64 (fun k => s.saUsable m k 1 && s.get F.MAC_SA_CFG.AN (m * 64 + k) == tci % 4 &&
      s.saSci (m * 64 + k) == sci) with
  | none => none
  | some k =>
    let i := m * 64 + k
    let pn := recoverPn low (s.saPn i)
    let sl := f.getD 15 0 % 64
    let n := if sl = 0 then f.length - h - 16 else sl
    let body := (f.drop h).take n
    let tag := if bitAt tci 3 then Crypto.gcmTag (s.saKey i) (s.saIv i pn) (f.take h) body
      else Crypto.gcmTag (s.saKey i) (s.saIv i pn) (f.take (h + n)) []
    if f.length < h + n + 16 ∨ pn < s.saPn i ∨ tag ≠ (f.drop (h + n)).take 16 then none
    else
      let clear := if bitAt tci 3 then Crypto.ctrXor (s.saKey i) (s.saIv i pn) body else body
      some (k, pn, f.take 12 ++ clear)

/-! ### Transmit (R105) -/

/-- Skew of the lane of MAC `m` that carries a frame's start (R80). -/
def State.macLaneSkew (s : State) (m carrier : Nat) : Int := s.links.laneSkew.get 0 (4 * m + carrier % max 1 (s.links.macLanes.get 0 m))

/-- Departure stamp of MAC `m` in 1/32 ns, `sub`/32 ns after the tick, on its lane `carrier` (R80). -/
def State.txStamp (s : State) (m sub carrier : Nat) : Nat :=
  ((s.use32 + sub : Nat) + toSigned 16 (s.reg R.LANE_TS_TX_DELAY (4 * m)) + s.macLaneSkew m carrier : Int).toNat

/-- Arrival stamp of MAC `m` in 1/32 ns (R80). -/
def State.rxStamp (s : State) (m sub carrier : Nat) : Nat :=
  ((s.use32 + sub : Nat) - toSigned 16 (s.reg R.LANE_TS_RX_DELAY (4 * m)) + s.macLaneSkew m carrier : Int).toNat

/-- Completes the transmit descriptor at the head with a STATUS. -/
def State.macTxDone (s : State) (k : RingKind) (m ep w2 st : Nat) : State :=
  s.ringComplete k m ep 16 8 (leBytes 4 (bitsSet (bitsSet w2 20 4 st) 31 1 1))

/-- Stamps and sends a frame whose buffer was read. -/
def State.macSend (s : State) (m sub carrier ingress w2 w3 sa : Nat) (sec : Bool) (f : List Nat) : State :=
  let stamp := s.txStamp m sub carrier
  let sync := s.isSet F.TSU_CTRL.ONESTEP_SYNC m
  let tc := s.isSet F.TSU_CTRL.ONESTEP_TC m
  let (f1, two) := oneStep sync tc (s.isSet F.TSU_CTRL.UDP6_TRAILER m) sec stamp ingress f
  let s := if two then s.count F.TSU_COUNTS.FALLBACK m 1 else s
  let s := if two || (bitAt w2 16 && !oneStepTaken sync tc f) then
      s.stampPush m { id := BitVec.ofNat 16 w3, sec := stamp / 32 / nsPerSec, ns := stamp / 32 % nsPerSec
                      sub := BitVec.ofNat 5 stamp, valid := s.isSet F.TOD_STATUS.VALID 0 }
    else s
  let i := m * 64 + sa
  let pn := s.saPn i
  let f2 := if sec then s.saProtect i pn f1 else f1
  let s := if sec then s.setPair R.MAC_SA_PN_LO R.MAC_SA_PN_HI i (pn + 1) else s
  let s := { s with out := { s.out with frames := (m, f2.map (BitVec.ofNat 8)) :: s.out.frames } }
  ((s.macCount m 4 1).macCount m 5 f.length).macTxDone .macTx m (epLaneQuad m) w2 0

/-- A MAC processes its next transmit descriptor (R105, R107). -/
def State.macTx (s : State) (m sub carrier ingress : Nat) : State :=
  if s.isSet F.MAC_CFG.EN m ∧ s.isSet F.MAC_STATUS.LINK m ∧ s.quadTakes m = true ∧ s.ringReady .macTx m = true then
    match s.ringRead .macTx m (epLaneQuad m) 16 with
    | (none, t) => t
    | (some d, t) =>
      let w1 := wordOf d 1; let w2 := wordOf d 2
      let key := bitsOf w1 16 8
      let (c, poison, _, bs, t) := t.readBytes ⟨epLaneQuad m, key, 0, false⟩ (wordOf d 0 + w1 % 65536 * 2 ^ 32) (w2 % 2 ^ 14)
      if c = codeWaits then s.wakeLike t
      else if c ≠ 0 ∨ poison = true then t.macTxDone .macTx m (epLaneQuad m) w2 1
      else
        let f := bs.map (·.toNat)
        if bitAt w1 24 then
          match findBelow 64 (fun k => t.saUsable m k 0 && t.get F.MAC_SA_CFG.KEY_SLOT (m * 64 + k) == key) with
          | none => t.macTxDone .macTx m (epLaneQuad m) w2 2
          | some k =>
            if 2 ^ 64 - 2 ^ 32 ≤ t.saPn (m * 64 + k) then t.macTxDone .macTx m (epLaneQuad m) w2 2
            else t.macSend m sub carrier ingress w2 (wordOf d 3) k true f
        else t.macSend m sub carrier ingress w2 (wordOf d 3) 0 false f
  else s

/-! ### Receive (R106) -/

/-- The fronthaul engine that MAC `m` serves, if its lanes are bound to one (R100, R108). -/
def State.macFronthaul (s : State) (m : Nat) : Option Nat :=
  if s.get F.LANE_CTRL.BIND (4 * m) = 2 then some (s.get F.LANE_CTRL.ENGINE (4 * m)) else none

/-- The frame is taken by the MAC's fronthaul engine (R106, R108). -/
def State.fhTakes (s : State) (m : Nat) (f : List Nat) : Bool :=
  match s.macFronthaul m with
  | none => false
  | some e =>
    let o := frameType f
    s.isSet F.FH_CTRL.EN e && (if s.isSet F.FH_CTRL.TRANSPORT e then be16 f o == 0xFC3D
      else be16 f o == 0xAEFE && [0, 2, 5].contains (f.getD (o + 3) 0))

/-- Writes a received frame to the next descriptor of its ring, of 32 bytes (R106); none where the descriptor or the buffer
must be waited for (R387), with the state then. -/
def State.rxWrite (s : State) (h : RxHeld) : Option State × State :=
  match s.ringRead h.ring h.idx h.ep 32 with
  | (none, t) => if t.links.ringStop.get false (ringKey h.ring h.idx) then (some t, t) else (none, t)
  | (some d, t) =>
    let w1 := wordOf d 1; let w3 := wordOf d 3
    let size := w3 % 2 ^ 14
    let n := min h.frame.length size
    let (c, _, t) := t.writeBytes ⟨h.ep, h.key.getD (bitsOf w1 16 8), 0, false⟩ (wordOf d 0 + w1 % 65536 * 2 ^ 32)
      ((h.frame.take n).map (BitVec.ofNat 8))
    if c = codeWaits then (none, s.wakeLike t)
    else
      let w2 := if c ≠ 0 then bitsSet h.info 23 1 1 else n + bit (size < h.frame.length) * 2 ^ 14 + h.info
      let sec := h.stamp / 32 / nsPerSec
      let u := t.ringComplete h.ring h.idx h.ep 32 8 (leBytes 4 w2 ++ leBytes 4 (size + h.stamp % 32 * 2 ^ 16 + 2 ^ 31) ++
        leBytes 4 (sec % 2 ^ 32) ++ leBytes 4 (sec / 2 ^ 32 % 65536) ++ leBytes 4 (h.stamp / 32 % nsPerSec))
      (some u, u)

/-- Received frames that wait for ring `i` of a kind. -/
def State.rxWaiting (s : State) (k : RingKind) (i : Nat) : Nat :=
  (s.links.rxHeld.filter (fun h => h.ring == k && h.idx == i)).length

/-- A posted descriptor of ring `i` is free: none of the frames that wait will take it (R106). -/
def State.rxFree (s : State) (k : RingKind) (i : Nat) : Bool :=
  s.ringReady k i && decide (s.rxWaiting k i < (s.ringProd k i + 65536 - s.ringCons k i) % 65536)

/-- Delivers a frame to a receive ring with a free descriptor, after the frames that wait for it. -/
def State.rxDeliver (s : State) (h : RxHeld) : State :=
  let hold := fun (t : State) => { t with links := { t.links with rxHeld := t.links.rxHeld ++ [h] } }
  if 0 < s.rxWaiting h.ring h.idx then hold s
  else match s.rxWrite h with
    | (some t, _) => t
    | (none, t) => hold t

/-- The oldest waiting frame of each ring is tried again; a ring that has stopped loses them. -/
def State.rxRetry (s : State) : State :=
  s.links.rxHeld.foldl (fun t h =>
    if t.links.rxHeld.find? (fun x => x.ring == h.ring && x.idx == h.idx) = some h then
      let u := { t with links := { t.links with rxHeld := t.links.rxHeld.erase h } }
      if t.links.ringStop.get false (ringKey h.ring h.idx) then u
      else match u.rxWrite h with
        | (some v, _) => v
        | (none, v) => { v with links := t.links }
    else t) s

/-- Delivers an accepted frame to the MAC's receive ring, or drops it for want of a descriptor (R106). The RX counters count it
either way, and where the fronthaul engine takes it (DESIGN CHOICE, log 99). -/
def State.macDeliver (s : State) (m : Nat) (f : List Nat) (key : Option Nat) (info stamp : Nat) : State :=
  let s := (s.macCount m 0 1).macCount m 1 f.length
  if s.fhTakes m f then s
  else if s.rxFree .macRx m then
    s.rxDeliver ⟨.macRx, m, epLaneQuad m, f, key, info + s.get F.TOD_STATUS.VALID 0 * 2 ^ 22, stamp⟩
  else s.macCount m 3 1

/-- A MAC receives a frame, its bytes without FCS (R104, R106, R107). A frame longer than MTU is counted with the FCS
errors, the only counter that fits (log 33). -/
def State.macRx (s : State) (m : Nat) (frame : List Byte) (fcsOk : Bool) (sub carrier : Nat) : State :=
  if s.isSet F.MAC_CFG.EN m ∧ s.isSet F.MAC_STATUS.LINK m ∧ s.quadTakes m = true then
    let f := frame.map (·.toNat)
    if fcsOk = false ∨ s.get F.MAC_CFG.MTU m < f.length + 4 then s.macCount m 2 1
    else if be16 f 12 = 0x88E5 then
      match s.saVerify m f with
      | none => s.macCount m 6 1
      | some (k, pn, g) =>
        let i := m * 64 + k
        (s.setPair R.MAC_SA_PN_LO R.MAC_SA_PN_HI i (max (s.saPn i) (pn + 1))).macDeliver m g
          (some (s.get F.MAC_SA_CFG.KEY_SLOT i)) (2 ^ 15 + k * 2 ^ 16) (s.rxStamp m sub carrier)
    else if s.isSet F.MAC_SEC_CTRL.REQUIRE m then s.macCount m 6 1
    else s.macDeliver m f none 0 (s.rxStamp m sub carrier)
  else s

end Sys2Proof.Machine
end

