-- ==== Sys2Proof/Machine/Fronthaul.lean ====
section
/-! DEFINITION. Fronthaul engines (R108 to R114): discovery, symbol times and windows, block floating point, receive
and transmit. -/

namespace Sys2Proof.Machine

/-! ### Symbol times (R111) -/

/-- Start of symbol `l` of a subframe at numerology `mu`, in units of 1/30,720 ns (TS 38.211 normal cyclic prefix:
one Tc is 15,625 of them). -/
def symbolStart (mu l : Nat) : Nat :=
  (l * (2192 * 64) / 2 ^ mu + 1024 * (bit (decide (0 < l)) + bit (decide (7 * 2 ^ mu < l)))) * 15625

/-- Units of 1/30,720 ns in a nanosecond, and in 2.56 s. -/
def unitsPerNs : Nat := 30720
def hyperUnits : Nat := 2560000000 * 30720

/-- Start S, in 1/30,720 ns, of the occurrence of a symbol nearest time `t`, for the slot timer's frame origin `base`
(R111). -/
def nearestSymbol (base : Nat) (mu frame sub slot sym : Nat) (t : Int) : Int :=
  let p : Int := (base * unitsPerNs + (frame * 10 + sub) * 1000000 * unitsPerNs + symbolStart mu (slot * 14 + sym) : Nat)
  let h : Int := (hyperUnits : Nat)
  p + (t - p + (h - 1) / 2) / h * h

/-- Start of a frame's symbol nearest a time in 1/30,720 ns, as engine `f` is set (R111). -/
def State.fhSymbol (s : State) (f frame sub slot sym : Nat) (t : Int) : Int :=
  nearestSymbol (s.slotBase (s.get F.FH_CTRL.SLOT_TMR f)) (s.get F.FH_CTRL.MU f) frame sub slot sym t

/-- A signed register of nanoseconds, in 1/30,720 ns. -/
def State.nsUnits (s : State) (r : RegRow) (i : Nat) : Int := toSigned 32 (s.reg r i) * (unitsPerNs : Int)

/-! ### Block floating point (R109) -/

/-- Saturates to 16 bits. -/
def sat16 (x : Int) : Int := if x < -32768 then -32768 else if 32767 < x then 32767 else x

/-- Expands one sample: mantissa × 2^exponent, saturated. -/
def bfpExpand (width exp mant : Nat) : Nat := ofSigned 16 (sat16 (toSigned width mant * (2 ^ exp : Int)))

/-- Shift right with round half to even. -/
def shiftRne (x : Int) (e : Nat) : Int :=
  let q := x / (2 ^ e : Int)
  let r := x % (2 ^ e : Int)
  if e = 0 then x
  else if r * 2 > (2 ^ e : Int) ∨ (r * 2 = (2 ^ e : Int) ∧ q % 2 = 1) then q + 1 else q

/-- A value fits in `w` signed bits. -/
def fitsIn (w : Nat) (x : Int) : Bool := decide (-(2 ^ (w - 1) : Int) ≤ x) && decide (x < (2 ^ (w - 1) : Int))

/-- The exponent of a PRB: the smallest, 0 to 15, for which every shifted value fits; 15 if none does. -/
def bfpExp (width : Nat) (vals : List Int) : Nat :=
  (findBelow 16 (fun e => vals.all (fun x => fitsIn width (shiftRne x e)))).getD 15

/-- Saturates to `w` signed bits. -/
def satTo (w : Nat) (x : Int) : Int :=
  if x < -(2 ^ (w - 1) : Int) then -(2 ^ (w - 1) : Int) else if (2 ^ (w - 1) : Int) ≤ x then (2 ^ (w - 1) : Int) - 1 else x

/-- Values as one number, `w` bits each, the first most significant. -/
def packBits (w : Nat) (vals : List Int) : Nat := vals.foldl (fun a x => a * 2 ^ w + ofSigned w x) 0

/-- One PRB compressed: the exponent byte and 24 mantissas of `width` bits, most significant bit first. -/
def compressPrb (width : Nat) (vals : List Int) : List Byte :=
  let e := bfpExp width vals
  BitVec.ofNat 8 e :: (Crypto.beNat (3 * width) (packBits width (vals.map (fun x => satTo width (shiftRne x e))))).map
    (BitVec.ofNat 8)

/-- The signed 16-bit values of CS16 bytes. -/
def cs16Values : List Byte → List Int
  | a :: b :: r => toSigned 16 (a.toNat + 256 * b.toNat) :: cs16Values r
  | _ => []

/-- U-plane payload of `n` PRBs of CS16 (R109): method 0 sends 16-bit values, method 1 block floating point. -/
def uPayload (method width : Nat) (bs : List Byte) : List Byte :=
  (Crypto.chunks 48 bs).flatMap (fun prb =>
    if method = 0 then ((cs16Values prb).flatMap (fun x => (Crypto.beNat 2 (ofSigned 16 x)).map (BitVec.ofNat 8)))
    else compressPrb width (cs16Values prb))

/-- Width a section's iqWidth field gives (R109). -/
def iqWidth (w : Nat) : Nat := if w = 0 then 16 else w

/-- The method and width are supported (R109). -/
def compSupported (method w : Nat) : Bool :=
  (method == 0 && iqWidth w == 16) || (method == 1 && decide (8 ≤ iqWidth w))

/-- A received section as CS16 bytes (R109, R112). -/
def expandSection (method w : Nat) (prbs : List Prb) : List Byte :=
  prbs.flatMap (fun p => p.iq.flatMap (fun (i, q) =>
    let e := if method = 0 then 0 else p.exp.toNat
    leBytes 2 (bfpExpand (iqWidth w) e i.toNat) ++ leBytes 2 (bfpExpand (iqWidth w) e q.toNat)))

/-! ### The discovery table (R110) -/

def State.ru (s : State) (i : Nat) : RuEntry := s.links.rus.get {} i
def State.flow (s : State) (i : Nat) : FlowEntry := s.links.flows.get {} i
def State.setRu (s : State) (i : Nat) (x : RuEntry) : State :=
  { s with links := { s.links with rus := s.links.rus.set {} i x } }
def State.setFlow (s : State) (i : Nat) (x : FlowEntry) : State :=
  { s with links := { s.links with flows := s.links.flows.set {} i x } }

/-- Adds 1 to a fronthaul counter. -/
def State.fhCount (s : State) (f cnt : Nat) : State := s.countReg R.FH_STAT (f * 16 + cnt) 1

/-- Releases a flow and its binding. -/
def State.releaseFlow (s : State) (i : Nat) : State :=
  (((s.setFlow i {}).setReg R.FH_FLOW_DEST_LO i 0).setReg R.FH_FLOW_DEST_HI i 0).setReg R.FH_FLOW_STRIDE i 0

/-- What the table makes of a key: the entry, or why the frame is dropped. -/
inductive Found where
  | entry (i : Nat)
  | foreign
  | full
  | unknown
  deriving DecidableEq, Repr

/-- Finds or allocates the radio unit of a frame (R110). -/
def State.findRu (s : State) (f : Nat) (mac : BitVec 48) (vlan : BitVec 12) : Found × State :=
  match findBelow 256 (fun i => let u := s.ru i; u.used && u.mac == mac && u.vlan == vlan) with
  | some i =>
    let u := s.ru i
    if u.owner = f then (.entry i, s.setRu i { u with last := s.now }) else (.foreign, s)
  | none =>
    if s.isSet F.FH_CTRL.DISCOVER f then
      match findBelow 256 (fun i => !(s.ru i).used) with
      | some i => (.entry i, (s.setRu i { used := true, mac := mac, vlan := vlan, owner := f, last := s.now }).put
          F.FH_STATUS.NEW_RU f 1)
      | none => (.full, s)
    else (.unknown, s)

/-- Finds or allocates the flow of a frame (R110). -/
def State.findFlow (s : State) (f ru : Nat) (eaxc : BitVec 16) : Found × State :=
  match findBelow 4096 (fun i => let w := s.flow i; w.used && w.ru == ru && w.eaxc == eaxc) with
  | some i =>
    let w := s.flow i
    if w.owner = f then (.entry i, s.setFlow i { w with last := s.now }) else (.foreign, s)
  | none =>
    if s.isSet F.FH_CTRL.DISCOVER f then
      match findBelow 4096 (fun i => !(s.flow i).used) with
      | some i => (.entry i, (s.setFlow i { used := true, ru := ru, eaxc := eaxc, owner := f, last := s.now }).put
          F.FH_STATUS.NEW_FLOW f 1 |>.put F.FH_FLOW_DEST_HI.BOUND i 0)
      | none => (.full, s)
    else (.unknown, s)

/-- Drops a frame the table refuses, with its count (R110); a frame of an unknown key without DISCOVER has no
counter. -/
def State.fhDrop (s : State) (f : Nat) : Found → State
  | .foreign => s.fhCount f 5
  | .full => (s.fhCount f 6).put F.FH_STATUS.FULL f 1
  | _ => s

/-- Bytes of a number, most significant first. -/
def beBytes (n v : Nat) : List Byte := (Crypto.beNat n v).map (BitVec.ofNat 8)

/-- Addresses, VLAN tag (none for VLAN 0) and EtherType of a frame the device sends from MAC `m`. -/
def fhEther (m : Nat) (dst : BitVec 48) (vlan : BitVec 12) (type : Nat) : List Byte :=
  beBytes 6 dst.toNat ++ beBytes 6 (Config.macAddr m).toNat ++
    (if vlan = 0 then [] else beBytes 2 0x8100 ++ beBytes 2 vlan.toNat) ++ beBytes 2 type

/-- Lane quad of the MAC that serves engine `f`. Of two MACs bound to it at once, which the spec does not speak of, the one of
the lowest bound lane sends its frames (DESIGN CHOICE, log 107). -/
def State.fhQuad (s : State) (f : Nat) : Nat := (s.boundQuad 2 f).getD 0

/-- Engine `f` has a MAC, whose lane quad takes packets (R100, R108, R385 step 1). -/
def State.fhServed (s : State) (f : Nat) : Bool := (s.boundQuad 2 f).isSome && s.quadTakes (s.fhQuad f)

/-- A frame whose flow is bound: method, window, expansion and the write (R109, R111, R112). -/
def State.fhAccept (s : State) (f flow : Nat) (x : FhFrame) (sub carrier : Nat) : State :=
  if x.msgType = 0 ∧ compSupported x.method.toNat x.width.toNat = false then s.fhCount f 7
  else
    let arr : Int := (s.rxStamp (s.fhQuad f) sub carrier : Int) * 960
    let st := s.fhSymbol f x.frameId.toNat x.subframeId.toNat x.slotId.toNat x.symbolId.toNat arr
    if arr < st + s.nsUnits R.FH_RX_WIN_MIN f then s.fhCount f 1
    else if st + s.nsUnits R.FH_RX_WIN_MAX f < arr then s.fhCount f 2
    else
      let s := s.fhCount f 0
      let s := if s.isSet F.TOD_STATUS.VALID 0 then s else s.fhCount f 3
      if x.msgType = 0 then
        let stride := s.get F.FH_FLOW_STRIDE.SYM_STRIDE flow * 16
        let dest := s.reg R.FH_FLOW_DEST_LO flow / 16 * 16 + s.get F.FH_FLOW_DEST_HI.ADDR flow * 2 ^ 32
        s.postBytes (epLaneQuad (s.fhQuad f)) (s.get F.FH_FLOW_DEST_HI.KEY flow)
          (dest + x.slotId.toNat % (s.get F.FH_FLOW_DEST_HI.NBUF flow + 1) * 14 * stride + x.symbolId.toNat * stride +
            x.startPrb.toNat * 48)
          (expandSection x.method.toNat x.width.toNat x.prbs)
      else s

/-- Sends a frame a fronthaul engine built through MAC `m`. -/
def State.fhEmit (s : State) (m : Nat) (bs : List Byte) : State :=
  let s := { s with out := { s.out with frames := (m, bs) :: s.out.frames } }
  (s.macCount m 4 1).macCount m 5 bs.length

/-- A delay-measurement message of eCPRI 2.0 (PRESUMED, log 99): action type, stamp in 1/32 ns, no compensation. -/
def delayMessage (id : BitVec 8) (action stamp : Nat) : List Byte :=
  beBytes 4 0x10050014 ++ [id, BitVec.ofNat 8 action] ++ beBytes 6 (stamp / 32 / nsPerSec) ++ beBytes 4 (stamp / 32 % nsPerSec) ++
    beBytes 8 (stamp % 32 * 2048)

/-- The answers to a delay measurement (R108): a request gets a response with its arrival stamp, a remote request a request with
the departure stamp, and what asks for a follow-up gets that too. -/
def delayAnswers (action rx tx : Nat) : List (Nat × Nat) :=
  match action with
  | 0 => [(2, rx)]
  | 1 => [(2, rx)]
  | 3 => [(0, tx)]
  | 4 => [(1, 0), (5, tx)]
  | _ => []

/-- A delay measurement is answered with MAC stamps (R108). -/
def State.fhDelay (s : State) (m : Nat) (x : FhFrame) (sub carrier : Nat) : State :=
  (delayAnswers x.action.toNat (s.rxStamp m sub carrier) (s.txStamp m sub 0)).foldl (fun t (a, st) =>
    t.fhEmit m (fhEther m x.srcMac x.vlan 0xAEFE ++ delayMessage x.measId a st)) s

/-- FH_RX_FRAME (R108, R110 to R112): the engine takes a frame of its transport that its bound MAC passed it, received at
`edge`. -/
def execFhRxFrame (f : Fin 16) (frame : FhFrame) (edge : WireEdge) (s : State) :
    Host.Outcome State Fault Refusal :=
  let e := f.val
  let m := s.fhQuad e
  if s.isSet F.FH_CTRL.EN e = false ∨ s.fhServed e = false ∨ s.isSet F.MAC_STATUS.LINK m = false ∨
      frame.roe ≠ s.isSet F.FH_CTRL.TRANSPORT e ∨ (frame.msgType ≠ 0 ∧ frame.msgType ≠ 2 ∧ (frame.msgType ≠ 5 ∨ frame.roe = true))
  then .next s
  else if frame.msgType = 5 then .next (s.fhDelay m frame edge.sub.toNat edge.carrier.val)
  else
    match s.findRu e frame.srcMac frame.vlan with
    | (.entry u, s) =>
      match s.findFlow e u frame.eaxc with
      | (.entry w, s) =>
        .next (if s.isSet F.FH_FLOW_DEST_HI.BOUND w then s.fhAccept e w frame edge.sub.toNat edge.carrier.val else s.fhCount e 4)
      | (x, s) => .next (s.fhDrop e x)
    | (x, s) => .next (s.fhDrop e x)

/-- Releases every entry engine `f` owns, flows first (R110). -/
def State.fhFlush (s : State) (f : Nat) : State :=
  let s := (List.range 4096).foldl (fun t i => if (t.flow i).used && (t.flow i).owner == f then t.releaseFlow i else t) s
  (List.range 256).foldl (fun t i => if (t.ru i).used && (t.ru i).owner == f then t.setRu i {} else t) s

/-- FH_FLUSH (R110). -/
def execFhFlush (acc : Accessor) (s : State) : Host.Outcome State Fault Refusal :=
  .next (s.ownedWrite acc 0 R.FH_CTRL 0 (fun f t => t.fhFlush f))

/-- An entry last seen at NS64 `last` is aged out under its owner's AGE (R110). -/
def State.aged (s : State) (owner lastSeen : Nat) : Bool :=
  s.get F.FH_CTRL.AGE owner != 0 && decide (lastSeen + s.get F.FH_CTRL.AGE owner * nsPerSec ≤ s.now)

/-- FH_ENTRY_AGE_OUT (R110): a radio unit only after all its flows. -/
def execFhEntryAgeOut (isRu : Bool) (idx : Fin 4096) (s : State) : Host.Outcome State Fault Refusal :=
  if isRu then
    let u := s.ru idx.val
    if u.used && s.aged u.owner u.last && !(s.links.flows.any (fun e => e.2.used && e.2.ru == idx.val)) then
      .next (s.setRu idx.val {})
    else .next s
  else
    let w := s.flow idx.val
    if w.used && s.aged w.owner w.last then .next (s.releaseFlow idx.val) else .next s

/-! ### Transmit (R113, R114) -/

/-- Completes the descriptor at the head with a status. -/
def State.fhTxDone (s : State) (f : Nat) (d : List Byte) (st : Nat) : State := s.ringDone .fhTx f (epLaneQuad (s.fhQuad f)) d st

/-- The message of a descriptor (R113, R114): the eCPRI or 1914.3 header with eAxC ID and sequence ID, for the U-plane the O-RAN
application and section headers, and the payload. Their layouts are those standards' (PRESUMED, log 99). -/
def fhMessage (roe : Bool) (d : List Byte) (eaxc : BitVec 16) (seq : Nat) (payload : List Byte) : List Byte :=
  let cplane := bitAt (wordOf d 1) 24
  let w2 := wordOf d 2; let w3 := wordOf d 3; let w4 := wordOf d 4
  let head := if cplane then [] else
    beBytes 4 (0x90 * 2 ^ 24 + bitsOf w2 16 8 * 2 ^ 16 + bitsOf w2 24 4 * 2 ^ 12 + w3 % 64 * 2 ^ 6 + bitsOf w3 8 6) ++
    beBytes 3 (bitsOf w3 16 9) ++ beBytes 1 (if 255 < w4 % 512 then 0 else w4 % 512) ++
    beBytes 1 (bitsOf w4 16 5 % 16 * 16 + bitsOf w4 9 4) ++ beBytes 1 0
  let body := head ++ payload
  if roe then beBytes 2 (Config.roeHead cplane eaxc).toNat ++ beBytes 2 (4 + body.length) ++ beBytes 2 eaxc.toNat ++
    beBytes 2 (seq * 256 + 0x80) ++ body
  else beBytes 2 (if cplane then 0x1002 else 0x1000) ++ beBytes 2 (4 + body.length) ++ beBytes 2 eaxc.toNat ++
    beBytes 2 (seq * 256 + 0x80) ++ body

/-- Sends the section of a descriptor whose departure has come (R113, R114). -/
def State.fhSend (s : State) (f : Nat) (d : List Byte) (rush : Bool) : State :=
  let w1 := wordOf d 1; let w4 := wordOf d 4
  let flow := wordOf d 2 % 4096
  let w := s.flow flow
  if w.used = false ∨ s.isSet F.FH_FLOW_DEST_HI.BOUND flow = false then s.fhTxDone f d 3
  else
    let cplane := bitAt w1 24
    let len := if cplane then wordOf d 5 % 65536 else w4 % 512 * 48
    let (c, poison, _, bs, t) := s.readBytes ⟨epLaneQuad (s.fhQuad f), bitsOf w1 16 8, 0, false⟩
      (wordOf d 0 + w1 % 65536 * 2 ^ 32) len
    if c = codeWaits then s.wakeLike t
    else
    let s := t
    if c ≠ 0 ∨ poison = true then s.fhTxDone f d 2
    else
      let payload := if cplane then bs else uPayload (bitsOf w4 9 4) (bitsOf w4 16 5) bs
      let s := s.setFlow flow { w with seq := (w.seq + 1) % 256 }
      let u := s.ru w.ru
      let roe := s.isSet F.FH_CTRL.TRANSPORT f
      let s := s.fhEmit (s.fhQuad f) (fhEther (s.fhQuad f) u.mac u.vlan (if roe then 0xFC3D else 0xAEFE) ++
        fhMessage roe d w.eaxc w.seq payload)
      let s := if rush then s.fhCount f 9 else s
      (s.fhCount f 8).fhTxDone f d 0

/-- FH_TX_DEPARTURE (R114): the next descriptor departs at S minus its advance, once its MAC's link is up; it is rushed if taken
more than a tick later, and late at or after S. -/
def execFhTxDeparture (f : Fin 16) (s : State) : Host.Outcome State Fault Refusal :=
  let e := f.val
  if s.isSet F.FH_CTRL.EN e ∧ s.fhServed e = true ∧ s.ringReady .fhTx e = true then
    match s.ringRead .fhTx e (epLaneQuad (s.fhQuad e)) 32 with
    | (none, t) => .next t
    | (some d, t) =>
      let now : Int := (s.use32 : Int) * 960
      let w2 := wordOf d 2; let w3 := wordOf d 3
      let st := s.fhSymbol e (bitsOf w2 16 8) (bitsOf w2 24 4) (w3 % 64) (bitsOf w3 8 6) now
      let dep := st - s.nsUnits (if bitAt (wordOf d 1) 24 then R.FH_TX_ADV_C else R.FH_TX_ADV_U) e
      if now < dep ∨ (now < st ∧ s.isSet F.MAC_STATUS.LINK (s.fhQuad e) = false) then .next s
      else if st ≤ now then .next ((t.fhCount e 10).fhTxDone e d 1)
      else .next (t.fhSend e d (decide (dep + 2 * (unitsPerNs : Int) ≤ now)))
  else .next s

/-- FH_FLOW_INFO of an entry (R128). -/
def State.flowInfo (s : State) (i : Nat) : Nat :=
  let w := s.flow i
  if w.used then w.eaxc.toNat + w.ru % 256 * 2 ^ 16 + w.owner % 16 * 2 ^ 24 + 2 ^ 31 else 0

end Sys2Proof.Machine
end

