-- ==== Sys2Proof/Machine/Cpri.lean ====
section
/-! DEFINITION. CPRI framers (R115, R116), and the two MAC ring commands, which serve the framers' control-and-management
rings too. -/

namespace Sys2Proof.Machine

/-- Lane of framer `f`. -/
def State.cpriLane (s : State) (f : Nat) : Nat := s.get F.CPRI_CFG.LANE f

/-- Endpoint a framer uses. -/
def State.cpriEp (s : State) (f : Nat) : Nat := epLaneQuad (s.cpriLane f / 4)

/-- Basic frame of the 10 ms frame at the time in use, at 3.84 MHz (R116). -/
def State.basicFrameNow (s : State) (f : Nat) : Nat :=
  ((((s.timeInUse : Int) - (s.slotBase (s.get F.CPRI_CFG.SLOT_TMR f) : Int)) % 10000000).toNat) * 384 / 100000

/-- A line bit rate option: line rate and lane rate in kbit/s, and 64b/66b coding, 8b/10b otherwise (R115). -/
structure CpriOption where
  line : Nat
  lane : Nat
  long : Bool
  deriving DecidableEq, Repr

/-- The options of R115; 7A is not one. -/
def cpriOption : Nat → Option CpriOption
  | 1 => some ⟨614400, 2457600, false⟩
  | 2 => some ⟨1228800, 2457600, false⟩
  | 3 => some ⟨2457600, 2457600, false⟩
  | 4 => some ⟨3072000, 3072000, false⟩
  | 5 => some ⟨4915200, 4915200, false⟩
  | 6 => some ⟨6144000, 6144000, false⟩
  | 7 => some ⟨9830400, 9830400, false⟩
  | 8 => some ⟨10137600, 10137600, true⟩
  | 9 => some ⟨12165120, 12165120, true⟩
  | 10 => some ⟨24330240, 24330240, true⟩
  | _ => none

/-- The framer's lane is locked, bound to it and runs at its option's rate in NRZ (R115). -/
def State.cpriReady (s : State) (f : Nat) : Bool :=
  let l := s.cpriLane f
  match cpriOption (s.get F.CPRI_CFG.OPTION f) with
  | none => false
  | some o => s.clk.engUp && s.laneState l == 3 && s.get F.LANE_CTRL.BIND l == 3 && s.get F.LANE_CTRL.ENGINE l == f &&
      s.get F.LANE_RATE.KBPS l == o.lane && !s.isSet F.LANE_CTRL.PAM4 l

/-- CPRI_STARTUP (R116): an enabled framer with a listed line rate option on a locked lane bound to it moves to start-up
state `nextState` (A to G as 0 to 6); at F it measures the round trip and aligns its radio frames. -/
def execCpriStartup (f : Fin 8) (nextState : BitVec 3) (rtt : Word) (s : State) : Host.Outcome State Fault Refusal :=
  let i := f.val
  if s.isSet F.CPRI_CFG.EN i ∧ s.cpriReady i = true ∧ nextState ≠ 7 then
    let s := s.put F.CPRI_STATUS.STATE i nextState.toNat
    if nextState = 5 then
      .next { (s.setReg R.CPRI_RTT i rtt.toNat) with links :=
        { s.links with cpriFrame := s.links.cpriFrame.set 0 i (s.basicFrameNow i) } }
    else .next s
  else .next s

/-- `n` bits at bit `o` of a basic frame, bit k of byte j being bit 8j + k (log 34). -/
def frameBits (bs : List Byte) (o n : Nat) : Nat := bitsOf (leValue bs) o n

/-- A sample left-aligned in 16 bits (R116). -/
def leftAlign (w x : Nat) : Nat := x * 2 ^ (16 - w) % 65536

/-- One antenna-carrier container of framer `f` in basic frame `n` (R116); `rr` reads register space. -/
def State.axcFrame (s : State) (rr : RegReader) (f k n : Nat) (bits : List Byte) : State :=
  let i := f * 32 + k
  let w := s.get F.CPRI_AXC_CFG.WIDTH i
  let st := s.get F.CPRI_AXC_CFG.START i
  let key := s.get F.CPRI_AXC_CFG.KEY i
  let a := (s.pair R.CPRI_AXC_ADDR_LO R.CPRI_AXC_ADDR_HI i + n % 3840 * s.reg R.CPRI_AXC_STRIDE i) % 2 ^ 48
  if s.isSet F.CPRI_AXC_CFG.EN i = false ∨ w < 8 ∨ 16 < w then s
  else if s.isSet F.CPRI_AXC_CFG.DIR i then
    let (c, poison, _, bs, t) := s.readBytes ⟨s.cpriEp f, key, 0, false⟩ a 4 rr
    let v := if c ≠ 0 ∨ poison = true then (Config.undefinedBits 32 s.free).toNat else leValue bs
    let t := if c ≠ 0 ∨ poison = true then { t with free := t.free + 1 } else t
    { t with out := { t.out with
      cpriSent := (f, k, bitsOf v (16 - w) w, bitsOf v (32 - w) w) :: t.out.cpriSent } }
  else s.postBytes (s.cpriEp f) key a
    (leBytes 2 (leftAlign w (frameBits bits st w)) ++ leBytes 2 (leftAlign w (frameBits bits (st + w) w)))

/-- A basic frame: each enabled container's samples are expanded and written, or read and inserted (R116); a framer whose quad powers
down takes none (R385 step 1). -/
def State.basicFrame (s : State) (rr : RegReader) (i : Nat) (bits : List Byte) : State :=
  if s.get F.CPRI_STATUS.STATE i = 5 then
    let n := s.links.cpriFrame.get 0 i
    let s := if s.quadTakes (s.cpriLane i / 4) then (List.range 32).foldl (fun t k => t.axcFrame rr i k n bits) s else s
    { s with links := { s.links with cpriFrame := s.links.cpriFrame.set 0 i ((n + 1) % 38400) } }
  else s

/-- A framer loses its link: it counts the loss and restarts start-up (R116). -/
def State.cpriLoss (s : State) (f : Nat) : State :=
  (s.put F.CPRI_STATUS.STATE f 0).count F.CPRI_STATUS.LOSSES f 1

/-- A framer loses the link on lane `l`, where its start-up has begun on it. -/
def State.cpriLaneLoss (s : State) (f l : Nat) : State :=
  if s.isSet F.CPRI_CFG.EN f ∧ s.cpriLane f = l ∧ s.get F.CPRI_STATUS.STATE f ≠ 0 then s.cpriLoss f else s

/-- CPRI_LINK_LOSS (R116): of a framer whose start-up has begun. -/
def execCpriLinkLoss (f : Fin 8) (s : State) : Host.Outcome State Fault Refusal :=
  if s.get F.CPRI_STATUS.STATE f.val = 0 then .next s else .next (s.cpriLoss f.val)

/-- The framer's control-and-management link carries frames: its state is past C&M setup (D) and before G. -/
def State.cpriCm (s : State) (f : Nat) : Bool :=
  s.isSet F.CPRI_CFG.EN f && s.quadTakes (s.cpriLane f / 4) && decide (3 ≤ s.get F.CPRI_STATUS.STATE f) && decide (s.get F.CPRI_STATUS.STATE f ≤ 5)

/-- A framer sends the next frame of its control-and-management ring (R116); SEC and TS are held at 0. -/
def State.cpriTx (s : State) (f : Nat) : State :=
  if s.cpriCm f && s.ringReady .cpriTx f then
    match s.ringRead .cpriTx f (s.cpriEp f) 16 with
    | (none, t) => t
    | (some d, t) =>
      let w1 := wordOf d 1; let w2 := wordOf d 2
      let (c, poison, _, bs, t) := t.readBytes ⟨t.cpriEp f, bitsOf w1 16 8, 0, false⟩ (wordOf d 0 + w1 % 65536 * 2 ^ 32)
        (w2 % 2 ^ 14)
      if c = codeWaits then s.wakeLike t
      else if c ≠ 0 ∨ poison = true then t.macTxDone .cpriTx f (t.cpriEp f) w2 1
      else { t with out := { t.out with frames := (64 + f, bs) :: t.out.frames } }.macTxDone .cpriTx f (t.cpriEp f) w2 0
  else s

/-- A framer receives a control-and-management frame (R116); SA and the stamp fields are held at 0. -/
def State.cpriRx (s : State) (f : Nat) (frame : List Byte) (fcsOk : Bool) : State :=
  if s.cpriCm f && fcsOk && s.rxFree .cpriRx f then
    s.rxDeliver ⟨.cpriRx, f, s.cpriEp f, frame.map (·.toNat), none, 0, 0⟩
  else s

/-- MAC_TX_DESCRIPTOR (R105): MAC `mac` below 64, or the C&M ring of framer `mac - 64`; the frame departs at
`edge`, and `ingress` is the ingress stamp (1/32 ns) it carries for R83. -/
def execMacTxDescriptor (mac : Fin 72) (edge : WireEdge) (ingress : Nat) (s : State) :
    Host.Outcome State Fault Refusal :=
  .next (if mac.val < 64 then s.macTx mac.val edge.sub.toNat edge.carrier.val ingress else s.cpriTx (mac.val - 64))

/-- MAC_RX_FRAME (R106): a frame, without its FCS, received at `edge`. -/
def execMacRxFrame (mac : Fin 72) (frame : List Byte) (fcsOk : Bool) (edge : WireEdge) (s : State) :
    Host.Outcome State Fault Refusal :=
  .next (if mac.val < 64 then s.macRx mac.val frame fcsOk edge.sub.toNat edge.carrier.val else s.cpriRx (mac.val - 64) frame fcsOk)

end Sys2Proof.Machine
end

