-- ==== Sys2Proof/Machine/Mailbox.lean ====
section
/-! DEFINITION. The mailboxes (R37 to R62): rings, doorbells, responses, notification and reset. Which commands exist and
the checks made when one is taken are in Machine/CmdCheck.lean. -/

namespace Sys2Proof.Machine

/-! ### Payloads (R47, R48) -/

/-- A field of a request's payload at byte `o`, `w` bits wide; bytes beyond the payload length are ignored. -/
def fld (m : Msg) (o w : Nat) : Nat := bitsOf m.payload.toNat (8 * o) w

/-- A response's payload: its length in bytes and its little-endian value. -/
structure Payload where
  len : Nat := 0
  val : Nat := 0
  deriving DecidableEq, Repr

/-- Packs fields given as (byte offset, width, value). -/
def pack (len : Nat) (fs : List (Nat × Nat × Nat)) : Payload :=
  { len := len, val := fs.foldl (fun a (o, w, v) => a + v % 2 ^ w * 2 ^ (8 * o)) 0 }

/-- Status codes of R54. -/
def stOK : Nat := 0x0
def stNoSession : Nat := 0x1
def stVersion : Nat := 0x2
def stOpcode : Nat := 0x3
def stLength : Nat := 0x4
def stDenied : Nat := 0x5
def stParam : Nat := 0x6
def stBusy : Nat := 0x7
def stState : Nat := 0x8
def stOwner : Nat := 0x9
def stBuffer : Nat := 0xA
def stNoResource : Nat := 0xB
def stAuth : Nat := 0xC
def stRollback : Nat := 0xD
def stKey : Nat := 0xE
def stIntegrity : Nat := 0xF
def stLocked : Nat := 0x10
def stTimeout : Nat := 0x11
def stHw : Nat := 0x12
def stAborted : Nat := 0x13
def stStepRefused : Nat := 0x20
def stContention : Nat := 0x21

/-! ### Rings and notification -/

/-- Key of word `w` of a ring slot of mailbox `b`. -/
def slotWord (b idx w : Nat) : Nat := b * 512 + idx % 32 * 16 + w

/-- Requests waiting in the ring (R41). -/
def State.reqCount (s : State) (b : Nat) : Nat :=
  (s.get F.MBX_DOORBELL.INDEX b + 256 - s.get F.MBX_REQ_CONS.INDEX b) % 256

/-- Responses in the ring (R42). -/
def State.rspCount (s : State) (b : Nat) : Nat :=
  (s.get F.MBX_RSP_PROD.INDEX b + 256 - s.get F.MBX_RSP_CONS.INDEX b) % 256

/-- Sends a mailbox's notification (R59); mailboxes 4, 5 and 7 have none. -/
def State.mbxNotify (s : State) (b : Nat) : State :=
  if s.isSet F.MBX_CTRL.IRQ_EN b then
    let s := { s with mbx := { s.mbx with notified := s.mbx.notified.set false b true } }
    match b with
    | 0 => s.msix 0 0
    | 1 => s.msix 0 1
    | 2 => s.msix 0 2
    | 3 => s.msix 1 0
    | 6 => s.coreIrq (s.get F.MBX_CTRL.TARGET 6) 2
    | _ => s
  else s

/-- Writes a response's 16 words into the next response slot and notifies (R42, R60). -/
def State.rspPush (s : State) (b : Nat) (ws : List Word) : State :=
  let p := s.get F.MBX_RSP_PROD.INDEX b
  let was := s.rspCount b
  let s := (ws.take 16).mapIdx (fun k w => (k, w)) |>.foldl (fun t (k, w) =>
    t.setReg R.MBX_RSP_RING (slotWord b p k) w.toNat) s
  let s := s.put F.MBX_RSP_PROD.INDEX b (p + 1)
  let s := s.put F.MBX_STATUS.RSP_STALL b (bit (decide (31 ≤ was)))
  if was = 0 ∧ s.mbx.notified.get false b = false then s.mbxNotify b else s

/-- Gives a response to its mailbox: into the ring, or waiting while no slot is free (R43). -/
def State.rspGive (s : State) (b : Fin 8) (ws : List Word) : State :=
  if s.rspCount b.val < 32 ∧ s.mbx.rspWait.any (fun r => r.box == b) = false then s.rspPush b.val ws
  else { s with mbx := { s.mbx with rspWait := s.mbx.rspWait ++ [{ box := b, words := ws }] } }

/-- Writes waiting responses of a mailbox while slots are free, at most `n` (R43). -/
def State.rspDrain (s : State) (b : Fin 8) : Nat → State
  | 0 => s
  | n + 1 =>
    if s.rspCount b.val < 32 then
      match s.mbx.rspWait.find? (fun r => r.box == b) with
      | none => s
      | some r =>
        ({ s with mbx := { s.mbx with rspWait := s.mbx.rspWait.erase r } }.rspPush b.val r.words).rspDrain b n
    else s

/-- The 16 words of a response (R47). -/
def rspWords (op : Nat) (tag : BitVec 16) (ver status detail ns : Nat) (p : Payload) : List Word :=
  [BitVec.ofNat 32 (op % 65536 + tag.toNat * 65536), BitVec.ofNat 32 (p.len + ver % 256 * 256),
   BitVec.ofNat 32 (status + detail % 65536 * 65536), BitVec.ofNat 32 ns] ++
  (List.range 12).map (fun k => BitVec.ofNat 32 (p.val / 2 ^ (32 * k)))

/-- Answers a request executed under version `ver` (R42, R47); the detail field is 0 when the status is OK. -/
def State.answer (s : State) (b : Fin 8) (op : Nat) (m : Msg) (ver status detail : Nat) (p : Payload) : State :=
  s.rspGive b (rspWords op m.tag ver status (if status = 0 then 0 else detail) s.now p)

/-- Commands of mailbox `b` taken and not yet answered: those that run, and those whose response waits for a slot (R43,
R62). -/
def State.countInFlight (s : State) (b : Fin 8) : State :=
  s.put F.MBX_STATUS.IN_FLIGHT b.val ((s.mbx.started.filter (fun t => t.box == b)).length +
    (s.mbx.rspWait.filter (fun r => r.box == b)).length)

/-- The started command a command row runs: the first of its mailbox with its opcode and message. -/
def State.findTaken (s : State) (b : Fin 8) (op : Nat) (m : Msg) : Option Taken :=
  s.mbx.started.find? (fun t => t.box == b && t.op == op && t.msg == m)

/-- HELLO's opcode, and those of the commands whose being in progress others ask for. -/
def opHello : Nat := 0x0101
def opUnload : Nat := 0x0502
def opReadback : Nat := 0x0505
def opStage : Nat := 0x0B01
def opCommit : Nat := 0x0B02
def opActivate : Nat := 0x0B04

/-- Version a command was executed under: HELLO answers under the version it leaves (R51). -/
def State.ranUnder (s : State) (t : Taken) : Nat :=
  if t.op = opHello then s.get F.MBX_STATUS.VERSION t.box.val else t.msg.ver.toNat

/-- Ends a started command: out of the list, answered unless its mailbox was reset (R46). -/
def State.finish (s : State) (t : Taken) (status detail : Nat) (p : Payload) : State :=
  match s.mbx.started.find? (fun u => u.id == t.id) with
  | none => s
  | some u =>
    let s := { s with mbx := { s.mbx with started := s.mbx.started.erase u } }
    (if u.discard then s else s.answer u.box u.op u.msg (s.ranUnder u) status detail p).countInFlight u.box

/-- Runs a command row: nothing unless that command has been taken and not answered. -/
def State.runTaken (s : State) (b : Fin 8) (op : Nat) (m : Msg) (body : Taken → State → State) : State :=
  match s.findTaken b op m with
  | none => s
  | some t => body t s

/-- A command body's result: status, detail, payload and the state after. -/
structure Answer where
  status : Nat := 0
  detail : Nat := 0
  payload : Payload := {}
  /-- the command goes on: an access of its waits for a domain to wake (R387) -/
  wait : Bool := false
  state : State

/-- Runs a command row whose body only computes an answer. -/
def State.runCmd (s : State) (b : Fin 8) (op : Nat) (m : Msg) (body : State → Answer) : State :=
  s.runTaken b op m (fun t s =>
    let a := body s
    if a.wait then a.state else a.state.finish t a.status a.detail a.payload)

/-- An answer with a status alone. -/
def Answer.fail (s : State) (status : Nat) (detail : Nat := 0) : Answer :=
  { status := status, detail := detail, state := s }

/-- An OK answer. -/
def Answer.ok (s : State) (p : Payload := {}) : Answer := { payload := p, state := s }

/-! ### Doorbell, consumer index and reset -/

/-- A doorbell write: refused if the request count would leave 0 to 32 (R41). -/
def State.doorbell (s : State) (b : Nat) (idx : Nat) : State :=
  if 32 < (idx % 256 + 256 - s.get F.MBX_REQ_CONS.INDEX b) % 256 then s.put F.MBX_STATUS.OVERRUN b 1
  else s.setReg R.MBX_DOORBELL b (idx % 256)

/-- MBX_DOORBELL (R41); R.MBX_DOORBELL holds the request producer index. -/
def execMbxDoorbell (acc : Accessor) (b : Fin 8) (idx : BitVec 8) (s : State) : Host.Outcome State Fault Refusal :=
  .next (s.ownedWrite acc 0 R.MBX_DOORBELL b.val (fun i t => t.doorbell i idx.toNat))

/-- A write of the response consumer index re-arms notification, and sends a new one if responses remain (R60). -/
def State.rspCons (s : State) (b : Fin 8) (idx : Nat) : State :=
  let s := s.put F.MBX_RSP_CONS.INDEX b.val idx
  let s := { s with mbx := { s.mbx with notified := s.mbx.notified.set false b.val false } }
  let s := if s.get F.MBX_RSP_PROD.INDEX b.val = idx % 256 then s else s.mbxNotify b.val
  let s := s.put F.MBX_STATUS.RSP_STALL b.val (bit (decide (32 ≤ s.rspCount b.val)))
  (s.rspDrain b 32).countInFlight b

/-- MBX_RSP_CONS_WRITE (R60). -/
def execMbxRspConsWrite (acc : Accessor) (b : Fin 8) (idx : BitVec 8) (s : State) :
    Host.Outcome State Fault Refusal :=
  .next (s.ownedWrite acc 0 R.MBX_RSP_CONS b.val (fun _ t => t.rspCons b idx.toNat))

/-- Ends the session of a mailbox (R46, R50). -/
def State.endSession (s : State) (b : Nat) : State :=
  (s.put F.MBX_STATUS.SESSION b 0).put F.MBX_STATUS.VERSION b 0

/-- Resets a mailbox (R46): commands already taken run to completion and their responses are discarded. -/
def State.mbxReset (s : State) (b : Fin 8) : State :=
  let s := s.endSession b.val
  let s := (((s.setReg R.MBX_DOORBELL b.val 0).setReg R.MBX_REQ_CONS b.val 0).setReg R.MBX_RSP_PROD b.val 0).setReg
    R.MBX_RSP_CONS b.val 0
  let s := (s.put F.MBX_STATUS.OVERRUN b.val 0).put F.MBX_STATUS.RSP_STALL b.val 0
  ({ s with mbx := { s.mbx with
    started := s.mbx.started.map (fun t => if t.box = b then { t with discard := true } else t)
    rspWait := s.mbx.rspWait.filter (fun r => r.box != b)
    notified := s.mbx.notified.set false b.val false } } : State).countInFlight b

/-- MBX_RESET (R46). -/
def execMbxReset (acc : Accessor) (b : Fin 8) (s : State) : Host.Outcome State Fault Refusal :=
  .next (s.ownedWrite acc 0 R.MBX_CTRL b.val (fun _ t => t.mbxReset b))

/-- A write of MBX_CTRL (R62). -/
def State.mbxCtrlWrite (s : State) (b : Fin 8) (v : Word) : State :=
  let s := s.writePlain R.MBX_CTRL b.val (v.toNat / 2 * 2)
  if bitAt v.toNat 0 then s.mbxReset b else s

/-! ### Buffers (R49) -/

/-- A field named buf lies wholly in packaged memory or a cluster scratchpad. -/
def bufPlace (a len : Nat) : Bool :=
  decide (a + len ≤ 2 ^ 35) ||
    (decide (baseScratch ≤ a) && decide (a + len ≤ baseScratch + 32 * 0x200000))

/-- Code of the E_BUFFER detail: the byte offset of the first failing access divided by 64. -/
def bufDetail (o : Nat) : Nat := o / 64

/-- Why a buffer access did not complete: E_BUFFER with its detail, or a domain still waking (R387). -/
inductive BufStop where
  | bad (detail : Nat)
  | waits
  deriving DecidableEq, Repr

/-- The stop an access's code stands for. -/
def bufStop (c o : Nat) : BufStop := if c = codeWaits then .waits else .bad (bufDetail o)

/-- Firmware reads a buffer with key index 0 (R49). For one that lies outside packaged memory and the scratchpads no access is
made, and R49 gives the detail of E_BUFFER no value: the model answers 0 (DESIGN CHOICE, log 105). -/
def State.bufRead (s : State) (a len : Nat) : Except BufStop (List Byte) × State :=
  if bufPlace a len = false then (.error (.bad 0), s)
  else
    let (c, poison, o, bs, t) := s.readBytes ⟨epChamois, 0, 3, false⟩ a len
    if c ≠ 0 then (.error (bufStop c o), t)
    else if poison then (.error (.bad (bufDetail o)), t)
    else (.ok bs, t)

/-- Firmware writes a buffer with key index 0 (R49). -/
def State.bufWrite (s : State) (a : Nat) (bs : List Byte) : Option BufStop × State :=
  if bufPlace a bs.length = false then (some (.bad 0), s)
  else
    let (c, o, t) := s.writeBytes ⟨epChamois, 0, 3, false⟩ a bs
    if c ≠ 0 then (some (bufStop c o), t) else (none, t)

/-- The answer of a command a buffer stops: E_BUFFER, or none yet. -/
def Answer.buffer (s : State) : BufStop → Answer
  | .bad d => { status := stBuffer, detail := d, state := s }
  | .waits => { wait := true, state := s }

end Sys2Proof.Machine
end

