-- ==== Sys2Proof/Machine/Pcie.lean ====
section
/-! DEFINITION. PCIe controllers (R117 to R119): inbound requests, address translation, DMA channels and link state. The
bit places of a DMA descriptor's fields are this model's choice (log 35): the spec lists the fields only. -/

namespace Sys2Proof.Machine

/-! ### Translation (R117) -/

/-- The range a translation maps, mod 2^48 as packets carry addresses, overlaps register space or the private range. -/
def xlatForbidden (base size : Nat) : Bool :=
  let b := base % 2 ^ 48
  let e := b + 2 ^ size
  [0, 2 ^ 48].any (fun o => (decide (b < o + baseRegs + 0x4000000) && decide (o + baseRegs < e)) ||
    (decide (b < o + basePriv + 0x1000000) && decide (o + basePriv < e)))

/-- A write of one register of a translation, refused if the translation would overlap a forbidden range (R117). -/
def State.xlatWrite (s : State) (lo hi ctl r : RegRow) (i c : Nat) (v : Word) : State :=
  let t := s.writePlain r i v.toNat
  if xlatForbidden (t.pair lo hi i) (t.reg ctl i % 64) then s.put F.PCIE_STATUS.XLAT_REJ c 1 else t

/-- The global address and key index of offset `off` of a mapping whose SIZE is 30 to 36; none where it maps nothing. -/
def State.xlat (s : State) (lo hi ctl : RegRow) (i off : Nat) : Option (Nat × Nat) :=
  let size := s.reg ctl i % 64
  if 30 ≤ size ∧ size ≤ 36 ∧ off < 2 ^ size then some ((s.pair lo hi i + off) % 2 ^ 48, bitsOf (s.reg ctl i) 8 8) else none

/-- Where an inbound request of function `fn` of controller `c` lands: address and key index (R117). -/
def State.inboundAddr (s : State) (c fn : Nat) (q : PcieReq) : Option (Nat × Nat) :=
  if s.isSet F.PCIE_CFG.MODE c then s.xlat R.PCIE_IN_XLAT_LO R.PCIE_IN_XLAT_HI R.PCIE_IN_CTRL c q.off.toNat
  else if c = 1 ∧ fn = 1 then none
  else if q.bar2 then s.xlat R.PCIE_BAR2_XLAT_LO R.PCIE_BAR2_XLAT_HI R.PCIE_BAR2_CTRL (2 * c + fn) q.off.toNat
  else if c = 0 ∧ q.off.toNat < 2 ^ 26 then some (baseRegs + q.off.toNat, 0)
  else none

/-! ### Inbound requests -/

/-- Splits a byte range at 256-byte granules. -/
def pieces : Nat → Nat → Nat → List (Nat × Nat)
  | 0, _, _ => []
  | n + 1, a, len =>
    if len = 0 then []
    else
      let k := min len (256 - a % 256)
      (a, k) :: pieces n (a + k) (len - k)

/-- Byte enables of a range inside its first unit. -/
def rangeBe (a len : Nat) : Nat :=
  (List.range 16).foldl (fun b k => if a % 16 ≤ k ∧ k < a % 16 + len then b + 2 ^ k else b) 0

/-- The accessor a function acts as (R117). -/
def hostAcc (fn : Nat) : Accessor := if fn = 1 then .host1 else .host0

/-- Writes of a piece end at whole units: a final partial unit is a packet of its own (R134). -/
def writeRuns (a : Nat) (bs : List Byte) : List (Nat × List Byte) :=
  let tail := (a + bs.length) % 16
  if tail = 0 ∨ a / 16 = (a + bs.length - 1) / 16 then [(a, bs)]
  else [(a, bs.take (bs.length - tail)), (a + bs.length - tail, bs.drop (bs.length - tail))]

/-- Injects one host read and remembers what it answers. -/
def State.hostRead (s : State) (c fn key a len : Nat) : State :=
  let tag := s.links.hostTag.get 0 c % 1024
  let s := { s with links := { s.links with
    hostTag := s.links.hostTag.set 0 c ((tag + 1) % 1024)
    hostReads := s.links.hostReads.set none (1024 * c + tag) (some { fn := fn, off := a % 16, len := len }) } }
  s.inject { src := BitVec.ofNat 10 (epPcie c), cmd := 0, vc := 1, tag := BitVec.ofNat 10 tag
             len := BitVec.ofNat 4 ((a % 16 + len - 1) / 16), key := BitVec.ofNat 8 key
             be := BitVec.ofNat 16 (rangeBe a len), addr := BitVec.ofNat 48 a, acc := hostAcc fn }

/-- Injects one host write, posted as PCIe memory writes are. -/
def State.hostWrite (s : State) (c fn key : Nat) (poison : Bool) (a : Nat) (bs : List Byte) : State :=
  let us := unitsFor a bs poison
  s.inject { src := BitVec.ofNat 10 (epPcie c), cmd := 2, vc := 1, len := BitVec.ofNat 4 (us.length - 1)
             key := BitVec.ofNat 8 key, be := BitVec.ofNat 16 ((us.headD ⟨0, 0, 0, false⟩).be)
             addr := BitVec.ofNat 48 a, data := us.map (fun u => ⟨u.data, u.poison⟩), acc := hostAcc fn }

/-- An inbound memory request is translated and injected; one that maps nothing gets an error completion if it is a read, and is
dropped if it is a write (R117). -/
def State.pcieInbound (s : State) (c fn : Nat) (req : PcieReq) : State :=
  match s.inboundAddr c fn req with
  | none => if req.write then s else { s with out := { s.out with pcieCpl := (c, fn, none) :: s.out.pcieCpl } }
  | some (a, key) =>
    if req.write then
      (pieces (req.data.length + 1) a req.data.length).foldl (fun t (x, k) =>
        (writeRuns x ((req.data.drop (x - a)).take k)).foldl (fun u (y, bs) => u.hostWrite c fn key req.poisoned y bs) t) s
    else (pieces (req.len + 1) a req.len).foldl (fun t (x, k) => t.hostRead c fn key x k) s

/-- A response arrives at a PCIe controller: the partner's read completes (R117). -/
def State.hostResponse (s : State) (c : Nat) (p : Packet) : State :=
  let k := 1024 * c + p.tag.toNat
  match s.links.hostReads.get none k with
  | none => s
  | some h =>
    let s := { s with links := { s.links with hostReads := s.links.hostReads.set none k none } }
    let bs := if p.cmd.toNat = cmdReadRsp ∧ pktPoison p = false
      then some (unitBytes p.data h.off h.len) else none
    { s with out := { s.out with pcieCpl := (c, h.fn, bs) :: s.out.pcieCpl } }

/-! ### DMA channels (R118) -/

/-- Completes the descriptor of ring `i` with a status. -/
def State.dmaDone (s : State) (i : Nat) (d : List Byte) (st : Nat) : State := s.ringDone .pcieDma i (epPcie (i / 4)) d st

/-- Sends a PCIe request. -/
def State.pcieSend (s : State) (x : PcieSent) : State := { s with out := { s.out with pcie := x :: s.out.pcie } }

/-- Performs one descriptor; `cpl` is the partner's completion data, none for a completion error (R118): what it lacks of the
length is written as zeros (DESIGN CHOICE, log 99). Words 0 and 1
hold the global address and key index, 2 and 3 the PCIe address, 4 the length, 5 DIR, 6 STATUS and DONE (log 35). `rr` reads register
space. -/
def State.dmaRun (s₀ : State) (rr : RegReader) (i : Nat) (d : List Byte) (cpl : Option (List Byte)) : State :=
  let s := s₀
  let c := i / 4
  let g := wordOf d 0 + wordOf d 1 % 65536 * 2 ^ 32
  let key := bitsOf (wordOf d 1) 16 8
  let pa := wordOf d 2 + wordOf d 3 * 2 ^ 32
  let dir := wordOf d 5 % 4
  let len := if 2 ≤ dir then 4 else wordOf d 4 % 2 ^ 25
  if dir = 0 ∨ dir = 2 then
    let (e, poison, _, bs, s) := s.readBytes ⟨epPcie c, key, 0, false⟩ g len rr
    if e = codeWaits then s₀.wakeLike s
    else if e ≠ 0 then s.dmaDone i d 1
    else
      let s := s.pcieSend ⟨c, dir, pa, 0, poison, bs⟩
      if dir = 2 ∧ cpl = none then s.dmaDone i d 2 else s.dmaDone i d 0
  else
    let s := s.pcieSend ⟨c, dir, pa, len, false, []⟩
    match cpl with
    | none => s.dmaDone i d 2
    | some data =>
      let bs := (data ++ List.replicate len 0).take len
      let (e, _, s) := s.writeBytes ⟨epPcie c, key, 0, false⟩ g bs
      if e = codeWaits then s₀.wakeLike s
      else if e ≠ 0 then s.dmaDone i d 1 else s.dmaDone i d 0

/-- Channel `i` performs its next descriptor (R118). -/
def State.dmaNext (s : State) (rr : RegReader) (i : Nat) (cpl : Option (List Byte)) : State :=
  if s.isSet F.PCIE_STATUS.LINK_UP (i / 4) ∧ s.ringReady .pcieDma i = true then
    match s.ringRead .pcieDma i (epPcie (i / 4)) 32 with
    | (none, t) => t
    | (some d, t) => t.dmaRun rr i d cpl
  else s

/-! ### Links (R119) -/

/-- Width of a PCIe link in lanes. -/
def pcieLanes (code : Nat) : Nat := 2 ^ code

/-- Lane rate of a PCIe generation in kbit/s (PRESUMED from the PCIe base specification, log 99). -/
def pcieKbps : Nat → Nat
  | 1 => 2500000 | 2 => 5000000 | 3 => 8000000 | 4 => 16000000 | _ => 32000000

/-- Controller 0 is brought up by hardware alone: boot mode 010, before firmware runs (R119, R373). -/
def State.pcieHardware (s : State) (c : Nat) : Bool := c == 0 && s.cfg.mode == 2 && s.cfg.phase != .started

/-- The lanes a controller may train `n` lanes wide: its lowest ones, which for controller 1 are bound to it (R100, R117). -/
def State.pcieMayUse (s : State) (c n : Nat) : Bool :=
  c == 0 || (List.range n).all (fun k => s.isSet F.LANE_CTRL.EN (128 + k) && s.get F.LANE_CTRL.BIND (128 + k) == 5)

/-- Training of controller `i` completes at width code `width` (0 to 4) and generation `gen` (1 to 5), up to what PCIE_CFG allows, or
under boot mode 010 before firmware runs up to x16 with hardware defaults; in no other boot mode does a link come up before firmware
brings it up (R117, R119), nor before SYS_LOOP_3 has locked (R410). Its lanes, whose quads must be powered, then run at the generation's rate (R96, R99). -/
def State.pcieLinkUp (s : State) (i width gen : Nat) : State :=
  let hw := s.pcieHardware i
  let ls := (List.range (pcieLanes width)).map (128 * i + ·)
  if width ≤ (if hw then 4 else min 4 (s.get F.PCIE_CFG.WIDTH i)) ∧ 1 ≤ gen ∧
      gen ≤ (if hw then 5 else min 5 (s.get F.PCIE_CFG.GEN i)) ∧ (hw = true ∨ s.cfg.phase = .started) ∧ s.clk.engUp = true ∧
      s.pcieMayUse i (pcieLanes width) = true ∧ (ls.all s.laneOn && s.quadFits ls (pcieKbps gen) false) = true then
    let s := ls.foldl (fun t l => (((t.laneRun l (pcieKbps gen) false).setQuadLoop l (pcieKbps gen) false).put F.LANE_CTRL.EN l 1).laneLock l) s
    ((s.put F.PCIE_STATUS.LINK_UP i 1).put F.PCIE_STATUS.WIDTH i width).put F.PCIE_STATUS.GEN i gen
  else s

/-- A controller's link goes down: pending DMA descriptors finish with status 3 and host accesses in flight are lost
(R119). -/
def State.pcieDown (s : State) (c : Nat) : State :=
  if s.isSet F.PCIE_STATUS.LINK_UP c then
    let s := ((s.put F.PCIE_STATUS.LINK_UP c 0).put F.PCIE_STATUS.WIDTH c 0).put F.PCIE_STATUS.GEN c 0
    let s := (List.range 4).foldl (fun t ch => t.ringAbort .pcieDma (4 * c + ch) (epPcie c) 4096) s
    { s with links := { s.links with
      hostReads := s.links.hostReads.filter (fun e => e.1 / 1024 != c) } }
  else s

/-- PCIE_LINK_DOWN (R119). -/
def execPcieLinkDown (c : Fin 2) (s : State) : Host.Outcome State Fault Refusal := .next (s.pcieDown c.val)

end Sys2Proof.Machine
end

