-- ==== Sys2Proof/Machine/Chassis.lean ====
section
/-! DEFINITION. Chassis links (R120 to R127): bring-up, version negotiation, drops, remote windows and remote requests;
and the loss of signal of a lane, which reaches whichever engine it is bound to (R99). -/

namespace Sys2Proof.Machine

/-- Lanes bound to engine `f` under bind 4. Lanes bound while others stay bound join the link: the spec does not speak of it
(DESIGN CHOICE, log 107). -/
def State.chlLanes (s : State) (f : Nat) : List Nat := s.boundLanes 4 f

/-- Endpoint of the lane quad that carries engine `f`. -/
def State.chlEp (s : State) (f : Nat) : Nat :=
  match s.boundQuad 4 f with | some m => epLaneQuad m | none => 1023

/-- The version bitmap the engine offers: its mask less the versions removed (R122, R123). -/
def State.chlOffer (s : State) (f : Nat) : Nat := s.get F.CHL_CFG.VERSION_MASK f &&& (15 - (s.chl f).removed.toNat)

/-- Highest version of a bitmap, 0 for none. -/
def highestVersion (m : Nat) : Nat :=
  if bitAt m 3 then 4 else if bitAt m 2 then 3 else if bitAt m 1 then 2 else if bitAt m 0 then 1 else 0

/-- Lowest version of a bitmap, 0 for none. -/
def lowestVersion (m : Nat) : Nat :=
  if bitAt m 0 then 1 else if bitAt m 1 then 2 else if bitAt m 2 then 3 else if bitAt m 3 then 4 else 0

/-- Lanes the link uses: the smaller of both sides' counts; the partner's bits are for 1, 2 and 4 lanes (R122). -/
def linkLanes (own : Nat) (partner : Nat) : Nat :=
  if 4 ≤ own ∧ bitAt partner 2 then 4 else if 2 ≤ own ∧ bitAt partner 1 then 2 else if bitAt partner 0 then 1 else 0

/-- Ends a request at its target with an error code, recording what R452 has recorded. -/
def State.targetRefuse (s : State) (p : Packet) (source code : Nat) : State :=
  if expectsResponse p.cmd.toNat then
    let s := if targetRecorded code then s.targetEvent p source code else s
    s.respondError p code
  else s.postedFailed (placeOfEp p.dest.toNat) p.src.toNat code p.addr.toNat

/-- A version's lane rate in kbit/s, modulation and FEC as MAC_CFG codes it; version 1 uses 64b/66b without FEC (R120). -/
structure ChlVersion where
  kbps : Nat
  pam4 : Bool
  fec : Nat
  deriving DecidableEq, Repr

/-- The versions of R120. -/
def chlVersion : Nat → ChlVersion
  | 2 => ⟨25781250, false, 1⟩
  | 3 => ⟨53125000, true, 2⟩
  | 4 => ⟨106250000, true, 2⟩
  | _ => ⟨10312500, false, 0⟩

/-- A link's lanes may run at a version's rate: their quad is powered, and its other lanes agree (R96, R99). -/
def State.chlFits (s : State) (f v : Nat) : Bool :=
  (s.chlLanes f).all s.laneOn && s.quadFits (s.chlLanes f) (chlVersion v).kbps (chlVersion v).pam4

/-- The lanes of a link run at a version's rate (R120, R122), where they may. -/
def State.chlRun (s : State) (f v : Nat) : State :=
  if s.chlFits f v then (s.chlLanes f).foldl (fun t l =>
    (t.laneRun l (chlVersion v).kbps (chlVersion v).pam4).setQuadLoop l (chlVersion v).kbps (chlVersion v).pam4) s else s

/-- The remote device returns `k` credits of a VC at most (R121). -/
def State.chlCredit (s : State) (f vc k : Nat) : State :=
  let c := s.chl f
  (s.setChl f { c with spent := c.spent.set 0 vc (c.spent.get 0 vc - k) }).chlPump f

/-- Each link's remote device returns credits as it empties its buffers: how many is free (DESIGN CHOICE, log 1). -/
def State.chlCredits (s : State) : State :=
  (s.links.chl.map (·.1)).foldl (fun s f =>
    if s.chlState f = 2 then
      (List.range 4).foldl (fun s vc =>
        if (s.chl f).spent.get 0 vc = 0 then s
        else let (k, t) := s.draw; t.chlCredit f vc (Config.undefinedBits 11 k).toNat) s
    else s) s

/-- The link reaches UP at version `v`: credits are exchanged where the version is new to it, held packets go out, and a waiting
negotiation completes, in time or not (R122, R124, R125). -/
def State.chlUp (s : State) (f v : Nat) : State :=
  let c := s.chl f
  let fresh := s.chlState f = 1 ∨ s.get F.CHL_STATUS.VERSION f ≠ v
  let s := ((s.put F.CHL_STATUS.STATE f 2).put F.CHL_STATUS.VERSION f v).chlRun f v
  let s := (s.chlLanes f).foldl (fun t l => t.laneLock l) s
  let s := s.setChl f { c with lastVer := v, drops := if c.lastVer = v then c.drops else [], waiting := none
                               spent := if fresh then [] else c.spent }
  let s := s.chlPump f
  match c.waiting with
  | some t => if c.waitStart + 1500000000 ≤ s.now then s.finish t stTimeout 0 (pack 1 [(0, 8, 0)])
    else s.finish t stOK 0 (pack 1 [(0, 8, v)])
  | none => s

/-- Starts bring-up, at version-1 rate (R122, R125); lanes that join a link which is up run at its version's. -/
def State.chlStart (s : State) (f : Nat) : State :=
  let s := if s.chlState f = 0 then s.put F.CHL_STATUS.STATE f 1 else s
  s.chlRun f (if s.chlState f = 1 then 1 else s.get F.CHL_STATUS.VERSION f)

/-- The action of a link that is down (R126): requests awaiting the remote device get LINK_DOWN, queued posted requests are
discarded and recorded, responses owed to it are discarded. -/
def State.chlFail (s : State) (f : Nat) : State :=
  let c := s.chl f
  let s := s.setChl f { c with fwd := [], queued := [], owed := [], spent := [] }
  let s := c.fwd.foldl (fun t p => t.targetRefuse p (srcChl f) 0xC) s
  (c.queued.filter (fun p => p.cmd.toNat ≤ 7 && !expectsResponse p.cmd.toNat)).foldl (fun t p => t.targetRefuse p (srcChl f) 0xC) s

/-- The last three drops at the present version fell within 10 s (R123). -/
def threeDrops (drops : List Nat) : Bool :=
  match drops with
  | [c, _, a] => decide (c ≤ a + 10000000000)
  | _ => false

/-- A version has failed (R123): it and every version above it are removed, and bring-up goes on without them; with no common
version left the link has failed. -/
def State.chlStepDown (s : State) (f v : Nat) : State :=
  let c := s.chl f
  let s := s.setChl f { c with removed := c.removed ||| BitVec.ofNat 4 (16 - 2 ^ (v - 1)), drops := [] }
  let s := (s.put F.CHL_STATUS.STEPDOWN f 1).raise { code := 0x0360, sev := 0, source := srcChl f, detail := v }
  if s.chlOffer f &&& s.get F.CHL_PARTNER.BITMAP f = 0 then s.put F.CHL_STATUS.FAILED f 1 else s

/-- An up link drops (R123, R126): bring-up restarts while EN is set, without the link's version where that has dropped three
times within 10 s. -/
def State.chlDrop (s : State) (f : Nat) : State :=
  if 2 ≤ s.chlState f then
    let c := s.chl f
    let drops := (s.now :: c.drops).take 3
    let s := s.setChl f { c with drops := drops }
    let s := (s.count F.CHL_COUNTS.DROPS f 1).chlFail f
    let s := (s.put F.CHL_STATUS.STATE f (s.get F.CHL_CFG.EN f)).put F.CHL_STATUS.VERSION f 0
    let s := s.chlRun f 1
    if threeDrops drops then s.chlStepDown f c.lastVer else s
  else s

/-- CHL_LINK_DROP (R123, R126). -/
def execChlLinkDrop (f : Fin 16) (s : State) : Host.Outcome State Fault Refusal := .next (s.chlDrop f.val)

/-- CHL_BRING_UP (R122): both sides exchange bitmaps and lane counts at version-1 rate and train; `trained` names the
versions whose training completed. The engine runs once SYS_LOOP_3 has locked (R410). The link comes up at the highest common version once every common one has
trained. -/
def execChlBringUp (f : Fin 16) (partner : BitVec 4) (partnerLanes : BitVec 3) (trained : BitVec 4) (s : State) :
    Host.Outcome State Fault Refusal :=
  let i := f.val
  if s.clk.engUp = true ∧ s.isSet F.CHL_CFG.EN i ∧ s.chlState i = 1 ∧ s.chlLanes i ≠ [] then
    let s := (s.put F.CHL_PARTNER.BITMAP i partner.toNat).put F.CHL_PARTNER.LANES i partnerLanes.toNat
    let n := linkLanes (s.chlLanes i).length partnerLanes.toNat
    let common := s.chlOffer i &&& partner.toNat
    let c := s.chl i
    let s := s.setChl i { c with stored := c.stored ||| (BitVec.ofNat 4 common &&& trained), lanes := n, offered := c.offered ||| partner }
    if common = 0 ∨ n = 0 then .next (s.put F.CHL_STATUS.FAILED i 1)
    else if common &&& trained.toNat = common ∧ s.chlFits i (highestVersion common) = true then .next (s.chlUp i (highestVersion common))
    else .next s
  else .next s

/-- CHL_VERSION_FAIL (R123): training at version `version` did not complete within 100 ms on three consecutive attempts. -/
def execChlVersionFail (f : Fin 16) (version : BitVec 3) (s : State) : Host.Outcome State Fault Refusal :=
  let i := f.val
  let v := version.toNat
  if s.isSet F.CHL_CFG.EN i ∧ s.chlState i = 1 ∧ 1 ≤ v ∧ v ≤ 4 ∧
      bitAt (s.chlOffer i &&& s.get F.CHL_PARTNER.BITMAP i) (v - 1) = true then .next (s.chlStepDown i v)
  else .next s

/-- CHL_RETRY (R123): with no common version left, once per 1 s at the lowest common version of the original
bitmaps: this side's mask, and all the partner has offered since the mask was set (DEDUCED, log 36). -/
def execChlRetry (f : Fin 16) (trained : Bool) (s : State) : Host.Outcome State Fault Refusal :=
  let i := f.val
  let c := s.chl i
  let v := lowestVersion (s.get F.CHL_CFG.VERSION_MASK i &&& c.offered.toNat)
  if s.isSet F.CHL_CFG.EN i ∧ s.isSet F.CHL_STATUS.FAILED i ∧ s.chlState i = 1 ∧ v ≠ 0 ∧
      (c.lastRetry = 0 ∨ c.lastRetry - 1 + nsPerSec ≤ s.now) then
    let s := s.setChl i { c with lastRetry := s.now + 1 }
    .next (if trained = true ∧ s.chlFits i v = true then s.chlUp i v else s)
  else .next s

/-- CHL_RENEGOTIATE (R124): an up link exchanges bitmaps in band and switches to the highest common version with its
stored settings, which a version it has trained before has; `trained` says the switch succeeded. With no common version, or none
stored, the link drops (DEDUCED, log 36). -/
def execChlRenegotiate (f : Fin 16) (partner : BitVec 4) (trained : Bool) (s : State) :
    Host.Outcome State Fault Refusal :=
  let i := f.val
  if 2 ≤ s.chlState i then
    let s := (s.put F.CHL_PARTNER.BITMAP i partner.toNat).count F.CHL_COUNTS.RENEG i 1
    let v := highestVersion (s.chlOffer i &&& partner.toNat)
    if v ≠ 0 ∧ (v = s.get F.CHL_STATUS.VERSION i ∨ (trained = true ∧ bitAt (s.chl i).stored.toNat (v - 1) = true ∧ s.chlFits i v = true))
    then .next (s.chlUp i v) else .next (s.chlDrop i)
  else .next s

/-- A write of CHL_CFG (R125): EN set starts bring-up with the mask the register then holds; EN cleared takes the link
down. -/
def State.chlCfgWrite (s : State) (f : Nat) (v : Word) : State :=
  let s := s.writePlain R.CHL_CFG f v.toNat
  if s.isSet F.CHL_CFG.EN f then s.chlStart f
  else ((s.chlFail f).put F.CHL_STATUS.STATE f 0).put F.CHL_STATUS.VERSION f 0

/-- CHL_CFG_EN_WRITE (R125). -/
def execChlCfgEnWrite (acc : Accessor) (v : Word) (s : State) : Host.Outcome State Fault Refusal :=
  .next (s.ownedWrite acc 0 R.CHL_CFG 0 (fun f t => t.chlCfgWrite f v))

/-- A write of CHL_WIN_XLAT: ignored while EN is 1, and refused for a base other than 0 and 1 (R127). -/
def State.winXlatWrite (s : State) (w : Nat) (v : Word) : State :=
  if s.windowOn w then s
  else if v.toNat % 128 ≤ 1 then s.setReg R.CHL_WIN_XLAT w (v.toNat % 128)
  else s.put F.CHL_WIN_CTRL.XLAT_REJ w 1

/-- CHL_WIN_XLAT_WRITE (R127). -/
def execChlWinXlatWrite (acc : Accessor) (v : Word) (s : State) : Host.Outcome State Fault Refusal :=
  .next (s.ownedWrite acc 0 R.CHL_WIN_XLAT 0 (fun w t => t.winXlatWrite w v))

/-- A write of CHL_WIN_CTRL: ENGINE is ignored while EN is 1 (R127). -/
def State.winCtrlWrite (s : State) (w : Nat) (v : Word) : State :=
  let e := s.get F.CHL_WIN_CTRL.ENGINE w
  let t := s.writePlain R.CHL_WIN_CTRL w v.toNat
  if s.windowOn w then t.put F.CHL_WIN_CTRL.ENGINE w e else t

/-- A request through window `w` reaches its link engine (R121, R126, R127): forwarded with its address translated,
or ended with LINK_DOWN, or UNMAPPED for a debug packet. Answers none where the engine takes no more requests. -/
def State.chlForward (s : State) (w : Nat) (p : Packet) : Option State :=
  let f := s.get F.CHL_WIN_CTRL.ENGINE w
  let c := s.chl f
  if p.debug then some (s.targetRefuse p (srcChl f) 1)
  else if s.chlState f < 2 then some (s.targetRefuse p (srcChl f) 0xC)
  else if expectsResponse p.cmd.toNat then
    if c.fwd.length < 256 then some ((s.setChl f { c with fwd := c.fwd ++ [p] }).chlQueue f (s.winXlat w p)) else none
  else some (s.chlQueue f (s.winXlat w p))

/-- Units of the remote device's requests on a VC that still fill the link engine's receive buffer. -/
def State.chlReceived (s : State) (f vc : Nat) : Nat :=
  ((s.net.wait.get [] (s.chlEp f)).filter (fun p => p.vc.toNat == vc && p.acc == .remote)).foldl (fun a p => a + pktUnits p) 0

/-- The lowest tag no request of an endpoint uses. -/
def State.chlTag (s : State) (e : Nat) : BitVec 10 :=
  BitVec.ofNat 10 ((findBelow 1024 (fun k => !(s.outstanding e).any (fun o => o.tag.toNat == k) &&
    !(s.net.wait.get [] e).any (fun p => p.tag.toNat == k))).getD 0)

/-- CHL_REMOTE_REQUEST (R121, R33): a request over an up link is forwarded into Antler with the engine as initiator, under a tag
of its own, and the remote device as accessor, under this device's own map and rules. The remote device sends none without a
credit, or beyond 256 that await a response. -/
def execChlRemoteRequest (f : Fin 16) (p : Packet) (s : State) : Host.Outcome State Fault Refusal :=
  let i := f.val
  let c := s.chl i
  if s.chlState i < 2 ∨ 1024 < s.chlReceived i p.vc.toNat + pktUnits p ∨ (s.chlLanes i).all (fun l => s.quadTakes (l / 4)) = false then
    .next s
  else
    let q := { p with src := BitVec.ofNat 10 (s.chlEp i), acc := .remote, secure := false }
    if p.debug then .next (if expectsResponse p.cmd.toNat then s.chlQueue i (pktResponse p cmdErrorRsp 1 []) else s)
    else if expectsResponse p.cmd.toNat then
      let tag := s.chlTag (s.chlEp i)
      if c.owed.length < 256 then .next ((s.setChl i { c with owed := c.owed ++ [(p, tag)] }).inject { q with tag := tag })
      else .next s
    else .next (s.inject q)

/-- The engine at an endpoint that forwarded the request a response answers. -/
def State.chlOwner (s : State) (p : Packet) : Option Nat :=
  findBelow 16 (fun f => s.chlEp f == p.dest.toNat && (s.chl f).owed.any (fun q => q.2 == p.tag))

/-- A response to a request the link engines forwarded into Antler returns to the remote device (R121). -/
def State.chlReturn (s : State) (f : Nat) (p : Packet) : State :=
  let c := s.chl f
  match c.owed.find? (fun q => q.2 == p.tag) with
  | none => s
  | some q => (s.setChl f { c with owed := c.owed.erase q }).chlQueue f { p with dest := q.1.src, tag := q.1.tag }

/-- The forwarded request a remote device's response answers: its engine and the request. -/
def State.chlAnswered (s : State) (p : Packet) : Option (Nat × Packet) :=
  match findBelow 16 (fun f => 2 ≤ s.chlState f && (s.chl f).fwd.any (fun q => q.src == p.dest && q.tag == p.tag)) with
  | none => none
  | some f => ((s.chl f).fwd.find? (fun q => q.src == p.dest && q.tag == p.tag)).map (fun q => (f, q))

/-! ### Loss of signal (R99) -/

/-- The link-down action of the engine a lane is bound to. -/
def State.laneDown (s : State) (l inflight : Nat) : State :=
  if l < 16 ∧ l < pcieLanes (s.get F.PCIE_STATUS.WIDTH 0) ∧ s.isSet F.PCIE_STATUS.LINK_UP 0 = true then s.pcieDown 0
  else
    match s.get F.LANE_CTRL.BIND l with
    | 1 => s.macDown (s.laneMac l) inflight
    | 2 => s.macDown (s.laneMac l) inflight
    | 3 => s.cpriLaneLoss (s.get F.LANE_CTRL.ENGINE l) l
    | 4 => s.chlDrop (s.get F.LANE_CTRL.ENGINE l)
    | 5 => s.pcieDown 1
    | _ => s

/-- LANE_LOSS_OF_SIGNAL (R99): an enabled lane loses its signal, and its engine takes its link-down action with
`inflight` frames in flight. -/
def execLaneLossOfSignal (lane : Fin 256) (inflight : Fin 65536) (s : State) : Host.Outcome State Fault Refusal :=
  if 2 ≤ s.laneState lane.val then
    .next (((s.put F.LANE_STATUS.STATE lane.val 1).squelch lane.val 1).laneDown lane.val inflight.val)
  else .next s

/-- A write of LANE_CTRL or LANE_RATE: ignored while firmware configures the lane (R100); the recovered clocks follow (R86), and
clearing EN turns the lane off, which its engine takes as the loss of its link (R99). -/
def State.laneWrite (s : State) (r : RegRow) (l : Nat) (v : Word) : State :=
  if s.isSet F.LANE_STATUS.CFG_BUSY l then s
  else
    let up := decide (2 ≤ s.laneState l)
    let off := r.off == R.LANE_CTRL.off && !bitAt v.toNat 0
    let s := if off && up then s.laneDown l 0 else s
    let s := s.writePlain r l v.toNat
    let s := s.laneRun l (s.get F.LANE_RATE.KBPS l) (s.isSet F.LANE_CTRL.PAM4 l)
    if off then (s.put F.LANE_STATUS.STATE l 0).squelch l 1
    else if s.isSet F.LANE_CTRL.EN l ∧ s.laneState l = 0 then s.put F.LANE_STATUS.STATE l 1 else s

end Sys2Proof.Machine
end

