-- ==== Sys2Proof/Machine/Cells.lean ====
section
/-! DEFINITION. Logic cells, carry chains, flip-flops and arithmetic slices (R317 to R324), routing and long lines (R335, R337), a region's
border cells (R320, R371) and user I/O pins (R345 to R349) while a design runs. What a configuration sets comes from its frames, whose
bits the spec does not place (log 51). One round of the fabric belongs to an idle step. -/

namespace Sys2Proof.Machine

open Config (CellSet FfSet HalfSet SliceSet PinSet WireSrc StaticSrc)

/-! ### LUTs and carry (R318, R319) -/

/-- A number from bits, the first the lowest. -/
def bitsNat (l : List Bool) : Nat := l.foldr (fun b v => bit b + 2 * v) 0

/-- Outputs of a LUT: one function of six inputs on both, or two of the first five. -/
def lutOut (c : CellSet) (ins : List Bool) : Bool × Bool :=
  if c.split then
    let k := bitsNat (ins.take 5)
    (bitAt c.lut.toNat k, bitAt c.lut.toNat (32 + k))
  else
    let v := bitAt c.lut.toNat (bitsNat (ins.take 6))
    (v, v)

/-- A carry stage: the first output passes the carry on, else the second makes it (PRESUMED, log 51). -/
def carryOut (o : Bool × Bool) (cin : Bool) : Bool := if o.1 then cin else o.2

/-- Carry into stage `k` of a tile column's chain of 1,792: from the stage before it, tile by tile southwards; the first stage, and
a tile's first where it starts a chain, take it from routing. -/
def carryIn (cell : Nat → CellSet) (out : Nat → Bool × Bool) (routed : Nat → Bool) : Nat → Bool
  | 0 => routed 0
  | k + 1 =>
    if (k + 1) % 16 = 0 ∧ (cell (k + 1)).start = true then routed (k + 1)
    else carryOut (out k) (carryIn cell out routed k)

/-- Cell of stage `k` of column `c`'s chain, in the order of R376: 16 × (48 × row + column) + cell. -/
def chainCell (c k : Nat) : Nat := 16 * (48 * (k / 16) + c) + k % 16

/-- Column and stage of a cell. -/
def cellColumn (k : Nat) : Nat := k / 16 % 48
def cellStage (k : Nat) : Nat := k / 768 * 16 + k % 16

/-! ### Flip-flops (R318) -/

/-- What a flip-flop holds next: an asynchronous set-reset acts at once, a synchronous one at an edge of its clock, before the
enabled data. -/
def ffNext (f : FfSet) (edge ce sr d old : Bool) : Bool :=
  if sr && (f.async || edge) then f.set else if edge && ce then d else old

/-- The wires a region's routing drives in one round: cell inputs, a half tile's enable and set-reset, a slice's inputs. -/
def cellWire (k i : Nat) : Nat := 16 * k + i
def halfWire (h i : Nat) : Nat := 2 ^ 21 + 2 * h + i
def sliceWire (k i : Nat) : Nat := 2 ^ 22 + 128 * k + i

/-- An outgoing border cell's wire, that of a driver tap of a long line, and one for the value of a line with no driver or several. -/
def borderWire (k : Nat) : Nat := 2 ^ 23 + k
def tapWire (l t : Nat) : Nat := 2 ^ 24 + 8 * l + t
def floatWire (l : Nat) : Nat := 2 ^ 25 + l

/-- Outputs of a region's cells: the LUT's two, the first plus the carry where the carry stage is used. -/
def cellOuts (cell : Nat → CellSet) (wire : Nat → Bool) (k : Nat) : Bool × Bool :=
  let lut := fun k => lutOut (cell k) ((List.range 6).map (fun i => wire (cellWire k i)))
  let col := cellColumn k
  let cin := carryIn (fun i => cell (chainCell col i)) (fun i => lut (chainCell col i)) (fun i => wire (cellWire (chainCell col i) 9))
    (cellStage k)
  if (cell k).carry then ((lut k).1 != cin, (lut k).2) else lut k

/-- Flip-flop `b` of a region after a round in which the leaf nets `edges` have an edge. -/
def regionFf (cell : Nat → CellSet) (half : Nat → HalfSet) (wire : Nat → Bool) (edges : Nat → Bool) (old : BitVec 172032)
    (b : Nat) : Bool :=
  let k := b / 2; let h := k / 8
  let f := if b % 2 = 0 then (cell k).ff0 else (cell k).ff1
  let o := cellOuts cell wire k
  let d := if f.src = 0 then o.1 else if f.src = 1 then o.2 else wire (cellWire k (6 + b % 2))
  ffNext f (edges ((half h).net % 16)) (!(half h).ce || wire (halfWire h 0)) ((half h).sr && wire (halfWire h 1)) d (bitAt old.toNat b)

/-- A flip-flop vector from its bits. -/
def ffVector (f : Nat → Bool) : BitVec 172032 := BitVec.ofNat 172032 (bitsNat ((List.range 172032).map f))

/-- The flip-flops' initial values (R318). -/
def ffInit (cell : Nat → CellSet) : BitVec 172032 :=
  ffVector (fun b => if b % 2 = 0 then (cell (b / 2)).ff0.init else (cell (b / 2)).ff1.init)

/-! ### Arithmetic slices (R322 to R324) -/

/-- Product of a slice's operands, each signed or not (R322). -/
def sliceProduct (sa sb : Bool) (a b : BitVec 32) : Int :=
  (if sa then a.toInt else (a.toNat : Int)) * (if sb then b.toInt else (b.toNat : Int))

/-- What the accumulator takes (R322): 0 the product, 1 plus it, 2 minus it, 3 the cascade plus it; sums wrap. -/
def sliceAcc (mode : Nat) (acc cascade p : BitVec 96) : BitVec 96 :=
  match mode with
  | 0 => p
  | 1 => acc + p
  | 2 => acc - p
  | _ => cascade + p

/-- Products of a complex pair on CS16 operands (R323): slice 2s and slice 2s + 1. -/
def pairProducts (conj : Bool) (a b : BitVec 32) : Int × Int :=
  let ai := (a.truncate 16).toInt; let aq := ((a >>> 16).truncate 16).toInt
  let bi := (b.truncate 16).toInt; let bq := ((b >>> 16).truncate 16).toInt
  if conj then (ai * bi + aq * bq, aq * bi - ai * bq) else (ai * bi - aq * bq, ai * bq + aq * bi)

/-- The output stage (R324): a right shift by 0 to 95, rounded half to even or with RND truncated, then fitted to 32 or 16 bits; and
OVF. -/
def sliceOut (c : SliceSet) (acc : BitVec 96) : BitVec 32 × Bool :=
  let (v, o) := fitTo (if c.wide then 32 else 16) c.sat (roundShift c.rnd acc.toInt (c.shift % 96))
  (BitVec.ofNat 32 v, o)

/-- What reaches a slice in one cycle: operands, the accumulator's choice and the pair's CONJ. -/
structure SliceIn where
  a : BitVec 32
  b : BitVec 32
  mode : Nat
  conj : Bool
  deriving DecidableEq, Repr

/-- The product a slice forms in this cycle, of its operands or of what the input registers hold (R322). In complex-pair mode the even
slice forms I and the odd one Q (R323). -/
def sliceProductNow (c : SliceSet) (k : Nat) (x : SliceIn) (s : Slice) : BitVec 96 :=
  let a := if bitAt c.regs 0 then s.a else x.a
  let b := if bitAt c.regs 0 then s.b else x.b
  BitVec.ofInt 96 (if c.pair then (if k % 2 = 0 then (pairProducts x.conj a b).1 else (pairProducts x.conj a b).2)
    else sliceProduct c.signA c.signB a b)

/-- What the accumulator takes in this cycle, from the product register where that is used. -/
def sliceAccNow (c : SliceSet) (k : Nat) (x : SliceIn) (cascade : BitVec 96) (s : Slice) : BitVec 96 :=
  sliceAcc x.mode s.acc cascade (if bitAt c.regs 1 then s.prod else sliceProductNow c k x s)

/-- The accumulator a slice shows to its output stage and its cascade: its register where that is used. -/
def sliceAccShown (c : SliceSet) (k : Nat) (x : SliceIn) (cascade : BitVec 96) (s : Slice) : BitVec 96 :=
  if bitAt c.regs 2 then s.acc else sliceAccNow c k x cascade s

/-- The output of a slice and OVF: the output register where that is used, else the output stage's (R322, R324). -/
def sliceShown (c : SliceSet) (k : Nat) (x : SliceIn) (cascade : BitVec 96) (s : Slice) : BitVec 32 × Bool :=
  if bitAt c.regs 3 then (s.out, s.ovf) else sliceOut c (sliceAccShown c k x cascade s)

/-- One edge of slice `k`: each register takes what the stage before it shows. -/
def sliceEdge (c : SliceSet) (k : Nat) (x : SliceIn) (cascade : BitVec 96) (s : Slice) : Slice :=
  let o := sliceOut c (sliceAccShown c k x cascade s)
  { a := x.a, b := x.b, prod := sliceProductNow c k x s, acc := sliceAccNow c k x cascade s, out := o.1, ovf := o.2 }

/-- A slice. -/
def State.slice (s : State) (r k : Nat) : Slice := s.fab.slices.get {} (192 * r + k)

/-- What routing brings to slice `k`; both slices of a pair take the even one's operands. -/
def sliceInputs (wire : Nat → Bool) (k : Nat) : SliceIn :=
  let w := fun o n => bitsNat ((List.range n).map (fun i => wire (sliceWire k (o + i))))
  { a := BitVec.ofNat 32 (w 0 32), b := BitVec.ofNat 32 (w 32 32), mode := w 64 2, conj := wire (sliceWire k 66) }

/-! ### Routing (R335) -/

/-- What a region's routing reads in one round. -/
structure RegionView where
  cell : Nat → CellSet
  route : Nat → WireSrc
  slice : Nat → SliceSet
  regs : Nat → Slice
  ffs : BitVec 172032
  /-- enabled driver taps of a long line -/
  taps : Nat → List Nat
  bm : Nat → Nat → Nat → Bool
  border : Nat → Bool
  free : Nat → Bool

/-- What routing brings to slice `k` of a region; both slices of a pair take the even one's operands. -/
def RegionView.inputs (v : RegionView) (wire : Nat → Bool) (k : Nat) : SliceIn :=
  sliceInputs wire (if (v.slice k).pair then k / 2 * 2 else k)

/-- Cascade input of slice `k`, which is slice `j` of its column of 48: what the accumulator of the slice north of it shows; a cascade
does not cross the region's border (R322). -/
def RegionView.cascade (v : RegionView) (wire : Nat → Bool) (k : Nat) : Nat → BitVec 96
  | 0 => 0
  | j + 1 =>
    let n := k / 48 * 48 + j
    sliceAccShown (v.slice n) n (v.inputs wire n) (v.cascade wire k j) (v.regs n)

/-- Value of wire `w`, which the driver its multiplexer selects gives (R335); a long line has the value of its one enabled driver, and
is undefined with none or several (R337). The first argument bounds how far a value is followed: past any path, so that only a
combinational loop reaches it. -/
def RegionView.wire (v : RegionView) : Nat → Nat → Bool
  | 0, w => v.free w
  | n + 1, w =>
    match v.route w with
    | .low => false
    | .lut k second => let o := cellOuts v.cell (v.wire n) k; if second then o.2 else o.1
    | .ff b => bitAt v.ffs.toNat b
    | .slice k j =>
      let o := sliceShown (v.slice k) k (v.inputs (v.wire n) k) (v.cascade (v.wire n) k (k % 48)) (v.regs k)
      if j < 32 then bitAt o.1.toNat j else o.2
    | .bm b p j => v.bm b p j
    | .border k => v.border k
    | .line l _ => match v.taps l with | [t] => v.wire n (tapWire l t) | _ => v.free (floatWire l)
    | .port _ _ => v.free w

/-- Enabled driver taps of a region's long line, of its eight, as its frames hold them now (R335, R337). -/
def lineTaps (fs : List (Nat × BitVec 4096)) (l : Nat) : List Nat :=
  (List.range 8).filter (fun t => fs.any (fun e => (Config.frameDrivers e.1 e.2).any (fun x => x.1 % 1024 == l && x.2 % 8 == t)))

/-! ### Border cells (R320, R371) -/

/-- Region at a place of the grid of 8 × 8 regions, west to east and north to south (R5, R320). -/
def gridRegion (col row : Nat) : Nat := 16 * (2 * (row / 4) + col / 4) + 4 * (row % 4) + col % 4
def gridCol (r : Nat) : Nat := 4 * (r / 16 % 2) + r % 4
def gridRow (r : Nat) : Nat := 4 * (r / 32) + r % 16 / 4

/-- Region and cell across a border from cell `k`: side 0 north, 1 east, 2 south, 3 west; none at the edge of the grid, where the static
logic lies behind the border. -/
def borderAcross (r k : Nat) : Option (Nat × Nat) :=
  let c := gridCol r; let w := gridRow r
  match k / 1024 with
  | 0 => if w = 0 then none else some (gridRegion c (w - 1), 2048 + k % 1024)
  | 1 => if c = 7 then none else some (gridRegion (c + 1) w, 3072 + k % 1024)
  | 2 => if w = 7 then none else some (gridRegion c (w + 1), k % 1024)
  | _ => if c = 0 then none else some (gridRegion (c - 1) w, 1024 + k % 1024)

/-- Cell `k` of region `r` lies on the die boundary (R320). -/
def dieCell (r k : Nat) : Bool := (k / 1024 == 1 && gridCol r == 3) || (k / 1024 == 3 && gridCol r == 4)

/-- Global net that clocks a region's die-boundary cells: both ends of a crossing take the west region's. -/
def State.crossNet (s : State) (r : Nat) : Nat := Config.crossNet (gridRegion 3 (gridRow r)) s.staticFrames % 32

/-- The value outgoing border cell `k` of region `r` presents: its own, or while the region is isolated its group's (R371). -/
def State.borderOut (s : State) (r k : Nat) : Bool :=
  if s.isSet F.PR_REGION_STATE.ISOLATED r then
    match bitsOf (s.reg R.PR_ISO_MODE (4 * r + k / 1024)) (2 * (k / 64 % 16)) 2 with
    | 1 => false
    | 2 => true
    | _ => bitAt (s.fab.held.get 0 r).toNat k
  else bitAt (s.fab.borders.get 0 r).toNat k

/-- A region's incoming cells pass their signals: ACTIVE, or 2 µs into its start-up (R371, R372 step 3). -/
def State.borderOpen (s : State) (r : Nat) : Bool :=
  let st := s.get F.PR_REGION_STATE.STATE r
  st == 3 || (st == 2 && decide (s.fab.startAt.get 0 r - 1 + 2000 ≤ s.now))

/-- A user pin's input as the fabric sees it: 0 in a bank that is not GOOD (R349); on an LVDS pair the true side's (R345, R346). -/
def State.pinInput (s : State) (i : Nat) : Bool :=
  let j := if (s.fab.pins.get {} i).std = .lvds then i / 2 * 2 else i
  s.bankState (i / 48) == 1 && s.fab.pinLevel.get false j

/-- Output `j` of the internal configuration port (R374): BUSY, DONE_OUT, FAIL, CODE, and READY, which it holds at 0 while another load
runs. -/
def State.intportOut (s : State) (j : Nat) : Bool :=
  let own := match s.cfg.load with | some l => l.path == .intport | none => false
  if j = 0 then own
  else if j = 1 then s.cfg.intport.done
  else if j = 2 then s.cfg.intport.fail
  else if j < 11 then bitAt s.cfg.intport.code (j - 3)
  else s.cfg.phase == .started && (own || s.cfg.load.isNone)

/-- A value of the static logic. -/
def State.staticVal (s : State) : StaticSrc → Bool
  | .low => false
  | .pin i => s.pinInput i
  | .border r k => s.borderOut r k
  | .intport j => s.intportOut j

/-- What incoming border cell `k` presents to region `r`'s logic: 0 while the region is isolated, else what the cell across presents,
through the second register on the die boundary (R320, R371). -/
def State.borderIn (s : State) (r k : Nat) : Bool :=
  s.borderOpen r && (match borderAcross r k with
    | some (r', k') => if dieCell r k then bitAt (s.fab.crossed.get 0 r).toNat (k % 1024) else s.borderOut r' k'
    | none => s.staticVal (Config.staticRoute r k s.staticFrames))

/-! ### A round of a region -/

/-- What round `n` of region `r` reads. -/
def State.regionView (s : State) (r n : Nat) : RegionView :=
  let fs := s.regionFrames r
  { cell := fun k => Config.cell r k fs, route := fun k => Config.route r k fs, slice := fun k => Config.slice r k fs
    regs := s.slice r, ffs := s.fab.ffs.get 0 r, taps := lineTaps fs
    bm := fun b p j =>
      let blk := 128 * r + b % 128
      if j < 128 then bitAt (s.fab.bmOut.get 0 (2 * blk + p % 2)).toNat j
      else if j = 128 then s.fab.bmDerr.get false (2 * blk + p % 2) else s.isSet F.BM_STATUS.REBUILDING blk
    border := s.borderIn r, free := Config.wire n r }

/-- Steps along which a wire's value is followed: more than a region has cells, slices and lines. -/
def routeDepth : Nat := 2 ^ 18

/-- Value of wire `w` of region `r` in round `n`. -/
def State.regionWire (s : State) (r n w : Nat) : Bool := (s.regionView r n).wire routeDepth w

/-- The round `n` of region `r`: the nets `edges` have an edge, of those that run. A die-boundary cell takes its value at an edge of the
crossing's net (R320). -/
def State.clockRegion (s : State) (r n : Nat) (edges : Nat → Bool) : State :=
  let fs := s.regionFrames r
  let on := fun k => s.leafEdge r k edges
  let v := s.regionView r n
  let wire := v.wire routeDepth
  let across := edges (s.crossNet r) && s.netRuns (s.crossNet r)
  let ffs := ffVector (regionFf (fun k => Config.cell r k fs) (fun h => Config.halfTile r h fs) wire on (s.fab.ffs.get 0 r))
  let slices := (List.range 192).foldl (fun m k =>
    let c := Config.slice r k fs
    if on (c.net % 16) then
      m.set {} (192 * r + k) (sliceEdge c k (v.inputs wire k) (v.cascade wire k (k % 48)) (s.slice r k))
    else m) s.fab.slices
  let own := fun k => if dieCell r k && !across then bitAt (s.fab.borders.get 0 r).toNat k else wire (borderWire k)
  { s with fab := { s.fab with
      ffs := s.fab.ffs.set 0 r ffs, slices := slices
      borders := s.fab.borders.set 0 r (BitVec.ofNat 4096 (bitsNat ((List.range 4096).map own)))
      edgeAt := (List.range 16).foldl (fun m k => if on k then m.set 0 (16 * r + k) s.now else m) s.fab.edgeAt } }

/-- The second registers of the die-boundary cells take, at an edge of the crossing's net, what the cells across present (R320). -/
def State.crossRound (s : State) (edges : Nat → Bool) : State :=
  { s with fab := { s.fab with
    crossed := (List.range 64).foldl (fun m r =>
      let side := if gridCol r = 3 then some 1024 else if gridCol r = 4 then some 3072 else none
      match side with
      | some o =>
        if edges (s.crossNet r) && s.netRuns (s.crossNet r) then
          m.set 0 r (BitVec.ofNat 1024 (bitsNat ((List.range 1024).map (fun j =>
            match borderAcross r (o + j) with | some (r', k') => s.borderOut r' k' | none => false))))
        else m
      | none => m) s.fab.crossed } }

/-! ### User I/O pins (R346, R347, R349, R350, R369) -/

/-- What the device does with a user I/O pin. -/
inductive UserPin where
  | floating
  | drives (v : Bool)
  | pulls (up : Bool)
  | keeps (v : Bool)
  deriving DecidableEq, Repr

/-- Pin `i`: high-impedance with pull and keeper off during loading, until start-up and in a bank that is not GOOD; else driven by
user logic, or pulled, or kept; where an image enables both, the pull acts and the keeper stays off. -/
def State.userPin (s : State) (i : Nat) : UserPin :=
  if s.cfg.phase ≠ .started ∨ s.bankState (i / 48) ≠ 1 then .floating
  else match s.fab.pinOut.get none i with
    | some v => .drives v
    | none =>
      let p := s.fab.pins.get {} i
      if p.pull = 1 then .pulls true else if p.pull = 2 then .pulls false
      else if p.keeper then .keeps (s.fab.pinLevel.get false i) else .floating

/-- The level on a pin: the pull and the keeper act only where neither the pin nor the board drives; a floating pin's is a free
value. -/
def pinLevel (p : UserPin) (board : Option Bool) (float : Bool) : Bool :=
  match p, board with
  | .drives v, _ => v
  | _, some v => v
  | .pulls up, none => up
  | .keeps v, none => v
  | .floating, none => float

/-- What the static logic drives onto pin `i`, if it is an enabled output: on an LVDS pair the odd pin has the even one's complement
(R345, R346). -/
def State.pinDriven (s : State) (i : Nat) : Option Bool :=
  let fs := s.staticFrames
  let p := s.fab.pins.get {} i
  let j := if p.std = .lvds then i / 2 * 2 else i
  if p.out && s.staticVal (Config.pinRoute j true fs) then some (s.staticVal (Config.pinRoute j false fs) != decide (i ≠ j)) else none

/-- The round `n` of the user I/O pins: the static logic drives, and every pin takes its level. -/
def State.pinRound (s : State) (n : Nat) : State :=
  let s := { s with fab := { s.fab with pinOut := (List.range 768).foldl (fun m i => m.set none i (s.pinDriven i)) s.fab.pinOut } }
  { s with fab := { s.fab with pinLevel := (List.range 768).foldl (fun m i =>
      m.set false i (pinLevel (s.userPin i) (Config.boardDrives n i) (Config.wire n 64 i))) s.fab.pinLevel } }

/-! ### The fabric's round -/

/-- One round of the fabric: an upset may strike, the user pins take their levels, and every ACTIVE or STARTING region goes on, with the
edges a free choice gives the clock nets. -/
def State.fabricRound (s : State) : State :=
  if s.cfg.phase ≠ .started then s
  else
    let s := s.upsetRound
    let (n, s) := s.draw
    let edges := fun k => bitAt (Config.undefinedBits 128 n).toNat k
    let s := (s.pinRound n).crossRound edges
    (List.range 64).foldl (fun t r =>
      if t.get F.PR_REGION_STATE.STATE r = 2 ∨ t.get F.PR_REGION_STATE.STATE r = 3 then
        let (n, t) := t.draw
        t.clockRegion r n edges
      else t) s

end Sys2Proof.Machine
end

