-- ==== Sys2Proof/Machine/Fabric.lean ====
section
/-! DEFINITION. The programmable fabric while a design runs: block memories (R325 to R331), fabric ports (R338 to R343), user I/O
banks (R349, R350) and the states of regions (R371 to R373). What user logic asks of a resource is an operand. -/

namespace Sys2Proof.Machine

/-! ### Block memories (R325 to R331) -/

/-- Word width of a width code (R325); the codes 6 and 7, which it does not list, as 5. -/
def bmWidth (c : Nat) : Nat := match c with | 0 => 128 | 1 => 64 | 2 => 32 | 3 => 16 | 4 => 8 | _ => 4

/-- Width code of port `k` of a block. -/
def State.bmCode (s : State) (blk k : Nat) : Nat :=
  if k = 0 then s.get F.BM_INFO.WIDTH_A blk else s.get F.BM_INFO.WIDTH_B blk

/-- First array bit of a port's word. -/
def State.bmBit (s : State) (blk k : Nat) (r : BmReq) : Nat :=
  let w := bmWidth (s.bmCode blk k); r.addr.toNat % (65536 / w) * w

/-- Bits a write stores, as a mask of its word (R325). -/
def bmEnables (w be : Nat) : Nat :=
  if w < 8 then 2 ^ w - 1
  else (List.range (w / 8)).foldl (fun a i => if bitAt be i then a + 255 * 2 ^ (8 * i) else a) 0

/-- Bits of the internal word that an access writes. -/
def State.bmMask (s : State) (blk k : Nat) (r : BmReq) : Nat :=
  if r.we then bmEnables (bmWidth (s.bmCode blk k)) r.be.toNat * 2 ^ (s.bmBit blk k r % 128) else 0

/-- Key of the internal word an access lies in. -/
def State.bmKey (s : State) (blk k : Nat) (r : BmReq) : Nat := blk * 512 + s.bmBit blk k r / 128

/-- An internal word. -/
def State.bmWord (s : State) (key : Nat) : BitVec 128 := s.fab.bmWords.get 0 key

/-- Sets an internal word. -/
def State.setBmWord (s : State) (key : Nat) (d : BitVec 128) : State :=
  { s with fab := { s.fab with bmWords := s.fab.bmWords.set 0 key d } }
def State.setBmPoison (s : State) (key : Nat) (p : Bool) : State :=
  { s with fab := { s.fab with bmPoison := s.fab.bmPoison.set false key p } }
def State.setBmDamage (s : State) (key : Nat) (d : Option Damage) : State :=
  { s with fab := { s.fab with bmDamage := s.fab.bmDamage.set none key d } }

/-- The code is enabled for a block. -/
def State.bmCoded (s : State) (blk : Nat) : Bool := s.isSet F.BM_INFO.CODE_EN blk

/-- A word neither clean nor correctable (R279, R329). -/
def State.bmBad (s : State) (key : Nat) : Bool :=
  match s.fab.bmDamage.get none key with
  | some (.uncorr _) => true
  | some (.single _) => s.fab.bmPoison.get false key
  | none => false

/-- Damage of check word `k` of a block: 2 × page + 0 for P, 1 for Q (R281, R328). -/
def State.bmCheckBad (s : State) (blk k : Nat) : Bool :=
  match s.fab.bmCheck.get none (4 * blk + k) with | some (.uncorr _) => true | _ => false
def State.setBmCheck (s : State) (blk k : Nat) (d : Option Damage) : State :=
  { s with fab := { s.fab with bmCheck := s.fab.bmCheck.set none (4 * blk + k) d } }

/-- Upsets strike a block: damage its code will see, in words 0 to 511 or its four check words, or lost data where it has no code
(R330). -/
def State.bmStrike (s : State) (blk : Nat) (ups : List Upset) : State :=
  ups.foldl (fun t u =>
    let key := blk * 512 + u.word % 512
    if t.bmCoded blk then
      if 512 ≤ u.word % 516 then t.setBmCheck blk (u.word % 516 - 512) (some u.damage) else t.setBmDamage (blk * 512 + u.word % 516) (some u.damage)
    else { (t.setBmWord key (Config.undefinedBits 128 t.free)) with free := t.free + 1 }) s

/-- SOURCE of a block memory (R451). -/
def srcBm (blk : Nat) : Nat := src 0x0D blk

/-- Corrects a single-bit error (R329). -/
def State.bmCorrect (s : State) (blk key : Nat) : State :=
  match s.fab.bmDamage.get none key with
  | some (.single _) => (((s.setBmDamage key none).put F.BM_STATUS.CORR blk 1).count F.BM_ECC_CNT.CORR blk 1).raise
      { code := 0x0320, sev := 0, source := srcBm blk }
  | _ => s

/-- Port `k` of a block has a running clock (R325, R329). -/
def State.bmClocked (s : State) (blk k : Nat) : Bool := s.leafRuns (blk / 128) (s.fab.bmClk.get 0 (2 * blk + k) % 16)

/-- Brings BM_COLL_SUM up to date for a region (R352). -/
def State.bmCollSum (s : State) (region : Nat) : State :=
  let any := (List.range 128).any (fun b => s.isSet F.BM_STATUS.COLL (128 * region + b))
  if region < 32 then s.setReg R.BM_COLL_SUM_LO 0 (bitsSet (s.reg R.BM_COLL_SUM_LO 0) region 1 (bit any))
  else s.setReg R.BM_COLL_SUM_HI 0 (bitsSet (s.reg R.BM_COLL_SUM_HI 0) (region - 32) 1 (bit any))

/-- Value of the bits that `mask` selects: `a` there, `b` elsewhere. -/
def pickBits (mask a b : Nat) : Nat := (a &&& mask) ||| (b &&& (2 ^ 128 - 1 - mask % 2 ^ 128))

/-- Stores the write of port `k` where `mask` says. -/
def State.bmStore (s : State) (blk k : Nat) (r : BmReq) (mask : Nat) : State :=
  let key := s.bmKey blk k r
  let v := r.data.toNat * 2 ^ (s.bmBit blk k r % 128) % 2 ^ 128
  let s := s.setBmWord key (BitVec.ofNat 128 (pickBits mask v (s.bmWord key).toNat))
  if mask % 2 ^ 128 = 2 ^ 128 - 1 then (s.setBmPoison key false).setBmDamage key none else s

/-- Read output of port `k` (R326): `old` is the state before the writes of this edge, `s` after them. -/
def State.bmRead (s old : State) (blk k : Nat) (r : BmReq) : State :=
  let w := bmWidth (s.bmCode blk k)
  let mode := bitsOf (s.fab.bmMode.get 0 blk) (2 * k) 2
  let from' := fun (t : State) => bitsOf (t.bmWord (t.bmKey blk k r)).toNat (t.bmBit blk k r % 128) w
  let set := fun v => { s with fab := { s.fab with
    bmOut := s.fab.bmOut.set 0 (2 * blk + k) (BitVec.ofNat 128 v)
    bmDerr := s.fab.bmDerr.set false (2 * blk + k) (s.bmCoded blk && old.fab.bmPoison.get false (old.bmKey blk k r)) } }
  if r.we = false then set (from' old)
  else if mode = 0 then set (from' old) else if mode = 1 then set (from' s) else s

/-- STATE of a region (R381). -/
def State.regionState (s : State) (r : Nat) : Nat := s.get F.PR_REGION_STATE.STATE r

/-- A region's design runs: STARTING or ACTIVE. -/
def State.regionRuns (s : State) (r : Nat) : Bool := s.regionState r == 2 || s.regionState r == 3

/-- Edge at which ports A and B access a block, both in one collision window, or one alone (R326, R327, R329). -/
def State.bmAccess (s : State) (blk : Nat) (a b : Option BmReq) : State :=
  let reqs := (match a with | some r => [(0, r)] | none => []) ++ (match b with | some r => [(1, r)] | none => [])
  -- with the code, a write reads its old word too, which the page code needs (R281, R328)
  if s.bmCoded blk && reqs.any (fun x => s.bmBad (s.bmKey blk x.1 x.2)) then s.put F.BM_STATUS.REBUILDING blk 1
  else
    let s := if s.bmCoded blk then reqs.foldl (fun t x => t.bmCorrect blk (t.bmKey blk x.1 x.2)) s else s
    let ma := match a with | some r => s.bmMask blk 0 r | none => 0
    let mb := match b with | some r => s.bmMask blk 1 r | none => 0
    let both := match a, b with
      | some x, some y => s.bmKey blk 0 x == s.bmKey blk 1 y && (ma &&& mb) != 0
      | _, _ => false
    let t := match b with | some r => if r.we then s.bmStore blk 1 r mb else s | none => s
    -- A's data is stored where both write (R327)
    let t := match a with | some r => if r.we then t.bmStore blk 0 r ma else t | none => t
    let t := if both then (t.put F.BM_STATUS.COLL blk 1).bmCollSum (blk / 128) else t
    reqs.foldl (fun u x => u.bmRead s blk x.1 x.2) t

/-- BM_PORT_ACCESS (R325 to R329). A port whose WAIT is 1 or whose clock is stopped takes no access. -/
def execBmPortAccess (block : Fin 8192) (a b : Option BmReq) (ups : List Upset) (s : State) :
    Host.Outcome State Fault Refusal :=
  let s := s.bmStrike block.val ups
  if s.regionRuns (block.val / 128) = false ∨ s.isSet F.BM_STATUS.REBUILDING block.val then .next s
  else .next (s.bmAccess block.val (if s.bmClocked block.val 0 then a else none) (if s.bmClocked block.val 1 then b else none))

/-- Rebuilds a page of a block (R282, R329): at most two erasures, check words included, are recovered; with more the lost words are
stored as poison. The check words are then as the page gives them. -/
def State.bmRebuild (s : State) (blk page : Nat) : State :=
  let keys := (List.range 256).map (fun i => blk * 512 + page * 256 + i)
  let bad := keys.filter s.bmBad
  let erased := bad.length + bit (s.bmCheckBad blk (2 * page)) + bit (s.bmCheckBad blk (2 * page + 1))
  let s := (s.setBmCheck blk (2 * page) none).setBmCheck blk (2 * page + 1) none
  let s := keys.foldl (fun t k => if t.bmBad k then t else t.bmCorrect blk k) s
  let s := if erased ≤ 2 then
      bad.foldl (fun t k => (((t.setBmDamage k none).setBmPoison k false).count F.BM_ECC_CNT.CORR blk 1).raise
        { code := 0x0321, sev := 0, source := srcBm blk }) s
    else
      bad.foldl (fun t k => (((((t.setBmDamage k none).setBmWord k 0).setBmPoison k true).put F.BM_STATUS.LOST blk
        1).count F.BM_ECC_CNT.UNCORR blk 1).raise { code := 0x0322, sev := 2, source := srcBm blk }) s
  s

/-- BM_PAGE_REBUILD (R329): the rebuild of a page ends and WAIT falls. It runs on port A's clock, or on B's; with neither it waits. -/
def execBmPageRebuild (block : Fin 8192) (page : Bool) (ups : List Upset) (s : State) :
    Host.Outcome State Fault Refusal :=
  let b := block.val
  let s := s.bmStrike b ups
  if s.isSet F.BM_STATUS.REBUILDING b ∧ (s.bmClocked b 0 = true ∨ s.bmClocked b 1 = true) then
    let s := s.bmRebuild b (bit page)
    .next (if (List.range 512).any (fun i => s.bmBad (b * 512 + i)) then s else s.put F.BM_STATUS.REBUILDING b 0)
  else .next s

/-- BM_COLL_CLR (R352). -/
def execBmCollClr (acc : Accessor) (v : Word) (s : State) : Host.Outcome State Fault Refusal :=
  .next (s.ownedWrite acc 0 R.BM_COLL_CLR 0 (fun _ t =>
    if bitAt v.toNat 8 then
      let r := v.toNat % 64
      ((List.range 128).foldl (fun u b => u.put F.BM_STATUS.COLL (128 * r + b) 0) t).bmCollSum r
    else t))

/-- A write of BM_STATUS: W1C, and the summary follows. -/
def State.bmStatusWrite (s : State) (blk v : Nat) : State := (s.writePlain R.BM_STATUS blk v).bmCollSum (blk / 128)

/-! ### Fabric ports (R338 to R343) -/

/-- PR_FP_STATUS.CLK_STOP: no edge of the port clock for 1 µs. -/
def State.clkStop (s : State) (p : Nat) : Bool := !s.portClocked p && decide (s.fab.edgeAt.get 0 (s.portNet p) + 1000 ≤ s.now)

/-- PR_FP_STATUS.RSP_LEVEL: units in the response buffer. -/
def State.rspLevel (s : State) (p : Nat) : Nat := (s.fport p).rsp.foldl (fun a q => a + pktUnits q) 0

/-- Keeps TGT_OUT. -/
def State.portOut (s : State) (p : Nat) : State := s.put F.PR_FP_STATUS.TGT_OUT p (s.fport p).treq.length

/-- Data units a request is to have (R134). -/
def unitsDue (p : Packet) : Nat := if p.cmd = 0 ∨ p.cmd = 6 then 0 else p.len.toNat + 1

/-- A whole request packet from user logic (R339): the bridge's own fields and checks, then injection. -/
def State.portRequest (s : State) (p : Nat) (q : Packet) : State :=
  let q := { q with src := BitVec.ofNat 10 (epPort p), secure := false, acc := .userLogic }
  let k := q.key.toNat
  if q.debug ∨ (q.vc = 3 ∧ s.isSet F.PR_FP_CTRL.ALLOW_VC3 p = false) then s.refuseInjection { q with debug := false } 3
  else if decide (k < 64) && bitAt (s.pair R.PR_FP_KEYMASK_LO R.PR_FP_KEYMASK_HI p) k then s.inject q
  else
    let s := (s.put F.PR_FP_STATUS.KEY_REJ p 1).count F.PR_FP_COUNTS.KEY_REJ p 1
    s.refuseLocal q 7

/-- FP_IREQ_PACKET (R339): units of a request on IREQ: a packet, the first part of one, or the next part. -/
def execFpIreqPacket (port : Fin 128) (p : Packet) (s : State) : Host.Outcome State Fault Refusal :=
  let x := s.fport port.val
  -- a region that powers down takes no IREQ (R385 step 1)
  if s.portActive port.val = false ∨ s.portClocked port.val = false ∨ s.domState (domRegion (portRegion port.val)) ≠ 2 then .next s
  else
    let q := match x.part with | some h => { h with data := h.data ++ p.data } | none => p
    if q.data.length < unitsDue q then .next (s.setFport port.val { x with part := some q })
    else .next ((s.setFport port.val { x with part := none }).portRequest port.val q)

/-- A request arrives at a port (R341, R342): none where the port holds it. -/
def State.portArrive (s : State) (p : Nat) (q : Packet) : Option State :=
  let x := s.fport p
  if s.portActive p = false then some (s.targetRefuse q (srcPort p) 1)
  else if s.treqHeld p = true then none
  else if expectsResponse q.cmd.toNat then
    some ((s.setFport p { x with treq := x.treq ++ [(q, s.now)], toUser := q :: x.toUser }).portOut p)
  else some (s.setFport p { x with toUser := q :: x.toUser })

/-- A response arrives at a port (R340, R342): into its buffer, or discarded where its request was made before the port last became
inactive. -/
def State.portResponse (s : State) (p : Nat) (q : Packet) : State :=
  let x := s.fport p
  if x.dead.contains q.tag then s.setFport p { x with dead := x.dead.erase q.tag }
  else if s.portActive p = false then s
  else s.setFport p { x with rsp := x.rsp ++ [q] }

/-- Units move from a port's buffer to user logic while its clock runs and IRSP is READY (R338, R340): here one response. Its space is
free again for requests that wait (R146). -/
def State.portDrain (s : State) (p : Nat) : State :=
  let x := s.fport p
  match x.rsp with
  | q :: r =>
    if s.portClocked p = true ∧ s.portReady p false = true then
      (s.setFport p { x with rsp := r, toUser := q :: x.toUser }).pump (epPort p)
    else s
  | [] => s

/-- FP_TRSP_RESPONSE (R341): user logic answers a TREQ request. -/
def execFpTrspResponse (port : Fin 128) (p : Packet) (s : State) : Host.Outcome State Fault Refusal :=
  let x := s.fport port.val
  if s.portActive port.val = false ∨ s.portClocked port.val = false then .next s
  else match x.treq.find? (fun y => y.1.tag == p.tag && y.1.src == p.dest) with
  | some y =>
    if 8 ≤ p.cmd.toNat ∧ p.cmd.toNat ≤ 10 then
      let s := (s.setFport port.val { x with treq := x.treq.erase y }).portOut port.val
      .next (s.sendPacket { p with src := BitVec.ofNat 10 (epPort port.val), vc := 2, secure := false, debug := false
                                   key := y.1.key, ordered := y.1.ordered, acc := y.1.acc, poison := pktPoison p })
    else .next (s.put F.PR_FP_STATUS.BAD_RSP port.val 1)
  | none => .next (s.put F.PR_FP_STATUS.BAD_RSP port.val 1)

/-- FP_TARGET_TIMEOUT (R341): the oldest TREQ request has gone unanswered for TGT_TMO_US. -/
def execFpTargetTimeout (port : Fin 128) (s : State) : Host.Outcome State Fault Refusal :=
  let p := port.val
  match (s.fport p).treq with
  | [] => .next s
  | (q, t) :: r =>
    if s.now < t + 1000 * max 1 (s.get F.PR_FP_CTRL.TGT_TMO_US p) then .next s
    else
      let s := (s.setFport p { s.fport p with treq := r }).portOut p
      let s := (s.put F.PR_FP_STATUS.TGT_TMO p 1).count F.PR_FP_COUNTS.TGT_TMO p 1
      .next (s.targetRefuse q (srcPort p) 0xE)

/-- Tags of a port's requests that await a response, the packet on IREQ among them: the port discards those responses once it has become
inactive (R342). -/
def State.portTags (s : State) (p : Nat) : List (BitVec 10) :=
  (s.outstanding (epPort p)).map (·.tag) ++
    ((s.net.wait.get [] (epPort p)).filter (fun q => expectsResponse q.cmd.toNat)).map (·.tag) ++
    ((s.net.flight.filter (fun w => w.own && w.pkt.dest.toNat == epPort p)).map (·.pkt.tag)) ++
    (match (s.fport p).part with | some q => if expectsResponse q.cmd.toNat then [q.tag] else [] | none => [])

/-- A port becomes inactive (R342). -/
def State.portStop (s : State) (p : Nat) : State :=
  if s.portActive p then
    let x := s.fport p
    let s := s.put F.PR_FP_STATUS.ACTIVE p 0
    let s := (s.setFport p { x with treq := [], part := none, rsp := [], dead := s.portTags p }).portOut p
    let s := x.treq.foldl (fun t y => t.targetRefuse y.1 (srcPort p) 0xE) s
    match x.part with
    | some q => s.portRequest p { q with data := q.data ++ List.replicate (unitsDue q - q.data.length) ⟨0, true⟩ }
    | none => s
  else s

/-- A port becomes active where its EN is 1 and its region has started (R342, R372). -/
def State.portStart (s : State) (p : Nat) : State :=
  if s.isSet F.PR_FP_CTRL.EN p ∧ s.regionRuns (portRegion p) = true then s.put F.PR_FP_STATUS.ACTIVE p 1 else s

/-- A write of PR_FP_CTRL (R342, R343): CLK is kept while EN is 1. -/
def State.fpCtrlWrite (s : State) (p v : Nat) : State :=
  let was := s.isSet F.PR_FP_CTRL.EN p
  let clk := s.get F.PR_FP_CTRL.CLK p
  let s := s.writePlain R.PR_FP_CTRL p v
  let s := if was then s.put F.PR_FP_CTRL.CLK p clk else s
  if s.isSet F.PR_FP_CTRL.EN p then s.portStart p else s.portStop p

/-- A write of PR_FP_KEYMASK (R343). -/
def State.fpMaskWrite (s : State) (r : RegRow) (p v : Nat) : State :=
  if s.isSet F.PR_FP_CTRL.EN p then s else s.writePlain r p v

/-- FP_PORT_INACTIVE (R342): a write of PR_FP_CTRL, which clears EN where its bit 0 is 0. A region that is isolated, reset
or unconfigured stops its ports the same way. -/
def execFpPortInactive (acc : Accessor) (v : Word) (s : State) : Host.Outcome State Fault Refusal :=
  .next (s.ownedWrite acc 0 R.PR_FP_CTRL 0 (fun p t => t.fpCtrlWrite p v.toNat))

/-! ### User I/O banks (R349, R350) -/

def State.setBank (s : State) (b v : Nat) : State :=
  s.setReg R.CFG_IO_BANK_STATUS 0 (bitsSet (s.reg R.CFG_IO_BANK_STATUS 0) (2 * b) 2 v)

/-- An IO_BANK event. -/
def State.bankEvent (s : State) (b : Nat) : State := s.raise { code := 0x0334, sev := 2, source := src 0x0F b }

/-- IO_BANK_SUPPLY_LOST (R349). -/
def execIoBankSupplyLost (bank : Fin 16) (s : State) : Host.Outcome State Fault Refusal :=
  if s.bankState bank.val = 1 then .next ((s.setBank bank.val 3).bankEvent bank.val) else .next s

/-- IO_BANK_SUPPLY_RESTORED (R349): a bank with a declared voltage, once the base image has started (R353). -/
def execIoBankSupplyRestored (bank : Fin 16) (s : State) : Host.Outcome State Fault Refusal :=
  if s.get F.CFG_STATUS.STATE 0 = 3 ∧ s.bankState bank.val ≠ 1 ∧ s.fab.volts.get 0 bank.val ≠ 0 then .next (s.setBank bank.val 1) else .next s

/-- CFG_IO_IN_k (R350): the levels of pins 32k to 32k + 31; a pin whose bank is not GOOD reads 0. -/
def State.ioIn (s : State) (k : Nat) : Nat :=
  bitsNat ((List.range 32).map (fun i => s.bankState ((32 * k + i) / 48) == 1 && s.fab.pinLevel.get false (32 * k + i)))

/-! ### Region states (R371 to R373) -/

/-- Isolation begins: the outgoing border cells hold the values they had (R371). -/
def State.holdBorders (s : State) (r : Nat) : State :=
  if s.isSet F.PR_REGION_STATE.ISOLATED r then s
  else { s with fab := { s.fab with held := s.fab.held.set 0 r (s.fab.borders.get 0 r) } }

/-- Sets a region's state, its ISOLATED bit and its bits in PR_LOADED and PR_FAILED (R371, R381). -/
def State.setRegion (s : State) (r st : Nat) : State :=
  let s := if st = 3 then s else s.holdBorders r
  let s := (s.put F.PR_REGION_STATE.STATE r st).put F.PR_REGION_STATE.ISOLATED r (bit (st != 3))
  let put := fun (t : State) (lo hi : RegRow) b => if r < 32 then t.setReg lo 0 (bitsSet (t.reg lo 0) r 1 (bit b))
    else t.setReg hi 0 (bitsSet (t.reg hi 0) (r - 32) 1 (bit b))
  put (put s R.PR_LOADED_LO R.PR_LOADED_HI (st == 2 || st == 3 || st == 5 && (s.cfg.images.get {} r).configured)) R.PR_FAILED_LO R.PR_FAILED_HI (st == 4)

/-- Ports of a region. -/
def regionPorts (r : Nat) : List Nat := let p := 32 * (r / 16) + 2 * (r % 16); [p, p + 1]

/-- Isolates a region in a state: its design stops and its ports become inactive (R342, R371). -/
def State.isolateRegion (s : State) (r st : Nat) : State :=
  ((regionPorts r).foldl (fun t p => t.portStop p) s).setRegion r st

/-- A region's logic takes its configuration (R318, R334, R372 step 1): its flip-flops their initial values, its leaf nets their
selections, and a loop output that DOZE has stopped runs again (R416). A slice's registers start from 0 (DESIGN CHOICE, log 51). -/
def State.startLogic (s : State) (r : Nat) : State :=
  let fs := s.regionFrames r
  let s := { s with fab := { s.fab with
    ffs := s.fab.ffs.set 0 r (ffInit (fun k => Config.cell r k fs))
    slices := s.fab.slices.filter (fun e => e.1 / 192 != r)
    leaf := (List.range 16).foldl (fun m n => m.set 0 (16 * r + n) (Config.leafNet r n fs)) s.fab.leaf } }
  s.restartLoops (s.regionLoops r)

/-- A region starts (R372 steps 1 and 2): its logic and block memories take their settings, its ports become active. -/
def State.startRegion (s : State) (r : Nat) : State :=
  let fs := s.regionFrames r
  let s := (List.range 128).foldl (fun t b =>
    let blk := 128 * r + b
    let t := t.setReg R.BM_INFO blk (Config.bmInfo blk fs % 1024 &&& 0x33F)
    { t with fab := { t.fab with 
      bmMode := t.fab.bmMode.set 0 blk (Config.bmModes blk fs % 16)
      bmClk := (t.fab.bmClk.set 0 (2 * blk) (Config.bmClock blk 0 fs % 16)).set 0 (2 * blk + 1) (Config.bmClock blk 1 fs % 16) } }) s
  let s := (s.startLogic r).setRegion r 2
  let s := { s with fab := { s.fab with startAt := s.fab.startAt.set 0 r (s.now + 1) } }
  (regionPorts r).foldl (fun t p => t.portStart p) s

end Sys2Proof.Machine
end

