-- ==== Sys2Proof/Machine/Clocks.lean ====
section
/-! DEFINITION. Clock monitors (R405, R406), loops (R407 to R411), multiplexers (R412, R413) and gating (R415). -/

namespace Sys2Proof.Machine

def State.setClk (s : State) (x : Clk) : State := { s with clk := x }

/-! ### Monitors (R406) -/

/-- A window count fails: it differs from EXP_KHZ × 40.96 µs by more than TOL, 15 % for the 25 MHz crystal. -/
def windowBad (source expKhz tol count : Nat) : Bool :=
  let want := expKhz * 4096
  let got := count * 100000
  let diff := if got < want then want - got else got - want
  if source = 0 then decide (want * 15 < diff * 100) else decide (want * 2 ^ tol < diff * 10000)

/-- A source becomes GOOD, or stops being so. -/
def State.setGood (s : State) (k : Nat) (g : Bool) : State :=
  let was := s.isSet F.CLK_MON_STATUS.GOOD k
  let s := s.put F.CLK_MON_STATUS.GOOD k (bit g)
  if was = g then s else s.setClk { s.clk with good := s.clk.good.set 0 k (if g then s.now + 1 else 0) }

/-- The XTAL_25 crystal may be used: its stable count is complete and the device is not in HIBERNATE (R405). -/
def State.crystalUp (s : State) : Bool := s.cfg.phase != .crystal && !s.dark

/-- The source is stopped still, at the end of a window that counted `count` edges: with none it is; edges after it stopped say that it
runs again. Whether the edges of the very window it stopped in came before or after is a free choice (DESIGN CHOICE, log 117). -/
def State.stoppedStill (s : State) (k count : Nat) : Bool × State :=
  if count = 0 then (true, s)
  else if s.isSet F.CLK_MON_STATUS.STOPPED k = false ∨ s.clk.stopAt.get 0 k + 40960 ≤ s.now then (false, s)
  else let (n, s) := s.draw; (Config.stoppedStill n, s)

/-- A window of an enabled monitor is judged. -/
def State.judgeWindow (s : State) (k expKhz count : Nat) : State :=
  let bad := windowBad k expKhz (s.get F.CLK_MON_CFG.TOL k) count
  let (stopped, s) := s.stoppedStill k count
  let s := if bad then s.put F.CLK_MON_STATUS.BAD k 1 else s
  (s.put F.CLK_MON_STATUS.STOPPED k (bit stopped)).setGood k (!bad && !stopped)

/-- CLOCK_MONITOR_WINDOW (R406): a window's count. Windows are counted in cycles of XTAL_25, which nothing uses before it is stable
(R405). -/
def execClockMonitorWindow (k : Fin 61) (count : Word) (s : State) : Host.Outcome State Fault Refusal :=
  if s.crystalUp = false then .next s
  else
    let e := s.get F.CLK_MON_CFG.EXP_KHZ k.val
    let s := s.setReg R.CLK_MON_COUNT k.val count.toNat
    if e = 0 then .next (s.setGood k.val false) else .next (s.judgeWindow k.val e count.toNat)

/-- CLOCK_SOURCE_STOPPED (R406). -/
def execClockSourceStopped (k : Fin 61) (s : State) : Host.Outcome State Fault Refusal :=
  if s.get F.CLK_MON_CFG.EXP_KHZ k.val = 0 ∨ s.dark = true then .next s
  else
    let s := s.setClk { s.clk with stopAt := s.clk.stopAt.set 0 k.val s.now }
    .next ((s.put F.CLK_MON_STATUS.STOPPED k.val 1).setGood k.val false)

/-- A write of CLK_MON_CFG: a monitor with EXP_KHZ 0 is disabled and reads neither GOOD nor BAD (R406). -/
def State.monCfgWrite (s : State) (k v : Nat) : State :=
  let s := s.writePlain R.CLK_MON_CFG k v
  if s.get F.CLK_MON_CFG.EXP_KHZ k = 0 then
    ((s.put F.CLK_MON_STATUS.BAD k 0).put F.CLK_MON_STATUS.STOPPED k 0).setGood k false
  else s

/-! ### Loops (R407 to R409) -/

/-- Input code the reference mux of a loop passes; lane quad loops have no mux. -/
def State.loopCode (s : State) (l : Nat) : Nat := s.get F.CLK_MUX_STATUS.CUR l

/-- The monitored source a loop follows, if it has one: its mux's input, or for a lane quad loop the reference clock pair that
serves the quad: pair j serves quads 2j and 2j + 1 (R4, R405). -/
def State.loopSource (s : State) (l : Nat) : Option Nat :=
  if l < 21 then codeMonitor (s.loopCode l) else some (8 + (l - 21) / 2)

/-- Reference frequency of a loop in kHz: the crystal's, or what its source's monitor expects (log 61). -/
def State.refKhz (s : State) (l : Nat) : Nat :=
  match s.loopSource l with
  | some 0 => 25000
  | some 40 => s.get F.CLK_MON_CFG.EXP_KHZ 40 / 10
  | some k => s.get F.CLK_MON_CFG.EXP_KHZ k
  | none => 0

/-- VCO range of a loop in kHz (R407). -/
def vcoRange (l : Nat) : Nat × Nat :=
  if l ≤ 3 then (4000000, 8000000) else if l = 4 then (4950000, 5050000) else (1800000, 3600000)

/-- Fields of a CLK_LOOP_CFG value. -/
def cfgRefdiv (c : Nat) : Nat := bitsOf c 0 5
def cfgFbdiv (c : Nat) : Nat := bitsOf c 8 10
def cfgOutdiv (c : Nat) : Nat := bitsOf c 24 5

/-- VCO frequency in kHz times REFDIV × 2^24. -/
def vcoScaled (ref cfg frac : Nat) : Nat := ref * (cfgFbdiv cfg * 2 ^ 24 + frac % 2 ^ 24)

/-- Every enabled output of a fabric loop divides by 2 to 128 to at most 900 MHz. -/
def State.fabOutsOk (s : State) (l v den : Nat) : Bool :=
  (List.range 4).all (fun k =>
    let i := 4 * l + k
    let d := s.get F.CLK_FAB_OUT.OUTDIV i
    s.isSet F.CLK_FAB_OUT.EN i == false || (decide (2 ≤ d) && decide (v ≤ 900000 * d * den)))

/-- A staged setting is accepted (R408). -/
def State.loopOk (s : State) (l cfg frac : Nat) : Bool :=
  let ref := s.refKhz l
  let rd := cfgRefdiv cfg
  let den := rd * 2 ^ 24
  let v := vcoScaled ref cfg frac
  decide (1 ≤ rd ∧ rd ≤ 16) && decide (16 ≤ cfgFbdiv cfg) && decide (10000 * rd ≤ ref ∧ ref ≤ 100000 * rd) &&
    decide ((vcoRange l).1 * den ≤ v ∧ v ≤ (vcoRange l).2 * den) &&
    (if l ≤ 3 then decide (2 ≤ cfgOutdiv cfg) else if l = 4 then cfgOutdiv cfg == 10 else s.fabOutsOk l v den)

/-- A loop starts to acquire, its outputs coasting; a refused setting sets CFG_REJ and the previous one stays (R408). Lane
quad loops are configured only through LANE_CONFIG. -/
def State.acquire (s : State) (l : Nat) : State :=
  let cfg := s.reg R.CLK_LOOP_CFG l
  let frac := s.reg R.CLK_LOOP_FRAC l
  let s := (s.put F.CLK_LOOP_STATUS.LOCK l 0).put F.CLK_LOOP_STATUS.COASTING l 1
  let s := s.setClk { s.clk with idle := s.clk.idle.set false l false }
  if 21 ≤ l then s
  else if s.loopOk l cfg frac then s.setClk { s.clk with used := s.clk.used.set none l (some (cfg, frac)) }
  else s.put F.CLK_LOOP_STATUS.CFG_REJ l 1

/-- SOURCE of a loop. -/
def srcLoop (l : Nat) : Nat := src 0x10 l

/-- The loop may run: enabled and not held in reset. -/
def State.loopRuns (s : State) (l : Nat) : Bool :=
  s.isSet F.CLK_LOOP_CTRL.EN l && s.isSet F.CLK_LOOP_CTRL.RESET l == false

/-- A loop can lock: it is enabled and not in reset, its source is no crystal that is still unstable (R405), and a lane quad loop is
set to a rate and its quad powered (R407). -/
def State.loopReady (s : State) (l : Nat) : Bool :=
  (s.loopSource l != some 0 || s.crystalUp) && !s.dark &&
    (if l < 21 then s.loopRuns l else (s.clk.used.get none l).isSome && s.laneOn (4 * (l - 21)))

/-- The monitor of a loop's source reports STOPPED, or BAD and not GOOD since (R409). -/
def State.sourceBad (s : State) (l : Nat) : Bool :=
  match s.loopSource l with
  | some k => s.isSet F.CLK_MON_STATUS.STOPPED k || (s.isSet F.CLK_MON_STATUS.BAD k && !s.isSet F.CLK_MON_STATUS.GOOD k)
  | none => false

/-- A loop follows its source: it is locked, or acquires. -/
def State.loopFollows (s : State) (l : Nat) : Bool :=
  s.isSet F.CLK_LOOP_STATUS.LOCK l || (!s.clk.idle.get false l && s.loopReady l)

/-- LOOP_LOSS (R409): a loop that follows its source loses it, or a locked one its lock. -/
def execLoopLoss (l : Fin 85) (s : State) : Host.Outcome State Fault Refusal :=
  if s.isSet F.CLK_LOOP_STATUS.LOCK l.val = true ∨ (s.loopFollows l.val && s.sourceBad l.val) = true then
    let s := ((s.put F.CLK_LOOP_STATUS.LOCK l.val 0).put F.CLK_LOOP_STATUS.LOSS l.val 1).put F.CLK_LOOP_STATUS.COASTING l.val 1
    let s := s.setClk { s.clk with idle := s.clk.idle.set false l.val true }
    let s := if l.val = 4 then s.put F.TOD_STATUS.LOSS 0 1 else s
    .next (s.raise { code := 0x0340, sev := 0, source := srcLoop l.val })
  else .next s

/-- LOOP_AUTO_RELOCK (R409): the source has been GOOD for 1 ms; a user pin as reference has no monitor (log 61). -/
def execLoopAutoRelock (l : Fin 85) (s : State) : Host.Outcome State Fault Refusal :=
  let good : Bool := match s.loopSource l.val with
    | some k => s.clk.good.get 0 k != 0 && decide (s.clk.good.get 0 k - 1 + 1000000 ≤ s.now)
    | none => true
  if s.clk.idle.get false l.val ∧ s.isSet F.CLK_LOOP_CTRL.AUTO l.val ∧ s.loopRuns l.val ∧ good then .next (s.acquire l.val)
  else .next s

/-- A write of CLK_LOOP_CTRL: RELOCK, enabling and the release of RESET acquire; RESET and disabling stop (R408, R419). -/
def State.loopCtrlWrite (s : State) (l v : Nat) : State :=
  if 21 ≤ l then s
  else
    let ran := s.loopRuns l
    let s := s.writePlain R.CLK_LOOP_CTRL l v
    if s.loopRuns l then (if bitAt v 2 ∨ ran = false then s.acquire l else s)
    else
      let s := (s.put F.CLK_LOOP_STATUS.LOCK l 0).put F.CLK_LOOP_STATUS.COASTING l (s.get F.CLK_LOOP_CTRL.EN l)
      s.setClk { s.clk with idle := s.clk.idle.set false l true }

/-- RELOCK (R408). -/
def execRelock (acc : Accessor) (v : Word) (s : State) : Host.Outcome State Fault Refusal :=
  .next (s.ownedWrite acc 0 R.CLK_LOOP_CTRL 0 (fun l t => t.loopCtrlWrite l v.toNat))

/-- Staged registers of lane quad loops ignore writes (R408). -/
def State.loopCfgWrite (s : State) (r : RegRow) (l v : Nat) : State := if 21 ≤ l then s else s.writePlain r l v

/-- A write of CLK_LOOP_STATUS; TOD_STATUS.LOSS mirrors TIME_LOOP's LOSS (R66). -/
def State.loopStatusWrite (s : State) (l v : Nat) : State :=
  if 21 ≤ l then s
  else
    let s := s.writePlain R.CLK_LOOP_STATUS l v
    if l = 4 then s.put F.TOD_STATUS.LOSS 0 (s.get F.CLK_LOOP_STATUS.LOSS 4) else s

/-- LOOP_LOCK (R409, R410): an acquiring loop locks, its source being neither STOPPED nor BAD. A root mux still on XTAL_25 takes SYS_LOOP_0 to _2; the domains of
SYS_LOOP_3 and TIME_LOOP are released. -/
def execLoopLock (l : Fin 85) (s : State) : Host.Outcome State Fault Refusal :=
  let k := l.val
  if s.isSet F.CLK_LOOP_STATUS.LOCK k ∨ s.clk.idle.get false k ∨ s.loopReady k = false ∨ s.sourceBad k = true then .next s
  else
    let s := (s.put F.CLK_LOOP_STATUS.LOCK k 1).put F.CLK_LOOP_STATUS.COASTING k 0
    if k ≤ 2 then
      if s.get F.CLK_MUX_STATUS.CUR (45 + k) = 0 ∧ s.isSet F.CLK_MUX_STATUS.MUX_PENDING (45 + k) = false then
        .next ((s.put F.CLK_MUX_STATUS.CUR (45 + k) 12).put F.CLK_MUX_CTRL.SEL (45 + k) 12)
      else .next s
    else if k = 3 then .next (s.setClk { s.clk with engUp := true })
    else if k = 4 then .next (s.setClk { s.clk with timeUp := true })
    else .next (s.setClk { s.clk with low := s.clk.low.set false k false })

/-! ### Fabric loops (R411) -/

/-- Settings the static frames write: the nets' drivers, the pins' options, the banks' voltages and the loops', each enabled one of which starts to
acquire. -/
def State.fabricLoops (s : State) : State :=
  let fs := s.staticFrames
  let s := { s with fab := { s.fab with
    nets := (List.range 128).foldl (fun m k => m.set 0 k (Config.netSource k fs)) s.fab.nets
    pins := (fs.flatMap (fun e => Config.framePins e.1 e.2)).foldl (fun m p => m.set {} p.1 p.2) s.fab.pins
    volts := (fs.flatMap (fun e => Config.frameVolts e.1 e.2)).foldl (fun m v => m.set 0 v.1 v.2) s.fab.volts } }
  (List.range 16).foldl (fun t j =>
    let l := 5 + j
    let t := (t.setReg R.CLK_LOOP_CFG l (Config.fabLoop l 0 fs)).setReg R.CLK_LOOP_FRAC l (Config.fabLoop l 1 fs % 2 ^ 24)
    let t := (List.range 4).foldl (fun u k => u.setReg R.CLK_FAB_OUT (4 * l + k) (Config.fabLoop l (3 + k) fs &&& 0x17F)) t
    let t := ((t.put F.CLK_MUX_CTRL.SEL l (Config.fabLoop l 7 fs)).put F.CLK_MUX_STATUS.CUR l (Config.fabLoop l 7 fs))
    let t := ((t.put F.CLK_MUX_CTRL.SEL (16 + l) (Config.fabLoop l 8 fs)).put F.CLK_MUX_STATUS.CUR (16 + l) (Config.fabLoop l 8 fs))
    t.loopCtrlWrite l (Config.fabLoop l 2 fs % 4)) s

/-- Start-up with fabric loops that have not locked: each keeps the nets it drives low until it locks (R411). -/
def State.fabricUnlocked (s : State) : State :=
  (List.range 16).foldl (fun t j =>
    if t.isSet F.CLK_LOOP_CTRL.EN (5 + j) ∧ t.isSet F.CLK_LOOP_STATUS.LOCK (5 + j) = false then
      (t.setClk { t.clk with low := t.clk.low.set false (5 + j) true }).raise { code := 0x0341, sev := 2, source := srcLoop (5 + j) }
    else t) s

/-! ### Multiplexers (R412, R413) -/

/-- A code is allowed for a mux. -/
def muxAllows (m code : Nat) : Bool :=
  if m ≤ 3 then decide (code ≤ 4)
  else if m = 4 then decide (code ≤ 6)
  else if m ≤ 20 then decide (code ≤ 4) || (decide (7 ≤ code) && decide (code ≤ 11))
  else if m ≤ 36 then code == 12 || code == 13
  else if m ≤ 44 then decide (code ≤ 4) || code == 7
  else code == 0 || code == 12

/-- A write of CLK_MUX_CTRL without DOM_RESET: a new code starts a switch, or replaces the target of one whose step 2 has
not begun. -/
def State.muxSwitch (s : State) (m v : Nat) : State :=
  let code := v % 16
  let s := if bitAt v 9 then s.put F.CLK_MUX_CTRL.CFG_REJ m 0 else s
  if muxAllows m code = false then s.put F.CLK_MUX_CTRL.CFG_REJ m 1
  else if s.clk.muxLow.get false m then s
  else if s.isSet F.CLK_MUX_STATUS.MUX_PENDING m then s.put F.CLK_MUX_CTRL.SEL m code
  else if code = s.get F.CLK_MUX_STATUS.CUR m then s.put F.CLK_MUX_CTRL.SEL m code
  else
    let s := (s.put F.CLK_MUX_CTRL.SEL m code).put F.CLK_MUX_STATUS.MUX_PENDING m 1
    s.setClk { s.clk with muxAt := s.clk.muxAt.set 0 m (s.now + 1) }

/-- CLK_MUX_SWITCH (R413). -/
def execClkMuxSwitch (acc : Accessor) (v : Word) (s : State) : Host.Outcome State Fault Refusal :=
  .next (s.ownedWrite acc 0 R.CLK_MUX_CTRL 0 (fun m t => if bitAt v.toNat 8 then t else t.muxSwitch m v.toNat))

/-- Ends a pending switch. -/
def State.muxSettle (s : State) (m : Nat) : State :=
  let s := (s.put F.CLK_MUX_STATUS.MUX_PENDING m 0).put F.CLK_MUX_STATUS.CUR m (s.get F.CLK_MUX_CTRL.SEL m)
  s.setClk { s.clk with muxAt := s.clk.muxAt.set 0 m 0, muxLow := s.clk.muxLow.set false m false }

/-- A switch goes to the 25 MHz crystal, by its code or as the reference of a fabric loop. -/
def State.muxOntoCrystal (s : State) (m : Nat) : Bool :=
  let code := s.get F.CLK_MUX_CTRL.SEL m
  code == 0 || (code == 13 && s.loopCode (m - 16) == 0)

/-- The input of mux `m` with a code has edges: its source has not stopped, a loop's output runs, a coasting one too (R409, R413). -/
def State.muxInputRuns (s : State) (m code : Nat) : Bool :=
  if code = 12 then s.isSet F.CLK_LOOP_CTRL.EN (if 45 ≤ m then m - 45 else m - 16)
  else s.codeRuns (if code = 13 then s.loopCode (m - 16) else code)

/-- CLK_MUX_SWITCH_COMPLETE (R413): the falling edge of the old clock has come (`first`), or then that of the new clock; a clock that has
stopped has none. -/
def execClkMuxSwitchComplete (m : Fin 48) (first : Bool) (s : State) : Host.Outcome State Fault Refusal :=
  if s.isSet F.CLK_MUX_STATUS.MUX_PENDING m.val then
    if s.muxInputRuns m.val (if first then s.get F.CLK_MUX_STATUS.CUR m.val else s.get F.CLK_MUX_CTRL.SEL m.val) = false then .next s
    else if first then .next (s.setClk { s.clk with muxLow := s.clk.muxLow.set false m.val true })
    else if s.clk.muxLow.get false m.val = true ∧ (s.muxOntoCrystal m.val = false ∨ s.crystalUp = true) then .next (s.muxSettle m.val)
    else .next s
  else .next s

/-- MUX_STUCK (R413): a switch has waited for 1 ms. -/
def execMuxStuck (m : Fin 48) (s : State) : Host.Outcome State Fault Refusal :=
  if s.isSet F.CLK_MUX_STATUS.MUX_PENDING m.val ∧ s.isSet F.CLK_MUX_STATUS.MUX_STUCK m.val = false ∧
      s.clk.muxAt.get 0 m.val - 1 + 1000000 ≤ s.now then
    .next ((s.put F.CLK_MUX_STATUS.MUX_STUCK m.val 1).raise { code := 0x0342, sev := 2, source := src 0x11 m.val })
  else .next s

/-- A switch with DOM_RESET (R414): the new input at once, and the loop's reset where the mux is its reference. -/
def State.muxDomReset (s : State) (m v : Nat) : State :=
  let code := v % 16
  let s := if bitAt v 9 then s.put F.CLK_MUX_CTRL.CFG_REJ m 0 else s
  if muxAllows m code = false then s.put F.CLK_MUX_CTRL.CFG_REJ m 1
  else
    let s := ((s.put F.CLK_MUX_CTRL.SEL m code).muxSettle m).put F.CLK_MUX_STATUS.MUX_STUCK m 0
    if m ≤ 20 ∧ s.loopRuns m = true then s.acquire m else s

/-! ### Gating (R415) -/

/-- Register blocks whose clock is never gated: the time unit and the dispatchers (R415). -/
def neverGated (blk : Nat) : Bool := blk == 4 || blk == 7

/-- CLOCK_GATE_REQUEST (R415): the block of register block `blk` has been idle for IDLE cycles; `held`: an access is held at
the acknowledge, so the request is withdrawn. -/
def execClockGateRequest (blk : Fin 15) (held : Bool) (s : State) : Host.Outcome State Fault Refusal :=
  if s.isSet F.CLK_GATE_CFG.EN 0 = false ∨ neverGated blk.val ∨ held then .next s
  else .next (s.setClk { s.clk with gated := s.clk.gated.set false blk.val true })

/-- GATED_BLOCK_WAKE (R415). -/
def execGatedBlockWake (blk : Fin 15) (s : State) : Host.Outcome State Fault Refusal := .next (s.ungate blk.val)

end Sys2Proof.Machine
end

