-- ==== Sys2Proof/Machine/OnChip.lean ====
section
/-! DEFINITION. On-chip memories (R275 to R294): page rebuilds, starved agents, the scrubber and range passes, the
background test, the counter tree's repair and the clears. The codes themselves are in Machine/Memory.lean. -/

namespace Sys2Proof.Machine

/-! ### The words of a group (R284, R289) -/

/-- The contiguous pieces of a group, as (first word offset, words), ascending. -/
def groupPieces (g : Nat) : List (Nat × Nat) :=
  if g < 32 then
    (0, 131072) :: (List.range 8).flatMap (fun j =>
      let b := 131072 + j * 65536
      [(b, 4096), (b + 16384, 8192), (b + 32768, 8192)])
  else if g < 36 then
    (List.range 26).flatMap (fun i => [(i * 65536, engineBufKib (engineType i) * 64), (i * 65536 + 32768, 4096)])
  else if g < 40 then [(0, 32768)]
  else if g = 40 then [(0, 65536)]
  else if g = 41 then [(0, 262144)]
  else [(0, 32768)]

/-- Words of a group that the scrubber visits; group 41 without the hibernate context (R289). -/
def groupWords (g : Nat) : Nat := (groupPieces g).foldl (fun a p => a + p.2) 0

/-- Word offset of the `n`-th word of a list of pieces. -/
def nthWord : List (Nat × Nat) → Nat → Nat
  | [], n => n
  | (b, k) :: r, n => if n < k then b + n else nthWord r (n - k)

/-- The least word offset at or above `o` that holds a word. -/
def nextWordAt : List (Nat × Nat) → Nat → Option Nat
  | [], _ => none
  | (b, k) :: r, o => if o < b then some b else if o < b + k then some o else nextWordAt r o

/-- Every piece of a group: group 41's with the hibernate context, which the scrubber's lap leaves out (R284, R289). -/
def allPieces (g : Nat) : List (Nat × Nat) := groupPieces g ++ (if g = 41 then [(262144, 256)] else [])

/-- The last word offset of a group (R290). -/
def lastWord (g : Nat) : Nat := (allPieces g).foldl (fun _ p => p.1 + p.2 - 1) 0

/-- Words of a group, the hibernate context among them. -/
def allWords (g : Nat) : Nat := (allPieces g).foldl (fun a p => a + p.2) 0

/-- Storage word of a group's word offset. -/
def groupWord (g o : Nat) : Nat := groupAddr g (16 * o) / 16

/-- Power domain that holds a word of a group, if one can be off (R289). -/
def wordDomain (g o : Nat) : Option Nat :=
  if g < 32 then some (domCluster g)
  else if g < 36 then some (domAccGroup (g - 32) (accGroupOf (o / 65536)))
  else none

/-- The domain that holds the word is not on. -/
def State.wordOff (s : State) (g o : Nat) : Bool :=
  match wordDomain g o with | some d => !s.domUp d | none => false

/-- The word lies in the P, X or Y memory of a core that is inside a bundle: no idle step (R276). -/
def State.wordBusy (s : State) (g o : Nat) : Bool := decide (g < 32 ∧ 131072 ≤ o) && s.coreBusy (8 * g + (o - 131072) / 65536)

/-- At least one domain that holds words of the group is on. -/
def State.groupOn (s : State) (g : Nat) : Bool :=
  if g < 32 then s.domUp (domCluster g)
  else if g < 36 then (List.range 4).any (fun k => s.domUp (domAccGroup (g - 32) k))
  else true

/-! ### Rebuilds and starved agents -/

/-- PAGE_REBUILD (R282): a word found uncorrectable has its page rebuilt while its bank is held. -/
def execPageRebuild (g : Fin 43) (word : Fin 4194304) (ups : List Upset) (s : State) :
    Host.Outcome State Fault Refusal :=
  let s := s.strike ups
  let w := groupWord g.val word.val
  .next (if s.uncorrAt w then s.rebuildPage w else s)

/-- AGENT_ACCESS_STARVED (R278): an agent access has waited more than 10 µs for its bank. -/
def execAgentAccessStarved (g : Fin 43) (bank : Fin 256) (s : State) : Host.Outcome State Fault Refusal :=
  if g.val < 32 then
    let s := if bank.val < 16
      then s.put F.CL_DMA_STARVE.SP_BANK g.val (s.get F.CL_DMA_STARVE.SP_BANK g.val ||| 2 ^ bank.val)
      else s.put F.CL_DMA_STARVE.CORE g.val (s.get F.CL_DMA_STARVE.CORE g.val ||| 2 ^ ((bank.val - 16) / 20 % 8))
    .next (s.countReg R.CL_DMA_STARVE_CNT g.val 1)
  else
    .next ((s.put F.ECC_GRP_STATUS.STARVE g.val 1).count F.ECC_GRP_STATUS.STARVE_CNT g.val 1)

/-! ### Scrubbing (R289, R290) -/

/-- The lap's time so far: time with EN at 1 and a domain of the group on (R289). -/
def State.lapNow (s : State) (g : Nat) : Nat :=
  (s.grp g).lapNs + (if (s.grp g).lapAt = 0 then 0 else s.now + 1 - (s.grp g).lapAt)

/-- A lap of `ns` exceeds the limit (R289). -/
def State.lapLate (s : State) (g ns : Nat) : Bool := s.reg R.SCRUB_LAP_LIMIT g != 0 && decide (s.reg R.SCRUB_LAP_LIMIT g < ns)

/-- Counts the lap's time up to now and judges it against the limit (R289). -/
def State.lapSync (s : State) (g : Nat) : State :=
  let t := s.lapNow g
  let late := s.lapLate g t
  let gr := s.grp g
  let s := s.setGrp g { gr with lapNs := t, lapAt := if gr.lapAt = 0 then 0 else s.now + 1 }
  if late then s.put F.SCRUB_STATUS.LAP_OVERDUE g 1 else s

/-- After a change of EN or of a domain: the lap's time runs while EN is 1 and a domain of the group is on (R289). -/
def State.lapGate (s : State) (g : Nat) : State :=
  let gr := s.grp g
  if s.isSet F.SCRUB_CTRL.EN g && s.groupOn g
  then s.setGrp g { gr with lapAt := if gr.lapAt = 0 then s.now + 1 else gr.lapAt }
  else s.setGrp g { gr with lapAt := 0 }

/-- The group whose lap a domain's switching concerns. -/
def lapGroup (d : Nat) : Option Nat :=
  if 0x10 ≤ d ∧ d < 0x30 then some (d - 0x10) else if 0x30 ≤ d ∧ d < 0x40 then some (32 + (d - 0x30) / 4) else none

/-- The least index at or above `pos`, among a group's words, of a word whose domain is on (R289). -/
def State.nextOn (s : State) (g pos : Nat) : Option Nat :=
  let rec go : List (Nat × Nat) → Nat → Option Nat
    | [], _ => none
    | (b, k) :: r, start => if pos < start + k ∧ s.wordOff g b = false then some (max pos start) else go r (start + k)
  go (groupPieces g) 0

/-- Ends a lap (SCRUB_LAP_END, R289). -/
def State.lapEnd (s : State) (g : Nat) : State :=
  let s := s.setReg R.SCRUB_LAP_NS g (min (s.grp g).lapNs (2 ^ 32 - 1))
  (s.setGrp g { s.grp g with lapPos := 0, lapNs := 0 }).countReg R.SCRUB_LAPS g 1

/-- The word at index `i` has been read: the lap goes on with the next word of a domain that is on, the words skipped counting as
passed, and ends where there is none (R289). -/
def State.lapStep (s : State) (g i : Nat) : State :=
  match s.nextOn g (i + 1) with
  | some j => s.setGrp g { s.grp g with lapPos := j }
  | none => s.lapEnd g

/-- Reads the word at index `i` of the lap (R279 to R283, R289). -/
def State.lapRead (s : State) (g i : Nat) : State :=
  let s := s.settleWord (groupWord g (nthWord (groupPieces g) i))
  (s.setGrp g { s.grp g with lastRead := s.now + 1 }).lapStep g i

/-- SCRUB_WORD (R289): the scrubber reads the group's next word once its interval has passed, past the words whose domain is
off; the lap waits while paused, during a range pass or with every domain of the group off. -/
def execScrubWord (g : Fin 43) (ups : List Upset) (s : State) : Host.Outcome State Fault Refusal :=
  let s := s.strike ups
  let gr := s.grp g.val
  let interval := s.get F.SCRUB_CTRL.INTERVAL g.val
  if s.get F.SCRUB_CTRL.EN g.val = 0 ∨ s.get F.SCRUB_STATUS.RANGE_BUSY g.val = 1 ∨ s.groupOn g.val = false ∨
      (gr.lastRead ≠ 0 ∧ s.now < gr.lastRead - 1 + interval) then .next s
  else
    let s := s.lapSync g.val
    match s.nextOn g.val gr.lapPos with
    | some i => .next (if s.wordBusy g.val (nthWord (groupPieces g.val) i) then s else s.lapRead g.val i)
    | none =>
      let s := s.lapEnd g.val
      match s.nextOn g.val 0 with
      | some i => .next (s.lapRead g.val i)
      | none => .next s

/-- Starts a range pass on group `g`, or refuses it (R290). -/
def State.rangeGo (s : State) (g : Nat) : State :=
  let a := s.get F.SCRUB_RANGE_START.WORD g
  let b := s.reg R.SCRUB_RANGE_END g % 2 ^ 22
  if b < a ∨ lastWord g < b ∨ s.get F.SCRUB_STATUS.RANGE_BUSY g = 1 then s.put F.SCRUB_STATUS.RANGE_REJ g 1
  else
    let s := s.put F.SCRUB_STATUS.RANGE_BUSY g 1
    let s := ((((s.setReg R.SCRUB_SUM_CHECKED g 0).setReg R.SCRUB_SUM_CORRECTED g 0).setReg R.SCRUB_SUM_UNCORR g
      0).setReg R.SCRUB_SUM_REBUILT g 0).setReg R.SCRUB_SUM_NS g 0
    s.setGrp g { s.grp g with rangePos := a, rangeStart := s.now, rangeNs := 0 }

/-- ns of the range pass so far (R290). -/
def State.rangeNow (s : State) (g : Nat) : Nat := min ((s.grp g).rangeNs + (s.now - (s.grp g).rangeStart)) (2 ^ 32 - 1)

/-- Ends a range pass: RANGE_DONE with the summary as far as it got (R290). -/
def State.rangeEndPass (s : State) (g : Nat) : State :=
  ((s.put F.SCRUB_STATUS.RANGE_BUSY g 0).put F.SCRUB_STATUS.RANGE_DONE g 1).setReg R.SCRUB_SUM_NS g (s.rangeNow g)

/-- RANGE_GO (R290): a write of SCRUB_CTRL.RANGE_GO to the group the accessor has selected. -/
def execRangeGo (acc : Accessor) (s : State) : Host.Outcome State Fault Refusal :=
  .next (s.ownedWrite acc 0 R.SCRUB_CTRL 0 (fun g t => t.rangeGo g))

/-- Ends the range pass that runs, if one does (R290). -/
def State.rangeAbort (s : State) (g : Nat) : State :=
  if s.get F.SCRUB_STATUS.RANGE_BUSY g = 1 then s.rangeEndPass g else s

/-- RANGE_ABORT (R290). -/
def execRangeAbort (acc : Accessor) (s : State) : Host.Outcome State Fault Refusal :=
  .next (s.ownedWrite acc 0 R.SCRUB_CTRL 0 (fun g t => t.rangeAbort g))

/-- Checks one word of a range pass and counts what it found (R290). -/
def State.rangeCheck (s : State) (g o : Nat) : State :=
  let w := groupWord g o
  let was := s.uncorrAt w
  let n0 := s.node (nodeKey 1 g)
  let t := s.settleWord w
  let n1 := t.node (nodeKey 1 g)
  let dc := (n1.corr + 2 ^ 32 - n0.corr) % 2 ^ 32
  let du := (n1.uncorr + 2 ^ 32 - n0.uncorr) % 2 ^ 32
  (((t.countReg R.SCRUB_SUM_CHECKED g 1).countReg R.SCRUB_SUM_CORRECTED g dc).countReg R.SCRUB_SUM_UNCORR g
    du).countReg R.SCRUB_SUM_REBUILT g (bit (was && du == 0))

/-- RANGE_PASS_WORD (R290): the range pass checks its next word, skipping gaps and the words of a domain that is off;
after the last word it ends. While every domain of the group is off it waits. -/
def execRangePassWord (g : Fin 43) (ups : List Upset) (s : State) : Host.Outcome State Fault Refusal :=
  let s := s.strike ups
  if s.get F.SCRUB_STATUS.RANGE_BUSY g.val = 0 ∨ s.groupOn g.val = false then .next s
  else
    let e := s.reg R.SCRUB_RANGE_END g.val % 2 ^ 22
    match nextWordAt (allPieces g.val) (s.grp g.val).rangePos with
    | none => .next (s.rangeEndPass g.val)
    | some o =>
      if e < o then .next (s.rangeEndPass g.val)
      else if s.wordBusy g.val o then .next s
      else
        let t := if s.wordOff g.val o then s else s.rangeCheck g.val o
        let t := t.setGrp g.val { t.grp g.val with rangePos := o + 1 }
        .next (if o = e then t.rangeEndPass g.val else t)

/-! ### Transparent background test (R291, R292) -/

/-- First word offset of the `n`-th 64-word row of a group. -/
def rowStart (g n : Nat) : Nat := nthWord (allPieces g) (64 * n)

/-- BIST_BLOCK_START (R291): the next block is checked with both codes and copied into the shadow. -/
def execBistBlockStart (g : Fin 43) (ups : List Upset) (s : State) : Host.Outcome State Fault Refusal :=
  let s := s.strike ups
  let gr := s.grp g.val
  let wait := max 1 (s.get F.ECC_BIST_CTRL.INTERVAL g.val) * 1000
  let o := rowStart g.val gr.bistPos
  if s.get F.ECC_BIST_CTRL.EN g.val = 0 ∨ gr.shadow.isSome ∨ (gr.bistEnd ≠ 0 ∧ s.now < gr.bistEnd - 1 + wait) ∨
      s.wordOff g.val o ∨ s.wordBusy g.val o = true then .next s
  else
    let t := (List.range 64).foldl (fun t k => t.settleWord (groupWord g.val (o + k))) s
    let t := t.setGrp g.val { t.grp g.val with shadow := some o }
    .next (t.put F.ECC_BIST_STATUS.BUSY g.val 1)

/-- Replaces the row at word offset `o` by the next free spare of its bank, with a log entry of the given SOURCE, or records that
none is left; a spare that served the row before is retired (R291, R292). -/
def State.repairRow (s : State) (g o source : Nat) : State :=
  let gr := s.grp g
  let bank := bankOf g (16 * o)
  let used := gr.spares.get 0 bank
  if used < 4 then
    let s := s.setGrp g { gr with
      spares := gr.spares.set 0 bank (used + 1), rowMap := gr.rowMap.set 0 o (used + 1)
      repairs := if gr.repairs.length < 16 then gr.repairs ++ [⟨o, used, source⟩] else gr.repairs }
    s.raise { code := 0x0303, sev := 0, source := srcBank g bank, detail := o }
  else
    (s.put F.ECC_BIST_STATUS.NO_SPARE g 1).raise { code := 0x0304, sev := 2, source := srcBank g bank, detail := o }

/-- The fuse map's repairs at a boot (R292): each row that no spare serves yet takes one, logged with SOURCE 0. -/
def State.fuseRepairs (s : State) : State :=
  s.sec.fuses.repairs.foldl (fun t x => if (t.grp x.1).rowMap.get 0 x.2 = 0 then t.repairRow x.1 x.2 0 else t) s

/-- BIST_BLOCK_END (R291): the March test of the block in the shadow passed, or failed and the row is repaired; the
shadow's words return either way. -/
def execBistBlockEnd (g : Fin 43) (pass : Bool) (s : State) : Host.Outcome State Fault Refusal :=
  let gr := s.grp g.val
  match gr.shadow with
  | none => .next s
  | some o =>
    let s := if pass then s else (s.put F.ECC_BIST_STATUS.FAIL g.val 1).repairRow g.val o 1
    let lap := !(64 * (gr.bistPos + 1) < allWords g.val)
    let s := s.setGrp g.val { s.grp g.val with
      shadow := none, bistEnd := s.now + 1, bistPos := if lap then 0 else gr.bistPos + 1 }
    let s := s.put F.ECC_BIST_STATUS.BUSY g.val 0
    .next (if lap then s.countReg R.ECC_BIST_LAPS g.val 1 else s)

/-! ### The counter tree (R286 to R288) -/

/-- Children of a node that is not a leaf. -/
def nodeChildren (level idx : Nat) : List Nat :=
  match level with
  | 1 => (List.range 256).map (fun b => nodeKey 0 (idx * 256 + b))
  | 2 => ((List.range 43).filter (fun g => groupQuad g == some idx)).map (nodeKey 1)
  | 3 => (List.range 4).map (nodeKey 2) ++ ((List.range 43).filter (fun g => (groupQuad g).isNone)).map (nodeKey 1)
  | _ => []

/-- Groups below a node. -/
def nodeGroups (level idx : Nat) : List Nat :=
  match level with
  | 1 => [idx]
  | 2 => (List.range 43).filter (fun g => groupQuad g == some idx)
  | 3 => List.range 43
  | _ => []

/-- A leaf below the node is STALE (R288). -/
def State.leafStale (s : State) (level idx : Nat) : Bool :=
  s.store.nodes.any (fun kv => kv.1 < 2 ^ 24 && kv.2.stale && (nodeGroups level idx).contains (kv.1 / 256))

/-- A leaf below the node is saturated (R287). -/
def State.leafSaturated (s : State) (level idx : Nat) : Bool :=
  s.store.nodes.any (fun kv => kv.1 < 2 ^ 24 && (kv.2.corr == 65535 || kv.2.uncorr == 65535) &&
    (nodeGroups level idx).contains (kv.1 / 256))

/-- Width of a node's counters. -/
def nodeWidth : Nat → Nat
  | 0 => 16 | 1 => 32 | 2 => 40 | _ => 48

/-- The Antler statistics counter `k` of an initiator, restarted from 0 (R148, R288). -/
def State.restartStat (s : State) (ep k : Nat) : State :=
  let s := s.put F.NOC_STAT_FLAGS.STALE ep 1
  match k with
  | 0 => s.setPair R.NOC_STAT_RD_LO R.NOC_STAT_RD_HI ep 0
  | 1 => s.setPair R.NOC_STAT_WR_LO R.NOC_STAT_WR_HI ep 0
  | 2 => s.setPair R.NOC_STAT_REQ_LO R.NOC_STAT_REQ_HI ep 0
  | 3 => s.setPair R.NOC_STAT_LAT_SUM_LO R.NOC_STAT_LAT_SUM_HI ep 0
  | 4 => s.setReg R.NOC_STAT_LAT_MAX ep 0
  | k => s.setReg R.NOC_STAT_HIST (ep * 8 + (k - 5) % 8) 0

/-- The copies of a node that is not a leaf disagree (R287): it is STALE and shows the copy whose parity holds, or 0 where neither's
does, which is a free choice. -/
def State.nodeFails (s : State) (key : Nat) : State :=
  let (k, s) := s.draw
  s.setNode key (if Config.copyGood k then { s.node key with stale := true }
    else { s.node key with corr := 0, uncorr := 0, stale := true })

/-- COUNTER_NODE_REBUILD (R287, R288): the two copies of a node disagree. A node that is not a leaf becomes STALE, and the next
such command rebuilds it from its children, which have gone on counting; only one rebuilt from a saturated leaf of its own becomes
PARTIAL. A leaf restarts from 0 and stays STALE. Level 4 names an Antler statistics counter: initiator
`idx mod 1024`, counter `idx div 1024`. -/
def execCounterNodeRebuild (level : Fin 5) (idx : Fin 16384) (s : State) : Host.Outcome State Fault Refusal :=
  let key := nodeKey level.val idx.val
  let told := s.raise { code := 0x0305, sev := 0, source := srcCounterTree, detail := key }
  if level.val = 4 then .next (told.restartStat (idx.val % 1024) (idx.val / 1024))
  else if level.val = 0 then .next (told.setNode key { stale := true })
  else if (s.node key).stale = false then .next (s.nodeFails key)
  else
    let kids := (nodeChildren level.val idx.val).map s.node
    let m := 2 ^ nodeWidth level.val
    .next (told.setNode key
      { corr := kids.foldl (fun a n => a + n.corr) 0 % m
        uncorr := kids.foldl (fun a n => a + n.uncorr) 0 % m
        stale := false
        partialCnt := (s.node key).partialCnt || (level.val == 1 && s.leafSaturated level.val idx.val) })

/-- Empties a group's table (R285). -/
def State.tblClear (s : State) (g : Nat) : State := s.setGrp g { s.grp g with tbl := [] }

/-- ECC_TBL_CLR (R294). -/
def execEccTblClr (acc : Accessor) (s : State) : Host.Outcome State Fault Refusal :=
  .next (s.ownedWrite acc 0 R.ECC_TBL_CLR 0 (fun g t => t.tblClear g))

/-- Zeroes every node and clears PARTIAL; a leaf's STALE stays (R288, R294). -/
def State.cntClear (s : State) : State :=
  { s with store := { s.store with nodes :=
    (s.store.nodes.filter (fun kv => kv.2.stale)).map (fun kv => (kv.1, { stale := true })) } }

/-- ECC_CNT_CLR (R294). -/
def execEccCntClr (acc : Accessor) (s : State) : Host.Outcome State Fault Refusal :=
  .next (s.ownedWrite acc 0 R.ECC_CNT_CLR 0 (fun _ t => t.cntClear))

end Sys2Proof.Machine
end

