-- ==== Sys2Proof/Machine/Tasks.lean ====
section
/-! DEFINITION. The dispatchers (R150 to R171): descriptors and their checks, the pool, signals, variants, the energy
account, the decision pass, preemption and completion. The commands are in Machine/Dispatcher.lean. -/

namespace Sys2Proof.Machine

/-! ### Descriptors (R151) -/

/-- Word `w` of a descriptor. -/
def dWord (d : BitVec 512) (w : Nat) : Nat := bitsOf d.toNat (32 * w) 32

/-- Field `[lo + n - 1 : lo]` of word `w`. -/
def dFld (d : BitVec 512) (w lo n : Nat) : Nat := bitsOf d.toNat (32 * w + lo) n

def dKind (d : BitVec 512) : Nat := dFld d 0 0 2
def dTarget (d : BitVec 512) : Nat := dFld d 0 2 2
def dCluster (d : BitVec 512) : Nat := dFld d 0 4 3
def dEtype (d : BitVec 512) : Nat := dFld d 0 8 4
def dPrio (d : BitVec 512) : Nat := dFld d 0 12 4
def dLate (d : BitVec 512) : Nat := dFld d 0 16 2
def dSlotRel (d : BitVec 512) : Bool := dFld d 0 18 1 == 1
def dSlotTmr (d : BitVec 512) : Nat := dFld d 0 19 3
def dDlEn (d : BitVec 512) : Bool := dFld d 0 22 1 == 1
def dNoPreempt (d : BitVec 512) : Bool := dFld d 0 23 1 == 1
def dDepCount (d : BitVec 512) : Nat := dFld d 0 24 8
def dTaskId (d : BitVec 512) : Nat := dFld d 1 0 14
def dCq (d : BitVec 512) : Nat := dFld d 1 16 4
def dCqEn (d : BitVec 512) : Bool := dFld d 1 20 1 == 1
def dWork (d : BitVec 512) : Nat := dFld d 6 0 24
def dEnergy (d : BitVec 512) : Nat := dFld d 7 0 16
/-- VAR_ADDR. -/
def dVar (d : BitVec 512) : Nat := dFld d 8 6 26 * 64 + dFld d 9 0 16 * 2 ^ 32
/-- ENTRY of a Tahr program. -/
def dEntry (d : BitVec 512) : Nat := dWord d 12
/-- Job address of an engine job, 64-byte aligned. -/
def dJob (d : BitVec 512) : Nat := dWord d 12 / 64 * 64 + dFld d 13 0 16 * 2 ^ 32
def dArg (d : BitVec 512) : Nat := dWord d 13
def dUser (d : BitVec 512) : Nat := bitsOf d.toNat (32 * 14) 64

/-- The TASK_ID that names no task. -/
def noId : Nat := 0x3FFF

/-- The identifiers a descriptor signals: quadrant and ID (R158). -/
def dSignals (d : BitVec 512) : List (Nat × Nat) :=
  [10, 11].flatMap (fun w => (List.range (dFld d w 16 6)).map (fun k => (dFld d w 14 2, (dFld d w 0 14 + k) % noId)))

/-- The descriptor with word `w` bits replaced. -/
def dSet (d : BitVec 512) (w lo n x : Nat) : BitVec 512 := BitVec.ofNat 512 (bitsSet d.toNat (32 * w + lo) n x)

/-- What a task takes from its variant (R162). -/
def dApply (d v : BitVec 512) : BitVec 512 :=
  let d := [(0, 0, 2), (0, 2, 2), (0, 4, 3), (0, 8, 4), (0, 16, 2), (0, 23, 1), (6, 0, 24), (7, 0, 16), (8, 6, 26),
    (9, 0, 16), (12, 0, 32), (13, 0, 32)].foldl (fun a (f : Nat × Nat × Nat) => dSet a f.1 f.2.1 f.2.2 (dFld v f.1 f.2.1 f.2.2)) d
  d

/-- Reserved bits of each word (R151). -/
def dReserved (d : BitVec 512) (w : Nat) : Bool :=
  match w with
  | 0 => dFld d 0 7 1 != 0
  | 1 => dFld d 1 14 2 != 0 || dFld d 1 21 11 != 0
  | 6 => dFld d 6 24 8 != 0
  | 7 => dFld d 7 16 16 != 0
  | 8 => dFld d 8 0 6 != 0
  | 9 => dFld d 9 16 16 != 0
  | 10 => dFld d 10 22 10 != 0
  | 11 => dFld d 11 22 10 != 0
  | 13 => dKind d == 1 && dFld d 13 16 16 != 0
  | _ => false

/-- Invalid values and the agreement of KIND with TARGET (R151, R152), all of word 0. -/
def dBadKind (d : BitVec 512) : Bool :=
  decide (2 ≤ dKind d) || dTarget d == 3 || dLate d == 3 || (dTarget d == 2 && decide (8 ≤ dEtype d)) ||
    (dKind d == 0 && dTarget d == 2) || (dKind d == 1 && dTarget d != 2)

/-- Word `w` of a descriptor fails a check of R152. -/
def dFails (ids : List Nat) (cqEn : Nat → Bool) (cap : Nat) (d : BitVec 512) (w : Nat) : Bool :=
  dReserved d w ||
  (match w with
   | 0 => dBadKind d
   | 1 => (dCqEn d && !cqEn (dCq d)) || (dTaskId d != noId && ids.contains (dTaskId d))
   | 5 => dSlotRel d && dWord d 5 != 0
   | 7 => decide (4 ≤ dPrio d) && decide (cap < dEnergy d)
   | 8 => dLate d == 1 && dVar d == 0
   | _ => false)

/-- First failing word (R152); none if the descriptor may be taken. -/
def dCheck (ids : List Nat) (cqEn : Nat → Bool) (cap : Nat) (d : BitVec 512) : Option Nat :=
  findBelow 16 (dFails ids cqEn cap d)

/-- A fetched variant fails R152 as R162 applies it. -/
def variantFails (prio cap : Nat) (v : BitVec 512) : Bool :=
  (List.range 16).any (dReserved v) || dBadKind v || (decide (4 ≤ prio) && decide (cap < dEnergy v))

/-! ### The dispatcher's record -/

/-- The dispatcher of quadrant `q`. -/
def State.dsp (s : State) (q : Nat) : Disp := s.disp.get {} q

/-- Sets it. -/
def State.setDsp (s : State) (q : Nat) (x : Disp) : State := { s with disp := s.disp.set {} q x }

/-- The pool entry with a handle. -/
def Disp.task? (x : Disp) (h : Nat) : Option Task := x.pool.find? (fun t => t.handle == h)

/-- Changes one pool entry. -/
def State.setTask (s : State) (q h : Nat) (f : Task → Task) : State :=
  s.setDsp q { s.dsp q with pool := (s.dsp q).pool.map (fun t => if t.handle = h then f t else t) }

/-- Entries in use: descriptors and fetched variants (R154, R162). -/
def Disp.used (x : Disp) : Nat := x.pool.foldl (fun a t => a + 1 + t.held) 0

/-- Free descriptors. -/
def Disp.free (x : Disp) : Nat := 4096 - x.used

/-- Signed 64-bit difference. -/
def diff64 (a b : Nat) : Int := toSigned 64 ((a + 2 ^ 64 - b % 2 ^ 64) % 2 ^ 64)

/-- TSK_ACCT_CAP in use (R173). -/
def State.acctCap (s : State) (q : Nat) : Nat := max 1 (s.get F.TSK_ACCT_CAP.UNITS q)

/-- The account (R163). -/
def State.acct (s : State) (q : Nat) : Int := toSigned 32 (s.reg R.TSK_ACCT q)

/-- Sets the account. -/
def State.setAcct (s : State) (q : Nat) (v : Int) : State := s.setReg R.TSK_ACCT q (ofSigned 32 v)

/-- A least tag that no request of an endpoint and no response on its way to it uses (R146). -/
def State.freshTag (s : State) (ep : Nat) : BitVec 10 :=
  BitVec.ofNat 10 ((findBelow 1024 (fun k => !(s.outstanding ep).any (fun o => o.tag.toNat == k) &&
    !s.net.packets.any (fun p => p.dest.toNat == ep && decide (8 ≤ p.cmd.toNat) && p.tag.toNat == k) &&
    !(s.net.wait.get [] ep).any (fun p => expectsResponse p.cmd.toNat && p.tag.toNat == k))).getD 0)

/-! ### Elements (R159)

Elements are numbered within the quadrant: 0 to 63 its cores, 64 + i engine i. -/

/-- ETYPE of engine `i` of a quadrant (R232). -/
def etypeOf (i : Nat) : Nat := engineType i

/-- The element class of a descriptor, lowest-numbered first. -/
def classOf (d : BitVec 512) : List Nat :=
  match dTarget d with
  | 0 => List.range 64
  | 1 => (List.range 8).map (fun j => 8 * dCluster d + j)
  | _ => ((List.range 26).filter (fun i => etypeOf i == dEtype d)).map (· + 64)

/-- Power domain of element `e`. -/
def elemDomain (q e : Nat) : Nat := if e < 64 then domCluster (8 * q + e / 8) else domEngine (26 * q + (e - 64))

/-- Reading of the pace sensor of engine `k`; 0 while the engine is in fault (R238). -/
def State.enginePace (s : State) (k : Nat) : Nat := if (s.engs.get {} k).fault then 0 else s.engPace.get 0 k

/-- Reading of the pace sensor of element `e`; 0 while its domain is off (R175). -/
def State.paceOf (s : State) (q e : Nat) : Nat :=
  if s.domState (elemDomain q e) ≠ 2 then 0
  else if e < 64 then s.get F.CL_PACE.PACE (8 * q + e / 8)
  else s.enginePace (26 * q + (e - 64))

/-- The element is halted by the debugger. -/
def State.elemHalted (s : State) (q e : Nat) : Bool := decide (e < 64) && s.isSet F.TC_STATE.HALTED (64 * q + e)

/-- Tasks running on an element, lower first. -/
def Disp.running (x : Disp) (e : Nat) : List Task :=
  x.pool.filter (fun t => t.st == .running && t.elem == e && !t.upper) ++
    x.pool.filter (fun t => t.st == .running && t.elem == e && t.upper)

/-- Element `e` is free (R159); a cluster in a CLUSTER reset takes no dispatch (R426). -/
def State.elemFree (s : State) (q e : Nat) : Bool :=
  ((s.dsp q).running e).isEmpty && s.domState (elemDomain q e) == 2 && !s.elemHalted q e &&
    !(s.dsp q).preempt.any (fun p => p.1 == e) && decide (0 < s.paceOf q e) &&
    (decide (64 ≤ e) || s.clReset.get 0 (8 * q + e / 8) == 0)

/-- The element R159 chooses for a descriptor. -/
def State.elementFor (s : State) (q : Nat) (d : BitVec 512) : Option Nat := (classOf d).find? (s.elemFree q)

/-- Estimated run time in ns on element `e` (R160). -/
def State.estimate (s : State) (q e : Nat) (d : BitVec 512) : Nat :=
  let p := max 1 (s.paceOf q e)
  (dWork d * 1024000 + p - 1) / p

/-- A task that starts at `start` and runs for its estimate ends after its deadline (R160). -/
def lateAt (t : Task) (start est : Nat) : Bool := dDlEn t.d && decide (0 < diff64 (start + est) t.deadline)

/-! ### Flags -/

/-- A READY task waits because an element of its class lies in a domain that is off (R159). -/
def State.offWait (s : State) (q : Nat) : Bool :=
  (s.dsp q).pool.any (fun t => t.st == .ready && (s.elementFor q t.d).isNone &&
    (classOf t.d).any (fun e => s.domState (elemDomain q e) == 0))

/-- Brings the live fields of TSK_STATUS, but for OFF_WAIT, which a read computes, TSK_POOL, TSK_READY_MASK and TSK_SIG_STATUS up to date. -/
def State.dispFlags (s : State) (q : Nat) : State :=
  let x := s.dsp q
  let ready := x.pool.filter (fun t => t.st == .ready)
  let s := (s.put F.TSK_STATUS.POOL_FULL q (bit (x.free == 0))).put F.TSK_STATUS.CQ_STALL q (bit (decide (64 ≤ x.cbuf.length)))
  let s := s.put F.TSK_STATUS.ENERGY_HOLD q (bit (ready.any (fun t => x.holding.contains t.handle)))
  let s := (s.put F.TSK_POOL.FREE q x.free).put F.TSK_POOL.DELAYED q (x.pool.filter (fun t => t.st == .delayed)).length
  (s.setReg R.TSK_READY_MASK q (ready.foldl (fun a t => a ||| 2 ^ dPrio t.d) 0)).put F.TSK_SIG_STATUS.PEND q x.pend.length

/-! ### Variants (R162) -/

/-- VAR_FAIL: set and recorded. -/
def State.varFail (s : State) (q : Nat) : State :=
  (s.put F.TSK_STATUS.VAR_FAIL q 1).raise { code := 0x0371, sev := 2, source := src 0x0B q }

/-- A descriptor may lie at `a`: packaged memory or a cluster scratchpad. -/
def descrPlace (a : Nat) : Bool :=
  match decodeAddr a with | .hbm _ => true | .scratch _ => true | _ => false

/-- Sends the READ of a wanted variant if the pool has a free entry for it. -/
def State.startFetch (s : State) (q h : Nat) : State :=
  match (s.dsp q).task? h with
  | none => s
  | some t =>
    match t.want, t.fetch with
    | some a, none =>
      if descrPlace a = false then (s.setTask q h (fun t => { t with want := none, dead := true })).varFail q
      else if (s.dsp q).free = 0 then s
      else
        let tag := s.freshTag (epDispatcher q)
        (s.setTask q h (fun t => { t with fetch := some tag, held := t.held + 1 })).inject
          { src := BitVec.ofNat 10 (epDispatcher q), cmd := 0, vc := 0, tag := tag, len := 3, addr := BitVec.ofNat 48 a }
    | _, _ => s

/-- Fetches that wait for a pool entry, in the order their primaries became READY. -/
def State.resumeFetches (s : State) (q : Nat) : State :=
  ((s.dsp q).pool.filter (fun t => t.want.isSome && t.fetch.isNone)).foldl (fun u t => u.startFetch q t.handle) s

/-- The variant entries of a task are freed with it. -/
def State.freeVariants (s : State) (q h : Nat) : State :=
  s.setTask q h (fun t => { t with vars := [], want := none, fetch := none, held := 0 })

/-- The variant to be fetched next: that of the last one fetched, or of the task itself, up to the three replacements one
decision can make (R160). -/
def Task.wanted (t : Task) : Option Nat :=
  let a := dVar (t.vars.getLast?.getD t.d)
  if a = 0 ∨ t.dead = true ∨ 3 ≤ t.vars.length then none else some a

/-- Asks for the next variant of a READY task's chain, unless one is on its way. -/
def State.wantVariant (s : State) (q h : Nat) : State :=
  (s.setTask q h (fun t => if t.fetch.isSome then t else { t with want := t.wanted })).startFetch q h

/-- A task becomes READY, and its variants are fetched. -/
def State.makeReady (s : State) (q h : Nat) : State :=
  let n := (s.dsp q).nextReady
  let s := s.setTask q h (fun t => { t with st := .ready, readyAt := n })
  (s.setDsp q { s.dsp q with nextReady := n + 1 }).wantVariant q h

/-- The response to a variant's READ: it is checked and taken, or fails (R162); then its own variant is fetched. -/
def State.fetchDone (s : State) (q : Nat) (t : Task) (p : Packet) : State :=
  let v := BitVec.ofNat 512 (leValue (unitBytes p.data 0 64))
  if p.cmd.toNat ≠ cmdReadRsp ∨ pktPoison p = true ∨ variantFails (dPrio t.d) (s.acctCap q) v = true then
    (s.setTask q t.handle (fun t => { t with want := none, fetch := none, held := t.held - 1, dead := true })).varFail q
  else (s.setTask q t.handle (fun t => { t with fetch := none, vars := t.vars ++ [v] })).wantVariant q t.handle

/-- `t = variant(t)` (R160, R162). -/
def State.replaceTask (s : State) (q h : Nat) : State :=
  ((s.setTask q h (fun t =>
    match t.vars with
    | v :: r => { t with d := dApply t.d v, vars := r, depth := t.depth + 1 }
    | [] => t)).wantVariant q h).countReg R.TSK_VARIANTS q 1

/-! ### Signals (R158) -/

/-- A signal with identifier `id` at dispatcher `q`. -/
def State.signal (s : State) (q id : Nat) : State :=
  let x := s.dsp q
  if id = noId then s.count F.TSK_SIG_STATUS.EXTRA q 1
  else
    match x.pool.find? (fun t => dTaskId t.d == id) with
    | some t =>
      if t.st = .running ∨ t.count = 0 then s.count F.TSK_SIG_STATUS.EXTRA q 1
      else
        let s := s.setTask q t.handle (fun t => { t with count := t.count - 1 })
        if t.count = 1 ∧ t.st = .depWait then s.makeReady q t.handle else s
    | none =>
      if x.pend.length < 256 then s.setDsp q { x with pend := x.pend ++ [id] }
      else ((s.count F.TSK_SIG_STATUS.LOST q 1).put F.TSK_STATUS.SIG_LOST q 1).raise
        { code := 0x0370, sev := 2, source := src 0x0B q, detail := id }

/-- Sends a completing task's signals; those to another quadrant travel. -/
def State.sendSignals (s : State) (q : Nat) (d : BitVec 512) : State :=
  (dSignals d).foldl (fun u (w : Nat × Nat) =>
    if w.1 = q then u.signal q w.2
    else u.setDsp w.1 { u.dsp w.1 with signals := (u.dsp w.1).signals ++ [w.2] }) s

/-! ### Completion queues (R169, R170) -/

/-- Key of queue `n` of quadrant `q`. -/
def cqKey (q n : Nat) : Nat := 16 * q + n

/-- Base of a queue. -/
def State.cqBase (s : State) (k : Nat) : Nat :=
  s.reg R.TSK_CQ_BASE_LO k / 64 * 64 + s.get F.TSK_CQ_BASE_HI.ADDR k * 2 ^ 32

/-- Entries of a queue. -/
def State.cqLen (s : State) (k : Nat) : Nat := 2 ^ s.get F.TSK_CQ_BASE_HI.SIZE k

/-- Entries between CONS and PROD. -/
def State.cqFill (s : State) (k : Nat) : Nat :=
  (s.get F.TSK_CQ_IDX.PROD k + 2 ^ 16 - s.get F.TSK_CQ_IDX.CONS k) % 2 ^ 16

/-- Brings TSK_CQ_CFG.FULL up to date. -/
def State.cqFull (s : State) (k : Nat) : State := s.put F.TSK_CQ_CFG.FULL k (bit (s.cqFill k == s.cqLen k))

/-- Writes of a queue in progress. -/
def Disp.cqWrites (x : Disp) (n : Nat) : List CqWrite := x.writes.filter (fun w => w.queue == n)

/-- Sends the write of one entry. -/
def State.cqSend (s : State) (q n : Nat) (e : BitVec 256) : State :=
  let k := cqKey q n
  let tag := s.freshTag (epDispatcher q)
  let slot := (s.get F.TSK_CQ_IDX.PROD k + ((s.dsp q).cqWrites n).length) % s.cqLen k
  (s.setDsp q { s.dsp q with writes := (s.dsp q).writes ++ [{ queue := n, tag := tag, done := false }] }).inject
    { src := BitVec.ofNat 10 (epDispatcher q), cmd := 1, vc := 0, tag := tag, len := 1
      addr := BitVec.ofNat 48 (s.cqBase k + 32 * slot)
      data := [⟨e.truncate 128, false⟩, ⟨(e >>> 128).truncate 128, false⟩] }

/-- Writes what the completion buffer holds: entries of a disabled queue are discarded, those of a full queue stay, and
with them the later ones of that queue. -/
def State.cqPumpList (q : Nat) : List (Nat × BitVec 256) → List Nat → State → List (Nat × BitVec 256) →
    State × List (Nat × BitVec 256)
  | [], _, s, kept => (s, kept)
  | (n, e) :: r, full, s, kept =>
    let k := cqKey q n
    if s.isSet F.TSK_CQ_CFG.EN k = false then State.cqPumpList q r full s kept
    else if full.contains n || decide (s.cqLen k ≤ s.cqFill k + ((s.dsp q).cqWrites n).length) then
      State.cqPumpList q r (n :: full) s (kept ++ [(n, e)])
    else State.cqPumpList q r full (s.cqSend q n e) kept

/-- Runs the completion buffer of quadrant `q`. -/
def State.cqPump (s : State) (q : Nat) : State :=
  let (t, kept) := State.cqPumpList q (s.dsp q).cbuf [] s []
  let t := (List.range 16).foldl (fun u n => u.cqFull (cqKey q n)) t
  t.setDsp q { t.dsp q with cbuf := kept }

/-- The 32-byte completion entry (R168). ELEMENT, ENGINE, DETAIL and RUNTIME of a task that ended DROPPED or FLUSHED without
having run are 0 (DESIGN CHOICE, log 109: R168 gives them no value). -/
def State.completionEntry (s : State) (q : Nat) (t : Task) (status detail : Nat) (late : Bool) : BitVec 256 :=
  let ran := t.st == .running && t.elem < 90
  let w0 := dTaskId t.d + q * 2 ^ 14 + status * 2 ^ 16 + bit (ran && decide (0 < t.depth)) * 2 ^ 20 + bit t.risk * 2 ^ 21 +
    bit t.preempted * 2 ^ 22 + bit late * 2 ^ 23
  let el := if t.elem < 64 then 64 * q + t.elem else 26 * q + (t.elem - 64) + 256
  let w1 := if ran then el + detail % 65536 * 2 ^ 16 else 0
  let rt := if ran then min (s.now - t.at64) (2 ^ 32 - 1) else 0
  BitVec.ofNat 256 (w0 + w1 * 2 ^ 32 + s.now * 2 ^ 64 + dUser t.d * 2 ^ 128 + rt * 2 ^ 192)

/-- Posts a completion entry, if CQ_EN is set and the queue is enabled. -/
def State.post (s : State) (q : Nat) (t : Task) (status detail : Nat) (late : Bool) : State :=
  if dCqEn t.d && s.isSet F.TSK_CQ_CFG.EN (cqKey q (dCq t.d)) then
    (s.setDsp q { s.dsp q with
      cbuf := (s.dsp q).cbuf ++ [(dCq t.d, s.completionEntry q t status detail late)] }).cqPump q
  else s

/-! ### Preemption (R166) -/

/-- Withdraws the preemption pending at element `e` of quadrant `q`. -/
def State.withdraw (s : State) (q e : Nat) : State :=
  if (s.dsp q).preempt.any (fun p => p.1 == e) then
    (s.setDsp q { s.dsp q with preempt := (s.dsp q).preempt.filter (fun p => p.1 != e) }).coreIrqClear (64 * q + e) 0
  else s

/-- The core a READY task of a descriptor may preempt (R166): the numerically highest priority, the lowest number. -/
def State.victim (s : State) (q : Nat) (d : BitVec 512) : Option Nat :=
  if s.isSet F.TSK_CTRL.PREEMPT_EN q = false ∨ dKind d ≠ 0 ∨ s.get F.TSK_PREEMPT.PMAX q < dPrio d then none
  else
    ((classOf d).foldl (fun (best : Option (Nat × Nat)) e =>
      match (s.dsp q).running e with
      | [low] =>
        if (s.dsp q).preempt.any (fun p => p.1 == e) || s.elemHalted q e || low.upper || dNoPreempt low.d ||
            decide (dPrio low.d ≤ (match best with | some b => b.2 | none => dPrio d)) then best
        else some (e, dPrio low.d)
      | _ => best) none).map (·.1)

/-- The element for a task: a free one, or a core to preempt. -/
def State.pick (s : State) (q : Nat) (d : BitVec 512) : Option (Nat × Bool) :=
  match s.elementFor q d with
  | some e => some (e, false)
  | none => (s.victim q d).map (fun e => (e, true))

/-! ### Ending a task (R168) -/

/-- A task ends with a status: its signals, its completion entry, its pool entry. -/
def State.completeTask (s : State) (q h status detail : Nat) : State :=
  match (s.dsp q).task? h with
  | none => s
  | some t =>
    let late := dDlEn t.d && t.fixed && decide (0 < diff64 s.now t.deadline)
    let s := if late then s.countReg R.TSK_LATE_DONE q 1 else s
    -- while it sends its signals the task takes none (R158)
    let s := (s.freeVariants q h).setTask q h (fun t => { t with st := .running })
    let s := (s.sendSignals q t.d).post q t status detail late
    s.setDsp q { s.dsp q with pool := (s.dsp q).pool.filter (fun t => t.handle != h) }

/-! ### Intake (R152 to R156) -/

/-- Resolves a SLOT_WAIT task against its timer's last slot-start event (R156). -/
def State.resolveSlot (s : State) (q h : Nat) : State :=
  match (s.dsp q).task? h with
  | none => s
  | some t =>
    match (s.dsp q).slots.get none (dSlotTmr t.d) with
    | none => s
    | some (count, last, _) =>
      let d := toSigned 32 ((dWord t.d 3 + 2 ^ 32 - count % 2 ^ 32) % 2 ^ 32)
      if t.st ≠ .slotWait ∨ 0 < d then s
      else
        let s := s.setTask q h (fun t =>
          { t with st := .delayed, fixed := true, release := (last + dWord t.d 2) % 2 ^ 64
                   deadline := (last + dWord t.d 4) % 2 ^ 64 })
        if d < 0 then s.put F.TSK_STATUS.SLOT_PAST q 1 else s

/-- Puts a checked descriptor into the pool and its first state (R155, R158). -/
def State.takeTask (s : State) (q : Nat) (d : BitVec 512) : State :=
  let x := s.dsp q
  let h := x.nextHandle
  let hits := if dTaskId d = noId then 0 else (x.pend.filter (· == dTaskId d)).length
  let rel := bitsOf d.toNat 64 64
  let t : Task := { handle := h, d := d, st := .slotWait, count := dDepCount d - hits
                    release := if dSlotRel d then 0 else rel
                    deadline := if dSlotRel d then 0 else bitsOf d.toNat 128 64, fixed := !dSlotRel d }
  let s := s.setDsp q { x with pool := x.pool ++ [t], nextHandle := h + 1
                               pend := if dTaskId d = noId then x.pend else x.pend.filter (· != dTaskId d) }
  let s := s.count F.TSK_SIG_STATUS.EXTRA q (hits - dDepCount d)
  if dSlotRel d then s.resolveSlot q h
  else if diff64 s.now rel < 0 then s.setTask q h (fun t => { t with st := .delayed })
  else if 0 < t.count then s.setTask q h (fun t => { t with st := .depWait })
  else s.makeReady q h

/-- The first failing word of a descriptor at quadrant `q`. -/
def State.checkTask (s : State) (q : Nat) (d : BitVec 512) : Option Nat :=
  dCheck ((s.dsp q).pool.map (fun t => dTaskId t.d)) (fun n => s.isSet F.TSK_CQ_CFG.EN (cqKey q n)) (s.acctCap q) d

/-- Takes or refuses one TSK_SUBMIT_GO descriptor, and answers the write then (R153). -/
def State.takeGo (s : State) (q : Nat) (w : Waiting) : State :=
  let s := match w.via.answer with | some a => s.regAnswer a 0 | none => s
  match s.checkTask q w.d with
  | none => s.takeTask q w.d
  | some bad =>
    let s := s.put F.TSK_STATUS.SUB_REJ q 1
    match w.via.poster with
    | some ep => s.raiseAt (.coll q) { code := 3, sev := 2, source := src 0x12 ep, detail := bad }
    | none => s

/-- Lets in what waits for pool entries: variant fetches first, then held GO writes, in order (R154, R162). -/
def State.intake (s : State) (q : Nat) : Nat → State
  | 0 => s
  | fuel + 1 =>
    let s := s.resumeFetches q
    match (s.dsp q).ingress with
    | [] => s
    | w :: r =>
      if (s.dsp q).free = 0 then s
      else ((s.setDsp q { s.dsp q with ingress := r }).takeGo q w).intake q fuel

/-! ### Decisions (R160, R161, R165) -/

/-- Sends a task to element `e` and charges it (R163). -/
def State.dispatchTask (s : State) (q h e : Nat) (upper : Bool) : State :=
  match (s.dsp q).task? h with
  | none => s
  | some t =>
    let s := (s.freeVariants q h).setTask q h (fun t => { t with st := .running, elem := e, at64 := s.now, upper := upper })
    let a := s.acct q - (dEnergy t.d : Int)
    let s := if a < -((2 ^ 31 : Nat) : Int) then (s.setAcct q (-((2 ^ 31 : Nat) : Int))).put F.TSK_STATUS.ACCT_SAT q 1
      else s.setAcct q a
    let s := s.setPair R.TSK_DISPATCHED_LO R.TSK_DISPATCHED_HI q
      ((s.pair R.TSK_DISPATCHED_LO R.TSK_DISPATCHED_HI q + 1) % 2 ^ 64)
    if upper then s else s.setDsp q { s.dsp q with sent := (s.dsp q).sent ++ [(e, h)] }

/-- DISPATCH of R160 onto a free element, or the preempt interrupt of R166. -/
def State.launchTask (s : State) (q h : Nat) (el : Nat × Bool) : State :=
  if el.2 then
    (s.setDsp q { s.dsp q with preempt := (s.dsp q).preempt ++ [(el.1, h, s.now)] }).coreIrq (64 * q + el.1) 0
  else s.dispatchTask q h el.1 false

/-- NS64 of the `k`-th coming tick (R165). -/
def State.comingTick (s : State) (q k : Nat) : Nat :=
  let n := max 1 (s.get F.TSK_TICK.NS q)
  (s.now / n + k) * n

/-- The element of the variant `energy_swap` chooses (R165); none if it declines. -/
def State.energySwap (s : State) (q e : Nat) (t : Task) : Option Nat :=
  match t.vars with
  | [] => none
  | v :: _ =>
    let a := s.get F.TSK_ALLOW_LAST.ALLOW q
    let need := ((dEnergy t.d : Int) - s.acct q).toNat
    let waitLate := a = 0 ∨ lateAt t (s.comingTick q ((need + a - 1) / a)) (s.estimate q e t.d) = true
    if dDlEn t.d = false ∨ ¬ waitLate ∨ s.acct q < (dEnergy v : Int) then none
    else
      match s.elementFor q (dApply t.d v) with
      | none => none
      | some ve => if lateAt t s.now (s.estimate q ve v) then none else some ve

/-- `decide` of R160: answers whether the task is held. With `fuel + 1` its depth is 3 - `fuel`. -/
def State.decideTask (s : State) (q h : Nat) : Nat → Nat × Bool → Bool × State
  | 0, _ => (false, s)
  | fuel + 1, el =>
    match (s.dsp q).task? h with
    | none => (false, s)
    | some t =>
      let late := lateAt t s.now (s.estimate q el.1 t.d)
      let s := if late then (s.countReg R.TSK_LATE_RISK q 1).setTask q h (fun t => { t with risk := true }) else s
      if late ∧ dLate t.d = 2 then
        (false, ((s.freeVariants q h).countReg R.TSK_DROPS q 1).completeTask q h 1 0)
      else if late ∧ dLate t.d = 1 ∧ t.vars ≠ [] ∧ 0 < fuel then
        let s := s.replaceTask q h
        match ((s.dsp q).task? h).bind (fun t => s.pick q t.d) with
        | none => (false, s)
        | some el => s.decideTask q h fuel el
      else if dPrio t.d ≤ 3 ∨ (dEnergy t.d : Int) ≤ s.acct q then (false, s.launchTask q h el)
      else
        match s.energySwap q el.1 t with
        | some ve => (false, (s.replaceTask q h).launchTask q h (ve, false))
        | none => (true, s)

/-- Insertion into a list kept in order by `le`. -/
def insertBy {α : Type} (le : α → α → Bool) (a : α) : List α → List α
  | [] => [a]
  | b :: r => if le a b then a :: b :: r else b :: insertBy le a r

/-- Stable insertion sort. -/
def sortBy {α : Type} (le : α → α → Bool) (l : List α) : List α := l.foldr (insertBy le) []

/-- READY tasks in the order of R160. -/
def Disp.readyOrder (x : Disp) : List Nat :=
  (sortBy (fun (a b : Task) => decide (dPrio a.d < dPrio b.d) || (dPrio a.d == dPrio b.d && decide (a.readyAt ≤ b.readyAt)))
    (x.pool.filter (fun t => t.st == .ready))).map (·.handle)

/-- The walk of a decision pass; `held`: the tasks held so far, with their priorities. -/
def State.passList (q : Nat) : List Nat → List (Nat × Nat) → State → List (Nat × Nat) × State
  | [], held, s => (held, s)
  | h :: r, held, s =>
    match (s.dsp q).task? h with
    | none => State.passList q r held s
    | some t =>
      let stop := held.any (fun p => decide (p.2 < dPrio t.d)) && !s.isSet F.TSK_CTRL.ENERGY_ORDER q
      if stop || decide (64 ≤ (s.dsp q).cbuf.length) then (held, s)
      else if t.st ≠ .ready ∨ (s.dsp q).preempt.any (fun p => p.2.1 == h) = true then State.passList q r held s
      else
        match s.pick q t.d with
        | none => State.passList q r held s
        | some el =>
          let (hold, s) := s.decideTask q h 4 el
          State.passList q r (if hold then held ++ [(h, dPrio t.d)] else held) s

/-- New dispatches are let through: EN, room in the completion buffer, no device state that holds dispatch (R170, R173,
R390). -/
def State.mayDispatch (s : State) (q : Nat) : Bool :=
  s.isSet F.TSK_CTRL.EN q && decide ((s.dsp q).cbuf.length < 64) && !s.power.hold

/-- One decision pass (R160). Where nothing may be dispatched no pass runs at all, so that nothing is judged, dropped or
replaced either (DESIGN CHOICE, log 101: the spec says only that nothing is dispatched). -/
def State.pass (s : State) (q : Nat) : State :=
  if s.mayDispatch q then
    let (held, s) := State.passList q (s.dsp q).readyOrder [] s
    s.setDsp q { s.dsp q with holding := held.map (·.1) }
  else s

/-- Passes until the last one has made no task READY and left the account as it was (R160). -/
def State.passes (s : State) (q : Nat) : Nat → State
  | 0 => s
  | fuel + 1 =>
    let n := (s.dsp q).nextReady
    let a := s.acct q
    let s := ((s.intake q 5000).pass q).intake q 5000
    if (s.dsp q).nextReady = n ∧ s.acct q = a then s else s.passes q fuel

/-- What a trigger of R160 does: intake, decision passes and the live flags. -/
def State.redecide (s : State) (q : Nat) : State :=
  let s := s.setDsp q { s.dsp q with due := false }
  ((s.passes q (2 * (s.dsp q).pool.length + (s.dsp q).ingress.length + 2)).intake q 5000).dispFlags q

/-- A decision pass that is due. -/
def State.redecideDue (s : State) (q : Nat) : State := if (s.dsp q).due then s.redecide q else s

/-- Runs the triggers of R160 that `f` set off: a task that became READY. -/
def State.afterReady (s t : State) (q : Nat) : State :=
  if (s.dsp q).nextReady = (t.dsp q).nextReady then (t.intake q 5000).dispFlags q else t.redecide q

end Sys2Proof.Machine
end

