-- ==== Sys2Proof/Machine/Dispatcher.lean ====
section
/-! DEFINITION. The dispatcher's commands (R150 to R173): submissions, ticks, signals, task links, completion queues
and the TSK registers with behaviour of their own. -/

namespace Sys2Proof.Machine

/-- The quadrant whose dispatcher is at an endpoint. -/
def quadOfDispatcher (ep : Nat) : Option Nat := findBelow 4 (fun q => epDispatcher q == ep)

/-! ### Submissions (R153, R154) -/

/-- A SUBMIT that has reached dispatcher `q` (R152, R153). -/
def State.takeSubmit (s : State) (q : Nat) (p : Packet) : State :=
  let d := BitVec.ofNat 512 (leValue (unitBytes p.data 0 64))
  if pktPoison p then
    (s.respondError p 0xD).raise { code := 0xD, sev := 2, source := src 0x0B q, addr := some p.addr.toNat, tgt := true
                                   req := some p.src.toNat }
  else
    match s.checkTask q d with
    | some bad => s.respondError p (3 + bad * 2 ^ 16)
    | none => s.afterReady ((s.takeTask q d).respondDone p) q

/-- SUBMIT (R153): the packet waits in the network while the pool is full. -/
def execSubmit (p : Packet) (s : State) : Host.Outcome State Fault Refusal :=
  match quadOfDispatcher p.dest.toNat with
  | none => .next s
  | some q =>
    if p.cmd.toNat = cmdSubmit ∧ s.arrives p = true ∧ (s.dsp q).free ≠ 0 ∧ (s.dsp q).ingress = [] then
      .next ((s.takePacket p).takeSubmit q p)
    else .next s

/-- The 16 words an accessor has staged (R153). -/
def State.staged (s : State) (a : Accessor) : BitVec 512 :=
  BitVec.ofNat 512 ((List.range 16).foldl (fun v w => v + s.reg R.TSK_SUBMIT (accId a * 16 + w) * 2 ^ (32 * w)) 0)

/-- How TSK_SUBMIT_GO comes from an accessor: posted from the host, as PCIe writes are, else answered (R153). -/
def goVia (a : Accessor) : WriteVia :=
  if a == .host0 || a == .host1 then { poster := some (epPcie 0) } else { answer := some a }

/-- A write of 1 to TSK_SUBMIT_GO that reaches dispatcher `q` (R153). -/
def State.submitGo (s : State) (a : Accessor) (via : WriteVia) (q : Nat) : State :=
  let u := s.setDsp q { s.dsp q with ingress := (s.dsp q).ingress ++ [{ d := s.staged a, via := via }] }
  s.afterReady (u.intake q 5000) q

/-- TSK_SUBMIT_GO (R153). -/
def execTskSubmitGo (acc : Accessor) (v : Word) (s : State) : Host.Outcome State Fault Refusal :=
  .next (s.ownedWrite acc 0 R.TSK_SUBMIT_GO 0 (fun q t => if bitAt v.toNat 0 then t.submitGo acc (goVia acc) q else t))

/-! ### Ticks (R157, R163) -/

/-- GOV_SHARE of quadrant `q` in percent. -/
def State.govShare (s : State) (q : Nat) : Nat := bitsOf (s.reg R.GOV_SHARE 0) (8 * q) 8

/-- GOV_HEAT_SCALE in use (R404). -/
def State.heatScale (s : State) : Nat := min 1024 (max 1 (s.get F.GOV_HEAT_SCALE.SCALE 0))

/-- The governor's allowance at a tick of quadrant `q` and whether heat scaled it (R399). -/
def State.allowance (s : State) (q : Nat) : Option (Nat × Bool) :=
  if s.isSet F.GOV_CTRL.EN 0 then
    let a := s.get F.GOV_BUDGET.W 0 * s.govShare q * s.get F.TSK_TICK.NS q * 4 / 100000
    if s.isSet F.GOV_Q_STATE.HOT q then some (a * s.heatScale / 1024, true) else some (a, false)
  else none

/-- Adds the tick's allowance to the account, within its cap (R163). -/
def State.creditAccount (s : State) (q : Nat) : State :=
  let cap : Int := s.acctCap q
  match s.allowance q with
  | none => s.setAcct q (min (s.acct q) cap)
  | some (a, hot) =>
    let s := s.setAcct q (min (s.acct q + a) cap)
    ((s.put F.TSK_ALLOW_LAST.ALLOW q a).put F.TSK_ALLOW_LAST.HOT q (bit hot)).put F.TSK_STATUS.NO_ALLOW q 0

/-- Delay-list entries in list order (R157). -/
def Disp.delayList (x : Disp) : List Task :=
  sortBy (fun (a b : Task) => decide (a.release < b.release) || (a.release == b.release && decide (a.handle ≤ b.handle)))
    (x.pool.filter (fun t => t.st == .delayed))

/-- Releases every entry due at tick `m` (R155, R157). -/
def State.releaseDue (s : State) (q m : Nat) : State :=
  (s.dsp q).delayList.foldl (fun u t =>
    if diff64 m t.release < 0 then u
    else if 0 < t.count then u.setTask q t.handle (fun t => { t with st := .depWait })
    else u.makeReady q t.handle) s

/-- DISPATCH_TICK (R157): at the latest tick not yet processed. -/
def execDispatchTick (q : Fin 4) (s : State) : Host.Outcome State Fault Refusal :=
  let n := max 1 (s.get F.TSK_TICK.NS q.val)
  let m := s.now / n * n
  if m + 1 ≤ (s.dsp q.val).lastTick then .next s
  else
    let s := s.setDsp q.val { s.dsp q.val with lastTick := m + 1 }
    .next (((s.creditAccount q.val).releaseDue q.val m).redecide q.val)

/-- SLOT_START (R92, R156): the event of timer `n` reaches every dispatcher. -/
def execSlotStart (n : Fin 8) (s : State) : Host.Outcome State Fault Refusal :=
  if s.slotDue n.val = false then .next s
  else
    let (resync, t) := s.slotFire n.val
    let ev := (t.reg R.SLOT_TMR_COUNT n.val, t.pair R.SLOT_TMR_LAST_LO R.SLOT_TMR_LAST_HI n.val, resync)
    .next ((List.range 4).foldl (fun u q =>
      let u := u.setDsp q { u.dsp q with slots := (u.dsp q).slots.set none n.val (some ev) }
      (((u.dsp q).pool.filter (fun t => dSlotTmr t.d == n.val && t.st == .slotWait)).foldl
        (fun u t => u.resolveSlot q t.handle) u).dispFlags q) t)

/-! ### Signals (R158) -/

/-- TSK_SIGNAL (R158). -/
def execTskSignal (acc : Accessor) (v : Word) (s : State) : Host.Outcome State Fault Refusal :=
  .next (s.ownedWrite acc 0 R.TSK_SIGNAL 0 (fun q t => t.afterReady (t.signal q (v.toNat % 2 ^ 14)) q))

/-- SIGNAL_ARRIVAL (R158): the oldest signal on its way to dispatcher `q`. -/
def execSignalArrival (q : Fin 4) (s : State) : Host.Outcome State Fault Refusal :=
  match (s.dsp q.val).signals with
  | [] => .next s
  | id :: r =>
    let t := s.setDsp q.val { s.dsp q.val with signals := r }
    .next (t.afterReady (t.signal q.val id) q.val)

/-! ### Task links (R150) -/

/-- TASK_DELIVERY (R150): the oldest descriptor on the task links of quadrant `q` reaches its element. -/
def execTaskDelivery (q : Fin 4) (s : State) : Host.Outcome State Fault Refusal :=
  match (s.dsp q.val).sent with
  | [] => .next s
  | (e, h) :: r =>
    let s := s.setDsp q.val { s.dsp q.val with sent := r }
    match (s.dsp q.val).task? h with
    | none => .next s
    | some t =>
      let x : Held := { handle := h, d := t.d }
      if e < 64 then
        let n := 64 * q.val + e
        .next { s with cores := s.cores.set {} n { s.cores.get {} n with arrived := some x } }
      else .next { s with engIn := s.engIn.set none (26 * q.val + (e - 64)) (some x) }

/-- The dispatcher's side of a task's end (R166 to R168): its completion, the withdrawal of a preemption of its core if
the core now holds no task, and a decision pass for the freed element. -/
def State.takeEnd (s : State) (q : Nat) (r : EndReport) : State :=
  match (s.dsp q).task? r.handle with
  | none => s
  | some t =>
    let s := s.completeTask q r.handle r.status r.detail
    (if ((s.dsp q).running t.elem).isEmpty then s.withdraw q t.elem else s).redecide q

/-- TASK_END (R168): the oldest report on the task links of quadrant `q`. -/
def execTaskEnd (q : Fin 4) (s : State) : Host.Outcome State Fault Refusal :=
  match (s.dsp q.val).ends with
  | [] => .next s
  | r :: rest => .next ((s.setDsp q.val { s.dsp q.val with ends := rest }).takeEnd q.val r)

/-- An element reports the end of a task on its task link (R150). -/
def State.reportEnd (s : State) (q h status detail : Nat) : State :=
  s.setDsp q { s.dsp q with ends := (s.dsp q).ends ++ [{ handle := h, status := status, detail := detail }] }

/-- PREEMPT_TIMEOUT (R166): the preemption pending at core `k` of quadrant `q` for TMO_US is withdrawn. -/
def execPreemptTimeout (q : Fin 4) (k : Fin 64) (s : State) : Host.Outcome State Fault Refusal :=
  match (s.dsp q.val).preempt.find? (fun p => p.1 == k.val) with
  | none => .next s
  | some p =>
    if s.now < p.2.2 + 1000 * max 1 (s.get F.TSK_PREEMPT.TMO_US q.val) then .next s
    else .next ((s.withdraw q.val k.val).count F.TSK_PREEMPT_CNT.TMO q.val 1)

/-! ### Responses to the dispatcher -/

/-- VARIANT_FETCH_COMPLETE (R162). -/
def execVariantFetchComplete (p : Packet) (s : State) : Host.Outcome State Fault Refusal :=
  match quadOfDispatcher p.dest.toNat with
  | none => .next s
  | some q =>
    match (s.dsp q).pool.find? (fun t => t.fetch == some p.tag) with
    | none => .next s
    | some t =>
      if s.arrives p && decide (8 ≤ p.cmd.toNat) then
        let u := (s.takeResponse p).fetchDone q t p
        .next (s.afterReady u q)
      else .next s

/-- Sends the queue's vector, at most once per µs (R169). -/
def State.cqMsi (s : State) (k : Nat) : State :=
  let q := k / 16
  let v := s.get F.TSK_CQ_CFG.VECTOR k
  let lastM := (s.dsp q).cqIrq.get 0 (k % 16)
  if v = 0 ∨ (lastM ≠ 0 ∧ s.now < lastM - 1 + 1000) then s
  else (s.setDsp q { s.dsp q with cqIrq := (s.dsp q).cqIrq.set 0 (k % 16) (s.now + 1) }).msix 0 v

/-- Advances PROD over the queue's leading written entries (R169). -/
def State.cqAdvance (s : State) (q n : Nat) : Nat → State
  | 0 => s
  | fuel + 1 =>
    match (s.dsp q).cqWrites n with
    | w :: _ =>
      if w.done then
        let k := cqKey q n
        let s := s.setDsp q { s.dsp q with writes := (s.dsp q).writes.erase w }
        ((s.put F.TSK_CQ_IDX.PROD k (s.get F.TSK_CQ_IDX.PROD k + 1)).cqMsi k).cqAdvance q n fuel
      else s
    | [] => s

/-- The response to an entry's write: PROD advances, or the queue is disabled (R169, R170). -/
def State.cqWritten (s : State) (q : Nat) (w : CqWrite) (p : Packet) : State :=
  let k := cqKey q w.queue
  let x := s.dsp q
  if p.cmd.toNat = cmdErrorRsp then
    let s := s.setDsp q { x with writes := x.writes.filter (fun v => v.queue != w.queue)
                                 cbuf := x.cbuf.filter (fun e => e.1 != w.queue) }
    ((s.put F.TSK_CQ_CFG.EN k 0).put F.TSK_CQ_CFG.CQ_ERR k 1).cqPump q
  else
    let s := s.setDsp q { x with writes := x.writes.map (fun v => if v = w then { v with done := true } else v) }
    (s.cqAdvance q w.queue (x.writes.length + 1)).cqPump q

/-- CQ_ENTRY_WRITTEN (R169, R170). -/
def execCqEntryWritten (p : Packet) (s : State) : Host.Outcome State Fault Refusal :=
  match quadOfDispatcher p.dest.toNat with
  | none => .next s
  | some q =>
    match (s.dsp q).writes.find? (fun w => w.tag == p.tag && !w.done) with
    | none => .next s
    | some w =>
      if s.arrives p && decide (8 ≤ p.cmd.toNat) then
        .next (((s.takeResponse p).cqWritten q w p).dispFlags q)
      else .next s

/-! ### Register actions (R169 to R173) -/

/-- TSK_CQ_IDX_WRITE (R169, R170): software advances CONS. -/
def execTskCqIdxWrite (acc : Accessor) (v : Word) (s : State) : Host.Outcome State Fault Refusal :=
  .next (s.ownedWrite acc 0 R.TSK_CQ_IDX 0 (fun k t =>
    ((t.writePlain R.TSK_CQ_IDX k v.toNat).cqPump (k / 16)).dispFlags (k / 16)))

/-- A write of TSK_CQ_CFG (R169, R173). -/
def State.cqCfgWrite (s : State) (k v : Nat) : State :=
  let size := s.get F.TSK_CQ_BASE_HI.SIZE k
  if bitAt v 0 && !(decide (4 ≤ size) && decide (size ≤ 12)) then
    ((s.writePlain R.TSK_CQ_CFG k (v - v % 2)).cqPump (k / 16)).dispFlags (k / 16)
  else ((s.writePlain R.TSK_CQ_CFG k v).cqPump (k / 16)).dispFlags (k / 16)

/-- A write of TSK_CQ_BASE_LO or _HI, ignored while EN is 1, and of _HI with a SIZE outside 4 to 12 (R169). -/
def State.cqBaseWrite (s : State) (hi : Bool) (k v : Nat) : State :=
  let size := bitsOf v 16 4
  if s.isSet F.TSK_CQ_CFG.EN k then s
  else if hi then
    if 4 ≤ size ∧ size ≤ 12 then (s.writePlain R.TSK_CQ_BASE_HI k v).cqFull k else s
  else s.writePlain R.TSK_CQ_BASE_LO k v

/-- Flushes the tasks of the masked priorities (R171): the state after and the count cancelled. -/
def State.flushTasks (s : State) (q mask : Nat) : Nat × State :=
  let out := (s.dsp q).pool.filter (fun t => t.st != .running && bitAt mask (dPrio t.d))
  let s := out.foldl (fun u t => u.setTask q t.handle (fun t => { t with st := .running, elem := 99 })) s
  let s := out.foldl (fun u t =>
    match (u.dsp q).preempt.find? (fun p => p.2.1 == t.handle) with | some p => u.withdraw q p.1 | none => u) s
  let s := out.foldl (fun u t => u.completeTask q t.handle 2 0) s
  let s := if mask % 2 ^ 16 = 0xFFFF then s.setDsp q { s.dsp q with pend := [] } else s
  (min out.length 65535, s)

/-- TSK_FLUSH (R171). -/
def execTskFlush (acc : Accessor) (v : Word) (s : State) : Host.Outcome State Fault Refusal :=
  .next (s.ownedWrite acc 0 R.TSK_FLUSH 0 (fun q t => t.afterReady (t.flushTasks q (v.toNat % 2 ^ 16)).2 q))

/-- A write of TSK_CTRL (R173); PEND_CLR empties the pending-signal table. -/
def State.tskCtrlWrite (s : State) (q v : Nat) : State :=
  let s := s.writePlain R.TSK_CTRL q v
  (if bitAt v 3 then s.setDsp q { s.dsp q with pend := [] } else s).dispFlags q

/-- PEND_CLR (R173): a write of TSK_CTRL. -/
def execPendClr (acc : Accessor) (v : Word) (s : State) : Host.Outcome State Fault Refusal :=
  .next (s.ownedWrite acc 0 R.TSK_CTRL 0 (fun q t => t.tskCtrlWrite q v.toNat))

/-- TSK_STAT_CLR (R173). -/
def execTskStatClr (acc : Accessor) (v : Word) (s : State) : Host.Outcome State Fault Refusal :=
  .next (s.ownedWrite acc 0 R.TSK_STAT_CLR 0 (fun q t =>
    if bitAt v.toNat 0 then
      [R.TSK_DISPATCHED_LO, R.TSK_DISPATCHED_HI, R.TSK_LATE_RISK, R.TSK_VARIANTS, R.TSK_DROPS, R.TSK_LATE_DONE].foldl
        (fun t r => t.setReg r q 0) t
    else t))

/-- Writes the tick length of quadrant `q` (R173); a new length takes effect from its next boundary (R157). -/
def State.tickWrite (s : State) (q v : Nat) : State :=
  let v := v % 2 ^ 14
  let c := min 16000 (max 250 v)
  let n := c / 2 * 2
  let s := if c = v then s else s.put F.TSK_STATUS.TICK_CLAMP q 1
  let s := if n = s.get F.TSK_TICK.NS q then s
    else s.setDsp q { s.dsp q with lastTick := max (s.dsp q).lastTick (s.now / n * n + 1) }
  s.put F.TSK_TICK.NS q n

/-- TSK_TICK_WRITE (R173). -/
def execTskTickWrite (acc : Accessor) (v : Word) (s : State) : Host.Outcome State Fault Refusal :=
  .next (s.ownedWrite acc 0 R.TSK_TICK 0 (fun q t => t.tickWrite q v.toNat))

end Sys2Proof.Machine
end

