-- ==== Sys2Proof/Machine/TahrDecode.lean ====
section
/-! DEFINITION. Tahr bundles (R213 to R231): slots, the legality of a slot word, and the registers a slot word reads and
writes, by the numbers of R226 with ACC_n at 0x60 + n. -/

namespace Sys2Proof.Machine

/-- The word of slot `k`: 0 X, 1 Y, 2 MAC, 3 control/vector (R213). -/
def bundleSlot (b : BitVec 128) (k : Nat) : Nat := bitsOf b.toNat (32 * k) 32

/-- Opcode of a slot word (R214). -/
def opOf (w : Nat) : Nat := bitsOf w 26 6

/-! ### Register numbers (R226) -/

def rA (k : Nat) : Nat := 0x20 + k
def rM (k : Nat) : Nat := 0x30 + k
def rPred (k : Nat) : Nat := 0x38 + k
def rLC (k : Nat) : Nat := 0x40 + k
def rLS (k : Nat) : Nat := 0x44 + k
def rLE (k : Nat) : Nat := 0x48 + k
def rStat : Nat := 0x50
def rIpc : Nat := 0x51
def rIstat : Nat := 0x52
def rStepLo : Nat := 0x54
def rStepHi : Nat := 0x55
def rAcc (k : Nat) : Nat := 0x60 + k

/-- A number MOV may name (R226). -/
def movNumber (r : Nat) : Bool :=
  decide (r ≤ 0x42) || (decide (0x44 ≤ r) && decide (r ≤ 0x46)) || (decide (0x48 ≤ r) && decide (r ≤ 0x4A)) ||
    [0x50, 0x51, 0x52, 0x54, 0x55].contains r

/-! ### Formats M and AT (R219, R222) -/

def mReg (w : Nat) : Nat := bitsOf w 21 5
def mAb (w : Nat) : Nat := bitsOf w 17 4
def mMod (w : Nat) : Nat := bitsOf w 14 3
def mMode (w : Nat) : Nat := bitsOf w 12 2
def mInc (w : Nat) : Int := toSigned 8 (bitsOf w 4 8)
def mSz (w : Nat) : Nat := bitsOf w 3 1
def predOf (w : Nat) : Nat := bitsOf w 0 3
/-- The register a format-M word loads or stores. -/
def mDest (w : Nat) : Nat := if mSz w = 1 then rA (bitsOf w 21 4) else mReg w

/-- A format-M word is legal (R219). -/
def mLegal (store : Bool) (w : Nat) : Bool :=
  !(mSz w == 1 && bitsOf w 25 1 == 1) && !(mMode w == 1 && mSz w == 1) && (mMode w == 1 || mMod w == 0) &&
    ((store && mSz w == 0) || predOf w == 0)

def atForm (w : Nat) : Nat := bitsOf w 24 2
def atReg (w : Nat) : Nat := bitsOf w 19 5
def atVs (w : Nat) : Nat := bitsOf w 14 5
def atAb (w : Nat) : Nat := bitsOf w 10 4
def atAop (w : Nat) : Nat := bitsOf w 6 4
def atW (w : Nat) : Nat := bitsOf w 5 1

/-- A format-AT word is legal (R222). -/
def atLegal (w : Nat) : Bool :=
  atForm w != 3 && (atForm w == 0 || (atAop w == 0 && atW w == 0)) && !(atForm w == 1 && atVs w != 0) &&
    !(atForm w == 2 && bitsOf w 23 1 == 1) && bitsOf w 0 5 == 0

/-! ### MAC slot (R223) -/

def cC (w : Nat) : Nat := bitsOf w 23 3
def cVa (w : Nat) : Nat := bitsOf w 18 5
def cVb (w : Nat) : Nat := bitsOf w 13 5
def cDual (w : Nat) : Bool := bitsOf w 12 1 == 1
def cFmt (w : Nat) : Nat := bitsOf w 11 1
def nVd (w : Nat) : Nat := bitsOf w 21 5
def nC (w : Nat) : Nat := bitsOf w 18 3
def nN (w : Nat) : Nat := bitsOf w 11 7
def nFmt (w : Nat) : Nat := bitsOf w 10 1
def nS (w : Nat) : Bool := bitsOf w 9 1 == 1

/-- A MAC slot word with a nonzero opcode is legal. -/
def macLegal (w : Nat) : Bool :=
  match opOf w with
  | 1 => bitsOf w 3 8 == 0 && !(cDual w && (cVa w % 2 + cVb w % 2 + cC w % 2 != 0))
  | 2 => bitsOf w 3 8 == 0 && !(cDual w && (cVa w % 2 + cVb w % 2 + cC w % 2 != 0))
  | 3 => bitsOf w 3 8 == 0 && !(cDual w && (cVa w % 2 + cVb w % 2 + cC w % 2 != 0))
  | 4 => bitsOf w 3 6 == 0 && !(nFmt w == 0 && decide (47 < nN w))
  | 5 => bitsOf w 0 18 == 0 && decide (nVd w ≤ 29)
  | 6 => bitsOf w 0 18 == 0 && decide (nVd w ≤ 29)
  | 7 => bitsOf w 0 18 == 0 && bitsOf w 21 5 == 0
  | _ => false

/-! ### Control/vector slot (R224 to R231) -/

def vD (w : Nat) : Nat := bitsOf w 21 5
def vS (w : Nat) : Nat := bitsOf w 16 5
def vT (w : Nat) : Nat := bitsOf w 11 5
def aD (w : Nat) : Nat := bitsOf w 22 4
def aS (w : Nat) : Nat := bitsOf w 18 4
def aT (w : Nat) : Nat := bitsOf w 13 4
def aI (w : Nat) : Bool := bitsOf w 17 1 == 1
def shSub (w : Nat) : Nat := bitsOf w 14 2
def shE (w : Nat) : Nat := bitsOf w 13 1
def shSh (w : Nat) : Nat := bitsOf w 5 5
def satE (w : Nat) : Nat := bitsOf w 15 1
def satW (w : Nat) : Nat := bitsOf w 10 5
def movDst (w : Nat) : Nat := bitsOf w 18 8
def movSrc (w : Nat) : Nat := bitsOf w 10 8
def loopLvl (w : Nat) : Nat := bitsOf w 24 2
def loopReg (w : Nat) : Bool := bitsOf w 23 1 == 1
def loopEnd (w : Nat) : Nat := bitsOf w 0 12
def brTarget (w : Nat) : Nat := bitsOf w 0 12
def brcCond (w : Nat) : Nat := bitsOf w 23 3
def brcA (w : Nat) : Nat := bitsOf w 19 4
def brcP (w : Nat) : Nat := bitsOf w 19 3
def syncForm (w : Nat) : Nat := bitsOf w 24 2
def syncA (w : Nat) : Nat := bitsOf w 20 4
def waitMask (w : Nat) : Nat := bitsOf w 18 8
def subS (w : Nat) : Nat := bitsOf w 22 4
def subD (w : Nat) : Nat := bitsOf w 18 4
def stimPort (w : Nat) : Nat := bitsOf w 21 5
def stimS (w : Nat) : Nat := bitsOf w 17 4
def stimD64 (w : Nat) : Bool := bitsOf w 16 1 == 1

/-- A control/vector slot word with a nonzero opcode is legal in the bundle at P address `pc`. -/
def ctlLegal (pc w : Nat) : Bool :=
  match opOf w with
  | 0x01 => bitsOf w 3 6 == 0
  | 0x02 => bitsOf w 3 6 == 0
  | 0x03 => if aI w then bitsOf w 0 5 == 0 else bitsOf w 0 13 == 0
  | 0x04 => if aI w then bitsOf w 0 5 == 0 else bitsOf w 0 13 == 0
  | 0x05 => bitsOf w 3 2 == 0 && (shSub w == 0 || (bitsOf w 10 3 == 0 && !(shE w == 0 && decide (15 < shSh w))))
  | 0x06 => bitsOf w 3 5 == 0 && vD w % 2 == 0
  | 0x07 => bitsOf w 3 7 == 0 && satW w != 0 && !(satE w == 0 && decide (15 < satW w))
  | 0x08 => bitsOf w 0 10 == 0 && movNumber (movDst w) && movNumber (movSrc w) && movDst w != rStepLo && movDst w != rStepHi
  | 0x09 => bitsOf w 0 5 == 0
  | 0x10 => loopLvl w != 3 && (!loopReg w || bitsOf w 16 7 == 0) && (!loopReg w || bitsOf w 12 4 < 16) &&
      decide (pc / 16 < loopEnd w)
  | 0x11 => bitsOf w 12 14 == 0
  | 0x12 => brcCond w != 7 && bitsOf w 12 7 == 0 && (decide (brcCond w ≤ 3) || bitsOf w 22 1 == 0)
  | 0x13 => bitsOf w 12 10 == 0
  | 0x14 => bitsOf w 0 22 == 0
  | 0x15 => bitsOf w 0 26 == 0
  | 0x18 => bitsOf w 0 20 == 0 && (syncForm w == 3 || syncA w == 0)
  | 0x19 => bitsOf w 0 18 == 0 && waitMask w != 0
  | 0x1A => bitsOf w 0 15 == 0
  | 0x1B => bitsOf w 0 16 == 0 && !(stimD64 w && stimS w % 2 == 1)
  | _ => false

/-- Slot `k` of the bundle at `pc` holds a legal word (R214). -/
def slotLegal (pc k w : Nat) : Bool :=
  if opOf w = 0 then w == 0
  else match k with
    | 0 => match opOf w with
      | 1 => mLegal false w | 2 => mLegal true w | 3 => mLegal false w | 4 => mLegal true w | 5 => atLegal w | _ => false
    | 1 => match opOf w with | 1 => mLegal false w | 2 => mLegal true w | _ => false
    | 2 => macLegal w
    | _ => ctlLegal pc w

/-- The bundle at `pc` is legal (R214). -/
def bundleLegal (pc : Nat) (b : BitVec 128) : Bool := (List.range 4).all (fun k => slotLegal pc k (bundleSlot b k))

/-! ### Registers read and written -/

/-- Registers a legal word of slot `k` reads or writes, for the interlock of R188. -/
def slotRegs (k w : Nat) : List Nat :=
  if opOf w = 0 then []
  else match k with
    | 2 => match opOf w with
      | 4 => [rAcc (nC w), nVd w, rPred (predOf w)]
      | 5 => [rAcc (nC w), nVd w, nVd w + 1, nVd w + 2]
      | 6 => [rAcc (nC w), nVd w, nVd w + 1, nVd w + 2]
      | 7 => [rAcc (nC w)]
      | _ => [cVa w, cVb w, rAcc (cC w), rPred (predOf w)] ++
          (if cDual w then [cVa w + 1, cVb w + 1, rAcc (cC w + 1)] else [])
    | 3 => match opOf w with
      | 0x01 => [vD w, vS w, vT w, rPred (predOf w)]
      | 0x02 => [vD w, vS w, vT w, rPred (predOf w)]
      | 0x03 => [rA (aD w), rA (aS w)] ++ (if aI w then [] else [rA (aT w)])
      | 0x04 => [rA (aD w), rA (aS w)] ++ (if aI w then [] else [rA (aT w)])
      | 0x05 => [vD w, vS w, rPred (predOf w)]
      | 0x06 => [vD w, vD w + 1, vS w, vT w, rPred (predOf w)]
      | 0x07 => [vD w, vS w, rPred (predOf w)]
      | 0x08 => [movDst w, movSrc w]
      | 0x09 => [rA (aD w)]
      | 0x10 => if loopReg w then [rA (bitsOf w 12 4)] else []
      | 0x12 => if brcCond w ≤ 3 then [rA (brcA w)] else [rPred (brcP w)]
      | 0x13 => [rA (aD w)]
      | 0x14 => [rA (aD w)]
      | 0x18 => if syncForm w = 3 then [rA (syncA w)] else []
      | 0x1A => [rA (subS w), rA (subD w)]
      | 0x1B => [rA (stimS w)] ++ (if stimD64 w then [rA (stimS w + 1)] else [])
      | _ => []
    | _ =>
      if opOf w = 5 then
        [rA (atAb w)] ++ (if atForm w = 2 then [rA (bitsOf w 19 4), atVs w] else
          if atForm w = 0 then [atReg w, atVs w] else [atReg w])
      else [rA (mAb w), mDest w] ++ (if mMode w = 1 then [rM (mMod w)] else []) ++ [rPred (predOf w)]

/-- Branches, LOOP, RET.I and SYNC ACCEPT, for the placement rule of R191 and R227. -/
def isBranch (w : Nat) : Bool :=
  [0x10, 0x11, 0x12, 0x13, 0x14, 0x15].contains (opOf w) || (opOf w == 0x18 && syncForm w == 3)

end Sys2Proof.Machine
end

