-- ==== Sys2Proof/Machine/Trace.lean ====
section
/-! DEFINITION. Trace (R474 to R477): stimulus ports, source queues, the controller's own packets and the three sinks. -/

namespace Sys2Proof.Machine

/-- Sources of trace packets beside the cores. -/
def srcFabric : Nat := 256
def srcChamois : Nat := 257
def srcController : Nat := 258

/-- A packet (R474). -/
def tracePacket (payload now port kind index : Nat) (d64 : Bool) : BitVec 128 :=
  BitVec.ofNat 128 ((if d64 then payload % 2 ^ 64 else payload % 2 ^ 32) + now % 2 ^ 40 * 2 ^ 64 + port % 64 * 2 ^ 104 +
    kind % 4 * 2 ^ 110 + index % 256 * 2 ^ 112 + bit d64 * 2 ^ 120)

/-- Queues a packet of the controller's own (R476). -/
def State.traceOwn (s : State) (payload port index : Nat) : State :=
  let q := s.trace.queues.get [] srcController ++ [tracePacket payload s.now port 3 index true]
  { s with trace := { s.trace with queues := s.trace.queues.set [] srcController q } }

/-- A packet finds its source's queue (R475): accepted, with LOSS after drops, whose episode the controller then
reports, or dropped and counted. -/
def State.traceQueue (s : State) (source : Nat) (p : BitVec 128) : State :=
  let q := s.trace.queues.get [] source
  let lost := s.trace.drops.get 0 source
  if 8 ≤ q.length then
    { s.countReg R.TRC_DROPS 0 1 with trace := { s.trace with drops := s.trace.drops.set 0 source (lost + 1) } }
  else
    let p := if lost = 0 then p else p ||| BitVec.ofNat 128 (2 ^ 121)
    let t := { s with trace := { s.trace with queues := s.trace.queues.set [] source (q ++ [p])
                                              drops := s.trace.drops.set 0 source 0 } }
    if lost = 0 then t else t.traceOwn lost 1 0

/-- A write of a stimulus port (R474); discarded while its port or the trace is disabled. -/
def State.stimulus (s : State) (source kind index port payload : Nat) (d64 : Bool) : State :=
  let en := s.reg R.TRC_PORT_EN_LO source + s.reg R.TRC_PORT_EN_HI source * 2 ^ 32
  if s.isSet F.TRC_CTRL.EN 0 && bitAt en port then
    s.traceQueue source (tracePacket payload s.now port kind index d64)
  else s

/-- FABRIC_STIMULUS (R474). -/
def execFabricStimulus (port : Fin 64) (data : BitVec 64) (d64 : Bool) (s : State) : Host.Outcome State Fault Refusal :=
  .next (s.stimulus srcFabric 1 0 port.val data.toNat d64)

/-- CHAMOIS_STIMULUS (R474). -/
def execChamoisStimulus (port : Fin 16) (data : BitVec 64) (d64 : Bool) (s : State) : Host.Outcome State Fault Refusal :=
  .next (s.stimulus srcChamois 2 0 port.val data.toNat d64)

/-- TRACE_TIME_PACKET (R476): a whole second of NS64 has begun. -/
def execTraceTimePacket (s : State) : Host.Outcome State Fault Refusal :=
  let n := s.now / 1000000000
  if s.isSet F.TRC_CTRL.EN 0 && decide (s.trace.secs < n) then
    .next ({ s with trace := { s.trace with secs := n } }.traceOwn s.now 0 0)
  else .next s

/-! ### Sinks (R477) -/

/-- Storage address of the trace buffer. -/
def baseTrace : Nat := baseHidden + 0x200000

/-- SINK in use. -/
def State.traceSink (s : State) : Nat := if s.get F.TRC_CTRL.SINK 0 = 3 then 0 else s.get F.TRC_CTRL.SINK 0

/-- Packets the sink holds. -/
def State.traceCap (s : State) : Nat :=
  if s.traceSink = 1 then 2 ^ min 26 (max 12 (s.get F.TRC_RING_BASE_HI.SIZE 0)) else 65536

/-- Counts `k` packets written; under STOP_FULL a full sink stops. -/
def State.traceWrote (s : State) (k : Nat) : State :=
  let s := s.setReg R.TRC_WPTR 0 ((s.reg R.TRC_WPTR 0 + k) % 2 ^ 32)
  let s := { s with trace := { s.trace with since := s.trace.since + k } }
  if s.isSet F.TRC_CTRL.STOP_FULL 0 && s.traceSink != 2 && decide (s.traceCap ≤ s.trace.since) then
    s.put F.TRC_STATUS.FULL 0 1 else s

/-- Writes a packet into the 1 MiB buffer. -/
def State.traceBuffer (s : State) (p : BitVec 128) : State :=
  (s.ocWrite (baseTrace / 16 + s.reg R.TRC_WPTR 0 % 65536) 0xFFFF p false).traceWrote 1

/-- Base of the ring in packaged memory. -/
def State.traceBase (s : State) : Nat :=
  s.reg R.TRC_RING_BASE_LO 0 / 64 * 64 + s.get F.TRC_RING_BASE_HI.ADDR 0 * 2 ^ 32

/-- Adds a packet to the ring in packaged memory, written a whole line at a time; a write that fails stops the trace. None while
the memory cannot serve the write yet. -/
def State.traceRing (s : State) (p : BitVec 128) : Option State :=
  let ps := s.trace.partly ++ [p]
  if ps.length < 4 then some { s with trace := { s.trace with partly := ps } }
  else
    let a := s.traceBase + 16 * (s.reg R.TRC_WPTR 0 % s.traceCap / 4 * 4)
    let (c, _, t) := s.writeBytes ⟨epDebug, 0, 3, true⟩ a (ps.flatMap (fun p => leBytes 16 p.toNat))
    if c = codeWaits then none
    else
      let t := { t with trace := { t.trace with partly := [] } }
      if c = 0 then some (t.traceWrote 4)
      else some (((t.postedFailed .log epDebug c a).put F.TRC_STATUS.SINK_ERR 0 1).put F.TRC_CTRL.EN 0 0)

/-- Adds a packet to the frame for the lane's MAC (R477); the frame goes out with 64 packets or when no packet waits.
The spec gives no MAC addresses for these frames: they are free values. -/
def State.traceFrame (s : State) (p : BitVec 128) : State :=
  let m := s.laneMac (s.get F.TRC_CTRL.LANE 0)
  let ps := s.trace.partly ++ [p]
  let rest := s.trace.queues.any (fun q => !q.2.isEmpty)
  if s.isSet F.MAC_STATUS.LINK m = false then s.countReg R.TRC_DROPS 0 1
  else if ps.length < 64 ∧ rest = true then { s with trace := { s.trace with partly := ps } }
  else
    let (k, t) := s.draw
    let f := leBytes 12 (Config.undefinedBits 96 k).toNat ++ [0x88, 0xB5] ++ ps.flatMap (fun p => leBytes 16 p.toNat)
    let t := { t with out := { t.out with frames := (m, f) :: t.out.frames }, trace := { t.trace with partly := [] } }
    ((t.macCount m 4 1).macCount m 5 f.length).traceWrote ps.length

/-- The source whose queue is drained next. -/
def State.traceNext (s : State) : Option Nat :=
  ((List.range 259).map (fun k => (s.trace.turn + 1 + k) % 259)).find? (fun k => !(s.trace.queues.get [] k).isEmpty)

/-- TRACE_DRAIN (R475, R477). -/
def execTraceDrain (s : State) : Host.Outcome State Fault Refusal :=
  if s.isSet F.TRC_CTRL.EN 0 = false ∨ s.isSet F.TRC_STATUS.FULL 0 = true then .next s
  else
    match s.traceNext with
    | none => .next s
    | some k =>
      match s.trace.queues.get [] k with
      | [] => .next s
      | p :: r =>
        let t := { s with trace := { s.trace with queues := s.trace.queues.set [] k r, turn := k } }
        .next (match s.traceSink with
          | 0 => t.traceBuffer p
          | 1 => (t.traceRing p).getD s
          | _ => t.traceFrame p)

/-- A write of TRC_CTRL (R474 to R477): enabling starts a new count and queues the time packet. -/
def State.trcCtrlWrite (s : State) (v : Word) : State :=
  let was := s.isSet F.TRC_CTRL.EN 0
  let t := s.writePlain R.TRC_CTRL 0 v.toNat
  if !was && t.isSet F.TRC_CTRL.EN 0 then
    let t := (t.put F.TRC_STATUS.FULL 0 0).traceOwn t.now 0 0
    { t with trace := { t.trace with since := 0, partly := [], secs := t.now / 1000000000 } }
  else t

/-- Word `k` of the buffered packet an accessor's TRC_BUF_ADDR names (R477). -/
def State.traceBufWord (s : State) (a : Accessor) (k : Nat) : Nat :=
  s.loadNat 4 (baseTrace + 16 * s.sel a F.TRC_BUF_ADDR.PACKET + 4 * k)

end Sys2Proof.Machine
end

