-- ==== Sys2Proof/Machine/TahrCore.lean ====
section
/-! DEFINITION. The Tahr core (R174 to R212): registers, results in flight, errors and faults, halts, local memories,
the control page, and the issue of bundles slot by slot. The slots' commands are in TahrMac, TahrVec, TahrCtl and
TahrMem, the core's own events in TahrEvent. -/

namespace Sys2Proof.Machine

/-! ### Registers (R180, R226) -/

/-- Core `n`. -/
def State.core (s : State) (n : Nat) : Core := s.cores.get {} n

/-- Sets it. -/
def State.setCore (s : State) (n : Nat) (c : Core) : State := { s with cores := s.cores.set {} n c }

/-- Value of a register after power-up (R180): STAT takes the reset value of TC_STAT_INIT. -/
def coreRegDefault (r : Nat) : BitVec 384 := if r = rStat then 0xFF0001 else 0

/-- Width of a register (R180). -/
def coreRegWidth (r : Nat) : Nat :=
  if r < 0x20 then 128 else if 0x60 ≤ r then 384 else if 0x38 ≤ r ∧ r < 0x40 then 4 else 32

/-- Bits of a register that hold a value: the others are reserved, read 0 and ignore writes (R14, R192, R200). -/
def coreRegMask (r : Nat) : Nat :=
  if r = rStat then 0xFF07FF else if r = rIstat then 0x7FFFFFF
  else if 0x30 ≤ r ∧ r < 0x38 then 0xFFFFFF else 2 ^ coreRegWidth r - 1

/-- A register's value; PRED_0 reads 0b1111, STEP is the step count. -/
def Core.reg (c : Core) (r : Nat) : Nat :=
  if r = rPred 0 then 0xF
  else if r = rStepLo then c.step % 2 ^ 32
  else if r = rStepHi then c.step / 2 ^ 32 % 2 ^ 32
  else (c.r.get (coreRegDefault r) r).toNat

/-- Sets a register; PRED_0 and STEP ignore writes. -/
def Core.setReg (c : Core) (r v : Nat) : Core :=
  if r = rPred 0 ∨ r = rStepLo ∨ r = rStepHi then c
  else { c with r := c.r.set (coreRegDefault r) r (BitVec.ofNat 384 (v &&& coreRegMask r)) }

/-- V, A and ACC registers have a poison flag (R180). -/
def regHasPoison (r : Nat) : Bool := r < 0x30 || 0x60 ≤ r

/-- A register's poison flag. -/
def Core.poisoned (c : Core) (r : Nat) : Bool := c.pz.get false r

/-- Sets it. -/
def Core.setPoison (c : Core) (r : Nat) (p : Bool) : Core :=
  if regHasPoison r then { c with pz := c.pz.set false r p } else c

/-- STAT. -/
def Core.stat (c : Core) : Nat := c.reg rStat

/-- A bit of STAT. -/
def Core.statBit (c : Core) (k : Nat) : Bool := bitAt c.stat k

/-- Sets a bit of STAT. -/
def Core.setStat (c : Core) (k : Nat) (b : Bool) : Core := c.setReg rStat (bitsSet c.stat k 1 (bit b))

/-- LA of level `l`. -/
def Core.la (c : Core) (l : Nat) : Bool := c.statBit (4 + l)

/-- STAT.IN_INT. -/
def Core.inInt (c : Core) : Bool := c.statBit 1

/-- Sum of two values lane by lane, in lanes of `w` bits over 384 bits. -/
def addLanes (w a b : Nat) : Nat :=
  (List.range (384 / w)).foldl (fun v k => v + (bitsOf a (w * k) w + bitsOf b (w * k) w) % 2 ^ w * 2 ^ (w * k)) 0

/-- Mask of a whole register. -/
def regMask (r : Nat) : Nat := 2 ^ coreRegWidth r - 1

/-- One result reaches its register (R182, R185, R217). -/
def Core.landOne (c : Core) (f : Flight) : Core :=
  let old := c.reg f.reg
  let v := if f.add = 0 then (old &&& (regMask f.reg ^^^ (f.mask &&& regMask f.reg))) ||| (f.val &&& f.mask)
    else addLanes f.add old f.val
  let keeps := f.add ≠ 0 || f.mask &&& regMask f.reg ≠ regMask f.reg
  let p := f.poison || (keeps && c.poisoned f.reg)
  let c := if f.mask = 0 then c else (c.setReg f.reg v).setPoison f.reg p
  if f.ovf then c.setStat 9 true else c

/-- Two results reach one register at one step: the one kept (R187). -/
def laterOf (a b : Flight) : Flight :=
  if a.issued < b.issued ∨ (a.issued = b.issued ∧ a.rank < b.rank) then b else a

/-- The results due at one step, one per register; answers whether any two met. -/
def meetFlights : List Flight → List Flight → Bool → List Flight × Bool
  | [], kept, w => (kept, w)
  | f :: r, kept, w =>
    match kept.find? (fun g => g.reg == f.reg) with
    | none => meetFlights r (kept ++ [f]) w
    | some g => meetFlights r (kept.map (fun h => if h = g then laterOf g f else h)) true

/-- The core's local address space (R176). -/
inductive Local where
  | p (o : Nat) | x (o : Nat) | y (o : Nat) | page (o : Nat) | scratch (o : Nat) | window (w : Nat) | none
  deriving DecidableEq, Repr

/-- Decodes a core-local address (R176). -/
def localOf (a : Nat) : Local :=
  if a < 0x10000 then .p a
  else if 0x100000 ≤ a ∧ a < 0x120000 then .x (a - 0x100000)
  else if 0x200000 ≤ a ∧ a < 0x220000 then .y (a - 0x200000)
  else if 0x300000 ≤ a ∧ a < 0x300200 then .page (a - 0x300000)
  else if 0x1000000 ≤ a ∧ a < 0x1200000 then .scratch (a - 0x1000000)
  else if 0x40000000 ≤ a ∧ a < 2 ^ 32 then .window ((a - 0x40000000) / 2 ^ 28)
  else .none

/-- Storage word of a local address of core `n` (R30, R176). -/
def localWord (n a : Nat) : Option Nat :=
  match localOf a with
  | .p o => some ((baseCore + n * 0x100000 + o) / 16)
  | .x o => some ((baseCore + n * 0x100000 + 0x40000 + o) / 16)
  | .y o => some ((baseCore + n * 0x100000 + 0x80000 + o) / 16)
  | .scratch o => some ((baseScratch + n / 8 * 0x200000 + o) / 16)
  | _ => none

/-! ### State of a core -/

/-- The cluster's domain is powered. -/
def State.coreUp (s : State) (n : Nat) : Bool := s.domUp (domCluster (n / 8))

/-- Halted by the debugger (R466). -/
def State.coreHalted (s : State) (n : Nat) : Bool := s.isSet F.TC_STATE.HALTED n

/-- TC_STATE.STATE (R210). -/
def State.coreState (s : State) (n : Nat) : Nat :=
  let c := s.core n
  if s.coreUp n = false then 0 else if c.task.isNone then 1 else if c.lower.isNone then 2 else 3

/-- Clears the reservation of core `n` (R208). -/
def State.clearResv (s : State) (n : Nat) : State := { s with resv := s.resv.set 0 n 0 }

/-! ### Halting (R465 to R471) -/

/-- A halt of an agent cancels a DBG_WARM_KEY pair that has begun; the debugger sees it in the status of a core or of Chamois
(R473, log 26). -/
def State.cancelPair (s : State) (n : Nat) : State :=
  match s.dbg.key with
  | none => s
  | some t =>
    let u := { s with dbg := { s.dbg with key := none } }
    if t + 1000 < s.now then u
    else if n < 256 then u.put F.DBG_CORE_STATUS.LOCKSEQ_CANCELLED n 1
    else if n = 256 then u.put F.DBG_STATUS.LOCKSEQ_CANCELLED 0 1
    else u

/-- The debug registers say that agent `n` is halted; a halt that is not the group's own is new to its group (R469). -/
def State.markHalted (s : State) (n cause unit : Nat) : State :=
  let s := s.cancelPair n
  let s := (if n < 256 then s.put F.TC_STATE.HALTED n 1 else s).put F.DBG_CORE_STATUS.HALTED n 1
  let s := { s with dbg := { s.dbg with fresh := s.dbg.fresh.set false n (cause != 4) } }
  (s.put F.DBG_CORE_STATUS.CAUSE n cause).put F.DBG_CORE_STATUS.UNIT n unit

/-- Halts core `n`, whose operations have retired: its reservation is cleared, its watchdog frozen and a pending
preemption withdrawn (R208, R466, R471). -/
def State.enterHalt (s : State) (n cause unit : Nat) : State :=
  let s := (s.markHalted n cause unit).clearResv n
  let c := s.core n
  let left := match c.wdt with | some t => some (t - s.now) | none => c.frozen
  let s := s.setCore n { c with haltReq := none, stepping := false, wdt := none, frozen := left }
  let q := n / 64
  if (s.dsp q).preempt.any (fun p => p.1 == n % 64) then (s.withdraw q (n % 64)).redecide q else s

/-! ### Ending (R203, R426) -/

/-- The core stops and is idle: its pipeline and outstanding loads are discarded; a bundle half issued counts as a
step. -/
def State.stopCore (s : State) (n : Nat) : State :=
  let c := s.core n
  let was := c.stepping
  let s := s.setCore n { c with
    step := c.step + (if c.slot = 0 then 0 else 1), slot := 0, bundle := 0, br := none, skip := none, flight := []
    accesses := c.accesses.filter (fun (a : Access) => decide (a.kind = AccKind.store)), task := none, lower := none, wdt := none, frozen := none
    stepping := false, bpDone := false }
  if was then s.enterHalt n 5 0 else s

/-- Reports the end of the tasks core `n` holds, the upper first (R203). -/
def State.reportTasks (s : State) (n : Nat) (c : Core) (status detail : Nat) : State :=
  let f := fun (s : State) (h : Option Held) =>
    match h with | some h => s.reportEnd (n / 64) h.handle status detail | none => s
  f (f s c.task) c.lower

/-- Records an error in TC_ERR (R204). -/
def State.recordCoreErr (s : State) (n code detail addr : Nat) : State :=
  if s.isSet F.TC_ERR.VALID n then s.put F.TC_ERR.MORE n 1
  else (s.setReg R.TC_ERR n (code + detail % 65536 * 2 ^ 8 + 2 ^ 31)).setReg R.TC_ERR_ADDR n addr

/-- A fault (R203). -/
def State.coreFault (s : State) (n code : Nat) : State :=
  let c := s.core n
  let s := (s.recordCoreErr n code 0 c.pc).reportTasks n c 3 code
  ((s.raise { code := 0x200 + code, sev := 2, source := src 0x01 n }).stopCore n).clearResv n

/-- The error source is raised (R203, R204). -/
def State.coreErr (s : State) (n code detail addr : Nat) : State :=
  let s := s.recordCoreErr n code detail addr
  if (s.core n).inInt then s.coreFault n 0x0B
  else s.coreIrq n 4

/-! ### Results that land -/

/-- Poisoned data has been loaded: STAT.POISON, and the error source while PTRAP is 1 (R204, R205). -/
def State.loadedPoison (s : State) (n addr : Nat) : State :=
  let c := s.core n
  let s := s.setCore n (c.setStat 7 true)
  if c.statBit 8 then s.coreErr n 0x07 0 addr else s

/-- The results due at step `k` land (R185, R187). -/
def State.landStep (s : State) (n k : Nat) : State :=
  let c := s.core n
  let (fs, met) := meetFlights (c.flight.filter (fun f => f.due == k)) [] false
  let d := fs.foldl Core.landOne { c with flight := c.flight.filter (fun f => f.due != k) }
  let s := s.setCore n (if met then d.setStat 10 true else d)
  fs.foldl (fun s f => match f.load with | some a => if f.poison then s.loadedPoison n a else s | none => s) s

/-- Every result in flight lands (R200): none is due more than 8 steps ahead. -/
def State.landAll (s : State) (n : Nat) : State :=
  let t := (s.core n).step
  (List.range 9).foldl (fun s k => s.landStep n (t + k)) s

/-- Adds a result of the bundle being issued, with latency `l` and the rank of its slot (R187). -/
def State.fly (s : State) (n rank l : Nat) (f : Flight) : State :=
  let c := s.core n
  if c.slot = 0 then s  -- a fault has stopped the core within the bundle
  else s.setCore n { c with flight := c.flight ++ [{ f with due := c.step + l, issued := c.step, rank := rank }] }

/-- A whole register's new value. -/
def flight (r v : Nat) (p : Bool) : Flight := { reg := r, val := v, mask := regMask r, poison := p, due := 0, issued := 0, rank := 0 }

/-- Adds an outstanding access of the bundle being issued. -/
def State.addAccess (s : State) (n : Nat) (a : Access) : State :=
  let c := s.core n
  if c.slot = 0 then s else s.setCore n { c with accesses := c.accesses ++ [a] }

/-! ### Watchpoints (R468) -/

/-- Watchpoint `w` of core `n` matches an access to `len` bytes at `a`; `rw` is 1 for a read, 2 for a write, 3 for an
ATOM. -/
def State.wpMatch (s : State) (n w a len rw : Nat) : Bool :=
  let i := 2 * n + w
  s.isSet F.DBG_WP_CTRL.EN i && (s.get F.DBG_WP_CTRL.RW i &&& rw) != 0 &&
    decide (s.reg R.DBG_WP_LO i ≤ a + len - 1) && decide (a ≤ s.reg R.DBG_WP_HI i)

/-- What a matching unit does beside a halt (R468, R476). -/
def State.unitAct (s : State) (n act bundle : Nat) : State :=
  if act = 1 then s.coreIrq n 3
  else if act = 2 then (if s.isSet F.TRC_CTRL.EN 0 then s.traceOwn bundle 2 n else s)
  else s

/-- The watchpoints see an access of core `n` (R468). -/
def State.watch (s : State) (n a len rw : Nat) : State :=
  (List.range 2).foldl (fun s w =>
    if s.wpMatch n w a len rw then
      let act := s.get F.DBG_WP_CTRL.ACTION (2 * n + w)
      if act = 1 ∨ act = 2 then s.unitAct n act ((s.core n).pc / 16)
      else if (s.core n).haltReq.isSome then s
      else s.setCore n { s.core n with haltReq := some (3, w) }
    else s) s

/-! ### Interrupts (R197 to R199) -/

/-- Source `k` is pending and takeable (R198). -/
def State.takeable (s : State) (n k : Nat) : Bool :=
  let c := s.core n
  bitAt (s.get F.TC_IRQ_PEND.PEND n) k && !c.inInt && (k == 4 || (c.statBit 0 && bitAt c.stat (16 + k)))

/-- The source taken next, in the order of R197. -/
def State.nextSource (s : State) (n : Nat) : Option Nat := [4, 3, 0, 1, 2, 5, 6, 7].find? (s.takeable n)

/-- The boundary before `pc` is one where an interrupt may be taken (R199). -/
def Core.legalBoundary (c : Core) : Bool :=
  c.br.isNone && (List.range 3).all (fun l => !(c.la l && (c.reg (rLE l) == c.pc ||
    (c.reg (rLE l) == c.pc + 16 && decide (c.reg (rLS l) ≤ c.pc)))))

/-! ### Issue (R174, R188) -/

/-- The bundle at a P address as a fetch sees it: within 8 steps of a store the old one may come (R178, a free choice),
and whether the word is poisoned. -/
def State.fetchBundle (s : State) (n : Nat) : State × BitVec 128 × Bool :=
  let c := s.core n
  match localWord n c.pc with
  | none => (s, 0, false)
  | some w =>
    match c.pOld.find? (fun e => e.1 == c.pc && decide (c.step ≤ e.2.2 + 8)) with
    | some e =>
      let (k, t) := s.draw
      if Config.undefinedBits 1 k = 1 then (t, e.2.1, false)
      else let (t, u) := t.ocRead w; (t, u.data, u.poison)
    | none => let (t, u) := s.ocRead w; (t, u.data, u.poison)

/-- Registers that interlocked accesses hold busy (R188). -/
def Core.busy (c : Core) : List Nat :=
  c.accesses.filterMap (fun a => match a.kind with
    | .load r _ => some r | .reserve r _ => some r | .atom r => some r | .submit r => some r | .store => none)

/-- A SUBMIT awaits its answer (R230). -/
def Core.submitting (c : Core) : Bool := c.accesses.any (fun a => match a.kind with | .submit _ => true | _ => false)

/-- A store or ATOM awaits its response or result (R194). -/
def Core.storing (c : Core) : Bool :=
  c.accesses.any (fun a => match a.kind with | .store => true | .atom _ => true | .reserve _ _ => true | _ => false)

/-- A posted STG of core `n` has not been injected yet (R194; an injected one has completed for the core, DEDUCED, log 87). -/
def State.posting (s : State) (n : Nat) : Bool := (s.net.wait.get [] (epCore n)).any (fun p => p.cmd == BitVec.ofNat 4 cmdPosted)

/-- The control slot word makes the core wait (R194, R196). -/
def State.ctlWaits (s : State) (n w : Nat) : Bool :=
  (opOf w == 0x19 && (s.get F.TC_IRQ_PEND.PEND n &&& waitMask w) == 0) ||
    (opOf w == 0x18 && (syncForm w == 0 || syncForm w == 2) && ((s.core n).storing || s.posting n))

/-- An enabled breakpoint of core `n` on bundle index `b`. -/
def State.bpMatch (s : State) (n b : Nat) : Option Nat :=
  findBelow 4 (fun k => s.isSet F.DBG_BP_CTRL.EN (4 * n + k) && s.get F.DBG_BP_ADDR.BUNDLE (4 * n + k) == b)

/-- Core `n` is at a boundary at which it would issue its next bundle. -/
def State.mayIssue (s : State) (n : Nat) : Bool :=
  let c := s.core n
  c.slot == 0 && c.task.isSome && s.coreUp n && s.clReset.get 0 (n / 8) == 0 && c.haltReq.isNone && !c.submitting &&
    (if s.coreHalted n then c.stepping else !(c.legalBoundary && (s.nextSource n).isSome))

/-- Core `n` has a breakpoint on its next bundle that has not acted (R468). -/
def State.bpDue (s : State) (n : Nat) : Option Nat :=
  let c := s.core n
  if c.bpDone || c.stepping then none else s.bpMatch n (c.pc / 16)

/-- Opens the next bundle of core `n`, if it can issue it: legal, not poisoned, no operand busy, not waiting. -/
def State.openBundle (s : State) (n : Nat) : Option State :=
  if (s.core n).slot ≠ 0 then some s
  else if s.mayIssue n = false ∨ (s.bpDue n).isSome = true then none
  else
    let (s, b, p) := s.fetchBundle n
    let c := s.core n
    let regs := (List.range 4).flatMap (fun k => slotRegs k (bundleSlot b k))
    if p || !bundleLegal c.pc b || regs.any (fun r => c.busy.contains r) || s.ctlWaits n (bundleSlot b 3) then none
    else some (s.setCore n { c with slot := 1, bundle := b })

/-- Where issue goes after the bundle at `pc` (R190): an active level that ends here goes round or ends. -/
def Core.loopEnd (c : Core) : Core × Nat :=
  match (List.range 3).find? (fun l => c.la l && c.reg (rLE l) == c.pc) with
  | none => (c, c.pc + 16)
  | some l =>
    let k := (c.reg (rLC l) + 2 ^ 32 - 1) % 2 ^ 32
    let c := c.setReg (rLC l) k
    if k = 0 then (c.setStat (4 + l) false, c.pc + 16) else (c, c.reg (rLS l))

/-- A branch's delay slots count down (R185), RET.I restoring STAT at their end (R201). -/
def Core.branchEnd (c : Core) (next : Nat) : Core × Nat :=
  match c.br with
  | none => (c, next)
  | some b =>
    if 1 < b.left then ({ c with br := some { b with left := b.left - 1 } }, next)
    else
      let c := { c with br := none }
      (match b.stat with | some v => c.setReg rStat (bitsSet c.stat 0 24 v) | none => c, b.target.getD next)

/-- The bundle has issued: its step counts, sequencing moves on, and results due land (R174, R185, R190). Addresses past P
wrap (DEDUCED, log 87). -/
def State.closeBundle (s : State) (n : Nat) : State :=
  let c := s.core n
  let skip := c.skip
  let (c, next) := c.loopEnd
  let (c, next) := c.branchEnd (skip.getD next)
  let s := s.setCore n { c with step := c.step + 1, slot := 0, bundle := 0, skip := none, pc := next % 0x10000, bpDone := false }
  let s := s.landStep n (c.step + 1)
  if (s.core n).stepping then (s.landAll n).enterHalt n 5 0 else s

/-- The word of slot `k` is done. -/
def State.slotDone (s : State) (n k : Nat) : State :=
  let c := s.core n
  if c.slot ≠ k + 1 then s
  else if k = 3 then s.closeBundle n
  else s.setCore n { c with slot := k + 2 }

/-- A slot command: acts on the word of slot `k` of core `n`'s next bundle if that slot is next and `sel` picks the
word. -/
def State.slotCmd (s : State) (n k : Nat) (sel : Nat → Bool) (act : Nat → State → State) : State :=
  match s.openBundle n with
  | none => s
  | some t =>
    let w := bundleSlot (t.core n).bundle k
    if (t.core n).slot = k + 1 ∧ sel w = true then (act w t).slotDone n k else s

/-- A slot command for the opcode `op`. -/
def opIs (op w : Nat) : Bool := opOf w == op

/-! ### Values (R181, R217) -/

/-- Lanes of `w` bits in a vector of `lanes` lanes enabled by a predicate over 32-bit groups: the mask of their bits. -/
def predMask (pred : Nat) : Nat :=
  (List.range 4).foldl (fun m l => if bitAt pred l then m + (2 ^ 32 - 1) * 2 ^ (32 * l) else m) 0

/-- The mask of the lanes a predicate enables in CS32 (R181): bit 2l governs sample l. -/
def predMask32 (pred : Nat) : Nat :=
  (List.range 2).foldl (fun m l => if bitAt pred (2 * l) then m + (2 ^ 64 - 1) * 2 ^ (64 * l) else m) 0

/-! ### The control page and the TC registers (R210 to R212) -/

/-- Index of the task a core runs, for TC_TASK. -/
def State.tcTask (s : State) (n : Nat) : Nat :=
  let c := s.core n
  match c.task with
  | none => 0
  | some h => dTaskId h.d + n / 64 * 2 ^ 14 + (match c.lower with | some l => dTaskId l.d * 2 ^ 16 | none => 0) + 2 ^ 31

/-- The core waits in WAITEV or a SYNC (R210). -/
def State.coreWaiting (s : State) (n : Nat) : Bool :=
  let c := s.core n
  c.slot == 0 && c.task.isSome && s.ctlWaits n (match localWord n c.pc with
    | some w => bundleSlot (s.word w) 3 | none => 0)

/-- A TC register's value as it reads, element `e` of an array (R210). -/
def State.tcRead (s : State) (n : Nat) (r : RegRow) (e : Nat) : Nat :=
  let c := s.core n
  if r.off = R.TC_STATE.off then
    s.coreState n + bit (s.coreHalted n) * 8 + bit (s.coreWaiting n) * 16 + bit c.inInt * 32
  else if r.off = R.TC_TASK.off then s.tcTask n
  else if r.off = R.TC_STEP_LO.off then c.step % 2 ^ 32
  else if r.off = R.TC_STEP_HI.off then c.step / 2 ^ 32 % 2 ^ 32
  else if r.off = R.TC_IRQ_SET.off then s.get F.TC_IRQ_PEND.PEND n
  else if r.off = R.TC_WDT_REMAIN.off then
    (match c.wdt with | some t => t - s.now | none => c.frozen.getD 0) % 2 ^ 32
  else s.reg r (n * r.n + e) &&& readMask r

/-- Messages lie in the inbox (R197, R209). -/
def State.inboxHolds (s : State) (n : Nat) : Bool := s.get F.TC_INBOX_IDX.PROD n != s.get F.TC_INBOX_IDX.CONS n

/-- The doorbell source is pending while the inbox is not empty (R197). -/
def State.inboxIrq (s : State) (n : Nat) : State := if s.inboxHolds n then s.coreIrq n 2 else s

/-- The watchdog's load value (R210). -/
def State.wdtLoad (s : State) (n : Nat) : Nat := max 1000 (s.reg R.TC_WDT_LOAD n)

/-- Starts or stops the watchdog as a task starts (R193). -/
def State.wdtStart (s : State) (n : Nat) : State :=
  let c := s.core n
  s.setCore n { c with wdt := if s.isSet F.TC_WDT_CTRL.EN n then some (s.now + s.wdtLoad n) else none, frozen := none }

/-- TC_WDT_KICK (R206): reloads the watchdog while the core holds a task and EN is 1, and clears WARNED. -/
def State.wdtKick (s : State) (n v : Nat) : State :=
  if bitAt v 0 then
    let s := s.put F.TC_WDT_CTRL.WARNED n 0
    let c := s.core n
    if c.task.isNone ∨ s.isSet F.TC_WDT_CTRL.EN n = false then s
    else if s.coreHalted n then s.setCore n { c with frozen := some (s.wdtLoad n) }
    else s.setCore n { c with wdt := some (s.now + s.wdtLoad n) }
  else s

/-- A write of a TC register (R206, R210, R211). -/
def State.tcWrite (s : State) (n : Nat) (r : RegRow) (e v : Nat) : State :=
  let i := n * r.n + e
  if r.off = R.TC_IRQ_PEND.off then
    (s.put F.TC_IRQ_PEND.PEND n (s.get F.TC_IRQ_PEND.PEND n &&& (0xFF - (v % 256 &&& 0xFE)))).inboxIrq n
  else if r.off = R.TC_IRQ_SET.off then s.put F.TC_IRQ_PEND.PEND n (s.get F.TC_IRQ_PEND.PEND n ||| (v &&& 0xE4))
  else if r.off = R.TC_ERR.off then (if bitAt v 31 then s.setReg R.TC_ERR n 0 else s)
  else if r.off = R.TC_TIMER_LO.off then
    let s := s.setReg R.TC_TIMER_LO n v
    s.setCore n { s.core n with timer := some (s.pair R.TC_TIMER_LO R.TC_TIMER_HI n) }
  else if r.off = R.TC_WDT_KICK.off then s.wdtKick n v
  else if r.off = R.TC_WIN_CTRL.off then (if bitsOf v 1 2 = 2 then s else s.writePlain r i v)
  else if r.off = R.TC_INBOX_IDX.off then (s.writePlain r i v).inboxIrq n
  else s.writePlain r i v

/-- The TC register at a control-page offset (R212). -/
def pageReg (o : Nat) : Option (RegRow × Nat) :=
  if 0x110 ≤ o then none
  else match regLookup (0x801000 + o / 4 * 4) with
    | some (r, e) => if r.sel = .tc then some (r, e) else none
    | none => none

/-- Reads the control page. -/
def State.pageRead (s : State) (n o : Nat) : Nat :=
  match pageReg o with | some (r, e) => s.tcRead n r e | none => 0

/-- Writes it. -/
def State.pageWrite (s : State) (n o v : Nat) : State :=
  match pageReg o with | some (r, e) => s.tcWrite n r e v | none => s

end Sys2Proof.Machine
end

