-- ==== Sys2Proof/Machine/TahrMem.lean ====
section
/-! DEFINITION. The memory slots (R176 to R179, R192, R207, R208, R218 to R222) and the arrival of what interlocked
accesses wait for (R188, R189). -/

namespace Sys2Proof.Machine

/-! ### Addresses and modifiers (R192, R219) -/

/-- Unit of INC. -/
def incUnit (w : Nat) : Nat := if mSz w = 1 then 4 else 16

/-- `a` plus a signed amount, over 32 bits. -/
def addrAdd (a : Nat) (k : Int) : Nat := ofSigned 32 ((a : Int) + k)

/-- Least k with `n ≤ 2^k`. -/
def clog2 (n : Nat) : Nat := (findBelow 33 (fun k => decide (n ≤ 2 ^ k))).getD 33

/-- `w` with its low `b` bits reversed. -/
def revBits (b w : Nat) : Nat := (List.range b).foldl (fun v k => if bitAt w k then v + 2 ^ (b - 1 - k) else v) 0

/-- Post-modify under M_m (R192). The spec gives no result for B above 12, for a LEN that is no multiple of 16 nor for an
increment beyond LEN: a free value. -/
def State.modify (s : State) (a m : Nat) (inc : Int) : State × Nat :=
  let len := bitsOf m 0 20
  let b := bitsOf m 20 4
  if 12 < b ∨ (b = 0 ∧ len % 16 ≠ 0) ∨ (b = 0 ∧ len ≠ 0 ∧ len < inc.natAbs) then
    let (k, t) := s.draw
    (t, (Config.undefinedBits 32 k).toNat)
  else if b = 0 ∧ len = 0 then (s, addrAdd a inc)
  else if b = 0 then
    let base := a / 2 ^ clog2 len * 2 ^ clog2 len
    (s, base + (((a - base : Nat) : Int) + inc).emod len |>.toNat)
  else
    let w := bitsOf a 4 b
    (s, bitsSet a 4 b (revBits b (ofSigned b ((revBits b w : Int) + inc / 16))))

/-- The address a format-M word uses (R219). -/
def mAddr (c : Core) (w : Nat) : Nat :=
  let a := c.reg (rA (mAb w))
  if mMode w = 0 ∨ mMode w = 2 then addrAdd a (mInc w * incUnit w) else a

/-- The change it makes to its address register: latency 1 (R215, R219). -/
def State.mModify (s : State) (n slot w : Nat) (c : Core) : State :=
  let a := c.reg (rA (mAb w))
  let fly := fun (s : State) (v : Nat) => s.fly n slot 1 (flight (rA (mAb w)) v false)
  match mMode w with
  | 0 => s
  | 1 => let (s, v) := s.modify a (c.reg (rM (mMod w))) (mInc w * 16); fly s v
  | _ => fly s (addrAdd a (mInc w * incUnit w))

/-! ### Local accesses -/

/-- Local ranges a slot's loads and stores reach (R176, R218). -/
def slotReaches (slot : Nat) (sz : Nat) (l : Local) : Bool :=
  match l with
  | .p _ => slot == 0
  | .x _ => slot == 0
  | .y _ => slot == 1
  | .page _ => slot == 0 && sz == 1
  | .scratch _ => true
  | _ => false

/-- Reads a word of the core's own memories; MEM_UE where this read finds it lost (R204). -/
def State.localRead (s : State) (n w addr : Nat) : State × DataUnit :=
  let bad := s.uncorrAt w
  let (t, u) := s.ocRead w
  (if bad && u.poison then t.coreErr n 0x09 0 addr else t, u)

/-- The 32-bit lane of a unit, or the unit. -/
def laneValue (lane : Option Nat) (u : BitVec 128) : Nat :=
  match lane with | some l => bitsOf u.toNat (32 * l) 32 | none => u.toNat

/-- Lane of a 32-bit access. -/
def accessLane (sz a : Nat) : Option Nat := if sz = 1 then some (a / 4 % 4) else none

/-- A store of core `n`: it ends every reservation of the word but the core's own (R208). -/
def State.coreStore (s : State) (n w be : Nat) (d : BitVec 128) (p : Bool) : State :=
  let own := s.resv.get 0 n
  let t := s.ocWrite w be d p
  { t with resv := t.resv.set 0 n own }

/-- A load from a local range (R177 to R179, R185, R212). -/
def State.localLoad (s : State) (n slot dest sz a : Nat) : State :=
  let a' := a - a % (if sz = 1 then 4 else 16)
  let lane := accessLane sz a
  let l := localOf a'
  if slotReaches slot sz l = false then s.coreErr n 0x04 0 a
  else
    let s := s.watch n a' (if sz = 1 then 4 else 16) 1
    match l, localWord n a' with
    | .page o, _ =>
      s.addAccess n { kind := .load dest lane, addr := a', tag := none
                      unit := ⟨BitVec.ofNat 128 (s.pageRead n o * 2 ^ (32 * (a / 4 % 4))), false⟩ }
    | .scratch _, some w =>
      let (s, u) := (s.portA n w none).ocRead w
      s.addAccess n { kind := .load dest lane, addr := a', tag := none, unit := u }
    | _, some w =>
      let (s, u) := s.localRead n w a'
      s.fly n slot 3 { flight dest (laneValue lane u.data) u.poison with load := some a' }
    | _, none => s

/-- A store to a local range (R178, R205, R212, R217). -/
def State.localStore (s : State) (n slot sz a be : Nat) (d : BitVec 128) (p : Bool) : State :=
  let a' := a - a % (if sz = 1 then 4 else 16)
  let l := localOf a'
  if slotReaches slot sz l = false then s.coreErr n 0x04 0 a
  else
    let s := s.watch n a' (if sz = 1 then 4 else 16) 2
    match l, localWord n a' with
    | .page o, _ => s.pageWrite n o (laneValue (some (a / 4 % 4)) d)
    | _, none => s
    | l, some w =>
      if be = 0 then s
      else
        let c := s.core n
        let s := (match l with
          | .p _ => s.setCore n { c with
              pOld := c.pOld.filter (fun (e : Nat × BitVec 128 × Nat) => decide (c.step ≤ e.2.2 + 8)) ++ [(a / 16 * 16, s.word w, c.step)] }
          | .scratch _ => (s.settleWord w).portA n w (some (be, p))
          | _ => s)
        s.coreStore n w be d p

/-- Bytes a 128-bit store writes under a predicate (R217). -/
def predBytes (pred : Nat) : Nat := (List.range 4).foldl (fun m l => if bitAt pred l then m + 0xF * 2 ^ (4 * l) else m) 0

/-- Byte enables and data of a format-M store (R219). -/
def storeData (c : Core) (w a : Nat) : Nat × BitVec 128 :=
  if mSz w = 1 then (0xF * 2 ^ (4 * (a / 4 % 4)), BitVec.ofNat 128 (c.reg (mDest w) * 2 ^ (32 * (a / 4 % 4))))
  else (predBytes (c.reg (rPred (predOf w))), BitVec.ofNat 128 (c.reg (mDest w)))

/-- A format-M command: the address check of R220, the access and the modify. -/
def State.mOp (n slot : Nat) (acc : Core → Nat → Nat → State → State) (w : Nat) (s : State) : State :=
  let c := s.core n
  let a := mAddr c w
  if c.poisoned (rA (mAb w)) then s.coreErr n 0x08 0 a
  else (acc c w a s).mModify n slot w c

/-- LDX (R218, R219). -/
def execLdx (core : Fin 256) (s : State) : Host.Outcome State Fault Refusal :=
  .next (s.slotCmd core.val 0 (opIs 1) (State.mOp core.val 0 (fun _ w a s => s.localLoad core.val 0 (mDest w) (mSz w) a)))

/-- STX (R218, R219). -/
def execStx (core : Fin 256) (s : State) : Host.Outcome State Fault Refusal :=
  .next (s.slotCmd core.val 0 (opIs 2) (State.mOp core.val 0 (fun c w a s =>
    s.localStore core.val 0 (mSz w) a (storeData c w a).1 (storeData c w a).2 (c.poisoned (mDest w)))))

/-- LDY (R218, R219). -/
def execLdy (core : Fin 256) (s : State) : Host.Outcome State Fault Refusal :=
  .next (s.slotCmd core.val 1 (opIs 1) (State.mOp core.val 1 (fun _ w a s => s.localLoad core.val 1 (mDest w) (mSz w) a)))

/-- STY (R218, R219). -/
def execSty (core : Fin 256) (s : State) : Host.Outcome State Fault Refusal :=
  .next (s.slotCmd core.val 1 (opIs 2) (State.mOp core.val 1 (fun c w a s =>
    s.localStore core.val 1 (mSz w) a (storeData c w a).1 (storeData c w a).2 (c.poisoned (mDest w)))))

/-! ### Windows (R207, R221) -/

/-- Key of window `k` of core `n`. -/
def winKey (n k : Nat) : Nat := 12 * n + k

/-- Global address of a window access (R207). -/
def State.winAddr (s : State) (n k a : Nat) : Nat :=
  s.get F.TC_WIN_HI.BASE (winKey n k) * 2 ^ 32 + s.get F.TC_WIN_LO.BASE (winKey n k) * 2 ^ 28 + a % 2 ^ 28

/-- An access through a window: sent with the window's KEY, VC and ORDERED, or refused with WIN_OFF or UNMAPPED_LOCAL.
`kind` is what waits for the response. -/
def State.globalAccess (s : State) (n a cmd be len rw : Nat) (data : List DataUnit) (kind : Option AccKind) : State :=
  match localOf a with
  | .window k =>
    if s.isSet F.TC_WIN_CTRL.EN (winKey n k) = false then s.coreErr n 0x05 0 a
    else
      let i := winKey n k
      let tag := s.freshTag (epCore n)
      let s := s.watch n a len rw
      let s := (match kind with | some x => s.addAccess n { kind := x, addr := a, tag := some tag } | none => s)
      s.inject { src := BitVec.ofNat 10 (epCore n), cmd := BitVec.ofNat 4 cmd
                 vc := BitVec.ofNat 2 (s.get F.TC_WIN_CTRL.VC i), tag := tag
                 len := BitVec.ofNat 4 (data.length - 1), key := BitVec.ofNat 8 (s.get F.TC_WIN_CTRL.KEY i)
                 ordered := s.isSet F.TC_WIN_CTRL.ORDERED i, be := BitVec.ofNat 16 be
                 addr := BitVec.ofNat 48 (s.winAddr n k a), data := data, acc := .tahr, wide := len == 16 }
  | _ => s.coreErr n 0x04 0 a

/-- LDG (R221). -/
def execLdg (core : Fin 256) (s : State) : Host.Outcome State Fault Refusal :=
  .next (s.slotCmd core.val 0 (opIs 3) (State.mOp core.val 0 (fun _ w a s =>
    let len := if mSz w = 1 then 4 else 16
    let a' := a - a % len
    let be := if mSz w = 1 then 0xF * 2 ^ (4 * (a / 4 % 4)) else 0xFFFF
    s.globalAccess core.val a' cmdRead be len 1 [] (some (.load (mDest w) (accessLane (mSz w) a))))))

/-- STG (R221). -/
def execStg (core : Fin 256) (s : State) : Host.Outcome State Fault Refusal :=
  .next (s.slotCmd core.val 0 (opIs 4) (State.mOp core.val 0 (fun c w a s =>
    let len := if mSz w = 1 then 4 else 16
    let a' := a - a % len
    let posted := (match localOf a' with | .window k => s.isSet F.TC_WIN_CTRL.POSTED (winKey core.val k) | _ => false)
    s.globalAccess core.val a' (if posted then cmdPosted else cmdWrite) (storeData c w a).1 len 2
      [⟨(storeData c w a).2, c.poisoned (mDest w)⟩] (if posted then none else some .store))))

/-! ### ATOM (R208, R222) -/

/-- An ATOM word of the given FORM. -/
def atomIs (form w : Nat) : Bool := opOf w == 5 && atForm w == form

/-- A format-AT command: the address check, then the access. -/
def State.atOp (n : Nat) (acc : Core → Nat → Nat → State → State) (w : Nat) (s : State) : State :=
  let c := s.core n
  let a := c.reg (rA (atAb w))
  if c.poisoned (rA (atAb w)) then s.coreErr n 0x08 0 a else acc c w a s

/-- ATOM through a window (R135, R207, R222). -/
def execAtomGlobal (core : Fin 256) (s : State) : Host.Outcome State Fault Refusal :=
  .next (s.slotCmd core.val 0 (atomIs 0) (State.atOp core.val (fun c w a s =>
    let p := c.poisoned (atVs w)
    s.globalAccess core.val a cmdAtomic 0xFFFF (if atW w = 1 then 8 else 4) 3
      [⟨BitVec.ofNat 128 (c.reg (atVs w)), p⟩, ⟨BitVec.ofNat 128 (atAop w + 16 * atW w), p⟩] (some (.atom (atReg w))))))

/-- ATOM load-reserved (R208, R222). -/
def execAtomLoadReserved (core : Fin 256) (s : State) : Host.Outcome State Fault Refusal :=
  .next (s.slotCmd core.val 0 (atomIs 1) (State.atOp core.val (fun _ w a s =>
    let n := core.val
    match localOf a, localWord n (a - a % 16) with
    | .scratch _, some k =>
      let s := s.watch n (a - a % 16) 16 1
      let (s, u) := (s.portA n k none).ocRead k
      ({ s with resv := s.resv.set 0 n (k + 1) }).addAccess n { kind := .reserve (atReg w) none, addr := a - a % 16, tag := none, unit := u }
    | _, _ => s.coreErr n 0x04 0 a)))

/-- ATOM store-conditional (R208, R222). -/
def execAtomStoreConditional (core : Fin 256) (s : State) : Host.Outcome State Fault Refusal :=
  .next (s.slotCmd core.val 0 (atomIs 2) (State.atOp core.val (fun c w a s =>
    let n := core.val
    match localOf a, localWord n (a - a % 16) with
    | .scratch _, some k =>
      let held := s.resv.get 0 n == k + 1
      let s := if held
        then (((s.watch n (a - a % 16) 16 2).settleWord k).portA n k (some (0xFFFF, c.poisoned (atVs w)))).ocWrite k 0xFFFF
          (BitVec.ofNat 128 (c.reg (atVs w))) (c.poisoned (atVs w))
        else s
      (s.clearResv n).addAccess n { kind := .reserve (rA (bitsOf w 19 4)) (some 0), addr := a - a % 16, tag := none
                                    unit := ⟨BitVec.ofNat 128 (bit held), false⟩ }
    | _, _ => s.coreErr n 0x04 0 a)))

/-! ### Arrivals (R188, R189, R230) -/

/-- Writes the destination of an interlocked access. -/
def State.loadInto (s : State) (n r v : Nat) (p : Bool) (addr : Nat) : State :=
  let c := s.core n
  let s := s.setCore n ((c.setReg r v).setPoison r p)
  if p then s.loadedPoison n addr else s

/-- An interlocked access ends in an error (R189). -/
def State.loadFailed (s : State) (n r code addr : Nat) : State :=
  let c := s.core n
  (s.setCore n ((c.setReg r 0).setPoison r true)).coreErr n 0x06 code addr

/-- Data arrives for an access, which is over. -/
def State.accessData (s : State) (n : Nat) (a : Access) (u : DataUnit) : State :=
  let c := s.core n
  let s := s.setCore n { c with accesses := c.accesses.erase a }
  match a.kind with
  | .load r lane => s.loadInto n r (laneValue lane u.data) u.poison a.addr
  | .reserve r lane => s.loadInto n r (laneValue lane u.data) u.poison a.addr
  | .atom r => s.loadInto n r (u.data.toNat % 2 ^ 64) u.poison a.addr
  | .submit r => s.loadInto n r 0 false a.addr
  | .store => s

/-- An access ends in an ERROR_RESPONSE with a code and a detail (R189, R204, R230). -/
def State.accessFailed (s : State) (n : Nat) (a : Access) (code detail : Nat) : State :=
  let c := s.core n
  let s := s.setCore n { c with accesses := c.accesses.erase a }
  match a.kind with
  | .load r _ => s.loadFailed n r code a.addr
  | .reserve r _ => s.loadFailed n r code a.addr
  | .atom r => s.loadFailed n r code a.addr
  | .submit r => if code = 3 then s.loadInto n r (1 + detail) false a.addr else s.loadFailed n r code a.addr
  | .store => s.coreErr n 0x06 code a.addr

/-- A response that has arrived at core `n`; one that no access awaits any more is discarded (R194). -/
def State.coreResponse (s : State) (n : Nat) (p : Packet) : State :=
  match (s.core n).accesses.find? (fun a => a.tag == some p.tag) with
  | none => s
  | some a =>
    if p.cmd.toNat = cmdErrorRsp then s.accessFailed n a (p.addr.toNat % 2 ^ 16) (p.addr.toNat / 2 ^ 16)
    else s.accessData n a (p.data.headD ⟨0, false⟩)

/-- INTERLOCKED_LOAD_ARRIVAL (R188, R189): what access `k` of a core waits for arrives, between two bundles. -/
def execInterlockedLoadArrival (core : Fin 256) (k : Fin 64) (s : State) : Host.Outcome State Fault Refusal :=
  let n := core.val
  let c := s.core n
  match c.accesses[k.val]? with
  | none => .next s
  | some a =>
    if c.slot ≠ 0 ∨ a.kind = .store then .next s
    else match a.tag with
    | none => .next (s.accessData n a a.unit)
    | some t =>
      match s.net.packets.find? (fun p => p.dest.toNat == epCore n && decide (8 ≤ p.cmd.toNat) && p.tag == t && s.arrives p) with
      | none => .next s
      | some p => .next ((s.takeResponse p).coreResponse n p)

end Sys2Proof.Machine
end

