-- ==== Sys2Proof/Machine/TahrCtl.lean ====
section
/-! DEFINITION. Sequencing, synchronisation, submission and stimulus in the control/vector slot (R190, R191, R194 to R196,
R201, R227 to R231), and the start and end of tasks on a core (R193, R195). -/

namespace Sys2Proof.Machine

/-! ### Branches and loops -/

/-- The bundle is one in which a branch may not stand (R191): a delay slot, or the last bundle of an active body. -/
def Core.noBranchHere (c : Core) : Bool :=
  c.br.isSome || (List.range 3).any (fun l => c.la l && c.reg (rLE l) == c.pc)

/-- A branch word's action where R191 lets it stand, else SEQ and a NOP. -/
def State.placed (n : Nat) (act : Nat → State → State) (w : Nat) (s : State) : State :=
  if (s.core n).noBranchHere then s.coreErr n 0x02 0 (s.core n).pc else act w s

/-- Starts a branch: its two delay slots begin after its own bundle (R185). -/
def State.branchOn (s : State) (n : Nat) (target stat : Option Nat) : State :=
  s.setCore n { s.core n with br := some { target := target, left := 3, stat := stat } }

/-- Starts a branch to P address `a`. -/
def State.branchTo (s : State) (n a : Nat) : State := s.branchOn n (some (a / 16 * 16)) none

/-- A branch to an address a register holds. Outside P it raises UNMAPPED_LOCAL and is not performed, and issue goes on after the
delay slots (R227). -/
def State.branchReg (s : State) (n a : Nat) (stat : Option Nat) : State :=
  if a < 0x10000 then s.branchOn n (some (a / 16 * 16)) stat
  else
    let t := s.coreErr n 0x04 0 a
    if (t.core n).slot = 0 then t else t.branchOn n none none

/-- Levels whose LA a branch to `a` clears: an active level whose body does not hold `a`, and every active level whose body
contains that body (R191). -/
def Core.leftLevels (c : Core) (a : Nat) : List Nat :=
  let act := (List.range 3).filter c.la
  let out := act.filter (fun l => !(decide (c.reg (rLS l) ≤ a) && decide (a ≤ c.reg (rLE l))))
  act.filter (fun m => out.any (fun l => l == m || (decide (c.reg (rLS m) ≤ c.reg (rLS l)) && decide (c.reg (rLE l) ≤ c.reg (rLE m)))))

/-- A taken BR or BRC (R191). -/
def State.branchOut (s : State) (n a : Nat) : State :=
  let c := s.core n
  (s.setCore n ((c.leftLevels a).foldl (fun c l => c.setStat (4 + l) false) c)).branchTo n a

/-- LOOP (R190, R191, R229). -/
def State.loopStart (n w : Nat) (s : State) : State :=
  let c := s.core n
  let l := loopLvl w
  let r := rA (bitsOf w 12 4)
  let count := if loopReg w then c.reg r else bitsOf w 12 11
  let le := loopEnd w * 16
  if loopReg w && c.poisoned r then s.coreErr n 0x08 0 c.pc
  else if count ≠ 0 ∧ (List.range 3).any (fun m => m != l && c.la m && c.reg (rLE m) == le) = true then s.coreErr n 0x03 0 c.pc
  else
    let c := ((c.setReg (rLS l) (c.pc + 16)).setReg (rLE l) le).setReg (rLC l) count
    if count = 0 then s.setCore n { c.setStat (4 + l) false with skip := some (le + 16) }
    else s.setCore n (c.setStat (4 + l) true)

/-- LOOP (R190, R229). -/
def execLoop (core : Fin 256) (s : State) : Host.Outcome State Fault Refusal :=
  .next (s.slotCmd core.val 3 (opIs 0x10) (State.placed core.val (State.loopStart core.val)))

/-- BR (R227). -/
def execBr (core : Fin 256) (s : State) : Host.Outcome State Fault Refusal :=
  .next (s.slotCmd core.val 3 (opIs 0x11) (State.placed core.val (fun w s => s.branchOut core.val (brTarget w * 16))))

/-- The condition of a BRC holds (R228). -/
def brcTaken (c : Core) (w : Nat) : Bool :=
  let a := c.reg (rA (brcA w))
  let p := c.reg (rPred (brcP w))
  match brcCond w with
  | 0 => a == 0
  | 1 => a != 0
  | 2 => bitAt a 31
  | 3 => !bitAt a 31
  | 4 => p != 0
  | 5 => p == 0xF
  | _ => p == 0

/-- BRC (R228). -/
def execBrc (core : Fin 256) (s : State) : Host.Outcome State Fault Refusal :=
  .next (s.slotCmd core.val 3 (opIs 0x12) (State.placed core.val (fun w s =>
    let c := s.core core.val
    if brcCond w ≤ 3 ∧ c.poisoned (rA (brcA w)) = true then s.coreErr core.val 0x08 0 c.pc
    else if brcTaken c w then s.branchOut core.val (brTarget w * 16) else s)))

/-- CALL (R227): A_d takes the address after the second delay slot, with latency 1. -/
def execCall (core : Fin 256) (s : State) : Host.Outcome State Fault Refusal :=
  .next (s.slotCmd core.val 3 (opIs 0x13) (State.placed core.val (fun w s =>
    (s.fly core.val 3 1 (flight (rA (aD w)) ((s.core core.val).pc + 48) false)).branchTo core.val (brTarget w * 16))))

/-- RET (R227). -/
def execRet (core : Fin 256) (s : State) : Host.Outcome State Fault Refusal :=
  .next (s.slotCmd core.val 3 (opIs 0x14) (State.placed core.val (fun w s =>
    let c := s.core core.val
    let a := c.reg (rA (aD w))
    if c.poisoned (rA (aD w)) then s.coreErr core.val 0x08 0 a else s.branchReg core.val a none)))

/-- RET.I (R201). -/
def execRetI (core : Fin 256) (s : State) : Host.Outcome State Fault Refusal :=
  .next (s.slotCmd core.val 3 (opIs 0x15) (State.placed core.val (fun _ s =>
    let c := s.core core.val
    s.branchReg core.val (c.reg rIpc) (some (c.reg rIstat % 2 ^ 24)))))

/-! ### Tasks on a core (R193 to R195) -/

/-- STAT as TC_STAT_INIT gives it. -/
def State.statInit (s : State) (n : Nat) : Nat := s.get F.TC_STAT_INIT.STAT n

/-- Ends the issue of the present bundle, whose operations retire, and goes on at P address `a`. -/
def State.redirect (s : State) (n a : Nat) : State :=
  let s := s.landAll n
  let c := s.core n
  s.setCore n { c with step := c.step + (if c.slot = 0 then 0 else 1), slot := 0, bundle := 0, br := none, skip := none
                       pc := a % 0x10000 / 16 * 16, bpDone := false }

/-- The core's tasks end with a report for the running one; it resumes its lower task, or is idle (R194, R195). -/
def State.endTask (s : State) (n status detail : Nat) : State :=
  let s := s.redirect n (s.core n).resume
  let c := s.core n
  let s := (match c.task with | some h => s.reportEnd (n / 64) h.handle status detail | none => s)
  let c : Core := { c with accesses := c.accesses.filter (fun (a : Access) => decide (a.kind = AccKind.store)), wdt := none, frozen := none }
  match c.lower with
  | some l =>
    (s.setCore n { (c.setReg rStat (bitsSet (s.statInit n) 0 2 2)) with task := some l, lower := none }).wdtStart n
  | none => s.setCore n { c with task := none, pc := 0 }

/-- Starts a task (R193); an ENTRY outside P ends it at once, with its error in TC_ERR (R204). -/
def State.startTask (s : State) (n : Nat) (h : Held) : State :=
  let s := s.redirect n (dEntry h.d)
  let c := ((((s.core n).setReg rStat (s.statInit n)).setReg (rA 0) (dArg h.d)).setReg (rA 1)
    (n / 64 * 2 ^ 14 + dTaskId h.d)).setReg (rA 15) (s.reg R.TC_SP_INIT n)
  let c := [0, 1, 15].foldl (fun c k => c.setPoison (rA k) false) c
  let s := (s.setCore n { c with task := some h }).wdtStart n
  if dEntry h.d < 0x10000 then s else (s.recordCoreErr n 0x04 0 (dEntry h.d)).endTask n 3 0x04

/-- A step under the debugger ends with the bundle (R467). -/
def State.stepEnds (was : Bool) (s : State) (n : Nat) : State := if was then s.enterHalt n 5 0 else s

/-- TASK_START (R193): a delivered task starts on the idle core. -/
def execTaskStart (core : Fin 256) (s : State) : Host.Outcome State Fault Refusal :=
  let n := core.val
  let c := s.core n
  match c.arrived with
  | none => .next s
  | some h =>
    if c.task.isSome ∨ s.coreUp n = false ∨ s.coreHalted n = true ∨ s.clReset.get 0 (n / 8) ≠ 0 then .next s
    else .next ((s.setCore n { c with arrived := none }).startTask n h)

/-! ### SYNC and WAITEV (R178, R194 to R196) -/

/-- A SYNC word of the given FORM. -/
def syncIs (form w : Nat) : Bool := opOf w == 0x18 && syncForm w == form

/-- SYNC MEM (R194): the bundle issues once every earlier store has completed. -/
def execSyncMem (core : Fin 256) (s : State) : Host.Outcome State Fault Refusal :=
  .next (s.slotCmd core.val 3 (syncIs 0) (fun _ s => s))

/-- SYNC P (R178): every earlier store to P can be fetched. -/
def execSyncP (core : Fin 256) (s : State) : Host.Outcome State Fault Refusal :=
  .next (s.slotCmd core.val 3 (syncIs 1) (fun _ s =>
    let c := s.core core.val
    s.setCore core.val { c with pOld := c.pOld.filter (fun e => e.2.2 == c.step) }))

/-- SYNC END (R194). -/
def execSyncEnd (core : Fin 256) (s : State) : Host.Outcome State Fault Refusal :=
  .next (s.slotCmd core.val 3 (syncIs 2) (fun _ s => (s.endTask core.val 0 0).stepEnds (s.core core.val).stepping core.val))

/-- The preemption pending at core `n` that the runtime may accept (R195). The dispatcher tested the account, TSK_CTRL.EN and its
completion buffer when it chose the core; R195 names no further test at the acceptance (DEDUCED, log 101). -/
def State.preemptAt (s : State) (n : Nat) : Option Nat :=
  if bitAt (s.get F.TC_IRQ_PEND.PEND n) 0 = true ∧ s.coreState n = 2 then
    ((s.dsp (n / 64)).preempt.find? (fun p => p.1 == n % 64)).map (fun p => p.2.1)
  else none

/-- The core accepts the preemption by the task with handle `h`, to resume its task at `a` (R166, R195). -/
def State.acceptPreempt (s : State) (n h a : Nat) : State :=
  let q := n / 64
  let e := n % 64
  let s := s.landAll n
  match (s.dsp q).task? h, (s.core n).task with
  | none, _ => s
  | _, none => s
  | some t, low =>
    let s := (match low with | some l => s.setTask q l.handle (fun t => { t with preempted := true }) | none => s)
    let s := (s.withdraw q e).dispatchTask q h e true
    let s := s.count F.TSK_PREEMPT_CNT.DONE q 1
    let s := s.setCore n { s.core n with lower := low, resume := a }
    (s.startTask n { handle := h, d := t.d }).redecide q

/-- SYNC ACCEPT (R195). -/
def execSyncAccept (core : Fin 256) (s : State) : Host.Outcome State Fault Refusal :=
  .next (s.slotCmd core.val 3 (syncIs 3) (State.placed core.val (fun w s =>
    let n := core.val
    let c := s.core n
    let a := c.reg (rA (syncA w))
    if c.poisoned (rA (syncA w)) then s.coreErr n 0x08 0 a
    else match s.preemptAt n with
    | some h => (s.acceptPreempt n h a).stepEnds c.stepping n
    | none => s.branchReg n a none)))

/-- WAITEV (R196): the bundle issues once a masked source is pending. -/
def execWaitev (core : Fin 256) (s : State) : Host.Outcome State Fault Refusal :=
  .next (s.slotCmd core.val 3 (opIs 0x19) (fun _ s => s))

/-! ### SUBMIT and STIM (R230, R231) -/

/-- Reads the four words of a descriptor. -/
def State.readDescriptor (s : State) (n a : Nat) : State × List DataUnit :=
  (List.range 4).foldl (fun (r : State × List DataUnit) k =>
    match localOf a, localWord n (a + 16 * k) with
    | .x _, some w => let (t, u) := r.1.localRead n w (a + 16 * k); (t, r.2 ++ [u])
    | _, some w => let (t, u) := r.1.ocRead w; (t, r.2 ++ [u])
    | _, none => r) (s, [])

/-- SUBMIT (R230). -/
def execSubmitInstruction (core : Fin 256) (s : State) : Host.Outcome State Fault Refusal :=
  .next (s.slotCmd core.val 3 (opIs 0x1A) (fun w s =>
    let n := core.val
    let c := s.core n
    let a := c.reg (rA (subS w)) / 64 * 64
    if c.poisoned (rA (subS w)) then s.coreErr n 0x08 0 a
    else if (match localOf a with | .x _ => true | .scratch _ => true | _ => false) = false then s.coreErr n 0x04 0 a
    else
      let (s, us) := (s.watch n a 64 1).readDescriptor n a
      if (s.core n).slot = 0 then s
      else
        let tag := s.freshTag (epCore n)
        let q := if bitsOf w 17 1 = 1 then n / 64 else bitsOf w 15 2
        (s.addAccess n { kind := .submit (rA (subD w)), addr := a, tag := some tag }).inject
          { src := BitVec.ofNat 10 (epCore n), cmd := 5, vc := 0, tag := tag, len := 3, addr := BitVec.ofNat 48 q
            data := us, acc := .tahr }))

/-- STIM (R231, R474). -/
def execStim (core : Fin 256) (s : State) : Host.Outcome State Fault Refusal :=
  .next (s.slotCmd core.val 3 (opIs 0x1B) (fun w s =>
    let c := s.core core.val
    let v := c.reg (rA (stimS w)) + (if stimD64 w then c.reg (rA (stimS w + 1)) * 2 ^ 32 else 0)
    s.stimulus core.val 0 core.val (stimPort w) v (stimD64 w)))

/-! ### Bundles without effect (R214) -/

/-- NOP: a zero word in slot `k`. -/
def execNop (core : Fin 256) (k : Fin 4) (s : State) : Host.Outcome State Fault Refusal :=
  .next (s.slotCmd core.val k.val (fun w => w == 0) (fun _ s => s))

/-- ILLEGAL_BUNDLE (R214): an illegal bundle issues as NOPs and raises ILLEGAL_OP; so does one whose fetched word is poisoned,
with MEM_UE (R204). -/
def execIllegalBundle (core : Fin 256) (s : State) : Host.Outcome State Fault Refusal :=
  let n := core.val
  if (s.core n).slot ≠ 0 ∨ s.mayIssue n = false ∨ (s.bpDue n).isSome = true then .next s
  else
    let (t, b, p) := s.fetchBundle n
    let c := t.core n
    if p = false ∧ bundleLegal c.pc b = true then .next s
    else
      let t := (t.setCore n { c with slot := 4, bundle := 0 }).coreErr n (if p then 0x09 else 0x01) 0 c.pc
      .next (t.slotDone n 3)

end Sys2Proof.Machine
end

