-- ==== Sys2Proof/Machine/TahrEvent.lean ====
section
/-! DEFINITION. Events of the Tahr cores beside their instructions: interrupt entry (R200), the timer and the watchdog
(R206), pace sensors (R175) and the CLUSTER reset (R426). -/

namespace Sys2Proof.Machine

/-- Core `n` takes source `k` (R200). -/
def State.enterInterrupt (s : State) (n k : Nat) : State :=
  let s := (s.landAll n).clearResv n
  let c := s.core n
  let st := c.stat
  let c := (c.setReg rIpc c.pc).setReg rIstat (st % 2 ^ 24 + k * 2 ^ 24)
  let c := c.setReg rStat (bitsSet (bitsSet (bitsSet st 0 1 0) 1 1 1) 4 3 0)
  s.setCore n { c with pc := (s.get F.TC_VBASE.ADDR n * 64 + k * 0x40) % 0x10000, bpDone := false }

/-- INTERRUPT_ENTRY (R198 to R200): at a legal boundary of a core that holds a task and is neither halted nor about to
be. -/
def execInterruptEntry (core : Fin 256) (s : State) : Host.Outcome State Fault Refusal :=
  let n := core.val
  let c := s.core n
  match s.nextSource n with
  | none => .next s
  | some k =>
    if c.slot = 0 ∧ c.task.isSome = true ∧ s.coreUp n = true ∧ s.coreHalted n = false ∧ c.haltReq.isNone = true ∧
        s.clReset.get 0 (n / 8) = 0 ∧ c.legalBoundary = true then .next (s.enterInterrupt n k)
    else .next s

/-- CORE_TIMER_FIRE (R206). -/
def execCoreTimerFire (core : Fin 256) (s : State) : Host.Outcome State Fault Refusal :=
  let n := core.val
  let c := s.core n
  match c.timer with
  | none => .next s
  | some t =>
    if s.isSet F.TC_TIMER_CTRL.EN n = true ∧ s.coreUp n = true ∧ 0 ≤ diff64 s.now t then
      .next (((s.setCore n { c with timer := none }).put F.TC_TIMER_CTRL.FIRED n 1).coreIrq n 1)
    else .next s

/-- TC_TIMER_LO_WRITE (R206). -/
def execTcTimerLoWrite (acc : Accessor) (v : Word) (s : State) : Host.Outcome State Fault Refusal :=
  .next (s.ownedWrite acc 0 R.TC_TIMER_LO 0 (fun n t => t.tcWrite n R.TC_TIMER_LO 0 v.toNat))

/-- WATCHDOG_EXPIRY (R206). -/
def execWatchdogExpiry (core : Fin 256) (s : State) : Host.Outcome State Fault Refusal :=
  let n := core.val
  match (s.core n).wdt with
  | none => .next s
  | some t =>
    if s.now < t then .next s
    else if s.isSet F.TC_WDT_CTRL.WARN n = true ∧ s.isSet F.TC_WDT_CTRL.WARNED n = false then
      let s := (s.put F.TC_WDT_CTRL.WARNED n 1).setCore n { s.core n with wdt := some (s.now + s.wdtLoad n) }
      .next (s.coreErr n 0x0A 0 (s.core n).pc)
    else .next (s.coreFault n 0x0C)

/-- TC_WDT_KICK (R206). -/
def execTcWdtKick (acc : Accessor) (v : Word) (s : State) : Host.Outcome State Fault Refusal :=
  .next (s.ownedWrite acc 0 R.TC_WDT_KICK 0 (fun n t => t.wdtKick n v.toNat))

/-- TC_IRQ_SET (R197, R210). -/
def execTcIrqSet (acc : Accessor) (v : Word) (s : State) : Host.Outcome State Fault Refusal :=
  .next (s.ownedWrite acc 0 R.TC_IRQ_SET 0 (fun n t => t.tcWrite n R.TC_IRQ_SET 0 v.toNat))

/-- PACE_SENSOR_UPDATE (R175): the reading of cluster `e`'s sensor, or of engine `e - 32`'s; one that is off shows 0. A
reading that leaves 0 may make elements free, so their dispatcher decides again (R159, R160). -/
def execPaceSensorUpdate (e : Fin 136) (pace : BitVec 16) (s : State) : Host.Outcome State Fault Refusal :=
  if e.val < 32 then
    if s.domUp (domCluster e.val) then
      let t := s.put F.CL_PACE.PACE e.val pace.toNat
      .next (if s.get F.CL_PACE.PACE e.val = 0 ∧ pace ≠ 0 then t.redecide (e.val / 8) else t)
    else .next s
  else
    let k := e.val - 32
    let t := { s with engPace := s.engPace.set 0 k (if s.domUp (domEngine k) then pace.toNat else 0) }
    .next (if s.engPace.get 0 k = 0 ∧ t.engPace.get 0 k ≠ 0 then t.redecide (k / 26) else t)

/-! ### The CLUSTER reset (R426) -/

/-- Returns registers to their reset values (R421): those of the rows and instances `f` chooses that do not survive
the reset or state of bit `kind`. -/
def State.resetRegs (s : State) (kind : Nat) (f : RegRow → Nat → Bool) : State :=
  { s with regs := s.regs.filter (fun e =>
      match regLookup (e.1 / 2 ^ 32) with
      | some (r, _) => bitAt r.surv kind || !f r (e.1 % 2 ^ 32)
      | none => true) }

/-- A row's instance lies in cluster `c`. -/
def rowInCluster (c : Nat) (r : RegRow) (i : Nat) : Bool :=
  (r.sel == .cluster && i == c) || (r.sel == .tc && i / r.n / 8 == c)

/-- A core as a cluster power-up leaves it (R180): `st` is the STAT it takes. A task on its link, a requested halt and the
armed timer, which is TC configuration, are kept where `keep` says. -/
def coreFresh (st : Nat) (c : Core) (keep : Bool) : Core :=
  ({ arrived := c.arrived, haltReq := c.haltReq, timer := if keep then c.timer else none : Core }).setReg rStat st

/-- Ends everything core `n` runs with a status (R167, R426 step 1). -/
def State.abortCore (s : State) (n status : Nat) : State :=
  let c := s.core n
  let s := s.reportTasks n c status 0
  let s := (match c.arrived with | some h => s.reportEnd (n / 64) h.handle status 0 | none => s)
  let s := (s.stopCore n).clearResv n
  s.setCore n { s.core n with arrived := none, accesses := [] }

/-- Step 1 of a CLUSTER reset. -/
def State.clusterStop (s : State) (c : Nat) : State :=
  let q := c / 8
  let hit := (s.dsp q).sent.filter (fun e => decide (e.1 / 8 = c % 8) && decide (e.1 < 64))
  let s := s.setDsp q { s.dsp q with sent := (s.dsp q).sent.filter (fun e => !hit.contains e) }
  let s := hit.foldl (fun s e => s.reportEnd q e.2 4 0) s
  let s := (List.range 8).foldl (fun s j => s.abortCore (8 * c + j) 4) s
  { s with clReset := s.clReset.set 0 c 1
           net := { s.net with wait := s.net.wait.filter (fun e => (coreOfEp e.1).map (· / 8) != some c) } }

/-- Every core of a cluster has an outstanding count of 0. -/
def State.clusterDrained (s : State) (c : Nat) : Bool :=
  (List.range 8).all (fun j => (s.outstanding (epCore (8 * c + j))).isEmpty)

/-- Step 3: registers marked L take their defaults; a core under a halt comes back halted (R470). -/
def State.clusterDefaults (s : State) (c : Nat) : State :=
  let halted := (List.range 8).filter (fun j => s.coreHalted (8 * c + j))
  let s := s.resetRegs 6 (rowInCluster c)
  let s := (List.range 8).foldl (fun s j => s.setCore (8 * c + j) (coreFresh (s.statInit (8 * c + j)) (s.core (8 * c + j)) false)) s
  let s := halted.foldl (fun s j => s.put F.TC_STATE.HALTED (8 * c + j) 1) s
  { s with clReset := s.clReset.set 0 c (2 + s.now) }

/-- A CLUSTER reset is requested: ignored during a boot flow (R422). -/
def State.clusterReset (s : State) (c : Nat) : State :=
  if s.clReset.get 0 c = 0 ∧ s.cfg.phase = .started then s.clusterStop c else s

/-- CLUSTER_RESET (R426): a write of CL_CTRL.RESET by an accessor (`req`) to its selected cluster, or the next step of a reset
of cluster `c`. -/
def execClusterReset (req : Option Accessor) (c : Fin 32) (s : State) : Host.Outcome State Fault Refusal :=
  match req with
  | some a => .next (s.ownedWrite a 0 R.CL_CTRL 0 (fun c t => t.clusterReset c))
  | none =>
    match s.clReset.get 0 c.val with
    | 0 => .next s
    | 1 => if s.clusterDrained c.val then .next (s.clusterDefaults c.val) else .next s
    | t =>
      if s.now < t - 2 + 2000 then .next s
      else .next ({ s with clReset := s.clReset.set 0 c.val 0 }.redecide (c.val / 8))

end Sys2Proof.Machine
end

