-- ==== Sys2Proof/Machine/Debug.lean ====
section
/-! DEFINITION. Debug access and run control (R462 to R472) and the DEBUG reset (R427). -/

namespace Sys2Proof.Machine

/-- Debug level (R446). -/
def State.dbgLevel (s : State) : Nat := s.debugLevel

/-- The agent is halted. -/
def State.agentHalted (s : State) (n : Nat) : Bool := s.isSet F.DBG_CORE_STATUS.HALTED n

/-- The agents of the debug logic are cores, and Chamois and Gauntlet at level 2 (R465). -/
def State.agentOpen (s : State) (n : Nat) : Bool := decide (n < 256) || s.dbgLevel == 2

/-- Requests a halt of agent `n`: a core halts at its next bundle boundary (R465). -/
def State.requestHalt (s : State) (n cause unit : Nat) : State :=
  if s.agentHalted n = true ∨ s.agentOpen n = false then s
  else if n < 256 then
    (if (s.core n).haltReq.isSome then s else s.setCore n { s.core n with haltReq := some (cause, unit) })
  else s.markHalted n cause unit

/-- HALT (R465): a write of HALT to DBG_CORE_CTRL. -/
def execHalt (acc : Accessor) (s : State) : Host.Outcome State Fault Refusal :=
  .next (s.ownedWrite acc 0 R.DBG_CORE_CTRL 0 (fun n t => t.requestHalt n 1 0))

/-- CORE_HALTED (R465, R469): a core at a bundle boundary halts; one in a CLUSTER reset joins when the reset ends. -/
def execCoreHalted (core : Fin 256) (s : State) : Host.Outcome State Fault Refusal :=
  let n := core.val
  let c := s.core n
  match c.haltReq with
  | none => .next s
  | some (cause, unit) =>
    if c.slot ≠ 0 ∨ s.clReset.get 0 (n / 8) ≠ 0 then .next s else .next ((s.landAll n).enterHalt n cause unit)

/-- Releases agent `n` (R467, R471): the watchdog of a core restarts with the larger of its remaining time and
DBG_WDT_GRACE; that of Chamois, whose kicks the model does not hold, expires no earlier than DBG_WDT_GRACE after. -/
def State.resumeAgent (s : State) (n : Nat) : State :=
  let s := (s.put F.DBG_CORE_STATUS.HALTED n 0).put F.DBG_CORE_STATUS.CAUSE n 0
  if n = 256 then { s with mbx := { s.mbx with fwWait := s.now + s.reg R.DBG_WDT_GRACE 0 } }
  else if 256 < n then s
  else
    let s := s.put F.TC_STATE.HALTED n 0
    let c := s.core n
    let w := match c.frozen with | some t => some (s.now + max t (s.reg R.DBG_WDT_GRACE 0)) | none => c.wdt
    (s.setCore n { c with wdt := w, frozen := none, stepping := false, bpDone := false, haltReq := none }).redecide (n / 64)

/-- RESUME (R467). -/
def execResume (acc : Accessor) (s : State) : Host.Outcome State Fault Refusal :=
  .next (s.ownedWrite acc 0 R.DBG_CORE_CTRL 0 (fun n t =>
    if t.agentHalted n = true ∧ t.agentOpen n = true then t.resumeAgent n else t))

/-- STEP (R467): a halted core that holds a task may issue one bundle. -/
def execStep (acc : Accessor) (s : State) : Host.Outcome State Fault Refusal :=
  .next (s.ownedWrite acc 0 R.DBG_CORE_CTRL 0 (fun n t =>
    if n < 256 ∧ t.agentHalted n = true ∧ (t.core n).task.isSome = true
    then t.setCore n { t.core n with stepping := true } else t))

/-- BREAKPOINT_HIT (R468): the units that match the next bundle act before it issues. -/
def execBreakpointHit (core : Fin 256) (s : State) : Host.Outcome State Fault Refusal :=
  let n := core.val
  let c := s.core n
  if s.mayIssue n = true ∧ (s.bpDue n).isSome = true then
    let s := s.setCore n { c with bpDone := true }
    .next ((List.range 4).foldl (fun s k =>
      if s.isSet F.DBG_BP_CTRL.EN (4 * n + k) && s.get F.DBG_BP_ADDR.BUNDLE (4 * n + k) == c.pc / 16 then
        let act := s.get F.DBG_BP_CTRL.ACTION (4 * n + k)
        if act = 1 ∨ act = 2 then s.unitAct n act (c.pc / 16) else s.requestHalt n 2 k
      else s) s)
  else .next s

/-- HALT_GROUP_PROPAGATE (R469): a new halt of agent `m` reaches the other members of its group. -/
def execHaltGroupPropagate (m : Fin 258) (s : State) : Host.Outcome State Fault Refusal :=
  let g := fun k => s.get F.DBG_CORE_GROUP.GROUP k
  if s.dbg.fresh.get false m.val = false then .next s
  else
    let t := { s with dbg := { s.dbg with fresh := s.dbg.fresh.set false m.val false } }
    if s.isSet F.DBG_CORE_GROUP.EN m.val = false then .next t
    else .next (((List.range 258).filter (fun k => k != m.val && s.isSet F.DBG_CORE_GROUP.EN k && g k == g m.val)).foldl
      (fun t k => t.requestHalt k 4 0) t)

/-! ### Registers of a halted core (R467) -/

/-- A register number DBG_REG_SEL may name. -/
def dbgNumber (r : Nat) : Bool := movNumber r || (decide (0x60 ≤ r) && decide (r ≤ 0x67))

/-- What DBG_REG_DATA_k reads of core `n` (R467). -/
def State.dbgRegRead (s : State) (a : Accessor) (n k : Nat) : Nat :=
  let r := s.sel a F.DBG_REG_SEL.REG
  let part := s.sel a F.DBG_REG_SEL.PART
  if 256 ≤ n ∨ s.agentHalted n = false ∨ dbgNumber r = false ∨ (0x60 ≤ r ∧ part = 3) then 0
  else bitsOf ((s.core n).reg r) ((if 0x60 ≤ r then 128 * part else 0) + 32 * k) 32

/-- A read of DBG_REG_DATA_k while core `n` is not halted sets NOT_HALTED (R467). -/
def State.dbgRegReadNote (s : State) (n : Nat) : State :=
  if n < 256 ∧ s.agentHalted n = false then s.put F.DBG_CORE_STATUS.NOT_HALTED n 1 else s

/-- A write of DBG_REG_DATA_k: 32 bits of the register, whose poison flag clears (R467). -/
def State.dbgRegWrite (s : State) (a : Accessor) (n k v : Nat) : State :=
  let r := s.sel a F.DBG_REG_SEL.REG
  let part := s.sel a F.DBG_REG_SEL.PART
  if 256 ≤ n then s
  else if s.agentHalted n = false ∨ r = rStepLo ∨ r = rStepHi then s.put F.DBG_CORE_STATUS.NOT_HALTED n 1
  else if dbgNumber r = false ∨ (0x60 ≤ r ∧ part = 3) then s
  else
    let c := s.core n
    let lo := (if 0x60 ≤ r then 128 * part else 0) + 32 * k
    s.setCore n ((c.setReg r (bitsSet (c.reg r) lo 32 v)).setPoison r false)

/-- DBG_REG_DATA_WRITE (R467). -/
def execDbgRegDataWrite (acc : Accessor) (k : Fin 4) (v : Word) (s : State) : Host.Outcome State Fault Refusal :=
  .next (s.ownedWrite acc 0 R.DBG_REG_DATA k.val (fun i t => t.dbgRegWrite acc (i / 4) (i % 4) v.toNat))

/-- A write of DBG_CORE_PC: the resume point of a halted core; loop levels and delay slots clear (R467). -/
def State.dbgPcWrite (s : State) (n v : Nat) : State :=
  if n < 256 ∧ s.agentHalted n = true then
    let c := s.core n
    s.setCore n { (c.setReg rStat (bitsSet c.stat 4 3 0)) with pc := v % 0x10000 / 16 * 16, br := none, skip := none, bpDone := false }
  else s

/-- DBG_CORE_PC_WRITE (R467). -/
def execDbgCorePcWrite (acc : Accessor) (v : Word) (s : State) : Host.Outcome State Fault Refusal :=
  .next (s.ownedWrite acc 0 R.DBG_CORE_PC 0 (fun n t => t.dbgPcWrite n v.toNat))

/-- DBG_CTRL_WRITE (R472). -/
def execDbgCtrlWrite (acc : Accessor) (v : Word) (s : State) : Host.Outcome State Fault Refusal :=
  .next (s.ownedWrite acc 0 R.DBG_CTRL 0 (fun _ t => t.writePlain R.DBG_CTRL 0 v.toNat))

/-! ### Access (R463) -/

/-- Global addresses of the MBX_7 window (R39). -/
def inMbx7 (a : Nat) : Bool := decide (baseRegs + 0x170000 ≤ a) && decide (a < baseRegs + 0x180000)

/-- The address is in the private range (R32). -/
def inPrivate (a : Nat) : Bool := match decodeAddr a with | .chamoisMem => true | .gauntletMem => true | _ => false

/-- DBG_ACCESS (R463): a request of the debugger, as the debug endpoint injects it; refused with UNMAPPED below the level its
address needs. -/
def execDbgAccess (p : Packet) (s : State) : Host.Outcome State Fault Refusal :=
  let a := p.addr.toNat
  let q := { p with src := BitVec.ofNat 10 epDebug, vc := 3, debug := true, acc := .debugger }
  let need := if inMbx7 a then 0 else if inPrivate a then 2 else 1
  if q.cmd.toNat ≠ cmdDebugRead ∧ q.cmd.toNat ≠ cmdDebugWrite then .next s
  else if s.dbgLevel < need ∧ pktOk q = true then .next (s.refuseInjection q 1)
  else .next (s.inject q)

/-! ### DEBUG reset (R427) -/

/-- A row of the debug domain. -/
def dbgRow (r : RegRow) : Bool := r.off / 0x100000 == 14 || r.off == R.SEC_DBG_STATUS.off

/-- Empties a range of stored bytes, with its marks. -/
def State.zeroBytes (s : State) (lo n : Nat) : State :=
  let out := fun (k : Nat) => decide (k < lo) || decide (lo + n ≤ k)
  { s with store := { s.store with
      bytes := s.store.bytes.filter (fun e => out e.1)
      poison := s.store.poison.filter (fun e => out (16 * e.1))
      damage := s.store.damage.filter (fun e => out (16 * e.1)) } }

/-- What a DEBUG reset does to the debug domain. -/
def State.debugReset (s : State) : State :=
  let halted := (List.range 258).filter s.agentHalted
  let s := halted.foldl (fun s n => s.resumeAgent n) s
  let s := (s.resetRegs 7 (fun r _ => dbgRow r)).zeroBytes baseTrace 0x100000
  { s with trace := {}, dbg := {} }

/-- DEBUG_RESET (R427). -/
def execDebugReset (s : State) : Host.Outcome State Fault Refusal := .next s.debugReset

end Sys2Proof.Machine
end

