-- ==== Sys2Proof/Machine/Secure.lean ====
section
/-! DEFINITION. Gauntlet (R429 to R448): fuses and what a boot reads of them, the key RAM, provisioning requests, tamper and
debug lockout. The outcome of blowing a fuse is an operand. -/

namespace Sys2Proof.Machine

/-! ### Bytes and digests -/

/-- Bytes of a 256-bit item, lowest first. -/
def bytes256 (v : BitVec 256) : List Nat := Crypto.leNat 32 v.toNat

/-- A 32-byte string as an item. -/
def item256 (l : List Nat) : BitVec 256 := BitVec.ofNat 256 (Crypto.natLe l)

/-- SHA-256 of bytes. -/
def digest (l : List Nat) : BitVec 256 := item256 (Crypto.sha256 l)

/-- Bytes as numbers. -/
def natBytes (l : List Byte) : List Nat := l.map (·.toNat)

/-- Numbers as bytes. -/
def toBytes (l : List Nat) : List Byte := l.map (BitVec.ofNat 8)

/-! ### The fuse map (R432, R433) -/

/-- Image-key slot `k`. -/
def Fuses.imgSlot (f : Fuses) (k : Nat) : ImgSlot := f.img.get {} k

/-- Debug hash slot `d`; slot 7 is Rondan's. -/
def Fuses.dbgSlot (f : Fuses) (d : Nat) : DbgSlot :=
  if d = 7 then { hash := Config.rondanHash, valid := true } else f.dbg.get {} d

/-- The lowest-numbered valid, unrevoked slot. -/
def Fuses.slotInUse (f : Fuses) : Option Nat :=
  findBelow 4 (fun k => (f.imgSlot k).valid && !(f.imgSlot k).revoke)

/-- The golden base the fuse gives. -/
def Fuses.goldenBase (f : Fuses) : Option Nat := if f.goldenPartly then none else f.golden

/-- Items whose data bits are partly blown without VALID: Gauntlet revokes or kills them (R435). -/
def Fuses.settle (f : Fuses) : Fuses :=
  let f := (List.range 4).foldl (fun f k =>
    let x := f.imgSlot k
    if x.partly && !x.valid && !x.revoke then
      { f with img := f.img.set {} k { x with revoke := true }, spoiled := f.spoiled ||| 2 ^ k } else f) f
  let f := (List.range 7).foldl (fun f d =>
    let x := f.dbgSlot d
    if x.partly && !x.valid && !x.kill then
      { f with dbg := f.dbg.set {} d { x with kill := true }, spoiled := f.spoiled ||| 2 ^ (8 + d) } else f) f
  if f.goldenPartly then { f with spoiled := f.spoiled ||| 2 ^ 16 } else f

/-- Sets Gauntlet's record. -/
def State.setSec (s : State) (x : Sec) : State := { s with sec := x }

/-- What Gauntlet reads at step 2 of the boot flow (R367, R429). -/
def State.bootRead (s : State) : State :=
  let f := s.sec.fuses.settle
  s.setSec { s.sec with fuses := f, life := f.life, base := f.base, fw := f.fw, slot := f.slotInUse }

/-- The device key (R433). -/
def State.deviceKey (s : State) : Option (BitVec 256) := s.sec.slot.map (fun k => (s.sec.fuses.imgSlot k).key)

/-! ### Registers (R448) -/

/-- Bits of slots for which `f` holds. -/
def slotBits (n : Nat) (f : Nat → Bool) : Nat := (List.range n).foldl (fun a k => if f k then a + 2 ^ k else a) 0

def Fuses.imgValid (f : Fuses) : Nat := slotBits 4 (fun k => (f.imgSlot k).valid)
def Fuses.imgRevoked (f : Fuses) : Nat := slotBits 4 (fun k => (f.imgSlot k).revoke)
def Fuses.dbgValid (f : Fuses) : Nat := slotBits 8 (fun d => (f.dbgSlot d).valid)

def State.secLifecycle (s : State) : Nat :=
  s.sec.life + s.sec.fuses.life * 2 ^ 4 + bit (s.sec.life != s.sec.fuses.life) * 2 ^ 8

def State.secFuseStatus (s : State) : Nat :=
  let f := s.sec.fuses
  f.imgValid + f.imgRevoked * 2 ^ 4 + s.sec.slot.getD 0 * 2 ^ 8 + bit s.sec.slot.isNone * 2 ^ 11 + f.dbgValid * 2 ^ 16 +
    bit f.goldenBase.isSome * 2 ^ 24 + 2 ^ 25

def State.secArb (s : State) : Nat := s.sec.fuses.base + s.sec.fuses.fw * 2 ^ 16

def State.secKeyRam (s : State) : Nat := slotBits 8 (fun e => (s.sec.keyRam.get none e).isSome)

/-! ### Clearing secrets (R431, R440) -/

/-- Clears memory key slots 1 to 63 (R301). -/
def State.clearKeys (s : State) : State := { s with store := { s.store with keys := [] } }

/-- Returns the debug unlock to locked; a halt in progress is released as a DEBUG reset releases it (R447). -/
def State.debugLock (s : State) : State :=
  let s := s.setReg R.SEC_DBG_STATUS 0 (bitsSet (bitsSet (s.reg R.SEC_DBG_STATUS 0) 0 2 0) 9 3 0)
  (List.range 258).foldl (fun t n => if t.agentHalted n then t.resumeAgent n else t) s

/-- Zeroises the key RAM. -/
def State.clearKeyRam (s : State) : State := s.setSec { s.sec with keyRam := [] }

/-- TAMPER (R440): TAMPER_N has stayed low for `ns`; the device is powered or only VBAT is present. -/
def execTamper (ns : BitVec 32) (powered : Bool) (s : State) : Host.Outcome State Fault Refusal :=
  if ns.toNat < 2000 then .next s
  else
    let s := (s.clearKeyRam.put F.SEC_TAMPER.TAMPERED 0 1)
    if powered then
      .next ((s.clearKeys.debugLock).raise { code := 0x0381, sev := 2, source := srcGauntlet })
    else .next s

/-- VBAT_LOSS (R440): from now on the backed part of Mitten has VAUX alone (R395). -/
def execVbatLoss (s : State) : Host.Outcome State Fault Refusal :=
  let s := s.clearKeyRam.put F.SEC_TAMPER.TAMPERED 0 0
  .next { s with power := { s.power with vbatGone := true } }

/-! ### Debug challenge and lockout (R447) -/

/-- DEBUG_CHALLENGE_EXPIRY (R447). -/
def execDebugChallengeExpiry (s : State) : Host.Outcome State Fault Refusal :=
  match s.sec.challenge with
  | some (_, t) =>
    if t + 60000000000 ≤ s.now then .next ((s.setSec { s.sec with challenge := none }).put F.SEC_DBG_STATUS.CHAL_VALID 0 0)
    else .next s
  | none => .next s

/-- LOCKOUT_END (R447). -/
def execLockoutEnd (s : State) : Host.Outcome State Fault Refusal :=
  if s.isSet F.SEC_DBG_STATUS.LOCKOUT 0 ∧ s.sec.lockAt + 10000000000 ≤ s.now then
    .next ((s.put F.SEC_DBG_STATUS.LOCKOUT 0 0).put F.SEC_DBG_STATUS.FAILS 0 0)
  else .next s

/-! ### Provisioning requests (R436 to R438) -/

/-- The bytes of a request. -/
def reqBytes (req : BitVec 2176) : List Nat := Crypto.leNat 272 req.toNat
def reqPart (req : BitVec 2176) (o n : Nat) : List Nat := ((reqBytes req).drop o).take n
def reqOp (req : BitVec 2176) : Nat := bitsOf req.toNat 32 8
def reqIndex (req : BitVec 2176) : Nat := bitsOf req.toNat 40 8
def reqValue (req : BitVec 2176) : Nat := bitsOf req.toNat 64 64

/-- How the blowing of an item's fuses ends (R435): every bit verifies, a bit does not after 3 attempts, or a reset cuts
it short, so that no response follows. -/
def blowOk : Fin 3 → Bool := fun b => b.val == 0

/-- The request satisfies R437's three conditions: nonce, signer, signature. -/
def State.reqSigned (s : State) (req : BitVec 2176) : Bool :=
  let key := reqPart req 0x90 64
  item256 (reqPart req 0x10 32) == s.sec.nonce &&
    (match s.sec.slot with | some k => (s.sec.fuses.imgSlot k).hash == digest key | none => false) &&
    Crypto.ecdsaVerify (Crypto.sha256 (reqPart req 0 0xD0)) (Crypto.natBe (key.take 32)) (Crypto.natBe (key.drop 32))
      (Crypto.natBe (reqPart req 0xD0 32)) (Crypto.natBe (reqPart req 0xF0 32))

/-- Status a request ends with before its operation's own checks (R437): 0 where it may go on. DESIGN CHOICE: a wrong MAGIC
or reserved field ends with E_PARAM, and the order is form, lifecycle, PROV_LOCK, authentication, KEYRAM_LOCK (log 53). -/
def State.reqCheck (s : State) (req : BitVec 2176) : Nat :=
  let op := reqOp req
  let open' := decide (op = 0 ∨ op = 8 ∨ op = 9)
  if req.toNat % 2 ^ 32 ≠ 0x52504D45 ∨ bitsOf req.toNat 48 16 ≠ 0 then stParam
  else if open' then stOK
  else if s.sec.life = 3 then stState
  else if s.isSet F.SEC_LOCKS.PROV_LOCK 0 then stLocked
  else if s.sec.life ≠ 0 ∧ s.reqSigned req = false then stAuth
  else if (op = 6 ∨ op = 7) ∧ s.isSet F.SEC_LOCKS.KEYRAM_LOCK 0 then stLocked
  else stOK

/-- Ends a request (R436): SEC_REQ_STATUS, a fresh nonce, and the response with `extra` after its 40 bytes. -/
def State.reqEnd (s : State) (req : BitVec 2176) (status : Nat) (extra : List Nat := []) : State :=
  let nonce := Config.random 256 s.free
  let rsp := Crypto.leNat 2 status ++ List.replicate 6 0 ++ bytes256 nonce ++ extra
  let s := { s with free := s.free + 1 }
  (s.setSec { s.sec with nonce := nonce, rsp := toBytes rsp :: s.sec.rsp }).setReg R.SEC_REQ_STATUS 0
    (reqOp req * 2 ^ 8 + status * 2 ^ 16)

/-- Runs a request of operation `op`: its status and the state after. -/
def State.runReq (s : State) (req : BitVec 2176) (op : Nat) (body : State → Nat × State) : State :=
  if reqOp req ≠ op then s
  else
    let c := s.reqCheck req
    if c ≠ stOK then s.reqEnd req c
    else
      let (st, t) := body s
      t.reqEnd req st

/-- FUSE_FAIL (R435). -/
def State.fuseFail (s : State) : State := s.raise { code := 0x0380, sev := 3, source := srcGauntlet }

/-- A key carried by a request: wrapped with the device key, or in BLANK plaintext and 8 zero bytes (R437). -/
def State.reqKey (s : State) (blob : List Nat) : Option (BitVec 256) :=
  if s.sec.life = 0 then (if blob.drop 32 = List.replicate 8 0 then some (item256 (blob.take 32)) else none)
  else match s.deviceKey with
  | some k => (Crypto.unwrap (bytes256 k) blob).map item256
  | none => none

/-- Sets the fuses. -/
def State.setFuses (s : State) (f : Fuses) : State := s.setSec { s.sec with fuses := f }

/-- Runs a fuse-blowing request: with a cut there is no response (R435). -/
def State.runFuse (s : State) (req : BitVec 2176) (op : Nat) (blow : Fin 3) (body : State → Nat × State) : State :=
  if blow.val = 2 then
    if reqOp req = op ∧ s.reqCheck req = stOK then (body s).2 else s
  else s.runReq req op body

/-- GET_NONCE (R437). -/
def execGetNonce (req : BitVec 2176) (s : State) : Host.Outcome State Fault Refusal := .next (s.runReq req 0 (fun s => (stOK, s)))

/-- RETIRED takes effect at once (R431). -/
def State.retire (s : State) : State :=
  let s := (s.clearKeyRam.clearKeys).debugLock
  s.setSec { s.sec with life := 3 }

/-- The operation of ADVANCE (R431, R437). -/
def State.advance (s : State) (v : Nat) (blow : Fin 3) : Nat × State :=
  let f := s.sec.fuses
  if v = 0 ∨ 3 < v then (stParam, s)
  else if v ≤ f.life then (stLocked, s)
  else if v ≠ f.life + 1 ∨ (s.sec.life = 0 ∧ v ≠ 1) then (stState, s)
  else if v = 1 ∧ (findBelow 4 (fun k => (f.imgSlot k).valid && !(f.imgSlot k).revoke)).isNone then (stState, s)
  else if blow.val = 1 then (stHw, s.fuseFail)
  else if blow.val = 2 then (stOK, s)
  else
    let s := s.setFuses { f with life := v }
    (stOK, if v = 3 then s.retire else s)

/-- ADVANCE (R429, R431, R437). -/
def execAdvance (req : BitVec 2176) (blow : Fin 3) (s : State) : Host.Outcome State Fault Refusal :=
  .next (s.runFuse req 1 blow (fun s => s.advance (reqValue req) blow))

/-- The operation of IMAGE_SLOT: data bits first, VALID last (R435, R437). -/
def State.imageSlot (s : State) (k : Nat) (payload : List Nat) (blow : Fin 3) : Nat × State :=
  let f := s.sec.fuses
  let x := f.imgSlot k
  if 3 < k then (stParam, s)
  else if x.valid || x.revoke || x.partly then (stLocked, s)
  else match s.reqKey (payload.take 40) with
  | none => (stKey, s)
  | some key =>
    let y : ImgSlot := { key := key, hash := item256 ((payload.drop 40).take 32), valid := blowOk blow, partly := !blowOk blow }
    let t := s.setFuses { f with img := f.img.set {} k y }
    if blow.val = 1 then (stHw, t.fuseFail) else (stOK, t)

/-- IMAGE_SLOT (R437). -/
def execImageSlot (req : BitVec 2176) (blow : Fin 3) (s : State) : Host.Outcome State Fault Refusal :=
  .next (s.runFuse req 2 blow (fun s => s.imageSlot (reqIndex req) (reqPart req 0x30 96) blow))

/-- The operation of REVOKE_SLOT (R433). -/
def State.revokeSlot (s : State) (k : Nat) (blow : Fin 3) : Nat × State :=
  let f := s.sec.fuses
  let x := f.imgSlot k
  if 3 < k then (stParam, s)
  else if s.sec.life = 0 then (stState, s)
  else if x.revoke then (stLocked, s)
  else if (findBelow 4 (fun j => decide (k < j) && (f.imgSlot j).valid && !(f.imgSlot j).revoke)).isNone then (stState, s)
  else if blow.val = 1 then (stHw, s.fuseFail)
  else if blow.val = 2 then (stOK, s)
  else (stOK, s.setFuses { f with img := f.img.set {} k { x with revoke := true } })

/-- REVOKE_SLOT (R433, R437). -/
def execRevokeSlot (req : BitVec 2176) (blow : Fin 3) (s : State) : Host.Outcome State Fault Refusal :=
  .next (s.runFuse req 3 blow (fun s => s.revokeSlot (reqIndex req) blow))

/-- The operation of DEBUG_HASH. -/
def State.debugHash (s : State) (d : Nat) (hash : List Nat) (blow : Fin 3) : Nat × State :=
  let f := s.sec.fuses
  let x := f.dbgSlot d
  if 6 < d then (stParam, s)
  else if x.valid || x.kill || x.partly then (stLocked, s)
  else
    let y : DbgSlot := { hash := item256 hash, valid := blowOk blow, partly := !blowOk blow }
    let t := s.setFuses { f with dbg := f.dbg.set {} d y }
    if blow.val = 1 then (stHw, t.fuseFail) else (stOK, t)

/-- DEBUG_HASH (R437). -/
def execDebugHash (req : BitVec 2176) (blow : Fin 3) (s : State) : Host.Outcome State Fault Refusal :=
  .next (s.runFuse req 4 blow (fun s => s.debugHash (reqIndex req) (reqPart req 0x30 32) blow))

/-- The operation of GOLDEN_BASE. -/
def State.goldenFuse (s : State) (a : Nat) (blow : Fin 3) : Nat × State :=
  let f := s.sec.fuses
  if f.golden.isSome || f.goldenPartly then (stLocked, s)
  else if a % 65536 ≠ 0 ∨ 2 ^ 29 ≤ a then (stParam, s)
  else
    let t := s.setFuses { f with golden := if blowOk blow then some a else none, goldenPartly := !blowOk blow }
    if blow.val = 1 then (stHw, t.fuseFail) else (stOK, t)

/-- GOLDEN_BASE (R437). -/
def execGoldenBase (req : BitVec 2176) (blow : Fin 3) (s : State) : Host.Outcome State Fault Refusal :=
  .next (s.runFuse req 5 blow (fun s => s.goldenFuse (reqValue req) blow))

/-- KEY_RAM_LOAD (R437, R439). -/
def execKeyRamLoad (req : BitVec 2176) (s : State) : Host.Outcome State Fault Refusal :=
  .next (s.runReq req 6 (fun s =>
    if 7 < reqIndex req then (stParam, s)
    else match s.reqKey (reqPart req 0x30 40) with
    | none => (stKey, s)
    | some key => (stOK, s.setSec { s.sec with keyRam := s.sec.keyRam.set none (reqIndex req) (some key) })))

/-- KEY_RAM_CLEAR (R437). -/
def execKeyRamClear (req : BitVec 2176) (s : State) : Host.Outcome State Fault Refusal :=
  .next (s.runReq req 7 (fun s =>
    if reqIndex req = 0xFF then (stOK, s.clearKeyRam)
    else if 7 < reqIndex req then (stParam, s)
    else (stOK, s.setSec { s.sec with keyRam := s.sec.keyRam.set none (reqIndex req) none })))

/-! ### Identity (R438, R442) -/

/-- The identity key. -/
def identityKey : Nat :=
  Crypto.natBe (Crypto.kdf (bytes256 Config.deviceSecret) [0x49, 0x44, 0x45, 0x4E, 0x54]
    (Crypto.leNat 8 Config.serial.toNat)) % Crypto.n256

/-- The attestation key for a firmware measurement. -/
def attestKey (fw : BitVec 256) : Nat :=
  Crypto.natBe (Crypto.kdf (bytes256 Config.deviceSecret) [0x41, 0x54, 0x54, 0x45, 0x53, 0x54] (bytes256 fw)) % Crypto.n256

/-- DEV_ID and DEV_REV, as PROVE and the report give them. -/
def State.devId (s : State) : List Nat := Crypto.leNat 4 (s.reg R.DEV_ID 0) ++ Crypto.leNat 4 (s.reg R.DEV_REV 0)

/-- Bytes 0x28 to 0x6F of a PROVE response (R438). -/
def State.proveBody (s : State) (challenge : List Nat) : List Nat :=
  challenge ++ s.devId ++ Crypto.leNat 8 Config.serial.toNat ++ [s.sec.life, s.sec.fuses.imgRevoked] ++
    Crypto.leNat 2 s.sec.fuses.base ++ Crypto.leNat 2 s.sec.fuses.fw ++ List.replicate 18 0

/-- PROVE (R438). -/
def execProve (req : BitVec 2176) (s : State) : Host.Outcome State Fault Refusal :=
  if reqOp req ≠ 8 then .next s
  else if s.reqCheck req ≠ stOK then .next (s.reqEnd req (s.reqCheck req))
  else
    let body := s.proveBody (reqPart req 0x10 32)
    let k := (Config.random 256 s.free).toNat % Crypto.n256
    .next ({ s with free := s.free + 1 }.reqEnd req stOK (body ++ Crypto.ecdsaSign (Crypto.sha256 body) identityKey k))

/-- Bytes of the certificate store. -/
def certBytes (o n : Nat) : List Nat := ((Crypto.leNat 2048 Config.certStore.toNat).drop o).take n

/-- CERT_READ (R438). -/
def execCertRead (req : BitVec 2176) (s : State) : Host.Outcome State Fault Refusal :=
  if reqOp req ≠ 9 then .next s
  else if s.reqCheck req ≠ stOK then .next (s.reqEnd req (s.reqCheck req))
  else if 31 < reqIndex req then .next (s.reqEnd req stParam)
  else .next (s.reqEnd req stOK (certBytes (64 * reqIndex req) 64))

end Sys2Proof.Machine
end

