-- ==== Sys2Proof/Machine/Configure.lean ====
section
/-! DEFINITION. Configuration (R354 to R381): containers and their checks, the boot flow, overlays, region start-up and reset,
and the upset scrubber. A container's bytes from flash, the PCIe host, the board controller, JTAG or the internal port
are operands; those of a mailbox load are read from its buffer. -/

namespace Sys2Proof.Machine

/-! ### The container header (R357) -/

/-- A field of the header: byte offset and length. -/
def hdrFld (h : List Byte) (o n : Nat) : Nat := leValue ((h.drop o).take n)

def hdrKind (h : List Byte) : Nat := hdrFld h 0x08 1
def hdrKeyId (h : List Byte) : Nat := hdrFld h 0x0A 1
def hdrVer (h : List Byte) : Nat := hdrFld h 0x0C 4
def hdrArb (h : List Byte) : Nat := hdrFld h 0x10 2
def hdrFwArb (h : List Byte) : Nat := hdrFld h 0x12 2
def hdrFwVer (h : List Byte) : Nat := hdrFld h 0x14 4
def hdrLen (h : List Byte) : Nat := hdrFld h 0x18 4
def hdrFrames (h : List Byte) : Nat := hdrFld h 0x1C 4
def hdrMask (h : List Byte) : Nat := hdrFld h 0x20 8

/-- Chunks of a payload (R356). -/
def chunkCount (len : Nat) : Nat := (len + 65535) / 65536

/-- Container length (R356). -/
def containerLen (len : Nat) : Nat := 64 + len + 20 * chunkCount len + 128

/-- Container offset of payload offset `o`. -/
def payloadPos (o : Nat) : Nat := 64 + o / 65536 * 65556 + o % 65536

/-- An overlay's load. -/
def Load.overlay (l : Load) : Bool := l.path == .mailbox || l.path == .intport

/-- KIND that suits a path (R362). -/
def LoadPath.kind : LoadPath → Nat
  | .primary => 1 | .golden => 2 | .mailbox => 3 | .intport => 3

/-- Check 1 of R362. An overlay's REGION_MASK is nonzero and its FW fields are 0 (R357). -/
def formatOk (p : LoadPath) (h : List Byte) : Bool :=
  let len := hdrLen h
  hdrFld h 0 4 == 0x31464D45 && hdrFld h 0x30 4 == Crypto.crc32 (natBytes (h.take 0x30)) && hdrFld h 0x09 1 == 1 &&
    hdrFld h 0x0B 1 == 0 && hdrFld h 0x34 12 == 0 && decide (16 ≤ len) && decide (len ≤ 335544320) && len % 16 == 0 &&
    hdrKind h == p.kind && decide (hdrArb h ≤ 256) && decide (hdrFwArb h ≤ 256) &&
    (hdrKind h != 3 || (hdrMask h != 0 && hdrFwArb h == 0 && hdrFwVer h == 0))

/-- Key that KEY_ID selects (R359): none where it is refused, `some none` for a plaintext container. -/
def State.loadKey (s : State) (id : Nat) : Option (Option (BitVec 256)) :=
  if s.sec.life = 0 then (if id = 0xFF then some none else none)
  else if id = 0 then s.deviceKey.map some
  else if 1 ≤ id ∧ id ≤ 8 then (s.sec.keyRam.get none (id - 1)).map some
  else none

/-- The first of checks 1 to 5 that fails: its code, and whether it is of the authentication class (R362). -/
def State.headerCheck (s : State) (p : LoadPath) (h : List Byte) : Option (Nat × Bool) :=
  if formatOk p h = false then some (0x01, false)
  else if hdrFld h 4 4 ≠ s.reg R.DEV_ID 0 then some (0x05, false)
  else if s.sec.life = 3 then some (0x0B, true)
  else if (s.loadKey (hdrKeyId h)).isNone then some (0x09, true)
  else if hdrArb h < s.sec.base ∨ (hdrKind h ≠ 3 ∧ hdrFwArb h < s.sec.fw) then some (0x0A, true)
  else none

/-! ### Frames (R354, R355, R336) -/

/-- The driver taps per long line, of its eight, after frame `a` is applied. -/
def State.driversAfter (s : State) (a r : Nat) (d : BitVec 4096) : SMap (List (Nat × Nat)) :=
  let kept := s.fab.drivers.foldl (fun m e => m.set [] e.1 (e.2.filter (·.1 != a))) (s.fab.drivers)
  (Config.frameDrivers a d).foldl (fun m x =>
    let l := m.get [] (lineKey r x.1)
    m.set [] (lineKey r x.1) (if l.contains (a, x.2 % 8) then l else l ++ [(a, x.2 % 8)])) kept

/-- Lines with more than one enabled driver. -/
def contended (m : SMap (List (Nat × Nat))) : List Nat := (m.filter (fun e => decide (1 < e.2.length))).map (·.1)

/-- Stores a block-memory frame in the block's array (R354): 16 frames of 32 words per block. -/
def State.bmFrame (s : State) (r k : Nat) (d : BitVec 4096) : State :=
  let blk := 128 * r + k / 16
  (List.range 32).foldl (fun t j =>
    let key := blk * 512 + k % 16 * 32 + j
    ((t.setBmWord key (BitVec.ofNat 128 (bitsOf d.toNat (128 * j) 128))).setBmPoison key false).setBmDamage key none) s

/-- Stores a frame with the check bits computed as it is written (R354). -/
def State.storeFrame (s : State) (a : Nat) (d : BitVec 4096) : State :=
  { s with fab := { s.fab with
    frames := s.fab.frames.set 0 a d, checks := s.fab.checks.set 0 a (Config.frameCheck d), hits := s.fab.hits.set none a none } }

/-- Rewrites what frame `a` was to hold; what upsets have flipped since it was written stays flipped. -/
def State.rewriteFrame (s : State) (a : Nat) (d : BitVec 4096) : State :=
  let h := s.fab.hits.get none a
  ((s.storeFrame a d).flipFrame a (flipMask (s.flips a))).setHit a h

/-- Disables every driver of a line: the frames that enable one, and the count (R336). -/
def State.disableLine (s : State) (k : Nat) : State :=
  let s := (s.fab.drivers.get [] k).foldl (fun t x => t.rewriteFrame x.1 (Config.frameDisable x.1 (t.frameWritten x.1) (k % 1024))) s
  { s with fab := { s.fab with drivers := s.fab.drivers.set [] k [] } }

/-- Records a rejection in CFG_CONT_INFO. -/
def State.contRecord (s : State) (k : Nat) : State :=
  if s.isSet F.CFG_CONT_INFO.VALID 0 then s.put F.CFG_CONT_INFO.MORE 0 1
  else s.setReg R.CFG_CONT_INFO 0 (k % 1024 + k / 1024 % 64 * 2 ^ 16 + 2 ^ 31)

/-- Writes a frame under the contention check; false where it is rejected (R336). -/
def State.writeFrame (s : State) (a : Nat) (d : BitVec 4096) : Bool × State :=
  match frameRegion a with
  | none => (true, s.storeFrame a d)
  | some r =>
    if 7168 ≤ a % 2 ^ 14 then (true, s.bmFrame r (a % 2 ^ 14 - 7168) d)
    else
      let m := s.driversAfter a r d
      match contended m with
      | [] => (true, { s with fab := { s.fab with drivers := m } }.storeFrame a d)
      | k :: rest => (false, ((k :: rest).foldl (fun t j => t.disableLine j) s).contRecord k)

/-- Writes frames in ascending order until one is rejected. -/
def State.writeFrames (s : State) (a : Nat) : List (BitVec 4096) → Bool × State
  | [] => (true, s)
  | d :: r =>
    let (ok, t) := s.writeFrame a d
    if ok then t.writeFrames (a + 1) r else (false, t)

/-- Clears every frame (R367 step 3). -/
def State.clearFrames (s : State) : State :=
  { s with fab := { s.fab with 
    frames := [], checks := [], hits := [], drivers := [], bmWords := [], bmPoison := [], bmDamage := [], bmCheck := []
    ffs := [], slices := [], leaf := [], nets := [], pins := [], volts := [] } }

/-- Zeroes a region's 9,216 frames and clears its driver enables; its block memories lose their flags (R331, R370). -/
def State.clearRegion (s : State) (r : Nat) : State :=
  let out := fun (lo hi k : Nat) => decide (k < lo) || decide (hi ≤ k)
  let s := { s with fab := { s.fab with
    frames := s.fab.frames.filter (fun e => out (r * 2 ^ 16) ((r + 1) * 2 ^ 16) e.1)
    checks := s.fab.checks.filter (fun e => out (r * 2 ^ 16) ((r + 1) * 2 ^ 16) e.1)
    hits := s.fab.hits.filter (fun e => out (r * 2 ^ 16) ((r + 1) * 2 ^ 16) e.1)
    drivers := s.fab.drivers.filter (fun e => out (r * 1024) ((r + 1) * 1024) e.1)
    bmWords := s.fab.bmWords.filter (fun e => out (r * 65536) ((r + 1) * 65536) e.1)
    bmPoison := s.fab.bmPoison.filter (fun e => out (r * 65536) ((r + 1) * 65536) e.1)
    bmDamage := s.fab.bmDamage.filter (fun e => out (r * 65536) ((r + 1) * 65536) e.1)
    bmCheck := s.fab.bmCheck.filter (fun e => e.1 / 512 != r)
    ffs := s.fab.ffs.filter (fun e => e.1 != r)
    slices := s.fab.slices.filter (fun e => e.1 / 192 != r)
    leaf := s.fab.leaf.filter (fun e => e.1 / 16 != r) } }
  ((List.range 128).foldl (fun t b => t.setReg R.BM_STATUS (128 * r + b) 0) s).bmCollSum r

/-! ### Regions and their images (R370 to R373) -/

/-- A row's instance lies in region `r`; PR_REGION_STATE shows the region itself. -/
def rowInRegion (r : Nat) (x : RegRow) (i : Nat) : Bool :=
  (x.sel == .region && i / x.n == r && x.off != R.PR_REGION_STATE.off) || (x.sel == .fp && portRegion i == r) ||
    (x.sel == .bm && i / 128 == r)

/-- Registers of region `r`, its blocks and its ports return to their reset values, whatever they survive elsewhere (R352, R381). -/
def State.regionRegs (s : State) (r : Nat) : State :=
  ({ s with regs := s.regs.filter (fun e =>
      match regLookup (e.1 / 2 ^ 32) with | some (x, _) => !rowInRegion r x (e.1 % 2 ^ 32) | none => true) } : State).bmCollSum r

/-- Sets a region's COPY, INTERNAL and BASE. -/
def State.regionFlags (s : State) (r : Nat) (copy internal base : Bool) : State :=
  ((s.put F.PR_REGION_STATE.COPY r (bit copy)).put F.PR_REGION_STATE.INTERNAL r (bit internal)).put
    F.PR_REGION_STATE.BASE r (bit base)

/-- Writes a region's ISO modes. -/
def State.isoWrite (s : State) (r : Nat) (vs : List Nat) : State :=
  (vs.take 4).mapIdx (fun w v => (w, v)) |>.foldl (fun t (w, v) => t.setReg R.PR_ISO_MODE (4 * r + w) v) s

/-- Applies a PORT record: key mask and control as written to a port that is not active. -/
def State.portApply (s : State) (p : PortRec) : State :=
  (s.setPair R.PR_FP_KEYMASK_LO R.PR_FP_KEYMASK_HI p.port p.mask).writePlain R.PR_FP_CTRL p.port p.ctrl

/-- Starts a configured region (R372); one whose domain is off stays OFF (R373). -/
def State.beginRegion (s : State) (r : Nat) : State :=
  if s.domUp (domRegion r) then ((s.cfg.images.get {} r).ports.foldl (fun t p => t.portApply p) s).startRegion r
  else s.setRegion r 5

/-- Takes an image as the configuration of a region. -/
def State.setImage (s : State) (r : Nat) (x : RegionImage) : State :=
  { s with cfg := { s.cfg with images := s.cfg.images.set {} r x } }

/-- Entries of the overlay measurements lapse where none of their regions is still configured by their container (R444). -/
def State.pruneOverlays (s : State) : State :=
  s.setSec { s.sec with overlays := s.sec.overlays.filter (fun e =>
    (maskBits 64 e.1).any (fun r => (s.cfg.images.get {} r).configured && (s.cfg.images.get {} r).hash == e.2.2)) }

/-- An overlay isolates and zeroes a region (R370 step 2). -/
def State.takeRegion (s : State) (r : Nat) : State :=
  (((((s.isolateRegion r 1).clearRegion r).regionRegs r).regionFlags r false false false).setImage r {}).setRegion r 1

/-- Payload of CONFIG_LOAD_OVERLAY. -/
def overlayPayload (mask : Nat) : Payload := pack 8 [(0, 64, mask)]

/-- Completes overlays whose regions have all finished starting: the measurement, and the answer (R370 step 5). -/
def State.finishStarting (s : State) : State :=
  let done := s.cfg.starting.filter (fun e => (maskBits 64 e.mask).all (fun r => s.regionState r != 2))
  let s := { s with cfg := { s.cfg with starting := s.cfg.starting.filter (fun e => !done.contains e) } }
  done.foldl (fun t e =>
    let t := t.setSec { t.sec with overlays := t.sec.overlays ++ [(e.mask, e.ver, e.hash)] }
    match e.cmd with
    | some c => t.finish c stOK 0 (overlayPayload e.mask)
    | none => t) s

/-- REGION_STARTUP (R372): 3 µs after its start a region is ACTIVE. -/
def execRegionStartup (r : Fin 64) (s : State) : Host.Outcome State Fault Refusal :=
  if s.regionState r.val = 2 ∧ s.fab.startAt.get 0 r.val - 1 + 3000 ≤ s.now then .next (s.setRegion r.val 3).finishStarting
  else .next s

/-! ### Loads -/

/-- Boot mode: codes 101 to 111 are treated as 011 (R366). -/
def State.bootMode (s : State) : Nat := if 5 ≤ s.cfg.mode then 3 else s.cfg.mode

/-- Sets the load. -/
def State.setLoad (s : State) (l : Option Load) : State := { s with cfg := { s.cfg with load := l } }

/-- Starts a load; the scrubber pauses (R380). -/
def State.beginLoad (s : State) (l : Load) : State :=
  let s := s.setLoad (some { l with last := s.now })
  let s := (s.put F.CFG_STATUS.LOAD_BUSY 0 (bit l.overlay)).put F.CFG_STATUS.INTPORT_BUSY 0 (bit (l.path == .intport))
  { s.put F.CFG_SCRUB_STATUS.PAUSED 0 1 with cfg := { s.cfg with
    pausedAt := s.now + 1, intport := if l.path = .intport then {} else s.cfg.intport } }

/-- The internal port's DONE_OUT, FAIL and CODE as a container of its own ends (R374). -/
def State.intportEnd (s : State) (l : Load) (x : IntPort) : State :=
  if l.path = .intport then { s with cfg := { s.cfg with intport := x } } else s

/-- Ends a load; the scrubber goes on. -/
def State.endLoad (s : State) : State :=
  let s := ((s.put F.CFG_STATUS.LOAD_BUSY 0 0).put F.CFG_STATUS.INTPORT_BUSY 0 0).put F.CFG_SCRUB_STATUS.PAUSED 0 0
  { s with cfg := { s.cfg with load := none, lapPaused := s.cfg.lapPaused + (s.now - (s.cfg.pausedAt - 1)) } }

/-- Records a failure (R362, R381): the first, and MORE after it. -/
def State.failRecord (s : State) (l : Load) (code : Nat) (auth : Bool) (pos : Nat) : State :=
  if s.isSet F.CFG_FAIL.VALID 0 then s.put F.CFG_FAIL.MORE 0 1
  else (s.setReg R.CFG_FAIL 0 (code + bit auth * 2 ^ 8 + bit (l.path == .golden) * 2 ^ 9 + bit l.overlay * 2 ^ 10 +
    bit (l.path == .intport) * 2 ^ 11 + 2 ^ 31)).setReg R.CFG_FAIL_POS 0 pos

/-- Enters the dark phase (R363, R364). -/
def State.goDark (s : State) : State :=
  let s := (s.put F.CFG_STATUS.STATE 0 4).put F.DEV_FW_STATE.STATE 0 3
  { s with cfg := { s.cfg with phase := .dark } }

/-- What a failure leads to on the boot paths (R363). In boot mode 011 an engine that still accepts a container waits for
one. -/
def State.bootFailed (s : State) (l : Load) (code : Nat) (auth : Bool) : State :=
  let final := auth && (s.sec.life == 2 || code == 0x0B)
  if l.path = .golden then s.goDark
  else if s.bootMode = 3 then
    let s := s.goDark
    if final then s else s.setLoad (some { path := .primary })
  else if final then s.goDark
  else { s.put F.CFG_STATUS.STATE 0 2 with cfg := { s.cfg with phase := .fallback } }

/-- Status and detail CONFIG_LOAD_OVERLAY returns for a code of R362 (R370). -/
def overlayStatus (code : Nat) : Nat × Nat :=
  match code with
  | 0x06 => (stContention, 0)
  | 0x08 => (stAuth, 0)
  | 0x09 => (stKey, 0)
  | 0x0A => (stRollback, 0)
  | 0x0B => (stRollback, 0)
  | c => (stIntegrity, c)

/-- Regions of a failed overlay, once step 2 of R370 has been taken. -/
def State.failRegions (s : State) (l : Load) : State :=
  if l.hdr.isEmpty then s
  else ((maskBits 64 (hdrMask l.hdr)).foldl (fun t r => (t.clearRegion r).setRegion r 4) s).pruneOverlays

/-- Ends a load with a failed check; `buf` is the answer of a mailbox load whose buffer could not be read. -/
def State.loadFail (s : State) (l : Load) (code : Nat) (auth : Bool) (pos : Nat) (buf : Option Nat := none) : State :=
  let s := ((s.failRecord l code auth pos).endLoad).intportEnd l { fail := true, code := code }
  if l.overlay then
    let s := s.failRegions l
    match l.cmd with
    | none => s
    | some c => match buf with
      | some d => s.finish c stBuffer d {}
      | none => s.finish c (overlayStatus code).1 (overlayStatus code).2 {}
  else s.bootFailed l code auth

/-- The source is the PCIe host (R368). -/
def State.fromHost (s : State) (l : Load) : Bool := l.path == .primary && s.bootMode == 2

/-- The next `n` container bytes: the operand's, or a mailbox load's from its buffer (R49). Those of the PCIe host answer memory reads at
its address, within its length (R368). -/
def State.loadBytes (s : State) (l : Load) (n : Nat) (given : List Byte) : Except BufStop (List Byte) × State :=
  let m := min n (l.len - l.seen.length)
  if l.path = .mailbox then s.bufRead (l.base + l.seen.length) m
  else if s.fromHost l then (.ok (given.take m), s.pcieSend ⟨0, 1, l.base + l.seen.length, m, false, []⟩)
  else (.ok (given.take n), s)

/-- Takes the next `n` bytes of the container. A source that ends before them ends the load with EARLY_END at `pos`; a
mailbox load whose buffer cannot be read does so too, and answers E_BUFFER (log 54). -/
def State.takeBytes (s : State) (l : Load) (n pos : Nat) (given : List Byte) (body : List Byte → State → State) : State :=
  let (r, s) := s.loadBytes l n given
  match r with
  | .error .waits => s
  | .error (.bad d) => s.loadFail l 0x04 false pos (some ((l.seen.length + 64 * d) / 64))
  | .ok bs => if bs.length < n then s.loadFail l 0x04 false pos else body bs s

/-- A repair holds a load up, unless it is in a region the load begins on (R375, R380). -/
def State.repairHolds (s : State) (l : Load) (h : List Byte) : Bool :=
  match s.cfg.repair with
  | none => false
  | some a => match frameRegion a with
    | some r => !(l.overlay && bitAt (hdrMask h) r)
    | none => true

/-- A header that passed checks 1 to 5 is taken; an overlay then isolates its regions, and a repair under way in one of
them is abandoned (R370 step 2, R380). -/
def State.headerTake (s : State) (l : Load) (h : List Byte) : State :=
  let s := s.setLoad (some { l with hdr := h, seen := h, last := s.now })
  if l.overlay then
    let s := { s.put F.CFG_SCRUB_STATUS.REPAIRING 0 0 with cfg := { s.cfg with repair := none } }
    ((maskBits 64 (hdrMask h)).foldl (fun t r => t.takeRegion r) s).pruneOverlays
  else
    let s := if s.cfg.phase = .dark then s.clearFrames else s
    let s := ((maskBits 64 (hdrMask h)).foldl (fun t r => t.regionRegs r) s).put F.CFG_SCRUB_STATUS.PAUSED 0 1
    { (s.put F.CFG_STATUS.STATE 0 (if l.path = .golden then 2 else 1)).put F.DEV_FW_STATE.STATE 0 0 with
      cfg := { s.cfg with phase := .loading } }

/-- A command in progress, other than this load's, holds a region of the mask (R45). -/
def State.regionsHeld (s : State) (l : Load) (mask : Nat) : Bool :=
  s.mbx.started.any (fun t => l.cmd.map (·.id) != some t.id &&
    ((t.op == opUnload && (fld t.msg 0 64 &&& mask) != 0) || (t.op == opReadback && bitAt mask (fld t.msg 0 8)))) ||
  s.cfg.starting.any (fun e => e.cmd.isSome && (e.mask &&& mask) != 0)

/-- What has arrived of the payload holds something a record command takes: a record header, a whole body, or a frame of a FRAMES body. -/
def Load.work (l : Load) : Bool :=
  !l.ended && (if l.head.isEmpty then decide (16 ≤ l.buf.length)
    else decide (l.left ≤ l.buf.length) || (leValue (l.head.take 1) == 1 && decide (512 ≤ l.buf.length)))

/-- The header of a load (R362 checks 1 to 5). A command whose regions others hold ends with E_BUSY and touches none (R45). -/
def State.headerRow (s : State) (given : List Byte) : State :=
  match s.cfg.load with
  | none => s
  | some l =>
    if l.hdr.isEmpty = false ∨ (l.path = .primary ∧ s.bootMode = 2 ∧ l.go = false) then s
    else s.takeBytes l 64 0 given (fun h s =>
      match s.headerCheck l.path h with
      | some (c, auth) => s.loadFail l c auth 0
      | none =>
        match (if s.regionsHeld l (hdrMask h) then l.cmd else none) with
        | some c => s.endLoad.finish c stBusy 0 {}
        | none => if s.repairHolds l h then s else s.headerTake l h)

/-- CONTAINER_HEADER (R362). -/
def execContainerHeader (bytes : List Byte) (s : State) : Host.Outcome State Fault Refusal := .next (s.headerRow bytes)

/-- Nonce of chunk `i` (R358). -/
def chunkNonce (h : List Byte) (i : Nat) : List Nat := natBytes ((h.drop 0x28).take 8) ++ Crypto.leNat 4 i

/-- Deciphers a chunk: none where its tag fails. A plaintext chunk's tag field is 0 (R359). -/
def chunkPlain (key : Option (BitVec 256)) (h : List Byte) (i : Nat) (c tag : List Byte) : Option (List Byte) :=
  match key with
  | none => if tag.all (· == 0) then some c else none
  | some k =>
    if Crypto.gcmTag (bytes256 k) (chunkNonce h i) (natBytes h) (natBytes c) = natBytes tag
    then some (toBytes (Crypto.ctrXor (bytes256 k) (chunkNonce h i) (natBytes c))) else none

/-- The bytes of a chunk with its tag and CRC, deciphered: none where its CRC or tag fails. -/
def State.chunkOpen (s : State) (h : List Byte) (i : Nat) (bs : List Byte) : Option (List Byte) :=
  let n := min 65536 (hdrLen h - 65536 * i)
  match s.loadKey (hdrKeyId h) with
  | none => none
  | some key =>
    if bs.length = n + 20 ∧ Crypto.crc32 (natBytes (bs.take (n + 16))) = leValue (bs.drop (n + 16))
    then chunkPlain key h i (bs.take n) ((bs.drop n).take 16) else none

/-- The next chunk of a load (R362 checks 6, 7 and 12). The checks are made as bytes arrive: a chunk follows the records, and the frames of
a record, that arrived before it. -/
def State.chunkRow (s : State) (given : List Byte) : State :=
  match s.cfg.load with
  | none => s
  | some l =>
    let i := l.chunk
    if l.hdr.isEmpty ∨ chunkCount (hdrLen l.hdr) ≤ i ∨ l.work = true then s
    else
      let n := min 65536 (hdrLen l.hdr - 65536 * i)
      let pos := payloadPos (65536 * i)
      s.takeBytes l (n + 20) pos given (fun bs s =>
        let c := bs.take n
        let tag := (bs.drop n).take 16
        if Crypto.crc32 (natBytes (bs.take (n + 16))) ≠ leValue (bs.drop (n + 16)) then s.loadFail l 0x02 false pos
        else match chunkPlain ((s.loadKey (hdrKeyId l.hdr)).getD none) l.hdr i c tag with
        | none => s.loadFail l 0x08 true pos
        | some plain => s.setLoad (some { l with seen := l.seen ++ bs, chunk := i + 1, buf := l.buf ++ plain, last := s.now }))

/-- CONTAINER_CHUNK (R362). -/
def execContainerChunk (bytes : List Byte) (s : State) : Host.Outcome State Fault Refusal := .next (s.chunkRow bytes)

/-! ### Records (R360, R361) -/

/-- Word `k` of bytes. -/
def recWord (b : List Byte) (k : Nat) : Nat := leValue ((b.drop (4 * k)).take 4)
def recType (b : List Byte) : Nat := recWord b 0 % 256
def recSub (b : List Byte) : Nat := recWord b 0 / 256 % 256
def recCount (b : List Byte) : Nat := recWord b 1
def recAddr (b : List Byte) : Nat := leValue ((b.drop 8).take 8)

/-- Body length of a record, padding included. -/
def recBody (b : List Byte) : Nat :=
  match recType b with
  | 0x01 => 512 * recCount b
  | 0x03 => (recCount b + 15) / 16 * 16
  | 0x06 => (recCount b + 15) / 16 * 16
  | 0x04 => 16
  | 0x05 => 16
  | _ => 0

/-- TYPE is listed. -/
def recListed (t : Nat) : Bool := [1, 2, 3, 4, 5, 6, 15].contains t

/-- Frames a record may write (R355, R360, R361). -/
def framesOk (l : Load) (addr count : Nat) : Bool :=
  let idx := addr % 2 ^ 14
  let r := addr / 2 ^ 16 % 64
  if bitAt addr 24 then addr == idx + 2 ^ 24 && decide (idx + count ≤ 16384) && decide (0 < count) && !l.overlay
  else addr == idx + r * 2 ^ 16 && decide (idx + count ≤ 9216) && decide (0 < count) && bitAt (hdrMask l.hdr) r

/-- DATA may target an address (R361). -/
def dataTarget (overlay : Bool) (a : Nat) : Bool :=
  match decodeAddr a with
  | .scratch _ => true
  | .core _ => decide (a % 0x100000 < 0x10000)
  | .engine _ => true
  | .hbm _ => overlay
  | _ => false

/-- DATA may target every address of a range. -/
def dataRange (overlay : Bool) (a n : Nat) : Bool :=
  dataTarget overlay (a + n - 1) && (List.range ((n + 1023) / 1024)).all (fun k => dataTarget overlay (a + 1024 * k))

/-- A region or port's region an ISO or PORT record may name (R361). -/
def nameOk (l : Load) (r : Nat) : Bool := !l.overlay || bitAt (hdrMask l.hdr) r

/-- The bytes of a record's body beyond its count are zero. -/
def padOk (n : Nat) (body : List Byte) : Bool := (body.drop n).all (· == 0)

/-! ### User I/O options (R346) -/

/-- Bank voltages, in mV. -/
def bankVolts (b : Nat) : List Nat := if b < 8 then [1000, 1200, 1500, 1800] else [1200, 1500, 1800, 2500, 3300]

/-- A standard matches its bank and the bank's voltage: LVDS outputs at 1.8 V only, inputs at any. -/
def stdOk (b mv : Nat) (p : Config.PinSet) : Bool :=
  match p.std with
  | .lvcmos10 => decide (b < 8) && mv == 1000
  | .lvcmos12 => mv == 1200
  | .lvcmos15 => mv == 1500
  | .lvcmos18 => mv == 1800
  | .lvcmos25 => decide (8 ≤ b) && mv == 2500
  | .lvcmos33 => decide (8 ≤ b) && mv == 3300
  | .lvttl => decide (8 ≤ b) && mv == 3300
  | .lvds => decide (b < 8) && (!p.out || mv == 1800)

/-- A drive strength, in mA, is one of its bank's at a voltage. -/
def driveOk (b mv ma : Nat) : Bool :=
  [2, 4, 6, 8].contains ma || (ma == 12 && decide (1500 ≤ mv)) || (ma == 16 && decide (8 ≤ b) && decide (1500 ≤ mv))

/-- A pin's options are those of its bank at a voltage. -/
def pinOk (b mv : Nat) (p : Config.PinSet) : Bool :=
  stdOk b mv p && driveOk b mv p.drive && decide (p.slew < 4) && decide (p.pull < 3) && (!p.term || p.std == .lvds) &&
    (match p.reg with | .serial n => decide (b < 8) && [2, 4, 8].contains n | _ => true)

/-- Options and bank voltages that static frames declare. -/
def declaredPins (fs : List (Nat × BitVec 4096)) : List (Nat × Config.PinSet) := fs.flatMap (fun e => Config.framePins e.1 e.2)
def declaredVolts (fs : List (Nat × BitVec 4096)) : List (Nat × Nat) := fs.flatMap (fun e => Config.frameVolts e.1 e.2)

/-- Static frames keep to R346: each voltage is one of its bank's, and each pin's options are allowed at the voltage of its bank. With
`whole` the image has been read, and a pin whose bank has no voltage fails. -/
def ioOptionsOk (fs : List (Nat × BitVec 4096)) (whole : Bool) : Bool :=
  (declaredVolts fs).all (fun v => decide (v.1 < 16) && (bankVolts v.1).contains v.2) &&
  (declaredPins fs).all (fun p => decide (p.1 < 768) && (match (declaredVolts fs).lookup (p.1 / 48) with
    | some mv => pinOk (p.1 / 48) mv p.2
    | none => !whole))

/-! ### Taking records (R362) -/

/-- Check 8 of R362 for the header of a record that begins at payload offset `o`. -/
def headValid (l : Load) (b : List Byte) (o : Nat) : Bool :=
  let t := recType b
  let n := recCount b
  let a := recAddr b
  recWord b 0 / 2 ^ 16 == 0 && (recSub b == 0 || (t == 3 && decide (recSub b ≤ 2))) && (l.overlay || (t == 6) == (o == 0)) &&
  (match t with
    | 0x01 => framesOk l a n
    | 0x02 => framesOk l a n
    | 0x03 => decide (0 < n) && decide (n ≤ 0x1000000) && decide (a < 2 ^ 48) && dataRange l.overlay a n
    | 0x04 => n == 0 && decide (a < 64) && nameOk l a
    | 0x05 => n == 0 && decide (a < 128) && nameOk l (portRegion a)
    | 0x06 => decide (0 < n) && decide (n ≤ 0x300000) && a == 0 && !l.overlay
    | _ => n == 0 && a == 0 && o + 16 == hdrLen l.hdr)

/-- Check 8 of R362 for the body of a record. -/
def bodyValid (b body : List Byte) : Bool :=
  match recType b with
  | 0x03 => padOk (recCount b) body
  | 0x05 => recWord body 3 == 0
  | 0x06 => padOk (recCount b) body
  | _ => true

/-- The load with its record's header taken; none where the header has not arrived. -/
def Load.opened (l : Load) : Option Load :=
  if l.head.isEmpty = false then some l
  else if l.buf.length < 16 then none
  else some { l with head := l.buf.take 16, buf := l.buf.drop 16, taken := l.taken + 16, left := recBody (l.buf.take 16) }

/-- Body bytes of the record under way that a command takes: the whole body, or of a FRAMES body the frames that have arrived. -/
def Load.part (l : Load) : Nat :=
  if recType l.head = 1 then min l.left (l.buf.length / 512 * 512) else if l.left ≤ l.buf.length then l.left else 0

/-- The load after `n` bytes of its record's body. -/
def Load.took (l : Load) (n : Nat) : Load :=
  { l with buf := l.buf.drop n, taken := l.taken + n, left := l.left - n, head := if l.left ≤ n then [] else l.head }

/-- Payload offset at which the record under way begins. -/
def Load.start (l : Load) : Nat := l.taken - 16 - (recBody l.head - l.left)

/-- Runs the record under way where it is of type `ty`: checks 8 and 11 of R362 on its header as soon as that is there and on its body,
then `act` on the load after what was taken, the header, the body bytes taken and the bytes of it taken before. An unlisted TYPE
fails at any record command. -/
def State.recordRow (s : State) (ty : Nat) (act : Load → List Byte → List Byte → Nat → State → State) : State :=
  match s.cfg.load with
  | none => s
  | some l₀ =>
    match (if l₀.ended then none else l₀.opened) with
    | none => s
    | some l =>
      let b := l.head
      let pos := payloadPos l.start
      if recListed (recType b) = false then s.loadFail l 0x01 false pos
      else if recType b ≠ ty then s
      else if headValid l b l.start = false then s.loadFail l 0x01 false pos
      else if hdrLen l.hdr < l.start + 16 + recBody b then s.loadFail l 0x03 false pos
      else
        let n := l.part
        let body := l.buf.take n
        if n < l.left ∧ (ty ≠ 1 ∨ n = 0) then s.setLoad (some l)
        else if bodyValid b body = false then s.loadFail l 0x01 false pos
        else act (l.took n) b body (recBody b - l.left) s

/-- Frames of a FRAMES body. -/
def bodyFrames (n : Nat) (body : List Byte) : List (BitVec 4096) :=
  (List.range n).map (fun k => BitVec.ofNat 4096 (leValue ((body.drop (512 * k)).take 512)))

/-- Writes frames of a record from address `a`; `at'`: the payload offset they come from. Options beyond R346 (R362 check 8) or a rejected
frame (check 9) end the load; `o`: where the record begins. -/
def State.recordFrames (s : State) (l : Load) (a : Nat) (at' : Option Nat) (fs : List (BitVec 4096)) (o : Nat) : State :=
  if bitAt a 24 && !ioOptionsOk (s.staticFrames ++ fs.mapIdx (fun k d => (a + k, d))) false then s.loadFail l 0x01 false (payloadPos o)
  else
    let (ok, t) := s.writeFrames a fs
    if ok then t.setLoad (some { l with frames := l.frames + fs.length, places := l.places ++ [⟨a, fs.length, at'⟩] })
    else t.loadFail l 0x06 false (payloadPos o)

/-- FRAMES (R360): the frames that have arrived. -/
def execFrames (s : State) : Host.Outcome State Fault Refusal :=
  .next (s.recordRow 0x01 (fun l b body before s =>
    s.recordFrames l (recAddr b + before / 512) (some (l.taken - body.length)) (bodyFrames (body.length / 512) body)
      (l.taken - body.length - before - 16)))

/-- ZERO (R360). -/
def execZero (s : State) : Host.Outcome State Fault Refusal :=
  .next (s.recordRow 0x02 (fun l b _ _ s => s.recordFrames l (recAddr b) none (List.replicate (recCount b) 0) (l.taken - 16)))

/-- Measures a Tahr program image (R361, R444). -/
def State.measureProgram (s : State) (a : Nat) (bs : List Byte) : State :=
  let h := digest (natBytes bs)
  let agg := digest (bytes256 s.sec.progAgg ++ bytes256 h)
  if s.sec.programs.length < 256 then
    s.setSec { s.sec with programs := s.sec.programs ++ [(a, bs.length, h)], progAgg := agg }
  else s.setSec { s.sec with progAgg := agg, progOvf := true }

/-- DATA (R360, R361): written with WRITE on VC3 under key index 0; while its target's domain wakes the record waits. -/
def execData (s : State) : Host.Outcome State Fault Refusal :=
  .next (s.recordRow 0x03 (fun l b body _ s =>
    let bs := body.take (recCount b)
    let (c, _, t) := s.writeBytes ⟨epConfig, 0, 3, false⟩ (recAddr b) bs
    if c = codeWaits then t
    else if c ≠ 0 then t.loadFail l 0x07 false (payloadPos (l.taken - 16 - recBody b))
    else (if recSub b = 0 then t.measureProgram (recAddr b) bs else t).setLoad (some l)))

/-- ISO (R360, R371). -/
def execIso (s : State) : Host.Outcome State Fault Refusal :=
  .next (s.recordRow 0x04 (fun l b body _ s =>
    let vs := (List.range 4).map (recWord body)
    (s.isoWrite (recAddr b) vs).setLoad (some { l with iso := l.iso ++ [(recAddr b, vs)] })))

/-- PORT (R360): applied at region start-up (R372). -/
def execPort (s : State) : Host.Outcome State Fault Refusal :=
  .next (s.recordRow 0x05 (fun l b body _ s => s.setLoad (some { l with
    ports := l.ports ++ [⟨recAddr b, recWord body 0, recWord body 1 + recWord body 2 * 2 ^ 32⟩] })))

/-- FIRMWARE (R360, R367): the package goes to the base of Chamois private memory (log 55). -/
def execFirmware (s : State) : Host.Outcome State Fault Refusal :=
  .next (s.recordRow 0x06 (fun l b body _ s =>
    let bs := body.take (recCount b)
    ((s.writeBytes ⟨epChamois, 0, 3, false⟩ basePriv bs).2.2).setLoad (some { l with fwHash := some (digest (natBytes bs)) })))

/-- END (R360): every user I/O option of a base or golden image is within R346 (check 8 of R362), and FRAME_COUNT is met (check 11). The
static frames of a base image are written: fabric loops acquire (R411). -/
def execEndRecord (s : State) : Host.Outcome State Fault Refusal :=
  .next (s.recordRow 0x0F (fun l _ _ _ s =>
    if !l.overlay && !ioOptionsOk s.staticFrames true then s.loadFail l 0x01 false (payloadPos (l.taken - 16))
    else if l.frames ≠ hdrFrames l.hdr then s.loadFail l 0x03 false (payloadPos (l.taken - 16))
    else (if l.overlay then s else s.fabricLoops).setLoad (some { l with ended := true })))

/-! ### The signature block (R358, R362) -/

/-- Check 13. -/
def State.signerOk (s : State) (sig : List Byte) : Bool :=
  s.sec.life == 0 || (match s.sec.slot with
    | some k => (s.sec.fuses.imgSlot k).hash == digest (natBytes (sig.take 64))
    | none => false)

/-- Check 14. -/
def sigOk (seen sig : List Byte) : Bool :=
  let p := fun o => Crypto.natBe (natBytes ((sig.drop o).take 32))
  Crypto.ecdsaVerify (Crypto.sha256 (natBytes seen)) (p 0) (p 32) (p 64) (p 96)

/-- Firmware copies a mailbox overlay into the repair store where it has room (R370): the copy's success and the state. -/
def State.repairCopy (s : State) (bytes : List Byte) : Bool × State :=
  let base := s.pair R.CFG_REPAIR_BASE_LO R.CFG_REPAIR_BASE_HI 0
  if s.get F.CFG_REPAIR_SIZE.MIB 0 * 2 ^ 20 < s.cfg.storeUsed + bytes.length then (false, s)
  else
    let (c, _, t) := s.writeBytes ⟨epChamois, 0, 3, false⟩ (base + s.cfg.storeUsed) bytes
    if c ≠ 0 then (false, t)
    else (true, { t with cfg := { t.cfg with storeUsed := t.cfg.storeUsed + bytes.length } })

/-- What a load leaves a region configured by. -/
def Load.image (l : Load) (r : Nat) (hash : BitVec 256) (src : RepairSrc) : RegionImage :=
  { configured := true, ver := hdrVer l.hdr, hash := hash, src := src, iso := (l.iso.reverse.lookup r).getD []
    ports := l.ports.filter (fun p => portRegion p.port == r) }

/-- Takes a load's image for a region: version, flags. -/
def State.imageRegion (s : State) (l : Load) (hash : BitVec 256) (copy : Bool) (src : RepairSrc) (r : Nat) : State :=
  ((s.setImage r (l.image r hash src)).setReg R.PR_REGION_VERSION r (hdrVer l.hdr)).regionFlags r copy (l.path == .intport)
    (!l.overlay)

/-- An overlay whose signature verified: each region starts (R370 step 5). -/
def State.overlayDone (s : State) (l : Load) (sig : List Byte) : State :=
  let hash := digest (natBytes l.seen)
  let s := s.endLoad
  let s := s.intportEnd l { done := true }
  let at' := s.pair R.CFG_REPAIR_BASE_LO R.CFG_REPAIR_BASE_HI 0 + s.cfg.storeUsed
  let (copy, s) : Bool × State := if l.path = .mailbox then s.repairCopy (l.seen ++ sig) else (false, s)
  let src := ⟨l.hdr, l.places, some at'⟩
  let s := (maskBits 64 (hdrMask l.hdr)).foldl (fun t r => (t.imageRegion l hash copy src r).beginRegion r) s
  ({ s with cfg := { s.cfg with
    starting := s.cfg.starting ++ [Starting.mk (hdrMask l.hdr) (hdrVer l.hdr) hash l.cmd] } } : State).finishStarting

/-- A base or golden image whose signature verified: start-up is due (R367 step 5). The load is kept for it. -/
def State.baseDone (s : State) (l : Load) : State :=
  { s with cfg := { s.cfg with phase := .verified, bootHdr := l.hdr, bootHash := digest (natBytes l.seen), bootSrc := ⟨l.hdr, l.places, none⟩ } }

/-- The signature block (R362 checks 11 to 14); `extra`: the source delivers more than the container. -/
def State.sigRow (s : State) (given : List Byte) (extra : Bool) : State :=
  match s.cfg.load with
  | none => s
  | some l =>
    let pos := l.seen.length
    if l.hdr.isEmpty ∨ l.chunk < chunkCount (hdrLen l.hdr) ∨ s.cfg.phase = .verified then s
    else if l.ended = false then
      if l.work then s else s.loadFail l 0x03 false (payloadPos (if l.head.isEmpty then l.taken else l.start))
    else s.takeBytes l 128 pos given (fun sig s =>
      if extra ∨ ((l.path = .mailbox ∨ s.fromHost l = true) ∧ pos + 128 < l.len) then s.loadFail l 0x03 false pos
      else if s.signerOk sig = false then s.loadFail l 0x09 true pos
      else if sigOk l.seen sig = false then s.loadFail l 0x08 true pos
      else if l.overlay then s.overlayDone l sig
      else s.baseDone l)

/-- SIGNATURE_BLOCK (R362). -/
def execSignatureBlock (bytes : List Byte) (extra : Bool) (s : State) : Host.Outcome State Fault Refusal :=
  .next (s.sigRow bytes extra)

/-- A load's source streams (R362). -/
def State.streamed (s : State) (l : Load) : Bool :=
  l.path == .intport || (l.path == .primary && (s.bootMode == 2 || s.bootMode == 3 || s.bootMode == 4))

/-- LOAD_STALL_TIMEOUT (R362 check 12, R368): 50 ms without data, once the source has begun. -/
def execLoadStallTimeout (s : State) : Host.Outcome State Fault Refusal :=
  match s.cfg.load with
  | none => .next s
  | some l =>
    if s.streamed l ∧ (l.hdr.isEmpty = false ∨ l.go = true) ∧ s.cfg.phase ≠ .verified ∧ l.last + 50000000 ≤ s.now then
      .next (s.loadFail l 0x04 false l.seen.length)
    else .next s

/-! ### Boot (R365 to R369) -/

/-- CRYSTAL_STABLE (R367 step 2): Gauntlet reads the fuses. -/
def execCrystalStable (s : State) : Host.Outcome State Fault Refusal :=
  if s.cfg.phase = .crystal then .next { s.bootRead with cfg := { s.cfg with phase := .released } } else .next s

/-- Golden-base address of the straps (R366). -/
def goldenStrap : Nat → Nat
  | 0 => 0x02000000 | 1 => 0x04000000 | 2 => 0x08000000 | _ => 0x10000000

/-- The straps are sampled (R365): BOOT_MODE and the golden base. -/
def State.sampleStraps (s : State) (mode gold : Nat) : State :=
  let s := s.put F.CFG_STATUS.BOOT_MODE 0 mode
  let s := match s.sec.fuses.goldenBase with
    | some a => s.setReg R.CFG_GOLDEN_BASE 0 (a % 2 ^ 29 + 2 ^ 31)
    | none => s.setReg R.CFG_GOLDEN_BASE 0 (goldenStrap gold)
  { s with cfg := { s.cfg with mode := mode, gold := gold, strapsDue := false } }

/-- Starts reading a base or golden image with every frame cleared. -/
def State.bootLoad (s : State) (p : LoadPath) : State :=
  let s := s.clearFrames.beginLoad { path := p }
  { s.put F.CFG_STATUS.STATE 0 (if p = .golden then 2 else 1) with cfg := { s.cfg with phase := .loading } }

/-- BOOT_FLOW (R367 steps 1 and 3): the straps' levels, frames cleared, the load begun. -/
def execBootFlow (mode : BitVec 3) (gold : BitVec 2) (s : State) : Host.Outcome State Fault Refusal :=
  if s.cfg.phase = .released then
    let s := s.fuseRepairs
    .next ((if s.cfg.strapsDue then s.sampleStraps mode.toNat gold.toNat
      else s.sampleStraps s.cfg.mode s.cfg.gold).bootLoad .primary)
  else .next s

/-- GOLDEN_FALLBACK (R366). -/
def execGoldenFallback (s : State) : Host.Outcome State Fault Refusal :=
  if s.cfg.phase = .fallback then .next (s.bootLoad .golden) else .next s

/-- The boot source takes PR_HOST_ registers: boot mode 010, before STARTED or DARK (R368). -/
def State.hostBoot (s : State) : Bool :=
  s.bootMode == 2 && s.get F.CFG_STATUS.STATE 0 != 3 && s.get F.CFG_STATUS.STATE 0 != 4

/-- A write of PR_HOST_CTRL (R368): the engine reads the container from host memory. -/
def State.hostCtrlWrite (s : State) (v : Nat) : State :=
  match s.cfg.load with
  | some l =>
    if s.hostBoot ∧ bitAt v 0 ∧ l.path = .primary ∧ l.go = false then
      s.setLoad (some { l with
        go := true, last := s.now, base := s.pair R.PR_HOST_ADDR_LO R.PR_HOST_ADDR_HI 0, len := s.reg R.PR_HOST_LEN 0 })
    else s
  | none => s

/-- PR_HOST_CTRL_GO (R368). -/
def execPrHostCtrlGo (acc : Accessor) (v : Word) (s : State) : Host.Outcome State Fault Refusal :=
  .next (s.ownedWrite acc 0 R.PR_HOST_CTRL 0 (fun _ t => t.hostCtrlWrite v.toNat))

/-- A supply of `mv` lies within 5 % of the voltage declared for its bank (R487). -/
def supplyOk (declared mv : Nat) : Bool := decide (95 * declared ≤ 100 * mv) && decide (100 * mv ≤ 105 * declared)

/-- Supply check of a bank at start-up, against the voltage its image declares (R349, R369 step 1): 0 mV is an absent supply. A bank with
no declared voltage stays ABSENT (R353). -/
def State.bankStart (s : State) (b mv : Nat) : State :=
  let v := s.fab.volts.get 0 b
  if v = 0 then s.setBank b 0
  else if supplyOk v mv then s.setBank b 1
  else (s.setBank b (if mv = 0 then 0 else 2)).bankEvent b

/-- START_UP (R369): the supplies of the 16 banks, in mV. -/
def execStartUp (supplies : List (BitVec 16)) (s : State) : Host.Outcome State Fault Refusal :=
  match s.cfg.load with
  | none => .next s
  | some l =>
    if s.cfg.phase ≠ .verified then .next s
    else
      let golden := l.path == .golden
      let s := s.fabricUnlocked
      let s := (List.range 16).foldl (fun t b => t.bankStart b (supplies.getD b 0).toNat) s
      let s : State := l.ports.foldl (fun (t : State) p => t.portApply p) s.endLoad
      let flash := golden || s.bootMode == 0 || s.bootMode == 1
      let s : State := (maskBits 64 (hdrMask l.hdr)).foldl (fun (t : State) r =>
        let t : State := (t.imageRegion l s.cfg.bootHash flash s.cfg.bootSrc r).beginRegion r
        if t.regionState r = 2 then t.setRegion r 3 else t) s
      let s := (s.put F.CFG_STATUS.STATE 0 3).put F.CFG_STATUS.GOLDEN 0 (bit golden)
      let s := s.put F.CFG_STATUS.FLASH_REPAIR 0 (bit flash)
      let s := (s.setReg R.CFG_BASE_VERSION 0 (hdrVer l.hdr)).setReg R.DEV_FW_VERSION 0 (hdrFwVer l.hdr)
      let s := s.put F.DEV_FW_STATE.STATE 0 1
      let s := s.setSec { s.sec with fwHash := l.fwHash.getD 0 }
      .next { s with cfg := { s.cfg with phase := .started, scrubPos := 0, lapStart := s.now, lapPaused := 0, lapDiff := 0 } }

/-! ### The internal configuration port, REGION resets, ISO modes -/

/-- INTPORT_CONTAINER (R374): the port takes a container's header. The rest follows as CONTAINER_CHUNK, the record commands
and SIGNATURE_BLOCK; with CFG_LOCK set the container is discarded and the load ends with LOCKED. -/
def execIntportContainer (hdr : List Byte) (s : State) : Host.Outcome State Fault Refusal :=
  if s.cfg.phase ≠ .started ∨ s.cfg.load.isSome then .next s
  else if s.isSet F.CFG_LOCK.LOCK 0 then
    .next ((s.failRecord { path := .intport } 0x0D false 0).intportEnd { path := .intport } { fail := true, code := 0x0D })
  else .next ((s.beginLoad { path := .intport }).headerRow hdr)

/-- A REGION reset begins (R373): ignored unless ACTIVE. -/
def State.regionReset (s : State) (r : Nat) : State :=
  if s.regionState r = 3 then
    let s := (s.isolateRegion r 6).regionRegs r
    { s with fab := { s.fab with startAt := s.fab.startAt.set 0 r (s.now + 1) } }
  else s

/-- The image of a region rewrites its version and ISO modes (R381). -/
def State.reapply (s : State) (r : Nat) : State :=
  let x := s.cfg.images.get {} r
  (s.setReg R.PR_REGION_VERSION r x.ver).isoWrite r x.iso

/-- The reset of a region ends 1 µs later: start-up with the configuration kept (R373). -/
def State.regionRestart (s : State) (r : Nat) : State :=
  if s.regionState r = 6 ∧ s.fab.startAt.get 0 r - 1 + 1000 ≤ s.now then (s.reapply r).beginRegion r else s

/-- REGION_RESET (R373): a reset of region `r` is requested, or (`ended`) its 1 µs is over. -/
def execRegionReset (r : Fin 64) (ended : Bool) (s : State) : Host.Outcome State Fault Refusal :=
  .next (if ended then s.regionRestart r.val else s.regionReset r.val)

/-- A region is switched to logic-off (R373). -/
def State.regionOff (s : State) (r : Nat) : State := s.isolateRegion r 5

/-- A region is switched on: start-up runs where it holds a configuration (R373). -/
def State.regionOn (s : State) (r : Nat) : State :=
  if s.regionState r = 5 then
    if (s.cfg.images.get {} r).configured then s.beginRegion r else s.setRegion r 0
  else s

/-- PR_ISO_MODE_WRITE (R371). -/
def execPrIsoModeWrite (acc : Accessor) (w : Fin 4) (v : Word) (s : State) : Host.Outcome State Fault Refusal :=
  .next (s.ownedWrite acc 0 R.PR_ISO_MODE w.val (fun i t => t.writePlain R.PR_ISO_MODE i v.toNat))

/-! ### The scrubber (R377 to R380) -/

/-- Place `k` of the lap: static frames, then 7,168 frames of each region. -/
def lapFrame (k : Nat) : Nat :=
  if k < 16384 then 2 ^ 24 + k else (k - 16384) / 7168 * 2 ^ 16 + (k - 16384) % 7168

/-- Places of a whole lap. -/
def lapPlaces : Nat := 16384 + 64 * 7168

/-- The first place from `k` that the scrubber reads: it skips regions that are not ACTIVE, STARTING or OFF. -/
def State.lapNext (s : State) (k : Nat) : Nat :=
  if k < 16384 then k
  else
    let r := (k - 16384) / 7168
    let reads := fun (r : Nat) => s.regionState r == 3 || s.regionState r == 2 || s.regionState r == 5
    if decide (r < 64) && reads r then k
    else match (List.range 64).find? (fun j => decide (r < j) && reads j) with
    | some j => 16384 + j * 7168
    | none => lapPlaces

/-- SOURCE of a frame's events. -/
def srcFrame (a : Nat) : Nat := match frameRegion a with | some r => src 0x0C r | none => srcConfig

/-- The scrubber may read: enabled, no load, no repair, a design running. -/
def State.scrubbing (s : State) : Bool :=
  s.isSet F.CFG_SCRUB_CTRL.EN 0 && s.cfg.load.isNone && s.cfg.repair.isNone && s.cfg.phase == .started

/-- CRC-32 of a frame's data (R379). -/
def frameCrc (d : BitVec 4096) : Nat := Crypto.crc32 (natBytes (leBytes 512 d.toNat))

/-- The device CRC (R379): the XOR of the CRC-32 of every scrubbed frame's data, as loads, corrections and repairs have left it. -/
def State.deviceCrc (s : State) : Nat :=
  (List.range lapPlaces).foldl (fun c k => if s.lapNext k = k then c ^^^ frameCrc (s.frameWritten (lapFrame k)) else c) 0

/-- Counts frame `a` in the lap: its CRC-32 as read against its share of the device CRC. -/
def State.lapCount (s : State) (a : Nat) : State :=
  { s with cfg := { s.cfg with
    lapDiff := s.cfg.lapDiff ^^^ frameCrc (s.fab.frames.get 0 a) ^^^ frameCrc (s.frameWritten a) } }

/-- What the code of a frame shows, of the bits that upsets have flipped: one is corrected, two are seen, of more the code promises nothing
(R354, R377). -/
def State.frameSeen (s : State) (a : Nat) : Config.FrameSeen :=
  match s.flips a with
  | [] => .clean
  | [b] => .single b
  | [_, _] => .multi
  | bs => Config.frameSeen bs

/-! ### Repair sources (R377) -/

/-- Payload offset of frame `a` in a container: none inside where a ZERO record, or no record, writes it. -/
def RepairSrc.place (x : RepairSrc) (a : Nat) : Option Nat :=
  match x.places.reverse.find? (fun p => decide (p.addr ≤ a) && decide (a < p.addr + p.count)) with
  | some p => p.at'.map (· + 512 * (a - p.addr))
  | none => none

/-- The container that holds a frame (R377): the one that booted, in boot flash, or an overlay's copy in the repair store. -/
def State.repairSource (s : State) (a : Nat) : Option RepairSrc :=
  let flash := s.isSet F.CFG_STATUS.FLASH_REPAIR 0
  match frameRegion a with
  | none => if flash then some s.cfg.bootSrc else none
  | some r =>
    if s.isSet F.PR_REGION_STATE.BASE r then (if flash then some (s.cfg.images.get {} r).src else none)
    else if s.isSet F.PR_REGION_STATE.COPY r then some (s.cfg.images.get {} r).src else none

/-- Bytes of chunk `i` of a source: from its copy in the repair store, or what the flash gave. -/
def State.sourceBytes (s : State) (x : RepairSrc) (i : Nat) (given : List Byte) : List Byte × State :=
  let n := min 65536 (hdrLen x.hdr - 65536 * i) + 20
  match x.copy with
  | none => (given.take n, s)
  | some base =>
    let (c, _, _, bs, t) := s.readBytes ⟨epConfig, 0, 3, false⟩ (base + 64 + 65556 * i) n
    (if c = 0 then bs else [], t)

/-- What a repair source gives for frame `a`: its data out of the deciphered chunk, or two, that hold it. None where there is no source,
or a chunk fails its CRC or tag. -/
def State.sourceFrame (s : State) (a : Nat) (given : List Byte) : Option (BitVec 4096) × State :=
  match s.repairSource a with
  | none => (none, s)
  | some x =>
    match x.place a with
    | none => (some 0, s)
    | some o =>
      let i := o / 65536
      let j := (o + 511) / 65536
      let (bs, s) := s.sourceBytes x i given
      match s.chunkOpen x.hdr i bs with
      | none => (none, s)
      | some p =>
        let data := fun (l : List Byte) => some (BitVec.ofNat 4096 (leValue ((l.drop (o % 65536)).take 512)))
        if i = j then (data p, s)
        else
          let (cs, s) := s.sourceBytes x j (given.drop bs.length)
          match s.chunkOpen x.hdr j cs with
          | none => (none, s)
          | some q => (data (p ++ q), s)

/-! ### Scrubbing -/

/-- Corrects bit `b` of frame `a` in place (R377): a write that passes the contention check (R336). -/
def State.scrubCorrect (s : State) (a b : Nat) : State :=
  let (ok, t) := s.writeFrame a (s.fab.frames.get 0 a ^^^ BitVec.ofNat 4096 (flipMask [b]))
  if ok then (t.countReg R.CFG_SCRUB_CORR 0 1).raise { code := 0x0330, sev := 0, source := srcFrame a, addr := some a } else t

/-- The frame goes to repair. -/
def State.beginRepair (s : State) (a : Nat) : State :=
  { s.put F.CFG_SCRUB_STATUS.REPAIRING 0 1 with cfg := { s.cfg with repair := some a } }

/-- The lap that follows a CRC mismatch compares every frame with its repair source and reloads one that differs (R379). -/
def State.compareFrame (s : State) (a : Nat) (given : List Byte) : State :=
  if s.cfg.compare = false then s.lapCount a
  else match s.sourceFrame a given with
  | (some d, t) => if d = t.fab.frames.get 0 a then t.lapCount a else t.beginRepair a
  | (none, t) => t.lapCount a

/-- The scrubber has read frame `a` (R377). A lost frame stays as it is. -/
def State.scrubRead (s : State) (a : Nat) (given : List Byte) : State :=
  let lost := match s.fab.hits.get none a with | some h => h.lost | none => false
  if lost then s.lapCount a
  else match s.frameSeen a with
  | .clean => s.compareFrame a given
  | .single b => (s.scrubCorrect a b).compareFrame a given
  | .multi => s.beginRepair a

/-- CFG_SCRUB_FRAME (R377): the next frame of the lap; upsets may have struck it since the last command. -/
def execCfgScrubFrame (hit : FrameRead) (s : State) : Host.Outcome State Fault Refusal :=
  let k := s.lapNext s.cfg.scrubPos
  if s.scrubbing = false ∨ s.dark = true ∨ lapPlaces ≤ k then .next s
  else
    let a := lapFrame k
    let s : State := { s with cfg := { s.cfg with scrubPos := k + 1 } }
    .next ((if hit.flips.isEmpty then s else s.strikeFrame a (hit.flips.map (·.val))).scrubRead a hit.chunk)

/-- Records a lost frame (R378). -/
def State.frameLost (s : State) (a : Nat) : State :=
  let s := (s.setHit a (some ⟨s.flips a, true⟩)).lapCount a
  let s := (s.countReg R.CFG_SCRUB_LOST 0 1).put F.CFG_SCRUB_STATUS.LOST 0 1
  let s := if s.isSet F.CFG_LOST_ADDR.VALID 0 then s else s.setReg R.CFG_LOST_ADDR 0 (a + 2 ^ 31)
  s.raise { code := 0x0332, sev := if (frameRegion a).isSome then 2 else 3, source := srcFrame a, addr := some a }

/-- CFG_FRAME_REPAIR (R377, R378): the repair under way ends: the frame is rewritten from its source, whose chunk from the flash is the
operand, under the contention check (R336), or is lost. -/
def execCfgFrameRepair (chunk : List Byte) (s : State) : Host.Outcome State Fault Refusal :=
  match s.cfg.repair with
  | none => .next s
  | some a =>
    let s := { s.put F.CFG_SCRUB_STATUS.REPAIRING 0 0 with cfg := { s.cfg with repair := none } }
    match s.sourceFrame a chunk with
    | (none, t) => .next (t.frameLost a)
    | (some d, t) =>
      let (ok, u) := t.writeFrame a d
      if ok then
        .next ((u.countReg R.CFG_SCRUB_REPAIRED 0 1).raise { code := 0x0331, sev := 0, source := srcFrame a, addr := some a })
      else .next u

/-- CFG_SCRUB_LAP_END (R379, R380): the CRC of the frames read is compared with the device CRC; `mismatch`: the kept CRC itself has been
struck. -/
def execCfgScrubLapEnd (mismatch : Bool) (s : State) : Host.Outcome State Fault Refusal :=
  if s.scrubbing = false ∨ s.dark = true ∨ s.lapNext s.cfg.scrubPos < lapPlaces then .next s
  else
    let ns := s.now - s.cfg.lapStart - s.cfg.lapPaused
    let bad := mismatch || s.cfg.lapDiff != 0
    let s := s.setReg R.CFG_SCRUB_LAP_US 0 (min (ns / 1000) (2 ^ 32 - 1))
    let s := if 100000000 < ns then s.put F.CFG_SCRUB_STATUS.LAP_OVERDUE 0 1 else s
    let s := { s with cfg := { s.cfg with scrubPos := 0, lapStart := s.now, lapPaused := 0, compare := bad, lapDiff := 0 } }
    if bad then
      .next ((s.put F.CFG_SCRUB_STATUS.CRC_ERR 0 1).raise { code := 0x0333, sev := 2, source := srcConfig })
    else .next s

end Sys2Proof.Machine
end

