-- ==== Sys2Proof/Machine/Engines.lean ====
section
/-! DEFINITION. The coding, transform, matrix and preamble engines: jobs and their checks (R234, R235, R241 to R250, R257,
R262, R265, R269), HARQ spaces and locks (R251, R252, R256), a job's requests (R236) and its end (R237, R238). What each
job computes is in Coding, RateMatch, Spectral, Matrix and Prach. -/

namespace Sys2Proof.Machine

/-! ### The engine's record -/

/-- Engine `e`. -/
def State.eng (s : State) (e : Nat) : Eng := s.engs.get {} e

/-- Sets it. -/
def State.setEng (s : State) (e : Nat) (x : Eng) : State := { s with engs := s.engs.set {} e x }

/-- STATE of ACC_ENG_STATE (R255): 0 off, 1 idle, 2 busy, 3 fault. -/
def State.engState (s : State) (e : Nat) : Nat :=
  if s.domUp (domEngine e) = false then 0
  else if (s.eng e).fault then 3 else if (s.eng e).task.isSome then 2 else 1

/-- ACC_ENG_STATE of engine `e`. -/
def State.engStateReg (s : State) (e : Nat) : Nat :=
  s.engState e + bit ((s.eng e).phase == .lockWait) * 4 +
    (match (s.eng e).task with | some h => dTaskId h.d * 2 ^ 16 + quadOfEngine e * 2 ^ 30 | none => 0)

/-! ### The job (R234) -/

/-- Word `w` of a job. -/
def jWord (j : BitVec 512) (w : Nat) : Nat := bitsOf j.toNat (32 * w) 32

/-- Field `[lo + n - 1 : lo]` of word `w`. -/
def jFld (j : BitVec 512) (w lo n : Nat) : Nat := bitsOf j.toNat (32 * w + lo) n

def jBit (j : BitVec 512) (w k : Nat) : Bool := jFld j w k 1 == 1

/-- A 48-bit address in words `w` and `w + 1`. -/
def jAddr (j : BitVec 512) (w : Nat) : Nat := jWord j w / 64 * 64 + jFld j (w + 1) 0 16 * 2 ^ 32

def jKeyIn (j : BitVec 512) : Nat := jFld j 0 8 8
def jKeyOut (j : BitVec 512) : Nat := jFld j 0 16 8
def jIn (j : BitVec 512) : Nat := jAddr j 1
def jOut (j : BitVec 512) : Nat := jAddr j 3
def jRes (j : BitVec 512) : Nat := jAddr j 5

/-- Word `w` has a bit outside `mask` set. -/
def jExtra (j : BitVec 512) (w mask : Nat) : Bool := jWord j w &&& (0xFFFFFFFF - mask) != 0

/-- `a / b` rounded up. -/
def ceilDiv (a b : Nat) : Nat := (a + b - 1) / b

/-- `x` rounded up to a multiple of 64. -/
def align64 (x : Nat) : Nat := ceilDiv x 64 * 64

/-- Bits of the type words that a job of ETYPE `t` names (R241, R246 to R250, R262, R265, R269). -/
def jobMask (t w : Nat) : Nat :=
  match t, w with
  | 0, 7 => 0x3F3F03FF | 0, 8 => 0xFFFFFFFF | 0, 9 => 0xFFFFFFFF | 0, 10 => 0xFFFFFF | 0, 11 => 0xFFFFFF
  | 1, 7 => 0x040003FF | 1, 8 => 0xFFFFFFFF | 1, 9 => 0xFFFFFFFF | 1, 10 => 0xFFFFFF | 1, 11 => 0xFFFFFF
  | 2, 7 => 0x0F0F1FFF | 2, 8 => 0x00FF003F | 2, 9 => 0xFFFFFF | 2, 10 => 0xFFFFFF
  | 3, 7 => 0x07FFFFFF | 3, 8 => 0xFFFF03FF | 3, 9 => 0x1FF | 3, 10 => 0xFFFFFF | 3, 11 => 0xFFFFFF
  | 4, 7 => 0x000F0FFF | 4, 8 => 0xFFFFFFFF | 4, 9 => 0xFFFF3FFF | 4, 10 => 0x3FFFF | 4, 11 => 0x3FFFF
  | 4, 12 => 0x3FFFF | 4, 13 => 0xFFFF | 4, 14 => 0x7FFFFFFF | 4, 15 => 0xFFFFFF
  | 5, 7 => 0x1FFF1FFF | 5, 8 => 0xFFFF | 5, 9 => 0x1FFF1FFF | 5, 10 => 0x1FFFFFFF | 5, 11 => 0xFFFFFF
  | 5, 12 => 0xFFFFFF
  | 6, 7 => 0x7F7F7FFF | 6, 8 => 0x0FFFFFFF | 6, 9 => 0xFFFFFFC0 | 6, 10 => 0xFFFF | 6, 11 => 0xFFFFFF
  | 6, 12 => 0xFFFFFF | 6, 13 => 0xFFFFFF | 6, 14 => 0xFFFFFFFF
  | 7, 7 => 0x00FF0F7F | 7, 8 => 0x03FF03FF | 7, 9 => 0x3F7F | 7, 10 => 0xFFFFFF | 7, 11 => 0x007FFFFF
  | 7, 12 => 0xFFFFFF
  | _, _ => 0

/-- Bits of any job word that a field names. -/
def wordMask (t w : Nat) : Nat :=
  match w with
  | 0 => 0x01FFFFFF | 1 => 0xFFFFFFC0 | 2 => 0xFFFF | 3 => 0xFFFFFFC0 | 4 => 0xFFFF | 5 => 0xFFFFFFC0 | 6 => 0xFFFF
  | w => jobMask t w

/-- The lifting sizes of TS 38.212 Table 5.3.2-1 (PRESUMED, log 38). -/
def liftingSize (z : Nat) : Bool :=
  decide (z ≤ 384) && [2, 3, 5, 7, 9, 11, 13, 15].any (fun a => (List.range 8).any (fun j => a * 2 ^ j == z))

/-- The block sizes of TS 36.212 Table 5.1.3-3 (PRESUMED, log 38). -/
def turboSize (k : Nat) : Bool :=
  (decide (40 ≤ k ∧ k ≤ 512) && k % 8 == 0) || (decide (528 ≤ k ∧ k ≤ 1024) && k % 16 == 0) ||
    (decide (1056 ≤ k ∧ k ≤ 2048) && k % 32 == 0) || (decide (2112 ≤ k ∧ k ≤ 6144) && k % 64 == 0)

/-- Systematic and coded columns of a base graph (R241). -/
def ldpcKb (bg : Bool) : Nat := if bg then 10 else 22
def ldpcNb (bg : Bool) : Nat := if bg then 50 else 66

/-- KΠ of TS 36.212: K + 4 rounded up to a multiple of 32. -/
def turboKpi (k : Nat) : Nat := ceilDiv (k + 4) 32 * 32

/-- A stride is a multiple of 64 and at least `least`. -/
def strideOk (v least : Nat) : Bool := v % 64 == 0 && decide (least ≤ v)

/-- Transform length (R262). -/
def fftSize (c : Nat) : Nat :=
  match c with | 0 => 128 | 1 => 256 | 2 => 512 | 3 => 1024 | 4 => 1536 | 5 => 2048 | 6 => 3072 | _ => 4096

/-- Bytes of a sample: CS16 or CS32 (R258). -/
def sampleBytes (cs32 : Bool) : Nat := if cs32 then 8 else 4

/-- Bytes of a matrix: rows padded to 16 bytes (R265). -/
def matrixBytes (rows cols eb : Nat) : Nat := rows * (ceilDiv (cols * eb) 16 * 16)

/-- Bytes of the first input, second input and output of a matrix problem (R266). -/
def matrixSizes (j : BitVec 512) : Nat × Nat × Nat :=
  let m := jFld j 7 8 7; let n := jFld j 7 16 7; let k := jFld j 7 24 7
  let ei := sampleBytes (jBit j 7 4); let eo := sampleBytes (jBit j 7 5); let x := jBit j 7 7
  match jFld j 7 0 4 with
  | 0 => ((if jBit j 7 6 then matrixBytes k m ei else matrixBytes m k ei), matrixBytes k n ei, matrixBytes m n eo)
  | 1 => (matrixBytes n n ei, 0, matrixBytes n n eo)
  | 2 => (matrixBytes m n ei, 0, matrixBytes n n eo + if x then matrixBytes m n eo else 0)
  | 3 => (matrixBytes m n ei, matrixBytes m m ei, matrixBytes n m eo + if x then 8 * n else 0)
  | _ => (matrixBytes (jFld j 8 24 4) k ei, matrixBytes m k ei, matrixBytes 1 m eo)

/-- Dimensions in range for the operation (R265, R266). -/
def matrixDims (j : BitVec 512) : Bool :=
  let m := jFld j 7 8 7; let n := jFld j 7 16 7; let k := jFld j 7 24 7
  let r := fun x => decide (1 ≤ x ∧ x ≤ 64)
  match jFld j 7 0 4 with
  | 0 => r m && r n && r k
  | 1 => r n && m == 0 && k == 0
  | 2 => r m && r n && k == 0 && decide (n ≤ m)
  | 3 => r m && r n && k == 0 && decide (n ≤ m)
  | 4 => r m && r k && n == 1
  | _ => false

/-- Largest prefix of an FFT job's symbols. -/
def fftPrefix (j : BitVec 512) : Nat :=
  if jFld j 10 0 16 = 0 then jFld j 9 0 13 else max (jFld j 9 0 13) (jFld j 9 16 13)

/-- Bytes of one symbol on the time side or the frequency side (R262). -/
def fftBytes (j : BitVec 512) (time cs32 : Bool) : Nat :=
  let n := fftSize (jFld j 7 0 3); let u := jFld j 7 16 13
  (if time then n + fftPrefix j else if u = 0 then n else u) * sampleBytes cs32

/-- Sequence length of a PRACH job, and the roots its preambles need (R270). -/
def prachLen (j : BitVec 512) : Nat := if jBit j 7 0 then 139 else 839
def prachPerRoot (j : BitVec 512) : Nat :=
  let c := jFld j 8 16 10; if c = 0 then 1 else min 64 (prachLen j / c)

/-- Word `w` of an LDPC decoder's job fails (R241). -/
def ldpcDecBad (j : BitVec 512) (w : Nat) : Bool :=
  let zc := jFld j 7 0 9; let bg := jBit j 7 9; let c := jFld j 9 16 16; let kp := jFld j 8 0 16
  match w with
  | 7 => !liftingSize zc || jFld j 7 16 6 == 0 || decide (32 < jFld j 7 16 6) || jFld j 7 27 2 == 3
  | 8 => kp + jFld j 8 16 16 != ldpcKb bg * zc
  | 9 => jFld j 9 0 16 == 0 || decide (ldpcNb bg * zc < jFld j 9 0 16) || c == 0 || decide (512 < c) ||
      (jBit j 7 25 && !jBit j 7 26 && !(c == 1 && jFld j 7 27 2 != 0))
  | 10 => !strideOk (jFld j 10 0 24) (jFld j 9 0 16)
  | 11 => !jBit j 7 29 && !strideOk (jFld j 11 0 24) (ceilDiv kp 8)
  | _ => false

/-- Word `w` of an LDPC encoder's job fails (R246). -/
def ldpcEncBad (j : BitVec 512) (w : Nat) : Bool :=
  let zc := jFld j 7 0 9; let bg := jBit j 7 9; let c := jFld j 9 16 16; let kp := jFld j 8 0 16
  match w with
  | 7 => !liftingSize zc
  | 8 => kp + jFld j 8 16 16 != ldpcKb bg * zc
  | 9 => jFld j 9 0 16 == 0 || decide (ldpcNb bg * zc < jFld j 9 0 16) || c == 0 || decide (512 < c)
  | 10 => !strideOk (jFld j 10 0 24) (ceilDiv (kp - 24 * jFld j 7 26 1) 8)
  | 11 => !strideOk (jFld j 11 0 24) (ceilDiv (jFld j 9 0 16) 8)
  | _ => false

/-- Word `w` of a turbo decoder's job fails (R247). -/
def turboBad (j : BitVec 512) (w : Nat) : Bool :=
  let k := jFld j 7 0 13; let c := jFld j 8 16 8
  match w with
  | 7 => !turboSize k || jFld j 7 16 4 == 0 || decide (8 < jFld j 7 16 4)
  | 8 => c == 0 || decide (128 < c) || (jBit j 7 24 && !jBit j 7 25 && !(c == 1 && jBit j 7 26))
  | 9 => !strideOk (jFld j 9 0 24) (3 * (k + 4))
  | 10 => !jBit j 7 27 && !strideOk (jFld j 10 0 24) (ceilDiv k 8)
  | _ => false

/-- CRC length of a polar job (R248). -/
def polarCrc (j : BitVec 512) : Nat := match jFld j 7 25 2 with | 0 => 24 | 1 => 11 | _ => 6

/-- Word `w` of a polar decoder's job fails (R248). -/
def polarBad (j : BitVec 512) (w : Nat) : Bool :=
  let e := jFld j 7 0 14; let nl := jFld j 7 14 4; let npc := jFld j 7 23 2; let k := jFld j 8 0 10
  match w with
  | 7 => decide (e < 16 ∨ 8192 < e ∨ nl < 5 ∨ 10 < nl ∨ 3 < jFld j 7 18 3) || npc == 3 || jFld j 7 25 2 == 3
  | 8 => decide (2 ^ nl < k + (if npc = 0 then 0 else 3) ∨ e < k)
  | 9 => decide (jFld j 9 0 9 = 0 ∨ 256 < jFld j 9 0 9)
  | 10 => !strideOk (jFld j 10 0 24) e
  | 11 => !strideOk (jFld j 11 0 24) (ceilDiv (k - polarCrc j) 8)
  | _ => false

/-- Word `w` of a rate-matching job fails (R250). DESIGN CHOICE: mode 4, for which the table's NR and LTE columns do not
say which holds, is checked as NR (log 39). -/
def rateBad (j : BitVec 512) (w : Nat) : Bool :=
  let mode := jFld j 7 0 3; let lte := decide (mode = 2 ∨ mode = 3); let k := jFld j 9 0 13; let bg := jBit j 9 13
  let qm := max 1 (jFld j 7 8 4); let ncb := jFld j 10 0 18
  match w with
  | 1 => mode == 4 && jFld j 1 6 26 != 0
  | 2 => mode == 4 && jFld j 2 0 16 != 0
  | 3 => mode == 4 && jFld j 3 6 26 != 0
  | 4 => mode == 4 && jFld j 4 0 16 != 0
  | 7 => decide (4 < mode) || !([1, 2, 4, 6, 8, 10].contains (jFld j 7 8 4)) || (jBit j 7 3 && mode != 0 && mode != 2)
  | 8 => decide (jFld j 8 16 16 = 0 ∨ 512 < jFld j 8 16 16)
  | 9 => if lte then !turboSize k else !liftingSize k
  | 10 => if lte then decide (3 * turboKpi k < ncb)
      else decide (ncb < (ldpcKb bg - 2) * k ∨ ldpcNb bg * k < ncb)
  | 11 => jFld j 11 0 18 % qm != 0
  | 12 => jFld j 12 0 18 % qm != 0
  | 13 => decide (jFld j 8 16 16 < jFld j 13 0 16)
  | 15 => !strideOk (jFld j 15 0 24) (if mode = 1 ∨ mode = 3 then ceilDiv ncb 8 else ncb)
  | _ => false

/-- Word `w` of an FFT job fails (R262). -/
def fftBad (j : BitVec 512) (w : Nat) : Bool :=
  let n := fftSize (jFld j 7 0 3); let used := jFld j 7 16 13; let inv := jBit j 7 3; let cp := jBit j 7 6
  let cpl := jFld j 9 0 13; let long := jFld j 9 16 13; let every := jFld j 10 0 16; let adv := jFld j 10 16 13
  let ins := jFld j 11 0 24; let outs := jFld j 12 0 24
  match w with
  | 7 => decide (12 < jFld j 7 9 4 ∨ used % 2 = 1 ∨ 4096 < used) ||
      (if used = 0 then jBit j 7 8 else decide (n < used + jFld j 7 8 1))
  | 8 => decide (jFld j 8 0 16 = 0 ∨ 1024 < jFld j 8 0 16)
  | 9 => decide (n / 4 < cpl ∨ n / 4 < long) || (!cp && (cpl != 0 || long != 0))
  | 10 => (!cp && every != 0) || decide (cpl < adv) || (every != 0 && decide (long < adv))
  | 11 => if ins = 0 then inv else !strideOk ins (fftBytes j (!inv) (jBit j 7 4))
  | 12 => if outs = 0 then !inv else !strideOk outs (fftBytes j inv (jBit j 7 5))
  | _ => false

/-- Word `w` of a matrix job fails (R265, R266). -/
def matrixBad (j : BitVec 512) (w : Nat) : Bool :=
  let op := jFld j 7 0 4; let z := matrixSizes j; let two := decide (op = 0 ∨ op = 3 ∨ op = 4)
  match w with
  | 7 => decide (4 < op) || (jBit j 7 6 && op != 0) || (jBit j 7 7 && !decide (1 ≤ op ∧ op ≤ 3)) || !matrixDims j
  | 8 => jFld j 8 0 16 == 0 || decide (toSigned 8 (jFld j 8 16 8) < -32 ∨ 31 < toSigned 8 (jFld j 8 16 8)) ||
      (if op = 4 then decide (jFld j 8 24 4 = 0 ∨ 4 < jFld j 8 24 4) else jFld j 8 24 4 != 0)
  | 9 => !two && jFld j 9 6 26 != 0
  | 10 => !two && jFld j 10 0 16 != 0
  | 11 => jFld j 11 0 24 != 0 && !strideOk (jFld j 11 0 24) z.1
  | 12 => jFld j 12 0 24 != 0 && (!two || !strideOk (jFld j 12 0 24) z.2.1)
  | 13 => jFld j 13 0 24 == 0 || !strideOk (jFld j 13 0 24) z.2.2
  | 14 => jWord j 14 != 0 && op != 1 && op != 3
  | _ => false

/-- Word `w` of a PRACH job fails (R269, R270). The 6-bit NPRE cannot hold the 64 its range gives; 0 is out of range
(DESIGN CHOICE, log 40). -/
def prachBad (j : BitVec 512) (w : Nat) : Bool :=
  let src := jBit j 7 1; let root := jFld j 8 0 10; let dec := jFld j 11 16 7; let pre := jFld j 9 8 6
  match w with
  | 3 => jFld j 3 6 26 != 0
  | 4 => jFld j 4 0 16 != 0
  | 6 => jRes j == 0
  | 7 => decide (jFld j 7 2 5 = 0 ∨ 16 < jFld j 7 2 5 ∨ jFld j 7 8 4 = 0 ∨ 12 < jFld j 7 8 4 ∨ jFld j 7 16 8 = 0)
  | 8 => decide (prachLen j - 2 < root) || decide (prachLen j ≤ jFld j 8 16 10)
  | 9 => decide (jFld j 9 0 7 = 0 ∨ 64 < jFld j 9 0 7 ∨ pre = 0) || jFld j 9 0 7 != ceilDiv pre (prachPerRoot j)
  | 10 => jFld j 10 0 24 % 64 != 0
  | 11 => src && decide (dec = 0 ∨ 64 < dec)
  | _ => false

/-- Word `w` of a job for an engine of ETYPE `t` fails a check of R235. A relation between fields is laid to the
highest-numbered word it involves (DESIGN CHOICE, log 41). -/
def jobBad (t : Nat) (j : BitVec 512) (w : Nat) : Bool :=
  jExtra j w (wordMask t w) || (w == 0 && (jFld j 0 0 4 != t || jFld j 0 4 4 != 1)) ||
  (match t with
   | 0 => ldpcDecBad j w | 1 => ldpcEncBad j w | 2 => turboBad j w | 3 => polarBad j w | 4 => rateBad j w
   | 5 => fftBad j w | 6 => matrixBad j w | _ => prachBad j w)

/-- First failing word. -/
def jobCheck (t : Nat) (j : BitVec 512) : Option Nat := findBelow 16 (jobBad t j)

/-! ### HARQ spaces (R251, R256) -/

/-- The job uses a soft buffer. -/
def usesSoft (t : Nat) (j : BitVec 512) : Bool := t == 4 && (jBit j 7 3 || jFld j 7 0 3 == 4)

/-- BASE of a space. -/
def State.harqBase (s : State) (k : Nat) : Nat :=
  s.reg R.ACC_ENG_HARQ_BASE_LO k / 4096 * 4096 + s.get F.ACC_ENG_HARQ_BASE_HI.ADDR k * 2 ^ 32

/-- What R251 makes of a job that uses a soft buffer: code and AUX, (0, 0) where it may run. DESIGN CHOICE: the order
disabled space, limits, keys (log 42). -/
def State.softCheck (s : State) (j : BitVec 512) : Nat × Nat :=
  let sp := jFld j 7 16 4
  if s.isSet F.ACC_ENG_HARQ_CFG.EN sp = false then (0x106, 0)
  else if s.get F.ACC_ENG_HARQ_CFG.COUNT sp ≤ jFld j 8 0 16 then (0x101, 8)
  else if s.get F.ACC_ENG_HARQ_STRIDE.SECTORS sp * 4096 < jFld j 8 16 16 * align64 (jFld j 10 0 18) then (0x101, 10)
  else if jKeyIn j ≠ s.get F.ACC_ENG_HARQ_CFG.KEY sp ∨ jKeyOut j ≠ s.get F.ACC_ENG_HARQ_CFG.KEY sp then (0x105, 0)
  else (0, 0)

/-- Key of the lock a job takes (R252). -/
def lockKey (j : BitVec 512) : Nat := jFld j 7 16 4 * 65536 + jFld j 8 0 16

/-- A write of ACC_ENG_HARQ_CFG (R256). While EN is 1, a write that would change KEY or COUNT is ignored there and sets
REJ. -/
def State.harqCfgWrite (s : State) (k v : Nat) : State :=
  let s := if bitAt v 1 then s.put F.ACC_ENG_HARQ_CFG.REJ k 0 else s
  if s.isSet F.ACC_ENG_HARQ_CFG.EN k then
    let s := if bitsOf v 8 8 ≠ s.get F.ACC_ENG_HARQ_CFG.KEY k ∨ bitsOf v 16 16 ≠ s.get F.ACC_ENG_HARQ_CFG.COUNT k
      then s.put F.ACC_ENG_HARQ_CFG.REJ k 1 else s
    s.put F.ACC_ENG_HARQ_CFG.EN k (v % 2)
  else
    let s := (s.put F.ACC_ENG_HARQ_CFG.KEY k (bitsOf v 8 8)).put F.ACC_ENG_HARQ_CFG.COUNT k (bitsOf v 16 16)
    if v % 2 = 0 then s
    else
      let n := s.get F.ACC_ENG_HARQ_STRIDE.SECTORS k
      let c := s.get F.ACC_ENG_HARQ_CFG.COUNT k
      if 1 ≤ n ∧ 1 ≤ c ∧ s.harqBase k + c * n * 4096 ≤ 2 ^ 35 then s.put F.ACC_ENG_HARQ_CFG.EN k 1
      else s.put F.ACC_ENG_HARQ_CFG.REJ k 1

/-- ACC_ENG_HARQ_CFG_WRITE (R256). -/
def execAccEngHarqCfgWrite (acc : Accessor) (v : Word) (s : State) : Host.Outcome State Fault Refusal :=
  .next (s.ownedWrite acc 0 R.ACC_ENG_HARQ_CFG 0 (fun k t => t.harqCfgWrite k v.toNat))

/-- A write of ACC_ENG_HARQ_BASE or STRIDE (R256). -/
def State.harqPlaceWrite (s : State) (r : RegRow) (k v : Nat) : State :=
  if s.isSet F.ACC_ENG_HARQ_CFG.EN k then s.put F.ACC_ENG_HARQ_CFG.REJ k 1 else s.writePlain r k v

/-! ### A job's requests (R236) -/

/-- What a finished job reports: its outcomes (R237, R257), the words of its result record and its counts. -/
structure JobDone where
  softLoss : Bool := false
  poisonIn : Bool := false
  cbFail : Bool := false
  tbFail : Bool := false
  sat : Bool := false
  illCond : Bool := false
  /-- word 0 above OUTCOME, word 1, word 2, and the words from 4 -/
  hi0 : Nat := 0
  w1 : Nat := 0
  w2 : Nat := 0
  rest : List Nat := []
  items : Nat := 0
  satCnt : Nat := 0
  illCnt : Nat := 0
  det : Nat := 0
  deriving DecidableEq, Repr

/-- What stops a job before its end: the code and AUX of R237, or `codeWaits` where a request waits; and the output ranges
that are not fully written, where the job had begun to write them; and what it had counted by then. -/
structure JobStop where
  code : Nat
  aux : Nat
  at' : State
  left : Option (List (Nat × Nat)) := none
  counts : JobDone := {}
  deriving DecidableEq, Repr

/-- A part of a job. -/
abbrev Job (α : Type) := StateT State (Except JobStop) α

/-- Stops with the code a request failed with. -/
def jobFail {α : Type} (err c : Nat) (t : State) : Except JobStop α :=
  .error { code := if c = codeWaits then codeWaits else err, aux := c, at' := t }

/-- The way of the requests a job makes: the engine's endpoint, a key index and the VC of the job's header (R234, R236). -/
def jobWay (e : Nat) (j : BitVec 512) (key : Nat) : Way := ⟨epEngine e, key, jFld j 0 24 1, false⟩

/-- Reads units from `16 w`. -/
def jobUnits (x : Way) (err w n : Nat) : Job (List DataUnit) := fun s =>
  match s.busUnits x (n + 1) w n with
  | (c, ds, t) => if c = 0 then .ok (ds, t) else jobFail err c t

/-- Writes units. -/
def jobPut (x : Way) (err : Nat) (us : List WUnit) : Job Unit := fun s =>
  match s.busPut x (us.length + 1) us with
  | (c, _, t) => if c = 0 then .ok ((), t) else jobFail err c t

/-- Units of a region at a 64-byte line: the bytes, then zeros to the end of the last line (R236); `pz` marks the poisoned
units that hold data. -/
def lineUnits (addr : Nat) (bs : List Byte) (pz : Nat → Bool) : List WUnit :=
  (List.range (align64 bs.length / 16)).map (fun k =>
    { w := addr / 16 + k, be := 65535, data := BitVec.ofNat 128 (leValue ((bs.drop (16 * k)).take 16))
      poison := decide (16 * k < bs.length) && pz k })

/-- An output region: address, bytes, and its poisoned units. -/
structure Region where
  addr : Nat
  bytes : List Byte
  pz : List Bool := []
  deriving DecidableEq, Repr

/-- Its units. -/
def Region.units (r : Region) : List WUnit := lineUnits r.addr r.bytes (fun k => r.pz.getD k false)

/-- Its range, to the end of its last line. -/
def Region.range (r : Region) : Nat × Nat := (r.addr, align64 r.bytes.length)

/-- A part of a job: if it fails, these output ranges are not fully written (R238). -/
def jobLeaves {α : Type} (left : List (Nat × Nat)) (p : Job α) : Job α := fun s =>
  match p s with
  | .ok x => .ok x
  | .error z => .error { z with left := some left }

/-- Writes output regions with KEY_OUT. -/
def jobOut (e : Nat) (j : BitVec 512) : List Region → Job Unit
  | [] => pure ()
  | r :: rs => do
    jobLeaves ((r :: rs).map Region.range) (jobPut (jobWay e j (jKeyOut j)) 0x103 r.units)
    jobOut e j rs

/-- Free bytes. -/
def State.freeBytes (s : State) (n : Nat) : List Byte × State :=
  ((List.range n).map (fun k => Config.undefinedBits 8 (s.free + k)), { s with free := s.free + n })

/-- A range of memory that is indeterminate (R238, R253): it holds free bytes, as far as the engine could have written
there. The engine issues no request for it. -/
def State.blurRange (s : State) (ep key : Nat) (r : Nat × Nat) : State :=
  let (bs, s) := s.freeBytes (align64 r.2)
  (lineUnits r.1 bs (fun _ => false)).foldl (fun s u =>
    let t := decodeAddr (16 * u.w)
    if farTarget t ∨ s.injectBad ep t = true ∨ s.domainCode t ≠ 0 then s else (s.memWrite [u] key ep).2) s

/-- Ranges that are indeterminate. -/
def State.blurRanges (s : State) (ep key : Nat) (rs : List (Nat × Nat)) : State :=
  rs.foldl (fun s r => s.blurRange ep key r) s

/-- The highest-numbered outcome (R237). -/
def JobDone.outcome (d : JobDone) : Nat :=
  if d.illCond then 6 else if d.sat then 5 else if d.tbFail then 4 else if d.cbFail then 3
  else if d.poisonIn then 2 else if d.softLoss then 1 else 0

/-- The result record (R244, R264, R268, R273). -/
def JobDone.record (d : JobDone) (runNs : Nat) : List Byte :=
  ([d.outcome + d.hi0 * 2 ^ 16, d.w1, d.w2, min runNs (2 ^ 32 - 1)] ++ d.rest).flatMap (leBytes 4)

/-- Adds to a 64-bit counter pair. -/
def State.addPair (s : State) (lo hi : RegRow) (i k : Nat) : State := s.setPair lo hi i ((s.pair lo hi i + k) % 2 ^ 64)

/-- The counters of R255 and R274 that a finished job advances. -/
def State.jobCounts (s : State) (e : Nat) (d : JobDone) : State :=
  let s := s.addPair R.ACC_ENG_ITEMS_LO R.ACC_ENG_ITEMS_HI e d.items
  let s := s.countReg R.ACC_ENG_SAT_CNT e d.satCnt
  (s.countReg R.ACC_ENG_ILL_CNT e d.illCnt).countReg R.ACC_ENG_PRACH_DET e d.det

/-- Counts decoder iterations as they are run (R255). -/
def jobIters (e n : Nat) : Job Unit := fun s => .ok ((), s.addPair R.ACC_ENG_ITER_LO R.ACC_ENG_ITER_HI e n)

/-- Frees the lock an engine holds, or its place among those that wait (R252). -/
def State.unlock (s : State) (e : Nat) : State :=
  let k := (s.eng e).lock
  if k = 0 then s
  else
    let s := if s.harqHeld.get 0 (k - 1) = e + 1 then { s with harqHeld := s.harqHeld.set 0 (k - 1) 0 } else s
    let s := { s with harqWait := s.harqWait.filter (fun x => x != e) }
    s.setEng e { s.eng e with lock := 0 }

/-- Writes the result record, after every output write (R236). -/
def jobRecord (e : Nat) (j : BitVec 512) (start : Nat) (d : JobDone) : Job Unit := do
  let s ← get
  if jRes j = 0 then pure ()
  else jobLeaves [] (jobPut (jobWay e j (jKeyOut j)) 0x103 (lineUnits (jRes j) (d.record (s.now - start)) (fun _ => false)))

/-- Runs a job's body whole: its reads, its outputs, its record (R236). A request that must wait leaves the job to be run
later; an error ends it under R238, `blur` naming the output ranges it leaves indeterminate where it stops before its
first output. -/
def State.runJob (s : State) (e : Nat) (blur : List (Nat × Nat)) (body : Job JobDone) : State :=
  let x := s.eng e
  match (do let d ← body; jobRecord e x.job x.start d; pure d) s with
  | .ok (d, t) =>
    let t := (t.unlock e).jobCounts e d
    t.setEng e { t.eng e with phase := .done, code := d.outcome, aux := 0 }
  | .error z =>
    if z.code = codeWaits then s.wakeLike z.at'
    else
      let t := (z.at'.blurRanges (epEngine e) (jKeyOut x.job) (z.left.getD blur)).unlock e
      let t := t.jobCounts e z.counts
      t.setEng e { t.eng e with phase := .done, code := z.code, aux := z.aux }

/-- Engine `e` has a checked job for which `f` holds, and may run it. -/
def State.jobReady (s : State) (e : Nat) (t : Nat) (f : BitVec 512 → Bool) : Bool :=
  (s.eng e).phase == .ready && engineType e == t && f (s.eng e).job && s.domUp (domEngine e) && !(s.eng e).fault

/-! ### Start, lock and end -/

/-- The configuration register a job's engine reads. -/
def State.engCfg (s : State) (e : Nat) : Nat :=
  match engineType e with
  | 6 => s.reg R.ACC_ENG_MTX_CFG e
  | 7 => s.reg R.ACC_ENG_PRACH_CFG e
  | _ => s.reg R.ACC_ENG_CODE_CFG e

/-- A job that uses a soft buffer asks for its lock (R252). -/
def State.askLock (s : State) (e : Nat) (j : BitVec 512) : State :=
  let k := lockKey j
  if s.harqHeld.get 0 k = 0 ∧ s.harqWait.any (fun x => (s.eng x).lock == k + 1) = false then
    { (s.setEng e { s.eng e with lock := k + 1, phase := .ready }) with harqHeld := s.harqHeld.set 0 k (e + 1) }
  else
    let s := s.countReg R.ACC_ENG_HARQ_WAITS 0 1
    { (s.setEng e { s.eng e with lock := k + 1, phase := .lockWait }) with harqWait := s.harqWait ++ [e] }

/-- The checks of a read job: R235, then R251 (R237 codes). -/
def State.acceptJob (s : State) (e : Nat) (j : BitVec 512) : State :=
  let t := engineType e
  let stop := fun (c a : Nat) => s.setEng e { s.eng e with job := j, phase := .done, code := c, aux := a }
  match jobCheck t j with
  | some w => stop 0x101 w
  | none =>
    let sc := if usesSoft t j then s.softCheck j else (0, 0)
    if sc.1 ≠ 0 then stop sc.1 sc.2
    else
      let sp := jFld j 7 16 4
      let s := s.setEng e { s.eng e with
        job := j, phase := .ready, cfg := s.engCfg e, skey := s.get F.ACC_ENG_HARQ_CFG.KEY sp
        sbase := s.harqBase sp + jFld j 8 0 16 * s.get F.ACC_ENG_HARQ_STRIDE.SECTORS sp * 4096 }
      if usesSoft t j then s.askLock e j else s

/-- ENGINE_JOB_START (R234, R235): engine `e` takes the task on its link, reads its job and checks it. A job read that
returns poison ends with JOB_READ and AUX POISONED (DESIGN CHOICE, log 43). -/
def execEngineJobStart (e : Fin 104) (s : State) : Host.Outcome State Fault Refusal :=
  let i := e.val
  match s.engIn.get none i with
  | none => .next s
  | some h =>
    if (s.eng i).task.isSome ∨ (s.eng i).fault = true ∨ s.domUp (domEngine i) = false then .next s
    else
      let (c, ds, t) := s.busUnits ⟨epEngine i, 0, 0, false⟩ 5 (dJob h.d / 16) 4
      if c = codeWaits then .next (s.wakeLike t)
      else
        let t := { t with engIn := t.engIn.set none i none }
        let t := t.setEng i { task := some h, start := t.now }
        if c ≠ 0 then .next (t.setEng i { t.eng i with phase := .done, code := 0x100, aux := c })
        else if ds.any (·.poison) then .next (t.setEng i { t.eng i with phase := .done, code := 0x100, aux := 0xD })
        else .next (t.acceptJob i (BitVec.ofNat 512 (leValue (unitBytes ds 0 64))))

/-- HARQ_LOCK_GRANT (R252): the first of the engines that wait for engine `e`'s lock is `e`, and the lock is free. -/
def execHarqLockGrant (e : Fin 104) (s : State) : Host.Outcome State Fault Refusal :=
  let x := s.eng e.val
  if x.phase = .lockWait ∧ x.lock ≠ 0 ∧ s.harqHeld.get 0 (x.lock - 1) = 0 ∧
      s.harqWait.find? (fun y => (s.eng y).lock == x.lock) = some e.val then
    .next { (s.setEng e.val { x with phase := .ready }) with
      harqHeld := s.harqHeld.set 0 (x.lock - 1) (e.val + 1), harqWait := s.harqWait.filter (fun y => y != e.val) }
  else .next s

/-- Records an engine error (R238): the first in ACC_ENG_ERR, and a UE event. -/
def State.engError (s : State) (e code aux : Nat) : State :=
  let s := if s.isSet F.ACC_ENG_ERR.VALID e then s.put F.ACC_ENG_ERR.MORE e 1
    else (s.setReg R.ACC_ENG_ERR e (code + aux % 256 * 2 ^ 16 + 2 ^ 31)).setReg R.ACC_ENG_ERR_TASK e
      (match (s.eng e).task with | some h => dTaskId h.d + quadOfEngine e * 2 ^ 14 | none => 0)
  s.raise { code := code, sev := 2, source := src 0x02 e }

/-- Ends engine `e`'s task with a code (R236 to R238). -/
def State.engEnd (s : State) (e : Nat) (h : Held) (code aux : Nat) : State :=
  let s := if 0x100 ≤ code then s.engError e code aux else s
  let s := (s.unlock e).countReg R.ACC_ENG_JOBS e 1
  let s := s.setEng e { fault := decide (code = 0x107) }
  s.reportEnd (quadOfEngine e) h.handle (if code < 0x100 then 0 else 3) code

/-- A write of ACC_ENG_CTRL (R238). The engine is idle again at once, inside the 20 µs the rule allows. -/
def State.engCtrlWrite (s : State) (e v : Nat) : State :=
  if v % 2 = 1 ∧ s.engState e = 3 then
    let s := s.setEng e {}
    s.redecide (quadOfEngine e)
  else s

/-- CLEAR_FAULT (R238, R255). -/
def execClearFault (acc : Accessor) (v : Word) (s : State) : Host.Outcome State Fault Refusal :=
  .next (s.ownedWrite acc 0 R.ACC_ENG_CTRL 0 (fun e t => t.engCtrlWrite e v.toNat))

/-- ACC_ENG_STAT_CLR (R255, R274). -/
def State.engStatClr (s : State) (e v : Nat) : State :=
  if v % 2 = 1 then
    ((s.setReg R.ACC_ENG_JOBS e 0).setPair R.ACC_ENG_ITER_LO R.ACC_ENG_ITER_HI e 0).setPair R.ACC_ENG_ITEMS_LO
      R.ACC_ENG_ITEMS_HI e 0
  else s

def execAccEngStatClr (acc : Accessor) (v : Word) (s : State) : Host.Outcome State Fault Refusal :=
  .next (s.ownedWrite acc 0 R.ACC_ENG_STAT_CLR 0 (fun e t => t.engStatClr e v.toNat))

/-- A write of ACC_ENG_ERR (R255): VALID clears the record. -/
def State.engErrWrite (s : State) (e v : Nat) : State :=
  if bitAt v 31 then (s.setReg R.ACC_ENG_ERR e 0).setReg R.ACC_ENG_ERR_TASK e 0 else s

end Sys2Proof.Machine
end

