-- ==== Sys2Proof/Machine/Power.lean ====
section
/-! DEFINITION. Power domains (R382 to R389), device states and wake (R390 to R394), the Mitten domain (R395 to R397). -/

namespace Sys2Proof.Machine

/-! ### What lies in a domain (R382) -/

/-- Place of a domain in the entry order of NAP: clusters, accelerator groups, regions, lane quads (R391). -/
def domClass (d : Nat) : Nat := if d < 0x30 then 0 else if d < 0x40 then 1 else if d < 0x80 then 2 else 3

/-- Engines of an accelerator group's domain. -/
def domEngines (d : Nat) : List Nat := (List.range 104).filter (fun e => domEngine e == d)

/-- Initiators of a domain (R385 step 2). -/
def domInits (d : Nat) : List Nat :=
  if 0x10 ≤ d ∧ d < 0x30 then (List.range 8).map (fun j => epCore (8 * (d - 0x10) + j))
  else if 0x30 ≤ d ∧ d < 0x40 then (domEngines d).map epEngine
  else if 0x40 ≤ d ∧ d < 0x80 then (regionPorts (d - 0x40)).map epPort
  else if 0x80 ≤ d ∧ d < 0xC0 then [epLaneQuad (d - 0x80)]
  else []

/-- Cores and engines of a domain are idle (R385 step 1). -/
def State.domIdle (s : State) (d : Nat) : Bool :=
  if 0x10 ≤ d ∧ d < 0x30 then (List.range 8).all (fun j =>
    let c := s.core (8 * (d - 0x10) + j); c.task.isNone && c.lower.isNone && c.arrived.isNone)
  else (domEngines d).all (fun e => (s.eng e).task.isNone && (s.engIn.get none e).isNone)

/-- Every initiator of a domain has an outstanding count of 0. -/
def State.domDrained (s : State) (d : Nat) : Bool := (domInits d).all (fun ep => (s.outstanding ep).isEmpty)

/-! ### State beside the registers -/

def State.setPower (s : State) (x : Power) : State := { s with power := x }
def State.down (s : State) (d : Nat) : Option Down := s.power.downs.get none d
def State.setDown (s : State) (d : Nat) (x : Option Down) : State :=
  s.setPower { s.power with downs := s.power.downs.set none d x }
def State.setDom (s : State) (d st : Nat) : State :=
  match lapGroup d with
  | some g => (((s.lapSync g).put F.PWR_DOM_STATUS.STATE d st)).lapGate g
  | none => s.put F.PWR_DOM_STATUS.STATE d st
/-- Lane quad of domain `d` is no longer shed by the governor (R400). -/
def State.unshed (s : State) (d : Nat) : State :=
  s.setPower { s.power with gov := { s.power.gov with shed := s.power.gov.shed.filter (fun m => domLaneQuad m != d) } }

/-- Payload of POWER_DOMAIN. -/
def domPayload (st : Nat) : Payload := pack 1 [(0, 8, st)]

/-- Answers a POWER_DOMAIN command, if one waits. -/
def State.domAnswer (s : State) (c : Option Taken) (status st : Nat) : State :=
  match c with
  | some t => s.finish t status 0 (domPayload st)
  | none => s

/-! ### On and off -/

/-- A row's instance lies in an accelerator group's domain. -/
def rowInGroup (d : Nat) (r : RegRow) (i : Nat) : Bool := r.sel == .eng && domEngine (i / r.n) == d

/-- Lanes of a quad retrain (R384). -/
def State.quadOn (s : State) (m : Nat) : State :=
  (List.range 4).foldl (fun t k =>
    let l := 4 * m + k
    if t.isSet F.LANE_CTRL.EN l then t.laneLock l else t) s

/-- Lanes of a quad stop; their engines take their link-down action. -/
def State.quadOff (s : State) (m : Nat) : State :=
  (List.range 4).foldl (fun t k =>
    let l := 4 * m + k
    let was := t.laneState l
    let t := (t.put F.LANE_STATUS.STATE l 0).squelch l 1
    if 2 ≤ was then t.laneDown l 0 else t) (s.stopQuadLoop m true)

/-- A domain is on: what it does not retain has its default (R180, R386), a region starts up (R372), lanes are trained. -/
def State.domOn (s : State) (d : Nat) : State :=
  let s := s.setDom d 2
  if 0x10 ≤ d ∧ d < 0x30 then
    let c := d - 0x10
    let s := s.resetRegs 9 (rowInCluster c)
    (List.range 8).foldl (fun t j =>
      (t.setCore (8 * c + j) (coreFresh (t.statInit (8 * c + j)) (t.core (8 * c + j)) true)).inboxIrq (8 * c + j)) s
  else if 0x30 ≤ d ∧ d < 0x40 then
    let s := s.resetRegs 9 (rowInGroup d)
    (domEngines d).foldl (fun t e => { t with engs := t.engs.set {} e {} }) s
  else if 0x40 ≤ d ∧ d < 0x80 then
    let s := s.regionOn (d - 0x40)
    if s.regionState (d - 0x40) = 2 then (s.setRegion (d - 0x40) 3).finishStarting else s
  else if 0x80 ≤ d ∧ d < 0xC0 then s.quadOn (d - 0x80)
  else s

/-- A domain is off. -/
def State.domGone (s : State) (d : Nat) : State :=
  let s := s.setDom d 0
  if 0x10 ≤ d ∧ d < 0x30 then
    (List.range 8).foldl (fun t j => t.setCore (8 * (d - 0x10) + j) (coreFresh 0 (t.core (8 * (d - 0x10) + j)) true))
      (s.put F.CL_PACE.PACE (d - 0x10) 0)
  else if 0x30 ≤ d ∧ d < 0x40 then (domEngines d).foldl (fun t e => { t with engPace := t.engPace.set 0 e 0 }) s
  else if 0x40 ≤ d ∧ d < 0x80 then s.regionOff (d - 0x40)
  else if 0x80 ≤ d ∧ d < 0xC0 then s.quadOff (d - 0x80)
  else s

/-- Dispatchers decide again. -/
def State.redecideAll (s : State) : State := (List.range 4).foldl (fun t q => t.redecide q) s

/-- The dispatcher of a domain decides again. -/
def State.redecideDom (s : State) (d : Nat) : State :=
  if d < 0x40 then (match quadOfDomain d with | some q => s.redecide q | none => s) else s

/-! ### Device states (R390 to R394) -/

def State.setDev (s : State) (x : Option DevState) : State := s.setPower { s.power with dev := x }

/-- Level-sensitive sources that are active, as bits of wake_mask (R392). -/
def State.activeLevels (s : State) : Nat :=
  s.get F.PWR_MITTEN_STATUS.ALARM 0 + (s.power.pins % 16 &&& (15 - s.get F.PWR_WAKE_CFG.EDGE 0)) * 2 +
    bit (bitAt s.power.pins 4) * 2 ^ 5

/-- Tasks run. -/
def State.tasksRun (s : State) : Bool := (List.range 4).any (fun q => (s.dsp q).pool.any (fun t => t.st == .running))

/-- Parked requests are delivered in arrival order; the engines' own are made again. -/
def State.unpark (s : State) (d : Nat) : State :=
  let l := s.parkedAt d
  let s := s.setParked d [] []
  let s := s.setPower { s.power with wakeAt := s.power.wakeAt.set 0 d 0 }
  s.handPackets l false

/-- A domain's power-up is complete: it is on, POWER_DOMAIN is answered, parked requests are delivered (R384, R387). -/
def State.powerUp (s : State) (d : Nat) : State :=
  let c := s.power.ups.get none d
  let s := ((s.domOn d).unpark d).unshed d
  let s := s.setPower { s.power with ups := s.power.ups.set none d none }
  (s.domAnswer c stOK 2).redecideDom d

/-- A power-down under way is no longer part of an entry: the attempt has failed, and what POWER_DOMAIN or the governor asked goes on
(log 58). -/
def State.leaveEntry (s : State) (d : Nat) : State :=
  s.setDown d (match s.down d with
    | some y => if y.cmd.isSome || y.lock then some { y with entry := false, failed := some s.now } else none
    | none => none)

/-- Returns to RUN: every domain that was on before entry, in the reverse of the entry order, then dispatch (R393). -/
def State.restoreDomains (s : State) (x : DevState) : State :=
  let own := if x.target = 3 then [0xC0, 0xC1, 1, 2, 3] else [0xC0, 0xC1]
  let s := x.restore.reverse.foldl (fun t d =>
    let t := t.leaveEntry d
    if t.domState d = 2 then t else if t.domState d = 3 ∨ t.domState d = 4 then t.setDom d 2 else t.powerUp d)
    (own.foldl (fun t d => t.setDom d 2) s)
  let s := (s.put F.PWR_STATE.STATE 0 0).put F.PWR_STATE.ENTERING 0 0
  (s.setPower { s.power with dev := none, hold := false }).redecideAll

/-- Leaves an entry, or NAP, for a wake by a source. -/
def State.leaveNap (s : State) (x : DevState) (source : Nat) : State :=
  (s.put F.PWR_MITTEN_STATUS.LAST_WAKE 0 (source + 1)).restoreDomains x

/-- With every domain of an entry off, the HBM stacks go to self-refresh, HIBERNATE turns off every domain but Mitten and switches the
regulator, unless a debugger holds the debug domain (R395, R472), and the window opens (R391 steps 4 and 5); a wake latched before
it is handled at once. -/
def State.settleEntry (s : State) : State :=
  match s.power.dev with
  | none => s
  | some x =>
    if x.answered = false ∨ x.target = 1 ∨ x.window.isSome ∨ x.todo ≠ [] then s
    else match x.wake with
    | some k => s.leaveNap x k
    | none =>
      let s := (s.setDom 0xC0 0).setDom 0xC1 0
      let s := if x.target = 3 ∧ s.attached = false then
          ([1, 2, 3].foldl (fun t d => t.setDom d 0) s).put F.PWR_MITTEN_STATUS.LP 0 1
        else s
      s.setDev (some { x with window := some s.now })

/-- A domain is done with for an entry. -/
def State.entryDone (s : State) (d : Nat) : State :=
  match s.power.dev with
  | none => s
  | some x => (s.setDev (some { x with todo := x.todo.filter (· != d) })).settleEntry

/-! ### Powering a domain down (R385, R386) -/

/-- Starts an attempt. -/
def State.startAttempt (s : State) (d : Nat) (x : Down) : State :=
  ((s.setDom d 3).setDown d (some { x with attempts := x.attempts + 1, start := s.now, failed := none })).put
    F.PWR_DOM_STATUS.ATTEMPTS d (x.attempts + 1)

/-- Every attempt has failed: POWER_DOMAIN gets E_TIMEOUT; a device-state entry keeps the domain on; the governor has not shed it. -/
def State.giveUp (s : State) (d : Nat) (x : Down) : State :=
  let s := ((s.setDown d none).unshed d).domAnswer x.cmd stTimeout (s.domState d)
  if x.entry then (s.put F.PWR_DOM_STATUS.KEPT_ON d 1).entryDone d else s

/-- An attempt fails with the domain on: its elements may be free again (R160). -/
def State.attemptFail (s : State) (d : Nat) (x : Down) : State :=
  let s := s.setDom d 2
  (if 4 ≤ x.attempts then s.giveUp d x else s.setDown d (some { x with failed := some s.now })).redecideDom d

/-- Domains of earlier classes still to be powered down in an entry. -/
def State.entryBefore (s : State) (d : Nat) : Bool :=
  match s.power.dev with
  | none => false
  | some x => x.todo.any (fun e => decide (domClass e < domClass d))

/-- POWER_DOWN_ATTEMPT (R385 step 1): the first attempt begins. -/
def execPowerDownAttempt (d : Fin 256) (s : State) : Host.Outcome State Fault Refusal :=
  match s.down d.val with
  | none => .next s
  | some x =>
    if x.attempts = 0 ∧ s.domState d.val = 2 ∧ (x.entry && s.entryBefore d.val) = false then .next (s.startAttempt d.val x)
    else .next s

/-- FENCE (R385 steps 2 and 3). -/
def execFence (d : Fin 256) (s : State) : Host.Outcome State Fault Refusal :=
  if s.domState d.val = 3 ∧ (s.down d.val).isSome ∧ s.domIdle d.val ∧ s.domDrained d.val then .next (s.setDom d.val 4)
  else .next s

/-- DRAIN_TIMEOUT (R385 step 2): 1 ms from the start of the attempt. -/
def execDrainTimeout (d : Fin 256) (s : State) : Host.Outcome State Fault Refusal :=
  match s.down d.val with
  | none => .next s
  | some x =>
    if s.domState d.val = 3 ∧ x.start + 1000000 ≤ s.now ∧ (s.domIdle d.val && s.domDrained d.val) = false then
      .next (s.attemptFail d.val x)
    else .next s

/-- POINT_OF_NO_RETURN (R385 step 5). -/
def execPointOfNoReturn (d : Fin 256) (s : State) : Host.Outcome State Fault Refusal :=
  if s.domState d.val = 4 then .next (s.setDom d.val 5) else .next s

/-- DOMAIN_OFF (R385 step 7): with a request parked the domain wakes at once, a bounce, so it does where action 0 asks for it; a lock
takes hold where it stays off. Action 2 denies what is left of the parked requests (R389). -/
def execDomainOff (d : Fin 256) (s : State) : Host.Outcome State Fault Refusal :=
  match s.down d.val with
  | none => .next s
  | some x =>
    if s.domState d.val ≠ 5 then .next s
    else
      let s := s.domGone d.val
      let parked := (!(s.parkedAt d.val).isEmpty || !(s.askedAt d.val).isEmpty) && !x.deny
      if parked || x.on then
        let s := ((s.setDom d.val 1).unshed d.val).countReg R.PWR_BOUNCE 0 (bit parked)
        let s := s.domAnswer x.cmd stOK 1
        if x.entry ∧ (match s.power.dev with | some v => v.entered | none => true) = false then
          if 4 ≤ x.attempts then .next (s.giveUp d.val { x with cmd := none })
          else .next (s.setDown d.val (some { x with cmd := none, failed := some s.now }))
        else .next (s.setDown d.val none)
      else
        let s := if x.lock then s.put F.PWR_DOM_STATUS.LOCKED d.val 1 else s
        let s := (s.setDown d.val none).domAnswer x.cmd stOK 0
        .next (if x.entry then s.entryDone d.val else s)

/-- NS64 from which a domain has seen no access. -/
def State.quietSince (s : State) (d t : Nat) : Nat := max t (s.power.access.get 0 d - 1)

/-- POWER_DOWN_RETRY (R386): 100 µs without an access; after four failed attempts the power-down ends instead. -/
def execPowerDownRetry (d : Fin 256) (s : State) : Host.Outcome State Fault Refusal :=
  match s.down d.val with
  | none => .next s
  | some x => match x.failed with
    | none => .next s
    | some t =>
      if 4 ≤ x.attempts then .next (s.giveUp d.val x)
      else if s.domState d.val = 2 ∧ s.quietSince d.val t + 100000 ≤ s.now then .next (s.startAttempt d.val x)
      else .next s

/-- QUIET_PERIOD_TIMEOUT (R386): no quiet period within 100 ms. -/
def execQuietPeriodTimeout (d : Fin 256) (s : State) : Host.Outcome State Fault Refusal :=
  match s.down d.val with
  | none => .next s
  | some x => match x.failed with
    | none => .next s
    | some t =>
      if t + 100000000 ≤ s.now ∧ s.now < s.quietSince d.val t + 100000 then .next (s.giveUp d.val x) else .next s

/-! ### Power-up (R387, R388) -/

/-- DOMAIN_POWER_UP_COMPLETE (R384, R387). -/
def execDomainPowerUpComplete (d : Fin 256) (s : State) : Host.Outcome State Fault Refusal :=
  if s.domState d.val ≠ 1 then .next s else .next (s.powerUp d.val)

/-- Wake time-out of a domain in ns (R388). -/
def State.wakeLimit (s : State) (d : Nat) : Nat :=
  if 0x80 ≤ d ∧ d < 0xC0 then 1000000 * max 1 (s.get F.PWR_WAKE_TMO.LANE_MS 0) else 1000 * max 1 (s.get F.PWR_WAKE_TMO.TMO_US 0)

/-- Refuses a request with WAKE_TIMEOUT: the event carries the domain as its SOURCE (R388). -/
def State.wakeRefuse (s : State) (d : Nat) (p : Packet) : State :=
  let s := s.targetEvent p (srcDomain d) 0xA
  if expectsResponse p.cmd.toNat then s.respondError p 0xA else s

/-- WAKE_TIMEOUT (R388). -/
def execWakeTimeout (d : Fin 256) (s : State) : Host.Outcome State Fault Refusal :=
  let w := s.power.wakeAt.get 0 d.val
  if s.domState d.val ≠ 1 ∨ w = 0 ∨ s.now < w - 1 + s.wakeLimit d.val then .next s
  else
    let l := s.parkedAt d.val
    let c := s.power.ups.get none d.val
    let s := ((s.setParked d.val [] []).setDom d.val 0).put F.PWR_DOM_STATUS.FAIL d.val 1
    let s := s.setPower { s.power with wakeAt := s.power.wakeAt.set 0 d.val 0, ups := s.power.ups.set none d.val none }
    .next ((l.foldl (fun t p => t.wakeRefuse d.val p) s).domAnswer c stTimeout 0)

/-! ### PWR_DOM_CTRL and POWER_DOMAIN (R389, R404) -/

/-- Action 0: lock and FAIL go, and the domain powers on at once, or past the point of no return as soon as it is off; `cmd` is
answered when it is on. -/
def State.domActOn (s : State) (d : Nat) (cmd : Option Taken) : State :=
  let s := ((s.put F.PWR_DOM_STATUS.LOCKED d 0).put F.PWR_DOM_STATUS.FAIL d 0).unshed d
  let wait := fun (t : State) => if cmd.isSome then t.setPower { t.power with ups := t.power.ups.set none d cmd } else t
  match s.domState d with
  | 0 => wait (s.setDom d 1)
  | 1 => wait s
  | 5 => wait (match s.down d with
    | some x => s.setDown d (some { x with on := true, lock := false, deny := false })
    | none => s)
  | _ => (match s.down d with
    | some x => (s.setDom d 2).giveUp d x
    | none => s.setDom d 2).domAnswer cmd stOK 2 |>.redecideDom d

/-- Requests parked at a domain that is locked off get DOMAIN_OFF (R389). -/
def State.denyParked (s : State) (d : Nat) : State :=
  let l := s.parkedAt d
  let s := s.setParked d [] []
  l.foldl (fun t p => t.targetRefuse p (srcDomain d) 0xB) (s.setPower { s.power with wakeAt := s.power.wakeAt.set 0 d 0 })

/-- Actions 1 and 2: the power-down of R385 is requested; action 2 locks one that is under way, too, and past its point of no return
denies what it has parked (R389). -/
def State.domActOff (s : State) (d : Nat) (lock : Bool) (cmd : Option Taken) : State :=
  if s.domState d = 0 then
    (if lock then s.put F.PWR_DOM_STATUS.LOCKED d 1 else s).domAnswer cmd stOK 0
  else match s.down d with
  | some x =>
    let s := s.setDown d (some { x with
      cmd := if cmd.isSome then cmd else x.cmd, deny := x.deny || lock, lock := x.lock || lock, on := x.on && !lock })
    if lock ∧ s.domState d = 5 then s.denyParked d else s
  | none => (s.setDown d (some { deny := lock, lock := lock, cmd := cmd })).put F.PWR_DOM_STATUS.ATTEMPTS d 0

/-- Action 3: the lock goes, one a power-down under way would leave too, and the domain stays as it is. -/
def State.domActUnlock (s : State) (d : Nat) (cmd : Option Taken) : State :=
  let s := match s.down d with
    | some x => s.setDown d (some { x with deny := false, lock := false })
    | none => s
  (s.put F.PWR_DOM_STATUS.LOCKED d 0).domAnswer cmd stOK (s.domState d)

/-- The action a write of PWR_DOM_CTRL takes; a domain software cannot switch ignores it. -/
def State.domCtrl (s : State) (d v : Nat) : State :=
  if domSwitchable d = false then s
  else match v % 4 with
  | 0 => s.domActOn d none
  | 1 => s.domActOff d false none
  | 2 => s.domActOff d true none
  | _ => s.domActUnlock d none

/-- A write of PWR_DOM_CTRL with one ACTION. -/
def State.domCtrlRow (s : State) (acc : Accessor) (v : Word) (action : Nat) : State :=
  s.ownedWrite acc 0 R.PWR_DOM_CTRL 0 (fun d t => if v.toNat % 4 = action then t.domCtrl d v.toNat else t)

/-- PWR_DOM_CTRL_ON (R389, R404). -/
def execPwrDomCtrlOn (acc : Accessor) (v : Word) (s : State) : Host.Outcome State Fault Refusal := .next (s.domCtrlRow acc v 0)

/-- PWR_DOM_CTRL_OFF (R385, R404). -/
def execPwrDomCtrlOff (acc : Accessor) (v : Word) (s : State) : Host.Outcome State Fault Refusal := .next (s.domCtrlRow acc v 1)

/-- PWR_DOM_CTRL_LOCK_OFF (R389, R404). -/
def execPwrDomCtrlLockOff (acc : Accessor) (v : Word) (s : State) : Host.Outcome State Fault Refusal :=
  .next (s.domCtrlRow acc v 2)

/-- PWR_DOM_CTRL_UNLOCK (R389, R404). -/
def execPwrDomCtrlUnlock (acc : Accessor) (v : Word) (s : State) : Host.Outcome State Fault Refusal :=
  .next (s.domCtrlRow acc v 3)

/-! ### POWER_STATE (R391) -/

/-- Domains an entry powers down, in its order. -/
def State.entryList (s : State) (target lanes : Nat) : List Nat :=
  ((List.range 0xB0).map (· + 0x10)).filter (fun d => s.domState d != 0 &&
    !(target == 2 && 0x80 ≤ d && bitAt lanes (d - 0x80)))

/-- The hibernate context: firmware's own data, free values (R391 step 4). -/
def State.writeContext (s : State) : State :=
  let w := baseContext / 16
  let s := (List.range 256).foldl (fun t k => t.ocWrite (w + k) 65535 (Config.undefinedBits 128 (t.free + k)) false) s
  { s.put F.PWR_MITTEN_STATUS.CTX_VALID 0 1 with free := s.free + 256 }

/-- Step 2 begins: dispatch is held. -/
def State.stateBegin (s : State) (target wakes lanes : Nat) (cmd : Option Taken) : State :=
  (s.put F.PWR_STATE.ENTERING 0 1).setPower { s.power with
    hold := true, dev := some { target := target, wakes := wakes, lanes := lanes, cmd := cmd, start := s.now } }

/-- Steps 2 to 4 of an entry not yet answered: with no task running the answer goes out and the entry begins; after 10 ms
dispatch resumes and the command ends with E_ABORTED. -/
def State.stateGo (s : State) (x : DevState) : State :=
  let fin := fun (t : State) st => match x.cmd with | some c => t.finish c st 0 {} | none => t
  if s.tasksRun then
    if x.start + 10000000 ≤ s.now then
      ((fin (s.put F.PWR_STATE.ENTERING 0 0) stAborted).setPower { s.power with dev := none, hold := false }).redecideAll
    else s
  else
    let s := fin s stOK
    if x.target = 1 then
      let s := ((s.parkLoops.put F.PWR_STATE.STATE 0 1).put F.PWR_STATE.ENTERING 0 0).setDev
        (some { x with answered := true, cmd := none, entered := true })
      if x.wake.isSome ∨ s.activeLevels ≠ 0 then s.dozeExit.redecideAll else s
    else
      let s := if x.target = 3 then s.writeContext else s
      let ds := s.entryList x.target x.lanes
      let s := ds.foldl (fun t d => t.setDown d (some (match t.down d with
        | some y => { y with entry := true }
        | none => { entry := true }))) s
      (s.setDev (some { x with answered := true, cmd := none, todo := ds, restore := ds })).settleEntry

/-- Source `k` has woken the device: a wake from HIBERNATE begins, with no attempt failed yet (R397). -/
def State.latchWake (s : State) (x : DevState) (k : Nat) : State :=
  (if x.target = 3 ∧ x.entered = true then s.put F.PWR_MITTEN_STATUS.RETRIES 0 0 else s).setDev (some { x with wake := some k })

/-- ENTRY_WINDOW_CLOSE (R394): 122.07 µs after it opened the state is entered; an active level-sensitive source exits. -/
def execEntryWindowClose (s : State) : Host.Outcome State Fault Refusal :=
  match s.power.dev with
  | none => .next s
  | some x => match x.window with
    | none => .next s
    | some t =>
      if x.entered ∨ s.now < t + 122070 then .next s
      else
        let s := s.put F.PWR_STATE.ENTERING 0 0
        let s := if x.target = 2 then s.put F.PWR_STATE.STATE 0 2 else s
        let x := { x with entered := true, wake := none }
        .next (match (maskBits 6 (x.wakes &&& s.activeLevels)).head? with
          | some k => s.latchWake x k
          | none => s.setDev (some x))

/-- A wake source becomes active: 0 RTC, 1 to 4 WAKE_n, 5 PCIe, 6 any other request that ends DOZE (R390 to R394, R397). Outside the
window an edge is latched. -/
def State.wakeActive (s : State) (k : Nat) : State :=
  match s.power.dev with
  | none => s
  | some x =>
    let edge := decide (1 ≤ k ∧ k ≤ 4) && bitAt (s.get F.PWR_WAKE_CFG.EDGE 0) (k - 1)
    if x.target = 1 then
      if x.entered then s.dozeExit.redecideAll else if edge then s.latchWake x k else s
    else if 6 ≤ k ∨ bitAt x.wakes k = false then s
    else if s.power.stuck then
      (if decide (1 ≤ k ∧ k ≤ 4) ∧ edge = false then s.latchWake x k else s)
    else if x.entered then (if x.wake.isNone then s.latchWake x k else s)
    else if x.window.isSome then s
    else if x.answered then s.leaveNap x k
    else if edge then s.latchWake x k else s

/-- A PCIe request waits to be taken, or none does any more (R392). -/
def State.pcieWaits (s : State) (w : Bool) : State := s.setPower { s.power with pins := bitsSet s.power.pins 4 1 (bit w) }

/-- WAKE_EVENT (R392): a source becomes active, or stops being active. -/
def execWakeEvent (k : Fin 7) (active : Bool) (s : State) : Host.Outcome State Fault Refusal :=
  let s := if 1 ≤ k.val ∧ k.val ≤ 5 then
      s.setPower { s.power with pins := bitsSet s.power.pins (k.val - 1) 1 (bit active) } else s
  if active = false ∨ (k.val = 0 ∧ s.isSet F.PWR_MITTEN_STATUS.ALARM 0 = false) then .next s
  else .next (s.wakeActive k.val)

/-- NAP_WAKE (R393). -/
def execNapWake (s : State) : Host.Outcome State Fault Refusal :=
  match s.power.dev with
  | none => .next s
  | some x => match x.wake with
    | some k => if x.entered ∧ x.target = 2 then .next (s.leaveNap x k) else .next s
    | none => .next s

/-- NAP_IDLE_POWER_DOWN (R390): a domain woken on demand in NAP has seen no access for 1 ms. -/
def execNapIdlePowerDown (d : Fin 256) (s : State) : Host.Outcome State Fault Refusal :=
  match s.power.dev with
  | none => .next s
  | some x =>
    if x.entered = false ∨ x.target ≠ 2 ∨ s.domState d.val ≠ 2 ∨ s.now < s.quietSince d.val 0 + 1000000 then .next s
    else if d.val = 0xC0 ∨ d.val = 0xC1 then .next (s.setDom d.val 0)
    else if x.restore.contains d.val ∧ (s.down d.val).isNone ∧ s.isSet F.PWR_DOM_STATUS.KEPT_ON d.val = false then
      .next (s.startAttempt d.val { entry := true })
    else .next s

/-- HIBERNATE_WAKE_FAIL (R397): the regulator or the crystal misses its bound; after the third attempt WAKE_FAIL is set. -/
def execHibernateWakeFail (s : State) : Host.Outcome State Fault Refusal :=
  match s.power.dev with
  | none => .next s
  | some x =>
    if x.entered = false ∨ x.target ≠ 3 ∨ x.wake.isNone then .next s
    else
      let n := s.get F.PWR_MITTEN_STATUS.RETRIES 0 + 1
      let s := s.put F.PWR_MITTEN_STATUS.RETRIES 0 (min 3 n)
      let s := if s.attached then s else s.put F.PWR_MITTEN_STATUS.LP 0 1
      if 3 ≤ n then
        let s := (s.put F.PWR_MITTEN_STATUS.WAKE_FAIL 0 1).setDev (some { x with wake := none })
        .next (s.setPower { s.power with stuck := true })
      else .next s

/-! ### The RTC (R396) -/

/-- RTC_ALARM (R396): `ticks` of 1/32,768 s have passed since the RTC was last brought up to date; the alarm becomes active at
the first second at which SEC − ALARM is not negative. The RTC counts no cycle of its crystal before that is stable (R405). -/
def execRtcAlarm (ticks : BitVec 47) (s : State) : Host.Outcome State Fault Refusal :=
  let n := ticks.toNat - s.power.settle
  let s := s.setPower { s.power with settle := s.power.settle - ticks.toNat }
  let t := s.reg R.PWR_RTC_SEC 0 * 32768 + s.get F.PWR_RTC_SUB.SUB 0 + n
  let s := (s.setReg R.PWR_RTC_SEC 0 (t / 32768 % 2 ^ 32)).setReg R.PWR_RTC_SUB 0 (t % 32768)
  let a := s.reg R.PWR_RTC_ALARM 0
  if a ≠ 0 ∧ s.power.alarmDone = false ∧ 0 ≤ toSigned 32 (s.reg R.PWR_RTC_SEC 0 + 2 ^ 32 - a) then
    .next (((s.setPower { s.power with alarmDone := true }).put F.PWR_MITTEN_STATUS.ALARM 0 1).wakeActive 0)
  else .next s

/-- A write of PWR_RTC_ALARM clears an active alarm. -/
def State.rtcAlarmWrite (s : State) (v : Nat) : State :=
  ((s.setPower { s.power with alarmDone := false }).setReg R.PWR_RTC_ALARM 0 v).put F.PWR_MITTEN_STATUS.ALARM 0 0

/-- PWR_RTC_ALARM_WRITE (R396). -/
def execPwrRtcAlarmWrite (acc : Accessor) (v : Word) (s : State) : Host.Outcome State Fault Refusal :=
  .next (s.ownedWrite acc 0 R.PWR_RTC_ALARM 0 (fun _ t => t.rtcAlarmWrite v.toNat))

/-- A write of PWR_RTC_SEC zeroes SUB. -/
def State.rtcSecWrite (s : State) (v : Nat) : State := (s.setReg R.PWR_RTC_SEC 0 v).setReg R.PWR_RTC_SUB 0 0

end Sys2Proof.Machine
end

