-- ==== Sys2Proof/Machine/Governor.lean ====
section
/-! DEFINITION. The governor (R398 to R403, R496): measured power and its mean, the levers, AVSBus time-outs, droop and the
thermal limits. Sensor readings are operands. -/

namespace Sys2Proof.Machine

def State.setGov (s : State) (g : Gov) : State := { s with power := { s.power with gov := g } }

/-- The budget in mW. -/
def State.budgetMw (s : State) : Nat := s.get F.GOV_BUDGET.W 0 * 1000

/-- Measurement of rail `k` (4q + section) in mW. -/
def railMw (rails : BitVec 512) (k : Nat) : Nat := bitsOf rails.toNat (32 * k) 32

/-- Power of a quadrant in mW: its four rail sensors (R398). -/
def quadMw (rails : BitVec 512) (q : Nat) : Nat := (List.range 4).foldl (fun a k => a + railMw rails (4 * q + k)) 0

/-- Takes the measurements of a period: P, its mean over 10 values, GOV_POWER, OVER and the quadrants' power (R398). -/
def State.govSample (s : State) (rails : BitVec 512) : State :=
  let p := (List.range 4).foldl (fun a q => a + quadMw rails q) 0 + 1000 * s.get F.GOV_OTHER_W.W 0
  let xs := (p :: s.power.gov.samples).take 10
  let mean := xs.foldl (· + ·) 0 / 10
  let s := s.setGov { s.power.gov with samples := xs }
  let s := (s.setReg R.GOV_POWER 0 (min mean (2 ^ 32 - 1))).put F.GOV_STATUS.OVER 0 (bit (decide (s.budgetMw < mean)))
  (List.range 4).foldl (fun t q => t.put F.GOV_Q_STATE.POWER q (min (quadMw rails q / 100) 65535)) s

/-- Quadrants a step applies to: those whose power exceeds their share, or every quadrant if none does (R400). -/
def State.overQuads (s : State) (rails : BitVec 512) : List Nat :=
  let hungry := (List.range 4).filter (fun q => decide (s.budgetMw * s.govShare q < 100 * quadMw rails q))
  if hungry.isEmpty then List.range 4 else hungry

def State.vset (s : State) (q : Nat) : Nat := s.get F.GOV_Q_STATE.VSET q
def State.vtarget (s : State) (q : Nat) : Nat := s.get F.GOV_Q_VCFG.VTARGET q
def State.vmin (s : State) (q : Nat) : Nat := s.get F.GOV_Q_VCFG.VMIN q
def State.fabdiv (s : State) (q : Nat) : Nat := s.get F.GOV_Q_STATE.FABDIV q

/-- The last setting of a rail that its regulator has acknowledged, and the later commands, oldest first. The table has no row
for an acknowledge: a command that has gone more than 100 µs, and the 2 µs that a time-out may be reported late, without an
AVS_TIMEOUT has had one (DEDUCED, log 59). -/
def State.avsOpen (s : State) (q : Nat) : Nat × List (Nat × Nat) :=
  match s.power.gov.avs.get none q with
  | none => (s.vset q, [])
  | some (acked, cmds) =>
    let done := cmds.takeWhile (fun c => decide (c.2 + 102000 < s.now))
    (match done.getLast? with | some c => c.1 | none => acked, cmds.drop done.length)

/-- Sends a rail a new setting over AVSBus (R401). -/
def State.setRail (s : State) (q v : Nat) : State :=
  let (acked, cmds) := s.avsOpen q
  (s.setGov { s.power.gov with avs := s.power.gov.avs.set none q (some (acked, cmds ++ [(v, s.now)])) }).put
    F.GOV_Q_STATE.VSET q v

/-- Lane quads that may still be shed, highest-numbered first. -/
def State.shedNext (s : State) : Option Nat :=
  ((maskBits 64 (s.pair R.GOV_LANE_SHED_LO R.GOV_LANE_SHED_HI 0)).reverse).find? (fun m =>
    !s.power.gov.shed.contains m && s.domState (domLaneQuad m) != 0 && (s.down (domLaneQuad m)).isNone)

/-- Lever 1 has room on a quadrant. -/
def State.railRoom (s : State) (q : Nat) : Bool := s.isSet F.GOV_STATUS.AVS_FAIL 0 == false && decide (s.vmin q < s.vset q)

/-- One step on the lowest-numbered lever with room (R400). -/
def State.govStep (s : State) (qs : List Nat) : State :=
  if qs.any s.railRoom then
    qs.foldl (fun t q => if t.railRoom q then t.setRail q (max (t.vmin q) (t.vset q - 10)) else t) s
  else if qs.any (fun q => decide (s.fabdiv q < 3)) then
    qs.foldl (fun t q => t.put F.GOV_Q_STATE.FABDIV q (min 3 (t.fabdiv q + 1))) s
  else match s.shedNext with
  | some m =>
    let s := s.setGov { s.power.gov with shed := m :: s.power.gov.shed }
    s.setDown (domLaneQuad m) (some { lock := true })
  | none => s

/-- Releases one step in the reverse order (R400). -/
def State.govRelease (s : State) : State :=
  match s.power.gov.shed with
  | m :: r => (s.setGov { s.power.gov with shed := r }).domActOn (domLaneQuad m) none
  | [] =>
    let floor := bit (s.isSet F.GOV_STATUS.HARD 0)
    if (List.range 4).any (fun q => decide (floor < s.fabdiv q)) then
      (List.range 4).foldl (fun t q => if floor < t.fabdiv q then t.put F.GOV_Q_STATE.FABDIV q (t.fabdiv q - 1) else t) s
    else if s.isSet F.GOV_STATUS.AVS_FAIL 0 ∨ s.isSet F.GOV_STATUS.HARD 0 then s
    else (List.range 4).foldl (fun t q =>
      if t.vset q < t.vtarget q then t.setRail q (min (t.vtarget q) (t.vset q + 10)) else t) s

/-- LEVER: the highest stepped lever in use. -/
def State.govLever (s : State) : State :=
  s.put F.GOV_STATUS.LEVER 0 (if s.power.gov.shed ≠ [] then 4
    else if (List.range 4).any (fun q => s.fabdiv q != 0) then 2
    else if (List.range 4).any (fun q => s.vset q != 0 && decide (s.vset q < s.vtarget q)) then 1 else 0)

/-- Rails the governor has not set yet go to VTARGET, and none stays above it. -/
def State.govRails (s : State) : State :=
  (List.range 4).foldl (fun t q => if t.vset q = 0 ∨ t.vtarget q < t.vset q then t.setRail q (t.vtarget q) else t) s

/-- The levers at the end of a period (R400). -/
def State.govLevers (s : State) (rails : BitVec 512) : State :=
  let s := if s.isSet F.GOV_STATUS.AVS_FAIL 0 ∨ s.isSet F.GOV_STATUS.HARD 0 then s else s.govRails
  let mean := s.get F.GOV_POWER.MW 0
  let under := if 100 * mean < 95 * s.budgetMw then s.power.gov.under + 1 else 0
  let s := s.setGov { s.power.gov with under := under }
  if s.budgetMw < mean then (s.govStep (s.overQuads rails)).govLever
  else if 10 ≤ under ∧ s.get F.GOV_STATUS.HOT 0 = 0 then s.govRelease.govLever
  else s.govLever

/-- GOVERNOR_PERIOD (R398, R400): a 10 µs period of NS64 ends, with the 16 rail measurements over it. -/
def execGovernorPeriod (rails : BitVec 512) (s : State) : Host.Outcome State Fault Refusal :=
  if s.now / 10000 ≤ s.power.gov.period then .next s
  else
    let s := (s.setGov { s.power.gov with period := s.now / 10000 }).govSample rails
    .next (if s.isSet F.GOV_CTRL.EN 0 then s.govLevers rails else s)

/-- AVS_TIMEOUT (R401): a rail's oldest open command has gone 100 µs without an acknowledge; the rail keeps its last
acknowledged setting. -/
def execAvsTimeout (q : Fin 4) (s : State) : Host.Outcome State Fault Refusal :=
  let (acked, cmds) := s.avsOpen q.val
  if cmds.all (fun c => decide (s.now < c.2 + 100000)) then .next s
  else
    let s := s.setGov { s.power.gov with avs := s.power.gov.avs.set none q.val none }
    let s := (s.put F.GOV_Q_STATE.VSET q.val acked).put F.GOV_STATUS.AVS_FAIL 0 1
    .next (s.govLever.raise { code := 0x0350, sev := 2, source := srcGovernor })

/-! ### Droop (R402) -/

/-- Quadrant of a droop sensor. -/
def droopQuad (k : Nat) : Nat := k / 4

/-- DROOP_EVENT (R402): a droop sensor's sag in mV; a sag over the limit stretches its quadrant's fabric clocks. -/
def execDroopEvent (k : Fin 16) (mv : BitVec 10) (s : State) : Host.Outcome State Fault Refusal :=
  let q := droopQuad k.val
  let g := s.power.gov
  let was := g.sags.get false k.val
  if max 1 (s.get F.GOV_DROOP_CFG.MV 0) < mv.toNat then
    if was then .next s
    else .next ((s.setGov { g with sags := g.sags.set false k.val true, stretch := g.stretch.set false q true }).countReg
      R.GOV_DROOP_CNT 0 1)
  else if was then
    .next (s.setGov { g with sags := g.sags.set false k.val false, sagEnd := g.sagEnd.set 0 q s.now })
  else .next s

/-- DROOP_RELEASE (R402): 1 µs after the quadrant's last sag ended. -/
def execDroopRelease (q : Fin 4) (s : State) : Host.Outcome State Fault Refusal :=
  let g := s.power.gov
  if g.stretch.get false q.val ∧ (List.range 16).any (fun k => droopQuad k == q.val && g.sags.get false k) = false ∧
      g.sagEnd.get 0 q.val + 1000 ≤ s.now then
    .next (s.setGov { g with stretch := g.stretch.set false q.val false })
  else .next s

/-! ### Temperature (R399, R403, R496) -/

/-- A sensor's reading in 0.125 °C, if one is held. -/
def State.temp (s : State) (t : Nat) : Option Int :=
  if s.isSet F.GOV_TEMP.VALID t then some (toSigned 12 (s.get F.GOV_TEMP.TEMP t)) else none

/-- Some sensor of a list reads at least `x`. -/
def State.anyTemp (s : State) (ts : List Nat) (x : Int) : Bool :=
  ts.any (fun t => match s.temp t with | some v => decide (x ≤ v) | none => false)

def State.tempSoft (s : State) : Int := toSigned 12 (s.get F.GOV_TEMP_LIMITS.SOFT 0)
def State.tempHard (s : State) : Int := toSigned 12 (s.get F.GOV_TEMP_LIMITS.HARD 0)

/-- Sensors of a quadrant. -/
def quadSensors (q : Nat) : List Nat := (List.range 16).map (· + 16 * q)

/-- Sets a quadrant's hot flags. -/
def State.setHot (s : State) (q : Nat) (h : Bool) : State :=
  (s.put F.GOV_Q_STATE.HOT q (bit h)).put F.GOV_STATUS.HOT 0 (bitsSet (s.get F.GOV_STATUS.HOT 0) q 1 (bit h))

/-- A reading of a sensor: its quadrant is hot from TEMP_SOFT until all its sensors are below TEMP_SOFT − 3 °C (R399). -/
def State.reading (s : State) (t : Nat) (v : BitVec 12) : State :=
  let s := (s.put F.GOV_TEMP.TEMP t v.toNat).put F.GOV_TEMP.VALID t 1
  let q := t / 16
  if s.anyTemp (quadSensors q) s.tempSoft then s.setHot q true
  else if s.anyTemp (quadSensors q) (s.tempSoft - 24) = false then s.setHot q false
  else s

/-- The action of TEMP_HARD: rails to 0.55 V, dividers at least ÷2, HARD, and ALERT_N with its vector (R58, R403, R496). Under AVS_FAIL
the setting is sent all the same (DESIGN CHOICE, log 104). -/
def State.hardOn (s : State) : State :=
  let s := (List.range 4).foldl (fun u q => (u.setRail q 550).put F.GOV_Q_STATE.FABDIV q (max 1 (u.fabdiv q))) s
  ((s.put F.GOV_STATUS.HARD 0 1).govLever).msix 0 4

/-- Its release: with EN 0 the rails return to VTARGET, under AVS_FAIL too (DESIGN CHOICE, log 104), and the dividers to ÷1; with EN 1
the levers return under R400 (R403, R496). -/
def State.hardOff (s : State) : State :=
  let s := s.put F.GOV_STATUS.HARD 0 0
  (if s.isSet F.GOV_CTRL.EN 0 then s
   else (List.range 4).foldl (fun u q => (u.setRail q (u.vtarget q)).put F.GOV_Q_STATE.FABDIV q 0) s).govLever

/-- What a reading has the thermal protection do (R399, R403, R496): TEMP_HARD acts at its limit and is released once every sensor is
below TEMP_HARD − 5 °C; at 115 °C the comparator asserts THERM_TRIP_N. -/
def State.thermal (s : State) (t : Nat) (v : BitVec 12) : State :=
  let s := s.reading t v
  let s := if s.anyTemp [t] 920 then s.setGov { s.power.gov with trip := true } else s
  if s.isSet F.GOV_STATUS.HARD 0 then (if s.anyTemp (List.range 64) (s.tempHard - 40) then s else s.hardOff)
  else if s.anyTemp (List.range 64) s.tempHard then s.hardOn else s

/-- TEMP_SOFT_CROSSING (R399). -/
def execTempSoftCrossing (t : Fin 64) (v : BitVec 12) (s : State) : Host.Outcome State Fault Refusal :=
  .next (s.thermal t.val v)

/-- TEMP_HARD (R403, R496). Under AVS_FAIL the rails are set all the same (DESIGN CHOICE, log 104). -/
def execTempHard (t : Fin 64) (v : BitVec 12) (s : State) : Host.Outcome State Fault Refusal := .next (s.thermal t.val v)

/-- TEMP_HARD_RELEASE (R403, R496): every sensor below TEMP_HARD − 5 °C. -/
def execTempHardRelease (t : Fin 64) (v : BitVec 12) (s : State) : Host.Outcome State Fault Refusal := .next (s.thermal t.val v)

/-- THERMAL_TRIP (R403): 115 °C at a sensor; the comparator asserts THERM_TRIP_N. -/
def execThermalTrip (t : Fin 64) (v : BitVec 12) (s : State) : Host.Outcome State Fault Refusal := .next (s.thermal t.val v)

/-! ### Writes of governor registers (R404) -/

/-- A write of GOV_BUDGET: 120 to 480 W, other values clamped. -/
def State.govBudgetWrite (s : State) (v : Nat) : State :=
  let w := v % 512
  let c := min 480 (max 120 w)
  let s := s.setReg R.GOV_BUDGET 0 c
  if c = w then s else s.put F.GOV_STATUS.BUDGET_CLAMP 0 1

/-- A write of GOV_SHARE: the four shares total 100. -/
def State.govShareWrite (s : State) (v : Nat) : State :=
  if bitsOf v 0 8 + bitsOf v 8 8 + bitsOf v 16 8 + bitsOf v 24 8 = 100 then s.setReg R.GOV_SHARE 0 (v % 2 ^ 32)
  else s.put F.GOV_STATUS.SHARE_REJ 0 1

/-- A write of GOV_TEMP_LIMITS. -/
def State.govLimitsWrite (s : State) (v : Nat) : State :=
  if 840 < toSigned 12 (bitsOf v 16 12) ∨ toSigned 12 (bitsOf v 16 12) ≤ toSigned 12 (bitsOf v 0 12) then
    s.put F.GOV_STATUS.LIMIT_REJ 0 1
  else s.writePlain R.GOV_TEMP_LIMITS 0 v

/-- A write of GOV_Q_VCFG: VTARGET 550 to 900, VMIN 550 to VTARGET, others clamped. -/
def State.govVcfgWrite (s : State) (q v : Nat) : State :=
  let t := min 900 (max 550 (bitsOf v 0 10))
  s.setReg R.GOV_Q_VCFG q (t + min t (max 550 (bitsOf v 16 10)) * 2 ^ 16)

/-- A write of GOV_STATUS: clearing AVS_FAIL lets lever 1 act again. -/
def State.govStatusWrite (s : State) (v : Nat) : State := s.writePlain R.GOV_STATUS 0 v

end Sys2Proof.Machine
end

