-- ==== Sys2Proof/Machine/Resets.lean ====
section
/-! DEFINITION. The device resets (R420 to R425), the wake from HIBERNATE, firmware's restore (R428), PROGRAM_N (R365),
DOM_RESET (R414) and the WARM reset of the debugger (R473). -/

namespace Sys2Proof.Machine

/-- The reset kinds of R420 by their bit in a row's survival mask. -/
def kPor : Nat := 0
def kPin : Nat := 1
def kWarm : Nat := 2
def kWatchdog : Nat := 3
def kFabric : Nat := 4
def kHibernate : Nat := 10

/-- Cause that RESET_CAUSE reports (R425). -/
def causeOf (k : Nat) : Nat := if k = 10 then 5 else k

/-- The kinds that lose error state and memory contents (R421). -/
def losesMemory (k : Nat) : Bool := k == 0 || k == 1 || k == 10

/-- A byte is kept through a reset of kind `k` that loses memory: the trace buffer, the hibernate context; POR keeps neither
(R421). -/
def byteKept (k a : Nat) : Bool :=
  k != 0 && ((decide (baseTrace ≤ a) && decide (a < baseTrace + 0x100000)) ||
    (decide (baseContext ≤ a) && decide (a < baseContext + 0x1000)))

/-- A memory group whose banks are kept through a reset of kind `k` that loses memory: the trace buffer's and the context's. -/
def groupKept (k g : Nat) : Bool := k != 0 && (g == 40 || g == 41)

/-- What a group keeps of its record where its banks keep their contents but error state is lost: the repair map (R292). Of
group 41 only the context's bank is kept. -/
def Grp.kept (x : Grp) (g : Nat) : Grp :=
  { spares := if g = 41 then x.spares.filter (fun e => e.1 == 64) else x.spares
    rowMap := if g = 41 then x.rowMap.filter (fun e => decide (262144 ≤ e.1)) else x.rowMap }

/-- NS64 starts again: the times a group has counted so far are kept. -/
def Grp.restart (x : Grp) (now : Nat) : Grp :=
  { x with lapNs := x.lapNs + (if x.lapAt = 0 then 0 else now + 1 - x.lapAt), lapAt := 1, lastRead := 0
           rangeNs := x.rangeNs + (now - x.rangeStart), rangeStart := 0, bistEnd := if x.bistEnd = 0 then 0 else 1
           shadow := none, portA := [] }

/-- Memories under a reset (R421); a new device integrity key is drawn where packaged memory is lost (R298). -/
def Store.reset (x : Store) (k now : Nat) : Store :=
  if losesMemory k then
    { bytes := x.bytes.filter (fun e => byteKept k e.1), poison := x.poison.filter (fun e => byteKept k (16 * e.1))
      damage := x.damage.filter (fun e => byteKept k (16 * e.1)), fills := x.fills + 1
      grps := (x.grps.filter (fun e => groupKept k e.1)).map (fun e => (e.1, e.2.kept e.1)) }
  else
    { x with keys := [], pcScrubAt := [], pcLapStart := [], grps := x.grps.map (fun e => (e.1, e.2.restart now)) }

/-- An entry kept through a reset takes no more events: NS64 starts again (log 62). -/
def Entry.shut (e : Entry) : Entry := if e.closed = 0 then { e with closed := 1 } else e

/-- The error path under a reset: the stages are emptied; log and collectors are kept where R421 says. -/
def Errors.reset (x : Errors) (k : Nat) : Errors :=
  if losesMemory k then {}
  else { x with stages := [], lastFwd := [], log := x.log.map Entry.shut
                colls := x.colls.map (fun e => (e.1, e.2.map Entry.shut)) }

/-- Power under a reset: pins stay as the board drives them; HBM_PWR_EN falls with POR and PIN (R488); THERM_TRIP_N is released by POR, or by PIN with every sensor below
105 °C (R403). -/
def State.powerReset (s : State) (k : Nat) : Power :=
  { pins := s.power.pins % 16, settle := if k = 0 ∨ k = 10 then 4096 else s.power.settle
    vbatGone := s.power.vbatGone, alarmDone := s.power.alarmDone, hbmPwr := s.power.hbmPwr && decide (2 ≤ k)
    gov := { sags := s.power.gov.sags
             trip := s.power.gov.trip && !(k == 0 || (k == 1 && !s.anyTemp (List.range 64) 840)) } }

/-- Trace under a reset: part of the debug domain; NS64 starts again. -/
def State.traceReset (s : State) (k : Nat) : Trace := if k = 0 then {} else { s.trace with secs := 0 }

/-- The configuration engine under a reset: where the boot flow starts (R420). PIN skips the crystal's count unless its monitor
reports STOPPED. -/
def State.cfgReset (s : State) (k : Nat) : Cfg :=
  let crystal := k == 0 || k == 10 || (k == 1 && s.isSet F.CLK_MON_STATUS.STOPPED 0)
  { phase := if crystal then .crystal else .released, strapsDue := k == 0 || k == 1 || k == 4, mode := s.cfg.mode
    gold := s.cfg.gold, cause := causeOf k }

/-- Gauntlet under a reset: fuses and key RAM are kept, and a debug challenge with the debug unlock; the clock of its age
restarts with NS64. -/
def State.secReset (s : State) (k : Nat) : Sec :=
  { fuses := s.sec.fuses, life := s.sec.life, base := s.sec.base, fw := s.sec.fw, slot := s.sec.slot
    keyRam := s.sec.keyRam, nonce := s.sec.nonce, rsp := s.sec.rsp
    challenge := if k = 0 then none else s.sec.challenge.map (fun c => (c.1, 0)) }

/-- Cores under a halt come back halted and idle (R470). -/
def State.rehalt (s : State) (halted : List Nat) : State :=
  (halted.filter (· < 256)).foldl (fun t n => t.put F.TC_STATE.HALTED n 1) s

/-- A load in progress ends with ABORTED (R362, R370). -/
def State.abortLoad (s : State) : State :=
  match s.cfg.load with
  | none => s
  | some l => if s.cfg.phase = .dark then s else s.failRecord l 0x0C false l.seen.length

/-- PWR_WAKE_CFG and PWR_MITTEN_STATUS lose their values on POR (R404, R421). -/
def State.mittenReset (s : State) (k : Nat) : State :=
  if k = 0 then (s.setReg R.PWR_WAKE_CFG 0 0).setReg R.PWR_MITTEN_STATUS 0 0 else s

/-- Packaged memory's own status: where a reset keeps its lines and the device integrity key, the stacks stay trained and
initialised and the key in place (R312). -/
def State.hbmKept (t s : State) (k : Nat) : State :=
  if losesMemory k then t
  else
    let t := (t.setReg R.HBM_STATUS 0 (s.reg R.HBM_STATUS 0)).setReg R.CIPH_STATUS 0 (s.reg R.CIPH_STATUS 0)
    (List.range 64).foldl (fun u pc => u.setReg R.HBM_PC_STATUS pc (s.reg R.HBM_PC_STATUS pc)) t

/-- What a device reset of kind `k` does (R420, R421, R424): requests in flight, sessions, pools and lane state go. -/
def State.resetTo (s : State) (k : Nat) : State :=
  let halted := if k = 0 then [] else (List.range 258).filter s.agentHalted
  let s := s.abortLoad
  let t := ((s.resetRegs k (fun _ _ => true)).mittenReset k).hbmKept s k
  let t := (t.put F.CFG_SCRUB_STATUS.REPAIRING 0 0).put F.CFG_SCRUB_STATUS.PAUSED 0 0
  ({ pending := s.pending, regs := t.regs, store := s.store.reset k s.now, err := s.err.reset k, out := s.out
     power := s.powerReset k, trace := s.traceReset k, dbg := if k = 0 then {} else { s.dbg with key := none }
     cfg := s.cfgReset k, sec := s.secReset k, upd := { committed := s.upd.committed }, free := s.free : State }).rehalt halted

/-- A device reset: Gauntlet reads the fuses where the crystal's count is skipped (R367 step 2). -/
def State.deviceReset (s : State) (k : Nat) : State :=
  let s := s.resetTo k
  if s.cfg.phase = .released then s.bootRead else s

/-- Rank of a device reset: a smaller number is wider (R422). -/
def resetRank (k : Nat) : Nat := if k = 0 then 0 else if k = 10 then 0 else if k = 1 then 1 else if k = 4 then 2 else 3

/-- Kind of the reset whose boot flow runs. -/
def State.bootKind (s : State) : Nat := if s.cfg.cause = 5 then 10 else s.cfg.cause

/-- A boot flow is in progress. -/
def State.booting (s : State) : Bool := s.cfg.phase != .started && s.cfg.phase != .dark

/-- A device reset of kind `k` arrives: during a boot flow a narrower one is absorbed, but PROGRAM_N restarts that boot
(R422). -/
def State.takeReset (s : State) (k : Nat) : State :=
  if s.booting ∧ resetRank s.bootKind < resetRank k then (if k = kFabric then s.deviceReset s.bootKind else s)
  else s.deviceReset k

/-- A low pulse of `ns` on RESET_N or PROGRAM_N acts: from 1 µs, or between 100 ns and 1 µs if recognised (R365, R420). -/
def pulseActs (ns : Nat) (seen : Bool) : Bool := decide (1000 ≤ ns) || (decide (100 ≤ ns) && seen)

/-- The backed part of Mitten has lost its supply: the RTC loses its values (R395, R404); VBAT_LOSS has emptied the key RAM. -/
def State.rtcLost (s : State) : State :=
  ((s.setReg R.PWR_RTC_SEC 0 0).setReg R.PWR_RTC_SUB 0 0).setReg R.PWR_RTC_ALARM 0 0

/-- POR (R420). VAUX may have been absent before it: with VBAT gone the RTC was then lost, a free choice (R395, log 116). -/
def execPor (s : State) : Host.Outcome State Fault Refusal :=
  let s := if s.power.vbatGone then
      let (k, u) := s.draw
      if Config.vauxAbsent k then u.rtcLost else u
    else s
  .next (s.deviceReset kPor)

/-- PIN_RESET (R420): RESET_N was low for `ns`; `seen`: a pulse of 100 ns to 1 µs was recognised. -/
def execPinReset (ns : BitVec 32) (seen : Bool) (s : State) : Host.Outcome State Fault Refusal :=
  .next (if pulseActs ns.toNat seen then s.takeReset kPin else s)

/-- PROGRAM_N_LOW (R365): a FABRIC reset. -/
def execProgramNLow (ns : BitVec 32) (seen : Bool) (s : State) : Host.Outcome State Fault Refusal :=
  .next (if pulseActs ns.toNat seen then s.takeReset kFabric else s)

/-- A command that changes flash, fuses or key slots is in progress (R423). -/
def State.flashBusy (s : State) : Bool := s.mbx.started.any (fun t => [0x0601, 0x0602, 0x0B01, 0x0B02, 0x0B04].contains t.op)

/-- Firmware begins the WARM reset that is due, unless such a command is in progress (R423). -/
def State.warmWhenFree (s : State) : State :=
  if s.upd.warmDue ∧ s.flashBusy = false then ({ s with upd := { s.upd with warmDue := false } } : State).takeReset kWarm else s

/-- Firmware has a WARM reset to begin: at once, or deferred (R423). -/
def State.warmAsked (s : State) : State := { s with upd := { s.upd with warmDue := true } }.warmWhenFree

/-- WARM_RESET (R420): firmware begins a WARM reset once no command that changes flash, fuses or key slots is in progress. -/
def execWarmReset (s : State) : Host.Outcome State Fault Refusal := .next s.warmAsked

/-- Firmware runs. -/
def State.fwRuns (s : State) : Bool := [1, 2, 4].contains (s.get F.DEV_FW_STATE.STATE 0)

/-- WATCHDOG_RESET (R420): the watchdog is frozen while Chamois is halted, and has its grace after RESUME (R471). -/
def execWatchdogReset (s : State) : Host.Outcome State Fault Refusal :=
  .next (if s.fwRuns ∧ s.agentHalted 256 = false ∧ s.mbx.fwWait ≤ s.now then s.takeReset kWatchdog else s)

/-- HIBERNATE_WAKE (R393): the regulator returns to normal mode and the boot flow follows. -/
def execHibernateWake (s : State) : Host.Outcome State Fault Refusal :=
  match s.power.dev with
  | none => .next s
  | some x => match x.wake with
    | none => .next s
    | some k =>
      if x.entered ∧ x.target = 3 then
        .next (((s.put F.PWR_MITTEN_STATUS.LP 0 0).put F.PWR_MITTEN_STATUS.LAST_WAKE 0 (k + 1)).deviceReset kHibernate)
      else .next s

/-- Firmware reads the hibernate context and checks its word code (R279, R428 step 7). -/
def State.readContext (s : State) : State := (List.range 256).foldl (fun t k => t.settleWord (baseContext / 16 + k)) s

/-- FIRMWARE_RESTORE (R398, R425, R428): packaged memory has trained; after POR, PIN and HIBERNATE the stacks' fill is awaited too. -/
def execFirmwareRestore (s : State) : Host.Outcome State Fault Refusal :=
  if s.cfg.phase ≠ .started ∨ s.get F.DEV_FW_STATE.STATE 0 ≠ 1 ∨ s.get F.HBM_STATUS.TRAINED 0 ≠ 3 ∨
      (losesMemory s.bootKind = true ∧ s.get F.HBM_STATUS.INIT_DONE 0 ≠ 3) then .next s
  else
    let s := s.put F.GOV_CTRL.EN 0 1
    let s := if s.bootKind = kHibernate then s.readContext else s
    let s := s.raiseFw { code := 0x0390, sev := 0, source := srcFirmware, detail := s.cfg.cause }
    let s := (List.range 8).foldl (fun t b => t.put F.MBX_STATUS.FW_READY b 1) s
    .next (s.put F.DEV_FW_STATE.STATE 0 2)

/-- DOM_RESET (R414): a write of CLK_MUX_CTRL with DOM_RESET; a root mux's domain reset is a WARM reset (R412). -/
def execDomReset (acc : Accessor) (v : Word) (s : State) : Host.Outcome State Fault Refusal :=
  .next (s.ownedWrite acc 0 R.CLK_MUX_CTRL 0 (fun m t =>
    if bitAt v.toNat 8 = false then t
    else if 45 ≤ m ∧ muxAllows m (v.toNat % 16) = true then (t.muxDomReset m v.toNat).takeReset kWarm
    else t.muxDomReset m v.toNat))

/-- A write of DBG_WARM_KEY by the debugger (R473): 0xA5A5, then within 1 µs 1, at level 2. -/
def State.warmKey (s : State) (v : Nat) : State :=
  match s.dbg.key with
  | none => { s with dbg := { s.dbg with key := if v = 0xA5A5 then some s.now else none } }
  | some t =>
    let s := { s with dbg := { s.dbg with key := none } }
    if v = 1 ∧ s.now ≤ t + 1000 ∧ s.dbgLevel = 2 then s.takeReset kWarm else s

/-- DBG_WARM_KEY (R473): a second write from another accessor cancels the pair. -/
def execDbgWarmKey (acc : Accessor) (v : Word) (s : State) : Host.Outcome State Fault Refusal :=
  if acc = .debugger then .next (s.ownedWrite acc 0 R.DBG_WARM_KEY 0 (fun _ t => t.warmKey v.toNat))
  else .next ({ s with dbg := { s.dbg with key := none } }.ownedWrite acc 0 R.DBG_WARM_KEY 0 (fun _ t => t))

end Sys2Proof.Machine
end

