-- ==== Sys2Proof/Machine/CmdCheck.lean ====
section
/-! DEFINITION. The command catalogue of the mailboxes (R57): opcodes, versions (R53), mailboxes (R56), lengths (R48), field
ranges (R495) and target objects (R45); and how firmware takes a request (R42, R44, R50 to R55). -/

namespace Sys2Proof.Machine

/-! ### The catalogue -/

/-- One command of R57: opcode, payload bytes its fields need, the first version that has it, and the mailboxes it is allowed
on as a mask. -/
structure CmdRow where
  op : Nat
  len : Nat
  ver : Nat
  boxes : Nat
  deriving DecidableEq, Repr

def opInfoDevice : Nat := 0x0102
def opInfoSensors : Nat := 0x0103
def opBye : Nat := 0x0104
def opBudget : Nat := 0x0201
def opPowerState : Nat := 0x0202
def opPowerDomain : Nat := 0x0203
def opThermal : Nat := 0x0204
def opPowerRead : Nat := 0x0205
def opTimeOwner : Nat := 0x0301
def opTimeGet : Nat := 0x0302
def opTimeStep : Nat := 0x0303
def opAdjRate : Nat := 0x0304
def opRearmStep : Nat := 0x0305
def opSlotCfg : Nat := 0x0306
def opProfile : Nat := 0x0307
def opLaneConfig : Nat := 0x0401
def opLaneStatus : Nat := 0x0402
def opEyeScan : Nat := 0x0403
def opChlNegotiate : Nat := 0x0404
def opFhTable : Nat := 0x0405
def opLoadOverlay : Nat := 0x0501
def opConfigStatus : Nat := 0x0503
def opConfigLock : Nat := 0x0504
def opKeyLoad : Nat := 0x0601
def opKeyClear : Nat := 0x0602
def opKeyRegion : Nat := 0x0603
def opKeyStatus : Nat := 0x0604
def opCqCfg : Nat := 0x0701
def opTick : Nat := 0x0702
def opStats : Nat := 0x0703
def opFlush : Nat := 0x0704
def opErrorRead : Nat := 0x0801
def opErrorClear : Nat := 0x0802
def opErrorConfig : Nat := 0x0803
def opErrorInject : Nat := 0x0804
def opReport : Nat := 0x0901
def opCerts : Nat := 0x0902
def opChallenge : Nat := 0x0A01
def opUnlock : Nat := 0x0A02
def opTraceCfg : Nat := 0x0A03
def opDebugLock : Nat := 0x0A04
def opUpdStatus : Nat := 0x0B03

/-- The catalogue (R53, R56, R57). -/
def cmdRows : List CmdRow :=
  [⟨opHello, 2, 1, 0xFF⟩, ⟨opInfoDevice, 0, 1, 0xFF⟩, ⟨opInfoSensors, 1, 1, 0xFF⟩, ⟨opBye, 0, 1, 0xFF⟩,
   ⟨opBudget, 6, 1, 0x2F⟩, ⟨opPowerState, 16, 1, 0x2F⟩, ⟨opPowerDomain, 3, 1, 0x2F⟩, ⟨opThermal, 6, 1, 0x2F⟩,
   ⟨opPowerRead, 0, 1, 0xFF⟩,
   ⟨opTimeOwner, 1, 1, 0x1F⟩, ⟨opTimeGet, 0, 1, 0xFF⟩, ⟨opTimeStep, 12, 1, 0x1F⟩, ⟨opAdjRate, 4, 1, 0x1F⟩,
   ⟨opRearmStep, 0, 1, 0x1F⟩, ⟨opSlotCfg, 13, 2, 0x1F⟩, ⟨opProfile, 16, 1, 0x1F⟩] ++
  [⟨opLaneConfig, 11, 1, 0x1F⟩, ⟨opLaneStatus, 2, 1, 0x1F⟩, ⟨opEyeScan, 16, 1, 0x1F⟩, ⟨opChlNegotiate, 2, 2, 0x1F⟩,
   ⟨opFhTable, 16, 1, 0x1F⟩,
   ⟨opLoadOverlay, 12, 1, 0x1F⟩, ⟨opUnload, 8, 1, 0x1F⟩, ⟨opConfigStatus, 0, 1, 0x1F⟩, ⟨opConfigLock, 0, 1, 0x1F⟩,
   ⟨opReadback, 16, 1, 0x1F⟩,
   ⟨opKeyLoad, 16, 1, 0x1F⟩, ⟨opKeyClear, 1, 1, 0x1F⟩, ⟨opKeyRegion, 32, 2, 0x1F⟩, ⟨opKeyStatus, 0, 1, 0x1F⟩] ++
  [⟨opCqCfg, 19, 1, 0x5F⟩, ⟨opTick, 8, 1, 0x5F⟩, ⟨opStats, 1, 1, 0x5F⟩, ⟨opFlush, 4, 1, 0x5F⟩,
   ⟨opErrorRead, 16, 1, 0xFF⟩, ⟨opErrorClear, 2, 1, 0xFF⟩, ⟨opErrorConfig, 5, 1, 0xFF⟩, ⟨opErrorInject, 7, 1, 0x8F⟩,
   ⟨opReport, 40, 2, 0xFF⟩, ⟨opCerts, 8, 3, 0xFF⟩,
   ⟨opChallenge, 0, 1, 0x8F⟩, ⟨opUnlock, 16, 1, 0x8F⟩, ⟨opTraceCfg, 22, 1, 0x8F⟩, ⟨opDebugLock, 0, 1, 0x8F⟩,
   ⟨opStage, 20, 1, 0x2F⟩, ⟨opCommit, 0, 1, 0x2F⟩, ⟨opUpdStatus, 0, 1, 0x2F⟩, ⟨opActivate, 1, 1, 0x2F⟩]

/-- A command of the catalogue. -/
def cmdRow (op : Nat) : Option CmdRow := cmdRows.find? (fun r => r.op == op)

/-! ### Fields (R495) -/

/-- Offset in the 64-byte message of the first failing field; checks are (payload offset, passed), in catalogue order. -/
def firstBad : List (Nat × Bool) → Option Nat
  | [] => none
  | (o, ok) :: r => if ok then firstBad r else some (8 + o)

/-- A value lies from `lo` to `hi`. -/
def within (lo hi v : Nat) : Bool := decide (lo ≤ v) && decide (v ≤ hi)

/-- A value is one of a list. -/
def oneOf (l : List Nat) (v : Nat) : Bool := l.contains v

/-- POWER_THERMAL_SET's fields in 0.125 °C. -/
def tempField (m : Msg) (o : Nat) : Int := toSigned 16 (fld m o 16)

/-- Rates of R96: NRZ up to 28.125 Gbit/s, PAM4 above; NRZ at 32 Gbit/s exists for PCIe alone. -/
def rateCoded (kbps pam4 : Nat) : Bool :=
  if pam4 = 0 then decide (kbps ≤ 28125000) || kbps == 32000000 else decide (28125000 < kbps)

/-- Lanes bind `b` allows (R100). -/
def bindLanes (b first count : Nat) : Bool :=
  match b with
  | 0 => true
  | 1 => (oneOf [1, 2, 4] count && first % 4 == 0) || (count == 8 && first % 8 == 0)
  | 2 => (oneOf [1, 2, 4] count && first % 4 == 0) || (count == 8 && first % 8 == 0)
  | 3 => count == 1
  | 4 => oneOf [1, 2, 4] count && first / 4 == (first + count - 1) / 4
  | _ => oneOf [1, 2, 4, 8, 16] count && first == 128

/-- The engine field suits bind `b` (R100). -/
def bindEngine (b first eng : Nat) : Bool :=
  match b with
  | 2 => decide (eng < 16) && eng / 4 == first / 64
  | 3 => decide (eng < 8) && eng / 2 == first / 64
  | 4 => decide (eng < 16) && eng / 4 == first / 64
  | _ => true

/-- Every quad the lanes lie in keeps one rate (R96): its other enabled lanes run at the rate asked for. -/
def State.quadRate (s : State) (first count kbps pam4 : Nat) : Bool :=
  (List.range 256).all (fun l =>
    decide (l / 4 < first / 4) || decide ((first + count - 1) / 4 < l / 4) || (decide (first ≤ l) && decide (l < first + count)) ||
      !s.isSet F.LANE_CTRL.EN l || (s.get F.LANE_RATE.KBPS l == kbps && s.get F.LANE_CTRL.PAM4 l == pam4))

/-- LANE_CONFIG's checks (R96, R100). -/
def State.laneCheck (s : State) (m : Msg) : List (Nat × Bool) :=
  let first := fld m 0 16; let count := fld m 2 16; let rate := fld m 4 32; let pam4 := fld m 8 8
  let b := fld m 9 8; let eng := fld m 10 8
  let rated := decide (b ≠ 0) && decide (b ≠ 4)
  [(0, decide (first < 256)), (2, decide (0 < count) && decide (first + count ≤ 256)),
   (4, !rated || within 1250000 112500000 rate), (8, decide (pam4 ≤ 1) && (!rated || rateCoded rate pam4)),
   (9, decide (b ≤ 5) && bindLanes b first count && (b != 4 || (rate == 0 && pam4 == 0)) &&
     (!rated || b == 5 || rate != 32000000 || pam4 != 0) && (b == 0 || s.quadRate first count rate pam4)),
   (10, bindEngine b first eng)]

/-- A task completion queue's base and size (R169). -/
def queuePlace (a : Nat) : Bool :=
  a % 64 == 0 && decide (a < 2 ^ 48) && (match decodeAddr a with | .hbm _ => true | .scratch _ => true | _ => false)

/-- The field checks of a command (R57, R495). -/
def State.fieldChecks (s : State) (op : Nat) (m : Msg) : List (Nat × Bool) :=
  if op = opInfoSensors then [(0, decide (fld m 0 8 < 16))]
  else if op = opBudget then
    [(0, within 120 480 (fld m 0 16)), (5, fld m 2 8 + fld m 3 8 + fld m 4 8 + fld m 5 8 == 100)]
  else if op = opPowerState then [(0, within 1 3 (fld m 0 8)), (1, decide (fld m 1 8 < 64))]
  else if op = opPowerDomain then [(0, domListed (fld m 0 16)), (2, decide (fld m 2 8 ≤ 3))]
  else if op = opThermal then
    [(0, decide (-320 ≤ tempField m 0)), (2, decide (tempField m 2 ≤ 840) && decide (tempField m 0 < tempField m 2)),
     (4, within 1 1024 (fld m 4 16))]
  else if op = opTimeOwner then [(0, decide (fld m 0 8 ≤ 1))]
  else if op = opTimeStep then
    [(0, decide (-(2 ^ 47) ≤ toSigned 64 (fld m 0 64)) && decide (toSigned 64 (fld m 0 64) < 2 ^ 47)),
     (8, decide ((toSigned 32 (fld m 8 32)).natAbs < nsPerSec))]
  else if op = opAdjRate then [(0, decide ((toSigned 32 (fld m 0 32)).natAbs ≤ 1000 * 2 ^ 16))]
  else if op = opSlotCfg then
    [(0, decide (fld m 0 8 < 8)), (1, decide (fld m 1 8 ≤ 1)),
     (4, within 62500 10000000 (fld m 4 32) && 10000000 % fld m 4 32 == 0), (8, decide (fld m 8 32 ≤ 9999999)),
     (12, decide (fld m 12 8 ≤ 1))]
  else if op = opProfile then [(0, within 1 2 (fld m 0 8))]
  else if op = opLaneConfig then s.laneCheck m
  else if op = opLaneStatus then [(0, decide (fld m 0 16 < 256))]
  else if op = opEyeScan then [(0, decide (fld m 0 16 < 256))]
  else if op = opChlNegotiate then [(0, decide (fld m 0 8 < 16)), (1, within 1 15 (fld m 1 8))]
  else if op = opFhTable then [(0, decide (fld m 0 8 < 16))]
  else if op = opReadback then
    [(0, decide (fld m 0 8 < 64)), (1, decide (fld m 1 8 < 16)), (2, decide (fld m 2 8 ≤ 1))]
  else if op = opKeyLoad then [(0, within 1 63 (fld m 0 8))]
  else if op = opKeyClear then [(0, within 1 63 (fld m 0 8))]
  else if op = opKeyRegion then
    [(0, decide (fld m 0 8 < 16)), (8, fld m 8 64 % 4096 == 0 && decide (fld m 8 64 < 2 ^ 48)),
     (16, fld m 16 64 % 4096 == 0 && decide (fld m 8 64 ≤ fld m 16 64) && decide (fld m 16 64 ≤ 2 ^ 35))]
  else if op = opCqCfg then
    [(0, decide (fld m 0 8 < 4)), (1, decide (fld m 1 8 < 16)), (8, queuePlace (fld m 8 64)),
     (16, oneOf [16, 32, 64, 128, 256, 512, 1024, 2048, 4096] (fld m 16 16)), (18, decide (fld m 18 8 < 64))]
  else if op = opTick then [(0, decide (fld m 0 8 < 4)), (4, within 250 16000 (fld m 4 32))]
  else if op = opStats then [(0, decide (fld m 0 8 < 4))]
  else if op = opFlush then [(0, decide (fld m 0 8 < 4))]
  else if op = opErrorConfig then [(0, decide (fld m 0 32 < 2 ^ 24)), (4, decide (fld m 4 8 < 16))]
  else if op = opErrorInject then [(0, sourceAssigned (fld m 0 32)), (4, eventCode (fld m 4 16)), (6, decide (fld m 6 8 < 4))]
  else if op = opUnlock then [(0, decide (fld m 0 8 < 8))]
  else if op = opTraceCfg then
    [(0, decide (fld m 0 8 ≤ 2)), (8, fld m 0 8 != 1 || (fld m 8 64 % 64 == 0 && decide (fld m 8 64 < 2 ^ 35))),
     (16, fld m 0 8 != 1 || within 12 26 (fld m 16 32)), (20, fld m 0 8 != 2 || decide (fld m 20 16 < 256))]
  else if op = opStage then [(0, decide (fld m 0 8 ≤ 2))]
  else []

/-! ### Target objects (R45) -/

/-- Key of an object: its kind and number. Kinds: 0 lane, 1 MAC, 2 fronthaul engine, 3 CPRI framer, 4 chassis link engine,
5 region, 6 key slot, 7 cipher region, 8 slot timer, 9 dispatcher, 10 power domain, 11 update stager. -/
def objKey (kind i : Nat) : Nat := kind * 2 ^ 16 + i

/-- Objects a LANE_CONFIG targets: its lanes and what it binds them to. -/
def laneObjects (m : Msg) : List Nat :=
  let first := fld m 0 16
  (List.range (fld m 2 16)).map (fun k => objKey 0 (first + k)) ++ (match fld m 9 8 with
    | 1 => [objKey 1 (first / 4)]
    | 2 => [objKey 1 (first / 4), objKey 2 (fld m 10 8)]
    | 3 => [objKey 3 (fld m 10 8)]
    | 4 => [objKey 4 (fld m 10 8)]
    | _ => [])

/-- Objects a command targets, as its fields name them. -/
def cmdObjects (op : Nat) (m : Msg) : List Nat :=
  if op = opPowerDomain then [objKey 10 (fld m 0 16)]
  else if op = opSlotCfg then [objKey 8 (fld m 0 8)]
  else if op = opProfile then (maskBits 64 (fld m 8 64)).map (objKey 1)
  else if op = opLaneConfig then laneObjects m
  else if op = opLaneStatus then [objKey 0 (fld m 0 16)]
  else if op = opEyeScan then [objKey 0 (fld m 0 16)]
  else if op = opChlNegotiate then [objKey 4 (fld m 0 8)]
  else if op = opFhTable then [objKey 2 (fld m 0 8)]
  else if op = opUnload then (maskBits 64 (fld m 0 64)).map (objKey 5)
  else if op = opReadback then [objKey 5 (fld m 0 8)]
  else if op = opKeyLoad then [objKey 6 (fld m 0 8)]
  else if op = opKeyClear then [objKey 6 (fld m 0 8)]
  else if op = opKeyRegion then [objKey 7 (fld m 0 8)]
  else if op = opCqCfg then [objKey 9 (fld m 0 8)]
  else if op = opTick then [objKey 9 (fld m 0 8)]
  else if op = opStats then [objKey 9 (fld m 0 8)]
  else if op = opFlush then [objKey 9 (fld m 0 8)]
  else if op = opStage then [objKey 11 0]
  else if op = opCommit then [objKey 11 0]
  else if op = opActivate then [objKey 11 0]
  else []

/-- Regions held by overlays that commands are loading: those a running load's header names, and those that start. -/
def State.loadingRegions (s : State) : List Nat :=
  (match s.cfg.load with
    | some l => if l.cmd.isSome ∧ l.hdr.isEmpty = false then maskBits 64 (hdrMask l.hdr) else []
    | none => []) ++
    (s.cfg.starting.filter (fun e => e.cmd.isSome)).flatMap (fun e => maskBits 64 e.mask)

/-- A command's target is held by a command in progress. -/
def State.busyTarget (s : State) (op : Nat) (m : Msg) : Bool :=
  let held := s.mbx.started.flatMap (fun t => cmdObjects t.op t.msg) ++ s.loadingRegions.map (objKey 5)
  (cmdObjects op m).any held.contains

/-! ### Taking a request (R42 to R44, R50 to R55) -/

/-- Why a request ends before it starts: status and detail. HELLO's own checks are made when it is answered (R52). -/
def State.requestCheck (s : State) (b : Fin 8) (op : Nat) (m : Msg) : Option (Nat × Nat) :=
  let v := s.get F.MBX_STATUS.VERSION b.val
  if op = opHello then none
  else if s.isSet F.MBX_STATUS.SESSION b.val = false then some (stNoSession, 0)
  else if m.ver.toNat ≠ v then some (stVersion, 0)
  else match cmdRow op with
    | none => some (stOpcode, 0)
    | some r =>
      if v < r.ver then some (stOpcode, 0)
      else if bitAt r.boxes b.val = false then some (stDenied, 0)
      else if m.len.toNat < r.len ∨ 56 < m.len.toNat then some (stLength, 0)
      else match firstBad (s.fieldChecks op m) with
        | some d => some (stParam, d)
        | none => if s.busyTarget op m then some (stBusy, 0) else none

/-- A HELLO of mailbox `b` has been taken and not answered: later requests wait (R52). -/
def State.helloOpen (s : State) (b : Fin 8) : Bool :=
  s.mbx.started.any (fun t => t.box == b && t.op == opHello && !t.discard)

/-- Firmware runs mailboxes: not halted by the debugger, not in HIBERNATE (R44, R466, R472). -/
def State.fwServes (s : State) : Bool :=
  !s.agentHalted 256 && !s.dark

/-- Firmware may take a request of mailbox `b` (R43, R44). -/
def State.mayTake (s : State) (b : Fin 8) : Bool :=
  s.isSet F.MBX_STATUS.FW_READY b.val && decide (0 < s.reqCount b.val) && decide (s.rspCount b.val < 32) &&
    !s.mbx.rspWait.any (fun r => r.box == b) && !s.helloOpen b

/-- The mailbox served next, in turn after the last one. -/
def State.nextBox (s : State) : Option (Fin 8) :=
  ((List.range 8).map (fun k => Fin.ofNat 8 (s.mbx.turn + 1 + k))).find? s.mayTake

/-- The request in slot `idx` of mailbox `b`: its opcode and message. -/
def State.slotRequest (s : State) (b idx : Nat) : Nat × Msg :=
  let w := fun k => s.reg R.MBX_REQ_RING (slotWord b idx k)
  (bitsOf (w 0) 0 16,
   { tag := BitVec.ofNat 16 (w 0 / 2 ^ 16), ver := BitVec.ofNat 8 (w 1 / 2 ^ 8), len := BitVec.ofNat 8 (w 1)
     payload := BitVec.ofNat 448 ((List.range 14).foldl (fun a k => a + w (k + 2) * 2 ^ (32 * k)) 0) })

/-- CFG_BUSY of the lanes of a LANE_CONFIG (R100). -/
def State.laneBusy (s : State) (m : Msg) (v : Nat) : State :=
  (List.range (fld m 2 16)).foldl (fun t k => t.put F.LANE_STATUS.CFG_BUSY (fld m 0 16 + k) v) s

/-- Starts a command; while firmware applies a LANE_CONFIG its lanes are busy, and while it runs an update command it is updating
(R61; DEDUCED, log 100). -/
def State.startCmd (s : State) (b : Fin 8) (op : Nat) (m : Msg) : State :=
  let s := if op = opLaneConfig then s.laneBusy m 1 else if op = opStage ∨ op = opCommit ∨ op = opActivate
    then s.put F.DEV_FW_STATE.STATE 0 4 else s
  ({ s with mbx := { s.mbx with taken := s.mbx.taken + 1, started := s.mbx.started ++
    [{ id := s.mbx.taken, box := b, op := op, msg := m, discard := false }] } } : State).countInFlight b

/-- Takes the next request of mailbox `b`: it starts, or is answered at once. -/
def State.takeFrom (s : State) (b : Fin 8) : State :=
  let idx := s.get F.MBX_REQ_CONS.INDEX b.val
  let (op, m) := s.slotRequest b.val idx
  let s := (s.put F.MBX_REQ_CONS.INDEX b.val (idx + 1))
  let s := { s with mbx := { s.mbx with turn := b.val } }
  match s.requestCheck b op m with
  | some (st, d) => s.answer b op m (s.get F.MBX_STATUS.VERSION b.val) st d {}
  | none => s.startCmd b op m

/-- MAILBOX_TAKE_REQUEST (R42, R44). -/
def execMailboxTakeRequest (s : State) : Host.Outcome State Fault Refusal :=
  if s.fwServes then
    match s.nextBox with
    | some b => .next (s.takeFrom b)
    | none => .next s
  else .next s

end Sys2Proof.Machine
end

