-- ==== Sys2Proof/Machine/CmdLink.lean ====
section
/-! DEFINITION. The mailbox commands LANE, CONFIG and MEMKEY (R57, R81, R96 to R100, R110, R124, R125, R301, R302, R370, R376,
R381). -/

namespace Sys2Proof.Machine

/-! ### LANE -/

/-- PCIe controller 0 uses the lane at its configured width (R100, R117): PCIE_CFG.WIDTH, under boot mode 010 too, in which the
hardware trains 16 lanes while the register keeps its reset value (DESIGN CHOICE, log 106). -/
def State.pcieLane (s : State) (l : Nat) : Bool := decide (l < pcieLanes (s.get F.PCIE_CFG.WIDTH 0))

/-- A lane leaves its engine, which drops the frames in flight: a MAC counts them with its link drops, the only drop counter it
has (R100; DEDUCED, log 99). -/
def State.laneUnbind (s : State) (l inflight : Nat) : State :=
  let m := s.laneMac l
  let lost := if (s.get F.LANE_CTRL.BIND l = 1 ∨ s.get F.LANE_CTRL.BIND l = 2) ∧ s.isSet F.MAC_STATUS.LINK m = true
    then min inflight ((s.ringProd .macTx m + 65536 - s.ringCons .macTx m) % 65536) else 0
  let s := if 2 ≤ s.laneState l then s.laneDown l inflight else s
  let s := s.macCount m 9 lost
  let s := ((s.put F.LANE_STATUS.STATE l 0).squelch l 1).put F.LANE_CTRL.EN l 0
  ((s.put F.LANE_CTRL.BIND l 0).put F.LANE_CTRL.ENGINE l 0).stopQuadLoop (l / 4) false

/-- MACs that use a lane of the range lose it (R100). -/
def State.macsUnbind (s : State) (first count : Nat) : State :=
  { s with links := { s.links with macLanes := s.links.macLanes.filter (fun e =>
      decide (4 * e.1 + e.2 ≤ first) || decide (first + count ≤ 4 * e.1)) } }

/-- Binds a lane; its time-stamp delays take the calibration table's values for the rate, free values (R81). -/
def State.laneBind (s : State) (l rate pam4 b eng : Nat) : State :=
  let s := ((s.laneRun l rate (pam4 != 0)).setQuadLoop l rate (pam4 != 0)).put F.LANE_CTRL.BIND l b
  let s := ((s.put F.LANE_CTRL.ENGINE l eng).put F.LANE_CTRL.EN l 1).put F.LANE_STATUS.STATE l 1
  let s := (s.setReg R.LANE_TS_TX_DELAY l (Config.undefinedBits 16 s.free).toNat).setReg R.LANE_TS_RX_DELAY l
    (Config.undefinedBits 16 (s.free + 1)).toNat
  { s with free := s.free + 2 }

/-- What the engine learns of its new lanes: a MAC its lane count (R103), a chassis link its removed versions back (R123), and
with CHL_CFG.EN set bring-up starts (R125). -/
def State.engineBind (s : State) (first count b eng : Nat) : State :=
  match b with
  | 1 => { s with links := { s.links with macLanes := s.links.macLanes.set 0 (first / 4) count } }.macCheck (first / 4)
  | 2 => { s with links := { s.links with macLanes := s.links.macLanes.set 0 (first / 4) count } }.macCheck (first / 4)
  | 4 =>
    let s := s.setChl eng { s.chl eng with removed := 0, offered := 0 }
    if s.isSet F.CHL_CFG.EN eng then s.chlStart eng else s
  | _ => s

/-- The operation of LANE_CONFIG (R96, R100); lanes of a quad that is off cannot be configured (log 65). -/
def State.laneConfig (s : State) (m : Msg) (inflight : Nat) (done : Bool) : Answer :=
  let first := fld m 0 16; let count := fld m 2 16; let b := fld m 9 8
  let lanes := (List.range count).map (first + ·)
  let eng := if oneOf [2, 3, 4] b then fld m 10 8 else 0
  if lanes.any (fun l => s.pcieLane l || !s.domUp (domLaneQuad (l / 4))) then .fail s stState
  else
    let s := (lanes.foldl (fun t l => t.laneUnbind l inflight) s).macsUnbind first count
    if done = false then .fail s stTimeout
    else if b = 0 then .ok s
    else .ok ((lanes.foldl (fun t l => t.laneBind l (fld m 4 32) (fld m 8 8) b eng) s).engineBind first count b eng)

/-- LANE_CONFIG: with `lanes.done` false the lanes did not take the new configuration in time, which the spec does not bound,
and stay unbound (DESIGN CHOICE, log 65). Its lanes are no longer busy. -/
def execLaneConfig (b : Fin 8) (m : Msg) (lanes : Rebind) (s : State) : Host.Outcome State Fault Refusal :=
  .next (s.runCmd b opLaneConfig m (fun s =>
    let a := s.laneConfig m lanes.inflight.val lanes.done
    { a with state := a.state.laneBusy m 0 }))

/-- LANE_STATUS (R98). -/
def execLaneStatus (b : Fin 8) (m : Msg) (s : State) : Host.Outcome State Fault Refusal :=
  .next (s.runCmd b opLaneStatus m (fun s =>
    let l := fld m 0 16
    .ok s (pack 16 [(0, 8, s.laneState l), (2, 16, s.get F.LANE_EYE.HEIGHT l), (4, 16, s.get F.LANE_EYE.WIDTH l),
      (8, 64, s.pair R.LANE_ERR_LO R.LANE_ERR_HI l)])))

/-- Writes a command's buffer and answers. -/
def State.writeAnswer (s : State) (a : Nat) (bs : List Byte) (p : Payload) : Answer :=
  match s.bufWrite a bs with
  | (some stop, t) => .buffer t stop
  | (none, t) => .ok t p

/-- LANE_EYE_SCAN (R98): first the figures of LANE_EYE, then the points the eye monitor measured, one word each (log 65). -/
def execLaneEyeScan (b : Fin 8) (m : Msg) (points : List Word) (s : State) : Host.Outcome State Fault Refusal :=
  .next (s.runCmd b opEyeScan m (fun s => s.writeAnswer (fld m 8 64)
    (((s.reg R.LANE_EYE (fld m 0 16)) :: (points.take 65534).map (·.toNat)).flatMap (leBytes 4))
    (pack 2 [(0, 16, min (points.length + 1) 65535)])))

/-- The operation of LANE_CHL_NEGOTIATE (R124, R125): a link that is up renegotiates, another is brought up. -/
def State.chlNegotiate (s : State) (t : Taken) (f mask : Nat) : State :=
  let s := s.put F.CHL_CFG.VERSION_MASK f mask
  let s := (s.setChl f { s.chl f with removed := 0, offered := 0, waiting := some t, waitStart := s.now }).put F.CHL_STATUS.FAILED f 0
  if 2 ≤ s.chlState f then s.put F.CHL_STATUS.STATE f 3 else (s.put F.CHL_CFG.EN f 1).chlStart f

/-- LANE_CHL_NEGOTIATE (R124, R125): answered by the command that brings the link up, or here once 1.5 s have passed. -/
def execLaneChlNegotiate (b : Fin 8) (m : Msg) (s : State) : Host.Outcome State Fault Refusal :=
  .next (s.runTaken b opChlNegotiate m (fun t s =>
    let f := fld m 0 8
    let c := s.chl f
    if c.waiting.map (·.id) = some t.id then
      if c.waitStart + 1500000000 ≤ s.now then
        (s.setChl f { c with waiting := none }).finish t stTimeout 0 (pack 1 [(0, 8, 0)])
      else s
    else if s.chlLanes f = [] then s.finish t stState 0 {}
    else s.chlNegotiate t f (fld m 1 8)))

/-- Radio units and flows of the discovery table that engine `f` owns (R110). -/
def State.fhUnits (s : State) (f : Nat) : List (List Nat) :=
  ((s.links.rus.filter (fun e => e.2.used && e.2.owner == f)).map (fun e => [e.2.mac.toNat, e.2.vlan.toNat, e.1]))
def State.fhFlows (s : State) (f : Nat) : List (List Nat) :=
  ((s.links.flows.filter (fun e => e.2.used && e.2.owner == f)).map (fun e => [e.2.ru, e.2.eaxc.toNat, e.1]))

/-- LANE_FH_TABLE (R110): the table as the engine sees it; the layout of its bytes is open (log 65). -/
def execLaneFhTable (b : Fin 8) (m : Msg) (s : State) : Host.Outcome State Fault Refusal :=
  .next (s.runCmd b opFhTable m (fun s =>
    let f := fld m 0 8
    s.writeAnswer (fld m 8 64) (Config.fhTable f (s.fhUnits f) (s.fhFlows f))
      (pack 4 [(0, 16, (s.fhUnits f).length), (2, 16, (s.fhFlows f).length)])))

/-! ### CONFIG -/

/-- CONFIG_LOAD_OVERLAY (R370): the load begins, and its end answers the command. One load runs at a time (R45). -/
def execConfigLoadOverlay (b : Fin 8) (m : Msg) (s : State) : Host.Outcome State Fault Refusal :=
  .next (s.runTaken b opLoadOverlay m (fun t s =>
    let mine : Bool := match s.cfg.load with | some l => l.cmd.map (·.id) == some t.id | none => false
    let starts : Bool := s.cfg.starting.any (fun e => e.cmd.map (·.id) == some t.id)
    if mine ∨ starts then s
    else if s.cfg.load.isSome then s.finish t stBusy 0 {}
    else if s.isSet F.CFG_LOCK.LOCK 0 then s.finish t stLocked 0 {}
    else if bufPlace (fld m 0 64) (fld m 8 32) = false then s.finish t stBuffer 0 {}
    else (s.setReg R.CFG_CONT_INFO 0 0).beginLoad
      { path := .mailbox, cmd := some t, base := fld m 0 64, len := fld m 8 32 }))

/-- A region loses its configuration. -/
def State.unloadRegion (s : State) (r : Nat) : State :=
  let st := if s.domUp (domRegion r) then 0 else 5
  (((((s.isolateRegion r st).clearRegion r).regionRegs r).regionFlags r false false false).setImage r {}).setRegion r st

/-- CONFIG_UNLOAD (R57). -/
def execConfigUnload (b : Fin 8) (m : Msg) (s : State) : Host.Outcome State Fault Refusal :=
  .next (s.runCmd b opUnload m (fun s =>
    if s.isSet F.CFG_LOCK.LOCK 0 then .fail s stLocked
    else .ok ((maskBits 64 (fld m 0 64)).foldl (fun t r => t.unloadRegion r) s).pruneOverlays))

/-- CONFIG_STATUS (R381). -/
def execConfigStatus (b : Fin 8) (m : Msg) (s : State) : Host.Outcome State Fault Refusal :=
  .next (s.runCmd b opConfigStatus m (fun s => .ok s (pack 20
    [(0, 64, s.pair R.PR_LOADED_LO R.PR_LOADED_HI 0), (8, 64, s.pair R.PR_FAILED_LO R.PR_FAILED_HI 0),
     (16, 32, s.reg R.CFG_SCRUB_LAP_US 0)])))

/-- CONFIG_LOCK (R57, R381). -/
def execConfigLock (b : Fin 8) (m : Msg) (s : State) : Host.Outcome State Fault Refusal :=
  .next (s.runCmd b opConfigLock m (fun s => .ok (s.put F.CFG_LOCK.LOCK 0 1)))

/-- CONFIG_READBACK (R376): the region's flip-flops at the chosen edge, flip-flop b at bit b; none where no edge arrives
within 1 ms. -/
def execConfigReadback (b : Fin 8) (m : Msg) (edge : Bool) (s : State) :
    Host.Outcome State Fault Refusal :=
  .next (s.runCmd b opReadback m (fun s =>
    let r := fld m 0 8
    if s.regionState r = 3 ∧ edge = true ∧ s.leafRuns r (fld m 1 8) = true then
      s.writeAnswer (fld m 8 64) (leBytes 21504 (s.fab.ffs.get 0 r).toNat) (pack 4 [(0, 32, 21504)])
    else .fail s stState))

/-! ### MEMKEY -/

/-- A wrapped key pair under the device key: none where it fails to unwrap or its halves are equal (R301). -/
def State.unwrapPair (s : State) (blob : List Nat) : Option (BitVec 512) :=
  match s.deviceKey with
  | none => none
  | some k => match Crypto.unwrap (bytes256 k) blob with
    | none => none
    | some p => if p.take 32 = p.drop 32 then none else some (BitVec.ofNat 512 (Crypto.natLe p))

/-- MEMKEY_LOAD (R301). -/
def execMemkeyLoad (b : Fin 8) (m : Msg) (s : State) : Host.Outcome State Fault Refusal :=
  .next (s.runCmd b opKeyLoad m (fun s =>
    match s.bufRead (fld m 8 64) 72 with
    | (.error stop, t) => .buffer t stop
    | (.ok bs, t) => match t.unwrapPair (natBytes bs) with
      | none => .fail t stKey
      | some pair => .ok { t with store := { t.store with keys := t.store.keys.set none (fld m 0 8) (some pair) } })).warmWhenFree

/-- MEMKEY_CLEAR (R301). -/
def execMemkeyClear (b : Fin 8) (m : Msg) (s : State) : Host.Outcome State Fault Refusal :=
  .next (s.runCmd b opKeyClear m (fun s =>
    .ok { s with store := { s.store with keys := s.store.keys.set none (fld m 0 8) none } })).warmWhenFree

/-- MEMKEY_REGION (R302): the region is written, and enabled where LIMIT > BASE. -/
def execMemkeyRegion (b : Fin 8) (m : Msg) (s : State) : Host.Outcome State Fault Refusal :=
  .next (s.runCmd b opKeyRegion m (fun s =>
    let r := fld m 0 8
    let s := (s.setPair R.CIPH_REGION_BASE_LO R.CIPH_REGION_BASE_HI r (fld m 8 64)).setPair R.CIPH_REGION_LIMIT_LO
      R.CIPH_REGION_LIMIT_HI r (fld m 16 64)
    let s := s.setPair R.CIPH_REGION_ALLOW_LO R.CIPH_REGION_ALLOW_HI r (fld m 24 64)
    .ok (s.put F.CIPH_REGION_CTRL.EN r (bit (decide (fld m 8 64 < fld m 16 64))))))

/-- Slots that hold a key pair, as CIPH_KEYS shows them (R316). -/
def State.cipherKeys (s : State) : Nat :=
  (List.range 64).foldl (fun a k => if (s.keySlot k).isSome then a + 2 ^ k else a) 0

/-- MEMKEY_STATUS (R316). -/
def execMemkeyStatus (b : Fin 8) (m : Msg) (s : State) : Host.Outcome State Fault Refusal :=
  .next (s.runCmd b opKeyStatus m (fun s => .ok s (pack 8 [(0, 64, s.cipherKeys)])))

end Sys2Proof.Machine
end

