-- ==== Sys2Proof/Machine/CmdSys.lean ====
section
/-! DEFINITION. The mailbox commands TASK, ERROR, ATTEST, DEBUG and UPDATE (R57, R169, R171, R173, R430, R434, R435, R443 to R447,
R454, R457 to R461, R477). -/

namespace Sys2Proof.Machine

/-! ### TASK -/

/-- Vector `v` serves something else than completion queue `k`: R58's own vectors, another queue, or an engine (R169). -/
def State.vectorTaken (s : State) (v k : Nat) : Bool :=
  decide (v ≤ 5) || (List.range 64).any (fun j => j != k && s.get F.TSK_CQ_CFG.VECTOR j == v) ||
    (List.range 64).any (fun m => s.get F.MAC_CFG.VECTOR m == v) || (List.range 16).any (fun f => s.get F.FH_CTRL.VECTOR f == v) ||
    (List.range 8).any (fun c => s.get F.CPRI_CFG.VECTOR c == v) || (List.range 2).any (fun p => s.get F.PCIE_CFG.VECTOR p == v)

/-- The operation of TASK_CQ_CFG (R169): the queue starts empty. -/
def State.cqConfigure (s : State) (q n base entries v : Nat) : State :=
  let k := cqKey q n
  let x := s.dsp q
  let s := s.setDsp q { x with writes := x.writes.filter (fun w => w.queue != n), cbuf := x.cbuf.filter (fun e => e.1 != n) }
  let s := (s.setReg R.TSK_CQ_BASE_LO k (base % 2 ^ 32)).setReg R.TSK_CQ_BASE_HI k
    (base / 2 ^ 32 % 2 ^ 16 + Nat.log2 entries * 2 ^ 16)
  ((s.setReg R.TSK_CQ_IDX k 0).setReg R.TSK_CQ_CFG k (1 + v * 2 ^ 8)).cqPump q

/-- TASK_CQ_CFG (R169). -/
def execTaskCqCfg (b : Fin 8) (m : Msg) (s : State) : Host.Outcome State Fault Refusal :=
  .next (s.runCmd b opCqCfg m (fun s =>
    let q := fld m 0 8
    let n := fld m 1 8
    let v := fld m 18 8
    if v ≠ 0 ∧ s.vectorTaken v (cqKey q n) = true then .fail s stNoResource
    else .ok ((s.cqConfigure q n (fld m 8 64) (fld m 16 16) v).dispFlags q)))

/-- TASK_TICK (R173). -/
def execTaskTick (b : Fin 8) (m : Msg) (s : State) : Host.Outcome State Fault Refusal :=
  .next (s.runCmd b opTick m (fun s => .ok (s.tickWrite (fld m 0 8) (fld m 4 32))))

/-- TASK_STATS (R173). -/
def execTaskStats (b : Fin 8) (m : Msg) (s : State) : Host.Outcome State Fault Refusal :=
  .next (s.runCmd b opStats m (fun s =>
    let q := fld m 0 8
    .ok s (pack 20 [(0, 64, s.pair R.TSK_DISPATCHED_LO R.TSK_DISPATCHED_HI q), (8, 32, s.reg R.TSK_LATE_RISK q),
      (12, 32, s.reg R.TSK_VARIANTS q), (16, 32, s.reg R.TSK_ACCT q)])))

/-- TASK_FLUSH (R171). -/
def execTaskFlush (b : Fin 8) (m : Msg) (s : State) : Host.Outcome State Fault Refusal :=
  .next (s.runCmd b opFlush m (fun s =>
    let q := fld m 0 8
    let (k, t) := s.flushTasks q (fld m 2 16)
    .ok (s.afterReady t q) (pack 2 [(0, 16, k)])))

/-! ### ERROR (R454, R457, R459, R461) -/

/-- SEQ value `a` precedes `b` (R457). -/
def seqPrecedes (a b : Nat) : Bool :=
  let d := (b + 65536 - a % 65536) % 65536
  decide (1 ≤ d) && decide (d ≤ 32768)

/-- The 48 bytes of a log entry (R454). -/
def Entry.bytes (e : Entry) : List Byte :=
  let a := (e.addr.getD 0) % 2 ^ 48
  let rq := e.req.getD (0, 0)
  leBytes 4 (e.code % 2 ^ 16 + e.sev % 4 * 2 ^ 16 + bit e.tgt * 2 ^ 18 + bit e.addr.isSome * 2 ^ 19 + bit e.injected * 2 ^ 20) ++
  leBytes 4 e.source ++ leBytes 4 e.detail ++ leBytes 4 e.rep ++ leBytes 8 (a + e.seq % 2 ^ 16 * 2 ^ 48) ++ leBytes 8 e.first ++
  leBytes 8 e.last ++ leBytes 4 (rq.1 % 1024 + rq.2 % 1024 * 2 ^ 16 + bit e.req.isSome * 2 ^ 26) ++ leBytes 4 0

/-- Entries ERROR_READ copies from SEQ `first`, at most `count`. -/
def State.logFrom (s : State) (first count : Nat) : List Entry :=
  let rest := match s.err.log.findIdx? (fun e => e.seq == first) with
    | some i => s.err.log.drop i
    | none => match s.err.log with
      | e :: _ => if seqPrecedes first e.seq then s.err.log else []
      | [] => []
  rest.take count

/-- Events lost: ERR_LOST and the four ERR_Q_SUPPR counts. -/
def State.eventsLost (s : State) : Nat :=
  (List.range 4).foldl (fun a q => a + s.reg R.ERR_Q_SUPPR q) (s.reg R.ERR_LOST 0)

/-- SEQ that follows the last entry of a list; NEXT for none. -/
def State.seqAfter (s : State) (es : List Entry) : Nat :=
  match es.getLast? with
  | some e => (e.seq + 1) % 65536
  | none => s.err.next

/-- ERROR_READ (R457); `lost` saturates at its 32 bits. -/
def execErrorRead (b : Fin 8) (m : Msg) (s : State) : Host.Outcome State Fault Refusal :=
  .next (s.runCmd b opErrorRead m (fun s =>
    let es := s.logFrom (fld m 0 16) (fld m 2 16)
    s.writeAnswer (fld m 8 64) (es.flatMap Entry.bytes)
      (pack 8 [(0, 16, es.length), (2, 16, s.seqAfter es), (4, 32, min s.eventsLost (2 ^ 32 - 1))])))

/-- ERROR_CLEAR (R457). -/
def execErrorClear (b : Fin 8) (m : Msg) (s : State) : Host.Outcome State Fault Refusal :=
  .next (s.runCmd b opErrorClear m (fun s => .ok { s with err := { s.err with
    log := s.err.log.filter (fun e => !seqPrecedes e.seq (fld m 0 16)) } }))

/-- ERROR_CONFIG (R461). -/
def execErrorConfig (b : Fin 8) (m : Msg) (s : State) : Host.Outcome State Fault Refusal :=
  .next (s.runCmd b opErrorConfig m (fun s =>
    .ok ((s.put F.ERR_CFG.COALESCE_NS 0 (fld m 0 32)).put F.ERR_CFG.NOTIFY 0 (fld m 4 8))))

/-- ERROR_INJECT is closed: in SEALED below level 1, in RETIRED below level 2 (R57, R430). -/
def State.injectClosed (s : State) : Bool :=
  (s.sec.life == 2 && s.debugLevel == 0) || (s.sec.life == 3 && s.debugLevel != 2)

/-- ERROR_INJECT (R459). -/
def execErrorInject (b : Fin 8) (m : Msg) (s : State) : Host.Outcome State Fault Refusal :=
  .next (s.runCmd b opErrorInject m (fun s =>
    if s.injectClosed then .fail s stState
    else .ok (s.raise { code := fld m 4 16, sev := fld m 6 8, source := fld m 0 32, injected := true })))

/-! ### ATTEST (R442 to R445) -/

/-- A measured overlay or program of a report. -/
def measuredEntry (e : Nat × Nat × BitVec 256) : List Nat :=
  Crypto.leNat 8 e.1 ++ Crypto.leNat 4 e.2.1 ++ Crypto.leNat 4 0 ++ bytes256 e.2.2

/-- The report before its signature (R445). -/
def State.reportBody (s : State) (nonce : Nat) : List Nat :=
  let x := s.sec
  let f := x.fuses
  let no := x.overlays.length
  let np := x.programs.length
  let flags := s.get F.CFG_STATUS.GOLDEN 0 + bit x.progOvf * 2 + s.get F.SEC_TAMPER.TAMPERED 0 * 4
  Crypto.leNat 4 0x54414D45 ++ Crypto.leNat 2 1 ++ Crypto.leNat 2 (240 + 48 * (no + np)) ++
    [x.life, s.debugLevel, no, flags] ++ Crypto.leNat 2 np ++ [0, 0] ++ Crypto.leNat 32 nonce ++ s.devId ++
    Crypto.leNat 8 Config.serial.toNat ++ Crypto.leNat 2 f.base ++ Crypto.leNat 2 f.fw ++
    [x.slot.getD 0, f.imgRevoked, f.dbgValid, 0] ++ Crypto.leNat 4 (s.reg R.DEV_FW_VERSION 0) ++
    Crypto.leNat 4 (s.reg R.CFG_BASE_VERSION 0) ++ bytes256 x.fwHash ++ bytes256 s.cfg.bootHash ++ bytes256 x.progAgg ++
    x.overlays.flatMap measuredEntry ++ x.programs.flatMap measuredEntry

/-- ATTEST_REPORT (R445). -/
def execAttestReport (b : Fin 8) (m : Msg) (s : State) : Host.Outcome State Fault Refusal :=
  .next (s.runCmd b opReport m (fun s =>
    let body := s.reportBody (fld m 0 256)
    let k := (Config.random 256 s.free).toNat % Crypto.n256
    let r := body ++ Crypto.ecdsaSign (Crypto.sha256 body) (attestKey s.sec.fwHash) k
    { s with free := s.free + 1 }.writeAnswer (fld m 32 64) (toBytes r) (pack 4 [(0, 32, r.length)])))

/-- The chain of R443. -/
def State.certChain (s : State) : List Byte :=
  (((List.range (Config.attestCertLen s.sec.fwHash)).map (Config.attestCert s.sec.fwHash)) ++
    toBytes (certBytes 0 (Config.identCertLen + Config.caCertLen))).take 4096

/-- ATTEST_CERTS (R443): the buffer has 4 KiB or more. -/
def execAttestCerts (b : Fin 8) (m : Msg) (s : State) : Host.Outcome State Fault Refusal :=
  .next (s.runCmd b opCerts m (fun s =>
    if bufPlace (fld m 0 64) 4096 = false then .buffer s (.bad 0)
    else s.writeAnswer (fld m 0 64) s.certChain (pack 4 [(0, 32, s.certChain.length)])))

/-! ### DEBUG (R446, R447, R477) -/

/-- DEBUG_CHALLENGE (R447). -/
def execDebugChallenge (b : Fin 8) (m : Msg) (s : State) : Host.Outcome State Fault Refusal :=
  .next (s.runCmd b opChallenge m (fun s =>
    let c := Config.random 256 s.free
    let s := { s with free := s.free + 1 }
    .ok ((s.setSec { s.sec with challenge := some (c, s.now) }).put F.SEC_DBG_STATUS.CHAL_VALID 0 1)
      (pack 32 [(0, 256, c.toNat)])))

/-- A failed unlock (R447): three in a row lock it out. -/
def State.unlockFailed (s : State) : State :=
  let n := s.get F.SEC_DBG_STATUS.FAILS 0 + 1
  let s := s.put F.SEC_DBG_STATUS.FAILS 0 n
  if 3 ≤ n then (s.setSec { s.sec with lockAt := s.now }).put F.SEC_DBG_STATUS.LOCKOUT 0 1 else s

/-- The public key is the slot's. -/
def State.unlockKey (s : State) (d : Nat) (key : List Nat) : Bool :=
  let x := s.sec.fuses.dbgSlot d
  x.valid && !x.kill && x.hash == digest key

/-- Bytes the signature covers (R447). -/
def State.unlockBytes (s : State) (c : BitVec 256) (d : Nat) : List Nat :=
  bytes256 c ++ Crypto.leNat 4 (s.reg R.DEV_ID 0) ++ Crypto.leNat 8 Config.serial.toNat ++ [d]

/-- The signature verifies over a challenge held and not expired. -/
def State.unlockSigned (s : State) (d : Nat) (buf : List Nat) : Bool :=
  match s.sec.challenge with
  | none => false
  | some (c, t) =>
    let part := fun o => Crypto.natBe ((buf.drop o).take 32)
    decide (s.now < t + 60000000000) &&
      Crypto.ecdsaVerify (Crypto.sha256 (s.unlockBytes c d)) (part 64) (part 96) (part 0) (part 32)

/-- Consumes the challenge. -/
def State.useChallenge (s : State) : State :=
  (s.setSec { s.sec with challenge := none }).put F.SEC_DBG_STATUS.CHAL_VALID 0 0

/-- A level a slot grants (R446). -/
def slotLevel (d : Nat) : Nat := if d = 7 then 2 else 1

/-- The operation of DEBUG_UNLOCK on the buffer's bytes (R430, R447): level 1 never opens in RETIRED. -/
def State.unlockWith (s : State) (d : Nat) (buf : List Nat) : Answer :=
  if s.unlockKey d (buf.drop 64) = false then .fail s.useChallenge.unlockFailed stKey
  else if s.unlockSigned d buf = false ∨ (s.sec.life = 3 ∧ d ≠ 7) then .fail s.useChallenge.unlockFailed stAuth
  else
    let s := (s.useChallenge.put F.SEC_DBG_STATUS.LEVEL 0 (slotLevel d)).put F.SEC_DBG_STATUS.SLOT 0 d
    .ok (s.put F.SEC_DBG_STATUS.FAILS 0 0) (pack 1 [(0, 8, slotLevel d)])

/-- DEBUG_UNLOCK (R441, R447). -/
def execDebugUnlock (b : Fin 8) (m : Msg) (s : State) : Host.Outcome State Fault Refusal :=
  .next (s.runCmd b opUnlock m (fun s =>
    if s.isSet F.SEC_LOCKS.DBG_DISABLE 0 ∨ s.isSet F.SEC_DBG_STATUS.LOCKOUT 0 then .fail s.useChallenge stAuth
    else match s.bufRead (fld m 8 64) 128 with
    | (.error .waits, t) => .buffer t .waits
    | (.error (.bad d), t) => .buffer t.useChallenge (.bad d)
    | (.ok bs, t) => t.unlockWith (fld m 0 8) (natBytes bs)))

/-- The operation of DEBUG_TRACE_CFG (R477): the fields of the sink it selects. -/
def State.traceConfigure (s : State) (sink base size lane : Nat) : State :=
  let s := s.put F.TRC_CTRL.SINK 0 sink
  match sink with
  | 1 => (s.setReg R.TRC_RING_BASE_LO 0 (base % 2 ^ 32)).setReg R.TRC_RING_BASE_HI 0 (base / 2 ^ 32 % 2 ^ 16 + size % 32 * 2 ^ 16)
  | 2 => s.put F.TRC_CTRL.LANE 0 lane
  | _ => s

/-- DEBUG_TRACE_CFG (R477). -/
def execDebugTraceCfg (b : Fin 8) (m : Msg) (s : State) : Host.Outcome State Fault Refusal :=
  .next (s.runCmd b opTraceCfg m (fun s =>
    let sink := fld m 0 8
    let lane := fld m 20 16
    if s.isSet F.TRC_CTRL.EN 0 ∨ (sink = 2 ∧ s.isSet F.MAC_CFG.EN (s.laneMac lane) = false) then .fail s stState
    else .ok (s.traceConfigure sink (fld m 8 64) (fld m 16 32) lane)))

/-- DEBUG_LOCK (R447). -/
def execDebugLock (b : Fin 8) (m : Msg) (s : State) : Host.Outcome State Fault Refusal :=
  .next (s.runCmd b opDebugLock m (fun s => .ok s.debugLock))

/-! ### UPDATE (R57, R423, R434, R435) -/

/-- Chunk `i` of a container's bytes passes its CRC and tag (R358, R359): 0, or the failing code of R362. -/
def chunkCode (key : Option (BitVec 256)) (bs : List Byte) (i : Nat) : Nat :=
  let h := bs.take 64
  let n := min 65536 (hdrLen h - 65536 * i)
  let c := (bs.drop (payloadPos (65536 * i))).take (n + 20)
  if Crypto.crc32 (natBytes (c.take (n + 16))) ≠ leValue (c.drop (n + 16)) then 0x02
  else if (chunkPlain key h i (c.take n) ((c.drop n).take 16)).isNone then 0x08 else 0

/-- The path whose checks an image of kind 0, 1 or 2 must pass: a firmware image is a base container (log 63). -/
def stagePath (kind : Nat) : LoadPath := if kind = 2 then .golden else .primary

/-- The code of R362 an image to be staged fails with; 0 for none. -/
def State.stageCode (s : State) (kind : Nat) (bs : List Byte) : Nat :=
  let h := bs.take 64
  let sig := bs.drop (bs.length - 128)
  match s.headerCheck (stagePath kind) h with
  | some (c, _) => c
  | none =>
    if containerLen (hdrLen h) ≠ bs.length then 0x03
    else match (List.range (chunkCount (hdrLen h))).map (chunkCode ((s.loadKey (hdrKeyId h)).getD none) bs) |>.find? (· ≠ 0) with
    | some c => c
    | none =>
      if s.signerOk sig = false then 0x09
      else if sigOk (bs.take (bs.length - 128)) sig = false then 0x08 else 0

/-- Status of UPDATE_STAGE for a code of R362. -/
def stageStatus (c : Nat) : Nat :=
  if c = 0x08 ∨ c = 0x09 then stAuth else if c = 0x0A ∨ c = 0x0B then stRollback else stIntegrity

/-- What is staged: version and anti-rollback value of the kind. -/
def stagedImage (kind : Nat) (h : List Byte) : UpdImage :=
  if kind = 0 then { kind := 0, version := hdrFwVer h, arb := hdrFwArb h } else { kind := kind, version := hdrVer h, arb := hdrArb h }

/-- An update command is over: firmware is running again (R61), and a WARM reset that waited for the command begins (R423). -/
def State.updateOver (s : State) : State :=
  let s := if s.get F.DEV_FW_STATE.STATE 0 = 4 ∧
      s.mbx.started.any (fun t => [opStage, opCommit, opActivate].contains t.op) = false
    then s.put F.DEV_FW_STATE.STATE 0 2 else s
  s.warmWhenFree

/-- UPDATE_STAGE (R57). -/
def execUpdateStage (b : Fin 8) (m : Msg) (s : State) : Host.Outcome State Fault Refusal :=
  .next (s.runCmd b opStage m (fun s =>
    match s.bufRead (fld m 8 64) (fld m 16 32) with
    | (.error stop, t) => .buffer t stop
    | (.ok bs, t) =>
      let c := t.stageCode (fld m 0 8) bs
      if c ≠ 0 then .fail t (stageStatus c) (if stageStatus c = stIntegrity then c else 0)
      else
        let x := stagedImage (fld m 0 8) (bs.take 64)
        .ok { t with upd := { t.upd with staged := some x } } (pack 6 [(0, 32, x.version), (4, 16, x.arb)]))).updateOver

/-- UPDATE_COMMIT (R57): the staged image is written to flash; `flashOk`: flash verified it. An image that flash did not take
stays staged (DESIGN CHOICE, log 100). -/
def execUpdateCommit (b : Fin 8) (m : Msg) (flashOk : Bool) (s : State) : Host.Outcome State Fault Refusal :=
  .next (s.runCmd b opCommit m (fun s =>
    match s.upd.staged with
    | none => .fail s stState
    | some x => if flashOk then .ok { s with upd := { s.upd with staged := none, committed := some x } }
      else .fail s.hwFault stHw)).updateOver

/-- UPDATE_STATUS (R57). -/
def execUpdateStatus (b : Fin 8) (m : Msg) (s : State) : Host.Outcome State Fault Refusal :=
  .next (s.runCmd b opUpdStatus m (fun s =>
    .ok { s with free := s.free + 1 } (pack 2 [(0, 8, bit s.upd.staged.isSome), (1, 8, Config.updateProgress s.free % 101)])))

/-- A raise to the image's anti-rollback value is refused (R434). -/
def raiseRefused (x : UpdImage) (goldenArb : Nat) : Bool :=
  decide (256 < x.arb) || (x.kind == 1 && decide (goldenArb < x.arb))

/-- The counter an image's kind raises: firmware or base; none for a golden image. -/
def Fuses.counter (f : Fuses) (kind : Nat) : Nat := if kind = 0 then f.fw else f.base

/-- Blows counter bits of the image's kind up to `v`. -/
def Fuses.raiseTo (f : Fuses) (kind v : Nat) : Fuses :=
  match kind with
  | 0 => { f with fw := max f.fw v }
  | 1 => { f with base := max f.base v }
  | _ => f

/-- The counter's value where the raise from `old` to `arb` ends after `bits` bits (R435): all of them, short of the bit that fails, or cut by a
reset. -/
def raiseEnd (old arb bits : Nat) (blow : Fin 3) : Nat :=
  match blow.val with
  | 0 => arb
  | 1 => min (old + bits) (arb - 1)
  | _ => min (old + bits) arb

/-- Ends UPDATE_ACTIVATE with OK: it answers, then performs a WARM reset once no command that changes flash, fuses or key slots
is in progress (R57, R423). -/
def State.activateDone (s : State) (t : Taken) : State := (s.finish t stOK 0 {}).warmAsked

/-- The operation of UPDATE_ACTIVATE with the raise asked for. -/
def State.activateRaise (s : State) (t : Taken) (x : UpdImage) (bits : Nat) (blow : Fin 3) : State :=
  let old := s.sec.fuses.counter x.kind
  if 1 < x.kind ∨ x.arb ≤ old then s.activateDone t
  else
    let s := s.setFuses (s.sec.fuses.raiseTo x.kind (raiseEnd old x.arb bits blow))
    match blow.val with
    | 0 => s.activateDone t
    | 1 => s.fuseFail.finish t stHw 0 {}
    | _ => s

/-- UPDATE_ACTIVATE (R434, R435): `goldenArb` is the ARB of the golden container in flash; `blow`: every fuse bit verifies (0), the bit
after `bits` does not (1), or a reset cuts the raise after `bits` bits (2), so that no response follows. -/
def execUpdateActivate (b : Fin 8) (m : Msg) (goldenArb : BitVec 16) (blow : Fin 3) (bits : BitVec 9) (s : State) :
    Host.Outcome State Fault Refusal :=
  .next (s.runTaken b opActivate m (fun t s =>
    match s.upd.committed with
    | none => s.finish t stState 0 {}
    | some x =>
      if fld m 0 8 ≠ 1 then s.activateDone t
      else if raiseRefused x goldenArb.toNat then s.finish t stState 0 {}
      else s.activateRaise t x bits.toNat blow)).updateOver

end Sys2Proof.Machine
end

