-- ==== Sys2Proof/Machine/Hbm.lean ====
section
/-! DEFINITION. Packaged memory's own events (R311 to R316): training, the zero fill, scrubbing, failed
pseudo-channels, and the cipher-region control register. The line accesses themselves are in Machine/Memory.lean. -/

namespace Sys2Proof.Machine

/-- Lines of one pseudo-channel (R314). -/
def pcLines : Nat := 8388608

/-- Address of line `i`, in ascending order, of pseudo-channel `pc` (R296). -/
def pcLine (pc i : Nat) : Nat :=
  let hi := i / 4
  pc / 32 * 2 ^ 34 + hi * 2 ^ 13 + (pc % 32 ^^^ hi / 8 % 32) * 2 ^ 8 + i % 4 * 64

/-- HBM_TRAINING (R311, R313, R428): firmware raises HBM_PWR_EN (R488) and trains stack `st`; bit p of `failed` names the
pseudo-channels that failed, which go offline. A stack of which none trains stays untrained. -/
def execHbmTraining (st : Fin 2) (failed : BitVec 32) (s : State) : Host.Outcome State Fault Refusal :=
  let s := { s with power := { s.power with hbmPwr := true } }
  let s := (List.range 32).foldl (fun t p =>
    let pc := 32 * st.val + p
    if bitAt failed.toNat p then (t.put F.HBM_PC_STATUS.TRAINED pc 0).put F.HBM_PC_CTRL.OFFLINE pc 1
    else t.put F.HBM_PC_STATUS.TRAINED pc 1) s
  let tr := s.get F.HBM_STATUS.TRAINED 0
  .next (s.put F.HBM_STATUS.TRAINED 0
    (if failed = BitVec.allOnes 32 then bitsSet tr st.val 1 0 else bitsSet tr st.val 1 1))

/-- Every line of stack `st` holds zero data under key index 0. -/
def Store.fillStack (x : Store) (st : Nat) : Store :=
  { x with bytes := x.bytes.filter (fun e => !(decide (st * 2 ^ 34 ≤ e.1) && decide (e.1 < (st + 1) * 2 ^ 34)))
           lines := x.lines.filter (fun e => !(decide (st * 2 ^ 28 ≤ e.1) && decide (e.1 < (st + 1) * 2 ^ 28))) }

/-- HBM_INIT_FILL (R312): a trained stack not yet initialised is filled with zero data under key index 0 and a fresh
device integrity key, and INIT_DONE is set. -/
def execHbmInitFill (st : Fin 2) (s : State) : Host.Outcome State Fault Refusal :=
  let done := s.get F.HBM_STATUS.INIT_DONE 0
  if bitAt (s.get F.HBM_STATUS.TRAINED 0) st.val && !bitAt done st.val then
    .next ((({ s with store := s.store.fillStack st.val }).put F.HBM_STATUS.INIT_DONE 0 (bitsSet done st.val 1 1)).put
      F.CIPH_STATUS.INT_KEY 0 1)
  else .next s

/-- The slowest last lap of the pseudo-channels of stack `st` (R314). -/
def State.slowestLap (s : State) (st : Nat) : Nat :=
  (List.range 32).foldl (fun a p => max a (s.store.pcLapMs.get 0 (32 * st + p))) 0

/-- What the scrubber makes of line `n` (R314). -/
def State.scrubLine (s : State) (pc n : Nat) : State :=
  match s.lineState n with
  | .clean => s
  | .poison => s
  | .one i e =>
    ((s.xorSymbol n i e).countReg R.HBM_PC_CORR pc 1).raise
      { code := 0x0310, sev := 0, source := src 0x04 pc, addr := some (64 * n) }
  | .bad =>
    ((s.countReg R.HBM_PC_UNCORR pc 1).hbmErr n 0 4).raise
      { code := 0x0313, sev := 0, source := src 0x04 pc, addr := some (64 * n) }

/-- HBM_SCRUB_LINE (R314): the pseudo-channel reads its next line once its interval has passed; `damage` is what upsets
have changed in the line's symbols since the last command. -/
def execHbmScrubLine (pc : Fin 64) (damage : List (Fin 72 × Byte)) (s : State) : Host.Outcome State Fault Refusal :=
  let i := s.store.pcScrub.get 0 pc.val
  let at' := s.store.pcScrubAt.get 0 pc.val
  if s.get F.HBM_CTRL.SCRUB_EN 0 = 0 ∨ s.hbmReady pc.val = false ∨ s.pcDown pc.val = true ∨
      (at' ≠ 0 ∧ s.now < at' - 1 + s.get F.HBM_SCRUB_INTERVAL.NS 0) then .next s
  else
    let n := pcLine pc.val i / 64
    let s := s.strikeLine n damage
    let s := s.scrubLine pc.val n
    let s := { s with store := { s.store with
      pcScrub := s.store.pcScrub.set 0 pc.val ((i + 1) % pcLines)
      pcScrubAt := s.store.pcScrubAt.set 0 pc.val (s.now + 1)
      pcLapStart := if i = 0 then s.store.pcLapStart.set 0 pc.val s.now else s.store.pcLapStart } }
    if i + 1 < pcLines then .next s
    else
      let ms := min ((s.now - s.store.pcLapStart.get 0 pc.val) / 1000000) (2 ^ 32 - 1)
      let s := { s with store := { s.store with pcLapMs := s.store.pcLapMs.set 0 pc.val ms } }
      .next (s.setReg R.HBM_SCRUB_LAP_MS (pc.val / 32) (s.slowestLap (pc.val / 32)))

/-- HBM_PC_FAULT (R313): an uncorrected interface fault; the pseudo-channel answers TARGET_FAULT from here on. -/
def execHbmPcFault (pc : Fin 64) (s : State) : Host.Outcome State Fault Refusal :=
  .next { s with store := { s.store with pcFault := s.store.pcFault.set false pc.val true } }

/-- HBM_PC_OFFLINE (R313): firmware sets a faulted or untrained pseudo-channel offline and records the failure. -/
def execHbmPcOffline (pc : Fin 64) (s : State) : Host.Outcome State Fault Refusal :=
  if s.store.pcFault.get false pc.val = false ∧ s.isSet F.HBM_PC_STATUS.TRAINED pc.val = true then .next s
  else .next ((s.put F.HBM_PC_CTRL.OFFLINE pc.val 1).raiseFw
    { code := 0x0314, sev := 3, source := src 0x04 pc.val })

/-- A write of CIPH_REGION_CTRL of region `r`: an enable needs BASE < LIMIT ≤ 32 GiB (R316). -/
def State.ciphCtrl (s : State) (r : Nat) (v : Word) : State :=
  let s := if bitAt v.toNat 1 then s.put F.CIPH_REGION_CTRL.REJ r 0 else s
  let base := s.pair R.CIPH_REGION_BASE_LO R.CIPH_REGION_BASE_HI r
  let lim := s.pair R.CIPH_REGION_LIMIT_LO R.CIPH_REGION_LIMIT_HI r
  if bitAt v.toNat 0 then
    if lim ≤ base ∨ 2 ^ 35 < lim then s.put F.CIPH_REGION_CTRL.REJ r 1 else s.put F.CIPH_REGION_CTRL.EN r 1
  else s.put F.CIPH_REGION_CTRL.EN r 0

/-- CIPH_REGION_CTRL_WRITE (R316). -/
def execCiphRegionCtrlWrite (acc : Accessor) (v : Word) (s : State) : Host.Outcome State Fault Refusal :=
  .next (s.ownedWrite acc 0 R.CIPH_REGION_CTRL 0 (fun r t => t.ciphCtrl r v))

end Sys2Proof.Machine
end

