-- ==== Sys2Proof/Machine/RegWrite.lean ====
section
/-! DEFINITION. Register accesses as the register hub makes them (R12 to R17, R34 to R40, R61 to R65): what a write of each
register does, what a read of each register returns, the checks before either, and REGISTER_WRITE. Registers with no
behaviour of their own take `writePlain`; the others take the operation of their family's file. -/

namespace Sys2Proof.Machine

/-! ### Writes, block by block (R34) -/

/-- Lets rings go on once their RING_ERR has been cleared (R102; DESIGN CHOICE, log 66). -/
def State.ringsResume (s : State) (ks : List (RingKind × Nat)) : State :=
  let stops : SMap Bool := ks.foldl (fun m k => SMap.set m false (ringKey k.1 k.2) false) s.links.ringStop
  { s with links := { s.links with ringStop := stops } }

/-- Power and governor registers (R404). -/
def State.pwrAct (s : State) (r : RegRow) (i : Nat) (v : Nat) : State :=
  if r.off = R.PWR_DOM_CTRL.off then s.domCtrl i v
  else if r.off = R.PWR_RTC_ALARM.off then s.rtcAlarmWrite v
  else if r.off = R.PWR_RTC_SEC.off then s.rtcSecWrite v
  else if r.off = R.GOV_BUDGET.off then s.govBudgetWrite v
  else if r.off = R.GOV_SHARE.off then s.govShareWrite v
  else if r.off = R.GOV_TEMP_LIMITS.off then s.govLimitsWrite v
  else if r.off = R.GOV_Q_VCFG.off then s.govVcfgWrite i v
  else if r.off = R.GOV_STATUS.off then s.govStatusWrite v
  else s.writePlain r i v

/-- Clock registers (R408, R413, R414). -/
def State.clkAct (s : State) (r : RegRow) (i : Nat) (v : Nat) : State :=
  if r.off = R.CLK_LOOP_CTRL.off then s.loopCtrlWrite i v
  else if r.off = R.CLK_LOOP_CFG.off ∨ r.off = R.CLK_LOOP_FRAC.off then s.loopCfgWrite r i v
  else if r.off = R.CLK_FAB_OUT.off then (if 21 ≤ i / r.n then s else s.writePlain r i v)
  else if r.off = R.CLK_LOOP_STATUS.off then s.loopStatusWrite i v
  else if r.off = R.CLK_MON_CFG.off then s.monCfgWrite i v
  else if r.off = R.CLK_MUX_CTRL.off then
    if bitAt v 8 then
      (if 45 ≤ i ∧ muxAllows i (v % 16) = true then (s.muxDomReset i v).takeReset kWarm else s.muxDomReset i v)
    else s.muxSwitch i v
  else s.writePlain r i v

/-- Time registers (R95); TOD_CTRL has its own path. -/
def State.timeAct (s : State) (a : Accessor) (r : RegRow) (i : Nat) (v : Word) : State :=
  if r.off = R.TOD_REARM.off then (if bitAt v.toNat 0 then s.put F.TOD_STATUS.STEP_LOCK 0 0 else s)
  else if r.off = R.TOD_SERVO.off then s.servoWrite v
  else if r.off = R.TOD_ADDEND_LO.off then s.addendLoWrite v
  else if r.off = R.NS_INCR.off then s.nsIncrWrite v
  else if r.off = R.NS_FALLBACK_OFF_LO.off then s.fallbackLoWrite a v
  else if r.off = R.NS_FALLBACK_OFF_HI.off then s.fallbackHiWrite a v
  else if r.off = R.TOD_PPS_OUT_CTRL.off then s.ppsCtrlWrite i v
  else if r.off = R.TIME_CMP_TGT_LO.off then s.cmpCommit i v
  else if r.off = R.SLOT_TMR_CTRL.off then s.slotCtrlWrite i v
  else if r.off = R.SLOT_TMR_PERIOD.off ∨ r.off = R.SLOT_TMR_OFFSET.off then s.slotCfgWrite r i v
  else if r.off = R.TSU_TX_POP.off then (if bitAt v.toNat 0 then s.stampPop i else s)
  else if r.off = R.TSU_RCLK_CTRL.off then s.rclkWrite i v
  else s.writePlain r i v.toNat

/-- Ring registers with their kind; the base registers are ignored while the engine is enabled (R101, R102). -/
def State.ringAct (s : State) (r : RegRow) (i : Nat) (v : Word) : Option State :=
  let base := fun (on : Bool) => some (if on then s else s.writePlain r i v.toNat)
  if r.off = R.MAC_TX_IDX.off then some (s.ringProdWrite .macTx i v)
  else if r.off = R.MAC_RX_IDX.off then some (s.ringProdWrite .macRx i v)
  else if r.off = R.FH_TX_IDX.off then some (s.ringProdWrite .fhTx i v)
  else if r.off = R.CPRI_CM_TX_IDX.off then some (s.ringProdWrite .cpriTx i v)
  else if r.off = R.CPRI_CM_RX_IDX.off then some (s.ringProdWrite .cpriRx i v)
  else if r.off = R.PCIE_DMA_IDX.off then some (s.ringProdWrite .pcieDma i v)
  else if [R.MAC_TX_RING_LO.off, R.MAC_TX_RING_HI.off, R.MAC_RX_RING_LO.off, R.MAC_RX_RING_HI.off].contains r.off then
    base (s.isSet F.MAC_CFG.EN i)
  else if [R.FH_TX_RING_LO.off, R.FH_TX_RING_HI.off].contains r.off then base (s.isSet F.FH_CTRL.EN i)
  else if [R.CPRI_CM_TX_RING_LO.off, R.CPRI_CM_TX_RING_HI.off, R.CPRI_CM_RX_RING_LO.off, R.CPRI_CM_RX_RING_HI.off].contains
      r.off then base (s.isSet F.CPRI_CFG.EN i)
  else none

/-- Lane and protocol-engine registers (R128). -/
def State.laneAct (s : State) (r : RegRow) (i : Nat) (v : Word) : State :=
  match s.ringAct r i v with
  | some t => t
  | none =>
    if r.off = R.LANE_CTRL.off ∨ r.off = R.LANE_RATE.off then s.laneWrite r i v
    else if r.off = R.LANE_EQ_CTRL.off then s.eqCtrlWrite i v
    else if r.off = R.LANE_EQ_TAP.off then s.eqTapWrite i v
    else if r.off = R.MAC_CFG.off then s.macCfgWrite i v
    else if r.off = R.MAC_STATUS.off then
      let t := s.writePlain r i v.toNat
      if bitAt v.toNat 5 then t.ringsResume [(.macTx, i), (.macRx, i)] else t
    else if r.off = R.FH_CTRL.off then
      let t := s.writePlain r i v.toNat
      if bitAt v.toNat 3 then t.fhFlush i else t
    else if r.off = R.FH_STATUS.off then
      let t := s.writePlain r i v.toNat
      if t.get F.FH_STATUS.RING_ERR i = 0 then t.ringsResume [(.fhTx, i)] else t
    else if r.off = R.CPRI_CFG.off then
      let t := s.writePlain r i v.toNat
      if t.isSet F.CPRI_CFG.EN i then t else t.put F.CPRI_STATUS.STATE i 0
    else if r.off = R.CHL_CFG.off then s.chlCfgWrite i v
    else if r.off = R.CHL_WIN_XLAT.off then s.winXlatWrite i v
    else if r.off = R.CHL_WIN_CTRL.off then s.winCtrlWrite i v
    else if r.off = R.PCIE_STATUS.off then
      let t := s.writePlain r i v.toNat
      if t.get F.PCIE_STATUS.RING_ERR i = 0 then t.ringsResume ((List.range 4).map (fun k => (.pcieDma, 4 * i + k))) else t
    else if [R.PCIE_BAR2_XLAT_LO.off, R.PCIE_BAR2_XLAT_HI.off, R.PCIE_BAR2_CTRL.off].contains r.off then
      s.xlatWrite R.PCIE_BAR2_XLAT_LO R.PCIE_BAR2_XLAT_HI R.PCIE_BAR2_CTRL r i (i / 2) v
    else if [R.PCIE_IN_XLAT_LO.off, R.PCIE_IN_XLAT_HI.off, R.PCIE_IN_CTRL.off].contains r.off then
      s.xlatWrite R.PCIE_IN_XLAT_LO R.PCIE_IN_XLAT_HI R.PCIE_IN_CTRL r i i v
    else s.writePlain r i v.toNat

/-- Network registers (R149). -/
def State.nocAct (s : State) (r : RegRow) (i : Nat) (v : Word) : State :=
  if r.off = R.NOC_INIT_CFG.off then (s.writePlain r i v.toNat).pump i
  else if r.off = R.NOC_RATE_VC0.off then s.rateWrite i 0 v
  else if r.off = R.NOC_RATE_VC1.off then s.rateWrite i 1 v
  else if r.off = R.NOC_STAT_CLR.off then (if bitAt v.toNat 0 then s.nocClear i else s)
  else s.writePlain r i v.toNat

/-- Dispatcher registers (R173). -/
def State.tskAct (s : State) (a : Accessor) (via : WriteVia) (r : RegRow) (i v : Nat) : State :=
  if r.off = R.TSK_SUBMIT_GO.off then (if bitAt v 0 then s.submitGo a via i else s)
  else if r.off = R.TSK_SIGNAL.off then s.afterReady (s.signal i (v % 2 ^ 14)) i
  else if r.off = R.TSK_CQ_IDX.off then ((s.writePlain r i v).cqPump (i / 16)).dispFlags (i / 16)
  else if r.off = R.TSK_CQ_CFG.off then s.cqCfgWrite i v
  else if r.off = R.TSK_CQ_BASE_LO.off then s.cqBaseWrite false i v
  else if r.off = R.TSK_CQ_BASE_HI.off then s.cqBaseWrite true i v
  else if r.off = R.TSK_FLUSH.off then s.afterReady (s.flushTasks i (v % 2 ^ 16)).2 i
  else if r.off = R.TSK_CTRL.off then s.tskCtrlWrite i v
  else if r.off = R.TSK_STAT_CLR.off then
    if bitAt v 0 then
      [R.TSK_DISPATCHED_LO, R.TSK_DISPATCHED_HI, R.TSK_LATE_RISK, R.TSK_VARIANTS, R.TSK_DROPS, R.TSK_LATE_DONE].foldl
        (fun t x => t.setReg x i 0) s
    else s
  else if r.off = R.TSK_TICK.off then s.tickWrite i v
  else s.writePlain r i v

/-- Cluster and core registers (R210). -/
def State.tahrAct (s : State) (r : RegRow) (i v : Nat) : State :=
  if r.sel = .tc then s.tcWrite (i / r.n) r (i % r.n) v
  else if r.off = R.CL_CTRL.off then (if bitAt v 0 then s.clusterReset i else s)
  else s.writePlain r i v

/-- The register belongs to an engine of this type (R274). -/
def engineHas (r : RegRow) (t : Nat) : Bool :=
  if r.off = R.ACC_ENG_ITEMS_LO.off ∨ r.off = R.ACC_ENG_ITEMS_HI.off then decide (5 ≤ t)
  else if r.off = R.ACC_ENG_SAT_CNT.off then t == 5 || t == 6
  else if r.off = R.ACC_ENG_MTX_CFG.off ∨ r.off = R.ACC_ENG_ILL_CNT.off then t == 6
  else if r.off = R.ACC_ENG_PRACH_CFG.off ∨ r.off = R.ACC_ENG_PRACH_DET.off then t == 7
  else true

/-- Accelerator registers (R255, R274). -/
def State.accAct (s : State) (r : RegRow) (i v : Nat) : State :=
  if r.sel = .eng ∧ engineHas r (engineType i) = false then s
  else if r.off = R.ACC_ENG_CTRL.off then s.engCtrlWrite i v
  else if r.off = R.ACC_ENG_STAT_CLR.off then s.engStatClr i v
  else if r.off = R.ACC_ENG_ERR.off then s.engErrWrite i v
  else if r.off = R.ACC_ENG_HARQ_CFG.off then s.harqCfgWrite i v
  else if [R.ACC_ENG_HARQ_BASE_LO.off, R.ACC_ENG_HARQ_BASE_HI.off, R.ACC_ENG_HARQ_STRIDE.off].contains r.off then
    s.harqPlaceWrite r i v
  else s.writePlain r i v

/-- A write of SCRUB_CTRL (R289, R290): EN and INTERVAL, then RANGE_GO or RANGE_ABORT. -/
def State.scrubWrite (s : State) (g v : Nat) : State :=
  let t := ((s.lapSync g).writePlain R.SCRUB_CTRL g v).lapGate g
  let t := if bitAt v 1 then t.rangeGo g else t
  if bitAt v 2 then t.rangeAbort g else t

/-- Memory registers (R294, R316). -/
def State.memAct (s : State) (r : RegRow) (i : Nat) (v : Word) : State :=
  if r.off = R.ECC_TBL_CLR.off then (if bitAt v.toNat 0 then s.tblClear i else s)
  else if r.off = R.ECC_CNT_CLR.off then (if bitAt v.toNat 0 then s.cntClear else s)
  else if r.off = R.ECC_NODE_FLAGS.off then
    (if bitAt v.toNat 0 ∧ i < 2 ^ 24 then s.setNode i { s.node i with stale := false } else s)
  else if r.off = R.SCRUB_CTRL.off then s.scrubWrite i v.toNat
  else if r.off = R.CIPH_REGION_CTRL.off then s.ciphCtrl i v
  else if r.off = R.HBM_ERR_INFO.off then
    (if bitAt v.toNat 31 then ((s.setReg R.HBM_ERR_INFO 0 0).setReg R.HBM_ERR_ADDR_LO 0 0).setReg R.HBM_ERR_ADDR_HI 0 0 else s)
  else if r.sel = .ciph ∧ s.isSet F.CIPH_REGION_CTRL.EN i = true then s
  else s.writePlain r i v.toNat

/-- Configuration and fabric registers (R351, R381). -/
def State.cfgAct (s : State) (r : RegRow) (i v : Nat) : State :=
  if r.off = R.PR_REGION_CTRL.off then (if bitAt v 0 then s.regionReset i else s)
  else if [R.PR_HOST_ADDR_LO.off, R.PR_HOST_ADDR_HI.off, R.PR_HOST_LEN.off].contains r.off then
    (if s.hostBoot then s.writePlain r i v else s)
  else if r.off = R.PR_HOST_CTRL.off then s.hostCtrlWrite v
  else if r.off = R.CFG_FAIL.off then (if bitAt v 31 then (s.setReg R.CFG_FAIL 0 0).setReg R.CFG_FAIL_POS 0 0 else s)
  else if r.off = R.CFG_LOST_ADDR.off then (if bitAt v 31 then s.setReg R.CFG_LOST_ADDR 0 0 else s)
  else if r.off = R.BM_STATUS.off then s.bmStatusWrite i v
  else if r.off = R.BM_COLL_CLR.off then
    if bitAt v 8 then
      ((List.range 128).foldl (fun u b => u.put F.BM_STATUS.COLL (128 * (v % 64) + b) 0) s).bmCollSum (v % 64)
    else s
  else if r.off = R.PR_FP_CTRL.off then s.fpCtrlWrite i v
  else if r.off = R.PR_FP_KEYMASK_LO.off ∨ r.off = R.PR_FP_KEYMASK_HI.off then s.fpMaskWrite r i v
  else s.writePlain r i v

/-- Debug and trace registers (R467, R473, R478). -/
def State.dbgAct (s : State) (a : Accessor) (r : RegRow) (i : Nat) (v : Word) : State :=
  if r.off = R.DBG_CORE_CTRL.off then
    let t := if bitAt v.toNat 0 then s.requestHalt i 1 0 else s
    let t := if bitAt v.toNat 1 ∧ t.agentHalted i = true ∧ t.agentOpen i = true then t.resumeAgent i else t
    if bitAt v.toNat 2 ∧ i < 256 ∧ t.agentHalted i = true ∧ (t.core i).task.isSome = true
    then t.setCore i { t.core i with stepping := true } else t
  else if r.off = R.DBG_REG_DATA.off then s.dbgRegWrite a (i / 4) (i % 4) v.toNat
  else if r.off = R.DBG_CORE_PC.off then s.dbgPcWrite i v.toNat
  else if r.off = R.DBG_WARM_KEY.off then s.warmKey v.toNat
  else if r.off = R.TRC_CTRL.off then s.trcCtrlWrite v
  else s.writePlain r i v.toNat

/-- Mailbox registers (R41, R46, R60). -/
def State.mbxAct (s : State) (r : RegRow) (i : Nat) (v : Word) : State :=
  let b := Fin.ofNat 8 i
  if r.off = R.MBX_DOORBELL.off then s.doorbell i (v.toNat % 256)
  else if r.off = R.MBX_RSP_CONS.off then s.rspCons b (v.toNat % 256)
  else if r.off = R.MBX_CTRL.off then s.mbxCtrlWrite b v
  else s.writePlain r i v.toNat

/-- What a write does to instance `i` of a register. -/
def State.regAct (s : State) (a : Accessor) (via : WriteVia) (r : RegRow) (i : Nat) (v : Word) : State :=
  match r.off / 0x100000 with
  | 1 => s.mbxAct r i v
  | 2 => s.pwrAct r i v.toNat
  | 3 => s.clkAct r i v.toNat
  | 4 => s.timeAct a r i v
  | 5 => s.laneAct r i v
  | 6 => s.nocAct r i v
  | 7 => s.tskAct a via r i v.toNat
  | 8 => s.tahrAct r i v.toNat
  | 9 => s.accAct r i v.toNat
  | 10 => s.memAct r i v
  | 11 => s.cfgAct r i v.toNat
  | 13 => if r.off = R.ERR_STATUS.off then s.writeErrStatus v else s.writePlain r i v.toNat
  | 14 => s.dbgAct a r i v
  | _ => s.writePlain r i v.toNat

/-- The offset lies in a mailbox window (R39). -/
def mailboxWindow (off : Nat) : Bool := decide (0x100000 ≤ off ∧ off < 0x180000)

/-- A write of a register word at byte offset `off` inside a block (R14, R17, R39, R61 to R63, R70, R72). An unassigned offset of
a mailbox window is its owner's alone to write too. -/
def State.regWrite (s : State) (a : Accessor) (core : Nat) (via : WriteVia) (off : Nat) (v : Word) : State :=
  match regLookup off with
  | none =>
    let s := s.ungate (off / 0x100000)
    if mailboxWindow off = true ∧ a ≠ .chamois ∧ a ≠ mailboxOwner (off / 0x10000 % 16) then s.violate off a else s
  | some (r, e) =>
    if r.off = R.DEV_OWN_VIOL.off then (if bitAt v.toNat 31 then s.clearViolation else s)
    else if r.off = R.TOD_CTRL.off then s.todCtrlWrite a core v
    else if r.off = R.DBG_WARM_KEY.off ∧ a ≠ .debugger then
      { s with dbg := { s.dbg with key := none } }.ownedWrite a core r e (fun _ t => t)
    else s.ownedWrite a core r e (fun i t => t.regAct a via r i v)

/-! ### Reads -/

/-- The head of a MAC's stamp FIFO (R82). -/
def State.stampHead (s : State) (m : Nat) : Option Stamp := (s.time.txFifo.get [] m).head?

/-- Time, lane and network registers that show other state. -/
def State.readLinks (s : State) (r : RegRow) (i : Nat) : Option Nat :=
  if r.off = R.TSU_STATUS.off then some (s.time.txFifo.get [] i).length
  else if r.off = R.TSU_TX_ID.off then
    some (match s.stampHead i with
      | some x => x.id.toNat + x.sub.toNat * 2 ^ 16 + bit x.valid * 2 ^ 30 + 2 ^ 31
      | none => 0)
  else if r.off = R.TSU_TX_SEC_LO.off then some (match s.stampHead i with | some x => x.sec % 2 ^ 32 | none => 0)
  else if r.off = R.TSU_TX_NS.off then some (match s.stampHead i with | some x => x.ns % 2 ^ 30 | none => 0)
  else if r.off = R.LANE_EQ_TAP.off then some (s.links.taps.get 0 (s.tapKey i)).toNat
  else if r.off = R.FH_FLOW_INFO.off then some (s.flowInfo i)
  else if r.off = R.NOC_INIT_STATUS.off then some (s.initStatus i)
  else if r.off = R.NOC_BRIDGE_STATUS.off then some (bitsSet (s.reg r i) 0 1 (s.get F.CLK_LOOP_STATUS.LOCK 0))
  else none

/-- Dispatcher, Tahr and accelerator registers that show other state. -/
def State.readCompute (s : State) (r : RegRow) (i : Nat) : Option Nat :=
  if r.off = R.TSK_PACE.off then
    let q := i / 64
    let e := i % 64
    some (if e < 8 then s.get F.CL_PACE.PACE (8 * q + e) else if e < 34 then s.enginePace (26 * q + (e - 8)) else 0)
  else if r.off = R.TSK_STATUS.off then some (bitsSet (s.reg r i) 3 1 (bit (s.offWait i)))
  else if r.sel = .tc then some (s.tcRead (i / r.n) r (i % r.n))
  else if r.off = R.CL_STATUS.off then
    some ((List.range 8).foldl (fun v j => v + bit (s.coreState (8 * i + j) == 1) * 2 ^ j +
      bit (s.coreHalted (8 * i + j)) * 2 ^ (8 + j)) 0 + bit (s.domState (domCluster i) == 2) * 2 ^ 16)
  else if r.off = R.ACC_ENG_STATE.off then some (s.engStateReg i)
  else if r.sel = .eng ∧ engineHas r (engineType i) = false then some 0
  else none

/-- Memory registers that show other state (R285, R286, R292, R313, R316). -/
def State.readMemory (s : State) (r : RegRow) (i : Nat) : Option Nat :=
  if r.off = R.ECC_TBL_ADDR.off then
    some (match (s.grp (i / 16)).tbl[i % 16]? with | some e => e.word + 2 ^ 31 | none => 0)
  else if r.off = R.ECC_TBL_INFO.off then
    some (match (s.grp (i / 16)).tbl[i % 16]? with
      | some e => e.syn.toNat + bit e.rebuilt * 2 ^ 9 + e.count * 2 ^ 16 | none => 0)
  else if r.off = R.ECC_NODE_CORR_LO.off then some ((s.node i).corr % 2 ^ 32)
  else if r.off = R.ECC_NODE_CORR_HI.off then some ((s.node i).corr / 2 ^ 32)
  else if r.off = R.ECC_NODE_UNCORR_LO.off then some ((s.node i).uncorr % 2 ^ 32)
  else if r.off = R.ECC_NODE_UNCORR_HI.off then some ((s.node i).uncorr / 2 ^ 32)
  else if r.off = R.ECC_NODE_FLAGS.off then
    let l := i / 2 ^ 24
    some (bit (s.node i).stale + bit ((s.node i).partialCnt || s.leafStale l (i % 2 ^ 24)) * 2)
  else if r.off = R.SCRUB_STATUS.off then
    some (if s.lapLate i (s.lapNow i) then bitsSet (s.reg r i) 0 1 1 else s.reg r i)
  else if r.off = R.SCRUB_SUM_NS.off then
    some (if s.isSet F.SCRUB_STATUS.RANGE_BUSY i then s.rangeNow i else s.reg r i)
  else if r.off = R.ECC_REPAIR_INFO.off then
    some (match (s.grp (i / 16)).repairs[i % 16]? with
      | some e => e.word + e.spare * 2 ^ 24 + e.source * 2 ^ 28 + 2 ^ 31 | none => 0)
  else if r.off = R.HBM_STATUS.off then
    some (bitsSet (s.reg r i) 4 2 (bit (s.domState 0xC0 != 2) + bit (s.domState 0xC1 != 2) * 2))
  else if r.off = R.HBM_PC_STATUS.off then some (bitsSet (s.reg r i) 1 1 (s.reg R.HBM_PC_CTRL i % 2))
  else if r.off = R.CIPH_KEYS_LO.off then some (s.cipherKeys % 2 ^ 32)
  else if r.off = R.CIPH_KEYS_HI.off then some (s.cipherKeys / 2 ^ 32)
  else none

/-- Configuration, Gauntlet, error and debug registers that show other state. -/
def State.readSystem (s : State) (a : Accessor) (r : RegRow) (i : Nat) : Option Nat :=
  if r.off = R.CFG_IO_IN.off then some (s.ioIn i)
  else if r.off = R.PR_FP_STATUS.off then some (bitsSet (bitsSet (s.reg r i) 4 1 (bit (s.clkStop i))) 16 9 (s.rspLevel i))
  else if r.off = R.SEC_LIFECYCLE.off then some s.secLifecycle
  else if r.off = R.SEC_FUSE_STATUS.off then some s.secFuseStatus
  else if r.off = R.SEC_ARB.off then some s.secArb
  else if r.off = R.SEC_KEYRAM.off then some s.secKeyRam
  else if r.off = R.SEC_TAMPER.off then some (bitsSet (s.reg r i) 1 1 (Config.undefinedBits 1 s.free).toNat)
  else if r.off = R.FUSE_SERIAL_LO.off then some (Config.serial.toNat % 2 ^ 32)
  else if r.off = R.FUSE_SERIAL_HI.off then some (Config.serial.toNat / 2 ^ 32)
  else if r.off = R.FUSE_SPOILED.off then some s.sec.fuses.spoiled
  else if r.off = R.ERR_STATUS.off then
    some (s.reg r i % 32 + bit (decide (1024 ≤ s.err.log.length)) * 32 + s.err.log.length * 2 ^ 16)
  else if r.off = R.ERR_LOG_SEQ.off then
    some ((match s.err.log with | e :: _ => e.seq | [] => s.err.next) + s.err.next * 2 ^ 16)
  else if r.off = R.ERR_Q_STATUS.off then
    some ((s.err.colls.get [] i).length + ((s.err.colls.get [] i).filter (fun e => e.closed != 0)).length * 2 ^ 16)
  else if r.off = R.DBG_STATUS.off then some (bitsSet (s.reg r i) 0 2 s.debugLevel)
  else if r.off = R.SEC_DBG_STATUS.off then some (bitsSet (s.reg r i) 0 2 s.debugLevel)
  else if r.off = R.DBG_CORE_PC.off then some (if i < 256 then (s.core i).pc else s.reg r i)
  else if r.off = R.DBG_REG_DATA.off then some (s.dbgRegRead a (i / 4) (i % 4))
  else if r.off = R.TRC_BUF_DATA.off then some (s.traceBufWord a (i % 4))
  else none

/-- The value instance `i` of a register reads as: WO and reserved bits 0 (R14, R15). -/
def State.regValue (s : State) (a : Accessor) (r : RegRow) (i : Nat) : Nat :=
  let v := match r.off / 0x100000 with
    | 4 => s.readLinks r i
    | 5 => s.readLinks r i
    | 6 => s.readLinks r i
    | 7 => s.readCompute r i
    | 8 => s.readCompute r i
    | 9 => s.readCompute r i
    | 10 => s.readMemory r i
    | _ => s.readSystem a r i
  v.getD (s.reg r i) &&& readMask r

/-- A read of a register word at byte offset `off` inside a block: its value and the state after; a debug read clears no RC
field (R15, R36, R39, R383, R464). -/
def State.regRead (s : State) (a : Accessor) (core : Nat) (off : Nat) (debug : Bool) : Nat × State :=
  let s := s.ungate (off / 0x100000)
  match regLookup off with
  | none => (0, s)
  | some (r, e) =>
    match s.instOf a core r e with
    | none => (0, s)
    | some i =>
      if s.dbgBlocked a r then (0, s)
      else if r.sel = .mbx ∧ a ≠ .chamois ∧ a ≠ .debugger ∧ s.mayWrite a r i = false then (0, s)
      else if s.regAway r i then (resetOf r i &&& readMask r, s)
      else
        let v := s.regValue a r i
        let s := if r.off = R.SEC_TAMPER.off then { s with free := s.free + 1 }
          else if r.off = R.DBG_REG_DATA.off then s.dbgRegReadNote (i / 4) else s
        (v, if debug then s else s.setReg r i (readClear r (s.reg r i)))

/-! ### The checks before a register access (R13, R35, R463) -/

/-- The debugger is below the level its register access needs (R463). -/
def State.dbgClosed (s : State) (a : Accessor) (off : Nat) : Bool :=
  a == .debugger && s.debugLevel == 0 && !(decide (0x170000 ≤ off) && decide (off < 0x180000))

/-- The code an access of `size` bytes to register space meets: size and alignment first (R13), then the map (R35); 0 where it
is performed. -/
def State.regCode (s : State) (a : Accessor) (size off : Nat) : Nat :=
  if size ≠ 4 ∨ off % 4 ≠ 0 then 2 else if 0xF00000 ≤ off ∨ s.dbgClosed a off = true then 1 else 0

/-- Endpoint a posted register write's failure names as its requester (R452). Accessors with no endpoint of their own are
named by the register hub's (DESIGN CHOICE, log 67). -/
def accEndpoint (a : Accessor) (core : Nat) : Nat :=
  match a with
  | .host0 => epPcie 0
  | .host1 => epPcie 0
  | .tahr => epCore core
  | .debugger => epDebug
  | .chamois => epChamois
  | _ => epHub

/-- A write of 1 to TSK_SUBMIT_GO: answered once its descriptor is taken or refused (R153). -/
def goWrite (a : Accessor) (off : Nat) (v : Word) : Bool := off == R.TSK_SUBMIT_GO.off && bitAt v.toNat 0 && accBanked a

/-- A GO write that a full pool holds unanswered (R154). -/
def State.goHeld (s : State) (a : Accessor) (off : Nat) (v : Word) : Bool :=
  goWrite a off v &&
    ((s.dsp (s.sel a F.TSK_SEL.QUAD)).free == 0 || !(s.dsp (s.sel a F.TSK_SEL.QUAD)).ingress.isEmpty)

/-- REGISTER_WRITE (R12 to R17, R35). -/
def execRegisterWrite (acc : Accessor) (core : Fin 256) (size : Nat) (posted : Bool) (off : BitVec 26) (v : Word) (s : State) :
    Host.Outcome State Fault Refusal :=
  let c := s.regCode acc size off.toNat
  if s.asleep acc then .next s
  else if c ≠ 0 then
    .next (if posted then s.postedFailed .log (accEndpoint acc core.val) c (baseRegs + off.toNat) else s.regAnswer acc c)
  else
    let via : WriteVia := if posted then { poster := some (accEndpoint acc core.val) } else { answer := some acc }
    let t := s.regWrite acc core.val via off.toNat v
    .next (if posted || goWrite acc off.toNat v then t else t.regAnswer acc 0)

end Sys2Proof.Machine
end

