-- ==== Sys2Proof/Machine/AntlerTarget.lean ====
section
/-! DEFINITION. What an Antler packet does where it arrives (R131 to R146): requests at memories, register space, fabric
ports and remote windows, messages, and responses at the initiators that await them. A packet that its target holds back
(R145, R305, R387, R426) stays in the network: its command then leaves the state unchanged. -/

namespace Sys2Proof.Machine

/-! ### Targets -/

/-- SOURCE of the register hub (R451). -/
def srcHub : Nat := src 0 6

/-- SOURCE of a target (R451). -/
def State.targetSource (s : State) (p : Packet) (t : Target) : Nat :=
  match t with
  | .hbm pc => src 0x04 pc
  | .scratch c => src 0x03 (c * 256)
  | .core n => src 0x01 n
  | .engine e => src 0x02 e
  | .port k => srcPort k
  | .regs => srcHub
  | .chamoisMem => srcFirmware
  | .gauntletMem => srcGauntlet
  | .window w => srcChl (s.get F.CHL_WIN_CTRL.ENGINE w)
  | .unmapped => src 0x12 p.dest.toNat

/-- The target of a request: a MESSAGE to a core goes to the core wherever in its window it points (R132). -/
def pktTarget (p : Packet) : Target :=
  if p.cmd.toNat = cmdMessage then
    (match coreWindow p.addr.toNat with | some n => .core n | none => decodeAddr p.addr.toNat)
  else decodeAddr p.addr.toNat

/-- Runs an arriving request against its target's domain (R385 to R389, R426): `serve` where the domain serves it. None where
the request waits in the network. -/
def State.atDomain (s : State) (p : Packet) (t : Target) (serve : State → Option State) : Option State :=
  let reset := match t with
    | .scratch c => s.clReset.get 0 c != 0
    | .core n => s.clReset.get 0 (n / 8) != 0
    | _ => false
  if reset then none
  else match s.targetDom t with
  | none => serve s
  | some d =>
    match s.domCode d with
    | 0 => serve (s.touchDomain d)
    | 0xB => some (s.targetRefuse p (srcDomain d) 0xB)
    | 0xA => some (s.wakeRefuse d p)
    | _ => s.park d p

/-- Ends a request whose failure its memory has already recorded (R309): an error response, or nothing more. -/
def State.quietRefuse (s : State) (p : Packet) (code : Nat) : State :=
  if expectsResponse p.cmd.toNat then s.respondError p code else s

/-- The code a request to a memory ended with: the early checks refuse with an event of their own, a failed partial write
has recorded its event (R305, R309, R452). -/
def State.memRefuse (s t : State) (p : Packet) (tgt : Target) (code : Nat) : State :=
  match tgt with
  | .hbm _ => if s.hbmCheck p.addr.toNat p.key.toNat = 0 ∧ (code = 0x9 ∨ code = 0xE) then t.quietRefuse p code
      else t.targetRefuse p (s.targetSource p tgt) code
  | _ => t.targetRefuse p (s.targetSource p tgt) code

/-- Storage word of a request's first unit. -/
def pktWord (p : Packet) : Nat := p.addr.toNat / 16

/-- The units of a write: byte enables apply to the first alone (R134). -/
def writeUnits (p : Packet) : List WUnit :=
  p.data.mapIdx (fun k u => { w := pktWord p + k, be := if k = 0 then p.be.toNat else 65535, data := u.data, poison := u.poison })

/-- Register-space offset a packet names, where its length and byte enables meet R13 and R221. -/
def regOffsetOf (p : Packet) : Option Nat :=
  if p.len = 0 ∧ p.wide = false then (beGroup p.be.toNat).map (fun g => (p.addr.toNat - baseRegs) / 16 * 16 + 4 * g) else none

/-! ### Reads and writes (R134) -/

/-- A read of register space (R13, R15, R35): the word in its place in the unit; the unit's other bytes are a free value. -/
def State.readRegs (s : State) (p : Packet) : State :=
  let a := pktAccessor p
  match regOffsetOf p with
  | none => s.targetRefuse p srcHub 2
  | some off =>
    let c := s.regCode a 4 off
    if c ≠ 0 then s.targetRefuse p srcHub c
    else
      let (v, t) := s.regRead a (pktCore p) off (p.debug || p.cmd.toNat == cmdDebugRead)
      let u := bitsSet (Config.undefinedBits 128 t.free).toNat (8 * (off % 16)) 32 v
      { t with free := t.free + 1 }.respondData p [⟨BitVec.ofNat 128 u, false⟩]

/-- A write of register space (R13, R35, R137, R154): poisoned data writes nothing; a GO write that a full pool holds waits. -/
def State.writeRegs (s : State) (p : Packet) : Option State :=
  let a := pktAccessor p
  match regOffsetOf p with
  | none => some (s.targetRefuse p srcHub 2)
  | some off =>
    let c := s.regCode a 4 off
    let v := BitVec.ofNat 32 (bitsOf (p.data.headD ⟨0, false⟩).data.toNat (8 * (off % 16)) 32)
    if c ≠ 0 then some (s.targetRefuse p srcHub c)
    else if pktPoison p then some (s.targetRefuse p srcHub 0xD)
    else if s.goHeld a off v then none
    else
      let posted := !expectsResponse p.cmd.toNat
      let t := s.regWrite a (pktCore p) { poster := if posted then some p.src.toNat else none } off v
      some (if posted then t else t.respondDone p)

/-- A read reaches its target. -/
def State.serveRead (s : State) (p : Packet) (t : Target) : Option State :=
  match t with
  | .regs => some (s.readRegs p)
  | .port k => s.portArrive k p
  | .window w => s.chlForward w p
  | t =>
    let (c, ds, u) := s.memRead (pktWord p) (p.len.toNat + 1) p.key.toNat p.src.toNat
    if c = codeWaits then none
    else if c = 0 then some (u.respondData p ds)
    else some (s.memRefuse u p t c)

/-- A write reaches its target. -/
def State.serveWrite (s : State) (p : Packet) (t : Target) : Option State :=
  match t with
  | .regs => s.writeRegs p
  | .port k => s.portArrive k p
  | .window w => s.chlForward w p
  | t =>
    let (c, u) := s.memWrite (writeUnits p) p.key.toNat p.src.toNat
    if c = codeWaits then none
    else if c = 0 then some (if expectsResponse p.cmd.toNat then u.respondDone p else u)
    else some (s.memRefuse u p t c)

/-- An atomic reaches its target (R135). -/
def State.serveAtomic (s : State) (p : Packet) (t : Target) : Option State :=
  match t with
  | .window w => s.chlForward w p
  | .port k => some (s.targetRefuse p (srcPort k) (if s.portActive k then 5 else 1))
  | t =>
    let (c, d, u) := s.memAtomic p.addr.toNat p.key.toNat p.src.toNat (p.data.getD 0 ⟨0, false⟩) (p.data.getD 1 ⟨0, false⟩)
    if c = codeWaits then none
    else if c = 0 then some (u.respondData p [d])
    else some (s.memRefuse u p t c)

/-! ### Messages (R132, R134, R209) -/

/-- Storage word of unit `k` of slot `i` of core `n`'s inbox. TC_INBOX_BASE lies in X memory; a unit that would fall outside
X is not stored (DESIGN CHOICE, log 68). -/
def State.inboxWord (s : State) (n i k : Nat) : Option Nat :=
  match localOf (s.get F.TC_INBOX_BASE.ADDR n * 16 + 272 * i + 16 * k) with
  | .x o => some ((baseCore + n * 0x100000 + 0x40000 + o) / 16)
  | _ => none

/-- A message reaches a core's inbox: none while the ring is full or disabled. -/
def State.inboxPut (s : State) (n : Nat) (p : Packet) : Option State :=
  let size := 2 ^ min 6 (s.get F.TC_INBOX_BASE.SIZE n)
  let prod := s.get F.TC_INBOX_IDX.PROD n
  if s.coreBusy n = true ∨ s.inboxFull n = true then none
  else
    let head : DataUnit := ⟨BitVec.ofNat 128 (p.src.toNat + p.data.length * 2 ^ 10 + p.tag.toNat * 2 ^ 16 +
      bit (pktPoison p) * 2 ^ 26), false⟩
    let units := (head :: p.data).mapIdx (fun k u => (k, u))
    let t := units.foldl (fun u (k, d) => match u.inboxWord n (prod % size) k with
      | some w => u.ocWrite w 65535 d.data d.poison
      | none => u) s
    some ((t.put F.TC_INBOX_IDX.PROD n (prod + 1)).coreIrq n 2)

/-- A message reaches its target. -/
def State.serveMessage (s : State) (p : Packet) (t : Target) : Option State :=
  match t with
  | .core n => s.inboxPut n p
  | .port k => s.portArrive k p
  | .window w => s.chlForward w p
  | .hbm pc =>
    if s.hbmReady pc = false then none
    else
      let c := s.hbmCheck p.addr.toNat p.key.toNat
      some ((s.countDenied p.addr.toNat c).targetRefuse p (src 0x04 pc) (if c ≠ 0 then c else 5))
  | t => some (s.targetRefuse p (s.targetSource p t) 5)

/-- Runs a request row: the packet is in the network, carries the row's command and reaches its target. -/
def State.arriveRequest (s : State) (p : Packet) (cmd : Nat) (ups : List Upset) (serve : State → Target → Option State) : State :=
  if p.cmd.toNat = cmd ∧ s.arrives p = true then
    let t := pktTarget p
    match ((s.takePacket p).strike ups).atDomain p t (fun u => serve u t) with
    | some u => u
    | none => s
  else s

/-- READ (R134). -/
def execRead (p : Packet) (ups : List Upset) (s : State) : Host.Outcome State Fault Refusal :=
  .next (s.arriveRequest p cmdRead ups (fun u t => u.serveRead p t))

/-- WRITE (R134). -/
def execWrite (p : Packet) (ups : List Upset) (s : State) : Host.Outcome State Fault Refusal :=
  .next (s.arriveRequest p cmdWrite ups (fun u t => u.serveWrite p t))

/-- POSTED_WRITE (R134). -/
def execPostedWrite (p : Packet) (ups : List Upset) (s : State) : Host.Outcome State Fault Refusal :=
  .next (s.arriveRequest p cmdPosted ups (fun u t => u.serveWrite p t))

/-- ATOMIC (R135). -/
def execAtomic (p : Packet) (ups : List Upset) (s : State) : Host.Outcome State Fault Refusal :=
  .next (s.arriveRequest p cmdAtomic ups (fun u t => u.serveAtomic p t))

/-- MESSAGE (R134, R209). -/
def execMessage (p : Packet) (s : State) : Host.Outcome State Fault Refusal :=
  .next (s.arriveRequest p cmdMessage [] (fun u t => u.serveMessage p t))

/-- DEBUG_READ (R134, R464): no side effect on the data or state it reads. -/
def execDebugRead (p : Packet) (s : State) : Host.Outcome State Fault Refusal :=
  .next (s.arriveRequest p cmdDebugRead [] (fun u t => u.serveRead p t))

/-- DEBUG_WRITE (R134). -/
def execDebugWrite (p : Packet) (s : State) : Host.Outcome State Fault Refusal :=
  .next (s.arriveRequest p cmdDebugWrite [] (fun u t => u.serveWrite p t))

/-! ### Responses (R136, R146) -/

/-- A dispatcher awaits this response: VARIANT_FETCH_COMPLETE or CQ_ENTRY_WRITTEN takes it (R161, R169). -/
def State.dispAwaits (s : State) (q : Nat) (p : Packet) : Bool :=
  (s.dsp q).pool.any (fun t => t.fetch == some p.tag) || (s.dsp q).writes.any (fun w => w.tag == p.tag && !w.done)

/-- The initiator an arrived response is handed to: a core, a PCIe controller, a fabric port, a link engine, or the record of
arrived responses. None where the command does not act: inside a bundle, which is one step of its core and sees no arrival, and
for a response whose own command delivers it (R161, R169). No response holds its endpoint (R145): see `Worm.holds`. -/
def State.handResponse (s : State) (p : Packet) : Option State :=
  let e := p.dest.toNat
  match coreOfEp e with
  | some n => if (s.core n).slot = 0 then some (s.coreResponse n p) else none
  | none =>
    match quadOfDispatcher e with
    | some q => if s.dispAwaits q p then none else some s
    | none =>
      if e = epPcie 0 then some (s.hostResponse 0 p)
      else if e = epPcie 1 then some (s.hostResponse 1 p)
      else match findBelow 128 (fun k => epPort k == e) with
      | some k => some (s.portResponse k p)
      | none =>
        match s.chlOwner p with
        | some f => some (s.chlReturn f p)
        | none => some { s with net := { s.net with arrived := p :: s.net.arrived } }

/-- Runs a response row: a response in the network reaches its initiator, which frees its reservation (R146); one that a
remote device sends over an up link enters the network (R121). -/
def State.arriveResponse (s : State) (p : Packet) (cmd : Nat) : State :=
  if p.cmd.toNat ≠ cmd then s
  else if s.arrives p then
    match (s.takeResponse p).handResponse p with
    | some t => t
    | none => s
  else match s.chlAnswered p with
  | none => s
  | some (f, q) =>
    let c := s.chl f
    (s.setChl f { c with fwd := c.fwd.erase q }).sendPacket
      { p with src := q.dest, vc := 2, tag := q.tag, key := q.key, ordered := q.ordered, secure := false, debug := false
               poison := pktPoison p, acc := q.acc }

/-- READ_RESPONSE (R134, R146). -/
def execReadResponse (p : Packet) (s : State) : Host.Outcome State Fault Refusal := .next (s.arriveResponse p cmdReadRsp)

/-- WRITE_RESPONSE (R134, R146). -/
def execWriteResponse (p : Packet) (s : State) : Host.Outcome State Fault Refusal := .next (s.arriveResponse p cmdWriteRsp)

/-- ERROR_RESPONSE (R134, R137, R146). -/
def execErrorResponse (p : Packet) (s : State) : Host.Outcome State Fault Refusal := .next (s.arriveResponse p cmdErrorRsp)

end Sys2Proof.Machine
end

