-- ==== Sys2Proof/Machine/CmdInfo.lean ====
section
/-! DEFINITION. The mailbox commands HELLO, INFO, BYE, POWER and TIME (R51, R52, R57, R68, R75 to R78, R88, R91, R385 to R391). -/

namespace Sys2Proof.Machine

/-! ### Sessions (R50 to R52) -/

/-- The highest version of [min, max] and [1, 3]; 0 where they have none in common (R51). -/
def commonVersion (lo hi : Nat) : Nat := if lo ≤ min hi 3 ∧ 1 ≤ min hi 3 then min hi 3 else 0

/-- Commands of a mailbox taken before command `t` and still to be answered. -/
def State.earlier (s : State) (t : Taken) : Bool :=
  s.mbx.started.any (fun u => u.box == t.box && decide (u.id < t.id) && !u.discard)

/-- Firmware answers a HELLO (R51). -/
def State.helloRun (s : State) (t : Taken) : State :=
  let v := commonVersion (fld t.msg 0 8) (fld t.msg 1 8)
  if t.msg.ver ≠ 0 then s.finish t stVersion 0 {}
  else if t.msg.len.toNat < 2 ∨ 56 < t.msg.len.toNat then s.finish t stLength 0 {}
  else if v = 0 then s.finish t stVersion 0 {}
  else
    let s := if t.discard then s else (s.put F.MBX_STATUS.SESSION t.box.val 1).put F.MBX_STATUS.VERSION t.box.val v
    s.finish t stOK 0 (pack 8 [(0, 8, v), (1, 8, 32), (4, 32, s.reg R.DEV_FW_VERSION 0)])

/-- HELLO (R51, R52): a renegotiation is answered once every earlier command of its mailbox is. -/
def execHello (b : Fin 8) (m : Msg) (s : State) : Host.Outcome State Fault Refusal :=
  .next (s.runTaken b opHello m (fun t s =>
    if s.isSet F.MBX_STATUS.SESSION b.val = true ∧ s.earlier t = true then s else s.helloRun t))

/-- BYE (R57): the session ends after it has been answered. -/
def execBye (b : Fin 8) (m : Msg) (s : State) : Host.Outcome State Fault Refusal :=
  .next (s.runTaken b opBye m (fun t s =>
    let s := s.finish t stOK 0 {}
    if t.discard then s else s.endSession b.val))

/-! ### INFO (R57) -/

/-- INFO_DEVICE. -/
def execInfoDevice (b : Fin 8) (m : Msg) (s : State) : Host.Outcome State Fault Refusal :=
  .next (s.runCmd b opInfoDevice m (fun s => .ok s (pack 32
    [(0, 32, s.reg R.DEV_ID 0), (4, 32, s.reg R.DEV_REV 0), (8, 8, s.sec.life), (10, 16, s.sec.fuses.fw),
     (12, 16, s.sec.fuses.base), (16, 32, s.reg R.DEV_FW_VERSION 0), (20, 32, s.reg R.CFG_BASE_VERSION 0),
     (24, 64, Config.serial.toNat)])))

/-- The hottest reading among sensors. -/
def State.hottest (s : State) (ts : List Nat) : Option Int :=
  ts.foldl (fun a t => match s.temp t, a with
    | none, a => a
    | some v, none => some v
    | some v, some w => some (max v w)) none

/-- That reading as a 16-bit field; a free value where no sensor holds a reading (log 64). -/
def State.hotField (s : State) (ts : List Nat) : Nat :=
  match s.hottest ts with
  | some v => ofSigned 16 v
  | none => (Config.undefinedBits 16 s.free).toNat

/-- The lowest pace over a quadrant's powered clusters and engines, 0 when none is powered. -/
def State.paceMin (s : State) (q : Nat) : Nat :=
  let cl := ((List.range 8).map (8 * q + ·)).filter (fun c => s.domUp (domCluster c))
  let en := ((List.range 26).map (26 * q + ·)).filter (fun e => s.domUp (domEngine e))
  ((cl.map (fun c => s.get F.CL_PACE.PACE c) ++ en.map (fun e => s.enginePace e)).min?).getD 0

/-- INFO_SENSORS. Whether a hardware fault keeps firmware from reading the sensors (R54) is free (log 100). -/
def execInfoSensors (b : Fin 8) (m : Msg) (s : State) : Host.Outcome State Fault Refusal :=
  .next (s.runCmd b opInfoSensors m (fun s =>
    if Config.sensorFault s.free then .fail s.hwFault stHw
    else .ok { s with free := s.free + 1 } (pack 24 ((maskBits 4 (fld m 0 8)).flatMap (fun q =>
      [(6 * q, 16, s.hotField (quadSensors q)), (6 * q + 2, 16, s.get F.GOV_Q_STATE.POWER q), (6 * q + 4, 16, s.paceMin q)])))))

/-! ### POWER (R57, R385 to R391, R404) -/

/-- POWER_BUDGET_SET. -/
def execPowerBudgetSet (b : Fin 8) (m : Msg) (s : State) : Host.Outcome State Fault Refusal :=
  .next (s.runCmd b opBudget m (fun s =>
    .ok ((s.govBudgetWrite (fld m 0 16)).govShareWrite (fld m 2 32)) (pack 2 [(0, 16, fld m 0 16)])))

/-- POWER_THERMAL_SET. -/
def execPowerThermalSet (b : Fin 8) (m : Msg) (s : State) : Host.Outcome State Fault Refusal :=
  .next (s.runCmd b opThermal m (fun s =>
    .ok ((s.govLimitsWrite (fld m 0 16 % 2 ^ 12 + fld m 2 16 % 2 ^ 12 * 2 ^ 16)).put F.GOV_HEAT_SCALE.SCALE 0 (fld m 4 16))))

/-- POWER_READ. -/
def execPowerRead (b : Fin 8) (m : Msg) (s : State) : Host.Outcome State Fault Refusal :=
  .next (s.runCmd b opPowerRead m (fun s =>
    .ok { s with free := s.free + 1 } (pack 16
      ([(0, 32, s.get F.GOV_POWER.MW 0), (4, 16, s.reg R.GOV_BUDGET 0), (14, 16, s.hotField (List.range 64))] ++
        (List.range 4).map (fun q => (6 + 2 * q, 16, s.get F.GOV_Q_STATE.VSET q))))))

/-- POWER_STATE's checks (R391 step 1). -/
def State.stateRefused (s : State) (target wakes : Nat) : Bool :=
  s.get F.PWR_STATE.STATE 0 != 0 || s.power.dev.isSome || (List.range 256).any s.agentHalted ||
    (wakes &&& s.activeLevels) != 0 || (target != 1 && wakes == 0)

/-- POWER_STATE with state `target` (R391): checked and begun, then run on until it is answered. -/
def State.powerState (s : State) (b : Fin 8) (m : Msg) (target : Nat) : State :=
  if fld m 0 8 ≠ target then s
  else s.runTaken b opPowerState m (fun t s =>
    let mine := match s.power.dev with | some x => x.cmd.map (·.id) == some t.id | none => false
    if mine = false ∧ s.stateRefused target (fld m 1 8) = true then s.finish t stState 0 {}
    else
      let s := if mine then s else s.stateBegin target (fld m 1 8) (fld m 8 64) (some t)
      match s.power.dev with
      | some x => s.stateGo x
      | none => s)

/-- POWER_STATE_DOZE. -/
def execPowerStateDoze (b : Fin 8) (m : Msg) (s : State) : Host.Outcome State Fault Refusal := .next (s.powerState b m 1)

/-- POWER_STATE_NAP. -/
def execPowerStateNap (b : Fin 8) (m : Msg) (s : State) : Host.Outcome State Fault Refusal := .next (s.powerState b m 2)

/-- POWER_STATE_HIBERNATE. -/
def execPowerStateHibernate (b : Fin 8) (m : Msg) (s : State) : Host.Outcome State Fault Refusal := .next (s.powerState b m 3)

/-- A core of the domain's cluster is halted (R466). -/
def State.haltedIn (s : State) (d : Nat) : Bool :=
  0x10 ≤ d && d < 0x30 && (List.range 8).any (fun j => s.agentHalted (8 * (d - 0x10) + j))

/-- The POWER_DOMAIN command a domain acts on. -/
def State.domCommand (s : State) (d : Nat) : Option Nat :=
  match s.power.ups.get none d with
  | some t => some t.id
  | none => ((s.down d).bind (·.cmd)).map (·.id)

/-- POWER_DOMAIN with one action (R382, R389, R466): a command the domain already acts on goes on. -/
def State.powerDomain (s : State) (b : Fin 8) (m : Msg) (action : Nat) (act : Nat → Taken → State → State) : State :=
  if fld m 2 8 ≠ action then s
  else s.runTaken b opPowerDomain m (fun t s =>
    let d := fld m 0 16
    if s.domCommand d = some t.id then s
    else if domSwitchable d = false ∨ ((action = 1 ∨ action = 2) ∧ s.haltedIn d = true) then s.finish t stState 0 {}
    else act d t s)

/-- POWER_DOMAIN_ON (R389). -/
def execPowerDomainOn (b : Fin 8) (m : Msg) (s : State) : Host.Outcome State Fault Refusal :=
  .next (s.powerDomain b m 0 (fun d t s => s.domActOn d (some t)))

/-- POWER_DOMAIN_OFF (R385, R386). -/
def execPowerDomainOff (b : Fin 8) (m : Msg) (s : State) : Host.Outcome State Fault Refusal :=
  .next (s.powerDomain b m 1 (fun d t s => s.domActOff d false (some t)))

/-- POWER_DOMAIN_LOCK_OFF (R385, R389). -/
def execPowerDomainLockOff (b : Fin 8) (m : Msg) (s : State) : Host.Outcome State Fault Refusal :=
  .next (s.powerDomain b m 2 (fun d t s => s.domActOff d true (some t)))

/-- POWER_DOMAIN_UNLOCK (R389). -/
def execPowerDomainUnlock (b : Fin 8) (m : Msg) (s : State) : Host.Outcome State Fault Refusal :=
  .next (s.powerDomain b m 3 (fun d t s => s.domActUnlock d (some t)))

/-! ### TIME (R57, R68, R75, R77, R78, R87, R88, R91) -/

/-- TIME_OWNER: only MBX_0 to MBX_3 may move the servo. -/
def execTimeOwner (b : Fin 8) (m : Msg) (s : State) : Host.Outcome State Fault Refusal :=
  .next (s.runCmd b opTimeOwner m (fun s =>
    if 3 < b.val then .fail s stState
    else .ok { s with time := { s.time with hostServo := fld m 0 8 == 1 } } (pack 1 [(0, 8, bit s.time.hostServo)])))

/-- TIME_GET. -/
def execTimeGet (b : Fin 8) (m : Msg) (s : State) : Host.Outcome State Fault Refusal :=
  .next (s.runCmd b opTimeGet m (fun s => .ok s (pack 26
    [(0, 64, s.time.sec), (8, 32, s.time.ns), (12, 32, s.time.frac), (16, 64, s.time.ns64),
     (24, 8, s.get F.TOD_STATUS.VALID 0), (25, 8, s.get F.TOD_SERVO.STATE 0)])))

/-- The operation of TIME_STEP: while STEP_LOCK is 1 it writes nothing but STEP_REFUSED. -/
def State.timeStep (s : State) (m : Msg) : Answer :=
  if s.time.hostServo = false then .fail s stOwner
  else if s.isSet F.TOD_STATUS.STEP_LOCK 0 then .fail (s.put F.TOD_STATUS.STEP_REFUSED 0 1) stStepRefused
  else
    let s := (s.put F.TOD_STEP_SEC_HI.SEC 0 (fld m 4 16)).setReg R.TOD_STEP_SEC_LO 0 (fld m 0 32)
    let s := (s.setReg R.TOD_STEP_NS 0 (fld m 8 32)).stepArm
    .ok s (pack 8 [(0, 64, s.reg R.TOD_STEP_AT 0)])

/-- TIME_STEP. -/
def execTimeStep (b : Fin 8) (m : Msg) (s : State) : Host.Outcome State Fault Refusal :=
  .next (s.runCmd b opTimeStep m (fun s => s.timeStep m))

/-- `n / d` rounded to the nearest integer, a half upward. -/
def roundDiv (n : Int) (d : Nat) : Int := (2 * n + (d : Int)) / (2 * (d : Int))

/-- The addend of a rate in 2^-16 ppm (R68), in 2^-32 ns. -/
def rateAddend (r : Int) : Nat := ((2 : Int) ^ 33 + roundDiv (r * 2 ^ 17) 1000000).toNat

/-- TIME_ADJ_RATE. -/
def execTimeAdjRate (b : Fin 8) (m : Msg) (s : State) : Host.Outcome State Fault Refusal :=
  .next (s.runCmd b opAdjRate m (fun s =>
    if s.time.hostServo = false then .fail s stOwner
    else
      let a := rateAddend (toSigned 32 (fld m 0 32))
      .ok ((s.put F.TOD_ADDEND_HI.INT 0 (a / 2 ^ 32)).addendLoWrite (BitVec.ofNat 32 a))))

/-- TIME_REARM_STEP (R77). -/
def execTimeRearmStep (b : Fin 8) (m : Msg) (s : State) : Host.Outcome State Fault Refusal :=
  .next (s.runCmd b opRearmStep m (fun s =>
    if s.isSet F.TOD_SERVO.LOSS_SEEN 0 ∨ s.isSet F.TOD_SERVO.HOLD_EXIT 0 then .ok (s.put F.TOD_STATUS.STEP_LOCK 0 0)
    else .fail s stState))

/-- TIME_SLOT_CFG (R91): the timer is disabled, rewritten and, with enable 1, enabled again. -/
def execTimeSlotCfg (b : Fin 8) (m : Msg) (s : State) : Host.Outcome State Fault Refusal :=
  .next (s.runCmd b opSlotCfg m (fun s =>
    if s.time.hostServo = false then .fail s stOwner
    else
      let n := fld m 0 8
      let s := ((s.slotDisable n).put F.SLOT_TMR_CTRL.EPOCH n (fld m 12 8)).setReg R.SLOT_TMR_PERIOD n (fld m 4 32)
      let s := s.setReg R.SLOT_TMR_OFFSET n (fld m 8 32)
      .ok (if fld m 1 8 = 1 then s.slotEnable n else s)))

/-- TIME_PROFILE (R87): the profile of each MAC in the mask. In which state of firmware it ends with E_STATE the spec does not
say: that is free (log 100). -/
def execTimeProfile (b : Fin 8) (m : Msg) (s : State) : Host.Outcome State Fault Refusal :=
  .next (s.runCmd b opProfile m (fun s =>
    if Config.profileBarred s.free then .fail { s with free := s.free + 1 } stState
    else .ok { s with free := s.free + 1, time := { s.time with
    profile := (maskBits 64 (fld m 8 64)).foldl (fun p k => p.set 0 k (fld m 0 8)) s.time.profile } }))

end Sys2Proof.Machine
end

