-- ==== Sys2Proof/Machine/Tables.lean ====
section
/-! DEFINITION. Tables of the standards that the spec names and does not print: the turbo interleaver of TS 36.212 (R240, R247), the
columns of the base graphs and the reliability sequence and interleaver pattern of the polar code of TS 38.212 (R240, R246, R248), and
the root sequences of TS 38.211 for L_RA 839 (R269). PRESUMED: written from general knowledge of the standards (log 118). -/

namespace Sys2Proof.Machine

/-- Entry `k` of a table; 0 beyond its end. -/
def tableAt (t : List Nat) (k : Nat) : Nat := t.getD k 0

/-! ### Turbo interleaver: f1 and f2 per block size, in the order of the sizes (TS 36.212 Table 5.1.3-3) -/

/-- f1 of the 188 sizes. -/
def turboF1s : List Nat :=
  [3, 7, 19, 7, 7, 11, 5, 11, 7, 41, 103, 15, 9, 17, 9, 21, 101, 21, 57, 23, 13, 27, 11, 27] ++
  [85, 29, 33, 15, 17, 33, 103, 19, 19, 37, 19, 21, 21, 115, 193, 21, 133, 81, 45, 23, 243, 151, 155, 25] ++
  [51, 47, 91, 29, 29, 247, 29, 89, 91, 157, 55, 31, 17, 35, 227, 65, 19, 37, 41, 39, 185, 43, 21, 155] ++
  [79, 139, 23, 217, 25, 17, 127, 25, 239, 17, 137, 215, 29, 15, 147, 29, 59, 65, 55, 31, 17, 171, 67, 35] ++
  [19, 39, 19, 199, 21, 211, 21, 43, 149, 45, 49, 71, 13, 17, 25, 183, 55, 127, 27, 29, 29, 57, 45, 31] ++
  [59, 185, 113, 31, 17, 171, 209, 253, 367, 265, 181, 39, 27, 127, 143, 43, 29, 45, 157, 47, 13, 111, 443, 51] ++
  [51, 451, 257, 57, 313, 271, 179, 331, 363, 375, 127, 31, 33, 43, 33, 477, 35, 233, 357, 337, 37, 71, 71, 37] ++
  [39, 127, 39, 39, 31, 113, 41, 251, 43, 21, 43, 45, 45, 161, 89, 323, 47, 23, 47, 263]

/-- f2 of the 188 sizes. -/
def turboF2s : List Nat :=
  [10, 12, 42, 16, 18, 20, 22, 24, 26, 84, 90, 32, 34, 108, 38, 120, 84, 44, 46, 48, 50, 52, 36, 56] ++
  [58, 60, 62, 32, 198, 68, 210, 36, 74, 76, 78, 120, 82, 84, 86, 44, 90, 46, 94, 48, 98, 40, 102, 52] ++
  [106, 72, 110, 168, 114, 58, 118, 180, 122, 62, 84, 64, 66, 68, 420, 96, 74, 76, 234, 80, 82, 252, 86, 44] ++
  [120, 92, 94, 48, 98, 80, 102, 52, 106, 48, 110, 112, 114, 58, 118, 60, 122, 124, 84, 64, 66, 204, 140, 72] ++
  [74, 76, 78, 240, 82, 252, 86, 88, 60, 92, 846, 48, 28, 80, 102, 104, 954, 96, 110, 112, 114, 116, 354, 120] ++
  [610, 124, 420, 64, 66, 136, 420, 216, 444, 456, 468, 80, 164, 504, 172, 88, 300, 92, 188, 96, 28, 240, 204, 104] ++
  [212, 192, 220, 336, 228, 232, 236, 120, 244, 248, 168, 64, 130, 264, 134, 408, 138, 280, 142, 480, 146, 444, 120, 152] ++
  [462, 234, 158, 80, 96, 902, 166, 336, 170, 86, 174, 176, 178, 120, 182, 184, 186, 94, 190, 480]

/-- Place of block size `k` among the 188 sizes: they step by 8 to 512, by 16 to 1,024, by 32 to 2,048 and by 64 to 6,144. -/
def turboIndex (k : Nat) : Nat :=
  if k ≤ 512 then (k - 40) / 8 else if k ≤ 1024 then 59 + (k - 512) / 16 else if k ≤ 2048 then 91 + (k - 1024) / 32
  else 123 + (k - 2048) / 64

def turboF1 (k : Nat) : Nat := tableAt turboF1s (turboIndex k)
def turboF2 (k : Nat) : Nat := tableAt turboF2s (turboIndex k)

/-! ### Polar code (TS 38.212 Tables 5.3.1.1-1 and 5.3.1.2-1) -/

/-- The 1,024 input bits, the least reliable first. -/
def polarSequence : List Nat :=
  [0, 1, 2, 4, 8, 16, 32, 3, 5, 64, 9, 6, 17, 10, 18, 128, 12, 33, 65, 20, 256, 34, 24, 36, 7, 129, 66, 512, 11, 40, 68, 130] ++
  [19, 13, 48, 14, 72, 257, 21, 132, 35, 258, 26, 513, 80, 37, 25, 22, 136, 260, 264, 38, 514, 96, 67, 41, 144, 28, 69, 42, 516, 49, 74, 272] ++
  [160, 520, 288, 528, 192, 544, 70, 44, 131, 81, 50, 73, 15, 320, 133, 52, 23, 134, 384, 76, 137, 82, 56, 27, 97, 39, 259, 84, 138, 145, 261, 29] ++
  [43, 98, 515, 88, 140, 30, 146, 71, 262, 265, 161, 576, 45, 100, 640, 51, 148, 46, 75, 266, 273, 517, 104, 162, 53, 193, 152, 77, 164, 768, 268, 274] ++
  [518, 54, 83, 57, 521, 112, 135, 78, 289, 194, 85, 276, 522, 58, 168, 139, 99, 86, 60, 280, 89, 290, 529, 524, 196, 141, 101, 147, 176, 142, 530, 321] ++
  [31, 200, 90, 545, 292, 322, 532, 263, 149, 102, 105, 304, 296, 163, 92, 47, 267, 385, 546, 324, 208, 386, 150, 153, 165, 106, 55, 328, 536, 577, 548, 113] ++
  [154, 79, 269, 108, 578, 224, 166, 519, 552, 195, 270, 641, 523, 275, 580, 291, 59, 169, 560, 114, 277, 156, 87, 197, 116, 170, 61, 531, 525, 642, 281, 278] ++
  [526, 177, 293, 388, 91, 584, 769, 198, 172, 120, 201, 336, 62, 282, 143, 103, 178, 294, 93, 644, 202, 592, 323, 392, 297, 770, 107, 180, 151, 209, 284, 648] ++
  [94, 204, 298, 400, 608, 352, 325, 533, 155, 210, 305, 547, 300, 109, 184, 534, 537, 115, 167, 225, 326, 306, 772, 157, 656, 329, 110, 117, 212, 171, 776, 330] ++
  [226, 549, 538, 387, 308, 216, 416, 271, 279, 158, 337, 550, 672, 118, 332, 579, 540, 389, 173, 121, 553, 199, 784, 179, 228, 338, 312, 704, 390, 174, 554, 581] ++
  [393, 283, 122, 448, 353, 561, 203, 63, 340, 394, 527, 582, 556, 181, 295, 285, 232, 124, 205, 182, 643, 562, 286, 585, 299, 354, 211, 401, 185, 396, 344, 586] ++
  [645, 593, 535, 240, 206, 95, 327, 564, 800, 402, 356, 307, 301, 417, 213, 568, 832, 588, 186, 646, 404, 227, 896, 594, 418, 302, 649, 771, 360, 539, 111, 331] ++
  [214, 309, 188, 449, 217, 408, 609, 596, 551, 650, 229, 159, 420, 310, 541, 773, 610, 657, 333, 119, 600, 339, 218, 368, 652, 230, 391, 313, 450, 542, 334, 233] ++
  [555, 774, 175, 123, 658, 612, 341, 777, 220, 314, 424, 395, 673, 583, 355, 287, 183, 234, 125, 557, 660, 616, 342, 316, 241, 778, 563, 345, 452, 397, 403, 207] ++
  [674, 558, 785, 432, 357, 187, 236, 664, 624, 587, 780, 705, 126, 242, 565, 398, 346, 456, 358, 405, 303, 569, 244, 595, 189, 566, 676, 361, 706, 589, 215, 786] ++
  [647, 348, 419, 406, 464, 680, 801, 362, 590, 409, 570, 788, 597, 572, 219, 311, 708, 598, 601, 651, 421, 792, 802, 611, 602, 410, 231, 688, 653, 248, 369, 190] ++
  [364, 654, 659, 335, 480, 315, 221, 370, 613, 422, 425, 451, 614, 543, 235, 412, 343, 372, 775, 317, 222, 426, 453, 237, 559, 833, 804, 712, 834, 661, 808, 779] ++
  [617, 604, 433, 720, 816, 836, 347, 897, 243, 662, 454, 318, 675, 618, 898, 781, 376, 428, 665, 736, 567, 840, 625, 238, 359, 457, 399, 787, 591, 678, 434, 677] ++
  [349, 245, 458, 666, 620, 363, 127, 191, 782, 407, 436, 626, 571, 465, 681, 246, 707, 350, 599, 668, 790, 460, 249, 682, 573, 411, 803, 789, 709, 365, 440, 628] ++
  [689, 374, 423, 466, 793, 250, 371, 481, 574, 413, 603, 366, 468, 655, 900, 805, 615, 684, 710, 429, 794, 252, 373, 605, 848, 690, 713, 632, 482, 806, 427, 904] ++
  [414, 223, 663, 692, 835, 619, 472, 455, 796, 809, 714, 721, 837, 716, 864, 810, 606, 912, 722, 696, 377, 435, 817, 319, 621, 812, 484, 430, 838, 667, 488, 239] ++
  [378, 459, 622, 627, 437, 380, 818, 461, 496, 669, 679, 724, 841, 629, 351, 467, 438, 737, 251, 462, 442, 441, 469, 247, 683, 842, 738, 899, 670, 783, 849, 820] ++
  [728, 928, 791, 367, 901, 630, 685, 844, 633, 711, 253, 691, 824, 902, 686, 740, 850, 375, 444, 470, 483, 415, 485, 905, 795, 473, 634, 744, 852, 960, 865, 693] ++
  [797, 906, 715, 807, 474, 636, 694, 254, 717, 575, 913, 798, 811, 379, 697, 431, 607, 489, 866, 723, 486, 908, 718, 813, 476, 856, 839, 725, 698, 914, 752, 868] ++
  [819, 814, 439, 929, 490, 623, 671, 739, 916, 463, 843, 381, 497, 930, 821, 726, 961, 872, 492, 631, 729, 700, 443, 741, 845, 920, 382, 822, 851, 730, 498, 880] ++
  [742, 445, 471, 635, 932, 687, 903, 825, 500, 846, 745, 826, 732, 446, 962, 936, 475, 853, 867, 637, 907, 487, 695, 746, 828, 753, 854, 857, 504, 799, 255, 964] ++
  [909, 719, 477, 915, 638, 748, 944, 869, 491, 699, 754, 858, 478, 968, 383, 910, 815, 976, 870, 917, 727, 493, 873, 701, 931, 756, 860, 499, 731, 823, 922, 874] ++
  [918, 502, 933, 743, 760, 881, 494, 702, 921, 501, 876, 847, 992, 447, 733, 827, 934, 882, 937, 963, 747, 505, 855, 924, 734, 829, 965, 938, 884, 506, 749, 945] ++
  [966, 755, 859, 940, 830, 911, 871, 639, 888, 479, 946, 750, 969, 508, 861, 757, 970, 919, 875, 862, 758, 948, 977, 923, 972, 761, 877, 952, 495, 703, 935, 978] ++
  [883, 762, 503, 925, 878, 735, 993, 885, 939, 994, 980, 926, 764, 941, 967, 886, 831, 947, 507, 889, 984, 751, 942, 996, 971, 890, 509, 949, 973, 1000, 892, 950] ++
  [863, 759, 1008, 510, 979, 953, 763, 974, 954, 879, 981, 982, 927, 995, 765, 956, 887, 985, 997, 986, 943, 891, 998, 766, 511, 988, 1001, 951, 1002, 893, 975, 894] ++
  [1009, 955, 1004, 1010, 957, 983, 958, 987, 1012, 999, 1016, 767, 989, 1003, 990, 1005, 959, 1011, 1013, 895, 1006, 1014, 1017, 1018, 991, 1020, 1007, 1015, 1019, 1021, 1022, 1023]

/-- The interleaver pattern of up to 164 bits. -/
def polarPatterns : List Nat :=
  [0, 2, 4, 7, 9, 14, 19, 20, 24, 25, 26, 28, 31, 34, 42, 45, 49, 50, 51, 53, 54, 56, 58, 59, 61, 62, 65, 66] ++
  [67, 69, 70, 71, 72, 76, 77, 81, 82, 83, 87, 88, 89, 91, 93, 95, 98, 101, 104, 106, 108, 110, 111, 113, 115, 118, 119, 120] ++
  [122, 123, 126, 127, 129, 132, 134, 138, 139, 140, 1, 3, 5, 8, 10, 15, 21, 27, 29, 32, 35, 43, 46, 52, 55, 57, 60, 63] ++
  [68, 73, 78, 84, 90, 92, 94, 96, 99, 102, 105, 107, 109, 112, 114, 116, 121, 124, 128, 130, 133, 135, 141, 6, 11, 16, 22, 30] ++
  [33, 36, 44, 47, 64, 74, 79, 85, 97, 100, 103, 117, 125, 131, 136, 142, 12, 17, 23, 37, 48, 75, 80, 86, 137, 143, 13, 18] ++
  [38, 144, 39, 145, 40, 146, 41, 147, 148, 149, 150, 151, 152, 153, 154, 155, 156, 157, 158, 159, 160, 161, 162, 163]

def polarOrder (i : Nat) : Nat := tableAt polarSequence i
def polarPattern (i : Nat) : Nat := tableAt polarPatterns i

/-! ### PRACH root sequences for L_RA 839 (TS 38.211 Table 6.3.3.1-3) -/

/-- Physical roots at the even logical indices; each is followed by 839 less it. -/
def prachRoots : List Nat :=
  [129, 140, 120, 210, 168, 84, 105, 93, 70, 60, 2, 1, 56, 112, 148, 80, 42, 40, 35, 73, 146, 31, 28, 30, 27, 29, 24, 48] ++
  [68, 74, 178, 136, 86, 78, 43, 39, 20, 21, 95, 202, 190, 181, 137, 125, 151, 217, 128, 142, 122, 203, 118, 110, 89, 103, 61, 55] ++
  [15, 14, 12, 23, 34, 37, 46, 207, 179, 145, 130, 223, 228, 227, 132, 133, 143, 135, 161, 201, 173, 106, 83, 91, 66, 53, 10, 9] ++
  [7, 8, 16, 47, 64, 57, 104, 101, 108, 208, 184, 197, 191, 121, 141, 149, 216, 218, 152, 144, 134, 138, 199, 162, 176, 119, 158, 164] ++
  [174, 171, 170, 87, 169, 88, 107, 81, 82, 100, 98, 71, 59, 65, 50, 49, 26, 17, 13, 6, 5, 33, 51, 75, 99, 96, 97, 166] ++
  [172, 175, 187, 163, 185, 200, 114, 189, 115, 194, 195, 192, 182, 157, 156, 211, 154, 123, 139, 212, 153, 213, 215, 150, 225, 224, 221, 220] ++
  [127, 147, 124, 193, 205, 206, 116, 160, 186, 167, 79, 85, 77, 92, 58, 62, 69, 54, 36, 32, 25, 18, 11, 4, 3, 19, 22, 41] ++
  [38, 44, 52, 45, 63, 67, 72, 76, 94, 102, 90, 109, 165, 111, 209, 204, 117, 188, 159, 198, 113, 183, 180, 177, 196, 155, 214, 126] ++
  [131, 219, 222, 226, 230, 232, 262, 252, 418, 416, 413, 411, 376, 395, 283, 285, 379, 390, 363, 384, 388, 386, 361, 387, 360, 310, 354, 328] ++
  [315, 337, 349, 335, 324, 323, 320, 334, 359, 295, 385, 292, 291, 381, 399, 380, 397, 369, 377, 410, 407, 281, 414, 247, 277, 271, 272, 264] ++
  [259, 237, 239, 244, 243, 275, 278, 250, 246, 417, 248, 394, 393, 370, 365, 300, 299, 364, 362, 298, 312, 313, 314, 353, 352, 343, 327, 350] ++
  [326, 319, 332, 333, 348, 347, 322, 330, 338, 341, 340, 342, 301, 366, 401, 371, 408, 375, 249, 269, 238, 234, 257, 273, 255, 254, 245, 251] ++
  [412, 372, 282, 403, 396, 392, 391, 382, 389, 294, 297, 311, 344, 345, 318, 331, 325, 321, 346, 339, 351, 306, 289, 400, 378, 374, 415, 270] ++
  [241, 231, 260, 268, 276, 409, 398, 290, 304, 308, 358, 316, 293, 288, 284, 368, 253, 256, 263, 242, 274, 402, 383, 357, 329, 317, 307, 286] ++
  [287, 266, 261, 236, 303, 356, 355, 405, 404, 406, 235, 267, 302, 309, 265, 233, 367, 296, 336, 305, 373, 280, 279, 419, 240, 258, 229]

/-- Physical root of logical index `i`, below 838. -/
def prachRoot (i : Nat) : Nat := let u := tableAt prachRoots (i / 2); if i % 2 = 0 then u else 839 - u

/-! ### LDPC base graphs: the columns each row meets (TS 38.212 Tables 5.3.2-2 and 5.3.2-3) -/

/-- Base graph 1. -/
def baseGraph1 : List (List Nat) :=
  [[0, 1, 2, 3, 5, 6, 9, 10, 11, 12, 13, 15, 16, 18, 19, 20, 21, 22, 23],
   [0, 2, 3, 4, 5, 7, 8, 9, 11, 12, 14, 15, 16, 17, 19, 21, 22, 23, 24],
   [0, 1, 2, 4, 5, 6, 7, 8, 9, 10, 13, 14, 15, 17, 18, 19, 20, 24, 25],
   [0, 1, 3, 4, 6, 7, 8, 10, 11, 12, 13, 14, 16, 17, 18, 20, 21, 22, 25],
   [0, 1, 26],
   [0, 1, 3, 12, 16, 21, 22, 27]] ++
  [[0, 6, 10, 11, 13, 17, 18, 20, 28],
   [0, 1, 4, 7, 8, 14, 29],
   [0, 1, 3, 12, 16, 19, 21, 22, 24, 30],
   [0, 1, 10, 11, 13, 17, 18, 20, 31],
   [1, 2, 4, 7, 8, 14, 32],
   [0, 1, 12, 16, 21, 22, 23, 33]] ++
  [[0, 1, 10, 11, 13, 18, 34],
   [0, 3, 7, 20, 23, 35],
   [0, 12, 15, 16, 17, 21, 36],
   [0, 1, 10, 13, 18, 25, 37],
   [1, 3, 11, 20, 22, 38],
   [0, 14, 16, 17, 21, 39]] ++
  [[1, 12, 13, 18, 19, 40],
   [0, 1, 7, 8, 10, 41],
   [0, 3, 9, 11, 22, 42],
   [1, 5, 16, 20, 21, 43],
   [0, 12, 13, 17, 44],
   [1, 2, 10, 18, 45]] ++
  [[0, 3, 4, 11, 22, 46],
   [1, 6, 7, 14, 47],
   [0, 2, 4, 15, 48],
   [1, 6, 8, 49],
   [0, 4, 19, 21, 50],
   [1, 14, 18, 25, 51]] ++
  [[0, 10, 13, 24, 52],
   [1, 7, 22, 25, 53],
   [0, 12, 14, 24, 54],
   [1, 2, 11, 21, 55],
   [0, 7, 15, 17, 56],
   [1, 6, 12, 22, 57]] ++
  [[0, 14, 15, 18, 58],
   [1, 13, 23, 59],
   [0, 9, 10, 12, 60],
   [1, 3, 7, 19, 61],
   [0, 8, 17, 62],
   [1, 3, 9, 18, 63]] ++
  [[0, 4, 24, 64],
   [1, 16, 18, 25, 65],
   [0, 7, 9, 22, 66],
   [1, 6, 10, 67]]

/-- Base graph 2. -/
def baseGraph2 : List (List Nat) :=
  [[0, 1, 2, 3, 6, 9, 10, 11],
   [0, 3, 4, 5, 6, 7, 8, 9, 11, 12],
   [0, 1, 3, 4, 8, 10, 12, 13],
   [1, 2, 4, 5, 6, 7, 8, 9, 10, 13],
   [0, 1, 11, 14],
   [0, 1, 5, 7, 11, 15]] ++
  [[0, 5, 7, 9, 11, 16],
   [1, 5, 7, 11, 13, 17],
   [0, 1, 12, 18],
   [1, 8, 10, 11, 19],
   [0, 1, 6, 7, 20],
   [0, 7, 9, 13, 21]] ++
  [[1, 3, 11, 22],
   [0, 1, 8, 13, 23],
   [1, 6, 11, 13, 24],
   [0, 10, 11, 25],
   [1, 9, 11, 12, 26],
   [1, 5, 11, 12, 27]] ++
  [[0, 6, 7, 28],
   [0, 1, 10, 29],
   [1, 4, 11, 30],
   [0, 8, 13, 31],
   [1, 2, 32],
   [0, 3, 5, 33]] ++
  [[1, 2, 9, 34],
   [0, 5, 35],
   [2, 7, 12, 13, 36],
   [0, 6, 37],
   [1, 2, 5, 38],
   [0, 4, 39]] ++
  [[2, 5, 7, 9, 40],
   [1, 13, 41],
   [0, 5, 12, 42],
   [2, 7, 10, 43],
   [0, 12, 13, 44],
   [1, 5, 11, 45]] ++
  [[0, 2, 7, 46],
   [10, 13, 47],
   [1, 5, 11, 48],
   [0, 7, 12, 49],
   [2, 10, 13, 50],
   [1, 5, 11, 51]]

/-- Columns row `m` of a base graph meets. -/
def ldpcColumns (bg : Bool) (m : Nat) : List Nat := ((if bg then baseGraph2 else baseGraph1).getD m [])

end Sys2Proof.Machine
end

