-- ==== Sys2Proof/Machine/Ldpc.lean ====
section
/-! DEFINITION. The LDPC code (R240, R242, R244, R246): bits and LLRs, the parity checks of a base graph, layered normalised
min-sum decoding, and the parity an encoder adds. The shifts of the two base graphs are in tables of TS 38.212 that the spec names
and does not print: opaque, but for the columns of single parity bits, which are not shifted (log 44). -/

namespace Sys2Proof.Machine

/-! ### Bits and LLRs (R240) -/

/-- Bit `k` of a packed string: byte k div 8, bit 7 - (k mod 8). -/
def packedBit (bs : List Byte) (k : Nat) : Bool := bitAt (bs.getD (k / 8) 0).toNat (7 - k % 8)

/-- Packs bits, first bit first. -/
def packString : List Bool → List Byte
  | a :: b :: c :: d :: e :: f :: g :: h :: r =>
    BitVec.ofNat 8 ([a, b, c, d, e, f, g, h].foldl (fun v x => 2 * v + bit x) 0) :: packString r
  | [] => []
  | l => [BitVec.ofNat 8 ((List.range 8).foldl (fun v k => 2 * v + bit (l.getD k false)) 0)]

/-- A byte as an LLR: -128 is read as -127. -/
def llrOf (b : Byte) : Int := max (-127) (toSigned 8 b.toNat)

/-- Saturation of every sum of LLRs. -/
def llrSat (x : Int) : Int := max (-127) (min 127 x)

/-- An LLR as a byte. -/
def llrByte (x : Int) : Byte := BitVec.ofNat 8 (ofSigned 8 x)

/-- The LLRs in units: `n` bytes, those of poisoned units 0 (R243, R253). -/
def unitLlrs (ds : List DataUnit) (n : Nat) : List Int :=
  (ds.flatMap (fun d => if d.poison then List.replicate 16 0 else (leBytes 16 d.data.toNat).map llrOf)).take n

/-- `m` × `k` / 16. How a value between two integers is rounded the spec does not say: a free choice (log 44). -/
def sixteenths (m k : Nat) : Nat := m * k / 16 + bit (m * k % 16 != 0 && Config.roundsUp (m * k))

/-- A signed value × `k` / 16. -/
def scaleLlr (x : Int) (k : Nat) : Int :=
  let m : Int := (sixteenths x.natAbs k : Nat)
  if x < 0 then -m else m

/-- The hard decision of LLR `x` of bit `k`: a positive value favours 0; for 0 itself the spec names no bit, a free choice. -/
def hardBit (k : Nat) (x : Int) : Bool := decide (x < 0) || (x == 0 && Config.llrTie k)

/-! ### Parity checks (R241) -/

/-- Set of the lifting sizes that `zc` belongs to. -/
def liftSet (zc : Nat) : Nat :=
  (findBelow 8 (fun i => (List.range 8).any (fun j => [2, 3, 5, 7, 9, 11, 13, 15].getD i 0 * 2 ^ j == zc))).getD 0

/-- Rows and columns of a base graph. -/
def ldpcRows (bg : Bool) : Nat := if bg then 42 else 46
def ldpcCols (bg : Bool) : Nat := ldpcKb bg + ldpcRows bg

/-- Shift of column `c` in base-graph row `m`: from the fifth row on each row has a parity column of its own, which is not shifted. -/
def ldpcShift (bg : Bool) (zc m c : Nat) : Nat := if ldpcKb bg + 4 ≤ c then 0 else Config.ldpcShift bg (liftSet zc) m c

/-- Check `i` of base-graph row `m`: the columns it meets, each with its codeword bit. -/
def ldpcCheckBits (zc : Nat) (bg : Bool) (m i : Nat) : List (Nat × Nat) :=
  (ldpcColumns bg m).map (fun c => (c, c * zc + (i + ldpcShift bg zc m c) % zc))

/-- Every check, as base-graph row and offset: the rows are the layers. -/
def ldpcChecks (zc : Nat) (bg : Bool) : List (Nat × Nat) :=
  (List.range (ldpcRows bg)).flatMap (fun m => (List.range zc).map (fun i => (m, i)))

/-! ### Decoding (R242) -/

/-- A decoder between two checks: the LLR of every codeword bit, and the last message of every check to every column. -/
structure LdpcState where
  tot : List Int
  msg : SMap Int := []

/-- Key of the message of check `i` of row `m` to column `c`. -/
def ldpcEdge (zc m i c : Nat) : Nat := (m * zc + i) * 128 + c

/-- One check of layered normalised min-sum: `q` are the LLRs of its bits without what it last told them; each bit gets the
product of the others' signs with their least magnitude × α / 16. A bit known to be 0 tells nothing and needs nothing. -/
def ldpcCheck (zc : Nat) (bg : Bool) (alpha : Nat) (known : Nat → Bool) (x : LdpcState) (mi : Nat × Nat) : LdpcState :=
  let bits := (ldpcCheckBits zc bg mi.1 mi.2).filter (fun e => !known e.2)
  let q := bits.map (fun e => llrSat (x.tot.getD e.2 0 - x.msg.get 0 (ldpcEdge zc mi.1 mi.2 e.1)))
  (bits.mapIdx (fun k e => (k, e))).foldl (fun x (k, e) =>
    let others := q.eraseIdx k
    let mag := sixteenths (others.foldl (fun a v => min a v.natAbs) 127) alpha
    let r : Int := if (others.filter (fun v => decide (v < 0))).length % 2 = 1 then -(mag : Int) else (mag : Int)
    { tot := x.tot.set e.2 (llrSat (q.getD k 0 + r)), msg := x.msg.set 0 (ldpcEdge zc mi.1 mi.2 e.1) r }) x

/-- The codeword LLRs before the first iteration: the first 2 ZC bits and those beyond NIN erasures. -/
def ldpcStart (zc : Nat) (bg : Bool) (llr : List Int) : LdpcState :=
  { tot := (List.range (ldpcCols bg * zc)).map (fun k => if k < 2 * zc then 0 else llr.getD (k - 2 * zc) 0) }

/-- A filler position. -/
def ldpcFiller (kp filler k : Nat) : Bool := decide (kp ≤ k ∧ k < kp + filler)

/-- The hard decisions after `n` iterations, fillers being 0. -/
def ldpcHard (zc : Nat) (bg : Bool) (kp filler alpha : Nat) (llr : List Int) (n : Nat) : List Bool :=
  let known := ldpcFiller kp filler
  let x := (List.range n).foldl (fun x _ => (ldpcChecks zc bg).foldl (ldpcCheck zc bg alpha known) x) (ldpcStart zc bg llr)
  x.tot.mapIdx (fun k v => !known k && hardBit k v)

/-- Checks a codeword fails (R244). -/
def ldpcUnsat (zc : Nat) (bg : Bool) (word : List Bool) : Nat :=
  ((ldpcChecks zc bg).filter (fun mi =>
    ((ldpcCheckBits zc bg mi.1 mi.2).filter (fun e => word.getD e.2 false)).length % 2 == 1)).length

/-! ### Encoding (R246) -/

/-- Parity of a number's bits below `n`. -/
def oddBits (n v : Nat) : Bool := ((List.range n).filter (bitAt v)).length % 2 == 1

/-- Solves linear equations over bits, by elimination of unknown `n - 1` downwards. An equation is a number: bit k names
unknown k, bit `top` its right side. -/
def gfSolve (top : Nat) : Nat → List Nat → Nat
  | 0, _ => 0
  | n + 1, eqs =>
    match eqs.find? (fun q => bitAt q n) with
    | none => gfSolve top n eqs
    | some q =>
      let x := gfSolve top n ((eqs.erase q).map (fun r => if bitAt r n then r ^^^ q else r))
      if oddBits n (q &&& x) != bitAt q top then x + 2 ^ n else x

/-- The codeword of the systematic bits: the parity bits that satisfy every check. -/
def ldpcCodeword (zc : Nat) (bg : Bool) (sys : List Bool) : List Bool :=
  let k := ldpcKb bg * zc; let n := ldpcRows bg * zc
  let eqs := (ldpcChecks zc bg).map (fun mi =>
    (ldpcCheckBits zc bg mi.1 mi.2).foldl (fun q e =>
      if e.2 < k then (if sys.getD e.2 false then q ^^^ 2 ^ n else q) else q ^^^ 2 ^ (e.2 - k)) 0)
  let x := gfSolve n n eqs
  (List.range k).map (fun i => sys.getD i false) ++ (List.range n).map (bitAt x)

end Sys2Proof.Machine
end

