-- ==== Sys2Proof/Machine/Polar.lean ====
section
/-! DEFINITION. The polar code (R248): rate recovery, the frozen set and the parity-check bits as TS 38.212 clauses 5.3.1 and
5.4.1 derive them (PRESUMED, log 44), and CRC-aided list decoding. The reliability sequence and the input interleaver's pattern
are in Tables (PRESUMED, log 118). -/

namespace Sys2Proof.Machine

/-! ### The job's code -/

def polE (j : BitVec 512) : Nat := jFld j 7 0 14
def polN (j : BitVec 512) : Nat := 2 ^ jFld j 7 14 4
def polK (j : BitVec 512) : Nat := jFld j 8 0 10

/-- Parity-check bits, and those of them at rows of minimum weight. -/
def polPc (j : BitVec 512) : Nat × Nat := match jFld j 7 23 2 with | 1 => (3, 0) | 2 => (3, 1) | _ => (0, 0)

/-- Fewer coded bits are sent than the code has, by puncturing: at most 7/16 of E are information. -/
def polPunctured (j : BitVec 512) : Bool := decide (16 * polK j ≤ 7 * polE j)

/-- Sub-block interleaver: the code bit at place `n`. -/
def polSub (n k : Nat) : Nat :=
  [0, 1, 2, 4, 3, 5, 6, 7, 8, 16, 9, 17, 10, 18, 11, 19, 12, 20, 13, 21, 14, 22, 15, 23, 24, 25, 26, 28, 27, 29, 30,
    31].getD (32 * k / n) 0 * (n / 32) + k % (n / 32)

/-- Order in which the triangular interleaver of `e` bits sends them. -/
def polTriangle (e : Nat) : List Nat :=
  let t := (findBelow 129 (fun t => decide (e ≤ t * (t + 1) / 2))).getD 128
  let start := fun (i : Nat) => i * t - i * (i - 1) / 2
  (List.range t).flatMap (fun c => ((List.range (t - c)).map (fun i => start i + c)).filter (fun k => decide (k < e)))

/-! ### Rate recovery -/

/-- The rate-matched LLRs in the order of bit selection. -/
def polSelected (j : BitVec 512) (llr : List Int) : List Int :=
  if jBit j 7 22 then
    let order := polTriangle (polE j)
    (List.range (polE j)).map (fun k => match order.idxOf? k with | some t => llr.getD t 0 | none => 0)
  else llr

/-- LLR at place `k` of the interleaved code word: repeated bits are summed, punctured ones erasures, shortened ones known
zeros, which the range of LLRs holds as 127. -/
def polPlaceLlr (j : BitVec 512) (f : List Int) (k : Nat) : Int :=
  let e := polE j; let n := polN j
  if n ≤ e then (List.range (ceilDiv e n)).foldl (fun a m => if k + m * n < e then llrSat (a + f.getD (k + m * n) 0) else a) 0
  else if polPunctured j then (if k < n - e then 0 else f.getD (k - (n - e)) 0)
  else if k < e then f.getD k 0 else 127

/-- The LLRs of the code word's N bits. -/
def polRecovered (j : BitVec 512) (llr : List Int) : List Int :=
  let f := polSelected j llr; let n := polN j
  let order := (List.range n).map (polSub n)
  (List.range n).map (fun d => match order.idxOf? d with | some k => polPlaceLlr j f k | none => 0)

/-! ### The frozen set -/

/-- Indices frozen because their code bits are not sent. -/
def polUnsent (j : BitVec 512) : List Nat :=
  let e := polE j; let n := polN j
  if n ≤ e then []
  else if polPunctured j then
    (List.range (n - e)).map (polSub n) ++
      List.range (if 3 * n ≤ 4 * e then ceilDiv (3 * n - 2 * e) 4 else ceilDiv (9 * n - 4 * e) 16)
  else ((List.range n).filter (fun k => decide (e ≤ k))).map (polSub n)

/-- The indices that carry bits, the least reliable first: the K + n_PC most reliable of those not frozen already. -/
def polCarriers (j : BitVec 512) : List Nat :=
  let unsent := polUnsent j
  let cand := ((List.range 1024).map polarOrder).filter (fun i => decide (i < polN j) && !unsent.contains i)
  cand.drop (cand.length - (polK j + (polPc j).1))

/-- Weight of a row of the generator, as an exponent of 2. -/
def rowWeight (i : Nat) : Nat := ((List.range 10).filter (bitAt i)).length

/-- The indices of the parity-check bits: the least reliable carriers, and of the K most reliable the one of least weight, the
most reliable of several. -/
def polChecks (j : BitVec 512) : List Nat :=
  let q := polCarriers j; let (pc, wm) := polPc j
  let best := q.drop pc
  let least := best.foldl (fun a i => min a (rowWeight i)) 10
  q.take (pc - wm) ++ ((best.filter (fun i => rowWeight i == least)).reverse.take wm)

/-! ### List decoding -/

/-- Polar transform of a block of bits: `d` halvings. -/
def polarEncode : Nat → List Bool → List Bool
  | 0, u => u
  | d + 1, u =>
    let h := 2 ^ d
    let a := polarEncode d (u.take h); let b := polarEncode d (u.drop h)
    (a.zip b).map (fun (x, y) => x != y) ++ b

/-- LLR of bit `i`, given the bits before it: successive cancellation by halves. -/
def polarLlr : Nat → List Int → List Bool → Nat → Int
  | 0, l, _, _ => l.headD 0
  | d + 1, l, u, i =>
    let h := 2 ^ d
    let pairs := (l.take h).zip (l.drop h)
    if i < h then
      polarLlr d (pairs.map (fun (a, b) =>
        let m : Int := ((min a.natAbs b.natAbs : Nat) : Int)
        if decide (a < 0) != decide (b < 0) then -m else m)) u i
    else
      let x := polarEncode d (u.take h)
      polarLlr d ((pairs.zip x).map (fun ((a, b), c) => llrSat (if c then b - a else b + a))) (u.drop h) (i - h)

/-- A path: its bits, and its metric, the LLRs it decided against. -/
structure PolarPath where
  bits : List Bool := []
  metric : Nat := 0

/-- A path with one more bit. -/
def PolarPath.extend (p : PolarPath) (l : Int) (b : Bool) : PolarPath :=
  { bits := p.bits ++ [b], metric := p.metric + (if (b = true ∧ 0 < l) ∨ (b = false ∧ l < 0) then l.natAbs else 0) }

/-- A parity-check bit at index `i`: the sum of the carried bits a multiple of five before it that are no checks themselves. -/
def polarParity (carry checks : List Nat) (bits : List Bool) (i : Nat) : Bool :=
  ((List.range i).filter (fun k => k % 5 == i % 5 && carry.contains k && !checks.contains k && bits.getD k false)).length % 2 == 1

/-- The better paths first; which of two equal ones is kept the spec does not say: a free choice (log 44). -/
def betterPath (a b : PolarPath) : Bool :=
  decide (a.metric < b.metric) || (a.metric == b.metric && decide (Config.pathRank a.bits ≤ Config.pathRank b.bits))

/-- The list after every index: a frozen bit is 0, a parity-check bit follows from the others, any other bit is either. -/
def polarList (j : BitVec 512) (llr : List Int) : List PolarPath :=
  let n := jFld j 7 14 4; let size := 2 ^ jFld j 7 18 3
  let carry := polCarriers j; let checks := polChecks j
  (List.range (2 ^ n)).foldl (fun ps i =>
    let next := ps.flatMap (fun p =>
      let l := polarLlr n llr p.bits i
      if !carry.contains i then [p.extend l false]
      else if checks.contains i then [p.extend l (polarParity carry checks p.bits i)]
      else [p.extend l false, p.extend l true])
    (sortBy betterPath next).take size) [{}]

/-! ### Bits and CRC -/

/-- Input interleaving: the bit that is coded `k`-th (IL). -/
def polInterleave (j : BitVec 512) : List Nat :=
  let k := polK j
  if jBit j 7 21 then ((List.range 164).map polarPattern).filterMap (fun p =>
    if 164 - k ≤ p then some (p - (164 - k)) else none)
  else List.range k

/-- The block's K bits on a path, CRC included. -/
def polBits (j : BitVec 512) (p : PolarPath) : List Bool :=
  let checks := polChecks j
  let coded := ((List.range (polN j)).filter (fun i => (polCarriers j).contains i && !checks.contains i)).map (fun i => p.bits.getD i false)
  let order := polInterleave j
  (List.range (polK j)).map (fun k => match order.idxOf? k with | some t => coded.getD t false | none => false)

end Sys2Proof.Machine
end

