-- ==== Sys2Proof/Machine/Turbo.lean ====
section
/-! DEFINITION. The turbo code (R247): its trellis, interleaver and streams, and max-log-MAP decoding with scaled extrinsic
values. The constituent code, the order of the tail bits and the interleaver's form are those of TS 36.212, which R240 and R247
name (PRESUMED, log 44); the interleaver's two parameters for each K are in Tables (PRESUMED, log 118). -/

namespace Sys2Proof.Machine

/-! ### The code -/

/-- Place in the first encoder's order of bit `i` of the second's. -/
def turboPlace (k i : Nat) : Nat := (turboF1 k * i + turboF2 k * i * i) % k

/-- Feedback of state `s` (its newest bit at bit 2): 1 + D^2 + D^3. -/
def rscBack (s : Nat) : Bool := bitAt s 1 != bitAt s 0

/-- The state after input `x`, and the parity bit 1 + D + D^3. -/
def rscNext (s : Nat) (x : Bool) : Nat × Bool :=
  let r := x != rscBack s
  (bit r * 4 + s / 2, (r != bitAt s 2) != bitAt s 0)

/-- One step of a trellis: the LLRs of its two bits, whether it is a tail step, which drives the state to 0, and whether its bit
is known to be 0. -/
structure TurboStep where
  sys : Int
  par : Int
  tail : Bool := false
  zero : Bool := false

/-- Branches of a step: from, input, to, metric. A bit that is 1 costs its LLR. -/
def TurboStep.branches (t : TurboStep) : List (Nat × Bool × Nat × Int) :=
  (List.range 8).flatMap (fun s => ([false, true].filter (fun x => (!t.tail || x == rscBack s) && !(t.zero && x))).map (fun x =>
    let (d, z) := rscNext s x
    (s, x, d, llrSat ((if x then -t.sys else 0) + (if z then -t.par else 0)))))

/-! ### Metrics -/

/-- Path metrics of the eight states; none for a state that cannot be reached. -/
abbrev Metrics := List (Option Int)

/-- State 0 alone. -/
def zeroState : Metrics := (List.range 8).map (fun s => if s = 0 then some 0 else none)

/-- The largest of the metrics that exist. -/
def maxMetric (l : List (Option Int)) : Option Int :=
  l.foldl (fun a v => match a, v with | none, v => v | some a, some v => some (max a v) | some a, none => some a) none

/-- Metrics relative to the largest: the spec gives no normalisation, without which saturated metrics would all meet
(DESIGN CHOICE, log 45). -/
def relativeMetrics (m : Metrics) : Metrics :=
  match maxMetric m with | none => m | some t => m.map (fun v => v.map (fun x => llrSat (x - t)))

/-- Sum of the metrics of a branch. -/
def addMetric (a : Option Int) (g : Int) : Option Int := a.map (fun x => llrSat (x + g))

/-- Metrics after a step, from those before it, and before it from those after it. -/
def forwardMetrics (m : Metrics) (t : TurboStep) : Metrics :=
  relativeMetrics ((List.range 8).map (fun d => maxMetric ((t.branches.filter (fun b => b.2.2.1 == d)).map (fun b =>
    addMetric (m.getD b.1 none) b.2.2.2))))
def backwardMetrics (m : Metrics) (t : TurboStep) : Metrics :=
  relativeMetrics ((List.range 8).map (fun s => maxMetric ((t.branches.filter (fun b => b.1 == s)).map (fun b =>
    addMetric (m.getD b.2.2.1 none) b.2.2.2))))

/-- The metrics before each step, and after each step, of a trellis that starts and ends in state 0. -/
def forwardAll : Metrics → List TurboStep → List Metrics
  | _, [] => []
  | m, t :: ts => m :: forwardAll (forwardMetrics m t) ts
def backwardAll (ts : List TurboStep) : List Metrics :=
  (ts.foldr (fun t (r : Metrics × List Metrics) => (backwardMetrics r.1 t, r.1 :: r.2)) (zeroState, [])).2

/-- The a posteriori LLR of a step's bit: max-log-MAP. -/
def stepLlr (a b : Metrics) (t : TurboStep) : Int :=
  let best := fun (x : Bool) => maxMetric ((t.branches.filter (fun r => r.2.1 == x)).map (fun r =>
    match addMetric (a.getD r.1 none) r.2.2.2, b.getD r.2.2.1 none with
    | some u, some v => some (llrSat (u + v))
    | _, _ => none))
  match best false, best true with
  | some u, some v => llrSat (u - v)
  | some _, none => 127
  | none, some _ => -127
  | none, none => 0

/-- The a posteriori LLRs of a trellis. -/
def trellisLlrs (ts : List TurboStep) : List Int :=
  let a := forwardAll zeroState ts
  let b := backwardAll ts
  ts.mapIdx (fun k t => stepLlr (a.getD k zeroState) (b.getD k zeroState) t)

/-! ### Iterations (R247) -/

/-- A code block's LLRs: bit `i` of stream `d`, of K + 4 each. -/
def turboIn (k : Nat) (llr : List Int) (d i : Nat) : Int := llr.getD (d * (k + 4) + i) 0

/-- The tail steps of the first and of the second constituent code, at their places in the three streams. -/
def turboTail (k : Nat) (llr : List Int) (second : Bool) : List TurboStep :=
  let o := if second then 2 else 0
  let at' := fun (n : Nat) => turboIn k llr (n % 3) (k + o + n / 3)
  (List.range 3).map (fun t => { sys := at' (2 * t), par := at' (2 * t + 1), tail := true })

/-- A half iteration: a priori values in, a posteriori and extrinsic values out, the latter × TURBO_SCALE / 16. -/
def turboHalf (scale : Nat) (sys par apr : List Int) (zero : Nat → Bool) (tail : List TurboStep) : List Int × List Int :=
  let steps := sys.mapIdx (fun i x => ({ sys := llrSat (x + apr.getD i 0), par := par.getD i 0, zero := zero i } : TurboStep))
  let app := (trellisLlrs (steps ++ tail)).take sys.length
  (app, app.mapIdx (fun i x => scaleLlr (llrSat (x - llrSat (sys.getD i 0 + apr.getD i 0))) scale))

/-- The a posteriori LLRs after `n` full iterations, in the order of the block's bits, and the a priori values of the next. -/
def turboAfter (k filler scale : Nat) (llr : List Int) : Nat → List Int × List Int
  | 0 => (List.replicate k 0, List.replicate k 0)
  | n + 1 =>
    let apr := (turboAfter k filler scale llr n).2
    let sys := (List.range k).map (turboIn k llr 0)
    let zero := fun i => decide (i < filler)
    let (_, e1) := turboHalf scale sys ((List.range k).map (turboIn k llr 1)) apr zero (turboTail k llr false)
    let order := (List.range k).map (turboPlace k)
    let (a2, e2) := turboHalf scale (order.map (fun p => sys.getD p 0)) ((List.range k).map (turboIn k llr 2))
      (order.map (fun p => e1.getD p 0)) (fun i => zero (turboPlace k i)) (turboTail k llr true)
    let back := fun (v : List Int) => (List.range k).map (fun p => match order.idxOf? p with | some i => v.getD i 0 | none => 0)
    (back a2, back e2)

/-- The hard decisions after `n` full iterations, fillers being 0. -/
def turboHard (k filler scale : Nat) (llr : List Int) (n : Nat) : List Bool :=
  (turboAfter k filler scale llr n).1.mapIdx (fun i x => decide (filler ≤ i) && hardBit i x)

end Sys2Proof.Machine
end

