-- ==== Sys2Proof/Machine/Coding.lean ====
section
/-! DEFINITION. The channel coding jobs (R240 to R249): LDPC decoders and encoders, turbo decoders and polar decoders, with
their CRCs, iterations, outputs, poison and records. The codes are in Ldpc, Turbo and Polar. -/

namespace Sys2Proof.Machine

/-! ### CRCs -/

/-- A CRC: length and generator without its leading term. The generators are those of TS 38.212 (PRESUMED, log 44). -/
structure Crc where
  len : Nat
  poly : Nat
  deriving DecidableEq, Repr

def crc24a : Crc := ⟨24, 0x864CFB⟩
def crc24b : Crc := ⟨24, 0x800063⟩
def crc16 : Crc := ⟨16, 0x1021⟩
def crc24c : Crc := ⟨24, 0xB2B117⟩
def crc11 : Crc := ⟨11, 0x621⟩
def crc6 : Crc := ⟨6, 0x21⟩

/-- Remainder of a bit string. -/
def Crc.rem (c : Crc) (l : List Bool) : Nat :=
  l.foldl (fun r b =>
    let r := 2 * r + bit b
    if r < 2 ^ c.len then r else r ^^^ (2 ^ c.len + c.poly)) 0

/-- A string that ends in its CRC passes. -/
def Crc.ok (c : Crc) (l : List Bool) : Bool := c.rem l == 0

/-- The CRC bits to append to a string. -/
def Crc.bits (c : Crc) (l : List Bool) : List Bool :=
  let r := c.rem (l ++ List.replicate c.len false)
  (List.range c.len).map (fun k => bitAt r (c.len - 1 - k))

/-! ### Decoded blocks and their outputs (R243, R244) -/

/-- A decoded code block. -/
structure Block where
  bits : List Bool
  iters : Nat := 0
  conv : Bool := false
  unsat : Nat := 0
  crcRun : Bool := false
  crcOk : Bool := false
  poison : Bool := false
  deriving DecidableEq, Repr

/-- Word 4 + r of R244. -/
def Block.word (b : Block) : Nat :=
  b.iters % 64 + bit b.conv * 2 ^ 6 + bit b.crcOk * 2 ^ 7 + bit b.crcRun * 2 ^ 8 + bit b.poison * 2 ^ 9 +
    min b.unsat 65535 * 2 ^ 16

/-- Iterations a block runs: the first after which every enabled condition holds, or all of them (R242). -/
def iterations (maxIter : Nat) (stop : Nat → Bool) : Nat :=
  ((List.range maxIter).find? (fun k => stop (k + 1))).elim maxIter (· + 1)

/-- Iterations run over a job's blocks. -/
def totalIters (bs : List Block) : Nat := bs.foldl (fun a b => a + b.iters) 0

/-- The decode of a transport block from its code blocks: output regions and what the job reports (R243, R244). `tail` is
the length of the code-block CRC, `skip` the bits of block 0 that are fillers, `fails` says that a block counts in
CB_FAIL (R244), `bad` that it gives the outcome CB_FAIL (R237). -/
def decodeDone (j : BitVec 512) (concat : Bool) (stride tail skip : Nat) (tb : Option Crc) (fails bad : Block → Bool)
    (bs : List Block) : List Region × JobDone :=
  let strip := bs.mapIdx (fun r b => (b.bits.take (b.bits.length - tail)).drop (if r = 0 then skip else 0))
  let whole := strip.flatten
  let tbOk := match tb with | some c => c.ok whole | none => false
  let regions := if concat then [{ addr := jOut j, bytes := packString whole }]
    else bs.mapIdx (fun r b => { addr := jOut j + r * stride, bytes := packString b.bits })
  let nf := (bs.filter fails).length
  let pz := bs.any (·.poison)
  let iters := totalIters bs
  (regions,
   { poisonIn := pz, cbFail := bs.any bad, tbFail := tb.isSome && !tbOk, hi0 := bs.length, w1 := iters % 2 ^ 32
     w2 := nf + bit tbOk * 2 ^ 16 + bit tb.isSome * 2 ^ 17 + bit pz * 2 ^ 18, rest := bs.map Block.word })

/-- Reads the LLRs of each block: `n` bytes at IN + r × stride. -/
def readBlocks (e : Nat) (j : BitVec 512) (stride n : Nat) : List Nat → Job (List (List DataUnit))
  | [] => pure []
  | r :: rs => do
    let ds ← jobUnits (jobWay e j (jKeyIn j)) 0x102 ((jIn j + r * stride) / 16) (ceilDiv n 16)
    let rest ← readBlocks e j stride n rs
    pure (ds :: rest)

/-- Output ranges of a coding job: one string, or one region per block. -/
def outRanges (j : BitVec 512) (concat : Bool) (stride bytes c total : Nat) : List (Nat × Nat) :=
  if concat then [(jOut j, total)] else (List.range c).map (fun r => (jOut j + r * stride, bytes))

/-! ### LDPC decoders (R241 to R245) -/

/-- Normalisation in sixteenths: 0 is treated as 12 (R255). -/
def ldpcAlpha (cfg : Nat) : Nat := if cfg % 16 = 0 then 12 else cfg % 16

/-- The transport-block CRC of R241. -/
def ldpcTbCrc (j : BitVec 512) : Option Crc :=
  match jFld j 7 27 2 with | 1 => some crc24a | 2 => some crc16 | _ => none

/-- One code block decoded. The block's CRC is CRC24B, or the transport block's where that is the only block. -/
def ldpcBlock (j : BitVec 512) (cfg : Nat) (ds : List DataUnit) : Block :=
  let zc := jFld j 7 0 9; let bg := jBit j 7 9; let kp := jFld j 8 0 16; let filler := jFld j 8 16 16
  let llr := unitLlrs ds (jFld j 9 0 16)
  let word := ldpcHard zc bg kp filler (ldpcAlpha cfg) llr
  let bits := fun n => (word n).take kp
  let unsat := fun n => ldpcUnsat zc bg (word n)
  let crc := if jBit j 7 26 then some crc24b else if jFld j 9 16 16 = 1 then ldpcTbCrc j else none
  let passes := fun n => match crc with | some c => c.ok (bits n) | none => false
  let syn := jBit j 7 24; let et := jBit j 7 25
  let n := iterations (jFld j 7 16 6) (fun n => (syn || et) && (!syn || unsat n == 0) && (!et || passes n))
  { bits := bits n, iters := n, conv := unsat n == 0, unsat := unsat n, crcRun := crc.isSome, crcOk := passes n
    poison := ds.any (·.poison) }

/-- The body of an LDPC decode. -/
def ldpcDecodeBody (e : Nat) (j : BitVec 512) (cfg : Nat) : Job JobDone := do
  let ins ← readBlocks e j (jFld j 10 0 24) (jFld j 9 0 16) (List.range (jFld j 9 16 16))
  let cb := jBit j 7 26
  let bs := ins.map (ldpcBlock j cfg)
  jobIters e (totalIters bs)
  let (rs, d) := decodeDone j (jBit j 7 29) (jFld j 11 0 24) (if cb then 24 else 0) 0 (ldpcTbCrc j)
    (fun b => if cb then !b.crcOk else !b.conv) (fun b => if b.crcRun then !b.crcOk else !b.conv) bs
  jobOut e j rs
  pure d

/-- Output ranges of an LDPC decode. -/
def ldpcDecRanges (j : BitVec 512) : List (Nat × Nat) :=
  let kp := jFld j 8 0 16; let c := jFld j 9 16 16
  outRanges j (jBit j 7 29) (jFld j 11 0 24) (ceilDiv kp 8) c (ceilDiv (c * (kp - 24 * jFld j 7 26 1)) 8)

/-- LDPC_DECODE_JOB (R242 to R244). -/
def execLdpcDecodeJob (e : Fin 104) (s : State) : Host.Outcome State Fault Refusal :=
  let j := (s.eng e.val).job
  if s.jobReady e.val 0 (fun _ => true) then
    .next (s.runJob e.val (ldpcDecRanges j) (ldpcDecodeBody e.val j (s.eng e.val).cfg))
  else .next s

/-! ### LDPC encoders (R246) -/

/-- Output region of one block. -/
def ldpcEncodeBlock (j : BitVec 512) (r : Nat) (ds : List DataUnit) : Region :=
  let zc := jFld j 7 0 9; let bg := jBit j 7 9; let kp := jFld j 8 0 16; let cb := jBit j 7 26
  let bs := unitBytes ds 0 (16 * ds.length)
  let msg := (List.range (kp - if cb then 24 else 0)).map (packedBit bs)
  let info := if cb then msg ++ crc24b.bits msg else msg
  let out := ((ldpcCodeword zc bg info).drop (2 * zc)).take (jFld j 9 0 16)
  let bytes := packString out
  { addr := jOut j + r * jFld j 11 0 24, bytes := bytes
    pz := if ds.any (·.poison) then List.replicate (ceilDiv bytes.length 16) true else [] }

/-- The body of an LDPC encode. -/
def ldpcEncodeBody (e : Nat) (j : BitVec 512) : Job JobDone := do
  let c := jFld j 9 16 16
  let ins ← readBlocks e j (jFld j 10 0 24) (ceilDiv (jFld j 8 0 16 - 24 * jFld j 7 26 1) 8) (List.range c)
  jobOut e j (ins.mapIdx (ldpcEncodeBlock j))
  let pz := ins.any (fun ds => ds.any (·.poison))
  pure { poisonIn := pz, hi0 := c, w2 := bit pz * 2 ^ 18 }

/-- Output ranges of an LDPC encode. -/
def ldpcEncRanges (j : BitVec 512) : List (Nat × Nat) :=
  outRanges j false (jFld j 11 0 24) (ceilDiv (jFld j 9 0 16) 8) (jFld j 9 16 16) 0

/-- LDPC_ENCODE_JOB (R246). -/
def execLdpcEncodeJob (e : Fin 104) (s : State) : Host.Outcome State Fault Refusal :=
  let j := (s.eng e.val).job
  if s.jobReady e.val 1 (fun _ => true) then
    .next (s.runJob e.val (ldpcEncRanges j) (ldpcEncodeBody e.val j))
  else .next s

/-! ### Turbo decoders (R247) -/

/-- Extrinsic scale in sixteenths: 0 means 16 (R255). -/
def turboScale (cfg : Nat) : Nat := if bitsOf cfg 8 4 = 0 then 16 else bitsOf cfg 8 4

/-- Code block `r` decoded. -/
def turboBlock (j : BitVec 512) (cfg r : Nat) (ds : List DataUnit) : Block :=
  let k := jFld j 7 0 13; let filler := if r = 0 then jFld j 8 0 6 else 0
  let llr := unitLlrs ds (3 * (k + 4))
  let bits := turboHard k filler (turboScale cfg) llr
  let tb := jBit j 7 26
  let crc := if jBit j 7 25 then some crc24b else if tb && jFld j 8 16 8 == 1 then some crc24a else none
  -- fillers are zeros in front, which leave a CRC as it is
  let passes := fun n => match crc with | some c => c.ok (bits n) | none => false
  let n := iterations (jFld j 7 16 4) (fun n => jBit j 7 24 && passes n)
  { bits := bits n, iters := n, crcRun := crc.isSome, crcOk := passes n, poison := ds.any (·.poison) }

/-- The body of a turbo decode. Without a code-block CRC no block counts as failed, since CONV is held at 0
(DESIGN CHOICE, log 45); the transport block leaves block 0's fillers out (DEDUCED, log 45). -/
def turboDecodeBody (e : Nat) (j : BitVec 512) (cfg : Nat) : Job JobDone := do
  let ins ← readBlocks e j (jFld j 9 0 24) (3 * (jFld j 7 0 13 + 4)) (List.range (jFld j 8 16 8))
  let cb := jBit j 7 25
  let bs := ins.mapIdx (turboBlock j cfg)
  jobIters e (totalIters bs)
  let (rs, d) := decodeDone j (jBit j 7 27) (jFld j 10 0 24) (if cb then 24 else 0) (jFld j 8 0 6)
    (if jBit j 7 26 then some crc24a else none) (fun b => cb && !b.crcOk) (fun b => b.crcRun && !b.crcOk) bs
  jobOut e j rs
  pure d

/-- Output ranges of a turbo decode. -/
def turboRanges (j : BitVec 512) : List (Nat × Nat) :=
  let k := jFld j 7 0 13; let c := jFld j 8 16 8
  outRanges j (jBit j 7 27) (jFld j 10 0 24) (ceilDiv k 8) c (ceilDiv (c * (k - 24 * jFld j 7 25 1) - jFld j 8 0 6) 8)

/-- TURBO_DECODE_JOB (R247). -/
def execTurboDecodeJob (e : Fin 104) (s : State) : Host.Outcome State Fault Refusal :=
  let j := (s.eng e.val).job
  if s.jobReady e.val 2 (fun _ => true) then
    .next (s.runJob e.val (turboRanges j) (turboDecodeBody e.val j (s.eng e.val).cfg))
  else .next s

/-! ### Polar decoders (R248, R249) -/

/-- The CRC of R248. -/
def polCrc (j : BitVec 512) : Crc := match jFld j 7 25 2 with | 0 => crc24c | 1 => crc11 | _ => crc6

/-- The block's bits pass their CRC, RNTI being XORed onto its last 16 bits. Whether a CRC24C counts the 24 ones that TS 38.212
puts before a DCI and not before a PBCH the job does not say: a free choice (log 44). -/
def polPasses (j : BitVec 512) (bits : List Bool) : Bool :=
  let c := polCrc j; let n := bits.length - c.len; let rnti := jFld j 8 16 16
  let ones := c.len == 24 && Config.crcOnes rnti
  let unmasked := bits.mapIdx (fun k b => b != (decide (n ≤ k) && decide (bits.length < k + 17) && bitAt rnti (bits.length - 1 - k)))
  c.ok (List.replicate (if ones then 24 else 0) true ++ unmasked)

/-- Code block decoded: the best path among those whose CRC passes, or the best of all. -/
structure PolarBlock where
  bits : List Bool
  crcOk : Bool
  metric : Nat
  poison : Bool

def polarBlock (j : BitVec 512) (ds : List DataUnit) : PolarBlock :=
  let ps := polarList j (polRecovered j (unitLlrs ds (polE j)))
  let good := ps.find? (fun p => polPasses j (polBits j p))
  let p := good.getD (ps.headD {})
  { bits := polBits j p, crcOk := good.isSome, metric := p.metric, poison := ds.any (·.poison) }

/-- Word 4 + r of R249. -/
def PolarBlock.word (b : PolarBlock) : Nat := bit b.crcOk + bit b.poison * 2 + min b.metric 65535 * 2 ^ 16

/-- The body of a polar decode. -/
def polarDecodeBody (e : Nat) (j : BitVec 512) : Job JobDone := do
  let c := jFld j 9 0 9
  let ins ← readBlocks e j (jFld j 10 0 24) (polE j) (List.range c)
  let bs := ins.map (polarBlock j)
  jobOut e j (bs.mapIdx (fun r b =>
    { addr := jOut j + r * jFld j 11 0 24, bytes := packString (b.bits.take (polK j - polarCrc j)) }))
  let pz := bs.any (·.poison)
  let nf := (bs.filter (fun b => !b.crcOk)).length
  pure { poisonIn := pz, cbFail := decide (0 < nf), hi0 := c, w2 := nf + bit pz * 2 ^ 18, rest := bs.map PolarBlock.word }

/-- Output ranges of a polar decode. -/
def polarRanges (j : BitVec 512) : List (Nat × Nat) :=
  outRanges j false (jFld j 11 0 24) (ceilDiv (jFld j 8 0 10 - polarCrc j) 8) (jFld j 9 0 9) 0

/-- POLAR_DECODE_JOB (R248, R249). -/
def execPolarDecodeJob (e : Fin 104) (s : State) : Host.Outcome State Fault Refusal :=
  let j := (s.eng e.val).job
  if s.jobReady e.val 3 (fun _ => true) then
    .next (s.runJob e.val (polarRanges j) (polarDecodeBody e.val j))
  else .next s

end Sys2Proof.Machine
end

