-- ==== Sys2Proof/Machine/Spectral.lean ====
section
/-! DEFINITION. The FFT jobs (R258 to R264), and what they share with the matrix jobs: samples, conversion to an output
format, items and overlaps. -/

namespace Sys2Proof.Machine

/-! ### Samples and conversion (R258) -/

/-- Component `k` (I, Q, I, Q, …) of a byte string of samples. -/
def sampleComp (cs32 : Bool) (bs : List Byte) (k : Nat) : Int :=
  if cs32 then toSigned 32 (leValue ((bs.drop (4 * k)).take 4)) else toSigned 16 (leValue ((bs.drop (2 * k)).take 2))

/-- Fraction bits of a format: Q1.15 or Q1.31. -/
def fracBits (cs32 : Bool) : Nat := if cs32 then 31 else 15

/-- `num / den`, rounded half to even. -/
def roundRat (num : Int) (den : Nat) : Int :=
  let q := num / (den : Int)
  let r := 2 * (num - q * (den : Int))
  if r < (den : Int) then q else if (den : Int) < r then q + 1 else if q % 2 = 0 then q else q + 1

/-- `num × 2^k / den`, rounded half to even. -/
def roundScaled (num : Int) (den : Nat) (k : Int) : Int :=
  if 0 ≤ k then roundRat (num * ((2 ^ k.toNat : Nat) : Int)) den else roundRat num (den * 2 ^ (-k).toNat)

/-- How far result `n` lies from the exact one: at most 2 LSB (R264, R268). -/
def lsbOff (n : Nat) : Int := (Config.deviation n % 5 : Nat) - 2

/-- Saturates a component; true where it had to (R258). -/
def fitComp (cs32 : Bool) (v : Int) : Int × Bool :=
  let m : Int := ((2 ^ fracBits cs32 : Nat) : Int)
  if v < -m then (-m, true) else if m ≤ v then (m - 1, true) else (v, false)

/-- Bytes of a component. -/
def compBytes (cs32 : Bool) (v : Int) : List Byte := if cs32 then leBytes 4 (ofSigned 32 v) else leBytes 2 (ofSigned 16 v)

/-- Converts components, each off by what `lsbOff` gives from `n0` on. Answers the bytes and the number saturated. -/
def convert (cs32 : Bool) (n0 : Nat) (vs : List Int) : List Byte × Nat :=
  let fs := vs.mapIdx (fun k v => fitComp cs32 (v + lsbOff (n0 + k)))
  (fs.flatMap (fun f => compBytes cs32 f.1), (fs.filter (·.2)).length)

/-! ### Items (R259, R260) -/

/-- Ranges of bytes meet. -/
def meets (a b : Nat × Nat) : Bool := decide (a.1 < b.1 + b.2) && decide (b.1 < a.1 + a.2)

/-- The outputs overlap what R259 forbids: another item's input or output, or a shared input. -/
def overlapBad (ins : List (List (Nat × Nat))) (outs shared : List (Nat × Nat)) : Bool :=
  (outs.mapIdx (fun p o => shared.any (meets o) ||
    (ins.mapIdx (fun q i => q != p && i.any (meets o))).any id ||
    (outs.mapIdx (fun q o' => q != p && meets o o')).any id)).any id

/-- A region whose bytes are indeterminate where `bad` (R259). -/
def blurOut (bad : Bool) (r : Region) : Job Region := fun s =>
  if bad then (let (bs, t) := s.freeBytes r.bytes.length; .ok ({ r with bytes := bs }, t)) else .ok (r, s)

/-- Reads the bytes of one item at any byte address, and whether a unit of it carries poison. -/
def readItem (e : Nat) (j : BitVec 512) (addr len : Nat) : Job (List Byte × Bool) := do
  if len = 0 then pure ([], false)
  else
    let n := (addr + len - 1) / 16 - addr / 16 + 1
    let ds ← jobUnits (jobWay e j (jKeyIn j)) 0x102 (addr / 16) n
    pure (unitBytes ds (addr % 16) len, ds.any (·.poison))

/-- One item's result: its bytes, saturated components, poison, and a pivot below the floor. -/
structure Item where
  bytes : List Byte
  sat : Nat
  poison : Bool
  ill : Bool := false
  deriving DecidableEq, Repr

/-- What the items written so far come to. -/
structure ItemSum where
  items : Nat := 0
  sat : Nat := 0
  poisoned : Nat := 0
  ill : Nat := 0
  deriving DecidableEq, Repr

/-- One item more. -/
def ItemSum.plus (a : ItemSum) (it : Item) : ItemSum :=
  { items := a.items + 1, sat := a.sat + it.sat, poisoned := a.poisoned + bit it.poison, ill := a.ill + bit it.ill }

/-- Its counts (R274), which hold for the items written even where the job then meets an error. -/
def ItemSum.counts (a : ItemSum) : JobDone := { items := a.items, satCnt := a.sat, illCnt := a.ill }

/-- How a job's items are read and written: an item is read whole, a write is told the item before; and the output ranges that are not
fully written while item `p` and those after it are not. -/
structure ItemPlan where
  read : Nat → Job Item
  write : Option Item → Nat → Item → Job Unit
  left : Nat → List (Nat × Nat)

/-- A part of a job between items: if it fails, what is written and counted stands (R238, R274). -/
def ItemPlan.part {α : Type} (x : ItemPlan) (p : Nat) (acc : ItemSum) (part : Job α) : Job α := fun s =>
  match part s with
  | .ok r => .ok r
  | .error z => .error { z with left := some (x.left p), counts := acc.counts }

/-- Draws `n` free values. -/
def jobDraw (n : Nat) : Job Nat := fun s => .ok (s.free, { s with free := s.free + n })

/-- Item `p`, which has been read, and the `n` items after it. Item p + 1 is read before or after item p is written, a free choice (R259,
log 48). -/
def ItemPlan.from (x : ItemPlan) (prev : Option Item) (p : Nat) (it : Item) (acc : ItemSum) : Nat → Job ItemSum
  | 0 => do
    x.part p acc (x.write prev p it)
    pure (acc.plus it)
  | n + 1 => do
    let k ← jobDraw 1
    if Config.readsAhead k then
      let next ← x.part p acc (x.read (p + 1))
      x.part p acc (x.write prev p it)
      x.from (some it) (p + 1) next (acc.plus it) n
    else
      x.part p acc (x.write prev p it)
      let next ← x.part (p + 1) (acc.plus it) (x.read (p + 1))
      x.from (some it) (p + 1) next (acc.plus it) n

/-- All `n` items of a job. -/
def ItemPlan.run (x : ItemPlan) (n : Nat) : Job ItemSum :=
  if n = 0 then pure {}
  else do
    let first ← x.part 0 {} (x.read 0)
    x.from none 0 first {} (n - 1)

/-! ### Rotations

The exact transform is formed from rotations held to 64 fraction bits; what that loses lies far inside the 2 LSB of R264
(log 48). -/

/-- π × 2^96. -/
def piFix : Nat := 248902613312231085230521944622

/-- The Taylor sum of the cosine of `x` × 2^-96: `fuel` terms from `term`, the `k`-th. -/
def cosSum (x2 : Int) : Nat → Nat → Int → Int
  | 0, _, _ => 0
  | fuel + 1, k, term =>
    term + cosSum x2 fuel (k + 1) (-(term * x2) / (((2 ^ 96 * ((2 * k + 1) * (2 * k + 2)) : Nat)) : Int))

/-- cos(π m / n) × 2^64 for an angle below 2π. -/
def cosFix (n m : Nat) : Int :=
  let m := m % (2 * n)
  let a := (piFix * (if m ≤ n then m else 2 * n - m) / n : Nat)
  let x2 : Int := ((a * a / 2 ^ 96 : Nat) : Int)
  cosSum x2 40 0 ((2 ^ 96 : Nat) : Int) / ((2 ^ 32 : Nat) : Int)

/-- sin(π m / n) × 2^64, for even n. -/
def sinFix (n m : Nat) : Int := cosFix n (m + 3 * (n / 2))

/-- (a + jb) × e^(jπ m / n), × 2^64. -/
def rotate (n m : Nat) (v : Int × Int) : Int × Int :=
  let c := cosFix n m; let s := sinFix n m
  (v.1 * c - v.2 * s, v.1 * s + v.2 * c)

/-- Sum of rotated values: value k turned by π (f k) / n. -/
def rotSum (n : Nat) (vs : List (Int × Int)) (f : Nat → Nat) : Int × Int :=
  (vs.mapIdx (fun k v => rotate n (f k) v)).foldl (fun a v => (a.1 + v.1, a.2 + v.2)) (0, 0)

/-! ### FFT jobs (R262 to R264) -/

/-- Prefix of symbol `y` (R263). -/
def fftCp (j : BitVec 512) (y : Nat) : Nat :=
  let every := jFld j 10 0 16
  if jBit j 7 6 = false then 0 else if every ≠ 0 ∧ y % every = 0 then jFld j 9 16 13 else jFld j 9 0 13

/-- Frequency-domain values of a symbol, and the bin of index `i` (R263). -/
def fftUsed (j : BitVec 512) : Nat := let u := jFld j 7 16 13; if u = 0 then fftSize (jFld j 7 0 3) else u
def fftBin (j : BitVec 512) (i : Nat) : Nat :=
  let u := jFld j 7 16 13; let h := u / 2; let n := fftSize (jFld j 7 0 3)
  if u = 0 then i else if i < h then n - h + i else i - h + jFld j 7 8 1

/-- Samples before symbol `y` on a packed time side. -/
def fftBefore (j : BitVec 512) (y : Nat) : Nat :=
  (List.range y).foldl (fun a k => a + fftCp j k + fftSize (jFld j 7 0 3)) 0

/-- Place and length in bytes of symbol `y` at `base`. -/
def fftPlace (j : BitVec 512) (base stride : Nat) (time cs32 : Bool) (y : Nat) : Nat × Nat :=
  let n := if time then fftCp j y + fftSize (jFld j 7 0 3) else fftUsed j
  let off := if stride = 0 then (if time then fftBefore j y else y * fftUsed j) * sampleBytes cs32 else y * stride
  (base + off, n * sampleBytes cs32)

def fftIn (j : BitVec 512) (y : Nat) : Nat × Nat := fftPlace j (jIn j) (jFld j 11 0 24) (!jBit j 7 3) (jBit j 7 4) y
def fftOut (j : BitVec 512) (y : Nat) : Nat × Nat := fftPlace j (jOut j) (jFld j 12 0 24) (jBit j 7 3) (jBit j 7 5) y

/-- Index of a rotation by `a`, or by its negative, modulo a turn of `2n` steps. -/
def fftTurn (n : Nat) (neg : Bool) (a : Int) : Nat := ((if neg then -a else a) % ((2 * n : Nat) : Int)).toNat

/-- The transform of one symbol: its components × 2^64 before SCALE (R263). -/
def fftSymbol (j : BitVec 512) (y : Nat) (bs : List Byte) : List Int :=
  let n := fftSize (jFld j 7 0 3); let fi := jBit j 7 4; let half : Int := (jFld j 7 7 1 : Nat)
  let smp := fun k => (sampleComp fi bs (2 * k), sampleComp fi bs (2 * k + 1))
  if jBit j 7 3 then
    let vs := (List.range (fftUsed j)).map smp
    (List.range (fftCp j y + n)).flatMap (fun (t : Nat) =>
      let tn : Int := (t : Int) - (fftCp j y : Nat)
      let v := rotSum n vs (fun i => fftTurn n false (2 * (fftBin j i : Nat) * tn + half * tn))
      [v.1, v.2])
  else
    let adv := jFld j 10 16 13
    let vs := (List.range n).map (fun i => smp (fftCp j y - adv + i))
    (List.range (fftUsed j)).flatMap (fun (k : Nat) =>
      let v := rotSum n vs (fun i => fftTurn n true (2 * (fftBin j k : Nat) * (i : Nat) + half * ((i : Nat) - (adv : Nat) : Int)))
      [v.1, v.2])

/-- Samples of an inverse symbol's prefix that are copies of its last ones: with HALF none, as the shift turns them apart
(R263). A copy counts no saturation of its own (DEDUCED, log 48). -/
def fftCopies (j : BitVec 512) (y : Nat) : Nat := if jBit j 7 3 && !jBit j 7 7 then fftCp j y else 0

/-- Symbol `y` transformed. -/
def fftItem (e : Nat) (j : BitVec 512) (y : Nat) : Job Item := do
  let (bs, pz) ← readItem e j (fftIn j y).1 (fftIn j y).2
  let den := 2 ^ (64 + jFld j 7 9 4)
  let all := (fftSymbol j y bs).map (fun v => roundScaled v den ((fracBits (jBit j 7 5) : Int) - fracBits (jBit j 7 4)))
  let copies := fftCopies j y
  let vs := all.drop (2 * copies)
  let n0 ← jobDraw vs.length
  let (body, sat) := convert (jBit j 7 5) n0 vs
  pure { bytes := body.drop (body.length - copies * sampleBytes (jBit j 7 5)) ++ body, sat := sat, poison := pz }

/-- Region of an item in a place of its own. A poisoned item poisons every unit that holds data of it (R260). -/
def itemRegion (addr : Nat) (it : Item) : Region :=
  { addr := addr, bytes := it.bytes, pz := if it.poison then List.replicate (ceilDiv it.bytes.length 16) true else [] }

/-- The lines that an item at `place` completes where the items lie one after another from `base`: they begin with the end of the item
before, and but for the `last` item end with its last whole line. -/
def packedRegion (base : Nat) (place : Nat × Nat) (prev : Option Item) (last : Bool) (it : Item) : Region :=
  let head := (place.1 - base) % 64
  let before := (prev.map (fun q => q.bytes.drop (q.bytes.length - head))).getD []
  let bs := before ++ it.bytes
  let n := if last then bs.length else bs.length / 64 * 64
  { addr := place.1 - head, bytes := bs.take n
    pz := (List.range (ceilDiv n 16)).map (fun u =>
      (it.poison && decide (head < 16 * u + 16)) || ((prev.map (·.poison)).getD false && decide (16 * u < head))) }

/-- Bytes of the packed symbols. -/
def fftTotal (j : BitVec 512) : Nat := ((List.range (jFld j 8 0 16)).map (fftOut j)).foldl (fun a o => a + o.2) 0

/-- Output ranges of a job whose symbols before `p` are written: one where the symbols are packed, from its first line not yet
complete, else one per symbol. -/
def fftLeft (j : BitVec 512) (p : Nat) : List (Nat × Nat) :=
  if jFld j 12 0 24 = 0 then
    let done := ((fftOut j p).1 - jOut j) / 64 * 64
    [(jOut j + done, fftTotal j - done)]
  else ((List.range (jFld j 8 0 16)).drop p).map (fftOut j)

/-- The symbols of a job (R259). -/
def fftPlan (e : Nat) (j : BitVec 512) : ItemPlan :=
  let ys := List.range (jFld j 8 0 16)
  let packed := jFld j 12 0 24 == 0
  let outs := ys.map (fun y => if packed then fftOut j y else ((fftOut j y).1, align64 (fftOut j y).2))
  let bad := overlapBad (ys.map (fun y => [fftIn j y])) outs []
  { read := fftItem e j
    write := fun prev y it => do
      let r ← blurOut bad (if packed then packedRegion (jOut j) (fftOut j y) prev (y + 1 == ys.length) it
        else itemRegion (fftOut j y).1 it)
      jobOut e j [r]
    left := fftLeft j }

/-- The body of an FFT job. -/
def fftBody (e : Nat) (j : BitVec 512) : Job JobDone := do
  let a ← (fftPlan e j).run (jFld j 8 0 16)
  pure { poisonIn := decide (0 < a.poisoned), sat := decide (0 < a.sat), hi0 := a.items, w1 := min a.sat (2 ^ 32 - 1)
         w2 := a.poisoned + bit (decide (0 < a.poisoned)) * 2 ^ 16, items := a.items, satCnt := a.sat }

/-- Output ranges of the job. -/
def fftRanges (j : BitVec 512) : List (Nat × Nat) := fftLeft j 0

/-- FFT_JOB (R263, R264). -/
def execFftJob (e : Fin 104) (s : State) : Host.Outcome State Fault Refusal :=
  let j := (s.eng e.val).job
  if s.jobReady e.val 5 (fun _ => true) then
    .next (s.runJob e.val (fftRanges j) (fftBody e.val j))
  else .next s

end Sys2Proof.Machine
end

