-- ==== Sys2Proof/Machine/Matrix.lean ====
section
/-! DEFINITION. The matrix jobs (R265 to R268). Every result is the exact one but for the deviation R268 allows: 2 LSB for a matrix
that is no worse conditioned than 2^PIVOT_EXP, any otherwise. Factorisations are formed with 256 fraction bits, which loses
nothing that 2 LSB would show (log 49). -/

namespace Sys2Proof.Machine

/-- Component pair at row `r`, column `c` of a matrix of `cols` columns stored at byte `o` (R265). -/
def matAt (cs32 : Bool) (bs : List Byte) (o cols r c : Nat) : Int × Int :=
  let eb := sampleBytes cs32
  let b := bs.drop (o + r * (ceilDiv (cols * eb) 16 * 16) + c * eb)
  (sampleComp cs32 b 0, sampleComp cs32 b 1)

/-- Complex product and sum. -/
def cMul (a b : Int × Int) : Int × Int := (a.1 * b.1 - a.2 * b.2, a.1 * b.2 + a.2 * b.1)
def cSum (l : List (Int × Int)) : Int × Int := l.foldl (fun a v => (a.1 + v.1, a.2 + v.2)) (0, 0)
def cConj (a : Int × Int) : Int × Int := (a.1, -a.2)

/-- A job's dimensions and formats. -/
def mM (j : BitVec 512) : Nat := jFld j 7 8 7
def mN (j : BitVec 512) : Nat := jFld j 7 16 7
def mK (j : BitVec 512) : Nat := jFld j 7 24 7
def mIn (j : BitVec 512) : Bool := jBit j 7 4
def mOut (j : BitVec 512) : Bool := jBit j 7 5
def mXout (j : BitVec 512) : Bool := jBit j 7 7
def mShift (j : BitVec 512) : Int := toSigned 8 (jFld j 8 16 8)

/-- A matrix as stored: rows of components, each row padded with zeros to 16 bytes. -/
def matBytes (cs32 : Bool) (cols : Nat) (vs : List (List Byte)) : List Byte :=
  let rowB := cols * sampleBytes cs32
  vs.flatMap (fun r => (r ++ List.replicate (ceilDiv rowB 16 * 16 - rowB) 0))

/-- A component of an output before it is fitted: its exact value in LSB; a component that is 0 by its place stays 0, one that is not
negative by its place stays so, and one known to lie in [0, 1) stays below 1 (R266). -/
structure Comp where
  v : Int
  zero : Bool := false
  real : Bool := false
  unit : Bool := false

/-- An output matrix: format, rows, columns and the components of element (r, c). -/
structure MatOut where
  cs32 : Bool
  rows : Nat
  cols : Nat
  elem : Nat → Nat → Comp × Comp

/-- Deviation `n` of a result: within 2 LSB where R268 bounds it, else any. -/
def matOff (bounded : Bool) (n : Nat) : Int :=
  if bounded then lsbOff n
  else
    let d := Config.deviation n
    if d % 2 = 0 then ((d / 2 : Nat) : Int) else -(((d + 1) / 2 : Nat) : Int)

/-- A component with its deviation. -/
def Comp.off (c : Comp) (bounded : Bool) (n : Nat) : Int :=
  if c.zero then 0
  else
    let x := c.v + matOff bounded n
    let x := if c.unit then min (max c.v (2 ^ 31 - 1)) x else x
    if c.real then max 0 x else x

/-- Its bytes and the components that saturated; deviations are drawn from `n0` on. -/
def MatOut.store (m : MatOut) (bounded : Bool) (n0 : Nat) : List Byte × Nat :=
  let el := fun r c =>
    let v := m.elem r c; let k := n0 + 2 * (r * m.cols + c)
    [fitComp m.cs32 (v.1.off bounded k), fitComp m.cs32 (v.2.off bounded (k + 1))]
  let rows := (List.range m.rows).map (fun r => (List.range m.cols).flatMap (el r))
  (matBytes m.cs32 m.cols (rows.map (fun r => r.flatMap (fun f => compBytes m.cs32 f.1))),
   rows.foldl (fun a r => a + (r.filter (·.2)).length) 0)

/-- MUL (R266): C = op(A) × B. -/
def matMul (j : BitVec 512) (a b : List Byte) : List MatOut :=
  let fi := mIn j; let k := mK j
  let at' := fun r c => if jBit j 7 6 then cConj (matAt fi a 0 (mM j) c r) else matAt fi a 0 k r c
  let sc := fun v => roundScaled v 1 ((fracBits (mOut j) : Int) - 2 * fracBits fi + mShift j)
  [{ cs32 := mOut j, rows := mM j, cols := mN j
     elem := fun r c =>
       let v := cSum ((List.range k).map (fun x => cMul (at' r x) (matAt fi b 0 (mN j) x c)))
       ({ v := sc v.1 }, { v := sc v.2 }) }]

/-- INTERP (R266): y = F × (sum of the pilot vectors / D), one row. -/
def matInterp (j : BitVec 512) (a b : List Byte) : List MatOut :=
  let fi := mIn j; let k := mK j; let d := jFld j 8 24 4
  let sc := fun v => roundScaled v d ((fracBits (mOut j) : Int) - 2 * fracBits fi + mShift j)
  [{ cs32 := mOut j, rows := 1, cols := mM j
     elem := fun _ c =>
       let v := cSum ((List.range k).map (fun x =>
         cMul (matAt fi b 0 k c x) (cSum ((List.range d).map (fun y => matAt fi a 0 k y x)))))
       ({ v := sc v.1 }, { v := sc v.2 }) }]

/-! ### Factorisations

A number is held × 2^256. -/

/-- Fraction bits. -/
def fxBits : Nat := 256

/-- Product, quotient by a real number (0 where that is 0), and square root of a real number that is not negative. -/
def fxMul (a b : Int × Int) : Int × Int := let p := cMul a b; (p.1 / 2 ^ fxBits, p.2 / 2 ^ fxBits)
def fxDiv (a : Int × Int) (d : Int) : Int × Int := if d = 0 then (0, 0) else (a.1 * 2 ^ fxBits / d, a.2 * 2 ^ fxBits / d)
def fxSqrt (x : Int) : Int :=
  let n := x.toNat * 2 ^ fxBits
  (((List.range 512).reverse.foldl (fun r k => if (r + 2 ^ k) * (r + 2 ^ k) ≤ n then r + 2 ^ k else r) 0 : Nat) : Int)

def cSub (a b : Int × Int) : Int × Int := (a.1 - b.1, a.2 - b.2)

/-- A matrix as rows. -/
abbrev Mat := List (List (Int × Int))

def Mat.at (a : Mat) (r c : Nat) : Int × Int := (a.getD r []).getD c (0, 0)
def matMk (rows cols : Nat) (f : Nat → Nat → Int × Int) : Mat := (List.range rows).map (fun r => (List.range cols).map (f r))

/-- Sum of products over the first `k` columns or rows. -/
def fxDot (k : Nat) (f g : Nat → Int × Int) : Int × Int := cSum ((List.range k).map (fun x => fxMul (f x) (g x)))

/-- An input matrix as it is stored. -/
def matLoad (j : BitVec 512) (bs : List Byte) (rows cols : Nat) : Mat :=
  let up : Int := ((2 ^ (fxBits - fracBits (mIn j)) : Nat) : Int)
  matMk rows cols (fun r c => let v := matAt (mIn j) bs 0 cols r c; (v.1 * up, v.2 * up))

/-- Largest real diagonal element of the first `n`. -/
def Mat.largest (a : Mat) (n : Nat) : Int := (List.range n).foldl (fun m k => max m (a.at k k).1) (a.at 0 0).1

/-- Adds λ to the real diagonal (R265). -/
def Mat.plusLambda (a : Mat) (j : BitVec 512) : Mat :=
  let lam : Int := ((jWord j 14 * 2 ^ (fxBits - 31) : Nat) : Int)
  a.mapIdx (fun r row => row.mapIdx (fun c v => if r = c then (v.1 + lam, v.2) else v))

/-- A factorisation under way: the rows or columns done, whether a pivot fell below the floor or was not finite, and whether
R268's bound holds for it. -/
structure Factor where
  done : Mat := []
  ill : Bool := false

/-- A pivot held to the floor (R267), and whether it was replaced. A floor or a pivot of 0 leaves a quotient that is not finite;
whether the engine then counts the pivot itself as not finite is a free choice (log 49). -/
def pivotHeld (floor p : Int) : Int × Bool :=
  if p < floor then (floor, true) else if p < 0 then (0, true) else (p, decide (p = 0) && Config.zeroPivotIll)

/-- Cholesky: the rows of L with A = L L^H, from A's lower triangle. -/
def cholesky (a : Mat) (n : Nat) (floor : Int) : Factor :=
  (List.range n).foldl (fun f r =>
    let row := (List.range r).foldl (fun (row : List (Int × Int)) c =>
      row ++ [fxDiv (cSub (a.at r c) (fxDot c (fun k => row.getD k (0, 0)) (fun k => cConj (f.done.at c k)))) (f.done.at c c).1]) []
    let p := (a.at r r).1 - (fxDot r (fun k => row.getD k (0, 0)) (fun k => cConj (row.getD k (0, 0)))).1
    let (p, low) := pivotHeld floor p
    { done := f.done ++ [row ++ [(fxSqrt p, 0)]], ill := f.ill || low }) {}

/-- The inverse of a lower triangle. -/
def lowerInverse (l : Mat) (n : Nat) : Mat :=
  (List.range n).foldl (fun (x : Mat) r => x ++ [(List.range (r + 1)).map (fun c =>
    let one : Int × Int := if r = c then (((2 ^ fxBits : Nat) : Int), 0) else (0, 0)
    fxDiv (cSub one (fxDot r (l.at r) (fun k => x.at k c))) (l.at r r).1)]) []

/-- QR by orthogonal columns: the columns of Q and of R, each column of Q with its column of R. -/
structure QrParts where
  q : Mat := []
  r : Mat := []
  ill : Bool := false

def qrParts (a : Mat) (m n : Nat) (floor : Int) : QrParts :=
  (List.range n).foldl (fun f c =>
    let step := (List.range c).foldl (fun (x : List (Int × Int) × List (Int × Int)) k =>
      let qk := f.q.getD k []
      let d := fxDot m (fun i => cConj (qk.getD i (0, 0))) (fun i => x.1.getD i (0, 0))
      (x.1.mapIdx (fun i v => cSub v (fxMul d (qk.getD i (0, 0)))), x.2 ++ [d])) ((List.range m).map (fun i => a.at i c), [])
    let norm := fxSqrt (fxDot m (fun i => step.1.getD i (0, 0)) (fun i => cConj (step.1.getD i (0, 0)))).1
    let (p, low) := pivotHeld floor norm
    { q := f.q ++ [step.1.map (fun v => fxDiv v p)], r := f.r ++ [step.2 ++ [(p, 0)]], ill := f.ill || low }) {}

/-- A Hermitian matrix, given by its lower triangle, is positive definite. -/
def Mat.definite (a : Mat) (n : Nat) : Bool := !(cholesky a n 1).ill

/-- `k` times a Hermitian matrix plus `t` times the identity. -/
def Mat.shifted (a : Mat) (k t : Int) : Mat :=
  a.mapIdx (fun r row => row.mapIdx (fun c v => if r = c then (k * v.1 + t, k * v.2) else (k * v.1, k * v.2)))

/-- The least eigenvalue of a positive definite matrix, to 2^-256: the largest t for which A - tI is positive definite. -/
def Mat.leastEigen (a : Mat) (n : Nat) : Int :=
  (List.range 320).reverse.foldl (fun (t : Int) k =>
    let u := t + ((2 ^ k : Nat) : Int)
    if (a.shifted 1 (-u)).definite n then u else t) 0

/-- The condition number of a positive definite matrix, the ratio of its largest and least eigenvalues, is at most 2^`e` (R268 names no
norm: the Euclidean one, DEDUCED, log 49). One that is not positive definite has no such bound here. -/
def wellConditioned (a : Mat) (n e : Nat) : Bool :=
  a.definite n && (a.shifted (-1) ((a.leastEigen n + 1) * ((2 ^ e : Nat) : Int))).definite n

/-- A result as it is stored: × 2^OSHIFT, or unscaled. -/
def matComp (j : BitVec 512) (v : Int) : Comp := { v := roundScaled v (2 ^ fxBits) ((fracBits (mOut j) : Int) + mShift j) }
def matFull (j : BitVec 512) (v : Int × Int) : Comp × Comp := (matComp j v.1, matComp j v.2)

/-- An element of a triangle: its place, its value. On the diagonal it is real and not negative, beyond it 0 (R266). -/
def matTri (j : BitVec 512) (inside diag : Bool) (v : Int × Int) : Comp × Comp :=
  let none : Comp := { v := 0, zero := true }
  if diag then ({ matComp j v.1 with real := true }, none) else if inside then matFull j v else (none, none)

/-- The outputs of a factorisation, whether a pivot was ill, and whether R268 bounds their deviation. -/
structure Factored where
  outs : List MatOut
  ill : Bool
  bounded : Bool

/-- The pivot floor (R267): the largest real diagonal element × 2^-PIVOT_EXP. -/
def pivotFloor (a : Mat) (n pe : Nat) : Int := a.largest n / ((2 ^ pe : Nat) : Int)

/-- CHOL (R266): L, or its inverse with XOUT. -/
def matChol (j : BitVec 512) (pe : Nat) (a : List Byte) : Factored :=
  let n := mN j
  let m := (matLoad j a n n).plusLambda j
  let f := cholesky m n (pivotFloor m n pe)
  let inv := lowerInverse f.done n
  let t := if mXout j then inv else f.done
  { outs := [{ cs32 := mOut j, rows := n, cols := n, elem := fun r c => matTri j (decide (c ≤ r)) (r == c) (t.at r c) }]
    ill := f.ill, bounded := wellConditioned m n pe }

/-- QR (R266): R, then Q with XOUT. -/
def matQr (j : BitVec 512) (pe : Nat) (a : List Byte) : Factored :=
  let m := mM j; let n := mN j
  let x := matLoad j a m n
  let f := qrParts x m n (pivotFloor x n pe)
  { outs := { cs32 := mOut j, rows := n, cols := n, elem := fun r c => matTri j (decide (r ≤ c)) (r == c) (f.r.at c r) } ::
      (if mXout j then [{ cs32 := mOut j, rows := m, cols := n, elem := fun r c => matFull j (f.q.at c r) }] else [])
    -- the eigenvalues of A^H A are the squares of A's singular values
    ill := f.ill, bounded := wellConditioned (matMk n n (fun r c => fxDot m (fun i => cConj (x.at i r)) (fun i => x.at i c))) n
      (2 * pe) }

/-- MMSE_IRC (R266): W = H^H (H H^H + R_nn + λI)^-1, then with XOUT the gains Re((W H)_ll), unscaled in Q1.31. With L the factor of
the sum and Y = L^-1 H, W is Y^H L^-1 and the gains are the energies of Y's columns; with R_nn + λI positive definite they lie in
[0, 1). -/
def matMmse (j : BitVec 512) (pe : Nat) (a b : List Byte) : Factored :=
  let m := mM j; let n := mN j
  let h := matLoad j a m n; let rnn := matLoad j b m m
  let s := (matMk m m (fun r c => cSum [fxDot n (h.at r) (fun k => cConj (h.at c k)), rnn.at r c])).plusLambda j
  let f := cholesky s m (pivotFloor s m pe)
  let inv := lowerInverse f.done m
  let y := matMk m n (fun r c => fxDot (r + 1) (inv.at r) (fun k => h.at k c))
  let w := matMk n m (fun l c => fxDot m (fun k => cConj (y.at k l)) (fun k => inv.at k c))
  let pd := (rnn.plusLambda j).definite m
  let gain := fun l => (fxDot m (fun k => y.at k l) (fun k => cConj (y.at k l))).1
  { outs := { cs32 := mOut j, rows := n, cols := m, elem := fun r c => matFull j (w.at r c) } ::
      (if mXout j then [{ cs32 := true, rows := 1, cols := n
                          elem := fun _ c => ({ v := roundScaled (gain c) (2 ^ fxBits) 31, real := pd, unit := pd }, { v := 0, zero := true }) }]
       else [])
    ill := f.ill, bounded := wellConditioned s m pe }

/-- Bytes of a problem's outputs, in the order R266 lists them. -/
def matStore (bounded : Bool) (n0 : Nat) : List MatOut → List Byte × Nat
  | [] => ([], 0)
  | o :: os =>
    let (b, s) := o.store bounded n0
    let (b', s') := matStore bounded (n0 + 2 * o.rows * o.cols) os
    (b ++ b', s + s')

/-- PIVOT_EXP: 0 is treated as 1 (R274). -/
def pivotExp (cfg : Nat) : Nat := max 1 (cfg % 32)

/-- Addresses of problem `p`. -/
def matIn (j : BitVec 512) (p : Nat) : Nat × Nat := (jIn j + p * jFld j 11 0 24, (matrixSizes j).1)
def matIn2 (j : BitVec 512) (p : Nat) : Nat × Nat := (jAddr j 9 + p * jFld j 12 0 24, (matrixSizes j).2.1)
def matOutAt (j : BitVec 512) (p : Nat) : Nat × Nat := (jOut j + p * jFld j 13 0 24, (matrixSizes j).2.2)

/-- One problem's result. -/
def matProblem (j : BitVec 512) (cfg n0 : Nat) (a b : List Byte) (pz : Bool) : Item :=
  let pe := pivotExp cfg
  let f : Factored := match jFld j 7 0 4 with
    | 0 => { outs := matMul j a b, ill := false, bounded := true }
    | 1 => matChol j pe a
    | 2 => matQr j pe a
    | 3 => matMmse j pe a b
    | _ => { outs := matInterp j a b, ill := false, bounded := true }
  let (bs, sat) := matStore f.bounded n0 f.outs
  { bytes := bs, sat := sat, poison := pz, ill := f.ill }

/-- Reads rows `rs` of the lower triangle of an N × N matrix, the rest as zeros: CHOL reads nothing else (R266). -/
def readTriangle (e : Nat) (j : BitVec 512) (addr : Nat) : List Nat → Job (List Byte × Bool)
  | [] => pure ([], false)
  | r :: rs => do
    let eb := sampleBytes (mIn j)
    let rowB := ceilDiv (mN j * eb) 16 * 16
    let (bs, pz) ← readItem e j (addr + r * rowB) ((r + 1) * eb)
    let (rest, pz') ← readTriangle e j addr rs
    pure (bs ++ List.replicate (rowB - (r + 1) * eb) 0 ++ rest, pz || pz')

/-- Problem `p` solved. -/
def matItem (e : Nat) (j : BitVec 512) (cfg p : Nat) : Job Item := do
  let (a, pa) ← if jFld j 7 0 4 = 1 then readTriangle e j (matIn j p).1 (List.range (mN j))
    else readItem e j (matIn j p).1 (matIn j p).2
  let (b, pb) ← readItem e j (matIn2 j p).1 (matIn2 j p).2
  let n0 ← jobDraw (2 * (matrixSizes j).2.2)
  pure (matProblem j cfg n0 a b (pa || pb))

/-- Output ranges of the problems of a job from `p` on. -/
def matLeft (j : BitVec 512) (p : Nat) : List (Nat × Nat) := ((List.range (jFld j 8 0 16)).drop p).map (matOutAt j)

/-- The problems of a job (R259). -/
def matPlan (e : Nat) (j : BitVec 512) (cfg : Nat) : ItemPlan :=
  let ps := List.range (jFld j 8 0 16)
  let s1 := jFld j 11 0 24 == 0; let s2 := jFld j 12 0 24 == 0
  let ins := ps.map (fun p => (if s1 then [] else [matIn j p]) ++ (if s2 then [] else [matIn2 j p]))
  let shared := (if s1 then [matIn j 0] else []) ++ (if s2 then [matIn2 j 0] else [])
  let bad := overlapBad ins (ps.map (fun p => ((matOutAt j p).1, align64 (matOutAt j p).2))) shared
  { read := matItem e j cfg
    write := fun _ p it => do
      let r ← blurOut bad (itemRegion (matOutAt j p).1 it)
      jobOut e j [r]
    left := matLeft j }

/-- The body of a matrix job. -/
def matBody (e : Nat) (j : BitVec 512) (cfg : Nat) : Job JobDone := do
  let a ← (matPlan e j cfg).run (jFld j 8 0 16)
  pure { poisonIn := decide (0 < a.poisoned), sat := decide (0 < a.sat), illCond := decide (0 < a.ill), hi0 := a.items
         w1 := min a.sat (2 ^ 32 - 1), w2 := min a.ill 65535 + bit (decide (0 < a.poisoned)) * 2 ^ 16, items := a.items
         satCnt := a.sat, illCnt := a.ill }

/-- Runs a matrix job of operation `op`. -/
def State.runMatrix (s : State) (e op : Nat) : State :=
  let j := (s.eng e).job
  if s.jobReady e 6 (fun j => jFld j 7 0 4 == op) then
    s.runJob e (matLeft j 0) (matBody e j (s.eng e).cfg)
  else s

/-- MATRIX_MUL (R266). -/
def execMatrixMul (e : Fin 104) (s : State) : Host.Outcome State Fault Refusal := .next (s.runMatrix e.val 0)

/-- MATRIX_CHOL (R266, R267). -/
def execMatrixChol (e : Fin 104) (s : State) : Host.Outcome State Fault Refusal := .next (s.runMatrix e.val 1)

/-- MATRIX_QR (R266, R267). -/
def execMatrixQr (e : Fin 104) (s : State) : Host.Outcome State Fault Refusal := .next (s.runMatrix e.val 2)

/-- MATRIX_MMSE_IRC (R266, R267). -/
def execMatrixMmseIrc (e : Fin 104) (s : State) : Host.Outcome State Fault Refusal := .next (s.runMatrix e.val 3)

/-- MATRIX_INTERP (R266). -/
def execMatrixInterp (e : Fin 104) (s : State) : Host.Outcome State Fault Refusal := .next (s.runMatrix e.val 4)

end Sys2Proof.Machine
end

