-- ==== Sys2Proof/Machine/Prach.lean ====
section
/-! DEFINITION. The PRACH jobs (R269 to R273): root sequences, the transforms and the combined power of every lag, zones, noise,
detection, the list and the record. Sequences and cyclic shifts are those of TS 38.211 and TS 36.211, which R269 names (PRESUMED, log
50). -/

namespace Sys2Proof.Machine

/-- Grid of the inverse DFT (R270). -/
def prachGrid (j : BitVec 512) : Nat := if jBit j 7 0 then 256 else 1024

def prachAnt (j : BitVec 512) : Nat := jFld j 7 2 5
def prachRep (j : BitVec 512) : Nat := jFld j 7 8 4

/-- First lag of preamble `v`'s zone in its root, and the lag after it: a cyclic shift by v × NCS moves the preamble back by as much,
so its NCS-wide window of the delay axis starts there (R271; DEDUCED, log 50). -/
def prachZone (j : BitVec 512) (v : Nat) : Nat × Nat :=
  let len := prachLen j; let w := if jFld j 8 16 10 = 0 then len else jFld j 8 16 10
  let start := (len - v * w % len) % len
  (ceilDiv (start * prachGrid j) len, min (prachGrid j) (ceilDiv ((start + w) * prachGrid j) len))

/-- Input bytes of an antenna-repetition: place and length (R270). -/
def prachPlace (j : BitVec 512) (k : Nat) : Nat × Nat :=
  let a := k / prachRep j; let r := k % prachRep j; let len := prachLen j
  if jBit j 7 1 then
    let dec := jFld j 11 16 7
    (jIn j + a * jFld j 10 0 24 + (jFld j 11 0 16 + r * len * dec) * 4, len * dec * 4)
  else (jIn j + k * jFld j 10 0 24, len * 4)

/-- The samples of the antenna-repetitions; none for one with poisoned input (R271). -/
def prachInputs (e : Nat) (j : BitVec 512) : List Nat → Job (List (Option (List Int)))
  | [] => pure []
  | k :: ks => do
    let (bs, pz) ← readItem e j (prachPlace j k).1 (prachPlace j k).2
    let rest ← prachInputs e j ks
    pure ((if pz then none else some ((List.range (bs.length / 2)).map (sampleComp false bs))) :: rest)

/-! ### Sequences and transforms (R269, R270)

Complex numbers with unit magnitude are held × 2^64. -/

/-- Physical root of logical index `i`. For L_RA 139 the roots come in pairs u, 139 - u. -/
def prachPhysical (j : BitVec 512) (i : Nat) : Nat :=
  if jBit j 7 0 then (let k := i % 138; if k % 2 = 0 then k / 2 + 1 else 139 - (k / 2 + 1)) else prachRoot (i % 838)

/-- Sample `i` of the root sequence: e^(-jπ u i (i + 1) / L). -/
def prachRootAt (len u i : Nat) : Int × Int :=
  rotate (2 * len) (4 * len - 2 * (u * i * (i + 1)) % (4 * len)) (1, 0)

/-- DFT of `len` values: value `k` is Σ x[m] e^(-j2π m k / len). -/
def prachDft (len : Nat) (xs : List (Int × Int)) (k : Nat) : Int × Int :=
  rotSum (2 * len) xs (fun m => (4 * len - 4 * (m * k) % (4 * len)) % (4 * len))

/-- The root sequence in the frequency domain, × 2^128. -/
def prachRootDft (len u : Nat) : List (Int × Int) :=
  let xs := (List.range len).map (prachRootAt len u)
  (List.range len).map (prachDft len xs)

/-- Sample `k` of a list of components. -/
def sampleAt (vs : List Int) (k : Nat) : Int × Int := (vs.getD (2 * k) 0, vs.getD (2 * k + 1) 0)

/-- Input sample `n` shifted by FSHIFT cycles × 2^-24 per sample, × 2^64. -/
def prachShifted (j : BitVec 512) (vs : List Int) (n : Nat) : Int × Int :=
  rotate (2 ^ 23) ((toSigned 24 (jFld j 12 0 24) * (n : Int)) % ((2 ^ 24 : Nat) : Int)).toNat (sampleAt vs n)

/-- Sample `m` of an antenna-repetition after the filter and the decimation by DEC (R270); the filter is a free choice, and sees zeros outside
the repetition (log 50). × 2^64. -/
def prachDecimated (j : BitVec 512) (vs : List Int) (m : Nat) : Int × Int :=
  let dec := jFld j 11 16 7; let n := vs.length / 2; let c := Config.prachCentre dec
  let v := cSum ((List.range (Config.prachTaps dec)).map (fun t =>
    if c ≤ m * dec + t ∧ m * dec + t < n + c then
      let x := prachShifted j vs (m * dec + t - c)
      (Config.prachTap dec t * x.1, Config.prachTap dec t * x.2)
    else (0, 0)))
  (v.1 / 2 ^ 32, v.2 / 2 ^ 32)

/-- The L_RA subcarriers of an antenna-repetition, × 2^64. -/
def prachCarriers (j : BitVec 512) (vs : List Int) : List (Int × Int) :=
  let len := prachLen j
  if jBit j 7 1 then
    let xs := (List.range len).map (prachDecimated j vs)
    (List.range len).map (fun k => let v := prachDft len xs k; (v.1 / 2 ^ 64, v.2 / 2 ^ 64))
  else (List.range len).map (fun k => let v := sampleAt vs k; (v.1 * 2 ^ 64, v.2 * 2 ^ 64))

/-- Power of lag `l` of an antenna-repetition: its subcarriers times the conjugate root sequence, through the inverse DFT of the
grid. -/
def prachLagPower (grid : Nat) (root xs : List (Int × Int)) (l : Nat) : Nat :=
  let prod := (xs.zip root).map (fun (x, r) => let p := cMul x (cConj r); (p.1 / 2 ^ 128, p.2 / 2 ^ 128))
  let v := rotSum (2 * grid) prod (fun k => 4 * (k * l) % (4 * grid))
  ((v.1 * v.1 + v.2 * v.2) / 2 ^ 256).toNat

/-- Combined power of every lag of root ordinal `r`: the sum over the antenna-repetitions that remain. -/
def prachPowers (j : BitVec 512) (kept : List (List (Int × Int))) (r : Nat) : List Nat :=
  let root := prachRootDft (prachLen j) (prachPhysical j (jFld j 8 0 10 + r))
  (List.range (prachGrid j)).map (fun l => kept.foldl (fun a xs => a + prachLagPower (prachGrid j) root xs l) 0)

/-! ### Levels and peaks (R271, R273) -/

/-- 10^(v / 160) is at most `num / den`. -/
def decibelLeast (num den : Nat) (v : Int) : Bool :=
  if 0 ≤ v then decide (10 ^ v.toNat * den ^ 160 ≤ num ^ 160) else decide (den ^ 160 ≤ num ^ 160 * 10 ^ (-v).toNat)

/-- `num / den` in 1/16 dB, signed 16 bits; between two of them, either (log 50). -/
def decibel16 (num den : Nat) : Int :=
  let v := (List.range 16).reverse.foldl (fun (v : Int) k =>
    if decibelLeast num den (v + ((2 ^ k : Nat) : Int)) then v + ((2 ^ k : Nat) : Int) else v) (-32768)
  let exact := if 0 ≤ v then 10 ^ v.toNat * den ^ 160 == num ^ 160 else den ^ 160 == num ^ 160 * 10 ^ (-v).toNat
  if exact ∨ v = 32767 ∨ Config.decibelUp num den = false then v else v + 1

/-- Offset in 1/8 lag of the top of the parabola through a peak and its neighbours, at most half a lag. -/
def prachRefine (below peak above : Nat) : Int :=
  let b : Int := below; let p : Int := peak; let a : Int := above
  let den := 2 * (2 * p - b - a)
  if den ≤ 0 then ((Config.prachFlat peak % 9 : Nat) : Int) - 4
  else max (-4) (min 4 (roundRat (8 * (a - b)) den.toNat))

/-- The noise estimate as a ratio (R271): the mean over every lag of every root without the largest eighth of the values,
not below full-scale power `full` × 2^-FLOOR. -/
def prachNoise (full floor : Nat) (ps : List Nat) : Nat × Nat :=
  let kept := (sortBy (fun a b => decide (a ≤ b)) ps).take (ps.length - ps.length / 8)
  let sum := kept.foldl (· + ·) 0; let n := max 1 kept.length
  if sum * 2 ^ floor < full * n then (full, 2 ^ floor) else (sum, n)

/-- The largest lag's index and power in a zone: the first of the largest. -/
def prachPeak (power : Nat → Nat) (lo hi : Nat) : Nat × Nat :=
  (List.range (hi - lo)).foldl (fun a k => if a.2 < power (lo + k) then (lo + k, power (lo + k)) else a) (lo, power lo)

/-- A detection: preamble, root ordinal, refined lag, PEAK and POWER. -/
structure PrachDet where
  pre : Nat
  root : Nat
  lag : Nat
  peak : Nat
  power : Nat
  deriving DecidableEq, Repr

/-- Preamble `p` judged (R271). -/
def prachJudge (j : BitVec 512) (full : Nat) (noise : Nat × Nat) (power : Nat → Nat → Nat) (p : Nat) : Option PrachDet :=
  let root := p / prachPerRoot j; let v := p % prachPerRoot j
  let (lo, hi) := prachZone j v; let n := prachGrid j
  let (l, pk) := prachPeak (power root) lo hi
  if hi ≤ lo ∨ 16 * pk * noise.2 < jFld j 7 16 8 * noise.1 then none
  else
    let off := prachRefine (power root ((l + n - 1) % n)) pk (power root ((l + 1) % n))
    some { pre := p, root := root, lag := ofSigned 16 (8 * ((l - lo : Nat) : Int) + off)
           peak := min 65535 (16 * pk * noise.2 / noise.1)
           power := ofSigned 16 (decibel16 pk (max 1 (full * prachAnt j * prachRep j))) }

/-- The body of a PRACH job. -/
def prachBody (e : Nat) (j : BitVec 512) (cfg : Nat) : Job JobDone := do
  let ins ← prachInputs e j (List.range (prachAnt j * prachRep j))
  let kept := ins.filterMap id
  let removed := ins.length - kept.length
  let carriers := kept.map (prachCarriers j)
  let table := (List.range (jFld j 9 0 7)).map (prachPowers j carriers)
  let power := fun r l => (table.getD r []).getD l 0
  let full := Config.prachFull (jBit j 7 0) (if jBit j 7 1 then jFld j 11 16 7 else 0)
  let noise := prachNoise full (cfg % 64) table.flatten
  let dets := if kept.isEmpty then []
    else (List.range (jFld j 9 8 6)).filterMap (prachJudge j full noise power)
  let md := bitsOf cfg 8 7
  let listed := dets.take (if md = 0 ∨ 64 < md then 64 else md)
  pure { poisonIn := decide (0 < removed), hi0 := dets.length + listed.length * 2 ^ 8
         w1 := ofSigned 16 (decibel16 noise.1 (max 1 (full * noise.2))) + bit (decide (0 < removed)) * 2 ^ 16, w2 := removed
         rest := listed.flatMap (fun d => [d.pre + d.root * 2 ^ 8 + d.lag * 2 ^ 16, d.peak + d.power * 2 ^ 16])
         items := 1, det := dets.length }

/-- PRACH_JOB (R271, R273). -/
def execPrachJob (e : Fin 104) (s : State) : Host.Outcome State Fault Refusal :=
  if s.jobReady e.val 7 (fun _ => true) then
    .next (s.runJob e.val [] (prachBody e.val (s.eng e.val).job (s.eng e.val).cfg))
  else .next s

end Sys2Proof.Machine
end

