-- ==== Sys2Proof/Machine/RateMatch.lean ====
section
/-! DEFINITION. The rate-matching and HARQ jobs (R250 to R254). The circular buffers, starting points and the scrambling
sequence are those of TS 38.212, TS 36.212 and TS 38.211, which R240 and R250 name (PRESUMED, log 46). -/

namespace Sys2Proof.Machine

/-! ### Scrambling -/

/-- One step of a length-31 register: bit i of the register holds x(n + i). -/
def goldX1 (x : Nat) : Nat := x / 2 + (x ^^^ x / 8) % 2 * 2 ^ 30
def goldX2 (x : Nat) : Nat := x / 2 + (x ^^^ x / 2 ^^^ x / 4 ^^^ x / 8) % 2 * 2 ^ 30

/-- `n` bits of the sequence from two registers. -/
def goldBits : Nat → Nat → Nat → List Bool
  | 0, _, _ => []
  | n + 1, a, b => ((a ^^^ b) % 2 == 1) :: goldBits n (goldX1 a) (goldX2 b)

/-- The sequence of C_INIT, which starts 1,600 steps on. -/
def gold (cInit n : Nat) : List Bool := (goldBits (1600 + n) 1 cInit).drop 1600

/-! ### The circular buffer -/

/-- Columns of the LTE sub-block interleaver in the order they are read: the 5-bit reversals. -/
def lteColumn (c : Nat) : Nat := (List.range 5).foldl (fun a k => a * 2 + bitsOf c k 1) 0

/-- Stream and place in it of LTE circular-buffer position `p`, for `rows` rows: dummies come first in each stream. -/
def ltePlace (rows p : Nat) : Nat × Nat :=
  let at' := fun k => lteColumn (k / rows) + 32 * (k % rows)
  if p < 32 * rows then (0, at' p)
  else
    let t := p - 32 * rows
    if t % 2 = 0 then (1, at' (t / 2)) else (2, (at' (t / 2) + 1) % (32 * rows))

/-- Position `p` of block `r`'s circular buffer is a filler or dummy. -/
def rateNull (j : BitVec 512) (r p : Nat) : Bool :=
  let k := jFld j 9 0 13; let f := jFld j 9 16 16
  if jFld j 7 0 3 = 2 ∨ jFld j 7 0 3 = 3 then
    let rows := ceilDiv (k + 4) 32
    let nd := 32 * rows - (k + 4)
    let (st, y) := ltePlace rows p
    decide (y < nd) || (r == 0 && st != 2 && decide (y < nd + f))
  else
    let hi := (ldpcKb (jBit j 9 13) - 2) * k
    decide (hi - f ≤ p ∧ p < hi)

/-- k0, the position at which a redundancy version starts. -/
def rateStart (j : BitVec 512) : Nat :=
  let k := jFld j 9 0 13; let bg := jBit j 9 13; let rv := jFld j 7 6 2; let ncb := jFld j 10 0 18
  if jFld j 7 0 3 = 2 ∨ jFld j 7 0 3 = 3 then
    let rows := ceilDiv (k + 4) 32
    rows * (2 * ceilDiv ncb (8 * rows) * rv + 2) % max 1 ncb
  else
    let c := match bg, rv with
      | _, 0 => 0 | false, 1 => 17 | false, 2 => 33 | false, _ => 56 | true, 1 => 13 | true, 2 => 25 | true, _ => 43
    c * ncb / (ldpcNb bg * k) * k

/-- The positions that are not fillers, from k0 once around. -/
def ratePlaces (j : BitVec 512) (r : Nat) : List Nat :=
  let ncb := jFld j 10 0 18
  ((List.range ncb).map (fun k => (rateStart j + k) % ncb)).filter (fun p => !rateNull j r p)

/-- E of block `r`, the bits before it, and G. -/
def rateE (j : BitVec 512) (r : Nat) : Nat := if r < jFld j 13 0 16 then jFld j 11 0 18 else jFld j 12 0 18
def rateOff (j : BitVec 512) (r : Nat) : Nat :=
  min r (jFld j 13 0 16) * jFld j 11 0 18 + (r - jFld j 13 0 16) * jFld j 12 0 18
def rateG (j : BitVec 512) : Nat := rateOff j (jFld j 8 16 16)

/-- Place after interleaving by `q` of bit `k` of `n` (R250): f(i + jQ) = e(i n / Q + j). -/
def interleaved (q n k : Nat) : Nat := let m := max 1 (n / q); k % m * q + k / m

/-! ### Modes 0 and 2 -/

/-- One sequence of LLRs summed onto the positions it meets (R250): position `p`'s sum. -/
def rateSum (places : List Nat) (e : List Int) (p : Nat) : Int :=
  match places.idxOf? p with
  | none => 0
  | some i => (List.range (ceilDiv e.length (max 1 places.length))).foldl (fun a m =>
      let k := i + m * places.length
      if k < e.length then llrSat (a + e.getD k 0) else a) 0

/-- Block `r`'s circular buffer from the transport block's LLRs. -/
def derate (j : BitVec 512) (llr : List Int) (r : Nat) : List Int :=
  let n := rateE j r
  let f := (llr.drop (rateOff j r)).take n
  let e := (List.range n).map (fun k => f.getD (interleaved (max 1 (jFld j 7 8 4)) n k) 0)
  let places := ratePlaces j r
  (List.range (jFld j 10 0 18)).map (rateSum places e)

/-- Descrambles LLRs. -/
def descramble (j : BitVec 512) (llr : List Int) : List Int :=
  if jBit j 7 5 then (llr.zip (gold (jFld j 14 0 31) llr.length)).map (fun (x, c) => if c then -x else x) else llr

/-- A part of a job that acts on one block's soft buffer: if it fails, that buffer is indeterminate (R253). -/
def softPart {α : Type} (e key addr len : Nat) (p : Job α) : Job α := fun s =>
  match p s with
  | .ok x => .ok x
  | .error z => if z.code = 0x104 then .error { z with at' := z.at'.blurRange (epEngine e) key (addr, len) }
    else .error z

/-- The LLRs of a soft buffer, a poisoned line as zeros, and whether there was one (R253). -/
def softLlrs (ds : List DataUnit) : List Int × Bool :=
  let lines := (List.range (ceilDiv ds.length 4)).map (fun l => (ds.drop (4 * l)).take 4)
  (lines.flatMap (fun l => if l.any (·.poison) then List.replicate 64 0 else unitLlrs l 64),
   lines.any (fun l => l.any (·.poison)))

/-- The soft buffer of block `r` combined with new LLRs (R253). Answers the values and whether a line was lost. -/
def combine (e : Nat) (j : BitVec 512) (sbase skey r : Nat) (new : List Int) : Job (List Int × Bool) :=
  let ncb := jFld j 10 0 18
  let a := sbase + r * align64 ncb
  softPart e skey a (align64 ncb) do
    let (old, lost) ← if jBit j 7 4 then pure (List.replicate ncb 0, false)
      else do
        let ds ← jobUnits (jobWay e j skey) 0x104 (a / 16) (align64 ncb / 16)
        pure (softLlrs ds)
    let sum := (List.range ncb).map (fun k =>
      if rateNull j r k then 0 else llrSat (new.getD k 0 + old.getD k 0))
    jobPut (jobWay e j skey) 0x104 (lineUnits a (sum.map llrByte) (fun _ => false))
    pure (sum, lost)

/-- The blocks of a de-rate-matching job, from `r` on. Answers the blocks that lost soft-buffer lines. -/
def derateBlocks (e : Nat) (j : BitVec 512) (sbase skey : Nat) (llr : List Int) : List Nat → Job Nat
  | [] => pure 0
  | r :: rs => do
    let new := derate j llr r
    let lost ← jobLeaves ((r :: rs).map (fun r => (jOut j + r * jFld j 15 0 24, jFld j 10 0 18))) (do
      let (v, lost) ← if jBit j 7 3 then combine e j sbase skey r new else pure (new, false)
      jobPut (jobWay e j (jKeyOut j)) 0x103 (lineUnits (jOut j + r * jFld j 15 0 24) (v.map llrByte) (fun _ => false))
      pure lost)
    let n ← derateBlocks e j sbase skey llr rs
    pure (n + bit lost)

/-- The body of a de-rate-matching job (R250, R253, R254). -/
def derateBody (e : Nat) (j : BitVec 512) (sbase skey : Nat) : Job JobDone := do
  let g := rateG j
  let ds ← jobUnits (jobWay e j (jKeyIn j)) 0x102 (jIn j / 16) (ceilDiv g 16)
  let lost ← derateBlocks e j sbase skey (descramble j (unitLlrs ds g)) (List.range (jFld j 8 16 16))
  let pz := ds.any (·.poison)
  pure { softLoss := decide (0 < lost), poisonIn := pz, hi0 := jFld j 8 16 16, w2 := lost + bit pz * 2 ^ 18 }

/-- Output ranges of a rate-matching job by its mode. -/
def rateRanges (j : BitVec 512) : List (Nat × Nat) :=
  let mode := jFld j 7 0 3
  if mode = 4 then []
  else if mode = 1 ∨ mode = 3 then [(jOut j, ceilDiv (rateG j) 8)]
  else outRanges j false (jFld j 15 0 24) (jFld j 10 0 18) (jFld j 8 16 16) 0

/-- Runs a de-rate-matching job of mode `m`. -/
def State.runDerate (s : State) (e m : Nat) : State :=
  let x := s.eng e
  if s.jobReady e 4 (fun j => jFld j 7 0 3 == m) then
    s.runJob e (rateRanges x.job) (derateBody e x.job x.sbase x.skey)
  else s

/-- NR_UPLINK_DE_RATE_MATCHING (R250, mode 0). -/
def execNrUplinkDeRateMatching (e : Fin 104) (s : State) : Host.Outcome State Fault Refusal := .next (s.runDerate e.val 0)

/-- LTE_UPLINK_DE_RATE_MATCHING (R250, mode 2). -/
def execLteUplinkDeRateMatching (e : Fin 104) (s : State) : Host.Outcome State Fault Refusal := .next (s.runDerate e.val 2)

/-! ### Modes 1 and 3 -/

/-- Block `r`'s transmitted bits before scrambling: selected and interleaved. -/
def rateBlock (j : BitVec 512) (r : Nat) (bs : List Byte) : List Bool :=
  let n := rateE j r; let q := max 1 (jFld j 7 8 4); let m := max 1 (n / q)
  let places := ratePlaces j r
  let sel := (List.range n).map (fun k => packedBit bs (places.getD (k % max 1 places.length) 0))
  (List.range n).map (fun t => sel.getD (t % q * m + t / q) false)

/-- The body of a rate-matching job. Poisoned input poisons the output units that hold bits of its block (DESIGN CHOICE,
log 47). -/
def rateBody (e : Nat) (j : BitVec 512) : Job JobDone := do
  let c := jFld j 8 16 16; let g := rateG j
  let ins ← readBlocks e j (jFld j 15 0 24) (ceilDiv (jFld j 10 0 18) 8) (List.range c)
  let bits := (ins.mapIdx (fun r ds => rateBlock j r (unitBytes ds 0 (16 * ds.length)))).flatten
  let out := if jBit j 7 5 then (bits.zip (gold (jFld j 14 0 31) g)).map (fun (b, x) => b != x) else bits
  let bad := (List.range c).filter (fun r => (ins.getD r []).any (·.poison))
  let pz := (List.range (ceilDiv g 128)).map (fun u => bad.any (fun r =>
    decide (rateOff j r < 128 * u + 128) && decide (128 * u < rateOff j r + rateE j r)))
  jobOut e j [{ addr := jOut j, bytes := packString out, pz := pz }]
  pure { poisonIn := !bad.isEmpty, hi0 := c, w2 := bit (!bad.isEmpty) * 2 ^ 18 }

/-- Runs a rate-matching job of mode `m`. -/
def State.runRate (s : State) (e m : Nat) : State :=
  let j := (s.eng e).job
  if s.jobReady e 4 (fun j => jFld j 7 0 3 == m) then
    s.runJob e (rateRanges j) (rateBody e j)
  else s

/-- NR_DOWNLINK_RATE_MATCHING (R250, mode 1). -/
def execNrDownlinkRateMatching (e : Fin 104) (s : State) : Host.Outcome State Fault Refusal := .next (s.runRate e.val 1)

/-- LTE_DOWNLINK_RATE_MATCHING (R250, mode 3). -/
def execLteDownlinkRateMatching (e : Fin 104) (s : State) : Host.Outcome State Fault Refusal := .next (s.runRate e.val 3)

/-! ### Mode 4 -/

/-- Writes zeros over soft buffers (R250, R251). -/
def clearBlocks (e : Nat) (j : BitVec 512) (sbase skey : Nat) : List Nat → Job Unit
  | [] => pure ()
  | r :: rs => do
    let n := align64 (jFld j 10 0 18)
    softPart e skey (sbase + r * n) n (jobPut (jobWay e j skey) 0x104 (lineUnits (sbase + r * n) (List.replicate n 0) (fun _ => false)))
    clearBlocks e j sbase skey rs

/-- SOFT_BUFFER_CLEAR (R250, mode 4). -/
def execSoftBufferClear (e : Fin 104) (s : State) : Host.Outcome State Fault Refusal :=
  let x := s.eng e.val
  if s.jobReady e.val 4 (fun j => jFld j 7 0 3 == 4) then
    .next (s.runJob e.val (rateRanges x.job) (do
      clearBlocks e.val x.job x.sbase x.skey (List.range (jFld x.job 8 16 16))
      pure { hi0 := jFld x.job 8 16 16 }))
  else .next s

end Sys2Proof.Machine
end

