-- ==== Sys2Proof/Machine/EngineEnd.lean ====
section
/-! DEFINITION. The end of an engine's task (R236 to R238), with what a fault leaves of a job under way. -/

namespace Sys2Proof.Machine

/-- Output ranges of a job for an engine of ETYPE `t`. -/
def jobRanges (t : Nat) (j : BitVec 512) : List (Nat × Nat) :=
  match t with
  | 0 => ldpcDecRanges j | 1 => ldpcEncRanges j | 2 => turboRanges j | 3 => polarRanges j | 4 => rateRanges j
  | 5 => fftRanges j | 6 => matLeft j 0 | _ => []

/-- A fault strikes a job that has been read and is not done: its outputs, none of which is fully written, hold indeterminate data
(R238). -/
def State.jobAbandoned (s : State) (e : Nat) : State :=
  let x := s.eng e
  if x.phase = .ready then s.blurRanges (epEngine e) (jKeyOut x.job) (jobRanges (engineType e) x.job) else s

/-- ENGINE_TASK_END (R236 to R238): engine `e` reports its task's end; with `fault`, an uncorrected fault has struck inside
the engine (ENGINE_FAULT), whatever it was doing. -/
def execEngineTaskEnd (e : Fin 104) (fault : Bool) (s : State) : Host.Outcome State Fault Refusal :=
  let x := s.eng e.val
  if s.domUp (domEngine e.val) = false then .next s
  else match x.task with
  | none =>
    if fault ∧ x.fault = false then
      let s := s.engError e.val 0x107 0
      .next (s.setEng e.val { s.eng e.val with fault := true })
    else .next s
  | some h =>
    if fault then .next ((s.jobAbandoned e.val).engEnd e.val h 0x107 0)
    else if x.phase = .done then .next (s.engEnd e.val h x.code x.aux)
    else .next s

end Sys2Proof.Machine
end

