-- ==== Sys2Proof/Machine/Outside.lean ====
section
/-! DEFINITION. Rows of the outside world that read register space word by word, the DMA channels and the CPRI framers (R13, R116, R118),
and those that wake the device, what PCIe controller 0 receives (R117, R119, R392). -/

namespace Sys2Proof.Machine

/-- How register space answers a word read of an engine, which acts as the Tahr accessor (log 98): its checks, then the register's
value (R13, R15, R35). -/
def regWord : RegReader := fun s off =>
  let c := s.regCode .tahr 4 off
  if c ≠ 0 then (c, 0, s)
  else
    let (v, t) := s.regRead .tahr 0 off false
    (0, v, t)

/-- PCIE_DMA_DESCRIPTOR (R118): channel `ch` of controller `c` performs its next descriptor. -/
def execPcieDmaDescriptor (c : Fin 2) (ch : Fin 4) (cpl : Option (List Byte)) (s : State) :
    Host.Outcome State Fault Refusal :=
  .next (s.dmaNext regWord (4 * c.val + ch.val) cpl)

/-- CPRI_BASIC_FRAME (R116). -/
def execCpriBasicFrame (f : Fin 8) (bits : List Byte) (s : State) : Host.Outcome State Fault Refusal :=
  .next (s.basicFrame regWord f.val bits)

/-- PCIE_INBOUND_REQUEST (R117, R392): at controller 0 it is a wake source, which ends as the request is taken. In HIBERNATE none is
taken. -/
def execPcieInboundRequest (c fn : Fin 2) (req : PcieReq) (s : State) : Host.Outcome State Fault Refusal :=
  if s.isSet F.PCIE_STATUS.LINK_UP c.val = false then .next s
  else
    let s := if c.val = 0 then (s.pcieWaits s.dark).wakeActive 5 else s
    .next (if s.dark then s else s.pcieInbound c.val fn.val req)

/-- PCIE_LINK_UP (R117, R119, R392): training completes at width code `width` and generation `gen`; at controller 0 a link wake is a wake
source, and in HIBERNATE nothing more. -/
def execPcieLinkUp (c : Fin 2) (width gen : BitVec 3) (s : State) : Host.Outcome State Fault Refusal :=
  let s := if c.val = 0 then s.wakeActive 5 else s
  .next (if s.dark then s else s.pcieLinkUp c.val width.toNat gen.toNat)

end Sys2Proof.Machine
end

