-- ==== Sys2Proof/Machine/TahrMac.lean ====
section
/-! DEFINITION. The MAC slot (R181 to R184, R223): complex products, narrowing and accumulator moves. -/

namespace Sys2Proof.Machine

/-- Width of a sample component: 16 for CS16, 32 for CS32 (R181). -/
def compBits (fmt : Nat) : Nat := if fmt = 0 then 16 else 32

/-- Width of an accumulator component (R182). -/
def accBits (fmt : Nat) : Nat := if fmt = 0 then 48 else 96

/-- Samples of a vector. -/
def sampleCount (fmt : Nat) : Nat := if fmt = 0 then 4 else 2

/-- The predicate enables sample `l` (R181). -/
def sampleOn (fmt pred l : Nat) : Bool := bitAt pred (if fmt = 0 then l else 2 * l)

/-- Component `k` of a vector: I of sample l is 2l, Q is 2l + 1 (R181). -/
def comp (fmt v k : Nat) : Int := toSigned (compBits fmt) (bitsOf v (compBits fmt * k) (compBits fmt))

/-- I and Q of a × b, or of a × conj(b), for sample `l` (R182). -/
def product (fmt : Nat) (conj : Bool) (a b l : Nat) : Int × Int :=
  let bq := if conj then -(comp fmt b (2 * l + 1)) else comp fmt b (2 * l + 1)
  (comp fmt a (2 * l) * comp fmt b (2 * l) - comp fmt a (2 * l + 1) * bq,
   comp fmt a (2 * l) * bq + comp fmt a (2 * l + 1) * comp fmt b (2 * l))

/-- The enabled products, in the places of an accumulator's lanes (R182). -/
def products (fmt : Nat) (conj : Bool) (a b pred : Nat) : Nat :=
  let w := accBits fmt
  (List.range (sampleCount fmt)).foldl (fun v l =>
    if sampleOn fmt pred l then
      let p := product fmt conj a b l
      v + ofSigned w p.1 * 2 ^ (2 * w * l) + ofSigned w p.2 * 2 ^ (2 * w * l + w)
    else v) 0

/-- The mask of an accumulator's enabled lanes. -/
def accMask (fmt pred : Nat) : Nat :=
  let w := 2 * accBits fmt
  (List.range (sampleCount fmt)).foldl (fun m l =>
    if sampleOn fmt pred l then m + (2 ^ w - 1) * 2 ^ (w * l) else m) 0

/-- The mask of a vector's enabled samples. -/
def vecMask (fmt pred : Nat) : Nat := if fmt = 0 then predMask pred else predMask32 pred

/-- One unit's complex operation into ACC_c (R182, R184). -/
def State.macUnit (s : State) (n w : Nat) (conj add : Bool) (u : Nat) : State :=
  let c := s.core n
  let fmt := cFmt w
  let pred := c.reg (rPred (predOf w))
  let va := cVa w + u; let vb := cVb w + u
  s.fly n 2 (if fmt = 0 then 4 else 5)
    { flight (rAcc (cC w + u)) (products fmt conj (c.reg va) (c.reg vb) pred) (c.poisoned va || c.poisoned vb) with
      mask := accMask fmt pred, add := if add then accBits fmt else 0 }

/-- A single or dual complex operation (R184). -/
def State.macOp (conj add : Bool) (n w : Nat) (s : State) : State :=
  let s := s.macUnit n w conj add 0
  if cDual w then s.macUnit n w conj add 1 else s

/-- CMA (R182, R223). -/
def execCma (core : Fin 256) (s : State) : Host.Outcome State Fault Refusal :=
  .next (s.slotCmd core.val 2 (opIs 1) (State.macOp false true core.val))

/-- CMAJ (R182, R223). -/
def execCmaj (core : Fin 256) (s : State) : Host.Outcome State Fault Refusal :=
  .next (s.slotCmd core.val 2 (opIs 2) (State.macOp true true core.val))

/-- CMUL (R182, R223). -/
def execCmul (core : Fin 256) (s : State) : Host.Outcome State Fault Refusal :=
  .next (s.slotCmd core.val 2 (opIs 3) (State.macOp false false core.val))

/-- Fits the components that `on` enables; the value and whether any saturated. -/
def fitAll (w : Nat) (sat : Bool) (count : Nat) (on : Nat → Bool) (f : Nat → Int) : Nat × Bool :=
  (List.range count).foldl (fun (a : Nat × Bool) k =>
    if on k then let r := fitTo w sat (f k); (a.1 + r.1 * 2 ^ (w * k), a.2 || r.2) else a) (0, false)

/-- RNDN of an accumulator's value (R183). -/
def narrow (fmt : Nat) (trunc sat : Bool) (n acc pred : Nat) : Nat × Bool :=
  let w := accBits fmt
  fitAll (compBits fmt) sat (2 * sampleCount fmt) (fun k => sampleOn fmt pred (k / 2))
    (fun k => roundShift trunc (toSigned w (bitsOf acc (w * k) w)) n)

/-- RNDN (R183, R223). -/
def execRndn (core : Fin 256) (s : State) : Host.Outcome State Fault Refusal :=
  .next (s.slotCmd core.val 2 (opIs 4) (fun w s =>
    let c := s.core core.val
    let pred := c.reg (rPred (predOf w))
    let r := narrow (nFmt w) (c.statBit 3) (c.statBit 2 || nS w) (nN w) (c.reg (rAcc (nC w))) pred
    s.fly core.val 2 2 { flight (nVd w) r.1 (c.poisoned (rAcc (nC w))) with mask := vecMask (nFmt w) pred, ovf := r.2 }))

/-- MOV V_d, ACC_c (R223). -/
def execMovVAcc (core : Fin 256) (s : State) : Host.Outcome State Fault Refusal :=
  .next (s.slotCmd core.val 2 (opIs 5) (fun w s =>
    let c := s.core core.val
    let a := rAcc (nC w)
    (List.range 3).foldl (fun s k => s.fly core.val 2 2 (flight (nVd w + k) (bitsOf (c.reg a) (128 * k) 128) (c.poisoned a))) s))

/-- MOV ACC_c, V_s (R223). -/
def execMovAccV (core : Fin 256) (s : State) : Host.Outcome State Fault Refusal :=
  .next (s.slotCmd core.val 2 (opIs 6) (fun w s =>
    let c := s.core core.val
    let v := nVd w
    s.fly core.val 2 4 (flight (rAcc (nC w)) (c.reg v + c.reg (v + 1) * 2 ^ 128 + c.reg (v + 2) * 2 ^ 256)
      (c.poisoned v || c.poisoned (v + 1) || c.poisoned (v + 2)))))

/-- MOV ACC_c, 0 (R223). -/
def execMovAccZero (core : Fin 256) (s : State) : Host.Outcome State Fault Refusal :=
  .next (s.slotCmd core.val 2 (opIs 7) (fun w s => s.fly core.val 2 4 (flight (rAcc (nC w)) 0 false)))

end Sys2Proof.Machine
end

