-- ==== Sys2Proof/Machine/TahrVec.lean ====
section
/-! DEFINITION. Vector, scalar and move operations of the control/vector slot (R224 to R226). -/

namespace Sys2Proof.Machine

/-- Element width of an E or FMT field. -/
def elemBits (e : Nat) : Nat := if e = 0 then 16 else 32

/-- Signed element `k` of a vector. -/
def elem (w v k : Nat) : Int := toSigned w (bitsOf v (w * k) w)

/-- The predicate enables element `k` of width `w`: bit l governs bits [32l + 31 : 32l] (R217). -/
def elemOn (w pred k : Nat) : Bool := bitAt pred (w * k / 32)

/-- A lane-wise result with its overflow (R225). -/
def lanes (w : Nat) (sat : Bool) (pred : Nat) (f : Nat → Int) : Nat × Bool :=
  fitAll w sat (128 / w) (elemOn w pred) f

/-- A vector result of the control slot: latency 1 (R185). -/
def State.vecResult (s : State) (n d pred : Nat) (r : Nat × Bool) (p : Bool) : State :=
  s.fly n 3 1 { flight d r.1 p with mask := predMask pred, ovf := r.2 }

/-- VADD and VSUB on vectors (R225). -/
def State.vecAdd (sub : Bool) (n w : Nat) (s : State) : State :=
  let c := s.core n
  let b := elemBits (bitsOf w 10 1)
  let pred := c.reg (rPred (predOf w))
  let x := c.reg (vS w); let y := c.reg (vT w)
  s.vecResult n (vD w) pred
    (lanes b (bitsOf w 9 1 == 1 || c.statBit 2) pred (fun k => if sub then elem b x k - elem b y k else elem b x k + elem b y k))
    (c.poisoned (vS w) || c.poisoned (vT w))

/-- VADD on vectors (R225). -/
def execVadd (core : Fin 256) (s : State) : Host.Outcome State Fault Refusal :=
  .next (s.slotCmd core.val 3 (opIs 0x01) (State.vecAdd false core.val))

/-- VSUB on vectors (R225). -/
def execVsub (core : Fin 256) (s : State) : Host.Outcome State Fault Refusal :=
  .next (s.slotCmd core.val 3 (opIs 0x02) (State.vecAdd true core.val))

/-- VADD and VSUB on A registers, wrapping (R225). -/
def State.scalarAdd (sub : Bool) (n w : Nat) (s : State) : State :=
  let c := s.core n
  let x := c.reg (rA (aS w))
  let y := if aI w then ofSigned 32 (toSigned 12 (bitsOf w 5 12)) else c.reg (rA (aT w))
  let p := c.poisoned (rA (aS w)) || (!aI w && c.poisoned (rA (aT w)))
  s.fly n 3 1 (flight (rA (aD w)) (if sub then (x + 2 ^ 32 - y) % 2 ^ 32 else (x + y) % 2 ^ 32) p)

/-- VADD on A registers (R225). -/
def execVaddA (core : Fin 256) (s : State) : Host.Outcome State Fault Refusal :=
  .next (s.slotCmd core.val 3 (opIs 0x03) (State.scalarAdd false core.val))

/-- VSUB on A registers (R225). -/
def execVsubA (core : Fin 256) (s : State) : Host.Outcome State Fault Refusal :=
  .next (s.slotCmd core.val 3 (opIs 0x04) (State.scalarAdd true core.val))

/-- A VSHF word of the given SUB. -/
def shfIs (sub w : Nat) : Bool := opOf w == 0x05 && shSub w == sub

/-- VSHF with a rule for the value of each element or lane (R225). -/
def State.shuffle (n : Nat) (f : Nat → Nat → Nat) (w : Nat) (s : State) : State :=
  let c := s.core n
  s.vecResult n (vD w) (c.reg (rPred (predOf w))) (f w (c.reg (vS w)), false) (c.poisoned (vS w))

/-- Elements of a vector, each through `g`. -/
def mapElems (w v : Nat) (g : Nat → Nat) : Nat :=
  (List.range (128 / w)).foldl (fun a k => a + g (bitsOf v (w * k) w) % 2 ^ w * 2 ^ (w * k)) 0

/-- PERM: lane l takes source lane PAT[2l + 1 : 2l] (R225). -/
def permute (w v : Nat) : Nat :=
  (List.range 4).foldl (fun a l => a + bitsOf v (32 * bitsOf w (5 + 2 * l) 2) 32 * 2 ^ (32 * l)) 0

/-- VSHF PERM (R225). -/
def execVshfPerm (core : Fin 256) (s : State) : Host.Outcome State Fault Refusal :=
  .next (s.slotCmd core.val 3 (shfIs 0) (State.shuffle core.val permute))

/-- VSHF SHL (R225). -/
def execVshfShl (core : Fin 256) (s : State) : Host.Outcome State Fault Refusal :=
  .next (s.slotCmd core.val 3 (shfIs 1) (State.shuffle core.val (fun w v =>
    mapElems (elemBits (shE w)) v (fun x => x * 2 ^ shSh w))))

/-- VSHF SHR (R225). -/
def execVshfShr (core : Fin 256) (s : State) : Host.Outcome State Fault Refusal :=
  .next (s.slotCmd core.val 3 (shfIs 2) (State.shuffle core.val (fun w v =>
    mapElems (elemBits (shE w)) v (fun x => x / 2 ^ shSh w))))

/-- VSHF ASR (R225). -/
def execVshfAsr (core : Fin 256) (s : State) : Host.Outcome State Fault Refusal :=
  .next (s.slotCmd core.val 3 (shfIs 3) (State.shuffle core.val (fun w v =>
    let b := elemBits (shE w)
    mapElems b v (fun x => ofSigned b (toSigned b x / ((2 ^ shSh w : Nat) : Int))))))

/-- BFLY (R225): sum and difference per component, halved with rounding under H. -/
def execBfly (core : Fin 256) (s : State) : Host.Outcome State Fault Refusal :=
  .next (s.slotCmd core.val 3 (opIs 0x06) (fun w s =>
    let c := s.core core.val
    let b := elemBits (bitsOf w 10 1)
    let pred := c.reg (rPred (predOf w))
    let mask := vecMask (bitsOf w 10 1) pred
    let x := c.reg (vS w); let y := c.reg (vT w)
    let p := c.poisoned (vS w) || c.poisoned (vT w)
    let sat := bitsOf w 8 1 == 1 || c.statBit 2
    let h := fun (v : Int) => if bitsOf w 9 1 = 1 then roundShift (c.statBit 3) v 1 else v
    let f := fun (g : Nat → Int) => fitAll b sat (128 / b) (fun k => sampleOn (bitsOf w 10 1) pred (k / 2)) (fun k => h (g k))
    let r0 := f (fun k => elem b x k + elem b y k)
    let r1 := f (fun k => elem b x k - elem b y k)
    let s := s.fly core.val 3 1 { flight (vD w) r0.1 p with mask := mask, ovf := r0.2 }
    s.fly core.val 3 1 { flight (vD w + 1) r1.1 p with mask := mask, ovf := r1.2 }))

/-- SAT (R225): each element clamped to W + 1 bits. -/
def execSat (core : Fin 256) (s : State) : Host.Outcome State Fault Refusal :=
  .next (s.slotCmd core.val 3 (opIs 0x07) (fun w s =>
    let c := s.core core.val
    let b := elemBits (satE w)
    let pred := c.reg (rPred (predOf w))
    let hi : Int := ((2 ^ satW w : Nat) : Int)
    let x := c.reg (vS w)
    let clamp := fun k => max (-hi) (min (hi - 1) (elem b x k))
    let hit := (List.range (128 / b)).any (fun k => elemOn b pred k && decide (clamp k ≠ elem b x k))
    s.vecResult core.val (vD w) pred ((lanes b false pred clamp).1, hit) (c.poisoned (vS w))))

/-! ### Moves (R226) -/

/-- Level whose LS or LE a number names. -/
def loopLevelOf (r : Nat) : Option Nat :=
  if 0x44 ≤ r ∧ r ≤ 0x46 then some (r - 0x44) else if 0x48 ≤ r ∧ r ≤ 0x4A then some (r - 0x48) else none

/-- The value a move writes: narrower registers take the low bits, STAT keeps LA (R226). -/
def movValue (c : Core) (d v : Nat) : Nat :=
  if d = rStat then bitsSet (v % 2 ^ 24) 4 3 (bitsOf c.stat 4 3) else v % 2 ^ coreRegWidth d

/-- MOV (R226). A change of STAT acts from the next bundle. -/
def State.move (n w : Nat) (s : State) : State :=
  let c := s.core n
  let d := movDst w; let r := movSrc w
  if (match loopLevelOf d with | some l => c.la l | none => false) = true then s.coreErr n 0x02 0 c.pc
  else if c.poisoned r = true ∧ regHasPoison d = false then s.coreErr n 0x08 0 c.pc
  else if d = rStat then s.setCore n (c.setReg d (movValue c d (c.reg r)))
  else if d = rPred 0 then s
  else s.fly n 3 1 (flight d (movValue c d (c.reg r)) (c.poisoned r))

/-- MOV (R226). -/
def execMov (core : Fin 256) (s : State) : Host.Outcome State Fault Refusal :=
  .next (s.slotCmd core.val 3 (opIs 0x08) (State.move core.val))

/-- MOVI (R226): the low half sign-extended, or the high half; clears the poison flag. -/
def execMovi (core : Fin 256) (s : State) : Host.Outcome State Fault Refusal :=
  .next (s.slotCmd core.val 3 (opIs 0x09) (fun w s =>
    let c := s.core core.val
    let a := rA (aD w)
    let imm := bitsOf w 5 16
    let v := if bitsOf w 21 1 = 1 then imm * 2 ^ 16 + c.reg a % 2 ^ 16 else ofSigned 32 (toSigned 16 imm)
    s.fly core.val 3 1 (flight a v false)))

end Sys2Proof.Machine
end

