-- ==== Sys2Proof/Machine/Dispatch.lean ====
section
/-! DEFINITION. The dispatch: one arm per command, each one direct call of its meaning. -/

namespace Sys2Proof.Machine

/-- The effect of a command on everything but the queue. -/
def exec (i : Instr) (s : State) : Host.Outcome State Fault Refusal :=
  match i with
  | .registerWrite acc core size posted off v => Sys2Proof.Machine.execRegisterWrite acc core size posted off v s
  | .devOwnViolClear acc => Sys2Proof.Machine.execDevOwnViolClear acc s
  | .mbxDoorbell acc b idx => Sys2Proof.Machine.execMbxDoorbell acc b idx s
  | .mailboxTakeRequest => Sys2Proof.Machine.execMailboxTakeRequest s
  | .mbxReset acc b => Sys2Proof.Machine.execMbxReset acc b s
  | .mbxRspConsWrite acc b idx => Sys2Proof.Machine.execMbxRspConsWrite acc b idx s
  | .hello b m => Sys2Proof.Machine.execHello b m s
  | .infoDevice b m => Sys2Proof.Machine.execInfoDevice b m s
  | .infoSensors b m => Sys2Proof.Machine.execInfoSensors b m s
  | .bye b m => Sys2Proof.Machine.execBye b m s
  | .powerBudgetSet b m => Sys2Proof.Machine.execPowerBudgetSet b m s
  | .powerStateDoze b m => Sys2Proof.Machine.execPowerStateDoze b m s
  | .powerStateNap b m => Sys2Proof.Machine.execPowerStateNap b m s
  | .powerStateHibernate b m => Sys2Proof.Machine.execPowerStateHibernate b m s
  | .powerDomainOn b m => Sys2Proof.Machine.execPowerDomainOn b m s
  | .powerDomainOff b m => Sys2Proof.Machine.execPowerDomainOff b m s
  | .powerDomainLockOff b m => Sys2Proof.Machine.execPowerDomainLockOff b m s
  | .powerDomainUnlock b m => Sys2Proof.Machine.execPowerDomainUnlock b m s
  | .powerThermalSet b m => Sys2Proof.Machine.execPowerThermalSet b m s
  | .powerRead b m => Sys2Proof.Machine.execPowerRead b m s
  | .timeOwner b m => Sys2Proof.Machine.execTimeOwner b m s
  | .timeGet b m => Sys2Proof.Machine.execTimeGet b m s
  | .timeStep b m => Sys2Proof.Machine.execTimeStep b m s
  | .timeAdjRate b m => Sys2Proof.Machine.execTimeAdjRate b m s
  | .timeRearmStep b m => Sys2Proof.Machine.execTimeRearmStep b m s
  | .timeSlotCfg b m => Sys2Proof.Machine.execTimeSlotCfg b m s
  | .timeProfile b m => Sys2Proof.Machine.execTimeProfile b m s
  | .laneConfig b m lanes => Sys2Proof.Machine.execLaneConfig b m lanes s
  | .laneStatus b m => Sys2Proof.Machine.execLaneStatus b m s
  | .laneEyeScan b m points => Sys2Proof.Machine.execLaneEyeScan b m points s
  | .laneChlNegotiate b m => Sys2Proof.Machine.execLaneChlNegotiate b m s
  | .laneFhTable b m => Sys2Proof.Machine.execLaneFhTable b m s
  | .configLoadOverlay b m => Sys2Proof.Machine.execConfigLoadOverlay b m s
  | .configUnload b m => Sys2Proof.Machine.execConfigUnload b m s
  | .configStatus b m => Sys2Proof.Machine.execConfigStatus b m s
  | .configLock b m => Sys2Proof.Machine.execConfigLock b m s
  | .configReadback b m edge => Sys2Proof.Machine.execConfigReadback b m edge s
  | .memkeyLoad b m => Sys2Proof.Machine.execMemkeyLoad b m s
  | .memkeyClear b m => Sys2Proof.Machine.execMemkeyClear b m s
  | .memkeyRegion b m => Sys2Proof.Machine.execMemkeyRegion b m s
  | .memkeyStatus b m => Sys2Proof.Machine.execMemkeyStatus b m s
  | .taskCqCfg b m => Sys2Proof.Machine.execTaskCqCfg b m s
  | .taskTick b m => Sys2Proof.Machine.execTaskTick b m s
  | .taskStats b m => Sys2Proof.Machine.execTaskStats b m s
  | .taskFlush b m => Sys2Proof.Machine.execTaskFlush b m s
  | .errorRead b m => Sys2Proof.Machine.execErrorRead b m s
  | .errorClear b m => Sys2Proof.Machine.execErrorClear b m s
  | .errorConfig b m => Sys2Proof.Machine.execErrorConfig b m s
  | .errorInject b m => Sys2Proof.Machine.execErrorInject b m s
  | .attestReport b m => Sys2Proof.Machine.execAttestReport b m s
  | .attestCerts b m => Sys2Proof.Machine.execAttestCerts b m s
  | .debugChallenge b m => Sys2Proof.Machine.execDebugChallenge b m s
  | .debugUnlock b m => Sys2Proof.Machine.execDebugUnlock b m s
  | .debugTraceCfg b m => Sys2Proof.Machine.execDebugTraceCfg b m s
  | .debugLock b m => Sys2Proof.Machine.execDebugLock b m s
  | .updateStage b m => Sys2Proof.Machine.execUpdateStage b m s
  | .updateCommit b m flashOk => Sys2Proof.Machine.execUpdateCommit b m flashOk s
  | .updateStatus b m => Sys2Proof.Machine.execUpdateStatus b m s
  | .updateActivate b m goldenArb blow bits => Sys2Proof.Machine.execUpdateActivate b m goldenArb blow bits s
  | .timeTick => Sys2Proof.Machine.execTimeTick s
  | .todAddendLoWrite acc v => Sys2Proof.Machine.execTodAddendLoWrite acc v s
  | .nsIncrWrite acc v => Sys2Proof.Machine.execNsIncrWrite acc v s
  | .nsFallbackOffLoWrite acc v => Sys2Proof.Machine.execNsFallbackOffLoWrite acc v s
  | .todInvalidate acc => Sys2Proof.Machine.execTodInvalidate acc s
  | .todSnap acc core => Sys2Proof.Machine.execTodSnap acc core s
  | .todStepArm acc => Sys2Proof.Machine.execTodStepArm acc s
  | .todStepApply => Sys2Proof.Machine.execTodStepApply s
  | .todRearm acc => Sys2Proof.Machine.execTodRearm acc s
  | .todServoWrite acc v => Sys2Proof.Machine.execTodServoWrite acc v s
  | .timeCmpTgtLoWrite acc n v => Sys2Proof.Machine.execTimeCmpTgtLoWrite acc n v s
  | .comparatorFire n => Sys2Proof.Machine.execComparatorFire n s
  | .ppsInEdge n sub => Sys2Proof.Machine.execPpsInEdge n sub s
  | .ppsOutPulseEnd n => Sys2Proof.Machine.execPpsOutPulseEnd n s
  | .slotStart n => Sys2Proof.Machine.execSlotStart n s
  | .slotTmrCtrlWrite acc n v => Sys2Proof.Machine.execSlotTmrCtrlWrite acc n v s
  | .tsuTxPop acc => Sys2Proof.Machine.execTsuTxPop acc s
  | .tsuRclkCtrlWrite acc n v => Sys2Proof.Machine.execTsuRclkCtrlWrite acc n v s
  | .laneLossOfSignal lane inflight => Sys2Proof.Machine.execLaneLossOfSignal lane inflight s
  | .eyeMonitorUpdate lane eyes width errs uncorr => Sys2Proof.Machine.execEyeMonitorUpdate lane eyes width errs uncorr s
  | .ringProdWrite acc ring v => Sys2Proof.Machine.execRingProdWrite acc ring v s
  | .macLinkUp mac partner trained => Sys2Proof.Machine.execMacLinkUp mac partner trained s
  | .macTxDescriptor mac edge ingress => Sys2Proof.Machine.execMacTxDescriptor mac edge ingress s
  | .macRxFrame mac frame fcsOk edge => Sys2Proof.Machine.execMacRxFrame mac frame fcsOk edge s
  | .fhRxFrame f frame edge => Sys2Proof.Machine.execFhRxFrame f frame edge s
  | .fhTxDeparture f => Sys2Proof.Machine.execFhTxDeparture f s
  | .fhFlush acc => Sys2Proof.Machine.execFhFlush acc s
  | .fhEntryAgeOut isRu idx => Sys2Proof.Machine.execFhEntryAgeOut isRu idx s
  | .cpriStartup f nextState rtt => Sys2Proof.Machine.execCpriStartup f nextState rtt s
  | .cpriBasicFrame f bits => Sys2Proof.Machine.execCpriBasicFrame f bits s
  | .cpriLinkLoss f => Sys2Proof.Machine.execCpriLinkLoss f s
  | .pcieInboundRequest c fn req => Sys2Proof.Machine.execPcieInboundRequest c fn req s
  | .pcieDmaDescriptor c ch cpl => Sys2Proof.Machine.execPcieDmaDescriptor c ch cpl s
  | .pcieLinkDown c => Sys2Proof.Machine.execPcieLinkDown c s
  | .chlBringUp f partner partnerLanes trained => Sys2Proof.Machine.execChlBringUp f partner partnerLanes trained s
  | .chlVersionFail f version => Sys2Proof.Machine.execChlVersionFail f version s
  | .chlRetry f trained => Sys2Proof.Machine.execChlRetry f trained s
  | .chlRenegotiate f partner trained => Sys2Proof.Machine.execChlRenegotiate f partner trained s
  | .chlLinkDrop f => Sys2Proof.Machine.execChlLinkDrop f s
  | .chlCfgEnWrite acc v => Sys2Proof.Machine.execChlCfgEnWrite acc v s
  | .chlWinXlatWrite acc v => Sys2Proof.Machine.execChlWinXlatWrite acc v s
  | .chlRemoteRequest f p => Sys2Proof.Machine.execChlRemoteRequest f p s
  | .requestInjection p => Sys2Proof.Machine.execRequestInjection p s
  | .tokenRefill => Sys2Proof.Machine.execTokenRefill s
  | .nocRateWrite acc vc1 v => Sys2Proof.Machine.execNocRateWrite acc vc1 v s
  | .nocStatClr acc => Sys2Proof.Machine.execNocStatClr acc s
  | .read p ups => Sys2Proof.Machine.execRead p ups s
  | .write p ups => Sys2Proof.Machine.execWrite p ups s
  | .postedWrite p ups => Sys2Proof.Machine.execPostedWrite p ups s
  | .atomic p ups => Sys2Proof.Machine.execAtomic p ups s
  | .message p => Sys2Proof.Machine.execMessage p s
  | .submit p => Sys2Proof.Machine.execSubmit p s
  | .debugRead p => Sys2Proof.Machine.execDebugRead p s
  | .debugWrite p => Sys2Proof.Machine.execDebugWrite p s
  | .readResponse p => Sys2Proof.Machine.execReadResponse p s
  | .writeResponse p => Sys2Proof.Machine.execWriteResponse p s
  | .errorResponse p => Sys2Proof.Machine.execErrorResponse p s
  | .nocBridgeFault => Sys2Proof.Machine.execNocBridgeFault s
  | .tskSubmitGo acc v => Sys2Proof.Machine.execTskSubmitGo acc v s
  | .dispatchTick q => Sys2Proof.Machine.execDispatchTick q s
  | .tskSignal acc v => Sys2Proof.Machine.execTskSignal acc v s
  | .signalArrival q => Sys2Proof.Machine.execSignalArrival q s
  | .taskDelivery q => Sys2Proof.Machine.execTaskDelivery q s
  | .taskEnd q => Sys2Proof.Machine.execTaskEnd q s
  | .variantFetchComplete p => Sys2Proof.Machine.execVariantFetchComplete p s
  | .preemptTimeout q k => Sys2Proof.Machine.execPreemptTimeout q k s
  | .cqEntryWritten p => Sys2Proof.Machine.execCqEntryWritten p s
  | .tskCqIdxWrite acc v => Sys2Proof.Machine.execTskCqIdxWrite acc v s
  | .tskFlush acc v => Sys2Proof.Machine.execTskFlush acc v s
  | .pendClr acc v => Sys2Proof.Machine.execPendClr acc v s
  | .tskStatClr acc v => Sys2Proof.Machine.execTskStatClr acc v s
  | .tskTickWrite acc v => Sys2Proof.Machine.execTskTickWrite acc v s
  | .paceSensorUpdate e pace => Sys2Proof.Machine.execPaceSensorUpdate e pace s
  | .taskStart core => Sys2Proof.Machine.execTaskStart core s
  | .illegalBundle core => Sys2Proof.Machine.execIllegalBundle core s
  | .nop core k => Sys2Proof.Machine.execNop core k s
  | .ldx core => Sys2Proof.Machine.execLdx core s
  | .stx core => Sys2Proof.Machine.execStx core s
  | .ldg core => Sys2Proof.Machine.execLdg core s
  | .stg core => Sys2Proof.Machine.execStg core s
  | .atomGlobal core => Sys2Proof.Machine.execAtomGlobal core s
  | .atomLoadReserved core => Sys2Proof.Machine.execAtomLoadReserved core s
  | .atomStoreConditional core => Sys2Proof.Machine.execAtomStoreConditional core s
  | .ldy core => Sys2Proof.Machine.execLdy core s
  | .sty core => Sys2Proof.Machine.execSty core s
  | .cma core => Sys2Proof.Machine.execCma core s
  | .cmaj core => Sys2Proof.Machine.execCmaj core s
  | .cmul core => Sys2Proof.Machine.execCmul core s
  | .rndn core => Sys2Proof.Machine.execRndn core s
  | .movVAcc core => Sys2Proof.Machine.execMovVAcc core s
  | .movAccV core => Sys2Proof.Machine.execMovAccV core s
  | .movAccZero core => Sys2Proof.Machine.execMovAccZero core s
  | .vadd core => Sys2Proof.Machine.execVadd core s
  | .vsub core => Sys2Proof.Machine.execVsub core s
  | .vaddA core => Sys2Proof.Machine.execVaddA core s
  | .vsubA core => Sys2Proof.Machine.execVsubA core s
  | .vshfPerm core => Sys2Proof.Machine.execVshfPerm core s
  | .vshfShl core => Sys2Proof.Machine.execVshfShl core s
  | .vshfShr core => Sys2Proof.Machine.execVshfShr core s
  | .vshfAsr core => Sys2Proof.Machine.execVshfAsr core s
  | .bfly core => Sys2Proof.Machine.execBfly core s
  | .sat core => Sys2Proof.Machine.execSat core s
  | .mov core => Sys2Proof.Machine.execMov core s
  | .movi core => Sys2Proof.Machine.execMovi core s
  | .loop core => Sys2Proof.Machine.execLoop core s
  | .br core => Sys2Proof.Machine.execBr core s
  | .brc core => Sys2Proof.Machine.execBrc core s
  | .call core => Sys2Proof.Machine.execCall core s
  | .ret core => Sys2Proof.Machine.execRet core s
  | .retI core => Sys2Proof.Machine.execRetI core s
  | .syncMem core => Sys2Proof.Machine.execSyncMem core s
  | .syncP core => Sys2Proof.Machine.execSyncP core s
  | .syncEnd core => Sys2Proof.Machine.execSyncEnd core s
  | .syncAccept core => Sys2Proof.Machine.execSyncAccept core s
  | .waitev core => Sys2Proof.Machine.execWaitev core s
  | .submitInstruction core => Sys2Proof.Machine.execSubmitInstruction core s
  | .stim core => Sys2Proof.Machine.execStim core s
  | .interlockedLoadArrival core k => Sys2Proof.Machine.execInterlockedLoadArrival core k s
  | .interruptEntry core => Sys2Proof.Machine.execInterruptEntry core s
  | .coreTimerFire core => Sys2Proof.Machine.execCoreTimerFire core s
  | .tcTimerLoWrite acc v => Sys2Proof.Machine.execTcTimerLoWrite acc v s
  | .watchdogExpiry core => Sys2Proof.Machine.execWatchdogExpiry core s
  | .tcWdtKick acc v => Sys2Proof.Machine.execTcWdtKick acc v s
  | .tcIrqSet acc v => Sys2Proof.Machine.execTcIrqSet acc v s
  | .clusterReset req c => Sys2Proof.Machine.execClusterReset req c s
  | .pageRebuild g word ups => Sys2Proof.Machine.execPageRebuild g word ups s
  | .agentAccessStarved g bank => Sys2Proof.Machine.execAgentAccessStarved g bank s
  | .engineJobStart e => Sys2Proof.Machine.execEngineJobStart e s
  | .ldpcDecodeJob e => Sys2Proof.Machine.execLdpcDecodeJob e s
  | .ldpcEncodeJob e => Sys2Proof.Machine.execLdpcEncodeJob e s
  | .turboDecodeJob e => Sys2Proof.Machine.execTurboDecodeJob e s
  | .polarDecodeJob e => Sys2Proof.Machine.execPolarDecodeJob e s
  | .nrUplinkDeRateMatching e => Sys2Proof.Machine.execNrUplinkDeRateMatching e s
  | .nrDownlinkRateMatching e => Sys2Proof.Machine.execNrDownlinkRateMatching e s
  | .lteUplinkDeRateMatching e => Sys2Proof.Machine.execLteUplinkDeRateMatching e s
  | .lteDownlinkRateMatching e => Sys2Proof.Machine.execLteDownlinkRateMatching e s
  | .softBufferClear e => Sys2Proof.Machine.execSoftBufferClear e s
  | .harqLockGrant e => Sys2Proof.Machine.execHarqLockGrant e s
  | .fftJob e => Sys2Proof.Machine.execFftJob e s
  | .matrixMul e => Sys2Proof.Machine.execMatrixMul e s
  | .matrixChol e => Sys2Proof.Machine.execMatrixChol e s
  | .matrixQr e => Sys2Proof.Machine.execMatrixQr e s
  | .matrixMmseIrc e => Sys2Proof.Machine.execMatrixMmseIrc e s
  | .matrixInterp e => Sys2Proof.Machine.execMatrixInterp e s
  | .prachJob e => Sys2Proof.Machine.execPrachJob e s
  | .engineTaskEnd e fault => Sys2Proof.Machine.execEngineTaskEnd e fault s
  | .clearFault acc v => Sys2Proof.Machine.execClearFault acc v s
  | .accEngStatClr acc v => Sys2Proof.Machine.execAccEngStatClr acc v s
  | .accEngHarqCfgWrite acc v => Sys2Proof.Machine.execAccEngHarqCfgWrite acc v s
  | .scrubWord g ups => Sys2Proof.Machine.execScrubWord g ups s
  | .rangeGo acc => Sys2Proof.Machine.execRangeGo acc s
  | .rangeAbort acc => Sys2Proof.Machine.execRangeAbort acc s
  | .rangePassWord g ups => Sys2Proof.Machine.execRangePassWord g ups s
  | .bistBlockStart g ups => Sys2Proof.Machine.execBistBlockStart g ups s
  | .bistBlockEnd g pass => Sys2Proof.Machine.execBistBlockEnd g pass s
  | .counterNodeRebuild level idx => Sys2Proof.Machine.execCounterNodeRebuild level idx s
  | .eccTblClr acc => Sys2Proof.Machine.execEccTblClr acc s
  | .eccCntClr acc => Sys2Proof.Machine.execEccCntClr acc s
  | .hbmInitFill st => Sys2Proof.Machine.execHbmInitFill st s
  | .hbmTraining st failed => Sys2Proof.Machine.execHbmTraining st failed s
  | .hbmScrubLine pc damage => Sys2Proof.Machine.execHbmScrubLine pc damage s
  | .hbmPcFault pc => Sys2Proof.Machine.execHbmPcFault pc s
  | .hbmPcOffline pc => Sys2Proof.Machine.execHbmPcOffline pc s
  | .ciphRegionCtrlWrite acc v => Sys2Proof.Machine.execCiphRegionCtrlWrite acc v s
  | .bmPortAccess block a b ups => Sys2Proof.Machine.execBmPortAccess block a b ups s
  | .bmPageRebuild block page ups => Sys2Proof.Machine.execBmPageRebuild block page ups s
  | .bmCollClr acc v => Sys2Proof.Machine.execBmCollClr acc v s
  | .fpIreqPacket port p => Sys2Proof.Machine.execFpIreqPacket port p s
  | .fpTrspResponse port p => Sys2Proof.Machine.execFpTrspResponse port p s
  | .fpTargetTimeout port => Sys2Proof.Machine.execFpTargetTimeout port s
  | .fpPortInactive acc v => Sys2Proof.Machine.execFpPortInactive acc v s
  | .ioBankSupplyLost bank => Sys2Proof.Machine.execIoBankSupplyLost bank s
  | .ioBankSupplyRestored bank => Sys2Proof.Machine.execIoBankSupplyRestored bank s
  | .bootFlow mode gold => Sys2Proof.Machine.execBootFlow mode gold s
  | .crystalStable => Sys2Proof.Machine.execCrystalStable s
  | .containerHeader bytes => Sys2Proof.Machine.execContainerHeader bytes s
  | .containerChunk bytes => Sys2Proof.Machine.execContainerChunk bytes s
  | .frames => Sys2Proof.Machine.execFrames s
  | .zero => Sys2Proof.Machine.execZero s
  | .data => Sys2Proof.Machine.execData s
  | .iso => Sys2Proof.Machine.execIso s
  | .port => Sys2Proof.Machine.execPort s
  | .firmware => Sys2Proof.Machine.execFirmware s
  | .endRecord => Sys2Proof.Machine.execEndRecord s
  | .signatureBlock bytes extra => Sys2Proof.Machine.execSignatureBlock bytes extra s
  | .loadStallTimeout => Sys2Proof.Machine.execLoadStallTimeout s
  | .goldenFallback => Sys2Proof.Machine.execGoldenFallback s
  | .startUp supplies => Sys2Proof.Machine.execStartUp supplies s
  | .regionStartup r => Sys2Proof.Machine.execRegionStartup r s
  | .prHostCtrlGo acc v => Sys2Proof.Machine.execPrHostCtrlGo acc v s
  | .intportContainer hdr => Sys2Proof.Machine.execIntportContainer hdr s
  | .regionReset r ended => Sys2Proof.Machine.execRegionReset r ended s
  | .prIsoModeWrite acc w v => Sys2Proof.Machine.execPrIsoModeWrite acc w v s
  | .cfgScrubFrame hit => Sys2Proof.Machine.execCfgScrubFrame hit s
  | .cfgFrameRepair chunk => Sys2Proof.Machine.execCfgFrameRepair chunk s
  | .cfgScrubLapEnd mismatch => Sys2Proof.Machine.execCfgScrubLapEnd mismatch s
  | .programNLow ns seen => Sys2Proof.Machine.execProgramNLow ns seen s
  | .powerDownAttempt d => Sys2Proof.Machine.execPowerDownAttempt d s
  | .drainTimeout d => Sys2Proof.Machine.execDrainTimeout d s
  | .fence d => Sys2Proof.Machine.execFence d s
  | .pointOfNoReturn d => Sys2Proof.Machine.execPointOfNoReturn d s
  | .domainOff d => Sys2Proof.Machine.execDomainOff d s
  | .powerDownRetry d => Sys2Proof.Machine.execPowerDownRetry d s
  | .domainPowerUpComplete d => Sys2Proof.Machine.execDomainPowerUpComplete d s
  | .wakeTimeout d => Sys2Proof.Machine.execWakeTimeout d s
  | .pwrDomCtrlOn acc v => Sys2Proof.Machine.execPwrDomCtrlOn acc v s
  | .pwrDomCtrlOff acc v => Sys2Proof.Machine.execPwrDomCtrlOff acc v s
  | .pwrDomCtrlLockOff acc v => Sys2Proof.Machine.execPwrDomCtrlLockOff acc v s
  | .pwrDomCtrlUnlock acc v => Sys2Proof.Machine.execPwrDomCtrlUnlock acc v s
  | .entryWindowClose => Sys2Proof.Machine.execEntryWindowClose s
  | .wakeEvent k active => Sys2Proof.Machine.execWakeEvent k active s
  | .napWake => Sys2Proof.Machine.execNapWake s
  | .hibernateWake => Sys2Proof.Machine.execHibernateWake s
  | .hibernateWakeFail => Sys2Proof.Machine.execHibernateWakeFail s
  | .napIdlePowerDown d => Sys2Proof.Machine.execNapIdlePowerDown d s
  | .rtcAlarm ticks => Sys2Proof.Machine.execRtcAlarm ticks s
  | .pwrRtcAlarmWrite acc v => Sys2Proof.Machine.execPwrRtcAlarmWrite acc v s
  | .governorPeriod rails => Sys2Proof.Machine.execGovernorPeriod rails s
  | .avsTimeout q => Sys2Proof.Machine.execAvsTimeout q s
  | .droopEvent k mv => Sys2Proof.Machine.execDroopEvent k mv s
  | .droopRelease q => Sys2Proof.Machine.execDroopRelease q s
  | .tempSoftCrossing t v => Sys2Proof.Machine.execTempSoftCrossing t v s
  | .tempHard t v => Sys2Proof.Machine.execTempHard t v s
  | .tempHardRelease t v => Sys2Proof.Machine.execTempHardRelease t v s
  | .thermalTrip t v => Sys2Proof.Machine.execThermalTrip t v s
  | .clockMonitorWindow k count => Sys2Proof.Machine.execClockMonitorWindow k count s
  | .clockSourceStopped k => Sys2Proof.Machine.execClockSourceStopped k s
  | .loopLoss l => Sys2Proof.Machine.execLoopLoss l s
  | .loopAutoRelock l => Sys2Proof.Machine.execLoopAutoRelock l s
  | .relock acc v => Sys2Proof.Machine.execRelock acc v s
  | .loopLock l => Sys2Proof.Machine.execLoopLock l s
  | .clkMuxSwitch acc v => Sys2Proof.Machine.execClkMuxSwitch acc v s
  | .clkMuxSwitchComplete m first => Sys2Proof.Machine.execClkMuxSwitchComplete m first s
  | .muxStuck m => Sys2Proof.Machine.execMuxStuck m s
  | .domReset acc v => Sys2Proof.Machine.execDomReset acc v s
  | .clockGateRequest blk held => Sys2Proof.Machine.execClockGateRequest blk held s
  | .gatedBlockWake blk => Sys2Proof.Machine.execGatedBlockWake blk s
  | .por => Sys2Proof.Machine.execPor s
  | .pinReset ns seen => Sys2Proof.Machine.execPinReset ns seen s
  | .warmReset => Sys2Proof.Machine.execWarmReset s
  | .watchdogReset => Sys2Proof.Machine.execWatchdogReset s
  | .debugReset => Sys2Proof.Machine.execDebugReset s
  | .firmwareRestore => Sys2Proof.Machine.execFirmwareRestore s
  | .getNonce req => Sys2Proof.Machine.execGetNonce req s
  | .advance req blow => Sys2Proof.Machine.execAdvance req blow s
  | .imageSlot req blow => Sys2Proof.Machine.execImageSlot req blow s
  | .revokeSlot req blow => Sys2Proof.Machine.execRevokeSlot req blow s
  | .debugHash req blow => Sys2Proof.Machine.execDebugHash req blow s
  | .goldenBase req blow => Sys2Proof.Machine.execGoldenBase req blow s
  | .keyRamLoad req => Sys2Proof.Machine.execKeyRamLoad req s
  | .keyRamClear req => Sys2Proof.Machine.execKeyRamClear req s
  | .prove req => Sys2Proof.Machine.execProve req s
  | .certRead req => Sys2Proof.Machine.execCertRead req s
  | .tamper ns powered => Sys2Proof.Machine.execTamper ns powered s
  | .vbatLoss => Sys2Proof.Machine.execVbatLoss s
  | .debugChallengeExpiry => Sys2Proof.Machine.execDebugChallengeExpiry s
  | .lockoutEnd => Sys2Proof.Machine.execLockoutEnd s
  | .coalesceWindowClose k entry => Sys2Proof.Machine.execCoalesceWindowClose k entry s
  | .collectorForward q => Sys2Proof.Machine.execCollectorForward q s
  | .errStatusFeClear acc v => Sys2Proof.Machine.execErrStatusFeClear acc v s
  | .dbgAccess p => Sys2Proof.Machine.execDbgAccess p s
  | .halt acc => Sys2Proof.Machine.execHalt acc s
  | .coreHalted core => Sys2Proof.Machine.execCoreHalted core s
  | .resume acc => Sys2Proof.Machine.execResume acc s
  | .step acc => Sys2Proof.Machine.execStep acc s
  | .breakpointHit core => Sys2Proof.Machine.execBreakpointHit core s
  | .haltGroupPropagate m => Sys2Proof.Machine.execHaltGroupPropagate m s
  | .dbgRegDataWrite acc k v => Sys2Proof.Machine.execDbgRegDataWrite acc k v s
  | .dbgCorePcWrite acc v => Sys2Proof.Machine.execDbgCorePcWrite acc v s
  | .dbgWarmKey acc v => Sys2Proof.Machine.execDbgWarmKey acc v s
  | .dbgCtrlWrite acc v => Sys2Proof.Machine.execDbgCtrlWrite acc v s
  | .fabricStimulus port data d64 => Sys2Proof.Machine.execFabricStimulus port data d64 s
  | .chamoisStimulus port data d64 => Sys2Proof.Machine.execChamoisStimulus port data d64 s
  | .traceDrain => Sys2Proof.Machine.execTraceDrain s
  | .traceTimePacket => Sys2Proof.Machine.execTraceTimePacket s
  | .laneLocked lane => Sys2Proof.Machine.execLaneLocked lane s
  | .macLinkDown mac inflight => Sys2Proof.Machine.execMacLinkDown mac inflight s
  | .pcieLinkUp c width gen => Sys2Proof.Machine.execPcieLinkUp c width gen s
  | .quietPeriodTimeout d => Sys2Proof.Machine.execQuietPeriodTimeout d s

end Sys2Proof.Machine
end

