-- ==== Sys2Proof/Machine/Idle.lean ====
section
/-! DEFINITION. What the block does between commands (DESIGN CHOICE, log 1): a round of the network, and what waits for memory
or for a chassis link's remote device goes on. -/

namespace Sys2Proof.Machine

/-- Descriptors whose end with status 3 had to wait are tried again (R105, R119). -/
def State.abortsRetry (s : State) : State :=
  let s := (List.range 64).foldl (fun s m => s.abortRetry .macTx m (epLaneQuad m)) s
  (List.range 8).foldl (fun s i => s.abortRetry .pcieDma i (epPcie (i / 4))) s

/-- The network makes a round; the bridge runs from SYS_LOOP_0 (R143). -/
def State.netRound (s : State) : State := { s with net := s.net.round (s.isSet F.CLK_LOOP_STATUS.LOCK 0) }

/-- One idle step: units move, received frames and ends of descriptors that wait for memory are tried again, remote devices
return credits, decision passes that are due run, and the fabric makes a round. In HIBERNATE nothing moves, but for an attached
debugger's packets (R382, R472). -/
def State.idle (s : State) : State :=
  if s.dark then (if s.attached then s.netRound else s)
  else
  let s := (List.range 4).foldl (fun t q => t.redecideDue q) s.netRound.rxRetry.abortsRetry.chlCredits
  ((List.range 128).foldl (fun t p => t.portDrain p) s).fabricRound

end Sys2Proof.Machine
end

