-- ==== Sys2Proof/Machine/Pins.lean ====
section
/-! DEFINITION. The control pins the device drives (R364, R449, R489, R490): their levels follow from the state, so State
holds no copy of them. And the ball map (R480 to R485): what each ball of the package carries. -/

namespace Sys2Proof.Machine

/-! ### Levels -/

/-- What the device does with a pin: drives it low or high, or leaves it to the board (released, high-impedance). -/
inductive PinLevel where
  | low | high | released
  deriving DecidableEq, Repr

/-- An open-drain pin that is asserted low. -/
def openDrain (asserted : Bool) : PinLevel := if asserted then .low else .released

/-- DONE: released while the base image runs (R364, R490). -/
def State.pinDone (s : State) : PinLevel := openDrain (s.cfg.phase != .started || s.dark)

/-- CONF_ERR_N: low in the dark phase alone. -/
def State.pinConfErr (s : State) : PinLevel := openDrain (s.cfg.phase == .dark && !s.dark)

/-- ALERT_N: an FE event not yet cleared, TEMP_HARD, or a failed wake (R397, R403, R449); in HIBERNATE the failed wake
alone, and released in reset and in the dark phase (R490). -/
def State.pinAlert (s : State) : PinLevel :=
  let wake := s.isSet F.PWR_MITTEN_STATUS.WAKE_FAIL 0
  openDrain (if s.dark then wake
    else s.cfg.phase == .started && (wake || s.isSet F.ERR_STATUS.FE 0 || s.isSet F.GOV_STATUS.HARD 0))

/-- THERM_TRIP_N, whatever firmware and configuration do (R403, R489). -/
def State.pinTrip (s : State) : PinLevel := openDrain s.power.gov.trip

/-- HBM_PWR_EN, held by Mitten (R488). -/
def State.pinHbmPwr (s : State) : PinLevel := if s.power.hbmPwr then .high else .low

/-- The pins that firmware's run drives, PPS_OUT, RCLK_OUT, AVS_CLK and AVS_MDATA, are driven: once DEV_FW_STATE is 2, while updating (4) too, and not in HIBERNATE (R490). -/
def State.outsDriven (s : State) : Bool := (s.get F.DEV_FW_STATE.STATE 0 == 2 || s.get F.DEV_FW_STATE.STATE 0 == 4) && !s.dark

/-- PPS_OUT_n: a pin that is not enabled drives its inactive level (R85, R490). -/
def State.pinPps (s : State) (n : Nat) : PinLevel :=
  if s.outsDriven = false then .released
  else if s.ppsActive n != s.isSet F.TOD_PPS_OUT_CTRL.POL n then .high else .low

/-- RCLK_OUT_n where the pins are driven (R86): none where it is held low (not enabled, or its lane has lost lock), else its
frequency, the lane's symbol rate divided by DIV, as kHz over a denominator. -/
def State.rclkOut (s : State) (n : Nat) : Option (Nat × Nat) :=
  let l := s.get F.TSU_RCLK_CTRL.LANE n
  if s.isSet F.TSU_RCLK_CTRL.EN n ∧ s.isSet F.TSU_RCLK_CTRL.SQUELCH n = false then
    some (s.get F.LANE_RATE.KBPS l, (if s.isSet F.LANE_CTRL.PAM4 l then 2 else 1) * max 1 (s.get F.TSU_RCLK_CTRL.DIV n))
  else none

/-! ### The ball map -/

/-- The letters of the second place of a row name, and of rows 1 to 18 (R480). -/
def rowLetters : List String := ["A", "B", "C", "D", "E", "F", "G", "H", "J", "K", "L", "M", "N", "P", "T", "V", "W", "Y"]

/-- Name of a row, 1 to 64 from north to south (R480). -/
def rowName (r : Nat) : String :=
  let l := rowLetters.getD ((r - 1) % 18) ""
  match (r - 1) / 18 with
  | 0 => l
  | 1 => "A" ++ l
  | 2 => "B" ++ l
  | _ => "C" ++ l

/-- A ball by its row and column, both from 1. -/
structure Ball where
  row : Nat
  col : Nat
  deriving DecidableEq, Repr

/-- Ball of LANE_TXP_n or, with `rx`, LANE_RXP_n; the N ball lies in the column after it (R482). -/
def laneBall (n : Nat) (rx : Bool) : Ball :=
  let q := n / 64
  let l := n % 64
  let t := l / 16
  { row := if q < 2 then (if rx then 10 + 2 * t else 2 + 2 * t) else (if rx then 55 - 2 * t else 63 - 2 * t)
    col := 32 * (q % 2) + 2 * (l % 16) + 1 }

/-- Ball of REFCLK_P_j; REFCLK_N_j lies in the column after it (R483). -/
def refclkBall (j : Nat) : Ball := { row := if j < 16 then 17 else 48, col := 4 * (j % 16) + 1 }

/-- Ball of UIO_b_p (R484). -/
def uioBall (b p : Nat) : Ball :=
  { row := (if b < 8 then 18 else 42) + p / 8, col := 32 * (b / 4 % 2) + 8 * (b % 4) + p % 8 + 1 }

/-- Ball of control pin `k` of R485's list, from 0 (RESET_N) to 75 (NC_13). -/
def controlBall (k : Nat) : Ball := if k < 64 then { row := 24, col := k + 1 } else { row := 41, col := k - 63 }

/-- A supply rail (R487). -/
inductive Rail where
  | array (q : Nat)
  | fab | laneA | laneB | soc | hbm | hbmQ
  | io (b : Nat)
  | vaux | vbat
  deriving DecidableEq, Repr

/-- What a ball carries: a pin of a lane, of a reference clock, of a user I/O bank or of R485's list, a rail, or ground. -/
inductive BallUse where
  | lane (n : Nat) (rx neg : Bool)
  | refclk (j : Nat) (neg : Bool)
  | uio (b p : Nat)
  | control (k : Nat)
  | supply (r : Rail)
  | ground
  deriving DecidableEq, Repr

/-- The rail of a ball of rows AG to BD (25 to 40); none for ground (R486). -/
def supplyRail (x : Ball) : Option Rail :=
  let left := decide (x.col ≤ 32)
  match x.row with
  | 25 | 26 | 27 => some (.array (if left then 0 else 1))
  | 28 | 29 | 30 => some .fab
  | 31 => some .laneA
  | 32 => some (if left then .laneA else .laneB)
  | 33 => some (if left then .laneB else .soc)
  | 34 => some (if x.col ≤ 16 then .soc else if x.col ≤ 48 then .hbm else .hbmQ)
  | 35 => some (if x.col ≤ 16 then .hbmQ else .io ((x.col - 17) / 4))
  | 36 => if x.col ≤ 16 then some (.io (12 + (x.col - 1) / 4)) else if x.col ≤ 20 then some .vaux
    else if x.col ≤ 22 then some .vbat else none
  | 38 | 39 | 40 => some (.array (if left then 2 else 3))
  | _ => none

/-- A lane's ball in column `c`, from 0, of the row of transmit or receive pairs with t (R482); `south`: quadrants 2 and 3. -/
def laneUse (south rx : Bool) (t c : Nat) : BallUse :=
  .lane (64 * (c / 32 + (if south then 2 else 0)) + 16 * t + c % 32 / 2) rx (c % 2 == 1)

/-- A reference clock's ball in column `c`, from 0 (R483). -/
def refclkUse (first c : Nat) : BallUse := if c % 4 < 2 then .refclk (first + c / 4) (c % 4 == 1) else .ground

/-- What the ball in a row and column carries (R481 to R486). -/
def ballUse (x : Ball) : BallUse :=
  let r := x.row
  let c := x.col - 1
  if r ≤ 16 then (if r % 2 = 1 then .ground else laneUse false (decide (10 ≤ r)) ((r - 2) / 2 % 4) c)
  else if r = 17 then refclkUse 0 c
  else if r ≤ 23 then .uio (c / 8) (8 * (r - 18) + c % 8)
  else if r = 24 then .control c
  else if r ≤ 40 then (match supplyRail x with | some k => .supply k | none => .ground)
  else if r = 41 then (if c < 12 then .control (64 + c) else .ground)
  else if r ≤ 47 then .uio (8 + c / 8) (8 * (r - 42) + c % 8)
  else if r = 48 then refclkUse 16 c
  else if r % 2 = 0 then .ground else laneUse true (decide (r ≤ 55)) ((63 - r) / 2 % 4) c

end Sys2Proof.Machine
end

