-- ==== Sys2Proof/Safety.lean ====
section
/-! DEFINITION. The terms the statements use: a command leads to a next state, what a command leaves alone, how a mailbox
command ends, and runs that no command stops. -/

namespace Sys2Proof.Safety

open Sys2Proof.Machine

/-- Command `c` in state `s` answers a next state, of which `P` holds. -/
def Leads (c : Instr) (s : State) (P : State → Prop) : Prop := ∃ t, exec c s = .next t ∧ P t

/-- Every register but those with these keys reads in `t` as in `s`. -/
def RegsKeep (s t : State) (ks : List Nat) : Prop := ∀ r i, regKey r i ∉ ks → t.reg r i = s.reg r i

/-- Nothing but registers differs. -/
def RegsOnly (s t : State) : Prop := t = { s with regs := t.regs }

/-- Registers with these keys may differ, and nothing else. -/
def OnlyRegs (s t : State) (ks : List Nat) : Prop := RegsOnly s t ∧ RegsKeep s t ks

/-- What an access by way of the register hub may touch beside its target: the gating of a block's clock (R415). -/
def HubKeep (s t : State) (ks : List Nat) : Prop :=
  RegsKeep s t (regKey R.CLK_GATE_WAKES 0 :: ks) ∧ t = { s with regs := t.regs, clk := { s.clk with gated := t.clk.gated } }

/-- Keys of the registers a change of domain `d`'s state may touch: its status, and the overdue lap of the memory group it powers
(R289). -/
def domKeys (d : Nat) : List Nat := regKey R.PWR_DOM_STATUS d ::
  (match lapGroup d with | some g => [regKey R.SCRUB_STATUS g] | none => [])

/-- Only what follows a domain's state differs: those registers, and the time its memory group counts (R289). -/
def DomKeep (s t : State) (d : Nat) : Prop :=
  RegsKeep s t (domKeys d) ∧ t = { s with regs := t.regs, store := { s.store with grps := t.store.grps } }

/-- The accessor may write firmware-owned registers (R63, R64). -/
abbrev Firmware (s : State) (a : Accessor) : Prop := a = .chamois ∨ s.rondan a = true

/-- The accessor finds the register hub on: not in HIBERNATE, but for an attached debugger (R382, R472). -/
abbrev Awake (s : State) (a : Accessor) : Prop := s.asleep a = false

/-- The debugger, if it is the accessor, is at level 1 or above (R463), and the register hub is on. -/
abbrev Reaches (s : State) (a : Accessor) : Prop := (a = .debugger → s.debugLevel ≠ 0) ∧ Awake s a

/-- A write of element `elem` of register `r` reaches instance `i`: the hub is on, the instance selected and present (R36, R38,
R65), not kept from a debugger (R463), the accessor's to write (R17, R63) and powered (R383). -/
abbrev Writes (s : State) (a : Accessor) (core : Nat) (r : RegRow) (elem i : Nat) : Prop :=
  Awake s a ∧ s.instOf a core r elem = some i ∧ s.dbgBlocked a r = false ∧ s.mayWrite a r i = true ∧ s.regAway r i = false

/-- Registers whose write does something beside giving their fields values. -/
def actingRegisters : List Nat :=
  [R.DEV_OWN_VIOL.off, R.TOD_CTRL.off, R.ERR_STATUS.off, R.PWR_DOM_CTRL.off, R.PWR_RTC_ALARM.off, R.PWR_RTC_SEC.off,
   R.GOV_BUDGET.off, R.GOV_SHARE.off, R.GOV_TEMP_LIMITS.off, R.GOV_Q_VCFG.off, R.GOV_STATUS.off, R.CLK_LOOP_CTRL.off,
   R.CLK_LOOP_CFG.off, R.CLK_LOOP_FRAC.off, R.CLK_FAB_OUT.off, R.CLK_LOOP_STATUS.off, R.CLK_MON_CFG.off, R.CLK_MUX_CTRL.off,
   R.TOD_REARM.off, R.TOD_SERVO.off, R.TOD_ADDEND_LO.off, R.NS_INCR.off, R.NS_FALLBACK_OFF_LO.off, R.NS_FALLBACK_OFF_HI.off,
   R.TOD_PPS_OUT_CTRL.off, R.TIME_CMP_TGT_LO.off, R.SLOT_TMR_CTRL.off, R.SLOT_TMR_PERIOD.off, R.SLOT_TMR_OFFSET.off,
   R.TSU_TX_POP.off, R.TSU_RCLK_CTRL.off, R.MAC_TX_IDX.off, R.MAC_RX_IDX.off, R.FH_TX_IDX.off, R.CPRI_CM_TX_IDX.off,
   R.CPRI_CM_RX_IDX.off, R.PCIE_DMA_IDX.off, R.MAC_TX_RING_LO.off, R.MAC_TX_RING_HI.off, R.MAC_RX_RING_LO.off] ++
  [R.MAC_RX_RING_HI.off, R.FH_TX_RING_LO.off, R.FH_TX_RING_HI.off, R.CPRI_CM_TX_RING_LO.off, R.CPRI_CM_TX_RING_HI.off,
   R.CPRI_CM_RX_RING_LO.off, R.CPRI_CM_RX_RING_HI.off, R.LANE_CTRL.off, R.LANE_RATE.off, R.LANE_EQ_CTRL.off,
   R.LANE_EQ_TAP.off, R.MAC_CFG.off, R.MAC_STATUS.off, R.FH_CTRL.off, R.FH_STATUS.off, R.CPRI_CFG.off, R.CHL_CFG.off,
   R.CHL_WIN_XLAT.off, R.CHL_WIN_CTRL.off, R.PCIE_STATUS.off, R.PCIE_BAR2_XLAT_LO.off, R.PCIE_BAR2_XLAT_HI.off,
   R.PCIE_BAR2_CTRL.off, R.PCIE_IN_XLAT_LO.off, R.PCIE_IN_XLAT_HI.off, R.PCIE_IN_CTRL.off, R.NOC_INIT_CFG.off,
   R.NOC_RATE_VC0.off, R.NOC_RATE_VC1.off, R.NOC_STAT_CLR.off, R.TSK_SUBMIT_GO.off, R.TSK_SIGNAL.off, R.TSK_CQ_IDX.off,
   R.TSK_CQ_CFG.off, R.TSK_CQ_BASE_LO.off, R.TSK_CQ_BASE_HI.off, R.TSK_FLUSH.off, R.TSK_CTRL.off, R.TSK_STAT_CLR.off,
   R.TSK_TICK.off] ++
  [R.CL_CTRL.off, R.ACC_ENG_ITEMS_LO.off, R.ACC_ENG_ITEMS_HI.off, R.ACC_ENG_SAT_CNT.off, R.ACC_ENG_MTX_CFG.off,
   R.ACC_ENG_ILL_CNT.off, R.ACC_ENG_PRACH_CFG.off, R.ACC_ENG_PRACH_DET.off, R.ACC_ENG_CTRL.off, R.ACC_ENG_STAT_CLR.off,
   R.ACC_ENG_ERR.off, R.ACC_ENG_HARQ_CFG.off, R.ACC_ENG_HARQ_BASE_LO.off, R.ACC_ENG_HARQ_BASE_HI.off,
   R.ACC_ENG_HARQ_STRIDE.off, R.ECC_TBL_CLR.off, R.ECC_CNT_CLR.off, R.ECC_NODE_FLAGS.off, R.SCRUB_CTRL.off,
   R.CIPH_REGION_CTRL.off, R.PR_REGION_CTRL.off, R.PR_HOST_ADDR_LO.off, R.PR_HOST_ADDR_HI.off, R.PR_HOST_LEN.off,
   R.PR_HOST_CTRL.off, R.BM_STATUS.off, R.BM_COLL_CLR.off, R.PR_FP_CTRL.off, R.PR_FP_KEYMASK_LO.off, R.PR_FP_KEYMASK_HI.off,
   R.DBG_CORE_CTRL.off, R.DBG_REG_DATA.off, R.DBG_CORE_PC.off, R.DBG_WARM_KEY.off, R.TRC_CTRL.off, R.MBX_DOORBELL.off,
   R.MBX_RSP_CONS.off, R.MBX_CTRL.off]

/-- A write of the register gives its fields values and does nothing else (R14, R15); the banks of cores, engines and cipher regions
have rules of their own. -/
abbrev Plain (r : RegRow) : Prop := r.off ∉ actingRegisters ∧ r.sel ≠ .tc ∧ r.sel ≠ .eng ∧ r.sel ≠ .ciph

/-- The accessor may write the registers of mailbox `b` (R39). -/
abbrev OwnsBox (a : Accessor) (b : Fin 8) : Prop := a = .chamois ∨ a = mailboxOwner b.val

/-- `k` is the command of mailbox `b` with opcode `op` and message `m` that has been taken and is next to run. -/
abbrev Taking (s : State) (b : Fin 8) (op : Nat) (m : Msg) (k : Taken) : Prop := s.findTaken b op m = some k

/-- Command `c`, which runs the taken command `k`, ends it with a status, a detail and a payload, in a state `u` of which
`P` holds. -/
def Ends (c : Instr) (s : State) (k : Taken) (status detail : Nat) (p : Payload) (P : State → Prop) : Prop :=
  ∃ u, exec c s = .next (u.finish k status detail p) ∧ P u

/-- Cluster `c` is on and in no reset, and no stored word is damaged. -/
abbrev Serves (s : State) (c : Nat) : Prop :=
  s.clReset.get 0 c = 0 ∧ s.domState (domCluster c) = 2 ∧ s.store.damage = []

/-- Byte enables of unit `k` of a write: those of the header apply to the first alone (R134). -/
def unitBe (p : Packet) (k : Nat) : Nat := if k = 0 then p.be.toNat else 65535

/-- In `t` the units of `p` stand where it says, over what `s` had there; every other byte and every register is as in `s`. -/
abbrev StoresUnits (s t : State) (p : Packet) : Prop :=
  (∀ k u, p.data[k]? = some u → t.word (pktWord p + k) = mergeBytes (unitBe p k) (s.word (pktWord p + k)) u.data ∧
    t.poisonAt (pktWord p + k) = (u.poison || (decide (unitBe p k ≠ 65535) && s.poisonAt (pktWord p + k)))) ∧
  (∀ a, a < 16 * pktWord p ∨ 16 * (pktWord p + p.data.length) ≤ a → t.byte a = s.byte a) ∧ t.regs = s.regs

/-- The units a read of `p` finds. -/
def unitsAt (s : State) (p : Packet) : List DataUnit :=
  (List.range (p.len.toNat + 1)).map (fun k => ⟨s.word (pktWord p + k), s.poisonAt (pktWord p + k)⟩)

/-- Bytes `a` to `a + n` lie in the scratchpad of cluster `c`. -/
abbrev InScratch (c a n : Nat) : Prop := baseScratch + 0x200000 * c ≤ a ∧ a + n ≤ baseScratch + 0x200000 * (c + 1)

/-- No outstanding limit, no regulator and no packet at a local port holds the requests of endpoint `ep` on `vc` (R140, R146, R147). -/
abbrev Unhindered (s : State) (ep vc : Nat) : Prop :=
  (s.outstanding ep).length < s.initLimit ep ∧ s.rateOn ep vc = false ∧ ∀ w ∈ s.net.flight, w.pkt.vc.toNat = vc → w.out = 0

/-- Requests of endpoint `ep` with key index `key` for the unit at `a` are served: in a scratchpad, or in a memory stack that is
initialised and allows the key (R305). -/
def Served (s : State) (ep key a : Nat) : Prop :=
  s.injectBad ep (decodeAddr a) = false ∧ s.domainCode (decodeAddr a) = 0 ∧ (match decodeAddr a with
    | .scratch _ => True
    | .hbm pc => s.hbmReady pc = true ∧ s.hbmCheck a key = 0
    | _ => False)

/-- Ranges a checked job reads or writes, with their key indexes: inputs, outputs to the end of their last line, soft buffers, and
4 KiB for the record. -/
def jobTouches (t : Nat) (x : Eng) : List (Nat × Nat × Nat) :=
  let j := x.job; let ki := jKeyIn j; let ko := jKeyOut j
  let blocks := fun (c stride n : Nat) => (List.range c).map (fun r => (ki, jIn j + r * stride, n))
  let out := fun (rs : List (Nat × Nat)) => rs.map (fun r => (ko, r.1, align64 r.2))
  let lines := align64 (jFld j 10 0 18)
  let soft := (List.range (jFld j 8 16 16)).map (fun r => (x.skey, x.sbase + r * lines, lines))
  (if jRes j = 0 then [] else [(ko, jRes j, 4096)]) ++ (match t with
    | 0 => blocks (jFld j 9 16 16) (jFld j 10 0 24) (jFld j 9 0 16) ++ out (outRanges j (jBit j 7 29) (jFld j 11 0 24)
        (ceilDiv (jFld j 8 0 16) 8) (jFld j 9 16 16) (ceilDiv (jFld j 9 16 16 * (jFld j 8 0 16 - 24 * jFld j 7 26 1)) 8))
    | 1 => blocks (jFld j 9 16 16) (jFld j 10 0 24) (ceilDiv (jFld j 8 0 16 - 24 * jFld j 7 26 1) 8) ++
        out (outRanges j false (jFld j 11 0 24) (ceilDiv (jFld j 9 0 16) 8) (jFld j 9 16 16) 0)
    | 2 => blocks (jFld j 8 16 8) (jFld j 9 0 24) (3 * (jFld j 7 0 13 + 4)) ++ out (outRanges j (jBit j 7 27) (jFld j 10 0 24)
        (ceilDiv (jFld j 7 0 13) 8) (jFld j 8 16 8)
        (ceilDiv (jFld j 8 16 8 * (jFld j 7 0 13 - 24 * jFld j 7 25 1)) 8))
    | 3 => blocks (jFld j 9 0 9) (jFld j 10 0 24) (polE j) ++
        out (outRanges j false (jFld j 11 0 24) (ceilDiv (jFld j 8 0 10) 8) (jFld j 9 0 9) 0)
    | 4 => match jFld j 7 0 3 with
      | 4 => soft
      | 1 => blocks (jFld j 8 16 16) (jFld j 15 0 24) (ceilDiv (jFld j 10 0 18) 8) ++ out [(jOut j, ceilDiv (rateG j) 8)]
      | 3 => blocks (jFld j 8 16 16) (jFld j 15 0 24) (ceilDiv (jFld j 10 0 18) 8) ++ out [(jOut j, ceilDiv (rateG j) 8)]
      | _ => blocks 1 0 (rateG j) ++ (if jBit j 7 3 then soft else []) ++
          out (outRanges j false (jFld j 15 0 24) (jFld j 10 0 18) (jFld j 8 16 16) 0)
    | 5 => (List.range (jFld j 8 0 16)).map (fun y => (ki, fftIn j y)) ++ out (fftRanges j)
    | 6 => (List.range (jFld j 8 0 16)).flatMap (fun p => [(ki, matIn j p), (ki, matIn2 j p)]) ++
        out ((List.range (jFld j 8 0 16)).map (matOutAt j))
    | _ => (List.range (prachAnt j * prachRep j)).map (fun k => (ki, prachPlace j k)))

/-- Engine `e` meets no hindrance on its job's VC, and every unit its job touches is served. -/
abbrev JobServed (s : State) (e : Nat) : Prop :=
  Unhindered s (epEngine e) (jFld (s.eng e).job 0 24 1) ∧
  ∀ r ∈ jobTouches (engineType e) (s.eng e), ∀ a, r.2.1 / 16 * 16 ≤ a → a < r.2.1 + r.2.2 → Served s (epEngine e) r.1 a

/-- The job of engine record `x` has ended with an outcome, and its lock is free (R236, R237, R252). -/
abbrev JobDoneAt (e : Nat) (x : Eng) (t : State) : Prop :=
  ∃ c ≤ 6, t.eng e = { x with phase := .done, code := c, aux := 0, lock := 0 }

/-- Field of a header unit. -/
def headerField (p : Packet) (lo n : Nat) : Nat := bitsOf (headerUnit p).toNat lo n

/-- The code an injection interface refuses an address with (R138), if it does. -/
def refusedWith (x : Except Nat Nat) : Option Nat := match x with | .error c => some c | .ok _ => none

/-- Firmware reads the `len` bytes at `a` as `bs` (R49), in state `u` after. -/
abbrev BufGives (s : State) (a len : Nat) (bs : List Byte) (u : State) : Prop :=
  (s.bufRead a len).1.toOption = some bs ∧ (s.bufRead a len).2 = u

/-- The E_BUFFER detail of a stopped buffer access. -/
def stopDetail : Option BufStop → Nat
  | some (.bad d) => d
  | _ => 0

/-- The signed report on a nonce (R445); the signature's random number is a free value. -/
def reportOf (s : State) (nonce : Nat) : List Nat :=
  s.reportBody nonce ++ Crypto.ecdsaSign (Crypto.sha256 (s.reportBody nonce)) (attestKey s.sec.fwHash)
    ((Config.random 256 s.free).toNat % Crypto.n256)

/-- Slot `k` of core `n` is the next to act, and its word is `w`; `c` is the core. -/
abbrev AtSlot (s : State) (n k : Nat) (c : Core) (w : Nat) : Prop :=
  s.core n = c ∧ c.slot = k + 1 ∧ bundleSlot c.bundle k = w

/-- Keys of the registers of lanes that take a new rate, of the loops of their quads and of the recovered clocks, which follow. -/
def laneKeys (ls : List Nat) : List Nat := regKey R.TSU_RCLK_CTRL 0 :: regKey R.TSU_RCLK_CTRL 1 ::
  ls.flatMap (fun l => [regKey R.LANE_RATE l, regKey R.LANE_CTRL l, regKey R.LANE_STATUS l, regKey R.CLK_LOOP_STATUS (quadLoop l)])

/-- Registers with these keys may differ, and the settings of the loops and the gating of a block's clock, and nothing else. -/
def LoopsKeep (s t : State) (ks : List Nat) : Prop := RegsKeep s t ks ∧
  t = { s with regs := t.regs, clk := { s.clk with gated := t.clk.gated, used := t.clk.used, idle := t.clk.idle } }

/-- An engine takes fronthaul frames: enabled, its MAC bound and up in a quad that takes packets, the frame of its transport
(R108). -/
abbrev TakesFronthaul (s : State) (f : Nat) (x : FhFrame) : Prop := s.isSet F.FH_CTRL.EN f = true ∧
  s.fhServed f = true ∧ s.isSet F.MAC_STATUS.LINK (s.fhQuad f) = true ∧ x.roe = s.isSet F.FH_CTRL.TRANSPORT f

/-- A controller may train `w`, a width code, at generation `g` (R117, R119): within PCIE_CFG once the base design has started, with
hardware defaults before that in boot mode 010. -/
abbrev MayTrain (s : State) (c w g : Nat) : Prop := s.clk.engUp = true ∧ 1 ≤ g ∧ s.pcieMayUse c (2 ^ w) = true ∧
  ((s.pcieHardware c = true ∧ w ≤ 4 ∧ g ≤ 5) ∨
    (s.cfg.phase = .started ∧ w ≤ min 4 (s.get F.PCIE_CFG.WIDTH c) ∧ g ≤ min 5 (s.get F.PCIE_CFG.GEN c)))

/-- `s` with results added to those core `n` has in flight: latency `l`, from the slot of that rank (R185, R187). -/
def withFlights (s : State) (n rank l : Nat) (fs : List Flight) : State :=
  let c := s.core n
  let fs := fs.map (fun f => { f with due := c.step + l, issued := c.step, rank := rank })
  s.setCore n { c with flight := c.flight ++ fs }

/-- The result of MAC unit `u` for a complex operation (R182, R184). -/
def macResult (c : Core) (w : Nat) (conj add : Bool) (u : Nat) : Flight :=
  { reg := rAcc (cC w + u)
    val := products (cFmt w) conj (c.reg (cVa w + u)) (c.reg (cVb w + u)) (c.reg (rPred (predOf w)))
    mask := accMask (cFmt w) (c.reg (rPred (predOf w)))
    add := if add then accBits (cFmt w) else 0
    poison := c.poisoned (cVa w + u) || c.poisoned (cVb w + u), due := 0, issued := 0, rank := 0 }

/-- No watchpoint of core `n` is enabled. -/
abbrev Unwatched (s : State) (n : Nat) : Prop :=
  s.isSet F.DBG_WP_CTRL.EN (2 * n) = false ∧ s.isSet F.DBG_WP_CTRL.EN (2 * n + 1) = false

/-- Levels left by a branch: their LA is cleared (R191). -/
def withoutLevels (c : Core) (ls : List Nat) : Core := ls.foldl (fun c l => c.setStat (4 + l) false) c

/-- Memory is in its canonical form, and the register file lists each register at most once, in order: equal contents are
equal data. -/
abbrev Canonical (s : State) : Prop := Memory.wf s.store.bytes = true ∧ s.regs.rises = true

/-- The block runs `k` steps without a stop. -/
def RunsFor : Nat → State → Prop
  | 0, _ => True
  | k + 1, s => ∃ t, step s = .next t ∧ RunsFor k t

end Sys2Proof.Safety
end

