-- ==== Sys2Proof/Certificates/Slice0/Obligations.lean ====
section
/-! DEFINITION. The statements for the provers. -/

open Sys2Proof Sys2Proof.Machine Sys2Proof.Safety

/-- A step with command c at the front of the queue is exec of c with the queue's rest (95_what_each_step_holds.md,
opcode_table.json). What a step does on an empty queue is the model's choice (log 1). -/
def Obligations.StepRunsFrontCommand : Prop :=
  (∀ (c : Instr) (rest : List Instr) (s : State), s.pending = c :: rest → step s = exec c { s with pending := rest }) ∧
  ∀ s : State, s.pending = [] → step s = .next s.idle

/-- Every command in every state leads to a next state (95_what_each_step_holds.md, R11). -/
def Obligations.NoCommandStops : Prop :=
  (∀ (c : Instr) (s : State), Leads c s (fun _ => True)) ∧ ∀ (k : Nat) (s : State), RunsFor k s

/-- At reset every register reads the value its map table gives and every queue and table is empty (R2, R61, R62, R404,
R420). Where the spec gives no reset value the value is the model's (logs 6 to 8). -/
def Obligations.ResetValues : Prop :=
  (∀ r i, State.reset.reg r i = resetOf r i % 2 ^ 32) ∧
  State.reset.reg R.DEV_ID 0 = 0x0EDE9256 ∧ State.reset.reg R.DEV_REV 0 = 0xB0 ∧ State.reset.reg R.GOV_BUDGET 0 = 480 ∧
  (∀ d : Fin 256, State.reset.domState d.val = 2) ∧ (∀ b : Fin 8, State.reset.isSet F.MBX_STATUS.FW_READY b.val = false) ∧
  State.reset.pending = [] ∧ State.reset.net.packets = [] ∧ State.reset.err.log = [] ∧
  (∀ q : Fin 4, (State.reset.dsp q.val).pool = []) ∧ State.reset.now = 0 ∧ State.reset.cfg.phase = .crystal

/-- A register write: size and alignment first, ownership, and each field by its access type (R13, R14, R15, R16, R17,
R35, R61). -/
def Obligations.RegisterWriteRules : Prop :=
  (∀ (acc : Accessor) (core : Fin 256) (size : Nat) (off : BitVec 26) (v : Word) (s : State),
    Awake s acc → size ≠ 4 ∨ off.toNat % 4 ≠ 0 → Leads (.registerWrite acc core size false off v) s (fun t =>
      t = s.regAnswer acc 2 ∧ t.out.regRsp = (accId acc, 2) :: s.out.regRsp)) ∧
  (∀ (acc : Accessor) (core : Fin 256) (posted : Bool) (v : Word) (s : State), s.dark = false → acc = .host0 ∨ acc = .board →
    Leads (.registerWrite acc core 4 posted (BitVec.ofNat 26 R.GOV_BUDGET.off) v) s (fun t =>
      t.reg R.GOV_BUDGET 0 = s.reg R.GOV_BUDGET 0 ∧
      t.reg R.DEV_OWN_VIOL_CNT 0 = min (s.reg R.DEV_OWN_VIOL_CNT 0 + 1) (2 ^ 32 - 1) ∧
      (s.isSet F.DEV_OWN_VIOL.VALID 0 = true → t.reg R.DEV_OWN_VIOL 0 = s.reg R.DEV_OWN_VIOL 0) ∧
      (s.isSet F.DEV_OWN_VIOL.VALID 0 = false → t.get F.DEV_OWN_VIOL.WORD_OFFSET 0 = R.GOV_BUDGET.off / 4 ∧
        t.get F.DEV_OWN_VIOL.ACCESSOR 0 = accId acc ∧ t.isSet F.DEV_OWN_VIOL.VALID 0 = true) ∧
      RegsKeep s t [regKey R.CLK_GATE_WAKES 0, regKey R.DEV_OWN_VIOL_CNT 0, regKey R.DEV_OWN_VIOL 0])) ∧
  (∀ (acc : Accessor) (core : Fin 256) (posted : Bool) (off : BitVec 26) (v : Word) (s : State) (r : RegRow) (e i : Nat),
    regLookup off.toNat = some (r, e) → Plain r → off.toNat % 4 = 0 → off.toNat < 0xF00000 → Reaches s acc →
    Writes s acc core.val r e i →
    Leads (.registerWrite acc core 4 posted off v) s (fun t =>
      t.reg r i = writeFields r ((s.ungate (r.off / 0x100000)).reg r i) (resetOf r i) v.toNat % 2 ^ 32 ∧
      RegsKeep s t [regKey R.CLK_GATE_WAKES 0, regKey r i] ∧ t.store = s.store ∧ t.net = s.net ∧
      t.out.regRsp = if posted then s.out.regRsp else (accId acc, 0) :: s.out.regRsp)) ∧
  (∀ (acc : Accessor) (core : Fin 256) (posted : Bool) (off : BitVec 26) (v : Word) (s : State),
    Awake s acc → off.toNat % 4 = 0 → off.toNat < 0xF00000 → (acc = .debugger → s.debugLevel ≠ 0 ∨
      (0x170000 ≤ off.toNat ∧ off.toNat < 0x180000)) →
    (posted = true → exec (.registerWrite acc core 4 posted off v) s =
      .next (s.regWrite acc core.val { poster := some (accEndpoint acc core.val) } off.toNat v)) ∧
    (posted = false → goWrite acc off.toNat v = false → exec (.registerWrite acc core 4 posted off v) s =
      .next ((s.regWrite acc core.val { answer := some acc } off.toNat v).regAnswer acc 0)) ∧
    (posted = false → goWrite acc off.toNat v = true → exec (.registerWrite acc core 4 posted off v) s =
      .next (s.regWrite acc core.val { answer := some acc } off.toNat v))) ∧
  (∀ (acc : Accessor) (core : Fin 256) (via : WriteVia) (off : Nat) (v : Word) (s : State) (r : RegRow) (e i : Nat),
    regLookup off = some (r, e) → r.off ∉ [R.DEV_OWN_VIOL.off, R.TOD_CTRL.off, R.DBG_WARM_KEY.off] →
    Writes s acc core.val r e i → s.regWrite acc core.val via off v = (s.ungate (r.off / 0x100000)).regAct acc via r i v) ∧
  (∀ (acc : Accessor) (core : Fin 256) (posted : Bool) (v : Word) (s : State), s.dark = false → acc ≠ .tahr → acc ≠ .debugger →
    Leads (.registerWrite acc core 4 posted (BitVec.ofNat 26 R.LANE_SEL.off) v) s (fun t =>
      t.get F.LANE_SEL.LANE (accId acc) = v.toNat % 256 ∧
      RegsKeep s t [regKey R.CLK_GATE_WAKES 0, regKey R.LANE_SEL (accId acc)]))

/-- Clearing the violation record, the doorbell, the response consumer index and the mailbox reset (R41, R46, R60, R61). -/
def Obligations.MailboxRegisters : Prop :=
  (∀ (acc : Accessor) (s : State), Reaches s acc → Leads (.devOwnViolClear acc) s (fun t => t.reg R.DEV_OWN_VIOL 0 = 0 ∧
    OnlyRegs s t [regKey R.DEV_OWN_VIOL 0])) ∧
  ∀ (acc : Accessor) (b : Fin 8) (s : State), Awake s acc → OwnsBox acc b →
    (∀ idx : BitVec 8, (idx.toNat + 256 - s.get F.MBX_REQ_CONS.INDEX b.val) % 256 ≤ 32 →
      Leads (.mbxDoorbell acc b idx) s (fun t => t.get F.MBX_DOORBELL.INDEX b.val = idx.toNat ∧
        HubKeep s t [regKey R.MBX_DOORBELL b.val])) ∧
    (∀ idx : BitVec 8, 32 < (idx.toNat + 256 - s.get F.MBX_REQ_CONS.INDEX b.val) % 256 →
      Leads (.mbxDoorbell acc b idx) s (fun t => t.isSet F.MBX_STATUS.OVERRUN b.val = true ∧
        HubKeep s t [regKey R.MBX_STATUS b.val])) ∧
    (∀ idx : BitVec 8, s.mbx.rspWait = [] → s.isSet F.MBX_CTRL.IRQ_EN b.val = false →
      Leads (.mbxRspConsWrite acc b idx) s (fun t => t.get F.MBX_RSP_CONS.INDEX b.val = idx.toNat ∧
        t.mbx.notified.get false b.val = false ∧
        RegsKeep s t [regKey R.CLK_GATE_WAKES 0, regKey R.MBX_RSP_CONS b.val, regKey R.MBX_STATUS b.val])) ∧
    (∀ idx : BitVec 8, b.val = 1 → s.mbx.rspWait = [] → s.isSet F.MBX_CTRL.IRQ_EN b.val = true →
      s.get F.MBX_RSP_PROD.INDEX b.val ≠ idx.toNat →
      Leads (.mbxRspConsWrite acc b idx) s (fun t => t.get F.MBX_RSP_CONS.INDEX b.val = idx.toNat ∧
        t.out.msix = (0, 1) :: s.out.msix)) ∧
    Leads (.mbxReset acc b) s (fun t => t.get F.MBX_STATUS.SESSION b.val = 0 ∧ t.get F.MBX_STATUS.VERSION b.val = 0 ∧
      t.get F.MBX_STATUS.OVERRUN b.val = 0 ∧ t.get F.MBX_STATUS.RSP_STALL b.val = 0 ∧
      t.reg R.MBX_DOORBELL b.val = 0 ∧ t.reg R.MBX_REQ_CONS b.val = 0 ∧ t.reg R.MBX_RSP_PROD b.val = 0 ∧
      t.reg R.MBX_RSP_CONS b.val = 0 ∧ (∀ k ∈ t.mbx.started, k.box = b → k.discard = true) ∧
      t.mbx.started.length = s.mbx.started.length ∧ (∀ w ∈ t.mbx.rspWait, w.box ≠ b) ∧
      RegsKeep s t [regKey R.CLK_GATE_WAKES 0, regKey R.MBX_STATUS b.val, regKey R.MBX_DOORBELL b.val,
        regKey R.MBX_REQ_CONS b.val, regKey R.MBX_RSP_PROD b.val, regKey R.MBX_RSP_CONS b.val])

/-- Firmware takes a request in ring order and answers a command with one 64-byte response (R42, R43, R44, R47, R50, R51,
R55). -/
def Obligations.RequestsTakenAndAnswered : Prop :=
  (∀ (s : State) (b : Fin 8) (op : Nat) (m : Msg), s.fwServes = true → s.nextBox = some b →
    s.slotRequest b.val (s.get F.MBX_REQ_CONS.INDEX b.val) = (op, m) →
    (s.requestCheck b op m = none → Leads .mailboxTakeRequest s (fun t =>
      t.get F.MBX_REQ_CONS.INDEX b.val = (s.get F.MBX_REQ_CONS.INDEX b.val + 1) % 256 ∧
      t.mbx.started = s.mbx.started ++ [⟨s.mbx.taken, b, op, m, false⟩] ∧
      RegsKeep s t [regKey R.MBX_REQ_CONS b.val, regKey R.MBX_STATUS b.val])) ∧
    (∀ st d, s.requestCheck b op m = some (st, d) → st < 2 ^ 16 → s.mbx.rspWait = [] → s.rspCount b.val < 32 →
      Leads .mailboxTakeRequest s (fun t =>
      t.get F.MBX_REQ_CONS.INDEX b.val = (s.get F.MBX_REQ_CONS.INDEX b.val + 1) % 256 ∧ t.mbx.started = s.mbx.started ∧
      t.get F.MBX_RSP_PROD.INDEX b.val = (s.get F.MBX_RSP_PROD.INDEX b.val + 1) % 256 ∧
      bitsOf (t.reg R.MBX_RSP_RING (slotWord b.val (s.get F.MBX_RSP_PROD.INDEX b.val) 2)) 0 16 = st))) ∧
  (∀ (u : State) (k : Taken) (st d : Nat) (p : Payload), u.mbx.started = [k] → k.discard = false →
    k.op ≠ opHello → k.op < 2 ^ 16 → st < 2 ^ 16 → p.len < 256 → u.rspCount k.box.val < 32 → u.mbx.rspWait = [] →
    let t := u.finish k st d p
    let slot := fun w => t.reg R.MBX_RSP_RING (slotWord k.box.val (u.get F.MBX_RSP_PROD.INDEX k.box.val) w)
    t.mbx.started = [] ∧ t.get F.MBX_STATUS.IN_FLIGHT k.box.val = 0 ∧
    t.get F.MBX_RSP_PROD.INDEX k.box.val = (u.get F.MBX_RSP_PROD.INDEX k.box.val + 1) % 256 ∧
    slot 0 = k.op + k.msg.tag.toNat * 2 ^ 16 ∧ slot 1 = p.len + k.msg.ver.toNat * 2 ^ 8 ∧
    slot 2 = st + (if st = 0 then 0 else d % 2 ^ 16) * 2 ^ 16 ∧ slot 3 = u.now % 2 ^ 32 ∧ slot 4 = p.val % 2 ^ 32 ∧
    t.store = u.store ∧ t.time = u.time ∧ t.net = u.net) ∧
  (∀ (u : State) (k : Taken) (st d : Nat) (p : Payload), u.mbx.started = [k] → k.discard = true →
    (u.finish k st d p).mbx.started = [] ∧
    RegsKeep u (u.finish k st d p) [regKey R.MBX_STATUS k.box.val])

/-- HELLO, BYE, INFO_DEVICE and INFO_SENSORS (R50, R51, R52, R57). -/
def Obligations.InfoCommands : Prop :=
  ∀ (b : Fin 8) (m : Msg) (s : State) (k : Taken),
    (Taking s b opHello m k → k.msg = m → m.ver = 0 → 2 ≤ m.len.toNat → m.len.toNat ≤ 56 → k.box = b → k.discard = false →
      s.isSet F.MBX_STATUS.SESSION b.val = false →
      (commonVersion (fld m 0 8) (fld m 1 8) = 0 → Ends (.hello b m) s k stVersion 0 {} (fun u => u = s)) ∧
      (∀ v, commonVersion (fld m 0 8) (fld m 1 8) = v → v ≠ 0 →
        Ends (.hello b m) s k stOK 0 (pack 8 [(0, 8, v), (1, 8, 32), (4, 32, s.reg R.DEV_FW_VERSION 0)]) (fun u =>
          u.isSet F.MBX_STATUS.SESSION b.val = true ∧ u.get F.MBX_STATUS.VERSION b.val = v ∧
          OnlyRegs s u [regKey R.MBX_STATUS b.val]))) ∧
    (∀ lo hi v, commonVersion lo hi = v → v ≠ 0 → lo ≤ v ∧ v ≤ hi ∧ v ≤ 3 ∧ (v + 1 ≤ hi → v = 3)) ∧
    (Taking s b opBye m k → k.discard = false → Leads (.bye b m) s (fun t =>
      t.get F.MBX_STATUS.SESSION b.val = 0 ∧ t.get F.MBX_STATUS.VERSION b.val = 0 ∧
      t = (s.finish k stOK 0 {}).endSession b.val)) ∧
    (Taking s b opInfoDevice m k → Ends (.infoDevice b m) s k stOK 0 (pack 32 [(0, 32, s.reg R.DEV_ID 0),
      (4, 32, s.reg R.DEV_REV 0), (8, 8, s.sec.life), (10, 16, s.sec.fuses.fw), (12, 16, s.sec.fuses.base),
      (16, 32, s.reg R.DEV_FW_VERSION 0), (20, 32, s.reg R.CFG_BASE_VERSION 0), (24, 64, Config.serial.toNat)])
      (fun u => u = s)) ∧
    (Taking s b opInfoSensors m k →
      if Config.sensorFault s.free = true then Ends (.infoSensors b m) s k stHw 0 {} (fun u => u = s.hwFault)
      else Ends (.infoSensors b m) s k stOK 0 (pack 24
        ((maskBits 4 (fld m 0 8)).flatMap (fun q => [(6 * q, 16, s.hotField (quadSensors q)),
          (6 * q + 2, 16, s.get F.GOV_Q_STATE.POWER q), (6 * q + 4, 16, s.paceMin q)])))
        (fun u => u = { s with free := s.free + 1 }))

/-- POWER_BUDGET_SET, POWER_THERMAL_SET and POWER_READ (R57, R404). -/
def Obligations.PowerSettingsCommands : Prop :=
  ∀ (b : Fin 8) (m : Msg) (s : State) (k : Taken),
    (Taking s b opBudget m k → firstBad (s.fieldChecks opBudget m) = none →
      Ends (.powerBudgetSet b m) s k stOK 0 (pack 2 [(0, 16, fld m 0 16)]) (fun u =>
        u.get F.GOV_BUDGET.W 0 = fld m 0 16 ∧ u.reg R.GOV_SHARE 0 = fld m 2 32 ∧
        OnlyRegs s u [regKey R.GOV_BUDGET 0, regKey R.GOV_SHARE 0])) ∧
    (Taking s b opThermal m k → firstBad (s.fieldChecks opThermal m) = none →
      Ends (.powerThermalSet b m) s k stOK 0 {} (fun u => u.tempSoft = tempField m 0 ∧ u.tempHard = tempField m 2 ∧
        u.get F.GOV_HEAT_SCALE.SCALE 0 = fld m 4 16 ∧ OnlyRegs s u [regKey R.GOV_TEMP_LIMITS 0, regKey R.GOV_HEAT_SCALE 0])) ∧
    (Taking s b opPowerRead m k →
      Ends (.powerRead b m) s k stOK 0 (pack 16 [(0, 32, s.get F.GOV_POWER.MW 0), (4, 16, s.reg R.GOV_BUDGET 0),
        (14, 16, s.hotField (List.range 64)), (6, 16, s.vset 0), (8, 16, s.vset 1), (10, 16, s.vset 2), (12, 16, s.vset 3)])
        (fun u => u.regs = s.regs))

/-- A tick commits staged rates, advances ToD and NS64 and pulses the pins of second boundaries; rate writes, the servo's
owner and the adjustment command (R66, R67, R68, R69, R71, R85, R88, R410). The limits are rounded to the register's
unit by the model (log 30). -/
def Obligations.TimeCounting : Prop :=
  (∀ s : State, s.clk.timeUp = false → exec .timeTick s = .next s) ∧
  (∀ s : State, s.clk.timeUp = true → s.dark = false → s.time.addendStaged = false → s.time.incrStaged = false → s.time.fallbackStaged = false →
    Leads .timeTick s (fun t =>
      let f := s.time.frac + s.time.addend
      let n := s.time.ns + f / 2 ^ 32
      t.time.frac = f % 2 ^ 32 ∧ t.time.ns = (if 10 ^ 9 ≤ n then n - 10 ^ 9 else n) ∧
      t.time.sec = (if 10 ^ 9 ≤ n then (s.time.sec + 1) % 2 ^ 48 else s.time.sec) ∧
      t.time.nsFrac = (s.time.nsFrac + s.time.incr) % 2 ^ 24 ∧
      t.time.ns64 = (s.time.ns64 + (s.time.nsFrac + s.time.incr) / 2 ^ 24) % 2 ^ 64 ∧
      (∀ p : Fin 4, s.isSet F.TOD_STATUS.VALID 0 = true → 10 ^ 9 ≤ n → s.isSet F.TOD_PPS_OUT_CTRL.EN p.val = true →
        s.isSet F.TOD_PPS_OUT_CTRL.SRC p.val = false → s.time.ppsEarly.get false p.val = false → 0 ≤ s.ppsPhase p.val →
        t.time.ppsPulses.get [] p.val = (t.now, s.ppsPhase p.val) :: s.time.ppsPulses.get [] p.val) ∧
      t = { s with time := t.time })) ∧
  (∀ s : State, s.clk.timeUp = true → s.dark = false → s.time.addendStaged = true → s.time.incrStaged = false → s.time.fallbackStaged = false →
    Leads .timeTick s (fun t => t.time.addend = clampTo addendLo addendHi s.stagedAddend ∧ t.time.addendStaged = false ∧
      t.isSet F.TOD_STATUS.RATE_CLAMP 0 = (decide (t.time.addend ≠ s.stagedAddend) || s.isSet F.TOD_STATUS.RATE_CLAMP 0) ∧
      RegsKeep s t [regKey R.TOD_ADDEND_HI 0, regKey R.TOD_ADDEND_LO 0, regKey R.TOD_STATUS 0])) ∧
  (∀ s : State, s.clk.timeUp = true → s.dark = false → s.time.addendStaged = false → s.time.incrStaged = true → s.time.fallbackStaged = false →
    Leads .timeTick s (fun t => t.time.incr = clampTo incrLo incrHi s.stagedIncr ∧ t.time.incrStaged = false ∧
      t.isSet F.TOD_STATUS.INCR_CLAMP 0 = (decide (t.time.incr ≠ s.stagedIncr) || s.isSet F.TOD_STATUS.INCR_CLAMP 0) ∧
      RegsKeep s t [regKey R.NS_INCR 0, regKey R.TOD_STATUS 0])) ∧
  (∀ (acc : Accessor) (v : Word) (s : State), Writes s acc 0 R.TOD_ADDEND_LO 0 0 →
    Leads (.todAddendLoWrite acc v) s (fun t => t.reg R.TOD_ADDEND_LO 0 = v.toNat ∧ t.time = { s.time with addendStaged := true } ∧
      t.store = s.store ∧ RegsKeep s t [regKey R.CLK_GATE_WAKES 0, regKey R.TOD_ADDEND_LO 0])) ∧
  (∀ (acc : Accessor) (v : Word) (s : State), Writes s acc 0 R.NS_INCR 0 0 →
    Leads (.nsIncrWrite acc v) s (fun t => t.reg R.NS_INCR 0 % 2 ^ 28 = v.toNat % 2 ^ 28 ∧ t.time = { s.time with incrStaged := true } ∧
      t.store = s.store ∧ RegsKeep s t [regKey R.CLK_GATE_WAKES 0, regKey R.NS_INCR 0])) ∧
  (∀ (b : Fin 8) (m : Msg) (s : State) (k : Taken), Taking s b opAdjRate m k →
    (s.time.hostServo = false → Ends (.timeAdjRate b m) s k stOwner 0 {} (fun u => u = s)) ∧
    (s.time.hostServo = true → Ends (.timeAdjRate b m) s k stOK 0 {} (fun u =>
      u.time = { s.time with addendStaged := true } ∧
      u.get F.TOD_ADDEND_HI.INT 0 = rateAddend (toSigned 32 (fld m 0 32)) / 2 ^ 32 % 2 ^ 4 ∧
      u.reg R.TOD_ADDEND_LO 0 = rateAddend (toSigned 32 (fld m 0 32)) % 2 ^ 32 ∧
      RegsKeep s u [regKey R.TOD_ADDEND_HI 0, regKey R.TOD_ADDEND_LO 0]))) ∧
  rateAddend 819200 = 2 * 2 ^ 32 + 0x1A36E ∧ rateAddend (-819200) = 2 ^ 32 + 0xFFFE5C92 ∧
  (∀ (b : Fin 8) (m : Msg) (s : State) (k : Taken), Taking s b opTimeOwner m k → b.val ≤ 3 →
    Ends (.timeOwner b m) s k stOK 0 (pack 1 [(0, 8, bit s.time.hostServo)]) (fun u =>
      u = { s with time := { s.time with hostServo := fld m 0 8 == 1 } }))

/-- Invalidating ToD latches the fallback offset; a staged offset; snapshots (R70, R71, R72, R88, R94). That every
accessor may take a snapshot is the model's reading (log 31). -/
def Obligations.TimeInUse : Prop :=
  (∀ (acc : Accessor) (s : State), Writes s acc 0 R.TOD_CTRL 0 0 → s.now < 2 ^ 64 → s.time.sec * 10 ^ 9 + s.time.ns < 2 ^ 64 →
    Leads (.todInvalidate acc) s (fun t => t.isSet F.TOD_STATUS.VALID 0 = false ∧
      t.timeInUse = s.time.sec * 10 ^ 9 + s.time.ns ∧
      t.pair R.NS_FALLBACK_OFF_LO R.NS_FALLBACK_OFF_HI 0 = t.time.fallback ∧ t.time.sec = s.time.sec ∧ t.now = s.now ∧
      RegsKeep s t [regKey R.CLK_GATE_WAKES 0, regKey R.TOD_STATUS 0, regKey R.NS_FALLBACK_OFF_LO 0, regKey R.NS_FALLBACK_OFF_HI 0])) ∧
  (∀ (acc : Accessor) (v : Word) (s : State), Writes s acc 0 R.NS_FALLBACK_OFF_LO 0 0 →
    ((s.isSet F.TOD_STATUS.VALID 0 = true ∨ s.servoOwner acc = false) →
      Leads (.nsFallbackOffLoWrite acc v) s (fun t => t.time = s.time ∧ HubKeep s t [])) ∧
    (s.isSet F.TOD_STATUS.VALID 0 = false → s.servoOwner acc = true →
      Leads (.nsFallbackOffLoWrite acc v) s (fun t => t.reg R.NS_FALLBACK_OFF_LO 0 = v.toNat ∧
        t.time = { s.time with fallbackStaged := true } ∧
        RegsKeep s t [regKey R.CLK_GATE_WAKES 0, regKey R.NS_FALLBACK_OFF_LO 0]))) ∧
  (∀ s : State, s.clk.timeUp = true → s.dark = false → s.time.addendStaged = false → s.time.incrStaged = false → s.time.fallbackStaged = true →
    s.isSet F.TOD_STATUS.VALID 0 = false →
    Leads .timeTick s (fun t => t.time.fallback = s.pair R.NS_FALLBACK_OFF_LO R.NS_FALLBACK_OFF_HI 0 ∧ t.regs = s.regs ∧
      t.timeInUse = (t.now + t.time.fallback) % 2 ^ 64)) ∧
  (∀ (acc : Accessor) (core : Fin 256) (s : State) (i : Nat), s.selIndex acc core.val .snap = some i →
    s.time.sec < 2 ^ 48 → s.time.ns < 2 ^ 32 → s.time.frac < 2 ^ 32 → s.now < 2 ^ 64 →
    Leads (.todSnap acc core) s (fun t =>
      t.pair R.TOD_SNAP_SEC_LO R.TOD_SNAP_SEC_HI i = s.time.sec ∧ t.reg R.TOD_SNAP_NS i = s.time.ns ∧
      t.reg R.TOD_SNAP_FRAC i = s.time.frac ∧ t.pair R.NS_SNAP_LO R.NS_SNAP_HI i = s.now ∧
      OnlyRegs s t [regKey R.TOD_SNAP_SEC_HI i, regKey R.TOD_SNAP_SEC_LO i, regKey R.TOD_SNAP_NS i, regKey R.TOD_SNAP_FRAC i,
        regKey R.NS_SNAP_LO i, regKey R.NS_SNAP_HI i]))

/-- A step is armed, refused under STEP_LOCK, applied at a second boundary and re-armed only after lost time (R70, R75,
R76, R77, R79). -/
def Obligations.StepOfToD : Prop :=
  (∀ (acc : Accessor) (s : State), Writes s acc 0 R.TOD_CTRL 0 0 →
    (s.isSet F.TOD_STATUS.STEP_LOCK 0 = true → Leads (.todStepArm acc) s (fun t =>
      t.isSet F.TOD_STATUS.STEP_REFUSED 0 = true ∧ t.time = s.time ∧ HubKeep s t [regKey R.TOD_STATUS 0] ∧
      t.isSet F.TOD_STATUS.STEP_PENDING 0 = s.isSet F.TOD_STATUS.STEP_PENDING 0)) ∧
    (s.isSet F.TOD_STATUS.STEP_LOCK 0 = false → Leads (.todStepArm acc) s (fun t =>
      t.isSet F.TOD_STATUS.STEP_PENDING 0 = true ∧ t.reg R.TOD_STEP_AT 0 = s.time.stepAt % 2 ^ 32 ∧
      t.time = { s.time with
        stepSec := s.reg R.TOD_STEP_SEC_LO 0 + s.get F.TOD_STEP_SEC_HI.SEC 0 * 2 ^ 32
        stepNs := s.reg R.TOD_STEP_NS 0
        stepArmed := s.now
        stepBoundary := s.time.stepAt
        ppsStepEarly := [] } ∧
      RegsKeep s t [regKey R.CLK_GATE_WAKES 0, regKey R.TOD_STATUS 0, regKey R.TOD_STEP_AT 0]))) ∧
  (∀ s : State, (s.isSet F.TOD_STATUS.STEP_PENDING 0 = false ∨ s.time.carried = false ∨ s.now < s.time.stepArmed + 2000) →
    exec .todStepApply s = .next s) ∧
  (∀ (s : State) (d sec : Int), s.isSet F.TOD_STATUS.STEP_PENDING 0 = true → s.time.carried = true →
    s.time.stepArmed + 2000 ≤ s.now → 0 < s.time.sec → d = (s.time.ns : Int) + toSigned 32 s.time.stepNs →
    sec = (s.time.sec : Int) + toSigned 48 s.time.stepSec + d / 10 ^ 9 →
    ((sec < 0 ∨ 2 ^ 48 ≤ sec) → Leads .todStepApply s (fun t => t.isSet F.TOD_STATUS.STEP_PENDING 0 = false ∧
      t.isSet F.TOD_STATUS.STEP_RANGE 0 = true ∧
      t.isSet F.TOD_STATUS.STEP_LOCK 0 = s.isSet F.TOD_STATUS.STEP_LOCK 0 ∧ OnlyRegs s t [regKey R.TOD_STATUS 0])) ∧
    (0 ≤ sec → sec < 2 ^ 48 → Leads .todStepApply s (fun t => (t.time.sec : Int) = sec ∧ (t.time.ns : Int) = d % 10 ^ 9 ∧
      t.time.frac = s.time.frac ∧ t.now = s.now ∧ t.isSet F.TOD_STATUS.STEP_PENDING 0 = false ∧
      t.isSet F.TOD_STATUS.VALID 0 = true ∧ t.isSet F.TOD_STATUS.STEP_LOCK 0 = true ∧
      t.isSet F.TOD_SERVO.LOSS_SEEN 0 = false ∧ t.isSet F.TOD_SERVO.HOLD_EXIT 0 = false ∧
      RegsKeep s t [regKey R.TOD_STATUS 0, regKey R.TOD_SERVO 0] ∧ t = { s with regs := t.regs, time := t.time }))) ∧
  (∀ (acc : Accessor) (s : State), Writes s acc 0 R.TOD_REARM 0 0 → Leads (.todRearm acc) s (fun t =>
    t.isSet F.TOD_STATUS.STEP_LOCK 0 = false ∧ HubKeep s t [regKey R.TOD_STATUS 0])) ∧
  ∀ (b : Fin 8) (m : Msg) (s : State) (k : Taken),
    (Taking s b opTimeStep m k → s.time.hostServo = false → Ends (.timeStep b m) s k stOwner 0 {} (fun u => u = s)) ∧
    (Taking s b opTimeStep m k → s.time.hostServo = true → s.isSet F.TOD_STATUS.STEP_LOCK 0 = true →
      Ends (.timeStep b m) s k stStepRefused 0 {} (fun u => u.isSet F.TOD_STATUS.STEP_REFUSED 0 = true ∧
        OnlyRegs s u [regKey R.TOD_STATUS 0])) ∧
    (Taking s b opTimeStep m k → s.time.hostServo = true → s.isSet F.TOD_STATUS.STEP_LOCK 0 = false →
      Ends (.timeStep b m) s k stOK 0 (pack 8 [(0, 64, s.time.stepAt % 2 ^ 32)]) (fun u =>
        u.time = { s.time with
          stepSec := fld m 0 32 + fld m 4 16 * 2 ^ 32
          stepNs := fld m 8 32
          stepArmed := s.now
          stepBoundary := s.time.stepAt
          ppsStepEarly := [] } ∧
        u.isSet F.TOD_STATUS.STEP_PENDING 0 = true ∧ u.reg R.TOD_STEP_AT 0 = s.time.stepAt % 2 ^ 32)) ∧
    (Taking s b opRearmStep m k → s.isSet F.TOD_SERVO.LOSS_SEEN 0 = false → s.isSet F.TOD_SERVO.HOLD_EXIT 0 = false →
      Ends (.timeRearmStep b m) s k stState 0 {} (fun u => u = s)) ∧
    (Taking s b opRearmStep m k → (s.isSet F.TOD_SERVO.LOSS_SEEN 0 = true ∨ s.isSet F.TOD_SERVO.HOLD_EXIT 0 = true) →
      Ends (.timeRearmStep b m) s k stOK 0 {} (fun u => u.isSet F.TOD_STATUS.STEP_LOCK 0 = false ∧
        OnlyRegs s u [regKey R.TOD_STATUS 0]))

/-- The servo's reported state, LOSS_SEEN, HOLD_EXIT and TIME_GET (R78). -/
def Obligations.ServoState : Prop :=
  (∀ (acc : Accessor) (v : Word) (s : State), Writes s acc 0 R.TOD_SERVO 0 0 → v.toNat % 8 ≤ 3 →
    Leads (.todServoWrite acc v) s (fun t => t.get F.TOD_SERVO.STATE 0 = v.toNat % 8 ∧
      t.isSet F.TOD_SERVO.LOSS_SEEN 0 =
        (decide (s.get F.TOD_SERVO.STATE 0 = 2 ∧ v.toNat % 8 ≤ 1) || s.isSet F.TOD_SERVO.LOSS_SEEN 0) ∧
      t.isSet F.TOD_SERVO.HOLD_EXIT 0 =
        (decide (s.get F.TOD_SERVO.STATE 0 = 3 ∧ v.toNat % 8 ≠ 3) || s.isSet F.TOD_SERVO.HOLD_EXIT 0) ∧
      HubKeep s t [regKey R.TOD_SERVO 0])) ∧
  (∀ (b : Fin 8) (m : Msg) (s : State) (k : Taken), Taking s b opTimeGet m k →
    Ends (.timeGet b m) s k stOK 0 (pack 26 [(0, 64, s.time.sec), (8, 32, s.time.ns), (12, 32, s.time.frac),
      (16, 64, s.now), (24, 8, s.get F.TOD_STATUS.VALID 0), (25, 8, s.get F.TOD_SERVO.STATE 0)]) (fun u => u = s))

/-- Comparators fire once per target and catch up; PPS edges are stamped; pulses end; transmit stamps leave in order (R73,
R74, R82, R84, R85). -/
def Obligations.ComparatorsAndPulses : Prop :=
  (∀ (acc : Accessor) (n : Fin 32) (v : Word) (s : State), Writes s acc 0 R.TIME_CMP_TGT_LO n.val n.val →
    Leads (.timeCmpTgtLoWrite acc n v) s (fun t => t.reg R.TIME_CMP_TGT_LO n.val = v.toNat ∧
      t.time.cmpTgt.get 0 n.val = v.toNat + s.reg R.TIME_CMP_TGT_HI n.val * 2 ^ 32 ∧ t.time.cmpArmed.get false n.val = true ∧
      (∀ k, k ≠ n.val → t.time.cmpTgt.get 0 k = s.time.cmpTgt.get 0 k) ∧
      RegsKeep s t [regKey R.CLK_GATE_WAKES 0, regKey R.TIME_CMP_TGT_LO n.val])) ∧
  (∀ (n : Fin 32) (s : State), (s.isSet F.TIME_CMP_CTRL.EN n.val = false ∨ s.time.cmpArmed.get false n.val = false ∨
      s.cmpDiff n.val < 0) → exec (.comparatorFire n) s = .next s) ∧
  (∀ (n : Fin 32) (s : State) (d : Nat), s.isSet F.TIME_CMP_CTRL.EN n.val = true → s.time.cmpArmed.get false n.val = true →
    s.cmpDiff n.val = (d : Int) → (s.isSet F.TIME_CMP_CTRL.BASE n.val = false ∨ s.time.jumpAt ≤ s.now) →
    Leads (.comparatorFire n) s (fun t => t.isSet F.TIME_CMP_CTRL.FIRED n.val = true ∧
      t.out.msix = (if s.isSet F.TIME_CMP_CTRL.IRQ_EN n.val then (0, 5) :: s.out.msix else s.out.msix) ∧
      (s.reg R.TIME_CMP_PERIOD n.val = 0 → t.time.cmpArmed.get false n.val = false) ∧
      (0 < s.reg R.TIME_CMP_PERIOD n.val → t.time.cmpArmed.get false n.val = true ∧
        t.time.cmpTgt.get 0 n.val =
          (s.time.cmpTgt.get 0 n.val + (d / s.reg R.TIME_CMP_PERIOD n.val + 1) * s.reg R.TIME_CMP_PERIOD n.val) % 2 ^ 64 ∧
        t.get F.TIME_CMP_CTRL.MISSED n.val =
          min 255 (s.get F.TIME_CMP_CTRL.MISSED n.val + d / s.reg R.TIME_CMP_PERIOD n.val)) ∧
      RegsKeep s t [regKey R.TIME_CMP_CTRL n.val] ∧ t.now = s.now)) ∧
  (∀ (n : Fin 2) (sub : BitVec 6) (s : State) (e : Nat), s.time.ppsInLast.get 0 n.val = e + 1 →
    (s.now * 32 + s.time.nsFrac / 2 ^ 19 + sub.toNat < e + 32000 → exec (.ppsInEdge n sub) s = .next s) ∧
    (e + 32000 ≤ s.now * 32 + s.time.nsFrac / 2 ^ 19 + sub.toNat → Leads (.ppsInEdge n sub) s (fun t =>
      t.get F.TOD_PPS_IN_STAT.SEQ n.val = (s.get F.TOD_PPS_IN_STAT.SEQ n.val + 1) % 256 ∧
      t.reg R.TOD_PPS_IN_SEC_LO n.val = (s.use32 + sub.toNat) / 32 / 10 ^ 9 % 2 ^ 32 ∧
      t.reg R.TOD_PPS_IN_NS n.val = (s.use32 + sub.toNat) / 32 % 10 ^ 9 ∧
      t.get F.TOD_PPS_IN_STAT.SUB n.val = (s.use32 + sub.toNat) % 32 ∧
      t.isSet F.TOD_PPS_IN_STAT.VALID n.val = s.isSet F.TOD_STATUS.VALID 0 ∧ t.time.ppsInLast.get 0 n.val = s.now * 32 + s.time.nsFrac / 2 ^ 19 + sub.toNat + 1 ∧
      RegsKeep s t [regKey R.TOD_PPS_IN_SEC_LO n.val, regKey R.TOD_PPS_IN_NS n.val, regKey R.TOD_PPS_IN_STAT n.val]))) ∧
  (∀ (n : Fin 4) (s : State), Leads (.ppsOutPulseEnd n) s (fun t =>
    t.time.ppsRun.get [] n.val = (s.time.ppsRun.get [] n.val).filter (fun r => decide (s.now < r.2)) ∧
    (∀ k, k ≠ n.val → t.time.ppsRun.get [] k = s.time.ppsRun.get [] k) ∧
    t = { s with time := { s.time with ppsRun := t.time.ppsRun } })) ∧
  (∀ (acc : Accessor) (s : State) (m : Nat), Writes s acc 0 R.TSU_TX_POP 0 m → Leads (.tsuTxPop acc) s (fun t =>
    t.time.txFifo.get [] m = (s.time.txFifo.get [] m).tail ∧
    (∀ k, k ≠ m → t.time.txFifo.get [] k = s.time.txFifo.get [] k) ∧ RegsKeep s t [regKey R.CLK_GATE_WAKES 0]))

/-- Enabling a slot timer, its slot starts and their events to the dispatchers, and TIME_SLOT_CFG and TIME_PROFILE (R87,
R90, R91, R92, R93, R94, R156). -/
def Obligations.SlotTimers : Prop :=
  (∀ (acc : Accessor) (n : Fin 8) (v : Word) (s : State), Writes s acc 0 R.SLOT_TMR_CTRL n.val n.val →
    (s.isSet F.SLOT_TMR_CTRL.EN n.val = false → v.toNat % 2 = 1 →
      slotValid (s.reg R.SLOT_TMR_PERIOD n.val) (s.reg R.SLOT_TMR_OFFSET n.val) = true → s.reg R.SLOT_TMR_PERIOD n.val < 2 ^ 24 →
      Leads (.slotTmrCtrlWrite acc n v) s (fun t =>
        let x := t.time.slotNext.get 0 n.val - 1
        t.isSet F.SLOT_TMR_CTRL.EN n.val = true ∧ t.get F.SLOT_TMR_CTRL.EPOCH n.val = v.toNat / 2 % 2 ∧
        s.timeInUse < x ∧ x ≤ s.timeInUse + s.reg R.SLOT_TMR_PERIOD n.val ∧
        ((x : Int) - (t.slotBase n.val : Int)) % (s.reg R.SLOT_TMR_PERIOD n.val : Int) = 0 ∧ t.slotDue n.val = false ∧
        RegsKeep s t [regKey R.CLK_GATE_WAKES 0, regKey R.SLOT_TMR_CTRL n.val])) ∧
    (s.isSet F.SLOT_TMR_CTRL.EN n.val = false → v.toNat % 2 = 1 →
      slotValid (s.reg R.SLOT_TMR_PERIOD n.val) (s.reg R.SLOT_TMR_OFFSET n.val) = false →
      Leads (.slotTmrCtrlWrite acc n v) s (fun t => t.isSet F.SLOT_TMR_CTRL.EN n.val = false ∧
        t.isSet F.SLOT_TMR_CTRL.CFG_REJ n.val = true ∧ t.time = s.time)) ∧
    (s.isSet F.SLOT_TMR_CTRL.EN n.val = true → Leads (.slotTmrCtrlWrite acc n v) s (fun t =>
      t.get F.SLOT_TMR_CTRL.EPOCH n.val = s.get F.SLOT_TMR_CTRL.EPOCH n.val ∧
      t.get F.SLOT_TMR_CTRL.EN n.val = v.toNat % 2 ∧ t.get F.SLOT_TMR_CTRL.IRQ_EN n.val = v.toNat / 4 % 2 ∧
      (s.get F.SLOT_TMR_CTRL.EPOCH n.val ≠ v.toNat / 2 % 2 → t.isSet F.SLOT_TMR_CTRL.CFG_REJ n.val = true) ∧
      (v.toNat % 2 = 0 → t.slotDue n.val = false) ∧ (v.toNat % 2 = 1 → t.time = s.time)))) ∧
  (∀ (n : Fin 8) (s : State), s.slotDue n.val = false → exec (.slotStart n) s = .next s) ∧
  (∀ (n : Fin 8) (s : State) (x : Nat), s.slotDue n.val = true → s.time.slotNext.get 0 n.val = x + 1 → s.now < 2 ^ 64 →
    Leads (.slotStart n) s (fun t => t.reg R.SLOT_TMR_COUNT n.val = s.slotNumber n.val x ∧
      t.pair R.SLOT_TMR_LAST_LO R.SLOT_TMR_LAST_HI n.val = s.now ∧
      t.isSet F.SLOT_TMR_CTRL.RESYNC n.val =
        (s.time.slotResync.get false n.val || s.isSet F.SLOT_TMR_CTRL.RESYNC n.val) ∧
      t.time.slotNext.get 0 n.val = x + s.reg R.SLOT_TMR_PERIOD n.val + 1 ∧
      (∀ q : Fin 4, (t.dsp q.val).slots.get none n.val = some (s.slotNumber n.val x, s.now, s.time.slotResync.get false n.val)) ∧
      (s.isSet F.SLOT_TMR_CTRL.IRQ_EN n.val = true → (0, 5) ∈ t.out.msix))) ∧
  ∀ (b : Fin 8) (m : Msg) (s : State) (k : Taken),
    (Taking s b opSlotCfg m k → s.time.hostServo = false → Ends (.timeSlotCfg b m) s k stOwner 0 {} (fun u => u = s)) ∧
    (Taking s b opSlotCfg m k → s.time.hostServo = true → firstBad (s.fieldChecks opSlotCfg m) = none →
      Ends (.timeSlotCfg b m) s k stOK 0 {} (fun u => u.reg R.SLOT_TMR_PERIOD (fld m 0 8) = fld m 4 32 ∧
        u.reg R.SLOT_TMR_OFFSET (fld m 0 8) = fld m 8 32 ∧ u.get F.SLOT_TMR_CTRL.EPOCH (fld m 0 8) = fld m 12 8 ∧
        u.get F.SLOT_TMR_CTRL.EN (fld m 0 8) = fld m 1 8 ∧ u.slotDue (fld m 0 8) = false ∧
        RegsKeep s u [regKey R.SLOT_TMR_CTRL (fld m 0 8), regKey R.SLOT_TMR_PERIOD (fld m 0 8),
          regKey R.SLOT_TMR_OFFSET (fld m 0 8)])) ∧
    (Taking s b opProfile m k →
      if Config.profileBarred s.free = true
      then Ends (.timeProfile b m) s k stState 0 {} (fun u => u = { s with free := s.free + 1 })
      else Ends (.timeProfile b m) s k stOK 0 {} (fun u =>
        (∀ j : Fin 64, u.time.profile.get 0 j.val =
          (if bitAt (fld m 8 64) j.val then fld m 0 8 else s.time.profile.get 0 j.val)) ∧
        u = { s with free := s.free + 1, time := { s.time with profile := u.time.profile } }))

/-- Lanes lock, lose signal and report their eye; recovered clocks divide; rings take producers and complete descriptors
(R86, R97, R98, R99, R101, R102, R116). The eye figures of a MAC's lane also count its FEC symbols. -/
def Obligations.LanesAndRings : Prop :=
  (∀ (l : Fin 256) (s : State), s.isSet F.LANE_CTRL.EN l.val = true → s.domState (domLaneQuad (l.val / 4)) ≠ 0 →
    Leads (.laneLocked l) s (fun t => t.laneState l.val = 3 ∧
      (∀ n : Fin 2, s.get F.TSU_RCLK_CTRL.LANE n.val = l.val → t.isSet F.TSU_RCLK_CTRL.SQUELCH n.val = false) ∧
      RegsKeep s t [regKey R.LANE_STATUS l.val, regKey R.TSU_RCLK_CTRL 0, regKey R.TSU_RCLK_CTRL 1,
        regKey R.CLK_LOOP_STATUS (21 + l.val / 4)] ∧
      ((s.clk.used.get none (21 + l.val / 4)).isSome = true → t.isSet F.CLK_LOOP_STATUS.LOCK (21 + l.val / 4) = true) ∧
      (s.isSet F.LANE_EQ_CTRL.FREEZE l.val = true → t.links = s.links) ∧ t.store = s.store ∧ t.net = s.net)) ∧
  (∀ (l : Fin 256) (k : Fin 65536) (s : State), 2 ≤ s.laneState l.val → 16 ≤ l.val →
    (s.get F.LANE_CTRL.BIND l.val = 0 → Leads (.laneLossOfSignal l k) s (fun t => t.laneState l.val = 1 ∧
      OnlyRegs s t [regKey R.LANE_STATUS l.val, regKey R.TSU_RCLK_CTRL 0, regKey R.TSU_RCLK_CTRL 1])) ∧
    (∀ f : Nat, s.get F.LANE_CTRL.BIND l.val = 3 → s.get F.LANE_CTRL.ENGINE l.val = f → s.isSet F.CPRI_CFG.EN f = true →
      s.cpriLane f = l.val → s.get F.CPRI_STATUS.STATE f ≠ 0 →
      Leads (.laneLossOfSignal l k) s (fun t => t.laneState l.val = 1 ∧ t.get F.CPRI_STATUS.STATE f = 0 ∧
        t.get F.CPRI_STATUS.LOSSES f = min 255 (s.get F.CPRI_STATUS.LOSSES f + 1) ∧
        OnlyRegs s t [regKey R.LANE_STATUS l.val, regKey R.TSU_RCLK_CTRL 0, regKey R.TSU_RCLK_CTRL 1,
          regKey R.CPRI_STATUS f]))) ∧
  (∀ (l : Fin 256) (k : Fin 65536) (s : State), s.laneState l.val < 2 → exec (.laneLossOfSignal l k) s = .next s) ∧
  (∀ (l : Fin 256) (a b c : BitVec 16) (w : BitVec 8) (e u : BitVec 16) (s : State), s.laneState l.val = 3 →
    Leads (.eyeMonitorUpdate l (a, b, c) w e u) s (fun t =>
      t.get F.LANE_EYE.HEIGHT l.val =
        (if s.isSet F.LANE_CTRL.PAM4 l.val then min a.toNat (min b.toNat c.toNat) else a.toNat) ∧
      t.get F.LANE_EYE.WIDTH l.val = w.toNat ∧
      t.pair R.LANE_ERR_LO R.LANE_ERR_HI l.val = (s.pair R.LANE_ERR_LO R.LANE_ERR_HI l.val + e.toNat) % 2 ^ 64 ∧
      ((s.get F.LANE_CTRL.BIND l.val = 1 ∨ s.get F.LANE_CTRL.BIND l.val = 2) →
        t.pair R.MAC_STAT_LO R.MAC_STAT_HI (s.laneMac l.val * 16 + 7) =
          min (s.pair R.MAC_STAT_LO R.MAC_STAT_HI (s.laneMac l.val * 16 + 7) + e.toNat) (2 ^ 64 - 1)) ∧
      RegsKeep s t [regKey R.LANE_EYE l.val, regKey R.LANE_ERR_LO l.val, regKey R.LANE_ERR_HI l.val,
        regKey R.MAC_STAT_LO (s.laneMac l.val * 16 + 7), regKey R.MAC_STAT_HI (s.laneMac l.val * 16 + 7),
        regKey R.MAC_STAT_LO (s.laneMac l.val * 16 + 8), regKey R.MAC_STAT_HI (s.laneMac l.val * 16 + 8)] ∧ t.store = s.store)) ∧
  (∀ (acc : Accessor) (n : Fin 2) (v : Word) (s : State) (l need : Nat), Writes s acc 0 R.TSU_RCLK_CTRL n.val n.val →
    l = v.toNat % 256 → need = s.rclkLeast l →
    Leads (.tsuRclkCtrlWrite acc n v) s (fun t => t.get F.TSU_RCLK_CTRL.LANE n.val = l ∧
      t.get F.TSU_RCLK_CTRL.DIV n.val =
        (if max 1 (v.toNat / 256 % 4096) < need then need % 4096 else v.toNat / 256 % 4096) ∧
      (max 1 (v.toNat / 256 % 4096) < need → t.isSet F.TSU_RCLK_CTRL.DIV_ADJ n.val = true) ∧
      t.isSet F.TSU_RCLK_CTRL.SQUELCH n.val = decide (s.laneState l ≠ 3) ∧ HubKeep s t [regKey R.TSU_RCLK_CTRL n.val])) ∧
  (∀ (acc : Accessor) (k : RingKind) (v : Word) (s : State) (i : Nat), Writes s acc 0 (ringRegs k).idx 0 i →
    Leads (.ringProdWrite acc k v) s (fun t => t.ringCons k i = s.ringCons k i ∧
      t.ringProd k i = (if (v.toNat % 65536 + 65536 - s.ringCons k i) % 65536 ≤ s.ringEntries k i then v.toNat % 65536
        else s.ringProd k i) ∧ HubKeep s t [regKey (ringRegs k).idx i])) ∧
  (∀ (k : RingKind) (i ep size off : Nat) (bs : List Byte) (s u : State) (o : Nat),
    s.writeBytes ⟨ep, 0, 0, false⟩ (s.ringHead k i size + off) bs = (0, o, u) →
    (s.ringComplete k i ep size off bs).ringCons k i = (u.ringCons k i + 1) % 65536 ∧
    (s.ringComplete k i ep size off bs).ringProd k i = u.ringProd k i ∧
    (s.ringComplete k i ep size off bs).store = u.store ∧
    RegsKeep u (s.ringComplete k i ep size off bs) [regKey (ringRegs k).idx i])

/-- A MAC comes up only with a listed speed and locked lanes, sends its descriptors' frames and delivers what it receives
(R103, R104, R105, R106, R107). -/
def Obligations.EthernetMac : Prop :=
  (∀ (m : Fin 64) (p : MacPage) (tr : Bool) (s : State) (sp : Nat), s.clk.engUp = true → s.macSpeedOf m.val = some sp → s.isSet F.MAC_CFG.EN m.val = true →
    (∀ k, k < s.links.macLanes.get 0 m.val → s.laneState (4 * m.val + k) = 3) →
    (s.isSet F.MAC_CFG.AN_EN m.val = false ∨ (s.macShares m.val p = true ∧
      (s.isSet F.MAC_CFG.LT_EN m.val = false ∨ s.isSet F.LANE_CTRL.PAM4 (4 * m.val) = false ∨ tr = true))) →
    Leads (.macLinkUp m p tr) s (fun t => t.isSet F.MAC_STATUS.LINK m.val = true ∧ t.get F.MAC_STATUS.SPEED m.val = sp % 8 ∧
      t.isSet F.MAC_STATUS.CFG_ERR m.val = false ∧ RegsKeep s t [regKey R.MAC_STATUS m.val] ∧
      t.out.msix = (if s.get F.MAC_CFG.VECTOR m.val = 0 then s.out.msix else (0, s.get F.MAC_CFG.VECTOR m.val) :: s.out.msix))) ∧
  (∀ (m : Fin 64) (p : MacPage) (tr : Bool) (s : State), s.macSpeedOf m.val = none → s.links.macLanes.get 0 m.val ≠ 0 →
    Leads (.macLinkUp m p tr) s (fun t => t.isSet F.MAC_STATUS.CFG_ERR m.val = true ∧
      t.isSet F.MAC_STATUS.LINK m.val = s.isSet F.MAC_STATUS.LINK m.val ∧ OnlyRegs s t [regKey R.MAC_STATUS m.val])) ∧
  (∀ (m : Fin 64) (s : State), s.isSet F.MAC_STATUS.LINK m.val = true → Leads (.macLinkDown m 0) s (fun t =>
    t.isSet F.MAC_STATUS.LINK m.val = false ∧
    t.pair R.MAC_STAT_LO R.MAC_STAT_HI (m.val * 16 + 9) =
      min (s.pair R.MAC_STAT_LO R.MAC_STAT_HI (m.val * 16 + 9) + 1) (2 ^ 64 - 1) ∧
    RegsKeep s t [regKey R.MAC_STATUS m.val, regKey R.MAC_STAT_LO (m.val * 16 + 9), regKey R.MAC_STAT_HI (m.val * 16 + 9)])) ∧
  (∀ (mac : Fin 72) (sub : BitVec 6) (ca : Fin 8) (ing : Nat) (s u w : State) (d bs : List Byte) (c o : Nat) (poison : Bool), mac.val < 64 →
    s.isSet F.MAC_CFG.EN mac.val = true → s.isSet F.MAC_STATUS.LINK mac.val = true → s.quadTakes mac.val = true →
    s.ringReady .macTx mac.val = true →
    s.ringRead .macTx mac.val (epLaneQuad mac.val) 16 = (some d, u) →
    u.readBytes ⟨epLaneQuad mac.val, bitsOf (wordOf d 1) 16 8, 0, false⟩ (wordOf d 0 + wordOf d 1 % 65536 * 2 ^ 32)
      (wordOf d 2 % 2 ^ 14) = (c, poison, o, bs, w) →
    (c = codeWaits → exec (.macTxDescriptor mac ⟨sub, ca⟩ ing) s = .next (s.wakeLike w)) ∧
    (c ≠ codeWaits → (c ≠ 0 ∨ poison = true) → Leads (.macTxDescriptor mac ⟨sub, ca⟩ ing) s (fun t =>
      t = w.macTxDone .macTx mac.val (epLaneQuad mac.val) (wordOf d 2) 1)) ∧
    (c = 0 → poison = false → bitAt (wordOf d 1) 24 = false → bitAt (wordOf d 2) 16 = false →
      ptpAt (bs.map (·.toNat)) = none → Leads (.macTxDescriptor mac ⟨sub, ca⟩ ing) s (fun t =>
      t = (({ w with out := { w.out with frames := (mac.val, bs) :: w.out.frames } }.macCount mac.val 4 1).macCount
        mac.val 5 bs.length).macTxDone .macTx mac.val (epLaneQuad mac.val) (wordOf d 2) 0))) ∧
  (∀ (mac : Fin 72) (fr : List Byte) (ok : Bool) (sub : BitVec 6) (ca : Fin 8) (s : State), mac.val < 64 →
    (s.isSet F.MAC_CFG.EN mac.val = false ∨ s.isSet F.MAC_STATUS.LINK mac.val = false ∨ s.quadTakes mac.val = false) →
    exec (.macRxFrame mac fr ok ⟨sub, ca⟩) s = .next s) ∧
  (∀ (mac : Fin 72) (fr : List Byte) (ok : Bool) (sub : BitVec 6) (ca : Fin 8) (s : State), mac.val < 64 →
    s.isSet F.MAC_CFG.EN mac.val = true → s.isSet F.MAC_STATUS.LINK mac.val = true → s.quadTakes mac.val = true →
    ((ok = false ∨ s.get F.MAC_CFG.MTU mac.val < fr.length + 4) → Leads (.macRxFrame mac fr ok ⟨sub, ca⟩) s (fun t =>
      t.pair R.MAC_STAT_LO R.MAC_STAT_HI (mac.val * 16 + 2) =
        min (s.pair R.MAC_STAT_LO R.MAC_STAT_HI (mac.val * 16 + 2) + 1) (2 ^ 64 - 1) ∧
      OnlyRegs s t [regKey R.MAC_STAT_LO (mac.val * 16 + 2), regKey R.MAC_STAT_HI (mac.val * 16 + 2)])) ∧
    (ok = true → fr.length + 4 ≤ s.get F.MAC_CFG.MTU mac.val → be16 (fr.map (·.toNat)) 12 ≠ 0x88E5 →
      s.isSet F.MAC_SEC_CTRL.REQUIRE mac.val = false → s.macFronthaul mac.val = none →
      (s.rxFree .macRx mac.val = false → Leads (.macRxFrame mac fr ok ⟨sub, ca⟩) s (fun t =>
        t.pair R.MAC_STAT_LO R.MAC_STAT_HI (mac.val * 16) =
          min (s.pair R.MAC_STAT_LO R.MAC_STAT_HI (mac.val * 16) + 1) (2 ^ 64 - 1) ∧
        t.pair R.MAC_STAT_LO R.MAC_STAT_HI (mac.val * 16 + 3) =
          min (s.pair R.MAC_STAT_LO R.MAC_STAT_HI (mac.val * 16 + 3) + 1) (2 ^ 64 - 1) ∧ t.store = s.store)) ∧
      (s.rxFree .macRx mac.val = true → Leads (.macRxFrame mac fr ok ⟨sub, ca⟩) s (fun t =>
        t = ((s.macCount mac.val 0 1).macCount mac.val 1 fr.length).rxDeliver ⟨.macRx, mac.val,
          epLaneQuad mac.val, fr.map (·.toNat), none, 0 + s.get F.TOD_STATUS.VALID 0 * 2 ^ 22,
          s.rxStamp mac.val sub.toNat ca.val⟩))))

/-- Fronthaul frames are found in the discovery table, tested against their window and written; descriptors depart in time
(R108, R109, R110, R111, R112, R113, R114). -/
def Obligations.FronthaulEngine : Prop :=
  (∀ (f : Fin 16) (x : FhFrame) (sub : BitVec 6) (ca : Fin 8) (s : State), s.isSet F.FH_CTRL.EN f.val = false →
    exec (.fhRxFrame f x ⟨sub, ca⟩) s = .next s) ∧
  (∀ (f : Fin 16) (x : FhFrame) (sub : BitVec 6) (ca : Fin 8) (s : State), TakesFronthaul s f.val x → x.roe = false → x.msgType = 5 →
    Leads (.fhRxFrame f x ⟨sub, ca⟩) s (fun t => t = s.fhDelay (s.fhQuad f.val) x sub.toNat ca.val ∧
      (x.action = 0 → t.out.frames = (s.fhQuad f.val, fhEther (s.fhQuad f.val) x.srcMac x.vlan 0xAEFE ++
        delayMessage x.measId 2 (s.rxStamp (s.fhQuad f.val) sub.toNat ca.val)) :: s.out.frames) ∧ t.links = s.links)) ∧
  (∀ (f : Fin 16) (x : FhFrame) (sub : BitVec 6) (ca : Fin 8) (s : State), s.isSet F.FH_CTRL.EN f.val = true → x.msgType ≠ 5 →
    (∀ i, (s.ru i).used = true → ¬((s.ru i).mac = x.srcMac ∧ (s.ru i).vlan = x.vlan)) →
    s.isSet F.FH_CTRL.DISCOVER f.val = false → exec (.fhRxFrame f x ⟨sub, ca⟩) s = .next s) ∧
  (∀ (f : Fin 16) (x : FhFrame) (sub : BitVec 6) (ca : Fin 8) (s : State), TakesFronthaul s f.val x →
    (x.msgType = 0 ∨ x.msgType = 2) → s.links.rus = [] → s.links.flows = [] → s.isSet F.FH_CTRL.DISCOVER f.val = true → Leads (.fhRxFrame f x ⟨sub, ca⟩) s (fun t =>
      t.ru 0 = { used := true, mac := x.srcMac, vlan := x.vlan, owner := f.val, last := s.now } ∧
      t.flow 0 = { used := true, ru := 0, eaxc := x.eaxc, owner := f.val, last := s.now } ∧
      t.isSet F.FH_STATUS.NEW_RU f.val = true ∧ t.isSet F.FH_STATUS.NEW_FLOW f.val = true ∧
      t.reg R.FH_STAT (f.val * 16 + 4) = min (s.reg R.FH_STAT (f.val * 16 + 4) + 1) (2 ^ 32 - 1) ∧
      t.isSet F.FH_FLOW_DEST_HI.BOUND 0 = false ∧
      RegsKeep s t [regKey R.FH_STATUS f.val, regKey R.FH_STAT (f.val * 16 + 4), regKey R.FH_FLOW_DEST_HI 0])) ∧
  (∀ (e w : Nat) (x : FhFrame) (sub ca : Nat) (s : State) (arr st : Int),
    (x.msgType ≠ 0 ∨ compSupported x.method.toNat x.width.toNat = true) →
    arr = (s.rxStamp (s.fhQuad e) sub ca : Int) * 960 →
    st = s.fhSymbol e x.frameId.toNat x.subframeId.toNat x.slotId.toNat x.symbolId.toNat arr →
    (arr < st + s.nsUnits R.FH_RX_WIN_MIN e → s.fhAccept e w x sub ca = s.fhCount e 1) ∧
    (st + s.nsUnits R.FH_RX_WIN_MIN e ≤ arr → st + s.nsUnits R.FH_RX_WIN_MAX e < arr →
      s.fhAccept e w x sub ca = s.fhCount e 2) ∧
    (st + s.nsUnits R.FH_RX_WIN_MIN e ≤ arr → arr ≤ st + s.nsUnits R.FH_RX_WIN_MAX e → x.msgType = 0 →
      s.isSet F.TOD_STATUS.VALID 0 = true → s.fhAccept e w x sub ca = (s.fhCount e 0).postBytes (epLaneQuad (s.fhQuad e))
        (s.get F.FH_FLOW_DEST_HI.KEY w) (s.reg R.FH_FLOW_DEST_LO w / 16 * 16 + s.get F.FH_FLOW_DEST_HI.ADDR w * 2 ^ 32 +
          x.slotId.toNat % (s.get F.FH_FLOW_DEST_HI.NBUF w + 1) * 14 * (s.get F.FH_FLOW_STRIDE.SYM_STRIDE w * 16) +
          x.symbolId.toNat * (s.get F.FH_FLOW_STRIDE.SYM_STRIDE w * 16) + x.startPrb.toNat * 48)
        (expandSection x.method.toNat x.width.toNat x.prbs))) ∧
  (∀ (f : Fin 16) (s u : State) (d : List Byte) (st dep : Int), s.isSet F.FH_CTRL.EN f.val = true → s.fhServed f.val = true →
    s.ringReady .fhTx f.val = true → s.ringRead .fhTx f.val (epLaneQuad (s.fhQuad f.val)) 32 = (some d, u) →
    st = s.fhSymbol f.val (bitsOf (wordOf d 2) 16 8) (bitsOf (wordOf d 2) 24 4) (wordOf d 3 % 64) (bitsOf (wordOf d 3) 8 6)
      ((s.use32 : Int) * 960) →
    dep = st - s.nsUnits (if bitAt (wordOf d 1) 24 then R.FH_TX_ADV_C else R.FH_TX_ADV_U) f.val →
    ((s.use32 : Int) * 960 < dep → exec (.fhTxDeparture f) s = .next s) ∧
    (dep ≤ (s.use32 : Int) * 960 → st ≤ (s.use32 : Int) * 960 →
      exec (.fhTxDeparture f) s = .next ((u.fhCount f.val 10).fhTxDone f.val d 1)) ∧
    (dep ≤ (s.use32 : Int) * 960 → (s.use32 : Int) * 960 < st → s.isSet F.MAC_STATUS.LINK (s.fhQuad f.val) = true →
      exec (.fhTxDeparture f) s = .next (u.fhSend f.val d (decide (dep + 2 * 30720 ≤ (s.use32 : Int) * 960))))) ∧
  (∀ (acc : Accessor) (s : State) (f : Nat), Writes s acc 0 R.FH_CTRL 0 f → Leads (.fhFlush acc) s (fun t =>
    (∀ i, i < 256 → t.ru i = if (s.ru i).used = true ∧ (s.ru i).owner = f then {} else s.ru i) ∧
    (∀ i, i < 4096 → t.flow i = if (s.flow i).used = true ∧ (s.flow i).owner = f then {} else s.flow i) ∧ t.store = s.store)) ∧
  (∀ (i : Fin 4096) (s : State), (s.flow i.val).used = true → s.aged (s.flow i.val).owner (s.flow i.val).last = true →
    Leads (.fhEntryAgeOut false i) s (fun t => (t.flow i.val).used = false ∧ t.isSet F.FH_FLOW_DEST_HI.BOUND i.val = false ∧
      (∀ j, j ≠ i.val → t.flow j = s.flow j) ∧ RegsKeep s t [regKey R.FH_FLOW_DEST_LO i.val, regKey R.FH_FLOW_DEST_HI i.val,
        regKey R.FH_FLOW_STRIDE i.val]))

/-- CPRI start-up, basic frames and loss; PCIe training, inbound requests, DMA descriptors and link loss (R115, R116,
R117, R118, R119). -/
def Obligations.CpriAndPcie : Prop :=
  (∀ (f : Fin 8) (n : BitVec 3) (rtt : Word) (s : State) (o : CpriOption), s.clk.engUp = true → s.isSet F.CPRI_CFG.EN f.val = true →
    cpriOption (s.get F.CPRI_CFG.OPTION f.val) = some o → s.laneState (s.cpriLane f.val) = 3 →
    s.get F.LANE_CTRL.BIND (s.cpriLane f.val) = 3 → s.get F.LANE_CTRL.ENGINE (s.cpriLane f.val) = f.val →
    s.get F.LANE_RATE.KBPS (s.cpriLane f.val) = o.lane → s.isSet F.LANE_CTRL.PAM4 (s.cpriLane f.val) = false → n.toNat ≠ 7 →
    Leads (.cpriStartup f n rtt) s (fun t => t.get F.CPRI_STATUS.STATE f.val = n.toNat ∧
      t.reg R.CPRI_RTT f.val = (if n.toNat = 5 then rtt.toNat else s.reg R.CPRI_RTT f.val) ∧
      RegsKeep s t [regKey R.CPRI_STATUS f.val, regKey R.CPRI_RTT f.val])) ∧
  (∀ (f : Fin 8) (bits : List Byte) (s : State), s.get F.CPRI_STATUS.STATE f.val ≠ 5 →
    exec (.cpriBasicFrame f bits) s = .next s) ∧
  (∀ (f : Fin 8) (bits : List Byte) (s : State), s.get F.CPRI_STATUS.STATE f.val = 5 →
    (∀ k, k < 32 → s.isSet F.CPRI_AXC_CFG.EN (f.val * 32 + k) = false) → Leads (.cpriBasicFrame f bits) s (fun t =>
      t.links.cpriFrame.get 0 f.val = (s.links.cpriFrame.get 0 f.val + 1) % 38400 ∧ t.regs = s.regs ∧ t.store = s.store)) ∧
  (∀ (f k n w st : Nat) (bits : List Byte) (rr : RegReader) (s : State), s.isSet F.CPRI_AXC_CFG.EN (f * 32 + k) = true →
    s.isSet F.CPRI_AXC_CFG.DIR (f * 32 + k) = false → s.get F.CPRI_AXC_CFG.WIDTH (f * 32 + k) = w → 8 ≤ w → w ≤ 16 →
    s.get F.CPRI_AXC_CFG.START (f * 32 + k) = st →
    s.axcFrame rr f k n bits = s.postBytes (s.cpriEp f) (s.get F.CPRI_AXC_CFG.KEY (f * 32 + k))
      ((s.pair R.CPRI_AXC_ADDR_LO R.CPRI_AXC_ADDR_HI (f * 32 + k) + n % 3840 * s.reg R.CPRI_AXC_STRIDE (f * 32 + k)) % 2 ^ 48)
      (leBytes 2 (leftAlign w (frameBits bits st w)) ++ leBytes 2 (leftAlign w (frameBits bits (st + w) w)))) ∧
  (∀ (f : Fin 8) (s : State), s.get F.CPRI_STATUS.STATE f.val ≠ 0 → Leads (.cpriLinkLoss f) s (fun t =>
    t.get F.CPRI_STATUS.STATE f.val = 0 ∧
    t.get F.CPRI_STATUS.LOSSES f.val = min 255 (s.get F.CPRI_STATUS.LOSSES f.val + 1) ∧
    OnlyRegs s t [regKey R.CPRI_STATUS f.val])) ∧
  (∀ (c : Fin 2) (w g : BitVec 3) (s : State), MayTrain s c.val w.toNat g.toNat → s.power.dev = none →
    (∀ k, k < 2 ^ w.toNat → s.laneOn (128 * c.val + k) = true) →
    s.quadFits ((List.range (2 ^ w.toNat)).map (128 * c.val + ·)) (pcieKbps g.toNat) false = true →
    Leads (.pcieLinkUp c w g) s (fun t => t.isSet F.PCIE_STATUS.LINK_UP c.val = true ∧
      t.get F.PCIE_STATUS.WIDTH c.val = w.toNat ∧ t.get F.PCIE_STATUS.GEN c.val = g.toNat ∧
      (∀ k, k < 2 ^ w.toNat → t.laneState (128 * c.val + k) = 3 ∧
        t.get F.LANE_RATE.KBPS (128 * c.val + k) = pcieKbps g.toNat) ∧
      LoopsKeep s t (regKey R.PCIE_STATUS c.val :: laneKeys ((List.range 16).map (128 * c.val + ·))))) ∧
  (∀ (fn : Fin 2) (w g : BitVec 3) (q : PcieReq) (s : State), s.dark = true →
    exec (.pcieLinkUp 1 w g) s = .next s ∧ exec (.pcieInboundRequest 1 fn q) s = .next s) ∧
  (∀ (c fn : Fin 2) (q : PcieReq) (s : State), s.isSet F.PCIE_STATUS.LINK_UP c.val = true → s.power.dev = none →
    s.inboundAddr c.val fn.val q = none → q.write = false → Leads (.pcieInboundRequest c fn q) s (fun t =>
      t = { (if c = 0 then s.pcieWaits false else s) with out := { s.out with pcieCpl := (c.val, fn.val, none) :: s.out.pcieCpl } })) ∧
  (∀ (fn : Fin 2) (q : PcieReq) (s : State), s.isSet F.PCIE_STATUS.LINK_UP 0 = true → s.isSet F.PCIE_CFG.MODE 0 = false →
    q.bar2 = false → q.write = false → q.off.toNat < 2 ^ 26 → q.off.toNat % 4 = 0 → q.len = 4 → s.power.dev = none →
    Leads (.pcieInboundRequest 0 fn q) s (fun t =>
      t = (s.pcieWaits false).hostRead 0 fn.val 0 (baseRegs + q.off.toNat) 4 ∧ t.links.hostTag.get 0 0 = (s.links.hostTag.get 0 0 % 1024 + 1) % 1024)) ∧
  (∀ (c : Fin 2) (ch : Fin 4) (cpl : Option (List Byte)) (s u w : State) (d bs : List Byte) (o : Nat) (poison : Bool),
    s.isSet F.PCIE_STATUS.LINK_UP c.val = true → s.ringReady .pcieDma (4 * c.val + ch.val) = true →
    s.ringRead .pcieDma (4 * c.val + ch.val) (epPcie c.val) 32 = (some d, u) → wordOf d 5 % 4 = 0 →
    u.readBytes ⟨epPcie c.val, bitsOf (wordOf d 1) 16 8, 0, false⟩ (wordOf d 0 + wordOf d 1 % 65536 * 2 ^ 32) (wordOf d 4 % 2 ^ 25) =
      (0, poison, o, bs, w) →
    Leads (.pcieDmaDescriptor c ch cpl) s (fun t =>
      t = (w.pcieSend ⟨c.val, 0, wordOf d 2 + wordOf d 3 * 2 ^ 32, 0, poison, bs⟩).dmaDone (4 * c.val + ch.val) d 0)) ∧
  (∀ (c : Fin 2) (s : State), s.isSet F.PCIE_STATUS.LINK_UP c.val = true →
    (∀ ch, ch < 4 → s.ringProd .pcieDma (4 * c.val + ch) = s.ringCons .pcieDma (4 * c.val + ch)) → Leads (.pcieLinkDown c) s (fun t =>
      t.isSet F.PCIE_STATUS.LINK_UP c.val = false ∧ t.get F.PCIE_STATUS.WIDTH c.val = 0 ∧
      (∀ e ∈ t.links.hostReads, e.1 / 1024 ≠ c.val) ∧ RegsKeep s t [regKey R.PCIE_STATUS c.val]))

/-- A chassis link comes up at the highest common version, steps down, retries, renegotiates, drops and forwards (R121,
R122, R123, R124, R125, R126, R127). The drop of a link whose partner shares no version in a renegotiation is the
model's reading (log 36). -/
def Obligations.ChassisLinks : Prop :=
  (∀ (f : Fin 16) (p : BitVec 4) (pl : BitVec 3) (tr : BitVec 4) (s : State) (com : Nat), s.clk.engUp = true → s.isSet F.CHL_CFG.EN f.val = true →
    s.chlState f.val = 1 → s.chlLanes f.val ≠ [] → com = s.chlOffer f.val &&& p.toNat →
    ((com = 0 ∨ linkLanes (s.chlLanes f.val).length pl.toNat = 0) → Leads (.chlBringUp f p pl tr) s (fun t =>
      t.isSet F.CHL_STATUS.FAILED f.val = true ∧ t.chlState f.val = 1 ∧ t.get F.CHL_PARTNER.BITMAP f.val = p.toNat ∧
      RegsKeep s t [regKey R.CHL_STATUS f.val, regKey R.CHL_PARTNER f.val])) ∧
    (com ≠ 0 → linkLanes (s.chlLanes f.val).length pl.toNat ≠ 0 → com &&& tr.toNat = com → (s.chl f.val).waiting = none →
      (s.chl f.val).queued = [] → s.chlFits f.val (highestVersion com) = true →
      Leads (.chlBringUp f p pl tr) s (fun t => t.chlState f.val = 2 ∧
      t.get F.CHL_STATUS.VERSION f.val = highestVersion com ∧ (t.chl f.val).queued = [] ∧
      (t.chl f.val).lanes = linkLanes (s.chlLanes f.val).length pl.toNat ∧
      (∀ l ∈ s.chlLanes f.val, t.laneState l = 3 ∧ t.get F.LANE_RATE.KBPS l = (chlVersion (highestVersion com)).kbps) ∧
      RegsKeep s t ([regKey R.CHL_STATUS f.val, regKey R.CHL_PARTNER f.val] ++ laneKeys (s.chlLanes f.val))))) ∧
  (∀ (f : Fin 16) (v : BitVec 3) (s : State), s.isSet F.CHL_CFG.EN f.val = true → s.chlState f.val = 1 →
    1 ≤ v.toNat → v.toNat ≤ 4 → bitAt (s.chlOffer f.val &&& s.get F.CHL_PARTNER.BITMAP f.val) (v.toNat - 1) = true →
    Leads (.chlVersionFail f v) s (fun t => t.isSet F.CHL_STATUS.STEPDOWN f.val = true ∧
      t.chlOffer f.val = s.chlOffer f.val % 2 ^ (v.toNat - 1) ∧ (t.chl f.val).drops = [])) ∧
  (∀ (f : Fin 16) (s : State) (v : Nat), s.isSet F.CHL_CFG.EN f.val = true → s.isSet F.CHL_STATUS.FAILED f.val = true →
    s.chlState f.val = 1 → v = lowestVersion (s.get F.CHL_CFG.VERSION_MASK f.val &&& (s.chl f.val).offered.toNat) →
    v ≠ 0 → (s.chl f.val).waiting = none → s.chlFits f.val v = true →
    ((s.chl f.val).lastRetry = 0 → Leads (.chlRetry f true) s (fun t => t.chlState f.val = 2 ∧
      t.get F.CHL_STATUS.VERSION f.val = v ∧ (t.chl f.val).lastRetry = s.now + 1)) ∧
    (∀ tr : Bool, s.now + 1 < (s.chl f.val).lastRetry + 10 ^ 9 → (s.chl f.val).lastRetry ≠ 0 → exec (.chlRetry f tr) s = .next s)) ∧
  (∀ (f : Fin 16) (p : BitVec 4) (s : State), 2 ≤ s.chlState f.val → s.chlOffer f.val &&& p.toNat ≠ 0 →
    (highestVersion (s.chlOffer f.val &&& p.toNat) = s.get F.CHL_STATUS.VERSION f.val ∨
      (bitAt (s.chl f.val).stored.toNat (highestVersion (s.chlOffer f.val &&& p.toNat) - 1) = true ∧
        s.chlFits f.val (highestVersion (s.chlOffer f.val &&& p.toNat)) = true)) →
    (s.chl f.val).waiting = none → (s.chl f.val).queued = [] → Leads (.chlRenegotiate f p true) s (fun t => t.chlState f.val = 2 ∧
      t.get F.CHL_STATUS.VERSION f.val = highestVersion (s.chlOffer f.val &&& p.toNat) ∧
      t.get F.CHL_COUNTS.RENEG f.val = min 65535 (s.get F.CHL_COUNTS.RENEG f.val + 1) ∧
      RegsKeep s t ([regKey R.CHL_STATUS f.val, regKey R.CHL_PARTNER f.val, regKey R.CHL_COUNTS f.val] ++
        laneKeys (s.chlLanes f.val)))) ∧
  (∀ (f : Fin 16) (s : State), s.chlState f.val < 2 → exec (.chlLinkDrop f) s = .next s) ∧
  (∀ (f : Fin 16) (s : State), 2 ≤ s.chlState f.val → threeDrops ((s.now :: (s.chl f.val).drops).take 3) = true →
    1 ≤ (s.chl f.val).lastVer → (s.chl f.val).lastVer ≤ 4 → (s.chl f.val).fwd = [] → (s.chl f.val).queued = [] →
    Leads (.chlLinkDrop f) s (fun t => t.isSet F.CHL_STATUS.STEPDOWN f.val = true ∧
      t.chlOffer f.val = s.chlOffer f.val % 2 ^ ((s.chl f.val).lastVer - 1))) ∧
  (∀ (f : Fin 16) (s : State), 2 ≤ s.chlState f.val → threeDrops ((s.now :: (s.chl f.val).drops).take 3) = false →
    (s.chl f.val).fwd = [] → (s.chl f.val).queued = [] →
    Leads (.chlLinkDrop f) s (fun t => t.chlState f.val = s.get F.CHL_CFG.EN f.val ∧ t.get F.CHL_STATUS.VERSION f.val = 0 ∧
      t.get F.CHL_COUNTS.DROPS f.val = min 65535 (s.get F.CHL_COUNTS.DROPS f.val + 1) ∧ (t.chl f.val).owed = [] ∧
      RegsKeep s t ([regKey R.CHL_STATUS f.val, regKey R.CHL_COUNTS f.val] ++ laneKeys (s.chlLanes f.val)))) ∧
  (∀ (f : Nat) (p : Packet) (s : State), (s.chl f).fwd = [p] → (s.chl f).queued = [] →
    s.chlFail f = (s.setChl f { s.chl f with fwd := [], queued := [], owed := [], spent := [] }).targetRefuse p (srcChl f) 0xC) ∧
  (∀ (acc : Accessor) (v : Word) (s : State) (f : Nat), Writes s acc 0 R.CHL_CFG 0 f → v.toNat / 16 % 2 = 1 →
    s.chlState f = 0 → Leads (.chlCfgEnWrite acc v) s (fun t => t.chlState f = 1 ∧
      t.get F.CHL_CFG.VERSION_MASK f = v.toNat % 16 ∧ LoopsKeep s t (regKey R.CLK_GATE_WAKES 0 :: [regKey R.CHL_CFG f, regKey R.CHL_STATUS f] ++ laneKeys (s.chlLanes f)))) ∧
  (∀ (acc : Accessor) (v : Word) (s : State) (w : Nat), Writes s acc 0 R.CHL_WIN_XLAT 0 w →
    (s.windowOn w = true → Leads (.chlWinXlatWrite acc v) s (fun t => HubKeep s t [])) ∧
    (s.windowOn w = false → v.toNat % 128 ≤ 1 → Leads (.chlWinXlatWrite acc v) s (fun t =>
      t.get F.CHL_WIN_XLAT.BASE w = v.toNat % 128 ∧ HubKeep s t [regKey R.CHL_WIN_XLAT w])) ∧
    (s.windowOn w = false → 1 < v.toNat % 128 → Leads (.chlWinXlatWrite acc v) s (fun t =>
      t.isSet F.CHL_WIN_CTRL.XLAT_REJ w = true ∧ HubKeep s t [regKey R.CHL_WIN_CTRL w]))) ∧
  (∀ (f : Fin 16) (p : Packet) (s : State), 2 ≤ s.chlState f.val → p.debug = false → expectsResponse p.cmd.toNat = true →
    s.chlReceived f.val p.vc.toNat + pktUnits p ≤ 1024 → (s.chl f.val).owed.length < 256 →
    (∀ l ∈ s.chlLanes f.val, s.quadTakes (l / 4) = true) → Leads (.chlRemoteRequest f p) s (fun t =>
      t = (s.setChl f.val { s.chl f.val with owed := (s.chl f.val).owed ++ [(p, s.chlTag (s.chlEp f.val))] }).inject
        { p with src := BitVec.ofNat 10 (s.chlEp f.val), acc := .remote, secure := false, tag := s.chlTag (s.chlEp f.val) }))

/-- LANE_CONFIG binds lanes, LANE_STATUS reports, LANE_CHL_NEGOTIATE waits for its link, and the two commands that fill a
buffer (R57, R81, R96, R98, R100, R110, R124, R125). The calibrated delays LANE_CONFIG loads are free values; the
bytes of the two buffers are open (log 65). -/
def Obligations.LaneCommands : Prop :=
  ∀ (b : Fin 8) (m : Msg) (s : State) (k : Taken),
    (∀ (n : Fin 65536) (dn : Bool), Taking s b opLaneConfig m k → fld m 2 16 = 1 →
      (s.pcieLane (fld m 0 16) = true ∨ s.domUp (domLaneQuad (fld m 0 16 / 4)) = false) →
      Ends (.laneConfig b m ⟨n, dn⟩) s k stState 0 {} (fun u => u = s.laneBusy m 0)) ∧
    (∀ n : Fin 65536, Taking s b opLaneConfig m k → fld m 2 16 = 1 → fld m 9 8 = 1 → s.pcieLane (fld m 0 16) = false →
      s.domUp (domLaneQuad (fld m 0 16 / 4)) = true → s.laneState (fld m 0 16) < 2 → fld m 0 16 % 4 = 0 →
      Ends (.laneConfig b m ⟨n, true⟩) s k stOK 0 {} (fun u => u.get F.LANE_RATE.KBPS (fld m 0 16) = fld m 4 32 % 2 ^ 27 ∧
        u.get F.LANE_CTRL.PAM4 (fld m 0 16) = fld m 8 8 % 2 ∧ u.get F.LANE_CTRL.BIND (fld m 0 16) = 1 ∧
        u.isSet F.LANE_CTRL.EN (fld m 0 16) = true ∧ u.laneState (fld m 0 16) = 1 ∧
        u.links.macLanes.get 0 (fld m 0 16 / 4) = 1 ∧ u.free = s.free + 2 ∧
        RegsKeep s u [regKey R.CLK_LOOP_STATUS (21 + fld m 0 16 / 4), regKey R.LANE_CTRL (fld m 0 16), regKey R.LANE_RATE (fld m 0 16), regKey R.LANE_STATUS (fld m 0 16),
          regKey R.LANE_TS_TX_DELAY (fld m 0 16), regKey R.LANE_TS_RX_DELAY (fld m 0 16),
          regKey R.MAC_STATUS (fld m 0 16 / 4), regKey R.TSU_RCLK_CTRL 0, regKey R.TSU_RCLK_CTRL 1])) ∧
    (Taking s b opLaneStatus m k → Ends (.laneStatus b m) s k stOK 0 (pack 16 [(0, 8, s.laneState (fld m 0 16)),
      (2, 16, s.get F.LANE_EYE.HEIGHT (fld m 0 16)), (4, 16, s.get F.LANE_EYE.WIDTH (fld m 0 16)),
      (8, 64, s.pair R.LANE_ERR_LO R.LANE_ERR_HI (fld m 0 16))]) (fun u => u = s)) ∧
    (∀ (ps : List Word) (u : State), Taking s b opEyeScan m k → ps.length < 65535 →
      s.bufWrite (fld m 8 64) (leBytes 4 (s.reg R.LANE_EYE (fld m 0 16)) ++ ps.flatMap (fun p => leBytes 4 p.toNat)) = (none, u) →
      Ends (.laneEyeScan b m ps) s k stOK 0 (pack 2 [(0, 16, ps.length + 1)]) (fun v => v = u)) ∧
    (Taking s b opFhTable m k → match s.bufWrite (fld m 8 64)
        (Config.fhTable (fld m 0 8) (s.fhUnits (fld m 0 8)) (s.fhFlows (fld m 0 8))) with
      | (none, u) => Ends (.laneFhTable b m) s k stOK 0 (pack 4 [(0, 16, (s.fhUnits (fld m 0 8)).length),
          (2, 16, (s.fhFlows (fld m 0 8)).length)]) (fun v => v = u)
      | (some (.bad d), u) => Ends (.laneFhTable b m) s k stBuffer d {} (fun v => v = u)
      | (some .waits, u) => exec (.laneFhTable b m) s = .next u) ∧
    (Taking s b opChlNegotiate m k → (s.chl (fld m 0 8)).waiting = none → s.chlLanes (fld m 0 8) = [] →
      Ends (.laneChlNegotiate b m) s k stState 0 {} (fun u => u = s)) ∧
    (Taking s b opChlNegotiate m k → (s.chl (fld m 0 8)).waiting = none → s.chlLanes (fld m 0 8) ≠ [] →
      s.chlState (fld m 0 8) = 0 → Leads (.laneChlNegotiate b m) s (fun t => t.chlState (fld m 0 8) = 1 ∧
        t.get F.CHL_CFG.VERSION_MASK (fld m 0 8) = fld m 1 8 % 16 ∧ t.isSet F.CHL_CFG.EN (fld m 0 8) = true ∧
        t.isSet F.CHL_STATUS.FAILED (fld m 0 8) = false ∧ t.chl (fld m 0 8) =
          { s.chl (fld m 0 8) with removed := 0, offered := 0, waiting := some k, waitStart := s.now } ∧
        RegsKeep s t ([regKey R.CHL_CFG (fld m 0 8), regKey R.CHL_STATUS (fld m 0 8)] ++ laneKeys (s.chlLanes (fld m 0 8))))) ∧
    (Taking s b opChlNegotiate m k → (s.chl (fld m 0 8)).waiting = some k →
      (s.chl (fld m 0 8)).waitStart + 1500000000 ≤ s.now →
      Ends (.laneChlNegotiate b m) s k stTimeout 0 (pack 1 [(0, 8, 0)]) (fun u =>
        u = s.setChl (fld m 0 8) { s.chl (fld m 0 8) with waiting := none }))

/-- Injection checks, limits and token buckets; refills, rate writes, cleared statistics and bridge faults (R132, R134,
R136, R138, R146, R147, R148, R149, R382). -/
def Obligations.InjectionAndRegulators : Prop :=
  (∀ (p : Packet) (s : State), s.darkFor p = true → exec (.requestInjection p) s = .next s) ∧
  (∀ (p : Packet) (s : State), s.power.dev = none → (pktOk p = false ∨ s.tagUsed p = true) → expectsResponse p.cmd.toNat = true →
    Leads (.requestInjection p) s (fun t => t.reg R.NOC_DROP_COUNT 0 = min (s.reg R.NOC_DROP_COUNT 0 + 1) (2 ^ 32 - 1) ∧
      t.net.packets = pktResponse { p with dest := p.src } 10 3 [] :: s.net.packets ∧ t.net.outst = s.net.outst ∧
      t.net.wait = s.net.wait ∧ RegsKeep s t [regKey R.NOC_DROP_COUNT 0])) ∧
  (∀ (p : Packet) (s : State) (c : Nat), s.power.dev = none → pktOk p = true → s.tagUsed p = false → expectsResponse p.cmd.toNat = true →
    refusedWith (s.decodeRequest p (s.forcedSecure p)) = some c → Leads (.requestInjection p) s (fun t =>
      t.reg R.NOC_DROP_COUNT 0 = min (s.reg R.NOC_DROP_COUNT 0 + 1) (2 ^ 32 - 1) ∧
      t.net.packets = pktResponse { p with dest := p.src } 10 c [] :: s.net.packets ∧ t.net.outst = s.net.outst)) ∧
  (∀ (p q : Packet) (s : State) (d : Nat), s.power.dev = none → pktOk p = true → s.tagUsed p = false → (s.decodeRequest p (s.forcedSecure p)).toOption = some d →
    s.net.wait.get [] p.src.toNat = [] → s.limitAllows p = true →
    q = { p with dest := BitVec.ofNat 10 d, secure := s.forcedSecure p, poison := pktPoison p } →
    (s.tokensAllow p.src.toNat p.vc.toNat (pktUnits p) = true → Leads (.requestInjection p) s (fun t =>
      t.net.packets = s.net.packets ++ [q] ∧ t.net.wait.get [] p.src.toNat = [] ∧
      t.outstanding p.src.toNat = s.outstanding p.src.toNat ++ (if expectsResponse p.cmd.toNat then
        [{ tag := p.tag, cmd := p.cmd, units := responseUnits p.cmd.toNat p.len.toNat, at64 := s.now }] else []) ∧
      (p.vc.toNat < 2 → s.rateOn p.src.toNat p.vc.toNat = true →
        t.tokens p.src.toNat p.vc.toNat = s.tokens p.src.toNat p.vc.toNat - pktUnits p) ∧
      t.pair R.NOC_STAT_REQ_LO R.NOC_STAT_REQ_HI p.src.toNat =
        (s.pair R.NOC_STAT_REQ_LO R.NOC_STAT_REQ_HI p.src.toNat + 1) % 2 ^ 48 ∧
      t.pair R.NOC_STAT_WR_LO R.NOC_STAT_WR_HI p.src.toNat =
        (s.pair R.NOC_STAT_WR_LO R.NOC_STAT_WR_HI p.src.toNat + pktBytes p) % 2 ^ 48 ∧
      RegsKeep s t [regKey R.NOC_STAT_REQ_LO p.src.toNat, regKey R.NOC_STAT_REQ_HI p.src.toNat,
        regKey R.NOC_STAT_WR_LO p.src.toNat, regKey R.NOC_STAT_WR_HI p.src.toNat])) ∧
    (s.tokensAllow p.src.toNat p.vc.toNat (pktUnits p) = false → Leads (.requestInjection p) s (fun t =>
      t.net.flight = s.net.flight ∧ t.net.wait.get [] p.src.toNat = [q] ∧ t.regs = s.regs))) ∧
  (∀ s : State, s.now / 250 ≤ s.net.refills → exec .tokenRefill s = .next s) ∧
  (∀ (s : State) (i vc x : Nat), s.net.refills < s.now / 250 → s.net.wait = [] → s.net.spent = [(bucketKey i vc, x)] →
    vc < 2 → x ≤ s.rateBurst i vc → Leads .tokenRefill s (fun t => t.net.refills = s.now / 250 ∧
      t.tokens i vc = min (s.rateBurst i vc) (s.tokens i vc + (s.now / 250 - s.net.refills) * s.rateRate i vc) ∧
      t.regs = s.regs)) ∧
  (∀ (acc : Accessor) (vc1 : Bool) (v : Word) (s : State) (i : Nat), Writes s acc 0 (rateReg (bit vc1)) 0 i →
    s.net.wait.get [] i = [] → Leads (.nocRateWrite acc vc1 v) s (fun t =>
      t.rateRate i (bit vc1) = v.toNat % 1024 ∧ t.rateBurst i (bit vc1) = max 17 (v.toNat / 2 ^ 16 % 2 ^ 12) ∧
      t.rateOn i (bit vc1) = bitAt v.toNat 31 ∧
      t.tokens i (bit vc1) = (if s.rateOn i (bit vc1) = true ∧ bitAt v.toNat 31 = true
        then min (s.tokens i (bit vc1)) (t.rateBurst i (bit vc1)) else t.rateBurst i (bit vc1)) ∧
      RegsKeep s t [regKey R.CLK_GATE_WAKES 0, regKey (rateReg (bit vc1)) i])) ∧
  (∀ (acc : Accessor) (s : State) (i : Nat), Writes s acc 0 R.NOC_STAT_CLR 0 i → Leads (.nocStatClr acc) s (fun t =>
    t.pair R.NOC_STAT_RD_LO R.NOC_STAT_RD_HI i = 0 ∧ t.pair R.NOC_STAT_WR_LO R.NOC_STAT_WR_HI i = 0 ∧
    t.pair R.NOC_STAT_REQ_LO R.NOC_STAT_REQ_HI i = 0 ∧ t.pair R.NOC_STAT_LAT_SUM_LO R.NOC_STAT_LAT_SUM_HI i = 0 ∧
    t.reg R.NOC_STAT_LAT_MAX i = 0 ∧ (∀ b : Fin 8, t.reg R.NOC_STAT_HIST (i * 8 + b.val) = 0) ∧ t.net = s.net)) ∧
  (∀ s : State, Leads .nocBridgeFault s (fun t => t.isSet F.NOC_BRIDGE_STATUS.FAULT 0 = true ∧
    t = (s.put F.NOC_BRIDGE_STATUS.FAULT 0 1).raise { code := 0x0351, sev := 3, source := srcBridge }))

/-- Reads, writes, atomics and messages at register space, scratchpads and inboxes, and requests that are not in the
network (R13, R132, R134, R135, R137, R209, R387). The bytes of a register read's unit beside its word are free
values. -/
def Obligations.RequestsAtTargets : Prop :=
  (∀ (p : Packet) (ups : List Upset) (s : State), s.arrives p = false →
    exec (.read p ups) s = .next s ∧ exec (.write p ups) s = .next s ∧ exec (.postedWrite p ups) s = .next s ∧
    exec (.atomic p ups) s = .next s ∧ exec (.message p) s = .next s ∧ exec (.debugRead p) s = .next s ∧
    exec (.debugWrite p) s = .next s) ∧
  (∀ (p : Packet) (s u : State) (off v : Nat), p.cmd.toNat = 0 → s.arrives p = true → pktTarget p = .regs →
    regOffsetOf p = some off → (s.takePacket p).regCode (pktAccessor p) 4 off = 0 →
    (s.takePacket p).regRead (pktAccessor p) (pktCore p) off p.debug = (v, u) → v < 2 ^ 32 →
    Leads (.read p []) s (fun t => t.net.packets.dropLast = u.net.packets ∧ t.free = u.free + 1 ∧ t.regs = u.regs ∧
      ∃ r : Packet, t.net.packets.getLast? = some r ∧ r.cmd = 8 ∧ r.vc = 2 ∧ r.dest = p.src ∧ r.tag = p.tag ∧
        r.addr = 0 ∧ r.data.length = 1 ∧ bitsOf (r.data.headD ⟨0, false⟩).data.toNat (8 * (off % 16)) 32 = v)) ∧
  (∀ (p : Packet) (s : State) (off c : Nat), p.cmd.toNat = 0 → s.arrives p = true → pktTarget p = .regs →
    regOffsetOf p = some off → (s.takePacket p).regCode (pktAccessor p) 4 off = c → c ≠ 0 →
    Leads (.read p []) s (fun t => t = (s.takePacket p).targetRefuse p srcHub c)) ∧
  (∀ (p : Packet) (s w : State) (c : Nat), s.arrives p = true → pktTarget p = .scratch c → Serves s c →
    w = (s.takePacket p).touchDomain (domCluster c) →
    (p.cmd.toNat = 0 → Leads (.read p []) s (fun t => t = w.sendPacket (pktResponse p 8 0 (unitsAt s p)))) ∧
    (p.cmd.toNat = 6 → Leads (.debugRead p) s (fun t => t = w.sendPacket (pktResponse p 8 0 (unitsAt s p)))) ∧
    (p.cmd.toNat = 1 → Leads (.write p []) s (fun t => StoresUnits s t p ∧
      t.net.packets = w.net.packets ++ [pktResponse p 9 0 []])) ∧
    (p.cmd.toNat = 7 → Leads (.debugWrite p) s (fun t => StoresUnits s t p ∧
      t.net.packets = w.net.packets ++ [pktResponse p 9 0 []])) ∧
    (p.cmd.toNat = 2 → Leads (.postedWrite p []) s (fun t => StoresUnits s t p ∧ t.net.packets = w.net.packets)) ∧
    (∀ (x y : DataUnit) (n sh v : Nat), p.cmd.toNat = 3 → p.data = [x, y] → y.data.toNat / 32 = 0 → y.data.toNat % 16 ≤ 9 →
      n = (if bitAt y.data.toNat 4 then 8 else 4) → p.addr.toNat % n = 0 → sh = 8 * (p.addr.toNat % 16) →
      atomicOp (y.data.toNat % 16) (8 * n) (bitsOf (s.word (pktWord p)).toNat sh (8 * n)) (bitsOf x.data.toNat 0 64)
        (bitsOf x.data.toNat 64 64) = some v →
      Leads (.atomic p []) s (fun t => t.net.packets = w.net.packets ++ [pktResponse p 8 0
          [⟨BitVec.ofNat 128 (bitsOf (s.word (pktWord p)).toNat sh (8 * n)), s.poisonAt (pktWord p)⟩]] ∧
        t.word (pktWord p) = mergeBytes ((2 ^ n - 1) * 2 ^ (p.addr.toNat % 16)) (s.word (pktWord p))
          (BitVec.ofNat 128 (v * 2 ^ sh)) ∧
        t.poisonAt (pktWord p) = (x.poison || y.poison || s.poisonAt (pktWord p)) ∧
        (∀ a, a < 16 * pktWord p ∨ 16 * pktWord p + 16 ≤ a → t.byte a = s.byte a) ∧ t.regs = s.regs))) ∧
  (∀ (p : Packet) (s : State) (n size prod : Nat), p.cmd.toNat = 4 → s.arrives p = true → pktTarget p = .core n →
    Serves s (n / 8) → size = 2 ^ min 6 (s.get F.TC_INBOX_BASE.SIZE n) → prod = s.get F.TC_INBOX_IDX.PROD n →
    ((s.isSet F.TC_INBOX_BASE.EN n = false ∨ size ≤ (prod + 256 - s.get F.TC_INBOX_IDX.CONS n) % 256) →
      exec (.message p) s = .next s) ∧
    (s.isSet F.TC_INBOX_BASE.EN n = true → (prod + 256 - s.get F.TC_INBOX_IDX.CONS n) % 256 < size →
      Leads (.message p) s (fun t => t.get F.TC_INBOX_IDX.PROD n = (prod + 1) % 256 ∧
        bitAt (t.get F.TC_IRQ_PEND.PEND n) 2 = true ∧ t.net.flight = (s.takePacket p).net.flight ∧
        (∀ wd, s.inboxWord n (prod % size) 0 = some wd → p.data = [] →
          (t.word wd).toNat = p.src.toNat + p.tag.toNat * 2 ^ 16) ∧
        RegsKeep s t [regKey R.TC_INBOX_IDX n, regKey R.TC_IRQ_PEND n]))) ∧
  (∀ (p : Packet) (s : State) (e : Nat), p.cmd.toNat = 4 → s.arrives p = true → pktTarget p = .engine e →
    s.domState (domEngine e) = 2 → Leads (.message p) s (fun t =>
      t = ((s.takePacket p).touchDomain (domEngine e)).targetRefuse p (src 0x02 e) 5))

/-- A response frees its reservation, is counted and handed over; routes are minimal; units carry their fields (R130,
R131, R133, R140, R141, R142, R146, R148). -/
def Obligations.ResponsesAndRoutes : Prop :=
  (∀ (p : Packet) (o : Outst) (s : State) (x : Nat), p.dest.toNat = epChamois → s.arrives p = true → (∀ v ∈ s.net.flight, v.own = false) →
    (s.outstanding epChamois).find? (fun o => o.tag == p.tag) = some o → s.net.wait.get [] epChamois = [] →
    x = (s.now - o.at64) / 2 * 2 →
    (p.cmd.toNat = 8 → Leads (.readResponse p) s (fun t => t.outstanding epChamois = (s.outstanding epChamois).erase o ∧
      t.net.flight = (s.takePacket p).net.flight ∧ t.net.arrived = p :: s.net.arrived ∧
      t.pair R.NOC_STAT_RD_LO R.NOC_STAT_RD_HI epChamois =
        (s.pair R.NOC_STAT_RD_LO R.NOC_STAT_RD_HI epChamois + 16 * p.data.length) % 2 ^ 48 ∧
      t.pair R.NOC_STAT_LAT_SUM_LO R.NOC_STAT_LAT_SUM_HI epChamois =
        (s.pair R.NOC_STAT_LAT_SUM_LO R.NOC_STAT_LAT_SUM_HI epChamois + x) % 2 ^ 48 ∧
      t.reg R.NOC_STAT_LAT_MAX epChamois = max (s.reg R.NOC_STAT_LAT_MAX epChamois) (min x (2 ^ 32 - 1)) ∧
      t.reg R.NOC_STAT_HIST (epChamois * 8 + min (x / max 1 (s.get F.NOC_HIST_CFG.STEP_NS 0)) 7) =
        min (s.reg R.NOC_STAT_HIST (epChamois * 8 + min (x / max 1 (s.get F.NOC_HIST_CFG.STEP_NS 0)) 7) + 1) (2 ^ 32 - 1))) ∧
    (p.cmd.toNat = 9 → Leads (.writeResponse p) s (fun t => t.outstanding epChamois = (s.outstanding epChamois).erase o ∧
      t.net.flight = (s.takePacket p).net.flight ∧ t.net.arrived = p :: s.net.arrived ∧
      t.pair R.NOC_STAT_RD_LO R.NOC_STAT_RD_HI epChamois = s.pair R.NOC_STAT_RD_LO R.NOC_STAT_RD_HI epChamois ∧
      t.pair R.NOC_STAT_LAT_SUM_LO R.NOC_STAT_LAT_SUM_HI epChamois =
        (s.pair R.NOC_STAT_LAT_SUM_LO R.NOC_STAT_LAT_SUM_HI epChamois + x) % 2 ^ 48)) ∧
    (p.cmd.toNat = 10 → Leads (.errorResponse p) s (fun t => t.outstanding epChamois = (s.outstanding epChamois).erase o ∧
      t.net.flight = (s.takePacket p).net.flight ∧ t.net.arrived = p :: s.net.arrived))) ∧
  (∀ (p : Packet) (s : State), s.arrives p = false → s.chlAnswered p = none → exec (.readResponse p) s = .next s ∧
    exec (.writeResponse p) s = .next s ∧ exec (.errorResponse p) s = .next s) ∧
  (∀ cx cy sx dx dy : Nat, routeDirs cx cy sx dx dy ≠ [] ∧ ∀ d ∈ routeDirs cx cy sx dx dy,
    (d = .localPort ↔ cx = dx ∧ cy = dy) ∧ (d = .east → cx < dx) ∧ (d = .west → dx < cx) ∧ (d = .south → cy < dy) ∧
    (d = .north → dy < cy)) ∧
  (∀ cx cy dx dy : Nat, (routeXy cx cy dx dy = .localPort ↔ cx = dx ∧ cy = dy) ∧
    ((routeXy cx cy dx dy = .south ∨ routeXy cx cy dx dy = .north) → cx = dx)) ∧
  epCore (64 * 2 + 8 * 5 + 3) = 0x0F4 ∧ coreOfEp 0x0F4 = some (64 * 2 + 8 * 5 + 3) ∧
  (∀ p : Packet, headerField p 118 10 = p.dest.toNat ∧ headerField p 108 10 = p.src.toNat ∧ headerField p 104 4 = p.cmd.toNat ∧
    headerField p 102 2 = p.vc.toNat ∧ headerField p 92 10 = p.tag.toNat ∧ headerField p 88 4 = p.len.toNat ∧
    headerField p 80 8 = p.key.toNat ∧ headerField p 79 1 = bit p.secure ∧ headerField p 78 1 = bit p.debug ∧
    headerField p 77 1 = bit p.poison ∧ headerField p 76 1 = bit p.ordered ∧ headerField p 64 12 = p.rsv.toNat ∧
    headerField p 48 16 = p.be.toNat ∧ headerField p 0 48 = p.addr.toNat ∧ (packetUnits p).length = p.data.length + 1 ∧
    ∀ k u, (packetUnits p)[k]? = some u → u.last = decide (k = p.data.length)) ∧
  (∀ (n : Net) (up : Bool), (n.round up).packets = n.packets)

/-- A descriptor is refused at its first failing word or placed in its first state, from SUBMIT and from TSK_SUBMIT_GO
(R151, R152, R153, R154, R155, R156, R158). -/
def Obligations.Submissions : Prop :=
  (∀ (p : Packet) (q : Nat) (s : State), quadOfDispatcher p.dest.toNat = some q →
    (((s.dsp q).free = 0 ∨ s.arrives p = false) → exec (.submit p) s = .next s) ∧
    (∀ d : BitVec 512, d = BitVec.ofNat 512 (leValue (unitBytes p.data 0 64)) → p.cmd.toNat = 5 → s.arrives p = true →
      (s.dsp q).free ≠ 0 → (s.dsp q).ingress = [] →
      (pktPoison p = true → Leads (.submit p) s (fun t => t = ((s.takePacket p).respondError p 0xD).raise
        { code := 0xD, sev := 2, source := src 0x0B q, addr := some p.addr.toNat, tgt := true, req := some p.src.toNat })) ∧
      (∀ bad, pktPoison p = false → (s.takePacket p).checkTask q d = some bad → Leads (.submit p) s (fun t =>
        t = (s.takePacket p).sendPacket (pktResponse p 10 (3 + bad * 2 ^ 16) []))) ∧
      (pktPoison p = false → (s.takePacket p).checkTask q d = none → Leads (.submit p) s (fun t =>
        t = (s.takePacket p).afterReady (((s.takePacket p).takeTask q d).sendPacket (pktResponse p 9 0 [])) q)))) ∧
  (∀ (s : State) (q : Nat) (d : BitVec 512), dTaskId d = 0x3FFF → dSlotRel d = true → (s.dsp q).slots = [] →
    ((s.takeTask q d).dsp q).pool.getLast?.map (fun t => (t.d, t.st, t.count)) = some (d, .slotWait, dDepCount d)) ∧
  (∀ (s : State) (q h count last : Nat) (r : Bool) (k : Task) (x : Int), (s.dsp q).task? h = some k → k.st = .slotWait →
    (s.dsp q).slots.get none (dSlotTmr k.d) = some (count, last, r) → count < 2 ^ 32 →
    x = toSigned 32 (ofSigned 32 ((dWord k.d 3 : Int) - (count : Int))) →
    (0 < x → s.resolveSlot q h = s) ∧
    (x ≤ 0 → ((s.resolveSlot q h).dsp q).task? h = some { k with
        st := .delayed
        fixed := true
        release := (last + dWord k.d 2) % 2 ^ 64
        deadline := (last + dWord k.d 4) % 2 ^ 64 } ∧
      (x < 0 → (s.resolveSlot q h).isSet F.TSK_STATUS.SLOT_PAST q = true) ∧
      RegsKeep s (s.resolveSlot q h) [regKey R.TSK_STATUS q])) ∧
  (∀ (s : State) (q : Nat) (d : BitVec 512), dTaskId d = 0x3FFF → dSlotRel d = false → dVar d = 0 →
    ((s.takeTask q d).dsp q).pool.getLast?.map (fun t => (t.d, t.st, t.count)) = some (d,
      (if diff64 s.now (dWord d 2 + dWord d 3 * 2 ^ 32) < 0 then .delayed else if 0 < dDepCount d then .depWait else .ready),
      dDepCount d)) ∧
  (∀ (ids : List Nat) (en : Nat → Bool) (cap : Nat) (d : BitVec 512), (2 ≤ dKind d → dCheck ids en cap d = some 0) ∧
    (dCheck ids en cap d = none → (dLate d = 1 → dVar d ≠ 0) ∧ (4 ≤ dPrio d → dEnergy d ≤ cap) ∧
      (dCqEn d = true → en (dCq d) = true) ∧ (dTaskId d ≠ 0x3FFF → dTaskId d ∉ ids) ∧
      ((dKind d = 0 ∧ dTarget d ≤ 1) ∨ (dKind d = 1 ∧ dTarget d = 2 ∧ dEtype d ≤ 7)))) ∧
  (∀ (acc : Accessor) (v : Word) (s u : State) (q : Nat), Writes s acc 0 R.TSK_SUBMIT_GO 0 q → u = s.ungate 7 →
    (v.toNat % 2 = 0 → Leads (.tskSubmitGo acc v) s (fun t => HubKeep s t [])) ∧
    (v.toNat % 2 = 1 → Leads (.tskSubmitGo acc v) s (fun t => t = u.afterReady ((u.setDsp q { u.dsp q with
      ingress := (u.dsp q).ingress ++ [{ d := u.staged acc, via := goVia acc }] }).intake q 5000) q)))

/-- A tick credits the account within its cap, signals count down, descriptors reach elements, ends complete tasks,
preemptions time out (R150, R157, R158, R163, R166, R168, R171). -/
def Obligations.DispatcherEvents : Prop :=
  (∀ (q : Fin 4) (s : State) (n m : Nat), n = max 1 (s.get F.TSK_TICK.NS q.val) → m = s.now / n * n →
    (m < (s.dsp q.val).lastTick → exec (.dispatchTick q) s = .next s) ∧
    ((s.dsp q.val).lastTick ≤ m → Leads (.dispatchTick q) s (fun t => t =
      (((s.setDsp q.val { s.dsp q.val with lastTick := m + 1 }).creditAccount q.val).releaseDue q.val m).redecide q.val))) ∧
  (∀ (s : State) (q a : Nat), s.isSet F.GOV_CTRL.EN 0 = true → s.isSet F.GOV_Q_STATE.HOT q = false →
    a = s.get F.GOV_BUDGET.W 0 * s.govShare q * s.get F.TSK_TICK.NS q * 4 / 100000 →
    (s.creditAccount q).acct q = toSigned 32 (ofSigned 32 (min (s.acct q + (a : Int)) (s.acctCap q : Int))) ∧
    (s.creditAccount q).get F.TSK_ALLOW_LAST.ALLOW q = a % 2 ^ 24 ∧ (s.creditAccount q).isSet F.TSK_ALLOW_LAST.HOT q = false ∧
    (s.creditAccount q).isSet F.TSK_STATUS.NO_ALLOW q = false ∧
    OnlyRegs s (s.creditAccount q) [regKey R.TSK_ACCT q, regKey R.TSK_ALLOW_LAST q, regKey R.TSK_STATUS q]) ∧
  (∀ (acc : Accessor) (v : Word) (s u : State) (q : Nat), Writes s acc 0 R.TSK_SIGNAL 0 q → u = s.ungate 7 →
    Leads (.tskSignal acc v) s (fun t => t = u.afterReady (u.signal q (v.toNat % 2 ^ 14)) q)) ∧
  (∀ (s : State) (q id : Nat),
    (id = 0x3FFF → s.signal q id = s.count F.TSK_SIG_STATUS.EXTRA q 1) ∧
    (∀ t : Task, id ≠ 0x3FFF → (s.dsp q).pool.find? (fun t => dTaskId t.d == id) = some t →
      ((t.st = .running ∨ t.count = 0) → s.signal q id = s.count F.TSK_SIG_STATUS.EXTRA q 1) ∧
      (t.st ≠ .running → 1 < t.count → s.signal q id = s.setTask q t.handle (fun t => { t with count := t.count - 1 }))) ∧
    (id ≠ 0x3FFF → (∀ t ∈ (s.dsp q).pool, dTaskId t.d ≠ id) → (s.dsp q).pend.length < 256 →
      s.signal q id = s.setDsp q { s.dsp q with pend := (s.dsp q).pend ++ [id] })) ∧
  (∀ (q : Fin 4) (s : State), (s.dsp q.val).signals = [] → exec (.signalArrival q) s = .next s) ∧
  (∀ (q : Fin 4) (s u : State) (id : Nat) (r : List Nat), (s.dsp q.val).signals = id :: r →
    u = s.setDsp q.val { s.dsp q.val with signals := r } → Leads (.signalArrival q) s (fun t =>
      t = u.afterReady (u.signal q.val id) q.val)) ∧
  (∀ (q : Fin 4) (s : State) (e h : Nat) (r : List (Nat × Nat)) (k : Task), (s.dsp q.val).sent = (e, h) :: r →
    (s.dsp q.val).task? h = some k → Leads (.taskDelivery q) s (fun t => (t.dsp q.val).sent = r ∧
      (e < 64 → (t.cores.get {} (64 * q.val + e)).arrived = some { handle := h, d := k.d } ∧ t.engIn = s.engIn) ∧
      (64 ≤ e → t.engIn.get none (26 * q.val + (e - 64)) = some { handle := h, d := k.d } ∧ t.cores = s.cores) ∧
      t.regs = s.regs ∧ t.store = s.store)) ∧
  (∀ (q : Fin 4) (s : State) (r : EndReport) (rs : List EndReport), (s.dsp q.val).ends = r :: rs →
    Leads (.taskEnd q) s (fun t => t = (s.setDsp q.val { s.dsp q.val with ends := rs }).takeEnd q.val r)) ∧
  (∀ (s : State) (q h st d : Nat), ∀ k ∈ ((s.completeTask q h st d).dsp q).pool, (s.dsp q).task? h ≠ none → k.handle ≠ h) ∧
  (∀ (q : Fin 4) (k : Fin 64) (s : State) (h x : Nat), (s.dsp q.val).preempt = [(k.val, h, x)] →
    (s.now < x + 1000 * max 1 (s.get F.TSK_PREEMPT.TMO_US q.val) → exec (.preemptTimeout q k) s = .next s) ∧
    (x + 1000 * max 1 (s.get F.TSK_PREEMPT.TMO_US q.val) ≤ s.now → Leads (.preemptTimeout q k) s (fun t =>
      (t.dsp q.val).preempt = [] ∧ bitAt (t.reg R.TC_IRQ_PEND (64 * q.val + k.val)) 0 = false ∧
      t.get F.TSK_PREEMPT_CNT.TMO q.val = min 65535 (s.get F.TSK_PREEMPT_CNT.TMO q.val + 1) ∧
      RegsKeep s t [regKey R.TC_IRQ_PEND (64 * q.val + k.val), regKey R.TSK_PREEMPT_CNT q.val])))

/-- The protected band is dispatched whatever the account holds; others only within it, else held, dropped or replaced
(R160, R161, R163, R164, R168). -/
def Obligations.Decisions : Prop :=
  (∀ (s : State) (q h f : Nat) (el : Nat × Bool) (t : Task), (s.dsp q).task? h = some t →
    lateAt t s.now (s.estimate q el.1 t.d) = false →
    (dPrio t.d ≤ 3 → s.decideTask q h (f + 1) el = (false, s.launchTask q h el)) ∧
    (4 ≤ dPrio t.d → (dEnergy t.d : Int) ≤ s.acct q → s.decideTask q h (f + 1) el = (false, s.launchTask q h el)) ∧
    (4 ≤ dPrio t.d → s.acct q < (dEnergy t.d : Int) → t.vars = [] → s.decideTask q h (f + 1) el = (true, s))) ∧
  (∀ (s : State) (q h f : Nat) (el : Nat × Bool) (t : Task), (s.dsp q).task? h = some t →
    lateAt t s.now (s.estimate q el.1 t.d) = true → dLate t.d = 2 → s.decideTask q h (f + 1) el =
      (false, ((((s.countReg R.TSK_LATE_RISK q 1).setTask q h (fun t => { t with risk := true })).freeVariants q h).countReg
        R.TSK_DROPS q 1).completeTask q h 1 0)) ∧
  (∀ (s : State) (q h e : Nat) (t : Task), (s.dsp q).task? h = some t →
    (s.dispatchTask q h e false).acct q = (if s.acct q - (dEnergy t.d : Int) < -2 ^ 31 then -2 ^ 31
      else s.acct q - (dEnergy t.d : Int)) ∧
    (s.dispatchTask q h e false).pair R.TSK_DISPATCHED_LO R.TSK_DISPATCHED_HI q =
      (s.pair R.TSK_DISPATCHED_LO R.TSK_DISPATCHED_HI q + 1) % 2 ^ 64 ∧
    ((s.dispatchTask q h e false).dsp q).sent = (s.dsp q).sent ++ [(e, h)] ∧
    (s.acct q - (dEnergy t.d : Int) < -2 ^ 31 → (s.dispatchTask q h e false).isSet F.TSK_STATUS.ACCT_SAT q = true) ∧
    RegsKeep s (s.dispatchTask q h e false) [regKey R.TSK_ACCT q, regKey R.TSK_STATUS q, regKey R.TSK_DISPATCHED_LO q,
      regKey R.TSK_DISPATCHED_HI q]) ∧
  (∀ (s : State) (q st d : Nat) (t : Task) (late : Bool) (e : Nat), q < 4 → st < 16 → s.now < 2 ^ 64 → t.elem < 90 →
    e = (s.completionEntry q t st d late).toNat →
    bitsOf e 0 14 = dTaskId t.d ∧ bitsOf e 14 2 = q ∧ bitsOf e 16 4 = st ∧ bitsOf e 20 1 = bit (t.st == .running && decide (0 < t.depth)) ∧
    bitsOf e 21 1 = bit t.risk ∧ bitsOf e 22 1 = bit t.preempted ∧ bitsOf e 23 1 = bit late ∧ bitsOf e 64 64 = s.now ∧
    bitsOf e 128 64 = dUser t.d)

/-- Completion queues, fetched variants, flushes and the TSK registers with behaviour of their own (R161, R162, R169,
R170, R171, R173). -/
def Obligations.QueuesAndControls : Prop :=
  (∀ (p : Packet) (q : Nat) (s : State) (w : CqWrite), quadOfDispatcher p.dest.toNat = some q → (s.dsp q).writes = [w] →
    w.tag = p.tag → w.done = false → s.arrives p = true → 8 ≤ p.cmd.toNat → (s.dsp q).cbuf = [] →
    (p.cmd.toNat = 9 → Leads (.cqEntryWritten p) s (fun t => t.get F.TSK_CQ_IDX.PROD (cqKey q w.queue) =
        (s.get F.TSK_CQ_IDX.PROD (cqKey q w.queue) + 1) % 2 ^ 16 ∧
      t.get F.TSK_CQ_IDX.CONS (cqKey q w.queue) = s.get F.TSK_CQ_IDX.CONS (cqKey q w.queue) ∧ (t.dsp q).writes = [])) ∧
    (p.cmd.toNat = 10 → w.queue < 16 → Leads (.cqEntryWritten p) s (fun t => t.isSet F.TSK_CQ_CFG.EN (cqKey q w.queue) = false ∧
      t.isSet F.TSK_CQ_CFG.CQ_ERR (cqKey q w.queue) = true ∧ (t.dsp q).writes = [] ∧ (t.dsp q).cbuf = [] ∧
      t.get F.TSK_CQ_IDX.PROD (cqKey q w.queue) = s.get F.TSK_CQ_IDX.PROD (cqKey q w.queue)))) ∧
  (∀ (p : Packet) (s : State), (quadOfDispatcher p.dest.toNat = none ∨ s.arrives p = false) →
    exec (.cqEntryWritten p) s = .next s ∧ exec (.variantFetchComplete p) s = .next s) ∧
  (∀ (acc : Accessor) (v : Word) (s : State) (k : Nat), Writes s acc 0 R.TSK_CQ_IDX 0 k → (s.dsp (k / 16)).cbuf = [] →
    Leads (.tskCqIdxWrite acc v) s (fun t => t.get F.TSK_CQ_IDX.CONS k = v.toNat / 2 ^ 16 ∧
      t.get F.TSK_CQ_IDX.PROD k = s.get F.TSK_CQ_IDX.PROD k)) ∧
  (∀ (p : Packet) (q : Nat) (s u : State) (k : Task), quadOfDispatcher p.dest.toNat = some q →
    (s.dsp q).pool.find? (fun t => t.fetch == some p.tag) = some k → s.arrives p = true → 8 ≤ p.cmd.toNat →
    u = (s.takeResponse p).fetchDone q k p →
    Leads (.variantFetchComplete p) s (fun t => t = s.afterReady u q)) ∧
  (∀ (s : State) (q : Nat) (k : Task) (p : Packet) (v : BitVec 512), v = BitVec.ofNat 512 (leValue (unitBytes p.data 0 64)) →
    ((p.cmd.toNat ≠ 8 ∨ pktPoison p = true ∨ variantFails (dPrio k.d) (s.acctCap q) v = true) →
      (s.fetchDone q k p).isSet F.TSK_STATUS.VAR_FAIL q = true ∧
      ∀ t ∈ ((s.fetchDone q k p).dsp q).pool, t.handle = k.handle → t.want = none ∧ t.fetch = none) ∧
    (p.cmd.toNat = 8 → pktPoison p = false → variantFails (dPrio k.d) (s.acctCap q) v = false → dVar v = 0 →
      s.fetchDone q k p = (s.setTask q k.handle (fun t => { t with fetch := none, vars := t.vars ++ [v], want := none })))) ∧
  (∀ (acc : Accessor) (v : Word) (s u : State) (q : Nat), Writes s acc 0 R.TSK_FLUSH 0 q → u = s.ungate 7 →
    Leads (.tskFlush acc v) s (fun t => t = u.afterReady (u.flushTasks q (v.toNat % 2 ^ 16)).2 q)) ∧
  (∀ (s : State) (q mask : Nat), (∀ k ∈ (s.dsp q).pool, k.st ≠ .running → bitAt mask (dPrio k.d) = true →
      ∀ j ∈ ((s.flushTasks q mask).2.dsp q).pool, j.handle ≠ k.handle) ∧
    (mask = 0xFFFF → ((s.flushTasks q mask).2.dsp q).pend = []) ∧
    (s.flushTasks q mask).1 =
      min ((s.dsp q).pool.filter (fun k => k.st != .running && bitAt mask (dPrio k.d))).length 65535) ∧
  (∀ (acc : Accessor) (v : Word) (s : State) (q : Nat), Writes s acc 0 R.TSK_CTRL 0 q → Leads (.pendClr acc v) s (fun t =>
    t.reg R.TSK_CTRL q % 8 = v.toNat % 8 ∧ (bitAt v.toNat 3 = true → (t.dsp q).pend = [] ∧ t.get F.TSK_SIG_STATUS.PEND q = 0) ∧
    (bitAt v.toNat 3 = false → (t.dsp q).pend = (s.dsp q).pend) ∧ (t.dsp q).pool = (s.dsp q).pool)) ∧
  (∀ (acc : Accessor) (v : Word) (s : State) (q : Nat), Writes s acc 0 R.TSK_STAT_CLR 0 q → bitAt v.toNat 0 = true →
    Leads (.tskStatClr acc v) s (fun t => t.pair R.TSK_DISPATCHED_LO R.TSK_DISPATCHED_HI q = 0 ∧ t.reg R.TSK_LATE_RISK q = 0 ∧
      t.reg R.TSK_VARIANTS q = 0 ∧ t.reg R.TSK_DROPS q = 0 ∧ t.reg R.TSK_LATE_DONE q = 0 ∧
      HubKeep s t [regKey R.TSK_DISPATCHED_LO q, regKey R.TSK_DISPATCHED_HI q, regKey R.TSK_LATE_RISK q,
        regKey R.TSK_VARIANTS q, regKey R.TSK_DROPS q, regKey R.TSK_LATE_DONE q])) ∧
  (∀ (acc : Accessor) (v : Word) (s : State) (q : Nat), Writes s acc 0 R.TSK_TICK 0 q → Leads (.tskTickWrite acc v) s (fun t =>
    t.get F.TSK_TICK.NS q = min 16000 (max 250 (v.toNat % 2 ^ 14)) / 2 * 2 ∧
    ((v.toNat % 2 ^ 14 < 250 ∨ 16000 < v.toNat % 2 ^ 14) → t.isSet F.TSK_STATUS.TICK_CLAMP q = true) ∧
    (∀ n, n = min 16000 (max 250 (v.toNat % 2 ^ 14)) / 2 * 2 → t.dsp q = (if n = s.get F.TSK_TICK.NS q then s.dsp q
      else { s.dsp q with lastTick := max (s.dsp q).lastTick (s.now / n * n + 1) })) ∧
    RegsKeep s t [regKey R.CLK_GATE_WAKES 0, regKey R.TSK_TICK q, regKey R.TSK_STATUS q] ∧ t.store = s.store ∧ t.net = s.net))

/-- Bundles open, act slot by slot and close: NOP, illegal bundles, loops, delay slots and the step count (R174, R178,
R185, R190, R196, R201, R214). -/
def Obligations.SlotSequencing : Prop :=
  (∀ (n : Fin 256) (s : State) (b : BitVec 128) (c : Core) (w : Nat), s.core n.val = c → s.mayIssue n.val = true →
    (s.bpDue n.val).isSome = false → c.pOld = [] → localWord n.val c.pc = some w → s.damageAt w = none →
    s.poisonAt w = false → s.word w = b →
    (bundleLegal c.pc b = true →
      ((List.range 4).flatMap (fun k => slotRegs k (bundleSlot b k))).any (fun r => c.busy.contains r) = false →
      s.ctlWaits n.val (bundleSlot b 3) = false → bundleSlot b 0 = 0 →
      exec (.nop n 0) s = .next ((s.setCore n.val { c with slot := 1, bundle := b }).slotDone n.val 0)) ∧
    (bundleLegal c.pc b = false → exec (.illegalBundle n) s = .next
      (((s.setCore n.val { c with slot := 4, bundle := 0 }).coreErr n.val 0x01 0 c.pc).slotDone n.val 3))) ∧
  (∀ (n : Fin 256) (k : Fin 4) (s : State) (c : Core), AtSlot s n.val k.val c 0 →
    exec (.nop n k) s = .next (s.slotDone n.val k.val)) ∧
  (∀ (n : Fin 256) (s : State) (c : Core) (w : Nat), AtSlot s n.val 3 c w →
    (opOf w = 0x18 → syncForm w = 0 → exec (.syncMem n) s = .next (s.slotDone n.val 3)) ∧
    (opOf w = 0x18 → syncForm w = 1 → exec (.syncP n) s = .next ((s.setCore n.val { c with
      pOld := c.pOld.filter (fun e => e.2.2 == c.step) }).slotDone n.val 3)) ∧
    (opOf w = 0x19 → exec (.waitev n) s = .next (s.slotDone n.val 3)) ∧
    (opOf w ≠ 0x19 → exec (.waitev n) s = .next s) ∧ (opOf w ≠ 0x18 → exec (.syncMem n) s = .next s)) ∧
  (∀ (n k : Nat) (s : State) (c : Core) (w : Nat), AtSlot s n k c w → k < 3 →
    s.slotDone n k = s.setCore n { c with slot := k + 2 }) ∧
  (∀ (n : Nat) (s : State) (c : Core) (w : Nat), AtSlot s n 3 c w → c.flight = [] → c.stepping = false →
    (∀ l < 3, c.la l = true → c.reg (rLE l) ≠ c.pc) →
    (c.br = none → s.slotDone n 3 = s.setCore n { c with
      step := c.step + 1
      slot := 0
      bundle := 0
      skip := none
      pc := c.skip.getD (c.pc + 16) % 0x10000
      bpDone := false }) ∧
    (∀ x, c.br = some x → 1 < x.left → s.slotDone n 3 = s.setCore n { c with
      step := c.step + 1
      slot := 0
      bundle := 0
      skip := none
      br := some { x with left := x.left - 1 }
      pc := c.skip.getD (c.pc + 16) % 0x10000
      bpDone := false }) ∧
    (∀ x, c.br = some x → x.left = 1 → s.slotDone n 3 = s.setCore n {
      (match x.stat with | some v => c.setReg rStat (bitsSet c.stat 0 24 v) | none => c) with
      step := c.step + 1
      slot := 0
      bundle := 0
      skip := none
      br := none
      pc := x.target.getD (c.skip.getD (c.pc + 16)) % 0x10000
      bpDone := false })) ∧
  (∀ (n l : Nat) (s : State) (c : Core) (w : Nat), AtSlot s n 3 c w → c.flight = [] → c.stepping = false → c.br = none →
    c.skip = none → l < 3 → c.reg (rLC l) < 2 ^ 32 → c.la l = true → c.reg (rLE l) = c.pc → (∀ m < l, c.la m = true → c.reg (rLE m) ≠ c.pc) →
    (1 < c.reg (rLC l) → s.slotDone n 3 = s.setCore n { c.setReg (rLC l) (c.reg (rLC l) - 1) with
      step := c.step + 1
      slot := 0
      bundle := 0
      pc := c.reg (rLS l) % 0x10000
      bpDone := false }) ∧
    (c.reg (rLC l) = 1 → s.slotDone n 3 = s.setCore n { (c.setReg (rLC l) 0).setStat (4 + l) false with
      step := c.step + 1
      slot := 0
      bundle := 0
      pc := (c.pc + 16) % 0x10000
      bpDone := false }))

/-- The MAC slot: complex products into accumulators, their rounding and fitting, and accumulator moves (R182, R183, R184,
R185, R205, R217, R223). -/
def Obligations.MacSlot : Prop :=
  (∀ (n : Fin 256) (s : State) (c : Core) (w : Nat), AtSlot s n.val 2 c w →
    (cDual w = false →
      (opOf w = 1 → exec (.cma n) s = .next ((withFlights s n.val 2 (if cFmt w = 0 then 4 else 5)
        [macResult c w false true 0]).slotDone n.val 2)) ∧
      (opOf w = 2 → exec (.cmaj n) s = .next ((withFlights s n.val 2 (if cFmt w = 0 then 4 else 5)
        [macResult c w true true 0]).slotDone n.val 2)) ∧
      (opOf w = 3 → exec (.cmul n) s = .next ((withFlights s n.val 2 (if cFmt w = 0 then 4 else 5)
        [macResult c w false false 0]).slotDone n.val 2))) ∧
    (cDual w = true →
      (opOf w = 1 → exec (.cma n) s = .next ((withFlights s n.val 2 (if cFmt w = 0 then 4 else 5)
        [macResult c w false true 0, macResult c w false true 1]).slotDone n.val 2)) ∧
      (opOf w = 2 → exec (.cmaj n) s = .next ((withFlights s n.val 2 (if cFmt w = 0 then 4 else 5)
        [macResult c w true true 0, macResult c w true true 1]).slotDone n.val 2)) ∧
      (opOf w = 3 → exec (.cmul n) s = .next ((withFlights s n.val 2 (if cFmt w = 0 then 4 else 5)
        [macResult c w false false 0, macResult c w false false 1]).slotDone n.val 2))) ∧
    (∀ p v o, opOf w = 4 → c.reg (rPred (predOf w)) = p →
      narrow (nFmt w) (c.statBit 3) (c.statBit 2 || nS w) (nN w) (c.reg (rAcc (nC w))) p = (v, o) →
      exec (.rndn n) s = .next ((withFlights s n.val 2 2 [{ flight (nVd w) v (c.poisoned (rAcc (nC w))) with
        mask := vecMask (nFmt w) p
        ovf := o }]).slotDone n.val 2)) ∧
    (opOf w = 5 → exec (.movVAcc n) s = .next ((withFlights s n.val 2 2 ((List.range 3).map (fun k =>
      flight (nVd w + k) (bitsOf (c.reg (rAcc (nC w))) (128 * k) 128) (c.poisoned (rAcc (nC w)))))).slotDone n.val 2)) ∧
    (opOf w = 6 → exec (.movAccV n) s = .next ((withFlights s n.val 2 4 [flight (rAcc (nC w))
      (c.reg (nVd w) + c.reg (nVd w + 1) * 2 ^ 128 + c.reg (nVd w + 2) * 2 ^ 256)
      (c.poisoned (nVd w) || c.poisoned (nVd w + 1) || c.poisoned (nVd w + 2))]).slotDone n.val 2)) ∧
    (opOf w = 7 → exec (.movAccZero n) s = .next
      ((withFlights s n.val 2 4 [flight (rAcc (nC w)) 0 false]).slotDone n.val 2))) ∧
  (∀ (c : Core) (w l : Nat) (conj : Bool) (p : Nat) (ai aq bi bq x : Int), cFmt w = 0 → l < 4 →
    c.reg (rPred (predOf w)) = p →
    ai = toSigned 16 (bitsOf (c.reg (cVa w)) (32 * l) 16) → aq = toSigned 16 (bitsOf (c.reg (cVa w)) (32 * l + 16) 16) →
    bi = toSigned 16 (bitsOf (c.reg (cVb w)) (32 * l) 16) → bq = toSigned 16 (bitsOf (c.reg (cVb w)) (32 * l + 16) 16) →
    x = (if conj then -bq else bq) →
    bitsOf ((c.landOne (macResult c w conj true 0)).reg (rAcc (cC w))) (96 * l) 48 =
      (bitsOf (c.reg (rAcc (cC w))) (96 * l) 48 + (if bitAt p l then ofSigned 48 (ai * bi - aq * x) else 0)) % 2 ^ 48 ∧
    bitsOf ((c.landOne (macResult c w conj true 0)).reg (rAcc (cC w))) (96 * l + 48) 48 =
      (bitsOf (c.reg (rAcc (cC w))) (96 * l + 48) 48 + (if bitAt p l then ofSigned 48 (ai * x + aq * bi) else 0)) % 2 ^ 48 ∧
    bitsOf ((c.landOne (macResult c w conj false 0)).reg (rAcc (cC w))) (96 * l) 48 =
      (if bitAt p l then ofSigned 48 (ai * bi - aq * x) else bitsOf (c.reg (rAcc (cC w))) (96 * l) 48)) ∧
  (∀ (v : Int) (n : Nat),
    2 * (v - roundShift false v n * ((2 ^ n : Nat) : Int)).natAbs ≤ 2 ^ n ∧
    (2 * (v - roundShift false v n * ((2 ^ n : Nat) : Int)).natAbs = 2 ^ n → roundShift false v n % 2 = 0) ∧
    roundShift true v n * ((2 ^ n : Nat) : Int) ≤ v ∧ v < (roundShift true v n + 1) * ((2 ^ n : Nat) : Int)) ∧
  (∀ (w : Nat) (v : Int), 0 < w →
    (∀ x : Bool, -((2 ^ (w - 1) : Nat) : Int) ≤ v → v < ((2 ^ (w - 1) : Nat) : Int) →
      fitTo w x v = (ofSigned w v, false) ∧ toSigned w (ofSigned w v) = v) ∧
    (((2 ^ (w - 1) : Nat) : Int) ≤ v → fitTo w true v = (2 ^ (w - 1) - 1, true) ∧ fitTo w false v = (ofSigned w v, false)) ∧
    (v < -((2 ^ (w - 1) : Nat) : Int) → fitTo w true v = (2 ^ (w - 1), true) ∧ fitTo w false v = (ofSigned w v, false)))

/-- Vector, scalar and move operations of the control/vector slot (R181, R205, R217, R225, R226). -/
def Obligations.VectorSlot : Prop :=
  (∀ (n : Fin 256) (s : State) (c : Core) (w p e : Nat) (z : Bool), AtSlot s n.val 3 c w →
    c.reg (rPred (predOf w)) = p → elemBits (bitsOf w 10 1) = e → (bitsOf w 9 1 == 1 || c.statBit 2) = z →
    (∀ r, opOf w = 0x01 → lanes e z p (fun k => elem e (c.reg (vS w)) k + elem e (c.reg (vT w)) k) = r →
      exec (.vadd n) s = .next ((withFlights s n.val 3 1 [{ flight (vD w) r.1 (c.poisoned (vS w) || c.poisoned (vT w)) with
        mask := predMask p
        ovf := r.2 }]).slotDone n.val 3)) ∧
    (∀ r, opOf w = 0x02 → lanes e z p (fun k => elem e (c.reg (vS w)) k - elem e (c.reg (vT w)) k) = r →
      exec (.vsub n) s = .next ((withFlights s n.val 3 1 [{ flight (vD w) r.1 (c.poisoned (vS w) || c.poisoned (vT w)) with
        mask := predMask p
        ovf := r.2 }]).slotDone n.val 3))) ∧
  (∀ (n : Fin 256) (s : State) (c : Core) (w y : Nat) (q : Bool), AtSlot s n.val 3 c w →
    (aI w = true → y = ofSigned 32 (toSigned 12 (bitsOf w 5 12)) ∧ q = c.poisoned (rA (aS w))) →
    (aI w = false → y = c.reg (rA (aT w)) ∧ q = (c.poisoned (rA (aS w)) || c.poisoned (rA (aT w)))) →
    (opOf w = 0x03 → exec (.vaddA n) s = .next
      ((withFlights s n.val 3 1 [flight (rA (aD w)) ((c.reg (rA (aS w)) + y) % 2 ^ 32) q]).slotDone n.val 3)) ∧
    (opOf w = 0x04 → exec (.vsubA n) s = .next
      ((withFlights s n.val 3 1 [flight (rA (aD w)) ((c.reg (rA (aS w)) + 2 ^ 32 - y) % 2 ^ 32) q]).slotDone n.val 3))) ∧
  (∀ (n : Fin 256) (s : State) (c : Core) (w p v : Nat), AtSlot s n.val 3 c w → c.reg (rPred (predOf w)) = p →
    c.reg (vS w) = v →
    (shfIs 0 w = true → exec (.vshfPerm n) s = .next ((withFlights s n.val 3 1 [{
      flight (vD w) (permute w v) (c.poisoned (vS w)) with mask := predMask p }]).slotDone n.val 3)) ∧
    (shfIs 1 w = true → exec (.vshfShl n) s = .next ((withFlights s n.val 3 1 [{
      flight (vD w) (mapElems (elemBits (shE w)) v (· * 2 ^ shSh w)) (c.poisoned (vS w)) with
      mask := predMask p }]).slotDone n.val 3)) ∧
    (shfIs 2 w = true → exec (.vshfShr n) s = .next ((withFlights s n.val 3 1 [{
      flight (vD w) (mapElems (elemBits (shE w)) v (· / 2 ^ shSh w)) (c.poisoned (vS w)) with
      mask := predMask p }]).slotDone n.val 3)) ∧
    (shfIs 3 w = true → exec (.vshfAsr n) s = .next ((withFlights s n.val 3 1 [{
      flight (vD w) (mapElems (elemBits (shE w)) v (fun x => ofSigned (elemBits (shE w))
        (toSigned (elemBits (shE w)) x / ((2 ^ shSh w : Nat) : Int)))) (c.poisoned (vS w)) with
      mask := predMask p }]).slotDone n.val 3))) ∧
  (∀ (n : Fin 256) (s : State) (c : Core) (w p e : Nat) (z : Bool) (x y : Nat) (r q : Nat × Bool), AtSlot s n.val 3 c w → opOf w = 0x06 →
    c.reg (rPred (predOf w)) = p → elemBits (bitsOf w 10 1) = e → (bitsOf w 8 1 == 1 || c.statBit 2) = z →
    c.reg (vS w) = x → c.reg (vT w) = y → bitsOf w 9 1 = 0 →
    fitAll e z (128 / e) (fun k => sampleOn (bitsOf w 10 1) p (k / 2)) (fun k => elem e x k + elem e y k) = r →
    fitAll e z (128 / e) (fun k => sampleOn (bitsOf w 10 1) p (k / 2)) (fun k => elem e x k - elem e y k) = q →
    exec (.bfly n) s = .next ((withFlights s n.val 3 1 [
      { flight (vD w) r.1 (c.poisoned (vS w) || c.poisoned (vT w)) with
        mask := vecMask (bitsOf w 10 1) p
        ovf := r.2 },
      { flight (vD w + 1) q.1 (c.poisoned (vS w) || c.poisoned (vT w)) with
        mask := vecMask (bitsOf w 10 1) p
        ovf := q.2 }]).slotDone n.val 3)) ∧
  (∀ (n : Fin 256) (s : State) (c : Core) (w p e : Nat) (z : Bool) (x y : Nat) (r q : Nat × Bool), AtSlot s n.val 3 c w → opOf w = 0x06 →
    c.reg (rPred (predOf w)) = p → elemBits (bitsOf w 10 1) = e → (bitsOf w 8 1 == 1 || c.statBit 2) = z →
    c.reg (vS w) = x → c.reg (vT w) = y → bitsOf w 9 1 = 1 →
    fitAll e z (128 / e) (fun k => sampleOn (bitsOf w 10 1) p (k / 2))
      (fun k => roundShift (c.statBit 3) (elem e x k + elem e y k) 1) = r →
    fitAll e z (128 / e) (fun k => sampleOn (bitsOf w 10 1) p (k / 2))
      (fun k => roundShift (c.statBit 3) (elem e x k - elem e y k) 1) = q →
    exec (.bfly n) s = .next ((withFlights s n.val 3 1 [
      { flight (vD w) r.1 (c.poisoned (vS w) || c.poisoned (vT w)) with
        mask := vecMask (bitsOf w 10 1) p
        ovf := r.2 },
      { flight (vD w + 1) q.1 (c.poisoned (vS w) || c.poisoned (vT w)) with
        mask := vecMask (bitsOf w 10 1) p
        ovf := q.2 }]).slotDone n.val 3)) ∧
  (∀ (n : Fin 256) (s : State) (c : Core) (w p e v : Nat) (o : Bool), AtSlot s n.val 3 c w → opOf w = 0x07 →
    c.reg (rPred (predOf w)) = p → elemBits (satE w) = e →
    (lanes e false p (fun k => max (-((2 ^ satW w : Nat) : Int)) (min (((2 ^ satW w : Nat) : Int) - 1)
      (elem e (c.reg (vS w)) k)))).1 = v →
    o = (List.range (128 / e)).any (fun k => elemOn e p k && decide (
      elem e (c.reg (vS w)) k < -((2 ^ satW w : Nat) : Int) ∨ ((2 ^ satW w : Nat) : Int) ≤ elem e (c.reg (vS w)) k)) →
    exec (.sat n) s = .next ((withFlights s n.val 3 1 [{ flight (vD w) v (c.poisoned (vS w)) with
      mask := predMask p
      ovf := o }]).slotDone n.val 3)) ∧
  (∀ (n : Fin 256) (s : State) (c : Core) (w : Nat), AtSlot s n.val 3 c w →
    (opOf w = 0x09 → bitsOf w 21 1 = 0 → exec (.movi n) s = .next ((withFlights s n.val 3 1
      [flight (rA (aD w)) (ofSigned 32 (toSigned 16 (bitsOf w 5 16))) false]).slotDone n.val 3)) ∧
    (opOf w = 0x09 → bitsOf w 21 1 = 1 → exec (.movi n) s = .next ((withFlights s n.val 3 1
      [flight (rA (aD w)) (bitsOf w 5 16 * 2 ^ 16 + c.reg (rA (aD w)) % 2 ^ 16) false]).slotDone n.val 3)) ∧
    (opOf w = 0x08 → (∀ l < 3, c.la l = true → movDst w ≠ rLS l ∧ movDst w ≠ rLE l) →
      (c.poisoned (movSrc w) = true → regHasPoison (movDst w) = true) → movDst w ≠ rStat → movDst w ≠ rPred 0 →
      exec (.mov n) s = .next ((withFlights s n.val 3 1 [flight (movDst w)
        (c.reg (movSrc w) % 2 ^ coreRegWidth (movDst w)) (c.poisoned (movSrc w))]).slotDone n.val 3)) ∧
    (opOf w = 0x08 → c.poisoned (movSrc w) = false → movDst w = rStat → exec (.mov n) s = .next ((s.setCore n.val
      (c.setReg rStat (bitsSet (c.reg (movSrc w) % 2 ^ 24) 4 3 (bitsOf c.stat 4 3)))).slotDone n.val 3)) ∧
    (opOf w = 0x08 → c.poisoned (movSrc w) = false → movDst w = rPred 0 →
      exec (.mov n) s = .next (s.slotDone n.val 3)) ∧
    (opOf w = 0x08 → (∃ l < 3, c.la l = true ∧ (movDst w = rLS l ∨ movDst w = rLE l)) →
      exec (.mov n) s = .next ((s.coreErr n.val 0x02 0 c.pc).slotDone n.val 3)) ∧
    (opOf w = 0x08 → (∀ l < 3, c.la l = true → movDst w ≠ rLS l ∧ movDst w ≠ rLE l) → c.poisoned (movSrc w) = true →
      regHasPoison (movDst w) = false → exec (.mov n) s = .next ((s.coreErr n.val 0x08 0 c.pc).slotDone n.val 3))) ∧
  (∀ (e p k : Nat) (z : Bool) (f : Nat → Int), (e = 16 ∨ e = 32) → k < 128 / e → elemOn e p k = true →
    bitsOf (lanes e z p f).1 (e * k) e = (fitTo e z (f k)).1 ∧
    ((lanes e z p f).2 = true ↔ ∃ j < 128 / e, elemOn e p j = true ∧ (fitTo e z (f j)).2 = true))

/-- The memory slots: addresses and their modification, loads and stores of a core's memories, windows and reservations
(R177, R189, R192, R204, R205, R207, R208, R217, R219, R220, R221, R222). -/
def Obligations.MemorySlots : Prop :=
  (∀ (n : Fin 256) (s : State) (c : Core) (w a k : Nat), Unwatched s n.val → mAddr c w = a →
    c.poisoned (rA (mAb w)) = false → localWord n.val (a - a % (if mSz w = 1 then 4 else 16)) = some k →
    (AtSlot s n.val 0 c w → opOf w = 1 → (a < 0x10000 ∨ 0x100000 ≤ a ∧ a < 0x120000) →
      s.damageAt k = none →
      exec (.ldx n) s = .next (((withFlights s n.val 0 3 [{
        flight (mDest w) (laneValue (accessLane (mSz w) a) (s.word k)) (s.poisonAt k) with
        load := some (a - a % (if mSz w = 1 then 4 else 16)) }]).mModify n.val 0 w c).slotDone n.val 0)) ∧
    (AtSlot s n.val 1 c w → opOf w = 1 → 0x200000 ≤ a → a < 0x220000 →
      s.damageAt k = none →
      exec (.ldy n) s = .next (((withFlights s n.val 1 3 [{
        flight (mDest w) (laneValue (accessLane (mSz w) a) (s.word k)) (s.poisonAt k) with
        load := some (a - a % (if mSz w = 1 then 4 else 16)) }]).mModify n.val 1 w c).slotDone n.val 1)) ∧
    (AtSlot s n.val 0 c w → opOf w = 1 → 0x1000000 ≤ a → a < 0x1200000 → s.damageAt k = none →
      exec (.ldx n) s = .next ((((s.portA n.val k none).setCore n.val { c with accesses := c.accesses ++ [{
        kind := .load (mDest w) (accessLane (mSz w) a)
        addr := a - a % (if mSz w = 1 then 4 else 16)
        tag := none
        unit := ⟨s.word k, s.poisonAt k⟩ }] }).mModify n.val 0 w c).slotDone n.val 0)) ∧
    (AtSlot s n.val 1 c w → opOf w = 1 → 0x1000000 ≤ a → a < 0x1200000 → s.damageAt k = none →
      exec (.ldy n) s = .next ((((s.portA n.val k none).setCore n.val { c with accesses := c.accesses ++ [{
        kind := .load (mDest w) (accessLane (mSz w) a)
        addr := a - a % (if mSz w = 1 then 4 else 16)
        tag := none
        unit := ⟨s.word k, s.poisonAt k⟩ }] }).mModify n.val 1 w c).slotDone n.val 1)) ∧
    (AtSlot s n.val 0 c w → opOf w = 2 → 0x1000000 ≤ a → a < 0x1200000 → (storeData c w a).1 ≠ 0 →
      exec (.stx n) s = .next (((((s.settleWord k).portA n.val k (some ((storeData c w a).1, c.poisoned (mDest w)))).coreStore n.val k
        (storeData c w a).1 (storeData c w a).2 (c.poisoned (mDest w))).mModify n.val 0 w c).slotDone n.val 0)) ∧
    (AtSlot s n.val 1 c w → opOf w = 2 → 0x1000000 ≤ a → a < 0x1200000 → (storeData c w a).1 ≠ 0 →
      exec (.sty n) s = .next (((((s.settleWord k).portA n.val k (some ((storeData c w a).1, c.poisoned (mDest w)))).coreStore n.val k
        (storeData c w a).1 (storeData c w a).2 (c.poisoned (mDest w))).mModify n.val 1 w c).slotDone n.val 1)) ∧
    (AtSlot s n.val 0 c w → opOf w = 2 → 0x100000 ≤ a → a < 0x120000 → (storeData c w a).1 ≠ 0 →
      exec (.stx n) s = .next (((s.coreStore n.val k (storeData c w a).1 (storeData c w a).2
        (c.poisoned (mDest w))).mModify n.val 0 w c).slotDone n.val 0)) ∧
    (AtSlot s n.val 0 c w → opOf w = 2 → a < 0x10000 → (storeData c w a).1 ≠ 0 →
      exec (.stx n) s = .next ((((s.setCore n.val { c with
        pOld := c.pOld.filter (fun e => decide (c.step ≤ e.2.2 + 8)) ++ [(a / 16 * 16, s.word k, c.step)] }).coreStore
        n.val k (storeData c w a).1 (storeData c w a).2 (c.poisoned (mDest w))).mModify n.val 0 w c).slotDone n.val 0)) ∧
    (AtSlot s n.val 1 c w → opOf w = 2 → 0x200000 ≤ a → a < 0x220000 → (storeData c w a).1 ≠ 0 →
      exec (.sty n) s = .next (((s.coreStore n.val k (storeData c w a).1 (storeData c w a).2
        (c.poisoned (mDest w))).mModify n.val 1 w c).slotDone n.val 1)) ∧
    (AtSlot s n.val 0 c w → opOf w = 2 → (a < 0x10000 ∨ 0x100000 ≤ a ∧ a < 0x120000 ∨ 0x1000000 ≤ a ∧ a < 0x1200000) →
      (storeData c w a).1 = 0 → exec (.stx n) s = .next ((s.mModify n.val 0 w c).slotDone n.val 0))) ∧
  (∀ (n : Fin 256) (s : State) (c : Core) (w a : Nat), Unwatched s n.val → mAddr c w = a →
    c.poisoned (rA (mAb w)) = false → AtSlot s n.val 0 c w → 0x300000 ≤ a → a < 0x300200 → mSz w = 1 →
    (opOf w = 1 → exec (.ldx n) s = .next (((s.setCore n.val { c with accesses := c.accesses ++ [{
      kind := .load (mDest w) (some (a / 4 % 4))
      addr := a - a % 4
      tag := none
      unit := ⟨BitVec.ofNat 128 (s.pageRead n.val (a - a % 4 - 0x300000) * 2 ^ (32 * (a / 4 % 4))), false⟩ }] }).mModify
      n.val 0 w c).slotDone n.val 0)) ∧
    (opOf w = 2 → exec (.stx n) s = .next (((s.pageWrite n.val (a - a % 4 - 0x300000)
      (laneValue (some (a / 4 % 4)) (storeData c w a).2)).mModify n.val 0 w c).slotDone n.val 0))) ∧
  (∀ (c : Core) (w a : Nat),
    (mSz w = 1 → (storeData c w a).1 = 0xF * 2 ^ (4 * (a / 4 % 4)) ∧
      (storeData c w a).2 = BitVec.ofNat 128 (c.reg (mDest w) * 2 ^ (32 * (a / 4 % 4)))) ∧
    (mSz w ≠ 1 → (storeData c w a).2 = BitVec.ofNat 128 (c.reg (mDest w)) ∧
      ∀ l < 4, ∀ j < 4, bitAt (storeData c w a).1 (4 * l + j) = bitAt (c.reg (rPred (predOf w))) l)) ∧
  (∀ (s : State) (n slot w : Nat) (c : Core), (s.core n).slot ≠ 0 →
    (mMode w = 0 → s.mModify n slot w c = s ∧ mAddr c w = addrAdd (c.reg (rA (mAb w))) (mInc w * incUnit w)) ∧
    (mMode w = 2 → mAddr c w = addrAdd (c.reg (rA (mAb w))) (mInc w * incUnit w) ∧ s.mModify n slot w c =
      withFlights s n slot 1 [flight (rA (mAb w)) (addrAdd (c.reg (rA (mAb w))) (mInc w * incUnit w)) false]) ∧
    (mMode w = 3 → mAddr c w = c.reg (rA (mAb w)) ∧ s.mModify n slot w c =
      withFlights s n slot 1 [flight (rA (mAb w)) (addrAdd (c.reg (rA (mAb w))) (mInc w * incUnit w)) false]) ∧
    (∀ t v, mMode w = 1 → s.modify (c.reg (rA (mAb w))) (c.reg (rM (mMod w))) (mInc w * 16) = (t, v) →
      mAddr c w = c.reg (rA (mAb w)) ∧ s.mModify n slot w c = withFlights t n slot 1 [flight (rA (mAb w)) v false])) ∧
  (∀ (s : State) (a m : Nat) (inc : Int),
    (bitsOf m 0 20 = 0 → bitsOf m 20 4 = 0 → s.modify a m inc = (s, addrAdd a inc)) ∧
    (∀ k, bitsOf m 20 4 = 0 → 0 < bitsOf m 0 20 → bitsOf m 0 20 % 16 = 0 → inc.natAbs ≤ bitsOf m 0 20 →
      bitsOf m 0 20 ≤ 2 ^ k → 2 ^ k < 2 * bitsOf m 0 20 →
      s.modify a m inc = (s, a / 2 ^ k * 2 ^ k + ((((a % 2 ^ k : Nat) : Int) + inc).emod (bitsOf m 0 20)).toNat)) ∧
    (∀ b v, bitsOf m 20 4 = b → 0 < b → b ≤ 12 → (s.modify a m inc).2 = v → (s.modify a m inc).1 = s ∧
      v % 16 = a % 16 ∧ v / 2 ^ (4 + b) = a / 2 ^ (4 + b) ∧
      revBits b (bitsOf v 4 b) = ofSigned b (revBits b (bitsOf a 4 b) + inc / 16)) ∧
    (∀ b v, ∀ j < b, bitAt (revBits b v) j = bitAt v (b - 1 - j))) ∧
  (∀ (n : Fin 256) (s : State) (c : Core) (w a k i : Nat), AtSlot s n.val 0 c w → Unwatched s n.val →
    localOf (a - a % (if mSz w = 1 then 4 else 16)) = .window k → i = winKey n.val k → s.isSet F.TC_WIN_CTRL.EN i = true →
    (opOf w = 3 → mAddr c w = a → c.poisoned (rA (mAb w)) = false →
      exec (.ldg n) s = .next ((((s.setCore n.val { c with accesses := c.accesses ++ [{
        kind := .load (mDest w) (accessLane (mSz w) a)
        addr := a - a % (if mSz w = 1 then 4 else 16)
        tag := some (s.freshTag (epCore n.val)) }] }).inject {
          src := BitVec.ofNat 10 (epCore n.val)
          cmd := BitVec.ofNat 4 cmdRead
          vc := BitVec.ofNat 2 (s.get F.TC_WIN_CTRL.VC i)
          tag := s.freshTag (epCore n.val)
          len := 0
          key := BitVec.ofNat 8 (s.get F.TC_WIN_CTRL.KEY i)
          ordered := s.isSet F.TC_WIN_CTRL.ORDERED i
          be := BitVec.ofNat 16 (if mSz w = 1 then 0xF * 2 ^ (4 * (a / 4 % 4)) else 0xFFFF)
          addr := BitVec.ofNat 48 (s.winAddr n.val k (a - a % (if mSz w = 1 then 4 else 16)))
          data := []
          acc := .tahr
          wide := mSz w != 1 }).mModify n.val 0 w c).slotDone n.val 0)) ∧
    (opOf w = 4 → mAddr c w = a → c.poisoned (rA (mAb w)) = false → s.isSet F.TC_WIN_CTRL.POSTED i = true →
      exec (.stg n) s = .next (((s.inject {
          src := BitVec.ofNat 10 (epCore n.val)
          cmd := BitVec.ofNat 4 cmdPosted
          vc := BitVec.ofNat 2 (s.get F.TC_WIN_CTRL.VC i)
          tag := s.freshTag (epCore n.val)
          len := 0
          key := BitVec.ofNat 8 (s.get F.TC_WIN_CTRL.KEY i)
          ordered := s.isSet F.TC_WIN_CTRL.ORDERED i
          be := BitVec.ofNat 16 (storeData c w a).1
          addr := BitVec.ofNat 48 (s.winAddr n.val k (a - a % (if mSz w = 1 then 4 else 16)))
          data := [⟨(storeData c w a).2, c.poisoned (mDest w)⟩]
          acc := .tahr
          wide := mSz w != 1 }).mModify n.val 0 w c).slotDone n.val 0)) ∧
    (opOf w = 4 → mAddr c w = a → c.poisoned (rA (mAb w)) = false → s.isSet F.TC_WIN_CTRL.POSTED i = false →
      exec (.stg n) s = .next ((((s.setCore n.val { c with accesses := c.accesses ++ [{
        kind := .store
        addr := a - a % (if mSz w = 1 then 4 else 16)
        tag := some (s.freshTag (epCore n.val)) }] }).inject {
          src := BitVec.ofNat 10 (epCore n.val)
          cmd := BitVec.ofNat 4 cmdWrite
          vc := BitVec.ofNat 2 (s.get F.TC_WIN_CTRL.VC i)
          tag := s.freshTag (epCore n.val)
          len := 0
          key := BitVec.ofNat 8 (s.get F.TC_WIN_CTRL.KEY i)
          ordered := s.isSet F.TC_WIN_CTRL.ORDERED i
          be := BitVec.ofNat 16 (storeData c w a).1
          addr := BitVec.ofNat 48 (s.winAddr n.val k (a - a % (if mSz w = 1 then 4 else 16)))
          data := [⟨(storeData c w a).2, c.poisoned (mDest w)⟩]
          acc := .tahr
          wide := mSz w != 1 }).mModify n.val 0 w c).slotDone n.val 0))) ∧
  (∀ (n : Fin 256) (s : State) (c : Core) (w a k i : Nat), AtSlot s n.val 0 c w → opOf w = 5 →
    Unwatched s n.val → c.reg (rA (atAb w)) = a → c.poisoned (rA (atAb w)) = false →
    (atForm w = 0 → localOf a = .window k → i = winKey n.val k → s.isSet F.TC_WIN_CTRL.EN i = true →
      exec (.atomGlobal n) s = .next (((s.setCore n.val { c with accesses := c.accesses ++ [{
        kind := .atom (atReg w)
        addr := a
        tag := some (s.freshTag (epCore n.val)) }] }).inject {
          src := BitVec.ofNat 10 (epCore n.val)
          cmd := BitVec.ofNat 4 cmdAtomic
          vc := BitVec.ofNat 2 (s.get F.TC_WIN_CTRL.VC i)
          tag := s.freshTag (epCore n.val)
          len := 1
          key := BitVec.ofNat 8 (s.get F.TC_WIN_CTRL.KEY i)
          ordered := s.isSet F.TC_WIN_CTRL.ORDERED i
          be := 0xFFFF
          addr := BitVec.ofNat 48 (s.winAddr n.val k a)
          data := [⟨BitVec.ofNat 128 (c.reg (atVs w)), c.poisoned (atVs w)⟩,
            ⟨BitVec.ofNat 128 (atAop w + 16 * atW w), c.poisoned (atVs w)⟩]
          acc := .tahr }).slotDone n.val 0)) ∧
    (atForm w = 1 → 0x1000000 ≤ a → a < 0x1200000 → localWord n.val (a - a % 16) = some k → s.damageAt k = none →
      exec (.atomLoadReserved n) s = .next ((({ s.portA n.val k none with resv := s.resv.set 0 n.val (k + 1) } : State).setCore n.val { c with
        accesses := c.accesses ++ [{
          kind := .reserve (atReg w) none
          addr := a - a % 16
          tag := none
          unit := ⟨s.word k, s.poisonAt k⟩ }] }).slotDone n.val 0)) ∧
    (atForm w = 2 → 0x1000000 ≤ a → a < 0x1200000 → localWord n.val (a - a % 16) = some k →
      s.resv.get 0 n.val ≠ k + 1 →
      exec (.atomStoreConditional n) s = .next (((s.clearResv n.val).setCore n.val { c with
        accesses := c.accesses ++ [{
          kind := .reserve (rA (bitsOf w 19 4)) (some 0)
          addr := a - a % 16
          tag := none
          unit := ⟨0, false⟩ }] }).slotDone n.val 0)) ∧
    (atForm w = 2 → 0x1000000 ≤ a → a < 0x1200000 → localWord n.val (a - a % 16) = some k →
      s.resv.get 0 n.val = k + 1 → s.damageAt k = none →
      exec (.atomStoreConditional n) s = .next (((((s.portA n.val k (some (0xFFFF, c.poisoned (atVs w)))).ocWrite k 0xFFFF (BitVec.ofNat 128 (c.reg (atVs w)))
        (c.poisoned (atVs w))).clearResv n.val).setCore n.val { c with
        accesses := c.accesses ++ [{
          kind := .reserve (rA (bitsOf w 19 4)) (some 0)
          addr := a - a % 16
          tag := none
          unit := ⟨1, false⟩ }] }).slotDone n.val 0))) ∧
  (∀ (n : Fin 256) (s : State) (c : Core) (w : Nat), c.poisoned (rA (mAb w)) = true →
    (AtSlot s n.val 0 c w → opOf w = 1 →
      exec (.ldx n) s = .next ((s.coreErr n.val 0x08 0 (mAddr c w)).slotDone n.val 0)) ∧
    (AtSlot s n.val 0 c w → opOf w = 2 →
      exec (.stx n) s = .next ((s.coreErr n.val 0x08 0 (mAddr c w)).slotDone n.val 0)) ∧
    (AtSlot s n.val 0 c w → opOf w = 3 →
      exec (.ldg n) s = .next ((s.coreErr n.val 0x08 0 (mAddr c w)).slotDone n.val 0)) ∧
    (AtSlot s n.val 0 c w → opOf w = 4 →
      exec (.stg n) s = .next ((s.coreErr n.val 0x08 0 (mAddr c w)).slotDone n.val 0)) ∧
    (AtSlot s n.val 1 c w → opOf w = 1 →
      exec (.ldy n) s = .next ((s.coreErr n.val 0x08 0 (mAddr c w)).slotDone n.val 1)) ∧
    (AtSlot s n.val 1 c w → opOf w = 2 →
      exec (.sty n) s = .next ((s.coreErr n.val 0x08 0 (mAddr c w)).slotDone n.val 1))) ∧
  (∀ (n : Fin 256) (s : State) (c : Core) (w a : Nat), c.poisoned (rA (mAb w)) = false → mAddr c w = a →
    (AtSlot s n.val 0 c w → slotReaches 0 (mSz w) (localOf (a - a % (if mSz w = 1 then 4 else 16))) = false →
      (opOf w = 1 → exec (.ldx n) s = .next (((s.coreErr n.val 0x04 0 a).mModify n.val 0 w c).slotDone n.val 0)) ∧
      (opOf w = 2 → exec (.stx n) s = .next (((s.coreErr n.val 0x04 0 a).mModify n.val 0 w c).slotDone n.val 0))) ∧
    (AtSlot s n.val 1 c w → slotReaches 1 (mSz w) (localOf (a - a % (if mSz w = 1 then 4 else 16))) = false →
      (opOf w = 1 → exec (.ldy n) s = .next (((s.coreErr n.val 0x04 0 a).mModify n.val 1 w c).slotDone n.val 1)) ∧
      (opOf w = 2 → exec (.sty n) s = .next (((s.coreErr n.val 0x04 0 a).mModify n.val 1 w c).slotDone n.val 1))) ∧
    (∀ k, AtSlot s n.val 0 c w → opOf w = 3 → localOf (a - a % (if mSz w = 1 then 4 else 16)) = .window k →
      s.isSet F.TC_WIN_CTRL.EN (winKey n.val k) = false → exec (.ldg n) s = .next (((s.coreErr n.val 0x05 0
        (a - a % (if mSz w = 1 then 4 else 16))).mModify n.val 0 w c).slotDone n.val 0))) ∧
  (∀ (n : Fin 256) (k : Fin 64) (s : State) (c : Core) (r : Nat) (lane : Option Nat) (x : Access), s.core n.val = c →
    c.slot = 0 → c.accesses[k.val]? = some x → x.kind = .load r lane →
    (x.tag = none → x.unit.poison = false → exec (.interlockedLoadArrival n k) s = .next (s.setCore n.val
      ((({ c with accesses := c.accesses.erase x } : Core).setReg r (laneValue lane x.unit.data)).setPoison r false))) ∧
    (∀ tag p, x.tag = some tag → s.net.packets.find? (fun p => p.dest.toNat == epCore n.val && decide (8 ≤ p.cmd.toNat) &&
      p.tag == tag && s.arrives p) = some p →
      exec (.interlockedLoadArrival n k) s = .next ((s.takeResponse p).coreResponse n.val p))) ∧
  (∀ (n r : Nat) (lane : Option Nat) (s : State) (c : Core) (x : Access) (p : Packet), s.core n = c →
    c.accesses.find? (fun a => a.tag == some p.tag) = some x → x.kind = .load r lane →
    (p.cmd.toNat = cmdErrorRsp → s.coreResponse n p = (s.setCore n
      ((({ c with accesses := c.accesses.erase x } : Core).setReg r 0).setPoison r true)).coreErr n 0x06
        (p.addr.toNat % 2 ^ 16) x.addr) ∧
    (∀ d, p.cmd.toNat ≠ cmdErrorRsp → p.data = [⟨d, false⟩] → s.coreResponse n p = s.setCore n
      ((({ c with accesses := c.accesses.erase x } : Core).setReg r (laneValue lane d)).setPoison r false)))

/-- LOOP, BR, BRC, CALL, RET, RET.I: loops, taken branches, misplaced ones and poisoned operands (R185, R190, R191, R201,
R204, R227, R228, R229). -/
def Obligations.ControlSlot : Prop :=
  (∀ (n : Fin 256) (s : State) (c : Core) (w : Nat), AtSlot s n.val 3 c w → c.noBranchHere = false →
    (opOf w = 0x11 → exec (.br n) s = .next ((s.setCore n.val { withoutLevels c (c.leftLevels (brTarget w * 16)) with
      br := some ⟨some (brTarget w * 16), 3, none⟩ }).slotDone n.val 3)) ∧
    (opOf w = 0x12 → (brcCond w ≤ 3 → c.poisoned (rA (brcA w)) = false) → brcTaken c w = true →
      exec (.brc n) s = .next ((s.setCore n.val { withoutLevels c (c.leftLevels (brTarget w * 16)) with
        br := some ⟨some (brTarget w * 16), 3, none⟩ }).slotDone n.val 3)) ∧
    (opOf w = 0x12 → (brcCond w ≤ 3 → c.poisoned (rA (brcA w)) = false) → brcTaken c w = false →
      exec (.brc n) s = .next (s.slotDone n.val 3)) ∧
    (opOf w = 0x12 → brcCond w ≤ 3 → c.poisoned (rA (brcA w)) = true →
      exec (.brc n) s = .next ((s.coreErr n.val 0x08 0 c.pc).slotDone n.val 3)) ∧
    (opOf w = 0x13 → exec (.call n) s = .next (((withFlights s n.val 3 1 [flight (rA (aD w)) (c.pc + 48) false]).branchTo
      n.val (brTarget w * 16)).slotDone n.val 3)) ∧
    (opOf w = 0x14 → c.poisoned (rA (aD w)) = false → c.reg (rA (aD w)) < 0x10000 →
      exec (.ret n) s = .next ((s.setCore n.val { c with
        br := some ⟨some (c.reg (rA (aD w)) / 16 * 16), 3, none⟩ }).slotDone n.val 3)) ∧
    (opOf w = 0x14 → c.poisoned (rA (aD w)) = false → 0x10000 ≤ c.reg (rA (aD w)) → c.inInt = false →
      exec (.ret n) s = .next (((s.coreErr n.val 0x04 0 (c.reg (rA (aD w)))).branchOn n.val none none).slotDone n.val 3)) ∧
    (opOf w = 0x14 → c.poisoned (rA (aD w)) = true →
      exec (.ret n) s = .next ((s.coreErr n.val 0x08 0 (c.reg (rA (aD w)))).slotDone n.val 3)) ∧
    (opOf w = 0x15 → c.reg rIpc < 0x10000 → exec (.retI n) s = .next ((s.setCore n.val { c with
      br := some ⟨some (c.reg rIpc / 16 * 16), 3, some (c.reg rIstat % 2 ^ 24)⟩ }).slotDone n.val 3))) ∧
  (∀ (n : Fin 256) (s : State) (c : Core) (w : Nat), AtSlot s n.val 3 c w →
    (c.br.isSome = true ∨ ∃ l < 3, c.la l = true ∧ c.reg (rLE l) = c.pc) →
    (opOf w = 0x10 → exec (.loop n) s = .next ((s.coreErr n.val 0x02 0 c.pc).slotDone n.val 3)) ∧
    (opOf w = 0x11 → exec (.br n) s = .next ((s.coreErr n.val 0x02 0 c.pc).slotDone n.val 3)) ∧
    (opOf w = 0x12 → exec (.brc n) s = .next ((s.coreErr n.val 0x02 0 c.pc).slotDone n.val 3)) ∧
    (opOf w = 0x13 → exec (.call n) s = .next ((s.coreErr n.val 0x02 0 c.pc).slotDone n.val 3)) ∧
    (opOf w = 0x14 → exec (.ret n) s = .next ((s.coreErr n.val 0x02 0 c.pc).slotDone n.val 3)) ∧
    (opOf w = 0x15 → exec (.retI n) s = .next ((s.coreErr n.val 0x02 0 c.pc).slotDone n.val 3))) ∧
  (∀ (n : Fin 256) (s : State) (c : Core) (w k : Nat), AtSlot s n.val 3 c w → opOf w = 0x10 → c.noBranchHere = false →
    loopLvl w < 3 → k = (if loopReg w then c.reg (rA (bitsOf w 12 4)) else bitsOf w 12 11) →
    (loopReg w = true → c.poisoned (rA (bitsOf w 12 4)) = true →
      exec (.loop n) s = .next ((s.coreErr n.val 0x08 0 c.pc).slotDone n.val 3)) ∧
    ((loopReg w = true → c.poisoned (rA (bitsOf w 12 4)) = false) → k = 0 →
      exec (.loop n) s = .next ((s.setCore n.val {
        (((c.setReg (rLS (loopLvl w)) (c.pc + 16)).setReg (rLE (loopLvl w)) (loopEnd w * 16)).setReg
          (rLC (loopLvl w)) 0).setStat (4 + loopLvl w) false with skip := some (loopEnd w * 16 + 16) }).slotDone n.val 3)) ∧
    ((loopReg w = true → c.poisoned (rA (bitsOf w 12 4)) = false) → k ≠ 0 →
      (∀ m < 3, m ≠ loopLvl w → c.la m = true → c.reg (rLE m) ≠ loopEnd w * 16) →
      exec (.loop n) s = .next ((s.setCore n.val
        ((((c.setReg (rLS (loopLvl w)) (c.pc + 16)).setReg (rLE (loopLvl w)) (loopEnd w * 16)).setReg
          (rLC (loopLvl w)) k).setStat (4 + loopLvl w) true)).slotDone n.val 3)) ∧
    ((loopReg w = true → c.poisoned (rA (bitsOf w 12 4)) = false) → k ≠ 0 →
      (∃ m < 3, m ≠ loopLvl w ∧ c.la m = true ∧ c.reg (rLE m) = loopEnd w * 16) →
      exec (.loop n) s = .next ((s.coreErr n.val 0x03 0 c.pc).slotDone n.val 3))) ∧
  (∀ (c : Core) (a l : Nat), l ∈ c.leftLevels a ↔ l < 3 ∧ c.la l = true ∧ ∃ m < 3, c.la m = true ∧
    ¬(c.reg (rLS m) ≤ a ∧ a ≤ c.reg (rLE m)) ∧
    (m = l ∨ (c.reg (rLS l) ≤ c.reg (rLS m) ∧ c.reg (rLE m) ≤ c.reg (rLE l)))) ∧
  (∀ (c : Core) (w a p : Nat), c.reg (rA (brcA w)) = a → a < 2 ^ 32 → c.reg (rPred (brcP w)) = p → brcCond w ≤ 6 →
    (brcTaken c w = true ↔
      (brcCond w = 0 ∧ a = 0) ∨ (brcCond w = 1 ∧ a ≠ 0) ∨ (brcCond w = 2 ∧ toSigned 32 a < 0) ∨
      (brcCond w = 3 ∧ 0 ≤ toSigned 32 a) ∨ (brcCond w = 4 ∧ p ≠ 0) ∨ (brcCond w = 5 ∧ p = 0xF) ∨
      (brcCond w = 6 ∧ p = 0)))

/-- Tasks on a core: start, SYNC END, SYNC ACCEPT, SUBMIT and STIM (R168, R178, R180, R193, R194, R195, R230, R231, R474). -/
def Obligations.TasksOnCores : Prop :=
  (∀ (n : Fin 256) (s : State) (c : Core) (h : Held), s.core n.val = c → c.arrived = some h → c.task = none →
    s.coreUp n.val = true → s.coreHalted n.val = false → s.clReset.get 0 (n.val / 8) = 0 → c.flight = [] → c.slot = 0 →
    (dEntry h.d < 0x10000 → Leads (.taskStart n) s (fun t =>
      (t.core n.val).task = some h ∧ (t.core n.val).arrived = none ∧ (t.core n.val).pc = dEntry h.d / 16 * 16 ∧
      (t.core n.val).stat = (s.get F.TC_STAT_INIT.STAT n.val &&& 0xFF07FF) ∧ (t.core n.val).reg (rA 0) = dArg h.d ∧
      (t.core n.val).reg (rA 1) = n.val / 64 * 2 ^ 14 + dTaskId h.d ∧
      (t.core n.val).reg (rA 15) = s.reg R.TC_SP_INIT n.val ∧
      (∀ r, r ≠ rStat → r ≠ rA 0 → r ≠ rA 1 → r ≠ rA 15 → (t.core n.val).reg r = c.reg r) ∧
      (t.core n.val).wdt = (if s.isSet F.TC_WDT_CTRL.EN n.val then some (s.now + max 1000 (s.reg R.TC_WDT_LOAD n.val))
        else none) ∧
      t = s.setCore n.val (t.core n.val))) ∧
    (0x10000 ≤ dEntry h.d → c.lower = none → Leads (.taskStart n) s (fun t =>
      (t.core n.val).task = none ∧ (t.core n.val).arrived = none ∧ (t.core n.val).wdt = none ∧
      (s.isSet F.TC_ERR.VALID n.val = false → t.reg R.TC_ERR n.val = 0x04 + 2 ^ 31 ∧ t.reg R.TC_ERR_ADDR n.val = dEntry h.d) ∧
      (s.isSet F.TC_ERR.VALID n.val = true → t.isSet F.TC_ERR.MORE n.val = true) ∧
      RegsKeep s t [regKey R.TC_ERR n.val, regKey R.TC_ERR_ADDR n.val] ∧
      t = { (s.reportEnd (n.val / 64) h.handle 3 0x04).setCore n.val (t.core n.val) with regs := t.regs }))) ∧
  (∀ (n : Fin 256) (s : State) (c : Core) (w : Nat) (h : Held), AtSlot s n.val 3 c w → opOf w = 0x18 → syncForm w = 2 →
    c.task = some h → c.flight = [] → c.stepping = false →
    (c.lower = none → exec (.syncEnd n) s = .next ((s.reportEnd (n.val / 64) h.handle 0 0).setCore n.val { c with
      step := c.step + 1
      slot := 0
      bundle := 0
      br := none
      skip := none
      pc := 0
      bpDone := false
      accesses := c.accesses.filter (fun a => decide (a.kind = AccKind.store))
      wdt := none
      frozen := none
      task := none })) ∧
    (∀ l, c.lower = some l → Leads (.syncEnd n) s (fun t => (t.core n.val).task = some l ∧ (t.core n.val).lower = none ∧
      (t.core n.val).pc = c.resume % 0x10000 / 16 * 16 ∧ (t.core n.val).statBit 0 = false ∧
      (t.core n.val).inInt = true ∧
      (∀ j ∈ [2, 3, 4, 5, 6, 7, 8, 9, 10, 16, 17, 18, 19, 20, 21, 22, 23],
        (t.core n.val).statBit j = bitAt (s.get F.TC_STAT_INIT.STAT n.val) j) ∧
      t = (s.reportEnd (n.val / 64) h.handle 0 0).setCore n.val (t.core n.val)))) ∧
  (∀ (n : Fin 256) (s : State) (c : Core) (w a : Nat), AtSlot s n.val 3 c w → opOf w = 0x18 → syncForm w = 3 →
    c.reg (rA (syncA w)) = a →
    (∀ h x, c.noBranchHere = false → c.poisoned (rA (syncA w)) = false → c.flight = [] → c.stepping = false →
      s.preemptAt n.val = some h → c.task.isSome = true → (s.dsp (n.val / 64)).task? h = some x → dEntry x.d < 0x10000 →
      Leads (.syncAccept n) s (fun t => (t.core n.val).task = some ⟨h, x.d⟩ ∧ (t.core n.val).lower = c.task ∧
        (t.core n.val).resume = a ∧ (t.core n.val).pc = dEntry x.d / 16 * 16 ∧
        (t.core n.val).reg (rA 0) = dArg x.d)) ∧
    (c.noBranchHere = false → c.poisoned (rA (syncA w)) = false → s.preemptAt n.val = none → a < 0x10000 →
      exec (.syncAccept n) s = .next ((s.setCore n.val { c with br := some ⟨some (a / 16 * 16), 3, none⟩ }).slotDone n.val 3)) ∧
    (c.noBranchHere = false → c.poisoned (rA (syncA w)) = true →
      exec (.syncAccept n) s = .next ((s.coreErr n.val 0x08 0 a).slotDone n.val 3)) ∧
    (c.noBranchHere = true → exec (.syncAccept n) s = .next ((s.coreErr n.val 0x02 0 c.pc).slotDone n.val 3))) ∧
  (∀ (n : Fin 256) (s : State) (c : Core) (w a k : Nat), AtSlot s n.val 3 c w → opOf w = 0x1A →
    c.reg (rA (subS w)) / 64 * 64 = a →
    (Unwatched s n.val → c.poisoned (rA (subS w)) = false →
      (0x100000 ≤ a ∧ a < 0x120000 ∨ 0x1000000 ≤ a ∧ a < 0x1200000) → localWord n.val a = some k →
      (∀ j < 4, s.damageAt (k + j) = none) → exec (.submitInstruction n) s = .next (((s.setCore n.val { c with
        accesses := c.accesses ++ [{
          kind := .submit (rA (subD w))
          addr := a
          tag := some (s.freshTag (epCore n.val)) }] }).inject {
            src := BitVec.ofNat 10 (epCore n.val)
            cmd := 5
            vc := 0
            tag := s.freshTag (epCore n.val)
            len := 3
            addr := BitVec.ofNat 48 (if bitsOf w 17 1 = 1 then n.val / 64 else bitsOf w 15 2)
            data := (List.range 4).map (fun j => ⟨s.word (k + j), s.poisonAt (k + j)⟩)
            acc := .tahr }).slotDone n.val 3)) ∧
    (c.poisoned (rA (subS w)) = true →
      exec (.submitInstruction n) s = .next ((s.coreErr n.val 0x08 0 a).slotDone n.val 3)) ∧
    (c.poisoned (rA (subS w)) = false → ¬(0x100000 ≤ a ∧ a < 0x120000) → ¬(0x1000000 ≤ a ∧ a < 0x1200000) →
      exec (.submitInstruction n) s = .next ((s.coreErr n.val 0x04 0 a).slotDone n.val 3))) ∧
  (∀ (n : Fin 256) (s : State) (c : Core) (w : Nat), AtSlot s n.val 3 c w → opOf w = 0x1B →
    exec (.stim n) s = .next ((s.stimulus n.val 0 n.val (stimPort w) (c.reg (rA (stimS w)) +
      (if stimD64 w then c.reg (rA (stimS w + 1)) * 2 ^ 32 else 0)) (stimD64 w)).slotDone n.val 3))

/-- Interrupt entry, the core timer, the watchdog and its fault, pace sensors, TC registers and the CLUSTER reset (R159,
R175, R197, R198, R200, R203, R204, R206, R210, R426). -/
def Obligations.CoreEvents : Prop :=
  (∀ (n : Fin 256) (s : State) (c : Core) (k : Nat), s.core n.val = c → s.nextSource n.val = some k → c.slot = 0 →
    c.task.isSome = true → s.coreUp n.val = true → s.coreHalted n.val = false → c.haltReq = none →
    s.clReset.get 0 (n.val / 8) = 0 → c.legalBoundary = true → c.flight = [] →
    Leads (.interruptEntry n) s (fun t => (t.core n.val).pc = (s.get F.TC_VBASE.ADDR n.val * 64 + k * 0x40) % 0x10000 ∧
      (t.core n.val).reg rIpc = c.pc % 2 ^ 32 ∧ (t.core n.val).reg rIstat = c.stat % 2 ^ 24 + k * 2 ^ 24 ∧
      (t.core n.val).statBit 0 = false ∧ (t.core n.val).inInt = true ∧ (∀ l < 3, (t.core n.val).la l = false) ∧
      (∀ j ∈ [2, 3, 7, 8, 9, 10, 16, 17, 18, 19, 20, 21, 22, 23], (t.core n.val).statBit j = c.statBit j) ∧
      (∀ r, r ≠ rStat → r ≠ rIpc → r ≠ rIstat → (t.core n.val).reg r = c.reg r) ∧ t.resv.get 0 n.val = 0 ∧
      (t.core n.val).task = c.task ∧ (t.core n.val).step = c.step ∧
      t = { s.setCore n.val (t.core n.val) with resv := t.resv })) ∧
  (∀ (n : Nat) (s : State) (k : Nat), s.nextSource n = some k → k < 8 ∧ bitAt (s.get F.TC_IRQ_PEND.PEND n) k = true ∧
    (s.core n).inInt = false ∧ (k ≠ 4 → (s.core n).statBit 0 = true ∧ (s.core n).statBit (16 + k) = true ∧
      (bitAt (s.get F.TC_IRQ_PEND.PEND n) 4 = false))) ∧
  (∀ (n : Fin 256) (s : State) (c : Core) (x : Nat), s.core n.val = c → c.timer = some x →
    s.isSet F.TC_TIMER_CTRL.EN n.val = true → s.coreUp n.val = true → 0 ≤ diff64 s.now x →
    Leads (.coreTimerFire n) s (fun t => t.core n.val = { c with timer := none } ∧
      t.get F.TC_TIMER_CTRL.FIRED n.val = 1 ∧ bitAt (t.get F.TC_IRQ_PEND.PEND n.val) 1 = true ∧
      RegsKeep s t [regKey R.TC_TIMER_CTRL n.val, regKey R.TC_IRQ_PEND n.val] ∧
      t = { s with regs := t.regs, cores := t.cores })) ∧
  (∀ (acc : Accessor) (v : Word) (s : State) (n : Nat), Writes s acc 0 R.TC_TIMER_LO 0 n →
    Leads (.tcTimerLoWrite acc v) s (fun t => t.reg R.TC_TIMER_LO n = v.toNat ∧
      (t.core n) = { s.core n with timer := some (v.toNat + s.reg R.TC_TIMER_HI n * 2 ^ 32) } ∧
      RegsKeep s t [regKey R.CLK_GATE_WAKES 0, regKey R.TC_TIMER_LO n])) ∧
  (∀ (n : Fin 256) (s : State) (c : Core) (x : Nat), s.core n.val = c → c.wdt = some x → x ≤ s.now →
    (c.task.isSome = true → c.inInt = false → s.isSet F.TC_WDT_CTRL.WARN n.val = true →
      s.isSet F.TC_WDT_CTRL.WARNED n.val = false → Leads (.watchdogExpiry n) s (fun t =>
      t.core n.val = { c with wdt := some (s.now + max 1000 (s.reg R.TC_WDT_LOAD n.val)) } ∧
      t.isSet F.TC_WDT_CTRL.WARNED n.val = true ∧ bitAt (t.get F.TC_IRQ_PEND.PEND n.val) 4 = true ∧
      (s.isSet F.TC_ERR.VALID n.val = false → t.reg R.TC_ERR n.val = 0x0A + 2 ^ 31 ∧
        t.reg R.TC_ERR_ADDR n.val = c.pc % 2 ^ 32))) ∧
    (∀ h, s.isSet F.TC_WDT_CTRL.WARN n.val = false → c.task = some h → c.lower = none → c.stepping = false →
      Leads (.watchdogExpiry n) s (fun t => (t.core n.val).task = none ∧ (t.core n.val).flight = [] ∧
        (t.core n.val).slot = 0 ∧ (t.core n.val).wdt = none ∧ t.resv.get 0 n.val = 0 ∧
        (t.dsp (n.val / 64)).ends = (s.dsp (n.val / 64)).ends ++ [⟨h.handle, 3, 0x0C⟩] ∧
        (s.isSet F.TC_ERR.VALID n.val = false → t.reg R.TC_ERR n.val = 0x0C + 2 ^ 31)))) ∧
  (∀ (acc : Accessor) (v : Word) (s : State) (n : Nat), Writes s acc 0 R.TC_WDT_KICK 0 n → bitAt v.toNat 0 = true →
    (s.core n).task.isSome = true → s.isSet F.TC_WDT_CTRL.EN n = true → s.coreHalted n = false →
    Leads (.tcWdtKick acc v) s (fun t => t.isSet F.TC_WDT_CTRL.WARNED n = false ∧
      t.core n = { s.core n with wdt := some (s.now + max 1000 (s.reg R.TC_WDT_LOAD n)) } ∧
      RegsKeep s t [regKey R.CLK_GATE_WAKES 0, regKey R.TC_WDT_CTRL n])) ∧
  (∀ (acc : Accessor) (v : Word) (s : State) (n : Nat), Writes s acc 0 R.TC_IRQ_SET 0 n →
    Leads (.tcIrqSet acc v) s (fun t => t.get F.TC_IRQ_PEND.PEND n = (s.get F.TC_IRQ_PEND.PEND n ||| (v.toNat &&& 0xE4)) ∧
      HubKeep s t [regKey R.TC_IRQ_PEND n])) ∧
  (∀ (e : Fin 136) (p : BitVec 16) (s : State),
    (e.val < 32 → s.domUp (0x10 + e.val) = true →
      (s.get F.CL_PACE.PACE e.val ≠ 0 ∨ p = 0 → Leads (.paceSensorUpdate e p) s (fun t =>
        t.get F.CL_PACE.PACE e.val = p.toNat ∧ OnlyRegs s t [regKey R.CL_PACE e.val])) ∧
      (s.get F.CL_PACE.PACE e.val = 0 → p ≠ 0 →
        exec (.paceSensorUpdate e p) s = .next ((s.put F.CL_PACE.PACE e.val p.toNat).redecide (e.val / 8)))) ∧
    (32 ≤ e.val → s.domUp (domEngine (e.val - 32)) = true →
      (s.engPace.get 0 (e.val - 32) ≠ 0 ∨ p = 0 → Leads (.paceSensorUpdate e p) s (fun t =>
        t.engPace.get 0 (e.val - 32) = p.toNat ∧ t = { s with engPace := t.engPace })) ∧
      (s.engPace.get 0 (e.val - 32) = 0 → p ≠ 0 → exec (.paceSensorUpdate e p) s =
        .next (({ s with engPace := s.engPace.set 0 (e.val - 32) p.toNat } : State).redecide ((e.val - 32) / 26))))) ∧
  (∀ (acc : Accessor) (c c' : Fin 32) (s : State), Writes s acc 0 R.CL_CTRL 0 c.val → s.clReset.get 0 c.val = 0 →
    s.cfg.phase = .started → Leads (.clusterReset (some acc) c') s (fun t => t.clReset.get 0 c.val = 1 ∧
      ∀ j < 8, (t.core (8 * c.val + j)).task = none ∧ (t.core (8 * c.val + j)).arrived = none ∧
        (t.core (8 * c.val + j)).accesses = [])) ∧
  (∀ (c : Fin 32) (s : State),
    (s.clReset.get 0 c.val = 1 → s.clusterDrained c.val = true → Leads (.clusterReset none c) s (fun t =>
      t.clReset.get 0 c.val = 2 + s.now ∧ ∀ j < 8, (t.core (8 * c.val + j)).stat =
        (s.get F.TC_STAT_INIT.STAT (8 * c.val + j) &&& 0xFF07FF) ∧ (t.core (8 * c.val + j)).step = 0)) ∧
    (∀ x, s.clReset.get 0 c.val = 2 + x → x + 2000 ≤ s.now → Leads (.clusterReset none c) s (fun t =>
      t.clReset.get 0 c.val = 0)))

/-- A task on an engine: its job is read and checked, takes its lock, and ends with a code; faults and the HARQ spaces
(R234, R235, R237, R238, R251, R252, R255, R256, R274). -/
def Obligations.EngineTasks : Prop :=
  (∀ (e : Fin 104) (s : State) (h : Held) (c : Fin 32) (j : BitVec 512), s.engIn.get none e.val = some h →
    (s.eng e.val).task = none → (s.eng e.val).fault = false → s.domUp (domEngine e.val) = true → Serves s c.val →
    InScratch c.val (dJob h.d) 64 → Unhindered s (epEngine e.val) 0 →
    (∀ k < 4, s.poisonAt (dJob h.d / 16 + k) = false ∧ bitsOf j.toNat (128 * k) 128 = (s.word (dJob h.d / 16 + k)).toNat) →
    (∀ w, jobCheck (engineType e.val) j = some w → Leads (.engineJobStart e) s (fun u =>
      u.engIn.get none e.val = none ∧ (u.eng e.val).task = some h ∧ (u.eng e.val).phase = .done ∧
      (u.eng e.val).code = 0x101 ∧ (u.eng e.val).aux = w)) ∧
    (jobCheck (engineType e.val) j = none → usesSoft (engineType e.val) j = false →
      Leads (.engineJobStart e) s (fun u => u.engIn.get none e.val = none ∧ (u.eng e.val).task = some h ∧
        (u.eng e.val).phase = .ready ∧ (u.eng e.val).job = j ∧ (u.eng e.val).start = s.now ∧
        (u.eng e.val).cfg = s.engCfg e.val ∧ u.store = s.store))) ∧
  (∀ (e : Fin 104) (s t : State) (h : Held) (c : Nat) (ds : List DataUnit), s.engIn.get none e.val = some h →
    (s.eng e.val).task = none → (s.eng e.val).fault = false → s.domUp (domEngine e.val) = true →
    s.busUnits ⟨epEngine e.val, 0, 0, false⟩ 5 (dJob h.d / 16) 4 = (c, ds, t) →
    (c = codeWaits → exec (.engineJobStart e) s = .next (s.wakeLike t)) ∧
    (c ≠ codeWaits → c ≠ 0 → Leads (.engineJobStart e) s (fun u => u.engIn.get none e.val = none ∧
      (u.eng e.val).task = some h ∧ (u.eng e.val).phase = .done ∧ (u.eng e.val).code = 0x100 ∧ (u.eng e.val).aux = c)) ∧
    (c = 0 → ds.any (·.poison) = true → Leads (.engineJobStart e) s (fun u => (u.eng e.val).phase = .done ∧
      (u.eng e.val).code = 0x100 ∧ (u.eng e.val).aux = 0xD)) ∧
    (∀ j, c = 0 → ds.any (·.poison) = false → j = BitVec.ofNat 512 (leValue (unitBytes ds 0 64)) →
      (∀ w, jobCheck (engineType e.val) j = some w → Leads (.engineJobStart e) s (fun u =>
        u.engIn.get none e.val = none ∧ (u.eng e.val).task = some h ∧ (u.eng e.val).phase = .done ∧
        (u.eng e.val).code = 0x101 ∧ (u.eng e.val).aux = w)) ∧
      (jobCheck (engineType e.val) j = none → usesSoft (engineType e.val) j = false →
        Leads (.engineJobStart e) s (fun u => u.engIn.get none e.val = none ∧ (u.eng e.val).task = some h ∧
          (u.eng e.val).phase = .ready ∧ (u.eng e.val).job = j ∧ (u.eng e.val).start = t.now ∧
          (u.eng e.val).cfg = t.engCfg e.val ∧ RegsKeep t u [])))) ∧
  (∀ (t : Nat) (j : BitVec 512), jobCheck t j = none → jFld j 0 0 4 = t ∧ jFld j 0 4 4 = 1 ∧ jFld j 0 25 7 = 0 ∧
    jFld j 1 0 6 = 0 ∧ jFld j 2 16 16 = 0 ∧ jFld j 3 0 6 = 0 ∧ jFld j 4 16 16 = 0 ∧ jFld j 5 0 6 = 0 ∧
    jFld j 6 16 16 = 0) ∧
  (∀ (s : State) (e : Nat) (j : BitVec 512) (p : Nat), jobCheck (engineType e) j = none →
    usesSoft (engineType e) j = true → jFld j 7 16 4 = p →
    (s.isSet F.ACC_ENG_HARQ_CFG.EN p = false → ((s.acceptJob e j).eng e).code = 0x106 ∧
      ((s.acceptJob e j).eng e).phase = .done) ∧
    (s.isSet F.ACC_ENG_HARQ_CFG.EN p = true → s.get F.ACC_ENG_HARQ_CFG.COUNT p ≤ jFld j 8 0 16 →
      ((s.acceptJob e j).eng e).code = 0x101 ∧ ((s.acceptJob e j).eng e).phase = .done) ∧
    (s.isSet F.ACC_ENG_HARQ_CFG.EN p = true → jFld j 8 0 16 < s.get F.ACC_ENG_HARQ_CFG.COUNT p →
      jFld j 8 16 16 * align64 (jFld j 10 0 18) ≤ s.get F.ACC_ENG_HARQ_STRIDE.SECTORS p * 4096 →
      (jKeyIn j ≠ s.get F.ACC_ENG_HARQ_CFG.KEY p → ((s.acceptJob e j).eng e).code = 0x105 ∧
        ((s.acceptJob e j).eng e).phase = .done) ∧
      (jKeyIn j = s.get F.ACC_ENG_HARQ_CFG.KEY p → jKeyOut j = s.get F.ACC_ENG_HARQ_CFG.KEY p →
        ((s.acceptJob e j).eng e).skey = s.get F.ACC_ENG_HARQ_CFG.KEY p ∧
        ((s.acceptJob e j).eng e).sbase = s.harqBase p + jFld j 8 0 16 * s.get F.ACC_ENG_HARQ_STRIDE.SECTORS p * 4096 ∧
        (s.harqHeld.get 0 (lockKey j) ≠ 0 → ((s.acceptJob e j).eng e).phase = .lockWait ∧
          e ∈ (s.acceptJob e j).harqWait ∧ (s.acceptJob e j).reg R.ACC_ENG_HARQ_WAITS 0 =
            min (s.reg R.ACC_ENG_HARQ_WAITS 0 + 1) (2 ^ 32 - 1)) ∧
        (s.harqHeld.get 0 (lockKey j) = 0 → s.harqWait = [] → ((s.acceptJob e j).eng e).phase = .ready ∧
          (s.acceptJob e j).harqHeld.get 0 (lockKey j) = e + 1)))) ∧
  (∀ (e : Fin 104) (s : State) (x : Eng), s.eng e.val = x → x.phase = .lockWait → x.lock ≠ 0 →
    s.harqHeld.get 0 (x.lock - 1) = 0 → s.harqWait.find? (fun y => (s.eng y).lock == x.lock) = some e.val →
    Leads (.harqLockGrant e) s (fun t => t.eng e.val = { x with phase := .ready } ∧
      t.harqHeld.get 0 (x.lock - 1) = e.val + 1 ∧ e.val ∉ t.harqWait ∧ t.regs = s.regs)) ∧
  (∀ (e : Fin 104) (s : State) (x : Eng) (h : Held), s.eng e.val = x → x.task = some h → s.domUp (domEngine e.val) = true →
    (x.phase = .done → x.code < 0x100 → x.lock = 0 → Leads (.engineTaskEnd e false) s (fun t => t.eng e.val = {} ∧
      (t.dsp (e.val / 26)).ends = (s.dsp (e.val / 26)).ends ++ [⟨h.handle, 0, x.code⟩] ∧
      t.reg R.ACC_ENG_JOBS e.val = min (s.reg R.ACC_ENG_JOBS e.val + 1) (2 ^ 32 - 1) ∧
      RegsKeep s t [regKey R.ACC_ENG_JOBS e.val])) ∧
    (x.phase = .done → 0x100 ≤ x.code → x.code < 0x107 → s.isSet F.ACC_ENG_ERR.VALID e.val = false →
      Leads (.engineTaskEnd e false) s (fun t => t.eng e.val = {} ∧
      (t.dsp (e.val / 26)).ends = (s.dsp (e.val / 26)).ends ++ [⟨h.handle, 3, x.code⟩] ∧
      t.reg R.ACC_ENG_ERR e.val = x.code + x.aux % 256 * 2 ^ 16 + 2 ^ 31 ∧
      t.reg R.ACC_ENG_ERR_TASK e.val = dTaskId h.d + e.val / 26 * 2 ^ 14)) ∧
    Leads (.engineTaskEnd e true) s (fun t => t.eng e.val = { fault := true } ∧ (x.phase ≠ .ready → t.store = s.store) ∧
      (t.dsp (e.val / 26)).ends = (s.dsp (e.val / 26)).ends ++ [⟨h.handle, 3, 0x107⟩] ∧
      t.engState e.val = 3)) ∧
  (∀ (acc : Accessor) (v : Word) (s : State) (e : Nat), Writes s acc 0 R.ACC_ENG_CTRL 0 e → v.toNat % 2 = 1 →
    s.engState e = 3 → Leads (.clearFault acc v) s (fun t => t.eng e = {})) ∧
  (∀ (acc : Accessor) (v : Word) (s : State) (e : Nat), Writes s acc 0 R.ACC_ENG_STAT_CLR 0 e → v.toNat % 2 = 1 →
    Leads (.accEngStatClr acc v) s (fun t => t.reg R.ACC_ENG_JOBS e = 0 ∧ t.reg R.ACC_ENG_ITER_LO e = 0 ∧
      t.reg R.ACC_ENG_ITER_HI e = 0 ∧ t.reg R.ACC_ENG_ITEMS_LO e = 0 ∧ t.reg R.ACC_ENG_ITEMS_HI e = 0 ∧
      HubKeep s t [regKey R.ACC_ENG_JOBS e, regKey R.ACC_ENG_ITER_LO e, regKey R.ACC_ENG_ITER_HI e,
        regKey R.ACC_ENG_ITEMS_LO e, regKey R.ACC_ENG_ITEMS_HI e])) ∧
  (∀ (acc : Accessor) (v : Word) (s : State) (k n c : Nat), Writes s acc 0 R.ACC_ENG_HARQ_CFG 0 k →
    s.get F.ACC_ENG_HARQ_STRIDE.SECTORS k = n → bitsOf v.toNat 16 16 = c →
    (s.isSet F.ACC_ENG_HARQ_CFG.EN k = false → v.toNat % 4 = 1 → s.isSet F.ACC_ENG_HARQ_CFG.REJ k = false →
      Leads (.accEngHarqCfgWrite acc v) s (fun t => t.get F.ACC_ENG_HARQ_CFG.KEY k = bitsOf v.toNat 8 8 ∧
        t.get F.ACC_ENG_HARQ_CFG.COUNT k = c ∧
        (t.isSet F.ACC_ENG_HARQ_CFG.EN k = true ↔ 1 ≤ n ∧ 1 ≤ c ∧ s.harqBase k + c * n * 4096 ≤ 2 ^ 35) ∧
        (t.isSet F.ACC_ENG_HARQ_CFG.REJ k = true ↔ ¬(1 ≤ n ∧ 1 ≤ c ∧ s.harqBase k + c * n * 4096 ≤ 2 ^ 35)) ∧
        HubKeep s t [regKey R.ACC_ENG_HARQ_CFG k])) ∧
    (s.isSet F.ACC_ENG_HARQ_CFG.EN k = true →
      Leads (.accEngHarqCfgWrite acc v) s (fun t => t.get F.ACC_ENG_HARQ_CFG.EN k = v.toNat % 2 ∧
        t.get F.ACC_ENG_HARQ_CFG.KEY k = s.get F.ACC_ENG_HARQ_CFG.KEY k ∧
        t.get F.ACC_ENG_HARQ_CFG.COUNT k = s.get F.ACC_ENG_HARQ_CFG.COUNT k ∧
        (c ≠ s.get F.ACC_ENG_HARQ_CFG.COUNT k → t.isSet F.ACC_ENG_HARQ_CFG.REJ k = true) ∧
        HubKeep s t [regKey R.ACC_ENG_HARQ_CFG k])))

/-- Every kind of job runs: it reads its input, writes its outputs, then its record, and ends with its code (R236, R237,
R238, R242, R246, R247, R248, R250, R253, R263, R266, R271). -/
def Obligations.JobsRun : Prop :=
  (∀ (e : Fin 104) (s : State) (j : BitVec 512) (x : Eng), s.eng e.val = x → x.job = j → x.phase = .ready → x.fault = false →
    s.domUp (domEngine e.val) = true →
    (engineType e.val = 0 → exec (.ldpcDecodeJob e) s = .next (s.runJob e.val
      (outRanges j (jBit j 7 29) (jFld j 11 0 24) (ceilDiv (jFld j 8 0 16) 8) (jFld j 9 16 16)
        (ceilDiv (jFld j 9 16 16 * (jFld j 8 0 16 - 24 * jFld j 7 26 1)) 8)) (ldpcDecodeBody e.val j x.cfg))) ∧
    (engineType e.val = 1 → exec (.ldpcEncodeJob e) s = .next (s.runJob e.val
      (outRanges j false (jFld j 11 0 24) (ceilDiv (jFld j 9 0 16) 8) (jFld j 9 16 16) 0) (ldpcEncodeBody e.val j))) ∧
    (engineType e.val = 2 → exec (.turboDecodeJob e) s = .next (s.runJob e.val
      (outRanges j (jBit j 7 27) (jFld j 10 0 24) (ceilDiv (jFld j 7 0 13) 8) (jFld j 8 16 8)
        (ceilDiv (jFld j 8 16 8 * (jFld j 7 0 13 - 24 * jFld j 7 25 1) - jFld j 8 0 6) 8))
      (turboDecodeBody e.val j x.cfg))) ∧
    (engineType e.val = 3 → exec (.polarDecodeJob e) s = .next (s.runJob e.val
      (outRanges j false (jFld j 11 0 24) (ceilDiv (jFld j 8 0 10 - polarCrc j) 8) (jFld j 9 0 9) 0)
      (polarDecodeBody e.val j))) ∧
    (engineType e.val = 4 →
      (jFld j 7 0 3 = 0 → exec (.nrUplinkDeRateMatching e) s = .next (s.runJob e.val
        (outRanges j false (jFld j 15 0 24) (jFld j 10 0 18) (jFld j 8 16 16) 0) (derateBody e.val j x.sbase x.skey))) ∧
      (jFld j 7 0 3 = 2 → exec (.lteUplinkDeRateMatching e) s = .next (s.runJob e.val
        (outRanges j false (jFld j 15 0 24) (jFld j 10 0 18) (jFld j 8 16 16) 0) (derateBody e.val j x.sbase x.skey))) ∧
      (jFld j 7 0 3 = 1 → exec (.nrDownlinkRateMatching e) s = .next (s.runJob e.val
        [(jOut j, ceilDiv (rateG j) 8)] (rateBody e.val j))) ∧
      (jFld j 7 0 3 = 3 → exec (.lteDownlinkRateMatching e) s = .next (s.runJob e.val
        [(jOut j, ceilDiv (rateG j) 8)] (rateBody e.val j))) ∧
      (jFld j 7 0 3 = 4 → exec (.softBufferClear e) s = .next (s.runJob e.val []
        (clearBlocks e.val j x.sbase x.skey (List.range (jFld j 8 16 16)) >>= fun _ =>
          pure { hi0 := jFld j 8 16 16 })))) ∧
    (engineType e.val = 5 → exec (.fftJob e) s = .next (s.runJob e.val
      (fftRanges j) (fftBody e.val j))) ∧
    (engineType e.val = 6 →
      (jFld j 7 0 4 = 0 → exec (.matrixMul e) s = .next (s.runJob e.val
        ((List.range (jFld j 8 0 16)).map (matOutAt j)) (matBody e.val j x.cfg))) ∧
      (jFld j 7 0 4 = 1 → exec (.matrixChol e) s = .next (s.runJob e.val
        ((List.range (jFld j 8 0 16)).map (matOutAt j)) (matBody e.val j x.cfg))) ∧
      (jFld j 7 0 4 = 2 → exec (.matrixQr e) s = .next (s.runJob e.val
        ((List.range (jFld j 8 0 16)).map (matOutAt j)) (matBody e.val j x.cfg))) ∧
      (jFld j 7 0 4 = 3 → exec (.matrixMmseIrc e) s = .next (s.runJob e.val
        ((List.range (jFld j 8 0 16)).map (matOutAt j)) (matBody e.val j x.cfg))) ∧
      (jFld j 7 0 4 = 4 → exec (.matrixInterp e) s = .next (s.runJob e.val
        ((List.range (jFld j 8 0 16)).map (matOutAt j)) (matBody e.val j x.cfg)))) ∧
    (engineType e.val = 7 → exec (.prachJob e) s = .next (s.runJob e.val [] (prachBody e.val j x.cfg)))) ∧
  (∀ (e : Fin 104) (s : State) (j : BitVec 512), (s.eng e.val).job = j → (s.eng e.val).phase = .ready → (s.eng e.val).fault = false →
    s.domUp (domEngine e.val) = true → JobServed s e.val → jobCheck (engineType e.val) j = none →
    (s.eng e.val).sbase % 64 = 0 →
    (engineType e.val = 0 → Leads (.ldpcDecodeJob e) s (JobDoneAt e.val (s.eng e.val))) ∧
    (engineType e.val = 1 → Leads (.ldpcEncodeJob e) s (JobDoneAt e.val (s.eng e.val))) ∧
    (engineType e.val = 2 → Leads (.turboDecodeJob e) s (JobDoneAt e.val (s.eng e.val))) ∧
    (engineType e.val = 3 → Leads (.polarDecodeJob e) s (JobDoneAt e.val (s.eng e.val))) ∧
    (engineType e.val = 4 → jFld j 7 0 3 = 0 → Leads (.nrUplinkDeRateMatching e) s (JobDoneAt e.val (s.eng e.val))) ∧
    (engineType e.val = 4 → jFld j 7 0 3 = 1 → Leads (.nrDownlinkRateMatching e) s (JobDoneAt e.val (s.eng e.val))) ∧
    (engineType e.val = 4 → jFld j 7 0 3 = 2 → Leads (.lteUplinkDeRateMatching e) s (JobDoneAt e.val (s.eng e.val))) ∧
    (engineType e.val = 4 → jFld j 7 0 3 = 3 → Leads (.lteDownlinkRateMatching e) s (JobDoneAt e.val (s.eng e.val))) ∧
    (engineType e.val = 4 → jFld j 7 0 3 = 4 → Leads (.softBufferClear e) s (JobDoneAt e.val (s.eng e.val))) ∧
    (engineType e.val = 5 → Leads (.fftJob e) s (JobDoneAt e.val (s.eng e.val))) ∧
    (engineType e.val = 6 → jFld j 7 0 4 = 0 → Leads (.matrixMul e) s (JobDoneAt e.val (s.eng e.val))) ∧
    (engineType e.val = 6 → jFld j 7 0 4 = 1 → Leads (.matrixChol e) s (JobDoneAt e.val (s.eng e.val))) ∧
    (engineType e.val = 6 → jFld j 7 0 4 = 2 → Leads (.matrixQr e) s (JobDoneAt e.val (s.eng e.val))) ∧
    (engineType e.val = 6 → jFld j 7 0 4 = 3 → Leads (.matrixMmseIrc e) s (JobDoneAt e.val (s.eng e.val))) ∧
    (engineType e.val = 6 → jFld j 7 0 4 = 4 → Leads (.matrixInterp e) s (JobDoneAt e.val (s.eng e.val))) ∧
    (engineType e.val = 7 → Leads (.prachJob e) s (JobDoneAt e.val (s.eng e.val)))) ∧
  (∀ (e : Nat) (s t u : State) (blur : List (Nat × Nat)) (body : Job JobDone) (d : JobDone),
    (body s).toOption = some (d, t) →
    (jobRecord e (s.eng e).job (s.eng e).start d t).toOption = some ((), u) →
    (u.eng e).lock = 0 → s.runJob e blur body = (u.jobCounts e d).setEng e { u.eng e with
      phase := .done
      code := d.outcome
      aux := 0 }) ∧
  (∀ (e : Nat) (s : State) (blur : List (Nat × Nat)) (z : JobStop),
    (z.code = codeWaits → s.runJob e blur (fun _ => .error z) = s.wakeLike z.at') ∧
    (z.code ≠ codeWaits → ((s.runJob e blur (fun _ => .error z)).eng e).phase = .done ∧
      ((s.runJob e blur (fun _ => .error z)).eng e).code = z.code ∧
      ((s.runJob e blur (fun _ => .error z)).eng e).aux = z.aux)) ∧
  (∀ (d : JobDone), (d.outcome = 0 ↔ d.softLoss = false ∧ d.poisonIn = false ∧ d.cbFail = false ∧ d.tbFail = false ∧
      d.sat = false ∧ d.illCond = false) ∧ (d.illCond = true → d.outcome = 6) ∧ (d.sat = true → 5 ≤ d.outcome) ∧
    (d.tbFail = true → 4 ≤ d.outcome) ∧ (d.cbFail = true → 3 ≤ d.outcome) ∧ (d.poisonIn = true → 2 ≤ d.outcome) ∧
    (d.softLoss = true → 1 ≤ d.outcome) ∧ d.outcome ≤ 6) ∧
  (∀ (addr : Nat) (bs : List Byte) (pz : Nat → Bool), (lineUnits addr bs pz).length = (bs.length + 63) / 64 * 4 ∧
    ∀ (k : Nat) (x : WUnit), (lineUnits addr bs pz)[k]? = some x → x.be = 65535 ∧ x.w = addr / 16 + k ∧
      (bs.length ≤ 16 * k → x.data = 0 ∧ x.poison = false))

/-- LLRs, packed bits, CRCs, iterations, interleaving and the circular buffer of the coding jobs (R240, R242, R246, R250,
R253). -/
def Obligations.CodingResults : Prop :=
  (∀ b : Byte, -127 ≤ llrOf b ∧ llrOf b ≤ 127 ∧ (b.toNat ≠ 128 → llrOf b = toSigned 8 b.toNat)) ∧
  (∀ x : Int, -127 ≤ llrSat x ∧ llrSat x ≤ 127 ∧ (-127 ≤ x → x ≤ 127 → llrSat x = x ∧ toSigned 8 (llrByte x).toNat = x)) ∧
  (∀ (l : List Bool) (k : Nat), k < l.length → packedBit (packString l) k = l.getD k false) ∧
  (∀ (l : List Bool), (packString l).length = (l.length + 7) / 8) ∧
  (∀ (c : Crc) (l : List Bool), c = crc24a ∨ c = crc24b ∨ c = crc16 → c.ok (l ++ c.bits l) = true ∧
    (c.bits l).length = c.len) ∧
  (∀ (m : Nat) (f : Nat → Bool), 0 < m → iterations m f ≤ m ∧ 0 < iterations m f ∧
    (f (iterations m f) = true ∨ iterations m f = m) ∧ (∀ k, 0 < k → k < iterations m f → f k = false)) ∧
  (∀ (zc : Nat) (bg : Bool) (info : List Bool), (ldpcCodeword zc bg info).length = (ldpcKb bg + ldpcRows bg) * zc ∧
    ∀ k < ldpcKb bg * zc, (ldpcCodeword zc bg info)[k]? = some (info.getD k false)) ∧
  (∀ (q m t : Nat), 0 < q → 0 < m → t < q * m → interleaved q (q * m) (t % q * m + t / q) = t) ∧
  (∀ (j : BitVec 512) (r p : Nat), p ∈ ratePlaces j r ↔ p < jFld j 10 0 18 ∧ rateNull j r p = false) ∧
  (∀ (j : BitVec 512) (r : Nat), (ratePlaces j r).Nodup) ∧
  (∀ (ds : List DataUnit), (softLlrs ds).2 = ds.any (·.poison)) ∧
  (∀ (d0 d1 d2 d3 : DataUnit), d0.poison = true ∨ d1.poison = true ∨ d2.poison = true ∨ d3.poison = true →
    softLlrs [d0, d1, d2, d3] = (List.replicate 64 0, true)) ∧
  (∀ (ds : List DataUnit) (n : Nat), (∀ x ∈ ds, x.poison = true) → ∀ y ∈ unitLlrs ds n, y = 0)

/-- Conversion, bins, symbol places, matrix layout and preambles of the transform, matrix and PRACH jobs (R258, R262,
R263, R265, R266, R270, R271). -/
def Obligations.SignalResults : Prop :=
  (∀ (v : Int) (d : Nat), 0 < d → 2 * (v - roundRat v d * (d : Int)).natAbs ≤ d ∧
    (2 * (v - roundRat v d * (d : Int)).natAbs = d → roundRat v d % 2 = 0)) ∧
  (∀ (x : Bool) (v m : Int), m = (if x then 2 ^ 31 else 2 ^ 15) → -m ≤ (fitComp x v).1 ∧ (fitComp x v).1 ≤ m - 1 ∧
    ((fitComp x v).2 = false ↔ -m ≤ v ∧ v ≤ m - 1) ∧ ((fitComp x v).2 = false → (fitComp x v).1 = v)) ∧
  (∀ (j : BitVec 512) (n u i : Nat), fftSize (jFld j 7 0 3) = n → jFld j 7 16 13 = u → 0 < u → i < u →
    (i < u / 2 → fftBin j i = n - u / 2 + i) ∧ (u / 2 ≤ i → fftBin j i = i - u / 2 + jFld j 7 8 1)) ∧
  (∀ (j : BitVec 512) (i k : Nat), fftBad j 7 = false → i < fftUsed j → k < fftUsed j →
    fftBin j i < fftSize (jFld j 7 0 3) ∧ (fftBin j i = fftBin j k → i = k)) ∧
  (∀ (j : BitVec 512) (base y : Nat) (x : Bool), (fftPlace j base 0 true x (y + 1)).1 =
    (fftPlace j base 0 true x y).1 + (fftPlace j base 0 true x y).2 ∧
    (fftPlace j base 0 true x y).2 = (fftCp j y + fftSize (jFld j 7 0 3)) * sampleBytes x) ∧
  (∀ (x : Bool) (cols : Nat) (vs : List (List Byte)), (∀ r ∈ vs, r.length = cols * sampleBytes x) →
    (matBytes x cols vs).length = matrixBytes vs.length cols (sampleBytes x)) ∧
  (∀ (j : BitVec 512) (pe n r c : Nat) (a : List Byte) (b : Bool) (x : Comp × Comp),
    ((matChol j pe a).outs[0]?.map (fun m => m.elem r c) = some x →
      (r < c → x.1.off b n = 0 ∧ x.2.off b n = 0) ∧ (r = c → 0 ≤ x.1.off b n ∧ x.2.off b n = 0)) ∧
    ((matQr j pe a).outs[0]?.map (fun m => m.elem r c) = some x →
      (c < r → x.1.off b n = 0 ∧ x.2.off b n = 0) ∧ (r = c → 0 ≤ x.1.off b n ∧ x.2.off b n = 0))) ∧
  (∀ (x : Comp) (n : Nat), x.zero = false → x.real = false → (x.off true n - x.v).natAbs ≤ 2) ∧
  (∀ (j : BitVec 512), prachPerRoot j = (if jFld j 8 16 10 = 0 then 1 else min 64 (prachLen j / jFld j 8 16 10)) ∧
    prachLen j = (if jBit j 7 0 then 139 else 839) ∧ prachGrid j = (if jBit j 7 0 then 256 else 1024)) ∧
  (∀ (f : Nat → Nat) (lo hi l p : Nat), lo < hi → prachPeak f lo hi = (l, p) → lo ≤ l ∧ l < hi ∧ p = f l ∧
    (∀ k, lo ≤ k → k < hi → f k ≤ p) ∧ (∀ k, lo ≤ k → k < l → f k < p))

/-- On-chip words: writing, single-bit correction, page rebuilds, stored poison, starved agents and the counter tree
(R208, R278, R279, R280, R281, R282, R283, R285, R286, R287, R288, R294). -/
def Obligations.OnChipWords : Prop :=
  (∀ (s : State) (w be : Nat) (d : BitVec 128) (p : Bool), s.damageAt w = none →
    (s.ocWrite w be d p).word w = mergeBytes be (s.word w) d ∧
    (s.ocWrite w be d p).poisonAt w = (p || (be % 65536 != 65535 && s.poisonAt w)) ∧
    (∀ x, x ≠ w → (s.ocWrite w be d p).word x = s.word x ∧ (s.ocWrite w be d p).poisonAt x = s.poisonAt x) ∧
    (∀ n, s.resv.get 0 n = w + 1 → (s.ocWrite w be d p).resv.get 0 n ≠ w + 1) ∧ (s.ocWrite w be d p).regs = s.regs) ∧
  (∀ (s : State) (w g o : Nat) (x : BitVec 9), s.damageAt w = some (.single x) → s.poisonAt w = false →
    groupOf (16 * w) = some (g, o) → (s.settleWord w).damageAt w = none ∧ (s.settleWord w).word w = s.word w ∧
    ((s.settleWord w).node (nodeKey 1 g)).corr = ((s.node (nodeKey 1 g)).corr + 1) % 2 ^ 32 ∧
    ((s.grp g).tbl = [] → ((s.settleWord w).grp g).tbl = [⟨o / 16, x, false, 1⟩])) ∧
  (∀ (g : Fin 43) (word : Fin 4194304) (ups : List Upset) (s : State) (w : Nat), groupWord g.val word.val = w →
    ((s.strike ups).uncorrAt w = false → exec (.pageRebuild g word ups) s = .next (s.strike ups)) ∧
    (ups = [] → (List.range 256).filter (fun i => s.uncorrAt (w / 256 * 256 + i)) = [w % 256] →
      s.uncorrAt (checkWord (w / 256) 0) = false → s.uncorrAt (checkWord (w / 256) 1) = false →
      Leads (.pageRebuild g word ups) s (fun t => t.damageAt w = none ∧ t.poisonAt w = false ∧ t.word w = s.word w)) ∧
    (ups = [] → s.uncorrAt w = true → 2 < ((List.range 256).filter (fun i => s.uncorrAt (w / 256 * 256 + i))).length →
      Leads (.pageRebuild g word ups) s (fun t => t.damageAt w = none ∧ t.poisonAt w = true))) ∧
  (∀ (ws : List (BitVec 128)) (i : Nat) (d : BitVec 128), ws[i]? = some d → recover ws [i] true = [(i, d)]) ∧
  (∀ (g : Fin 43) (b : Fin 256) (s : State),
    (g.val < 32 → b.val < 16 → Leads (.agentAccessStarved g b) s (fun t =>
      bitAt (t.get F.CL_DMA_STARVE.SP_BANK g.val) b.val = true ∧
      t.reg R.CL_DMA_STARVE_CNT g.val = min (s.reg R.CL_DMA_STARVE_CNT g.val + 1) (2 ^ 32 - 1) ∧
      OnlyRegs s t [regKey R.CL_DMA_STARVE g.val, regKey R.CL_DMA_STARVE_CNT g.val])) ∧
    (g.val < 32 → 16 ≤ b.val → b.val < 176 → Leads (.agentAccessStarved g b) s (fun t =>
      bitAt (t.get F.CL_DMA_STARVE.CORE g.val) ((b.val - 16) / 20) = true ∧
      t.reg R.CL_DMA_STARVE_CNT g.val = min (s.reg R.CL_DMA_STARVE_CNT g.val + 1) (2 ^ 32 - 1) ∧
      OnlyRegs s t [regKey R.CL_DMA_STARVE g.val, regKey R.CL_DMA_STARVE_CNT g.val])) ∧
    (32 ≤ g.val → Leads (.agentAccessStarved g b) s (fun t => t.get F.ECC_GRP_STATUS.STARVE g.val = 1 ∧
      t.get F.ECC_GRP_STATUS.STARVE_CNT g.val = min (s.get F.ECC_GRP_STATUS.STARVE_CNT g.val + 1) 65535 ∧
      OnlyRegs s t [regKey R.ECC_GRP_STATUS g.val]))) ∧
  (∀ (idx : Fin 16384) (s : State),
    Leads (.counterNodeRebuild 0 idx) s (fun t => t.node (nodeKey 0 idx.val) = { stale := true }) ∧
    ((s.node (nodeKey 1 idx.val)).stale = false → Leads (.counterNodeRebuild 1 idx) s (fun t =>
      (t.node (nodeKey 1 idx.val)).stale = true ∧ t.regs = s.regs ∧ ∀ c u, t.bumpNode 1 idx.val c u = t)) ∧
    ((s.node (nodeKey 1 idx.val)).stale = true → Leads (.counterNodeRebuild 1 idx) s (fun t =>
      (t.node (nodeKey 1 idx.val)).stale = false ∧ (t.node (nodeKey 1 idx.val)).corr =
        ((List.range 256).map (fun b => (s.node (nodeKey 0 (idx.val * 256 + b))).corr)).foldl (· + ·) 0 % 2 ^ 32)) ∧
    ((s.node (nodeKey 3 idx.val)).stale = true → Leads (.counterNodeRebuild 3 idx) s (fun t =>
      (t.node (nodeKey 3 idx.val)).stale = false ∧ (t.node (nodeKey 3 idx.val)).uncorr =
        (((List.range 4).map (nodeKey 2) ++ [40, 41, 42].map (nodeKey 1)).map (fun k => (s.node k).uncorr)).foldl
          (· + ·) 0 % 2 ^ 48)) ∧
    (idx.val < 1024 → Leads (.counterNodeRebuild 4 idx) s (fun t => t.get F.NOC_STAT_FLAGS.STALE idx.val = 1 ∧
      t.pair R.NOC_STAT_RD_LO R.NOC_STAT_RD_HI idx.val = 0))) ∧
  (∀ (acc : Accessor) (s : State) (g : Nat), Writes s acc 0 R.ECC_TBL_CLR 0 g → Leads (.eccTblClr acc) s (fun t =>
    t.grp g = { s.grp g with tbl := [] } ∧ RegsKeep s t [regKey R.CLK_GATE_WAKES 0])) ∧
  (∀ (acc : Accessor) (s : State) (i : Nat), Writes s acc 0 R.ECC_CNT_CLR 0 i → Leads (.eccCntClr acc) s (fun t =>
    (∀ k, (t.node k).corr = 0 ∧ (t.node k).uncorr = 0 ∧ (t.node k).partialCnt = false) ∧
    RegsKeep s t [regKey R.CLK_GATE_WAKES 0]))

/-- The scrubber's lap, the range pass and the background test (R289, R290, R291, R292, R294). -/
def Obligations.ScrubAndTest : Prop :=
  (∀ (g : Fin 43) (s : State) (x : Grp) (i w : Nat), s.grp g.val = x → s.get F.SCRUB_CTRL.EN g.val = 1 →
    s.get F.SCRUB_STATUS.RANGE_BUSY g.val = 0 → s.groupOn g.val = true →
    (x.lastRead = 0 ∨ x.lastRead - 1 + s.get F.SCRUB_CTRL.INTERVAL g.val ≤ s.now) → s.reg R.SCRUB_LAP_LIMIT g.val = 0 →
    s.nextOn g.val x.lapPos = some i → s.wordBusy g.val (nthWord (groupPieces g.val) i) = false →
    groupWord g.val (nthWord (groupPieces g.val) i) = w → s.damageAt w = none →
    (∀ j, s.nextOn g.val (i + 1) = some j → Leads (.scrubWord g []) s (fun t => t.grp g.val = { x with
        lapPos := j
        lapNs := s.lapNow g.val
        lapAt := if x.lapAt = 0 then 0 else s.now + 1
        lastRead := s.now + 1 } ∧ t.regs = s.regs ∧ t.store.bytes = s.store.bytes)) ∧
    (s.nextOn g.val (i + 1) = none → Leads (.scrubWord g []) s (fun t => t.grp g.val = { x with
        lapPos := 0
        lapNs := 0
        lapAt := if x.lapAt = 0 then 0 else s.now + 1
        lastRead := s.now + 1 } ∧
      t.reg R.SCRUB_LAP_NS g.val = min (s.lapNow g.val) (2 ^ 32 - 1) ∧
      t.reg R.SCRUB_LAPS g.val = min (s.reg R.SCRUB_LAPS g.val + 1) (2 ^ 32 - 1) ∧
      RegsKeep s t [regKey R.SCRUB_LAP_NS g.val, regKey R.SCRUB_LAPS g.val]))) ∧
  (∀ (g : Nat) (s : State) (k i : Nat), s.nextOn g k = some i → k ≤ i ∧ i < groupWords g) ∧
  (∀ (g : Fin 43) (s : State), s.get F.SCRUB_CTRL.EN g.val = 0 → exec (.scrubWord g []) s = .next s) ∧
  (∀ (g : Nat) (s : State) (lim : Nat), s.reg R.SCRUB_LAP_LIMIT g = lim → lim ≠ 0 → lim < s.lapNow g →
    (s.lapSync g).get F.SCRUB_STATUS.LAP_OVERDUE g = 1) ∧
  (∀ (acc : Accessor) (s : State) (g a b : Nat), Writes s acc 0 R.SCRUB_CTRL 0 g →
    s.get F.SCRUB_RANGE_START.WORD g = a → s.reg R.SCRUB_RANGE_END g % 2 ^ 22 = b →
    (a ≤ b → b ≤ lastWord g → s.get F.SCRUB_STATUS.RANGE_BUSY g = 0 → Leads (.rangeGo acc) s (fun t =>
      t.get F.SCRUB_STATUS.RANGE_BUSY g = 1 ∧ t.reg R.SCRUB_SUM_CHECKED g = 0 ∧ t.reg R.SCRUB_SUM_CORRECTED g = 0 ∧
      t.reg R.SCRUB_SUM_UNCORR g = 0 ∧ t.reg R.SCRUB_SUM_REBUILT g = 0 ∧ t.reg R.SCRUB_SUM_NS g = 0 ∧
      t.grp g = { s.grp g with
        rangePos := a
        rangeStart := s.now
        rangeNs := 0 })) ∧
    (b < a ∨ lastWord g < b ∨ s.get F.SCRUB_STATUS.RANGE_BUSY g = 1 → Leads (.rangeGo acc) s (fun t =>
      t.get F.SCRUB_STATUS.RANGE_REJ g = 1 ∧ HubKeep s t [regKey R.SCRUB_STATUS g])) ∧
    (s.get F.SCRUB_STATUS.RANGE_BUSY g = 1 → Leads (.rangeAbort acc) s (fun t =>
      t.get F.SCRUB_STATUS.RANGE_BUSY g = 0 ∧ t.get F.SCRUB_STATUS.RANGE_DONE g = 1 ∧
      t.reg R.SCRUB_SUM_NS g = min ((s.grp g).rangeNs + (s.now - (s.grp g).rangeStart)) (2 ^ 32 - 1) ∧
      HubKeep s t [regKey R.SCRUB_STATUS g, regKey R.SCRUB_SUM_NS g])) ∧
    (s.get F.SCRUB_STATUS.RANGE_BUSY g = 0 → Leads (.rangeAbort acc) s (fun t => HubKeep s t []))) ∧
  (∀ (g : Fin 43) (s : State) (o e : Nat), s.get F.SCRUB_STATUS.RANGE_BUSY g.val = 1 → s.groupOn g.val = true →
    s.reg R.SCRUB_RANGE_END g.val % 2 ^ 22 = e → nextWordAt (allPieces g.val) (s.grp g.val).rangePos = some o →
    s.wordOff g.val o = false → s.wordBusy g.val o = false → s.damageAt (groupWord g.val o) = none →
    (o < e → Leads (.rangePassWord g []) s (fun t => (t.grp g.val).rangePos = o + 1 ∧
      t.reg R.SCRUB_SUM_CHECKED g.val = min (s.reg R.SCRUB_SUM_CHECKED g.val + 1) (2 ^ 32 - 1) ∧
      t.get F.SCRUB_STATUS.RANGE_BUSY g.val = 1 ∧ RegsKeep s t [regKey R.SCRUB_SUM_CHECKED g.val])) ∧
    (o = e → Leads (.rangePassWord g []) s (fun t => t.get F.SCRUB_STATUS.RANGE_BUSY g.val = 0 ∧
      t.get F.SCRUB_STATUS.RANGE_DONE g.val = 1 ∧
      t.reg R.SCRUB_SUM_CHECKED g.val = min (s.reg R.SCRUB_SUM_CHECKED g.val + 1) (2 ^ 32 - 1) ∧
      t.reg R.SCRUB_SUM_NS g.val = min ((s.grp g.val).rangeNs + (s.now - (s.grp g.val).rangeStart)) (2 ^ 32 - 1)))) ∧
  (∀ (g : Fin 43) (s : State) (x : Grp) (o : Nat), s.grp g.val = x → rowStart g.val x.bistPos = o → x.shadow = none →
    s.get F.ECC_BIST_CTRL.EN g.val = 1 →
    (x.bistEnd = 0 ∨ x.bistEnd - 1 + max 1 (s.get F.ECC_BIST_CTRL.INTERVAL g.val) * 1000 ≤ s.now) →
    s.wordOff g.val o = false → s.wordBusy g.val o = false → (∀ k < 64, s.damageAt (groupWord g.val (o + k)) = none) →
    Leads (.bistBlockStart g []) s (fun t => t.grp g.val = { x with shadow := some o } ∧
      t.get F.ECC_BIST_STATUS.BUSY g.val = 1 ∧ RegsKeep s t [regKey R.ECC_BIST_STATUS g.val])) ∧
  (∀ (g : Fin 43) (s : State) (x : Grp) (o : Nat), s.grp g.val = x → x.shadow = some o →
    (64 * (x.bistPos + 1) < allWords g.val → Leads (.bistBlockEnd g true) s (fun t => t.grp g.val = { x with
        shadow := none
        bistEnd := s.now + 1
        bistPos := x.bistPos + 1 } ∧
      t.get F.ECC_BIST_STATUS.BUSY g.val = 0 ∧ RegsKeep s t [regKey R.ECC_BIST_STATUS g.val])) ∧
    (allWords g.val ≤ 64 * (x.bistPos + 1) → Leads (.bistBlockEnd g true) s (fun t => (t.grp g.val).bistPos = 0 ∧
      t.reg R.ECC_BIST_LAPS g.val = min (s.reg R.ECC_BIST_LAPS g.val + 1) (2 ^ 32 - 1))) ∧
    (∀ b, bankOf g.val (16 * o) = b → x.spares.get 0 b < 4 → x.repairs.length < 16 →
      Leads (.bistBlockEnd g false) s (fun t => t.get F.ECC_BIST_STATUS.FAIL g.val = 1 ∧ (t.grp g.val).shadow = none ∧
        (t.grp g.val).spares.get 0 b = x.spares.get 0 b + 1 ∧
        (t.grp g.val).rowMap.get 0 o = x.spares.get 0 b + 1 ∧
        (t.grp g.val).repairs = x.repairs ++ [⟨o, x.spares.get 0 b, 1⟩])) ∧
    (∀ b, bankOf g.val (16 * o) = b → 4 ≤ x.spares.get 0 b → Leads (.bistBlockEnd g false) s (fun t =>
      t.get F.ECC_BIST_STATUS.FAIL g.val = 1 ∧ t.get F.ECC_BIST_STATUS.NO_SPARE g.val = 1 ∧
      (t.grp g.val).repairs = x.repairs ∧ (t.grp g.val).shadow = none)))

/-- Packaged memory: training, the zero fill, scrubbing, failed pseudo-channels, cipher regions and the plain line (R296,
R297, R299, R302, R303, R305, R308, R311, R312, R313, R314, R316). -/
def Obligations.PackagedMemory : Prop :=
  (∀ (st : Fin 2) (f : BitVec 32) (s : State), Leads (.hbmTraining st f) s (fun t => t.power.hbmPwr = true ∧
    (∀ p < 32, bitAt f.toNat p = true → t.get F.HBM_PC_STATUS.TRAINED (32 * st.val + p) = 0 ∧
      t.get F.HBM_PC_CTRL.OFFLINE (32 * st.val + p) = 1) ∧
    (∀ p < 32, bitAt f.toNat p = false → t.get F.HBM_PC_STATUS.TRAINED (32 * st.val + p) = 1 ∧
      t.get F.HBM_PC_CTRL.OFFLINE (32 * st.val + p) = s.get F.HBM_PC_CTRL.OFFLINE (32 * st.val + p)) ∧
    (bitAt (t.get F.HBM_STATUS.TRAINED 0) st.val = true ↔ f ≠ BitVec.allOnes 32))) ∧
  (∀ (st : Fin 2) (s : State), bitAt (s.get F.HBM_STATUS.TRAINED 0) st.val = true →
    bitAt (s.get F.HBM_STATUS.INIT_DONE 0) st.val = false → Leads (.hbmInitFill st) s (fun t =>
      bitAt (t.get F.HBM_STATUS.INIT_DONE 0) st.val = true ∧ t.get F.CIPH_STATUS.INT_KEY 0 = 1 ∧
      (∀ a, st.val * 2 ^ 34 ≤ a → a < (st.val + 1) * 2 ^ 34 → t.byte a = 0) ∧
      (∀ a, a < st.val * 2 ^ 34 ∨ (st.val + 1) * 2 ^ 34 ≤ a → t.byte a = s.byte a) ∧
      RegsKeep s t [regKey R.HBM_STATUS 0, regKey R.CIPH_STATUS 0])) ∧
  (∀ (pc : Fin 64) (s : State) (i n : Nat), s.store.pcScrub.get 0 pc.val = i → pcLine pc.val i / 64 = n →
    s.get F.HBM_CTRL.SCRUB_EN 0 = 1 → s.hbmReady pc.val = true → s.pcDown pc.val = false →
    (s.store.pcScrubAt.get 0 pc.val = 0 ∨
      s.store.pcScrubAt.get 0 pc.val - 1 + s.get F.HBM_SCRUB_INTERVAL.NS 0 ≤ s.now) → i + 1 < pcLines →
    ((s.line n).err = [] → Leads (.hbmScrubLine pc []) s (fun t => t.store.pcScrub.get 0 pc.val = i + 1 ∧
      t.store.pcScrubAt.get 0 pc.val = s.now + 1 ∧ t.regs = s.regs)) ∧
    (∀ (xs : List (Fin 72 × Byte)) (k e : Nat), (s.strikeLine n xs).lineState n = .one k e →
      Leads (.hbmScrubLine pc xs) s (fun t => t.store.pcScrub.get 0 pc.val = i + 1 ∧
        t.line n = ((s.strikeLine n xs).xorSymbol n k e).line n ∧
        t.reg R.HBM_PC_CORR pc.val = min (s.reg R.HBM_PC_CORR pc.val + 1) (2 ^ 32 - 1))) ∧
    (∀ xs : List (Fin 72 × Byte), (s.strikeLine n xs).lineState n = .bad →
      Leads (.hbmScrubLine pc xs) s (fun t => t.store.pcScrub.get 0 pc.val = i + 1 ∧
        t.line n = (s.strikeLine n xs).line n ∧
        t.reg R.HBM_PC_UNCORR pc.val = min (s.reg R.HBM_PC_UNCORR pc.val + 1) (2 ^ 32 - 1)))) ∧
  (∀ (k : Fin 72) (b : Fin 8), lineFound [(k.val, BitVec.ofNat 8 (2 ^ b.val))] = .one k.val (2 ^ b.val) ∧
    lineFound poisonErr = .poison ∧ lineFound (poisonErr.set 0 k.val (poisonErr.get 0 k.val ^^^ BitVec.ofNat 8 (2 ^ b.val))) = .bad) ∧
  (∀ (pc : Fin 64) (s : State), Leads (.hbmPcFault pc) s (fun t => t.pcDown pc.val = true ∧
    t = { s with store := { s.store with pcFault := t.store.pcFault } }) ∧
    (s.store.pcFault.get false pc.val = true ∨ s.isSet F.HBM_PC_STATUS.TRAINED pc.val = false →
      Leads (.hbmPcOffline pc) s (fun t => t.get F.HBM_PC_CTRL.OFFLINE pc.val = 1))) ∧
  (∀ (acc : Accessor) (v : Word) (s : State) (r lo hi : Nat), Writes s acc 0 R.CIPH_REGION_CTRL 0 r → v.toNat % 4 = 1 →
    s.pair R.CIPH_REGION_BASE_LO R.CIPH_REGION_BASE_HI r = lo → s.pair R.CIPH_REGION_LIMIT_LO R.CIPH_REGION_LIMIT_HI r = hi →
    (lo < hi → hi ≤ 2 ^ 35 → Leads (.ciphRegionCtrlWrite acc v) s (fun t => t.isSet F.CIPH_REGION_CTRL.EN r = true ∧
      t.isSet F.CIPH_REGION_CTRL.REJ r = s.isSet F.CIPH_REGION_CTRL.REJ r ∧ HubKeep s t [regKey R.CIPH_REGION_CTRL r])) ∧
    (hi ≤ lo ∨ 2 ^ 35 < hi → Leads (.ciphRegionCtrlWrite acc v) s (fun t =>
      t.isSet F.CIPH_REGION_CTRL.EN r = s.isSet F.CIPH_REGION_CTRL.EN r ∧ t.isSet F.CIPH_REGION_CTRL.REJ r = true ∧
      HubKeep s t [regKey R.CIPH_REGION_CTRL r]))) ∧
  (∀ (s : State) (a k : Nat), (s.hbmCheck a k = 0xE ↔ s.pcDown (hbmPc a) = true) ∧
    (s.hbmCheck a k = 0x7 ↔ s.pcDown (hbmPc a) = false ∧ (63 < k ∨ s.keyAllowed a k = false)) ∧
    (s.hbmCheck a k = 0x8 ↔ s.pcDown (hbmPc a) = false ∧ k ≤ 63 ∧ s.keyAllowed a k = true ∧ k ≠ 0 ∧ s.keySlot k = none)) ∧
  (∀ (s : State) (n ep : Nat) (d0 d1 d2 d3 : BitVec 128) (p : Bool),
    (State.hbmReadLine (s.hbmWriteLine n [⟨4 * n, 65535, d0, p⟩, ⟨4 * n + 1, 65535, d1, false⟩, ⟨4 * n + 2, 65535, d2, false⟩,
      ⟨4 * n + 3, 65535, d3, false⟩] 0) n [4 * n, 4 * n + 1, 4 * n + 2, 4 * n + 3] 0 ep).2 =
      [⟨d0, p⟩, ⟨d1, p⟩, ⟨d2, p⟩, ⟨d3, p⟩]) ∧
  (∀ pc i j : Nat, pc < 64 → i < pcLines → j < pcLines → hbmPc (pcLine pc i) = pc ∧ pcLine pc i % 64 = 0 ∧
    pcLine pc i / 2 ^ 34 = pc / 32 ∧ (i < j → pcLine pc i < pcLine pc j))

/-- Block memories' ports, collisions and page rebuilds; fabric ports on IREQ and TRSP, time-outs and stopping; user I/O
banks (R325, R326, R327, R329, R331, R339, R341, R342, R349, R350). The rebuilt, lost and corrected words' events are
not stated. -/
def Obligations.FabricResources : Prop :=
  (∀ (blk : Fin 8192) (a b : Option BmReq) (s : State), (s.regionRuns (blk.val / 128) = false ∨
    s.isSet F.BM_STATUS.REBUILDING blk.val = true ∨ (s.bmClocked blk.val 0 = false ∧ s.bmClocked blk.val 1 = false)) →
    exec (.bmPortAccess blk a b []) s = .next s) ∧
  (∀ (blk : Fin 8192) (x y : BmReq) (s : State) (k i j wa wb : Nat), s.regionRuns (blk.val / 128) = true →
    s.bmClocked blk.val 0 = true → s.bmClocked blk.val 1 = true →
    s.isSet F.BM_STATUS.REBUILDING blk.val = false → s.fab.bmDamage = [] → x.we = true → y.we = true →
    bmWidth (s.bmCode blk.val 0) = wa → bmWidth (s.bmCode blk.val 1) = wb → s.bmBit blk.val 0 x = i →
    s.bmBit blk.val 1 y = j → k < 65536 →
    Leads (.bmPortAccess blk (some x) (some y) []) s (fun t =>
      bitAt (t.bmWord (blk.val * 512 + k / 128)).toNat (k % 128) =
        (if i ≤ k ∧ k < i + wa ∧ bitAt (bmEnables wa x.be.toNat) (k - i) = true then bitAt x.data.toNat (k - i)
         else if j ≤ k ∧ k < j + wb ∧ bitAt (bmEnables wb y.be.toNat) (k - j) = true then bitAt y.data.toNat (k - j)
         else bitAt (s.bmWord (blk.val * 512 + k / 128)).toNat (k % 128)) ∧
      (i ≤ k ∧ k < i + wa ∧ bitAt (bmEnables wa x.be.toNat) (k - i) = true ∧
        j ≤ k ∧ k < j + wb ∧ bitAt (bmEnables wb y.be.toNat) (k - j) = true → t.get F.BM_STATUS.COLL blk.val = 1) ∧
      RegsKeep s t [regKey R.BM_STATUS blk.val, regKey R.BM_COLL_SUM_LO 0, regKey R.BM_COLL_SUM_HI 0])) ∧
  (∀ (blk : Fin 8192) (x : BmReq) (s : State) (b : Option BmReq) (m : Nat), s.regionRuns (blk.val / 128) = true → s.bmClocked blk.val 0 = true →
    s.isSet F.BM_STATUS.REBUILDING blk.val = false → s.fab.bmDamage = [] → bitsOf (s.fab.bmMode.get 0 blk.val) 0 2 = m →
    Leads (.bmPortAccess blk (some x) b []) s (fun t =>
      (x.we = false ∨ m = 0 → (t.fab.bmOut.get 0 (2 * blk.val)).toNat = bitsOf (s.bmWord (s.bmKey blk.val 0 x)).toNat
        (s.bmBit blk.val 0 x % 128) (bmWidth (s.bmCode blk.val 0))) ∧
      (x.we = true → m = 1 → (t.fab.bmOut.get 0 (2 * blk.val)).toNat = bitsOf (t.bmWord (s.bmKey blk.val 0 x)).toNat
        (s.bmBit blk.val 0 x % 128) (bmWidth (s.bmCode blk.val 0))) ∧
      (x.we = true → 2 ≤ m → t.fab.bmOut.get 0 (2 * blk.val) = s.fab.bmOut.get 0 (2 * blk.val)) ∧
      (x.we = false → t.fab.bmDerr.get false (2 * blk.val) =
        (s.bmCoded blk.val && s.fab.bmPoison.get false (s.bmKey blk.val 0 x))))) ∧
  (∀ (blk : Fin 8192) (x : BmReq) (s : State), s.regionRuns (blk.val / 128) = true → s.bmClocked blk.val 0 = true →
    s.isSet F.BM_STATUS.REBUILDING blk.val = false → s.bmCoded blk.val = true →
    s.bmBad (s.bmKey blk.val 0 x) = true →
    exec (.bmPortAccess blk (some x) none []) s = .next (s.put F.BM_STATUS.REBUILDING blk.val 1)) ∧
  (∀ (blk : Fin 8192) (page : Bool) (s : State) (bad : List Nat) (n : Nat),
    ((List.range 256).map (fun i => blk.val * 512 + bit page * 256 + i)).filter s.bmBad = bad →
    n = bad.length + bit (s.bmCheckBad blk.val (2 * bit page)) + bit (s.bmCheckBad blk.val (2 * bit page + 1)) →
    (s.isSet F.BM_STATUS.REBUILDING blk.val = false ∨ (s.bmClocked blk.val 0 = false ∧ s.bmClocked blk.val 1 = false) →
      exec (.bmPageRebuild blk page []) s = .next s) ∧
    (s.isSet F.BM_STATUS.REBUILDING blk.val = true → s.bmClocked blk.val 0 = true ∨ s.bmClocked blk.val 1 = true → n ≤ 2 → Leads (.bmPageRebuild blk page []) s (fun t =>
      (∀ k ∈ bad, t.bmBad k = false ∧ t.fab.bmPoison.get false k = false) ∧ (∀ k, t.bmWord k = s.bmWord k))) ∧
    (s.isSet F.BM_STATUS.REBUILDING blk.val = true → s.bmClocked blk.val 0 = true ∨ s.bmClocked blk.val 1 = true → 2 < n →
      Leads (.bmPageRebuild blk page []) s (fun t =>
      (∀ k ∈ bad, t.bmBad k = false ∧ t.fab.bmPoison.get false k = true) ∧ (bad ≠ [] → t.get F.BM_STATUS.LOST blk.val = 1) ∧
      (∀ k, k ∉ bad → t.bmWord k = s.bmWord k)))) ∧
  (∀ (acc : Accessor) (v : Word) (s : State) (i : Nat), Writes s acc 0 R.BM_COLL_CLR 0 i →
    (bitAt v.toNat 8 = true → Leads (.bmCollClr acc v) s (fun t =>
      (∀ b < 128, t.get F.BM_STATUS.COLL (128 * (v.toNat % 64) + b) = 0) ∧
      bitAt (t.pair R.BM_COLL_SUM_LO R.BM_COLL_SUM_HI 0) (v.toNat % 64) = false ∧
      HubKeep s t ([regKey R.BM_COLL_SUM_LO 0, regKey R.BM_COLL_SUM_HI 0] ++
        (List.range 128).map (fun b => regKey R.BM_STATUS (128 * (v.toNat % 64) + b))))) ∧
    (bitAt v.toNat 8 = false → Leads (.bmCollClr acc v) s (fun t => HubKeep s t []))) ∧
  (∀ (port : Fin 128) (p q : Packet) (s : State) (x : FPort), s.fport port.val = x →
    (s.portActive port.val = false ∨ s.portClocked port.val = false ∨ s.domState (domRegion (portRegion port.val)) ≠ 2 →
      exec (.fpIreqPacket port p) s = .next s) ∧
    (s.portActive port.val = true → s.portClocked port.val = true → s.domState (domRegion (portRegion port.val)) = 2 →
      q = (match x.part with
        | some h => { h with data := h.data ++ p.data }
        | none => p) →
      (q.data.length < unitsDue q → exec (.fpIreqPacket port p) s = .next (s.setFport port.val { x with part := some q })) ∧
      (unitsDue q ≤ q.data.length → (q.debug = true ∨ (q.vc = 3 ∧ s.isSet F.PR_FP_CTRL.ALLOW_VC3 port.val = false)) →
        expectsResponse q.cmd.toNat = true → Leads (.fpIreqPacket port p) s (fun t =>
          t.net.packets = pktResponse { q with
            src := BitVec.ofNat 10 (epPort port.val)
            dest := BitVec.ofNat 10 (epPort port.val)
            acc := .userLogic } 10 3 [] :: s.net.packets ∧ (t.fport port.val).part = none ∧
          RegsKeep s t [regKey R.NOC_DROP_COUNT 0])) ∧
      (unitsDue q ≤ q.data.length → q.debug = false → q.vc ≠ 3 → q.key.toNat < 64 →
        bitAt (s.pair R.PR_FP_KEYMASK_LO R.PR_FP_KEYMASK_HI port.val) q.key.toNat = false →
        expectsResponse q.cmd.toNat = true → Leads (.fpIreqPacket port p) s (fun t =>
          t.net.packets = pktResponse { q with
            src := BitVec.ofNat 10 (epPort port.val)
            dest := BitVec.ofNat 10 (epPort port.val)
            acc := .userLogic } 10 7 [] :: s.net.packets ∧ t.get F.PR_FP_STATUS.KEY_REJ port.val = 1 ∧
          t.get F.PR_FP_COUNTS.KEY_REJ port.val = min (s.get F.PR_FP_COUNTS.KEY_REJ port.val + 1) 65535 ∧
          RegsKeep s t [regKey R.PR_FP_STATUS port.val, regKey R.PR_FP_COUNTS port.val])) ∧
      (unitsDue q ≤ q.data.length → q.debug = false → q.vc ≠ 3 → q.key.toNat < 64 →
        bitAt (s.pair R.PR_FP_KEYMASK_LO R.PR_FP_KEYMASK_HI port.val) q.key.toNat = true →
        exec (.fpIreqPacket port p) s = .next ((s.setFport port.val { x with part := none }).inject { q with
          src := BitVec.ofNat 10 (epPort port.val)
          secure := false
          acc := .userLogic })))) ∧
  (∀ (port : Fin 128) (p : Packet) (s : State) (x : FPort) (y : Packet × Nat), s.fport port.val = x →
    s.portActive port.val = true → s.portClocked port.val = true →
    (x.treq.find? (fun y => y.1.tag == p.tag && y.1.src == p.dest) = none →
      exec (.fpTrspResponse port p) s = .next (s.put F.PR_FP_STATUS.BAD_RSP port.val 1)) ∧
    (x.treq.find? (fun y => y.1.tag == p.tag && y.1.src == p.dest) = some y → 8 ≤ p.cmd.toNat → p.cmd.toNat ≤ 10 →
      Leads (.fpTrspResponse port p) s (fun t => t.fport port.val = { x with treq := x.treq.erase y } ∧
        t.net.packets = s.net.packets ++ [{ p with
          src := BitVec.ofNat 10 (epPort port.val)
          vc := 2
          secure := false
          debug := false
          key := y.1.key
          ordered := y.1.ordered
          acc := y.1.acc
          poison := pktPoison p }] ∧
        RegsKeep s t [regKey R.PR_FP_STATUS port.val]))) ∧
  (∀ (port : Fin 128) (s : State) (x : FPort) (q : Packet) (at' : Nat) (r : List (Packet × Nat)), s.fport port.val = x →
    x.treq = (q, at') :: r →
    (s.now < at' + 1000 * max 1 (s.get F.PR_FP_CTRL.TGT_TMO_US port.val) → exec (.fpTargetTimeout port) s = .next s) ∧
    (at' + 1000 * max 1 (s.get F.PR_FP_CTRL.TGT_TMO_US port.val) ≤ s.now → expectsResponse q.cmd.toNat = true →
      Leads (.fpTargetTimeout port) s (fun t => t.fport port.val = { x with treq := r } ∧
        t.get F.PR_FP_STATUS.TGT_TMO port.val = 1 ∧
        t.get F.PR_FP_COUNTS.TGT_TMO port.val = min (s.get F.PR_FP_COUNTS.TGT_TMO port.val + 1) 65535 ∧
        t.get F.PR_FP_STATUS.TGT_OUT port.val = r.length % 128 ∧
        t.net.packets = s.net.packets ++ [pktResponse q 10 0xE []]))) ∧
  (∀ (acc : Accessor) (v : Word) (s : State) (p : Nat), Writes s acc 0 R.PR_FP_CTRL 0 p → s.portActive p = true →
    bitAt v.toNat 0 = false → Leads (.fpPortInactive acc v) s (fun t => t.portActive p = false ∧
      t.isSet F.PR_FP_CTRL.EN p = false ∧ (t.fport p).treq = [] ∧ (t.fport p).part = none ∧
      ∀ y ∈ (s.fport p).treq, expectsResponse y.1.cmd.toNat = true → pktResponse y.1 10 0xE [] ∈ t.net.packets)) ∧
  (∀ (bank : Fin 16) (s : State),
    (s.bankState bank.val = 1 → Leads (.ioBankSupplyLost bank) s (fun t => t.bankState bank.val = 3 ∧
      (∀ b : Fin 16, b ≠ bank → t.bankState b.val = s.bankState b.val) ∧ t = (s.setBank bank.val 3).bankEvent bank.val)) ∧
    (s.bankState bank.val ≠ 1 → exec (.ioBankSupplyLost bank) s = .next s) ∧
    (s.bankState bank.val ≠ 1 → s.get F.CFG_STATUS.STATE 0 = 3 → s.fab.volts.get 0 bank.val ≠ 0 → Leads (.ioBankSupplyRestored bank) s (fun t =>
      t.bankState bank.val = 1 ∧ (∀ b : Fin 16, b ≠ bank → t.bankState b.val = s.bankState b.val) ∧
      OnlyRegs s t [regKey R.CFG_IO_BANK_STATUS 0]))) ∧
  (∀ (s : State) (k i : Nat), i < 32 → s.bankState ((32 * k + i) / 48) ≠ 1 → bitAt (s.ioIn k) i = false)

/-- LUTs, carry chains, flip-flops and their leaf nets, arithmetic slices, border cells, user pins and port clocks while a
design runs (R318, R319, R320, R322, R323, R324, R334, R335, R346, R347, R371, R372). What a carry stage computes and
that a slice starts from 0 are the model's choices (log 51). -/
def Obligations.FabricLogic : Prop :=
  (∀ (c : Config.CellSet) (a b d e f g : Bool) (l : List Bool), l = [a, b, d, e, f] →
    (c.split = false → lutOut c (l ++ [g]) = (bitAt c.lut.toNat (bitsNat l + 32 * bit g), bitAt c.lut.toNat (bitsNat l + 32 * bit g))) ∧
    (c.split = true → lutOut c (l ++ [g]) = (bitAt c.lut.toNat (bitsNat l), bitAt c.lut.toNat (32 + bitsNat l)) ∧ bitsNat l < 32)) ∧
  (∀ (cell : Nat → Config.CellSet) (routed : Nat → Bool) (x y n : Nat), (∀ k < n, (cell (k + 1)).start = false) →
    carryIn cell (fun k => (bitAt x k != bitAt y k, bitAt y k)) routed n =
      bitAt (x % 2 ^ n + y % 2 ^ n + bit (routed 0)) n) ∧
  (∀ (f : Config.FfSet) (edge ce sr d old : Bool),
    (edge = false → f.async = false ∨ sr = false → ffNext f edge ce sr d old = old) ∧
    (sr = true → f.async = true ∨ edge = true → ffNext f edge ce sr d old = f.set) ∧
    (edge = true → sr = false → ffNext f edge ce sr d old = if ce then d else old)) ∧
  (∀ (s : State) (r n b : Nat) (edges : Nat → Bool), b < 172032 → (∀ k < 16, s.leafRuns r k = false) →
    let fs := s.regionFrames r
    let f := if b % 2 = 0 then (Config.cell r (b / 2) fs).ff0 else (Config.cell r (b / 2) fs).ff1
    bitAt ((s.clockRegion r n edges).fab.ffs.get 0 r).toNat b =
      if (f.async && (Config.halfTile r (b / 16) fs).sr && s.regionWire r n (halfWire (b / 16) 1)) = true then f.set
      else bitAt (s.fab.ffs.get 0 r).toNat b) ∧
  (∀ (s : State) (r k : Nat), k < 86016 →
    let c := Config.cell r k (s.regionFrames r)
    bitAt ((s.startLogic r).fab.ffs.get 0 r).toNat (2 * k) = c.ff0.init ∧
    bitAt ((s.startLogic r).fab.ffs.get 0 r).toNat (2 * k + 1) = c.ff1.init) ∧
  (∀ (acc x p : BitVec 96), sliceAcc 0 acc x p = p ∧ (sliceAcc 1 acc x p).toNat = (acc.toNat + p.toNat) % 2 ^ 96 ∧
    sliceAcc 2 acc x p + p = acc ∧ (sliceAcc 3 acc x p).toNat = (x.toNat + p.toNat) % 2 ^ 96) ∧
  (∀ (v : RegionView) (wire : Nat → Bool) (k j n : Nat), n = k / 48 * 48 + j →
    v.cascade wire k 0 = 0 ∧ (bitAt (v.slice n).regs 2 = true → v.cascade wire k (j + 1) = (v.regs n).acc)) ∧
  (∀ (c : Config.SliceSet) (k : Nat) (x : SliceIn) (casc : BitVec 96) (z : Slice),
    (bitAt c.regs 3 = true → sliceShown c k x casc z = (z.out, z.ovf)) ∧
    (bitAt c.regs 3 = false → bitAt c.regs 2 = true → sliceShown c k x casc z = sliceOut c z.acc) ∧
    (c.regs = 15 → c.pair = false → sliceEdge c k x casc z =
      ⟨x.a, x.b, BitVec.ofInt 96 (sliceProduct c.signA c.signB z.a z.b), sliceAcc x.mode z.acc casc z.prod, (sliceOut c z.acc).1,
        (sliceOut c z.acc).2⟩) ∧
    (c.regs = 0 → c.pair = false → sliceShown c k x casc z =
      sliceOut c (sliceAcc x.mode z.acc casc (BitVec.ofInt 96 (sliceProduct c.signA c.signB x.a x.b))))) ∧
  (∀ (v : RegionView) (n w l tap : Nat), v.route w = .line l tap →
    (∀ t, v.taps l = [t] → v.wire (n + 1) w = v.wire n (tapWire l t)) ∧
    ((v.taps l).length ≠ 1 → v.wire (n + 1) w = v.free (floatWire l))) ∧
  (∀ (a b : BitVec 32) (ai aq bi bq : Int), ai = toSigned 16 (bitsOf a.toNat 0 16) → aq = toSigned 16 (bitsOf a.toNat 16 16) →
    bi = toSigned 16 (bitsOf b.toNat 0 16) → bq = toSigned 16 (bitsOf b.toNat 16 16) →
    pairProducts false a b = (ai * bi - aq * bq, ai * bq + aq * bi) ∧
    pairProducts true a b = (ai * bi + aq * bq, aq * bi - ai * bq)) ∧
  (∀ (c : Config.SliceSet) (acc : BitVec 96) (w : Nat), c.shift < 96 → w = (if c.wide then 32 else 16) →
    (sliceOut c acc).1.toNat = (fitTo w c.sat (roundShift c.rnd acc.toInt c.shift)).1 ∧
    ((sliceOut c acc).2 = true → c.sat = true ∧ (roundShift c.rnd acc.toInt c.shift < -((2 ^ (w - 1) : Nat) : Int) ∨
      ((2 ^ (w - 1) : Nat) : Int) ≤ roundShift c.rnd acc.toInt c.shift))) ∧
  (∀ (s : State) (i : Nat),
    (s.cfg.phase ≠ .started ∨ s.bankState (i / 48) ≠ 1 → s.userPin i = .floating) ∧
    (s.cfg.phase = .started → s.bankState (i / 48) = 1 → s.fab.pinOut.get none i = none →
      ((s.fab.pins.get {} i).pull = 1 → s.userPin i = .pulls true) ∧
      ((s.fab.pins.get {} i).pull = 2 → s.userPin i = .pulls false) ∧
      ((s.fab.pins.get {} i).pull = 0 → (s.fab.pins.get {} i).keeper = true →
        s.userPin i = .keeps (s.fab.pinLevel.get false i)))) ∧
  (∀ (v x : Bool) (b : Option Bool) (p : UserPin), pinLevel (.drives v) b x = v ∧
    (∀ y : Bool, (∀ z, p ≠ .drives z) → pinLevel p (some y) x = y) ∧ pinLevel (.pulls v) none x = v ∧ pinLevel (.keeps v) none x = v) ∧
  (∀ (s : State) (r k m : Nat), m = bitsOf (s.reg R.PR_ISO_MODE (4 * r + k / 1024)) (2 * (k / 64 % 16)) 2 →
    (s.isSet F.PR_REGION_STATE.ISOLATED r = true → (m = 1 → s.borderOut r k = false) ∧ (m = 2 → s.borderOut r k = true) ∧
      (m = 0 ∨ m = 3 → s.borderOut r k = bitAt (s.fab.held.get 0 r).toNat k)) ∧
    (s.isSet F.PR_REGION_STATE.ISOLATED r = false → s.borderOut r k = bitAt (s.fab.borders.get 0 r).toNat k ∧
      ∀ st, st ≠ 3 → (s.setRegion r st).fab.held.get 0 r = s.fab.borders.get 0 r) ∧
    (s.regionState r ≠ 3 → s.regionState r ≠ 2 ∨ s.now < s.fab.startAt.get 0 r - 1 + 2000 → s.borderIn r k = false) ∧
    (∀ r' k', s.regionState r = 3 → borderAcross r k = some (r', k') → dieCell r k = false →
      s.borderIn r k = s.borderOut r' k')) ∧
  (∀ (s : State) (p : Nat), s.clkStop p = true ↔ s.portClocked p = false ∧ s.fab.edgeAt.get 0 (s.portNet p) + 1000 ≤ s.now)

/-- From the crystal to start-up: a container's header, chunks and signature, failures and the fallback, and the internal
port (R356, R357, R359, R362, R363, R366, R367, R368, R369, R370, R374, R381). -/
def Obligations.LoadingAContainer : Prop :=
  (∀ s : State, (s.cfg.phase = .crystal → Leads .crystalStable s (fun t => t.cfg.phase = .released ∧
      t.sec.life = s.sec.fuses.settle.life ∧ t.sec.base = s.sec.fuses.settle.base ∧ t.sec.fw = s.sec.fuses.settle.fw ∧
      t.sec.slot = s.sec.fuses.settle.slotInUse ∧ t.regs = s.regs)) ∧
    (s.cfg.phase ≠ .crystal → exec .crystalStable s = .next s)) ∧
  (∀ (mode : BitVec 3) (gold : BitVec 2) (s : State),
    (s.cfg.phase = .released → Leads (.bootFlow mode gold) s (fun t => t.cfg.phase = .loading ∧
      t.fab.frames = [] ∧ t.fab.drivers = [] ∧ t.get F.CFG_STATUS.STATE 0 = 1 ∧
      t.cfg.load = some { path := .primary, last := s.now } ∧
      (s.cfg.strapsDue = true → t.get F.CFG_STATUS.BOOT_MODE 0 = mode.toNat ∧ t.cfg.strapsDue = false ∧
        (s.sec.fuses.goldenBase = none → t.reg R.CFG_GOLDEN_BASE 0 = goldenStrap gold.toNat)) ∧
      t.get F.CFG_SCRUB_STATUS.PAUSED 0 = 1 ∧
      RegsKeep s t [regKey R.CFG_STATUS 0, regKey R.CFG_GOLDEN_BASE 0, regKey R.CFG_SCRUB_STATUS 0])) ∧
    (s.cfg.phase ≠ .released → exec (.bootFlow mode gold) s = .next s)) ∧
  (∀ s : State, (s.cfg.phase = .fallback → Leads .goldenFallback s (fun t => t.cfg.phase = .loading ∧
      t.fab.frames = [] ∧ t.get F.CFG_STATUS.STATE 0 = 2 ∧ t.cfg.load = some { path := .golden, last := s.now } ∧
      t.get F.CFG_SCRUB_STATUS.PAUSED 0 = 1 ∧ RegsKeep s t [regKey R.CFG_STATUS 0, regKey R.CFG_SCRUB_STATUS 0])) ∧
    (s.cfg.phase ≠ .fallback → exec .goldenFallback s = .next s)) ∧
  (∀ (acc : Accessor) (v : Word) (s : State) (l : Load) (i : Nat), Writes s acc 0 R.PR_HOST_CTRL 0 i →
    s.cfg.load = some l → l.path = .primary → l.go = false →
    (bitAt v.toNat 0 = true → s.hostBoot = true → Leads (.prHostCtrlGo acc v) s (fun t => t.cfg.load = some { l with
        go := true
        last := s.now
        base := s.pair R.PR_HOST_ADDR_LO R.PR_HOST_ADDR_HI 0
        len := s.reg R.PR_HOST_LEN 0 } ∧
      RegsKeep s t [regKey R.CLK_GATE_WAKES 0])) ∧
    (bitAt v.toNat 0 = false ∨ s.hostBoot = false → Leads (.prHostCtrlGo acc v) s (fun t => HubKeep s t []))) ∧
  (∀ (p : LoadPath) (h : List Byte) (s : State), s.headerCheck p h = none ↔ formatOk p h = true ∧
    hdrFld h 4 4 = s.reg R.DEV_ID 0 ∧ s.sec.life ≠ 3 ∧ (s.loadKey (hdrKeyId h)).isSome = true ∧
    s.sec.base ≤ hdrArb h ∧ (hdrKind h ≠ 3 → s.sec.fw ≤ hdrFwArb h)) ∧
  (∀ (h : List Byte) (s u : State) (l : Load), s.cfg.load = some l → l.hdr = [] → l.path ≠ .mailbox →
    (l.path = .primary → s.bootMode = 2 → l.go = true ∧ l.seen.length + 64 ≤ l.len) →
    u = (if s.fromHost l = true then s.pcieSend ⟨0, 1, l.base + l.seen.length, 64, false, []⟩ else s) →
    (h.length < 64 → exec (.containerHeader h) s = .next (u.loadFail l 0x04 false 0)) ∧
    (∀ (c : Nat) (auth : Bool), h.length = 64 → s.headerCheck l.path h = some (c, auth) →
      exec (.containerHeader h) s = .next (u.loadFail l c auth 0)) ∧
    (h.length = 64 → s.headerCheck l.path h = none → s.cfg.repair = none → l.path ≠ .intport →
      Leads (.containerHeader h) s (fun t => t.cfg.phase = .loading ∧ t.cfg.load = some { l with
          hdr := h
          seen := h
          last := s.now } ∧
        t.get F.CFG_STATUS.STATE 0 = (if l.path = .golden then 2 else 1))) ∧
    (h.length = 64 → s.headerCheck l.path h = none → s.cfg.repair = none → l.path = .intport →
      Leads (.containerHeader h) s (fun t => t.cfg.load = some { l with
          hdr := h
          seen := h
          last := s.now } ∧
        (∀ r < 64, bitAt (hdrMask h) r = true → t.regionState r = 1 ∧ t.get F.PR_REGION_STATE.ISOLATED r = 1 ∧
          t.reg R.PR_REGION_VERSION r = 0 ∧ ∀ a, a / 2 ^ 16 = r → t.fab.frames.get 0 a = 0) ∧
        (∀ r < 64, bitAt (hdrMask h) r = false → t.regionState r = s.regionState r)))) ∧
  (∀ (b : List Byte) (s : State) (l : Load), s.cfg.load = some l → l.work = true →
    exec (.containerChunk b) s = .next s) ∧
  (∀ (b : List Byte) (s u : State) (l : Load) (n : Nat), s.cfg.load = some l → l.hdr ≠ [] → l.path ≠ .mailbox →
    l.work = false → l.chunk < chunkCount (hdrLen l.hdr) → n = min 65536 (hdrLen l.hdr - 65536 * l.chunk) →
    (s.fromHost l = true → l.seen.length + n + 20 ≤ l.len) →
    u = (if s.fromHost l = true then s.pcieSend ⟨0, 1, l.base + l.seen.length, n + 20, false, []⟩ else s) →
    (b.length < n + 20 → exec (.containerChunk b) s = .next (u.loadFail l 0x04 false (payloadPos (65536 * l.chunk)))) ∧
    (b.length = n + 20 → Crypto.crc32 (natBytes (b.take (n + 16))) ≠ leValue (b.drop (n + 16)) →
      exec (.containerChunk b) s = .next (u.loadFail l 0x02 false (payloadPos (65536 * l.chunk)))) ∧
    (∀ key, b.length = n + 20 → Crypto.crc32 (natBytes (b.take (n + 16))) = leValue (b.drop (n + 16)) →
      s.loadKey (hdrKeyId l.hdr) = some key →
      (chunkPlain key l.hdr l.chunk (b.take n) ((b.drop n).take 16) = none →
        exec (.containerChunk b) s = .next (u.loadFail l 0x08 true (payloadPos (65536 * l.chunk)))) ∧
      (∀ plain, chunkPlain key l.hdr l.chunk (b.take n) ((b.drop n).take 16) = some plain →
        exec (.containerChunk b) s = .next (u.setLoad (some { l with
          seen := l.seen ++ b
          chunk := l.chunk + 1
          buf := l.buf ++ plain
          last := s.now }))))) ∧
  (∀ (sig : List Byte) (extra : Bool) (s u : State) (l : Load), s.cfg.load = some l → l.hdr ≠ [] → l.path ≠ .mailbox →
    (s.fromHost l = true → l.seen.length + 128 ≤ l.len) →
    u = (if s.fromHost l = true then s.pcieSend ⟨0, 1, l.base + l.seen.length, 128, false, []⟩ else s) →
    chunkCount (hdrLen l.hdr) ≤ l.chunk → s.cfg.phase ≠ .verified → l.ended = true → sig.length = 128 →
    exec (.signatureBlock sig extra) s = .next (
      if extra = true ∨ (s.fromHost l = true ∧ l.seen.length + 128 < l.len) then u.loadFail l 0x03 false l.seen.length
      else if s.signerOk sig = false then u.loadFail l 0x09 true l.seen.length
      else if sigOk l.seen sig = false then u.loadFail l 0x08 true l.seen.length
      else if l.path = .intport then u.overlayDone l sig
      else u.baseDone l)) ∧
  (∀ (s : State) (l : Load) (sig : List Byte), l.path = .intport →
    (∀ r < 64, bitAt (hdrMask l.hdr) r = true → (s.overlayDone l sig).reg R.PR_REGION_VERSION r = hdrVer l.hdr % 2 ^ 32 ∧
      (s.overlayDone l sig).get F.PR_REGION_STATE.INTERNAL r = 1 ∧
      (s.overlayDone l sig).regionState r = (if s.domUp (domRegion r) = true then 2 else 5)) ∧
    (s.overlayDone l sig).cfg.load = none ∧ (s.overlayDone l sig).cfg.intport = { done := true } ∧ (s.baseDone l).cfg.phase = .verified ∧ (s.baseDone l).cfg.load = s.cfg.load) ∧
  (∀ (s : State) (l : Load), s.cfg.load = some l →
    (s.streamed l = true → l.go = true → s.cfg.phase ≠ .verified → l.last + 50000000 ≤ s.now →
      exec .loadStallTimeout s = .next (s.loadFail l 0x04 false l.seen.length)) ∧
    (s.streamed l = false ∨ s.now < l.last + 50000000 → exec .loadStallTimeout s = .next s)) ∧
  (∀ (s : State) (l : Load) (code : Nat) (auth : Bool) (pos : Nat), code < 256 →
    (s.isSet F.CFG_FAIL.VALID 0 = false → (s.loadFail l code auth pos).reg R.CFG_FAIL 0 = code + bit auth * 256 +
        bit (l.path == .golden) * 512 + bit l.overlay * 1024 + bit (l.path == .intport) * 2048 + 2 ^ 31 ∧
      (s.loadFail l code auth pos).reg R.CFG_FAIL_POS 0 = pos % 2 ^ 32) ∧
    (s.isSet F.CFG_FAIL.VALID 0 = true → (s.loadFail l code auth pos).get F.CFG_FAIL.MORE 0 = 1 ∧
      (s.loadFail l code auth pos).get F.CFG_FAIL.CODE 0 = s.get F.CFG_FAIL.CODE 0 ∧
      (s.loadFail l code auth pos).reg R.CFG_FAIL_POS 0 = s.reg R.CFG_FAIL_POS 0) ∧
    (l.path = .golden ∨ (l.path = .primary ∧ (s.bootMode = 3 ∨ (auth = true ∧ (s.sec.life = 2 ∨ code = 0x0B)))) →
      (s.loadFail l code auth pos).cfg.phase = .dark ∧ (s.loadFail l code auth pos).get F.CFG_STATUS.STATE 0 = 4 ∧
      (s.loadFail l code auth pos).get F.DEV_FW_STATE.STATE 0 = 3) ∧
    (l.path = .primary → s.bootMode ≠ 3 → auth = false ∨ (s.sec.life ≠ 2 ∧ code ≠ 0x0B) →
      (s.loadFail l code auth pos).cfg.phase = .fallback ∧ (s.loadFail l code auth pos).get F.CFG_STATUS.STATE 0 = 2 ∧
      (s.loadFail l code auth pos).cfg.load = none) ∧
    (l.path = .intport → (s.loadFail l code auth pos).cfg.intport = { fail := true, code := code }) ∧
    (∀ r : Nat, l.overlay = true → l.hdr ≠ [] → r < 64 → bitAt (hdrMask l.hdr) r = true →
      (s.loadFail l code auth pos).regionState r = 4 ∧
      ∀ a, a / 2 ^ 16 = r → (s.loadFail l code auth pos).fab.frames.get 0 a = 0)) ∧
  (∀ (supplies : List (BitVec 16)) (s : State) (l : Load), s.cfg.phase = .verified → s.cfg.load = some l →
    Leads (.startUp supplies) s (fun t => t.cfg.phase = .started ∧ t.cfg.load = none ∧ t.get F.CFG_STATUS.STATE 0 = 3 ∧
      t.get F.CFG_STATUS.GOLDEN 0 = bit (l.path == .golden) ∧ t.reg R.CFG_BASE_VERSION 0 = hdrVer l.hdr % 2 ^ 32 ∧
      t.reg R.DEV_FW_VERSION 0 = hdrFwVer l.hdr % 2 ^ 32 ∧ t.get F.DEV_FW_STATE.STATE 0 = 1 ∧
      (∀ (b : Fin 16) (mv : Nat), (supplies.getD b.val 0).toNat = mv → t.bankState b.val =
        (if s.fab.volts.get 0 b.val = 0 then 0 else if supplyOk (s.fab.volts.get 0 b.val) mv = true then 1
         else if mv = 0 then 0 else 2)) ∧
      (∀ r < 64, bitAt (hdrMask l.hdr) r = true → t.get F.PR_REGION_STATE.BASE r = 1 ∧
        t.reg R.PR_REGION_VERSION r = hdrVer l.hdr % 2 ^ 32 ∧
        (s.domUp (domRegion r) = true → t.regionState r = 3 ∧ t.get F.PR_REGION_STATE.ISOLATED r = 0)))) ∧
  (∀ (h : List Byte) (s : State),
    (s.cfg.phase ≠ .started ∨ s.cfg.load.isSome = true → exec (.intportContainer h) s = .next s) ∧
    (s.cfg.phase = .started → s.cfg.load = none → s.isSet F.CFG_LOCK.LOCK 0 = true →
      s.isSet F.CFG_FAIL.VALID 0 = false → Leads (.intportContainer h) s (fun t =>
        t.reg R.CFG_FAIL 0 = 0x0D + 1024 + 2048 + 2 ^ 31 ∧
        t.cfg = { s.cfg with intport := { fail := true, code := 0x0D } } ∧
        OnlyRegs s { t with cfg := s.cfg } [regKey R.CFG_FAIL 0, regKey R.CFG_FAIL_POS 0])) ∧
    (s.cfg.phase = .started → s.cfg.load = none → s.isSet F.CFG_LOCK.LOCK 0 = false → h.length = 64 →
      s.headerCheck .intport h = none → s.cfg.repair = none → Leads (.intportContainer h) s (fun t =>
        t.get F.CFG_STATUS.LOAD_BUSY 0 = 1 ∧ t.get F.CFG_STATUS.INTPORT_BUSY 0 = 1 ∧
        t.get F.CFG_SCRUB_STATUS.PAUSED 0 = 1 ∧ ∃ l, t.cfg.load = some l ∧ l.path = .intport ∧ l.hdr = h)))

/-- Payload records, the contention check, region start-up and reset, isolation values, and the frame scrubber (R336,
R360, R361, R362, R369, R370, R371, R372, R373, R377, R378, R379). Where a DATA record targets a waking domain it
waits. -/
def Obligations.RecordsAndRegions : Prop :=
  (∀ (s : State) (x : Nat × Instr), x ∈ [(1, .frames), (2, .zero), (3, .data), (4, .iso), (5, .port), (6, .firmware),
      (15, .endRecord)] → (s.cfg.load = none → exec x.2 s = .next s) ∧
    (∀ l : Load, s.cfg.load = some l → l.ended = true ∨ l.opened = none → exec x.2 s = .next s) ∧
    (∀ l o : Load, s.cfg.load = some l → l.ended = false → l.opened = some o →
      (recType o.head ∉ [1, 2, 3, 4, 5, 6, 15] → exec x.2 s = .next (s.loadFail o 0x01 false (payloadPos o.start))) ∧
      (recType o.head ∈ [1, 2, 3, 4, 5, 6, 15] → recType o.head ≠ x.1 → exec x.2 s = .next s) ∧
      (recType o.head = x.1 → headValid o o.head o.start = false →
        exec x.2 s = .next (s.loadFail o 0x01 false (payloadPos o.start))) ∧
      (recType o.head = x.1 → headValid o o.head o.start = true → hdrLen o.hdr < o.start + 16 + recBody o.head →
        exec x.2 s = .next (s.loadFail o 0x03 false (payloadPos o.start))) ∧
      (recType o.head = x.1 → headValid o o.head o.start = true → o.start + 16 + recBody o.head ≤ hdrLen o.hdr →
        (o.buf.length < o.left → x.1 ≠ 1 → exec x.2 s = .next (s.setLoad (some o))) ∧
        (o.left ≤ o.buf.length → x.1 ≠ 1 → bodyValid o.head (o.buf.take o.left) = false →
          exec x.2 s = .next (s.loadFail o 0x01 false (payloadPos o.start)))))) ∧
  (∀ (s : State) (l o : Load) (b body : List Byte) (n addr : Nat) (l' : Load), s.cfg.load = some l → l.ended = false →
    l.opened = some o → o.head = b → o.left = n → o.buf.take n = body → recAddr b = addr → body.length = n →
    headValid o b o.start = true → o.start + 16 + recBody b ≤ hdrLen o.hdr → bodyValid b body = true →
    l' = o.took n →
    (∀ m a : Nat, recType b = 1 → o.part = m → 0 < m → a = addr + (recBody b - n) / 512 →
      exec .frames s = .next
      (if bitAt a 24 = true ∧ ioOptionsOk (s.staticFrames ++
          (bodyFrames (m / 512) (o.buf.take m)).mapIdx (fun k d => (a + k, d))) false = false
        then s.loadFail (o.took m) 0x01 false (payloadPos o.start)
        else if (s.writeFrames a (bodyFrames (m / 512) (o.buf.take m))).1 = true
        then (s.writeFrames a (bodyFrames (m / 512) (o.buf.take m))).2.setLoad (some { o.took m with
          frames := o.frames + m / 512
          places := o.places ++ [⟨a, m / 512, some o.taken⟩] })
        else (s.writeFrames a (bodyFrames (m / 512) (o.buf.take m))).2.loadFail (o.took m) 0x06 false (payloadPos o.start))) ∧
    (recType b = 2 → bitAt addr 24 = true → n = recBody b → Leads .zero s (fun t =>
      if ioOptionsOk (s.staticFrames ++ (List.replicate (recCount b) 0).mapIdx (fun k d => (addr + k, d))) false = true
      then t.cfg.load = some { l' with
          frames := o.frames + recCount b
          places := o.places ++ [⟨addr, recCount b, none⟩] } ∧
        (∀ k < recCount b, t.fab.frames.get 0 (addr + k) = 0)
      else t = s.loadFail l' 0x01 false (payloadPos o.start))) ∧
    (∀ c n' u, recType b = 3 → n = recBody b →
      s.writeBytes ⟨epConfig, 0, 3, false⟩ addr (body.take (recCount b)) = (c, n', u) →
      (c = 0 → recSub b ≠ 0 → exec .data s = .next (u.setLoad (some l'))) ∧
      (c = 0 → recSub b = 0 → u.sec.programs.length < 256 → Leads .data s (fun t => t.cfg.load = some l' ∧
        t.sec.programs = u.sec.programs ++ [(addr, recCount b, digest (natBytes (body.take (recCount b))))] ∧
        t.sec.progAgg = digest (bytes256 u.sec.progAgg ++ bytes256 (digest (natBytes (body.take (recCount b)))))))∧
      (c ≠ 0 → c ≠ codeWaits → exec .data s = .next (u.loadFail l' 0x07 false (payloadPos o.start)))) ∧
    (∀ k : Nat, k < 32 → recType b = 3 → InScratch k addr (recCount b) → Serves s k → Unhindered s epConfig 3 → Leads .data s (fun t =>
      t.cfg.load = some l' ∧ (∀ i < recCount b, t.byte (addr + i) = body.getD i 0) ∧
      (∀ a, a < addr ∨ addr + recCount b ≤ a → t.byte a = s.byte a))) ∧
    (recType b = 4 → Leads .iso s (fun t => (∀ w < 4, t.reg R.PR_ISO_MODE (4 * addr + w) = recWord body w) ∧
      t.cfg.load = some { l' with iso := o.iso ++ [(addr, (List.range 4).map (recWord body))] } ∧
      RegsKeep s t ((List.range 4).map (fun w => regKey R.PR_ISO_MODE (4 * addr + w))))) ∧
    (recType b = 5 → Leads .port s (fun t => t = s.setLoad (some { l' with
      ports := o.ports ++ [⟨addr, recWord body 0, recWord body 1 + recWord body 2 * 2 ^ 32⟩] }))) ∧
    (recType b = 6 → Leads .firmware s (fun t =>
      t = (s.writeBytes ⟨epChamois, 0, 3, false⟩ basePriv (body.take (recCount b))).2.2.setLoad (some { l' with
        fwHash := some (digest (natBytes (body.take (recCount b)))) }))) ∧
    (recType b = 15 → o.frames = hdrFrames o.hdr → o.overlay = true →
      Leads .endRecord s (fun t => t = s.setLoad (some { l' with ended := true }))) ∧
    (recType b = 15 → n = recBody b → o.overlay = false → exec .endRecord s = .next
      (if ioOptionsOk s.staticFrames true = false then s.loadFail l' 0x01 false (payloadPos o.start)
       else if o.frames ≠ hdrFrames o.hdr then s.loadFail l' 0x03 false (payloadPos o.start)
       else s.fabricLoops.setLoad (some { l' with ended := true }))) ∧
    (recType b = 15 → n = recBody b → o.frames ≠ hdrFrames o.hdr → o.overlay = true →
      Leads .endRecord s (fun t => t = s.loadFail l' 0x03 false (payloadPos o.start)))) ∧
  (∀ (fs : List (BitVec 4096)) (s : State) (a : Nat), 2 ^ 24 ≤ a → a + fs.length ≤ 2 ^ 24 + 16384 →
    (s.writeFrames a fs).1 = true ∧ (s.writeFrames a fs).2.regs = s.regs ∧
    (∀ k < fs.length, (s.writeFrames a fs).2.fab.frames.get 0 (a + k) = fs.getD k 0) ∧
    (∀ x, x < a ∨ a + fs.length ≤ x → (s.writeFrames a fs).2.fab.frames.get 0 x = s.fab.frames.get 0 x)) ∧
  (∀ (s : State) (a r : Nat) (d : BitVec 4096), frameRegion a = some r → a % 2 ^ 14 < 7168 →
    s.isSet F.CFG_CONT_INFO.VALID 0 = false →
    (s.writeFrame a d).1 = (contended (s.driversAfter a r d)).isEmpty ∧
    (if contended (s.driversAfter a r d) = [] then (s.writeFrame a d).2.fab.frames.get 0 a = d ∧
        (s.writeFrame a d).2.fab.drivers = s.driversAfter a r d
      else (∀ k ∈ contended (s.driversAfter a r d), (s.writeFrame a d).2.fab.drivers.get [] k = []) ∧
        (s.writeFrame a d).2.get F.CFG_CONT_INFO.VALID 0 = 1 ∧
        (s.writeFrame a d).2.get F.CFG_CONT_INFO.LINE 0 = (contended (s.driversAfter a r d)).headD 0 % 1024)) ∧
  (∀ (r : Fin 64) (s : State),
    (s.regionState r.val ≠ 2 ∨ s.now < s.fab.startAt.get 0 r.val - 1 + 3000 → exec (.regionStartup r) s = .next s) ∧
    (s.regionState r.val = 2 → s.fab.startAt.get 0 r.val - 1 + 3000 ≤ s.now → s.cfg.starting = [] →
      Leads (.regionStartup r) s (fun t => t.regionState r.val = 3 ∧ t.get F.PR_REGION_STATE.ISOLATED r.val = 0 ∧
        bitAt (t.pair R.PR_LOADED_LO R.PR_LOADED_HI 0) r.val = true ∧
        OnlyRegs s t [regKey R.PR_REGION_STATE r.val, regKey R.PR_LOADED_LO 0, regKey R.PR_LOADED_HI 0,
          regKey R.PR_FAILED_LO 0, regKey R.PR_FAILED_HI 0])) ∧
    (∀ (k : Taken) (ver : Nat) (h : BitVec 256), s.regionState r.val = 2 →
      s.fab.startAt.get 0 r.val - 1 + 3000 ≤ s.now → s.cfg.starting = [⟨2 ^ r.val, ver, h, some k⟩] →
      Ends (.regionStartup r) s k stOK 0 (overlayPayload (2 ^ r.val)) (fun u => u.regionState r.val = 3 ∧
        u.cfg.starting = [] ∧ u.sec.overlays = s.sec.overlays ++ [(2 ^ r.val, ver, h)]))) ∧
  (∀ (r : Fin 64) (s : State),
    (s.regionState r.val ≠ 3 → exec (.regionReset r false) s = .next s) ∧
    (s.regionState r.val = 3 → Leads (.regionReset r false) s (fun t => t.regionState r.val = 6 ∧
      t.get F.PR_REGION_STATE.ISOLATED r.val = 1 ∧ t.reg R.PR_REGION_VERSION r.val = 0 ∧
      (∀ w < 4, t.reg R.PR_ISO_MODE (4 * r.val + w) = 0) ∧
      (∀ p ∈ regionPorts r.val, t.isSet F.PR_FP_STATUS.ACTIVE p = false) ∧
      t.fab.frames = s.fab.frames)) ∧
    (s.regionState r.val ≠ 6 ∨ s.now < s.fab.startAt.get 0 r.val - 1 + 1000 → exec (.regionReset r true) s = .next s) ∧
    (s.regionState r.val = 6 → s.fab.startAt.get 0 r.val - 1 + 1000 ≤ s.now → s.domUp (domRegion r.val) = true →
      Leads (.regionReset r true) s (fun t => t.regionState r.val = 2 ∧
        t.reg R.PR_REGION_VERSION r.val = (s.cfg.images.get {} r.val).ver % 2 ^ 32 ∧
        t.fab.startAt.get 0 r.val = s.now + 1 ∧ t.fab.frames = s.fab.frames))) ∧
  (∀ (acc : Accessor) (w : Fin 4) (v : Word) (s : State) (i : Nat), Writes s acc 0 R.PR_ISO_MODE w.val i →
    Leads (.prIsoModeWrite acc w v) s (fun t => t.reg R.PR_ISO_MODE i = v.toNat ∧
      HubKeep s t [regKey R.PR_ISO_MODE i])) ∧
  (∀ (hit : FrameRead) (s : State), s.scrubbing = false ∨ s.dark = true → exec (.cfgScrubFrame hit) s = .next s) ∧
  (∀ (s : State) (k a : Nat), s.scrubbing = true → s.dark = false → s.lapNext s.cfg.scrubPos = k → k < lapPlaces → lapFrame k = a →
    s.fab.hits.get none a = none →
    (s.cfg.compare = false → Leads (.cfgScrubFrame {}) s (fun t => t.cfg = { s.cfg with scrubPos := k + 1 } ∧ t.regs = s.regs ∧
      t.fab = s.fab)) ∧
    (∀ b : Fin 4112, s.cfg.compare = false → (s.writeFrame a (s.fab.frames.get 0 a)).1 = true →
      Leads (.cfgScrubFrame { flips := [b] }) s (fun t => t.cfg.scrubPos = k + 1 ∧
        t.fab.hits.get none a = none ∧ t.fab.frames.get 0 a = s.fab.frames.get 0 a ∧
        t.reg R.CFG_SCRUB_CORR 0 = min (s.reg R.CFG_SCRUB_CORR 0 + 1) (2 ^ 32 - 1))) ∧
    (∀ b c : Fin 4112, b ≠ c → Leads (.cfgScrubFrame { flips := [b, c] }) s (fun t => t.cfg.scrubPos = k + 1 ∧
      t.cfg.repair = some a ∧ t.get F.CFG_SCRUB_STATUS.REPAIRING 0 = 1 ∧ RegsKeep s t [regKey R.CFG_SCRUB_STATUS 0]))) ∧
  (∀ (chunk : List Byte) (s : State), s.cfg.repair = none → exec (.cfgFrameRepair chunk) s = .next s) ∧
  (∀ (chunk : List Byte) (s u : State) (a : Nat), s.cfg.repair = some a →
    u = { s.put F.CFG_SCRUB_STATUS.REPAIRING 0 0 with cfg := { s.cfg with repair := none } } →
    (∀ d, u.sourceFrame a chunk = (some d, u) → (u.writeFrame a d).1 = true → logicFrame a = true →
      Leads (.cfgFrameRepair chunk) s (fun t => t.cfg.repair = none ∧
        t.fab.hits.get none a = none ∧ t.fab.frames.get 0 a = d ∧ t.get F.CFG_SCRUB_STATUS.REPAIRING 0 = 0 ∧
        t.reg R.CFG_SCRUB_REPAIRED 0 = min (s.reg R.CFG_SCRUB_REPAIRED 0 + 1) (2 ^ 32 - 1) ∧
        t.reg R.CFG_SCRUB_LOST 0 = s.reg R.CFG_SCRUB_LOST 0)) ∧
    (u.sourceFrame a chunk = (none, u) → s.isSet F.CFG_LOST_ADDR.VALID 0 = false → a < 2 ^ 25 →
      Leads (.cfgFrameRepair chunk) s (fun t => t.cfg.repair = none ∧ t.fab.hits.get none a = some ⟨s.flips a, true⟩ ∧
        t.fab.frames = s.fab.frames ∧ t.get F.CFG_SCRUB_STATUS.LOST 0 = 1 ∧
        t.reg R.CFG_SCRUB_LOST 0 = min (s.reg R.CFG_SCRUB_LOST 0 + 1) (2 ^ 32 - 1) ∧
        t.reg R.CFG_LOST_ADDR 0 = a + 2 ^ 31))) ∧
  (∀ (mismatch bad : Bool) (s : State) (ns : Nat), s.now - s.cfg.lapStart - s.cfg.lapPaused = ns →
    bad = (mismatch || s.cfg.lapDiff != 0) →
    (s.scrubbing = false ∨ s.dark = true ∨ s.lapNext s.cfg.scrubPos < lapPlaces → exec (.cfgScrubLapEnd mismatch) s = .next s) ∧
    (s.scrubbing = true → s.dark = false → lapPlaces ≤ s.lapNext s.cfg.scrubPos → Leads (.cfgScrubLapEnd mismatch) s (fun t =>
      t.cfg.scrubPos = 0 ∧ t.cfg.lapStart = s.now ∧ t.cfg.compare = bad ∧
      t.reg R.CFG_SCRUB_LAP_US 0 = min (ns / 1000) (2 ^ 32 - 1) ∧
      (100000000 < ns → t.get F.CFG_SCRUB_STATUS.LAP_OVERDUE 0 = 1) ∧
      (ns ≤ 100000000 → t.get F.CFG_SCRUB_STATUS.LAP_OVERDUE 0 = s.get F.CFG_SCRUB_STATUS.LAP_OVERDUE 0) ∧
      (bad = true → t.get F.CFG_SCRUB_STATUS.CRC_ERR 0 = 1))))

/-- A domain powers down and comes on: attempts, fence, time-outs, point of no return, DOMAIN_OFF, power-up, WAKE_TIMEOUT
and NAP (R385, R386, R387, R388, R390, R404). -/
def Obligations.PowerDownSequence : Prop :=
  ∀ (d : Fin 256) (s : State),
    (∀ x, s.down d.val = some x → x.attempts = 0 → s.domState d.val = 2 → (x.entry && s.entryBefore d.val) = false →
      Leads (.powerDownAttempt d) s (fun t => t.domState d.val = 3 ∧ t.get F.PWR_DOM_STATUS.ATTEMPTS d.val = 1 ∧
        t.down d.val = some { x with attempts := 1, start := s.now, failed := none } ∧
        RegsKeep s t (domKeys d.val) ∧
        t = { s with regs := t.regs, power := t.power, store := { s.store with grps := t.store.grps } })) ∧
    (s.domState d.val = 3 → (s.down d.val).isSome → s.domIdle d.val = true → s.domDrained d.val = true →
      Leads (.fence d) s (fun t => t.domState d.val = 4 ∧ DomKeep s t d.val)) ∧
    (∀ x, s.down d.val = some x → s.domState d.val = 3 → x.start + 1000000 ≤ s.now → x.attempts < 4 →
      (s.domIdle d.val && s.domDrained d.val) = false →
      Leads (.drainTimeout d) s (fun t => t.domState d.val = 2 ∧ t.down d.val = some { x with failed := some s.now } ∧
        RegsKeep s t (domKeys d.val))) ∧
    (s.domState d.val = 4 →
      Leads (.pointOfNoReturn d) s (fun t => t.domState d.val = 5 ∧ DomKeep s t d.val)) ∧
    (∀ x f, s.down d.val = some x → x.failed = some f → x.attempts < 4 → s.domState d.val = 2 →
      s.quietSince d.val f + 100000 ≤ s.now →
      Leads (.powerDownRetry d) s (fun t => t.domState d.val = 3 ∧
        t.get F.PWR_DOM_STATUS.ATTEMPTS d.val = x.attempts + 1 ∧ RegsKeep s t (domKeys d.val))) ∧
    (∀ x f k, s.down d.val = some x → x.failed = some f → x.entry = false → x.cmd = some k → f + 100000000 ≤ s.now →
      s.now < s.quietSince d.val f + 100000 →
      Ends (.quietPeriodTimeout d) s k stTimeout 0 (domPayload (s.domState d.val)) (fun u =>
        u.down d.val = none ∧ u.regs = s.regs)) ∧
    (∀ x, s.down d.val = some x → s.domState d.val = 5 → x.entry = false → x.cmd = none → x.on = false →
      (x.deny = true ∨ ((s.domGone d.val).parkedAt d.val = [] ∧ (s.domGone d.val).askedAt d.val = [])) →
      Leads (.domainOff d) s (fun t =>
        t = (if x.lock then (s.domGone d.val).put F.PWR_DOM_STATUS.LOCKED d.val 1 else s.domGone d.val).setDown d.val none ∧
        t.down d.val = none ∧ (0x30 ≤ d.val → d.val < 0x40 → t.domState d.val = 0))) ∧
    (s.domState d.val = 1 → (d.val = 0xC0 ∨ d.val = 0xC1) → s.power.ups.get none d.val = none →
      Leads (.domainPowerUpComplete d) s (fun t => t.domState d.val = 2 ∧ t.parkedAt d.val = [] ∧
        t.net.packets = s.parkedAt d.val ++ s.net.packets ∧ RegsKeep s t [regKey R.PWR_DOM_STATUS d.val])) ∧
    (s.domState d.val = 1 → s.power.wakeAt.get 0 d.val ≠ 0 → s.power.wakeAt.get 0 d.val - 1 + s.wakeLimit d.val ≤ s.now →
      ∃ u, exec (.wakeTimeout d) s = .next (((s.parkedAt d.val).foldl (fun t p => t.wakeRefuse d.val p) u).domAnswer
          (s.power.ups.get none d.val) stTimeout 0) ∧
        u.domState d.val = 0 ∧ u.get F.PWR_DOM_STATUS.FAIL d.val = 1 ∧ u.parkedAt d.val = [] ∧
        RegsKeep s u (domKeys d.val)) ∧
    (∀ x, s.power.dev = some x → x.entered = true → x.target = 2 → s.domState d.val = 2 →
      s.quietSince d.val 0 + 1000000 ≤ s.now → (d.val = 0xC0 ∨ d.val = 0xC1) →
      Leads (.napIdlePowerDown d) s (fun t => t.domState d.val = 0 ∧ OnlyRegs s t [regKey R.PWR_DOM_STATUS d.val]))

/-- The actions of PWR_DOM_CTRL and POWER_DOMAIN: on, off, lock off and unlock (R382, R385, R389, R404). -/
def Obligations.DomainCommands : Prop :=
  (∀ (acc : Accessor) (v : Word) (s : State) (d : Nat), Firmware s acc → Reaches s acc →
    s.sel acc F.PWR_DOM_SEL.DOMAIN = d → domListed d = true → domSwitchable d = true →
    (v.toNat % 4 = 0 → s.domState d = 0 → Leads (.pwrDomCtrlOn acc v) s (fun t => t.domState d = 1 ∧
      t.get F.PWR_DOM_STATUS.LOCKED d = 0 ∧ t.get F.PWR_DOM_STATUS.FAIL d = 0 ∧
      RegsKeep s t (regKey R.CLK_GATE_WAKES 0 :: domKeys d) ∧ t = { s with
        regs := t.regs
        clk := { s.clk with gated := t.clk.gated }
        store := { s.store with grps := t.store.grps }
        power := { s.power with gov := t.power.gov } })) ∧
    (v.toNat % 4 = 1 → s.domState d = 2 → s.down d = none → Leads (.pwrDomCtrlOff acc v) s (fun t =>
      t.down d = some {} ∧ t.domState d = 2 ∧ t.get F.PWR_DOM_STATUS.ATTEMPTS d = 0)) ∧
    (v.toNat % 4 = 2 → s.domState d = 0 → Leads (.pwrDomCtrlLockOff acc v) s (fun t =>
      t.get F.PWR_DOM_STATUS.LOCKED d = 1 ∧ t.domState d = 0 ∧ HubKeep s t [regKey R.PWR_DOM_STATUS d])) ∧
    (v.toNat % 4 = 2 → s.domState d = 2 → s.down d = none → Leads (.pwrDomCtrlLockOff acc v) s (fun t =>
      t.down d = some { deny := true, lock := true } ∧ t.domState d = 2)) ∧
    (v.toNat % 4 = 3 → Leads (.pwrDomCtrlUnlock acc v) s (fun t =>
      t.get F.PWR_DOM_STATUS.LOCKED d = 0 ∧ t.domState d = s.domState d ∧
      (∀ x, t.down d = some x → x.lock = false ∧ x.deny = false) ∧
      RegsKeep s t [regKey R.CLK_GATE_WAKES 0, regKey R.PWR_DOM_STATUS d]))) ∧
  (∀ (b : Fin 8) (m : Msg) (s : State) (k : Taken) (d : Nat), Taking s b opPowerDomain m k → fld m 0 16 = d →
    s.domCommand d ≠ some k.id →
    (domSwitchable d = true → fld m 2 8 = 0 → s.domState d = 0 → Leads (.powerDomainOn b m) s (fun t =>
      t.domState d = 1 ∧ t.get F.PWR_DOM_STATUS.LOCKED d = 0 ∧ t.get F.PWR_DOM_STATUS.FAIL d = 0 ∧
      t.power.ups.get none d = some k)) ∧
    (domSwitchable d = true → fld m 2 8 = 1 → s.haltedIn d = false → s.domState d = 0 →
      Ends (.powerDomainOff b m) s k stOK 0 (domPayload 0) (fun u => u = s)) ∧
    (domSwitchable d = true → fld m 2 8 = 1 → s.haltedIn d = false → s.domState d = 2 → s.down d = none →
      Leads (.powerDomainOff b m) s (fun t => t.down d = some { cmd := some k } ∧ t.domState d = 2)) ∧
    (domSwitchable d = true → fld m 2 8 = 2 → s.haltedIn d = false → s.domState d = 0 →
      Ends (.powerDomainLockOff b m) s k stOK 0 (domPayload 0) (fun u =>
        u.get F.PWR_DOM_STATUS.LOCKED d = 1 ∧ OnlyRegs s u [regKey R.PWR_DOM_STATUS d])) ∧
    (domSwitchable d = true → fld m 2 8 = 3 →
      Ends (.powerDomainUnlock b m) s k stOK 0 (domPayload (s.domState d)) (fun u =>
        u.get F.PWR_DOM_STATUS.LOCKED d = 0 ∧ u.domState d = s.domState d ∧
        (∀ x, u.down d = some x → x.lock = false ∧ x.deny = false) ∧ RegsKeep s u [regKey R.PWR_DOM_STATUS d])) ∧
    (domSwitchable d = false → fld m 2 8 = 0 → Ends (.powerDomainOn b m) s k stState 0 {} (fun u => u = s)))

/-- Entering, waking from and leaving DOZE, NAP and HIBERNATE, and the RTC alarm (R390, R391, R392, R393, R394, R396,
R397). -/
def Obligations.DeviceStates : Prop :=
  (∀ (b : Fin 8) (m : Msg) (s : State) (k : Taken), Taking s b opPowerState m k → s.power.dev = none →
    s.stateRefused (fld m 0 8) (fld m 1 8) = false → s.tasksRun = false →
    (fld m 0 8 = 1 → Leads (.powerStateDoze b m) s (fun t => t.get F.PWR_STATE.STATE 0 = 1 ∧
      t.get F.PWR_STATE.ENTERING 0 = 0 ∧ t.power.hold = true)) ∧
    (fld m 0 8 = 2 → Leads (.powerStateNap b m) s (fun t => t.power.hold = true ∧ ∃ x, t.power.dev = some x ∧
      x.target = 2 ∧ x.answered = true ∧ x.todo = s.entryList 2 (fld m 8 64) ∧
      ∀ d ∈ x.todo, ∃ y, t.down d = some y ∧ y.entry = true)) ∧
    (fld m 0 8 = 3 → Leads (.powerStateHibernate b m) s (fun t => t.power.hold = true ∧
      t.get F.PWR_MITTEN_STATUS.CTX_VALID 0 = 1 ∧ ∃ x, t.power.dev = some x ∧ x.target = 3 ∧ x.answered = true ∧
      x.todo = s.entryList 3 (fld m 8 64)))) ∧
  (∀ (s : State) (x : DevState) (w : Nat), s.power.dev = some x → x.window = some w → x.entered = false →
    w + 122070 ≤ s.now → Leads .entryWindowClose s (fun t => t.get F.PWR_STATE.ENTERING 0 = 0 ∧
      (x.target = 2 → t.get F.PWR_STATE.STATE 0 = 2) ∧
      t.power.dev = some { x with entered := true, wake := (maskBits 6 (x.wakes &&& s.activeLevels)).head? } ∧
      RegsKeep s t [regKey R.PWR_STATE 0, regKey R.PWR_MITTEN_STATUS 0])) ∧
  (∀ (s : State) (x : DevState) (k : Fin 7), s.power.dev = some x → x.target = 2 → x.entered = true → x.wake = none →
    s.power.stuck = false → 1 ≤ k.val → k.val ≤ 5 → bitAt x.wakes k.val = true →
    Leads (.wakeEvent k true) s (fun t => t.power.dev = some { x with wake := some k.val } ∧
      bitAt t.power.pins (k.val - 1) = true ∧ t.regs = s.regs)) ∧
  (∀ (s : State) (x : DevState) (k : Nat), s.power.dev = some x → x.target = 2 → x.entered = true → x.wake = some k →
    Leads .napWake s (fun t => t = (s.put F.PWR_MITTEN_STATUS.LAST_WAKE 0 (k + 1)).restoreDomains x)) ∧
  (∀ (s : State) (x : DevState), s.power.dev = some x → x.target = 3 → x.entered = true → x.wake.isSome = true →
    Leads .hibernateWakeFail s (fun t =>
      t.get F.PWR_MITTEN_STATUS.RETRIES 0 = min 3 (s.get F.PWR_MITTEN_STATUS.RETRIES 0 + 1) ∧
      (s.attached = false → t.get F.PWR_MITTEN_STATUS.LP 0 = 1) ∧
      (2 ≤ s.get F.PWR_MITTEN_STATUS.RETRIES 0 → t.get F.PWR_MITTEN_STATUS.WAKE_FAIL 0 = 1 ∧ t.power.stuck = true) ∧
      RegsKeep s t [regKey R.PWR_MITTEN_STATUS 0])) ∧
  (∀ (s : State) (ticks : BitVec 47) (n : Nat), n = ticks.toNat - s.power.settle → s.reg R.PWR_RTC_ALARM 0 ≠ 0 → s.power.alarmDone = false → s.power.dev = none →
    0 ≤ toSigned 32 ((s.reg R.PWR_RTC_SEC 0 * 32768 + s.get F.PWR_RTC_SUB.SUB 0 + n) / 32768 % 2 ^ 32 + 2 ^ 32 -
      s.reg R.PWR_RTC_ALARM 0) →
    Leads (.rtcAlarm ticks) s (fun t => t.get F.PWR_MITTEN_STATUS.ALARM 0 = 1 ∧ t.reg R.PWR_RTC_SEC 0 =
        (s.reg R.PWR_RTC_SEC 0 * 32768 + s.get F.PWR_RTC_SUB.SUB 0 + n) / 32768 % 2 ^ 32 ∧
      RegsKeep s t [regKey R.PWR_RTC_SEC 0, regKey R.PWR_RTC_SUB 0, regKey R.PWR_MITTEN_STATUS 0])) ∧
  (∀ (acc : Accessor) (v : Word) (s : State), Firmware s acc → Reaches s acc →
    Leads (.pwrRtcAlarmWrite acc v) s (fun t => t.reg R.PWR_RTC_ALARM 0 = v.toNat ∧
      t.get F.PWR_MITTEN_STATUS.ALARM 0 = 0 ∧
      RegsKeep s t [regKey R.CLK_GATE_WAKES 0, regKey R.PWR_RTC_ALARM 0, regKey R.PWR_MITTEN_STATUS 0]))

/-- The governor's period, the AVSBus time-out and droop (R398, R401, R402, R496). -/
def Obligations.GovernorPeriodAndDroop : Prop :=
  (∀ (s : State) (rails : BitVec 512), s.power.gov.period < s.now / 10000 →
    (s.isSet F.GOV_CTRL.EN 0 = false → Leads (.governorPeriod rails) s (fun t =>
      t.get F.GOV_POWER.MW 0 = min ((((List.range 4).foldl (fun a q => a + quadMw rails q) 0 +
        1000 * s.get F.GOV_OTHER_W.W 0) :: s.power.gov.samples).take 10 |>.foldl (· + ·) 0) (10 * (2 ^ 32 - 1)) / 10 ∧
      (∀ q : Fin 4, t.get F.GOV_Q_STATE.POWER q.val = min (quadMw rails q.val / 100) 65535) ∧
      RegsKeep s t ([regKey R.GOV_POWER 0, regKey R.GOV_STATUS 0] ++ (List.range 4).map (regKey R.GOV_Q_STATE)))) ∧
    (s.isSet F.GOV_CTRL.EN 0 = true → Leads (.governorPeriod rails) s (fun t =>
      t = ((s.setGov { s.power.gov with period := s.now / 10000 }).govSample rails).govLevers rails))) ∧
  (∀ (s : State) (q : Fin 4) (old v at64 : Nat) (later : List (Nat × Nat)),
    s.power.gov.avs.get none q.val = some (old, (v, at64) :: later) → at64 + 100000 ≤ s.now → s.now ≤ at64 + 102000 →
    ∃ u, exec (.avsTimeout q) s = .next (u.raise { code := 0x0350, sev := 2, source := srcGovernor }) ∧
      u.get F.GOV_Q_STATE.VSET q.val = old % 1024 ∧ u.get F.GOV_STATUS.AVS_FAIL 0 = 1 ∧
      RegsKeep s u [regKey R.GOV_Q_STATE q.val, regKey R.GOV_STATUS 0]) ∧
  (∀ (s : State) (k : Fin 16) (mv : BitVec 10), max 1 (s.get F.GOV_DROOP_CFG.MV 0) < mv.toNat →
    s.power.gov.sags.get false k.val = false →
    Leads (.droopEvent k mv) s (fun t => t.power.gov.stretch.get false (droopQuad k.val) = true ∧
      t.reg R.GOV_DROOP_CNT 0 = min (s.reg R.GOV_DROOP_CNT 0 + 1) (2 ^ 32 - 1) ∧
      RegsKeep s t [regKey R.GOV_DROOP_CNT 0])) ∧
  (∀ (s : State) (q : Fin 4), s.power.gov.stretch.get false q.val = true →
    (∀ k, k < 16 → droopQuad k = q.val → s.power.gov.sags.get false k = false) →
    s.power.gov.sagEnd.get 0 q.val + 1000 ≤ s.now →
    Leads (.droopRelease q) s (fun t => t.power.gov.stretch.get false q.val = false ∧ t.regs = s.regs))

/-- TEMP_SOFT, TEMP_HARD with its release, and the thermal trip (R399, R403, R496). -/
def Obligations.ThermalLimits : Prop :=
  ∀ (s : State) (i : Fin 64) (v : BitVec 12),
    (s.tempSoft ≤ toSigned 12 v.toNat → toSigned 12 v.toNat < 920 → s.isSet F.GOV_STATUS.HARD 0 = false →
      (s.reading i.val v).anyTemp (List.range 64) s.tempHard = false → Leads (.tempSoftCrossing i v) s (fun t => t.temp i.val = some (toSigned 12 v.toNat) ∧
      t.isSet F.GOV_Q_STATE.HOT (i.val / 16) = true ∧ bitAt (t.get F.GOV_STATUS.HOT 0) (i.val / 16) = true ∧
      OnlyRegs s t [regKey R.GOV_TEMP i.val, regKey R.GOV_Q_STATE (i.val / 16), regKey R.GOV_STATUS 0])) ∧
    (s.tempHard ≤ toSigned 12 v.toNat → s.isSet F.GOV_STATUS.HARD 0 = false → Leads (.tempHard i v) s (fun t =>
      t.isSet F.GOV_STATUS.HARD 0 = true ∧ t.out.msix = (0, 4) :: s.out.msix ∧
      ∀ q : Fin 4, t.vset q.val = 550 ∧ 1 ≤ t.fabdiv q.val)) ∧
    (s.isSet F.GOV_STATUS.HARD 0 = true → s.isSet F.GOV_CTRL.EN 0 = false →
      (s.reading i.val v).anyTemp (List.range 64) (s.tempHard - 40) = false → Leads (.tempHardRelease i v) s (fun t =>
      t.isSet F.GOV_STATUS.HARD 0 = false ∧ ∀ q : Fin 4, t.vset q.val = s.vtarget q.val ∧ t.fabdiv q.val = 0)) ∧
    (920 ≤ toSigned 12 v.toNat → Leads (.thermalTrip i v) s (fun t => t.power.gov.trip = true ∧
      t.temp i.val = some (toSigned 12 v.toNat)))

/-- Clock monitors, loops that lose, acquire and lock, glitch-free multiplexers, DOM_RESET and clock gating (R406, R407,
R408, R409, R410, R411, R412, R413, R414, R415). EXP_KHZ x 40.96 us is read with its units (log 61). -/
def Obligations.ClocksAndMultiplexers : Prop :=
  (∀ (k : Fin 61) (count : Word) (s : State) (e x tol : Nat), s.get F.CLK_MON_CFG.EXP_KHZ k.val = e →
    s.get F.CLK_MON_CFG.TOL k.val = tol →
    x = (count.toNat * 100000 - e * 4096) + (e * 4096 - count.toNat * 100000) → s.crystalUp = true →
    Leads (.clockMonitorWindow k count) s (fun t => t.reg R.CLK_MON_COUNT k.val = count.toNat ∧
      (e = 0 → t.get F.CLK_MON_STATUS.GOOD k.val = 0) ∧
      (e ≠ 0 ∧ k.val ≠ 0 ∧ e * 4096 * 2 ^ tol < x * 10000 →
        t.get F.CLK_MON_STATUS.GOOD k.val = 0 ∧ t.get F.CLK_MON_STATUS.BAD k.val = 1) ∧
      (e ≠ 0 ∧ count = 0 → t.get F.CLK_MON_STATUS.GOOD k.val = 0 ∧ t.get F.CLK_MON_STATUS.STOPPED k.val = 1) ∧
      (e ≠ 0 ∧ k.val ≠ 0 ∧ x * 10000 ≤ e * 4096 * 2 ^ tol ∧ count ≠ 0 ∧
          (s.isSet F.CLK_MON_STATUS.STOPPED k.val = false ∨ s.clk.stopAt.get 0 k.val + 40960 ≤ s.now) →
        t.get F.CLK_MON_STATUS.GOOD k.val = 1 ∧ t.get F.CLK_MON_STATUS.STOPPED k.val = 0 ∧
        t.get F.CLK_MON_STATUS.BAD k.val = s.get F.CLK_MON_STATUS.BAD k.val) ∧
      (e ≠ 0 ∧ k.val = 0 ∧ count ≠ 0 ∧
          (s.isSet F.CLK_MON_STATUS.STOPPED k.val = false ∨ s.clk.stopAt.get 0 k.val + 40960 ≤ s.now) →
        t.get F.CLK_MON_STATUS.GOOD k.val = bit (decide (x * 100 ≤ e * 4096 * 15))) ∧
      RegsKeep s t [regKey R.CLK_MON_COUNT k.val, regKey R.CLK_MON_STATUS k.val])) ∧
  (∀ (k : Fin 61) (count : Word) (s : State), s.crystalUp = false → exec (.clockMonitorWindow k count) s = .next s) ∧
  (∀ (k : Fin 61) (s : State), (s.get F.CLK_MON_CFG.EXP_KHZ k.val = 0 ∨ s.dark = true → exec (.clockSourceStopped k) s = .next s) ∧
    (s.get F.CLK_MON_CFG.EXP_KHZ k.val ≠ 0 → s.dark = false → Leads (.clockSourceStopped k) s (fun t =>
      t.get F.CLK_MON_STATUS.STOPPED k.val = 1 ∧ t.get F.CLK_MON_STATUS.GOOD k.val = 0 ∧
      RegsKeep s t [regKey R.CLK_MON_STATUS k.val]))) ∧
  (∀ (l : Fin 5), State.reset.loopOk l.val (State.reset.reg R.CLK_LOOP_CFG l.val) 0 = true ∧
    vcoScaled (State.reset.refKhz l.val) (State.reset.reg R.CLK_LOOP_CFG l.val) 0 =
      [1000000, 750000, 1600000, 1250000, 500000].getD l.val 0 * cfgOutdiv (State.reset.reg R.CLK_LOOP_CFG l.val) *
        cfgRefdiv (State.reset.reg R.CLK_LOOP_CFG l.val) * 2 ^ 24) ∧
  (∀ (l : Fin 85) (s : State),
    (s.isSet F.CLK_LOOP_STATUS.LOCK l.val = false → s.clk.idle.get false l.val = true ∨ s.loopReady l.val = false ∨ s.sourceBad l.val = false →
      exec (.loopLoss l) s = .next s) ∧
    (s.isSet F.CLK_LOOP_STATUS.LOCK l.val = true ∨ (s.clk.idle.get false l.val = false ∧ s.loopReady l.val = true ∧ s.sourceBad l.val = true) →
      Leads (.loopLoss l) s (fun t =>
      t.get F.CLK_LOOP_STATUS.LOCK l.val = 0 ∧ t.get F.CLK_LOOP_STATUS.LOSS l.val = 1 ∧
      t.get F.CLK_LOOP_STATUS.COASTING l.val = 1 ∧ (l.val = 4 → t.get F.TOD_STATUS.LOSS 0 = 1) ∧
      t.clk = { s.clk with idle := s.clk.idle.set false l.val true }))) ∧
  (∀ (l : Fin 85) (s : State) (k : Nat), l.val < 21 → s.loopSource l.val = some k →
    (s.clk.idle.get false l.val = true → s.isSet F.CLK_LOOP_CTRL.AUTO l.val = true → s.loopRuns l.val = true →
      s.clk.good.get 0 k ≠ 0 → s.clk.good.get 0 k - 1 + 1000000 ≤ s.now →
      s.loopOk l.val (s.reg R.CLK_LOOP_CFG l.val) (s.reg R.CLK_LOOP_FRAC l.val) = true →
      Leads (.loopAutoRelock l) s (fun t => t.get F.CLK_LOOP_STATUS.LOCK l.val = 0 ∧
        t.get F.CLK_LOOP_STATUS.COASTING l.val = 1 ∧ t.clk.idle.get false l.val = false ∧
        t.clk.used.get none l.val = some (s.reg R.CLK_LOOP_CFG l.val, s.reg R.CLK_LOOP_FRAC l.val) ∧
        RegsKeep s t [regKey R.CLK_LOOP_STATUS l.val])) ∧
    (s.clk.good.get 0 k = 0 ∨ s.now < s.clk.good.get 0 k - 1 + 1000000 ∨ s.isSet F.CLK_LOOP_CTRL.AUTO l.val = false →
      exec (.loopAutoRelock l) s = .next s)) ∧
  (∀ (acc : Accessor) (v : Word) (s : State) (l : Nat), Writes s acc 0 R.CLK_LOOP_CTRL 0 l →
    (21 ≤ l → Leads (.relock acc v) s (fun t => HubKeep s t [])) ∧
    (l < 21 → v.toNat % 16 = 7 → Leads (.relock acc v) s (fun t => t.get F.CLK_LOOP_STATUS.LOCK l = 0 ∧
      t.get F.CLK_LOOP_STATUS.COASTING l = 1 ∧ t.clk.idle.get false l = false ∧ t.isSet F.CLK_LOOP_CTRL.EN l = true ∧
      (s.loopOk l (s.reg R.CLK_LOOP_CFG l) (s.reg R.CLK_LOOP_FRAC l) = true →
        t.clk.used.get none l = some (s.reg R.CLK_LOOP_CFG l, s.reg R.CLK_LOOP_FRAC l)) ∧
      (s.loopOk l (s.reg R.CLK_LOOP_CFG l) (s.reg R.CLK_LOOP_FRAC l) = false →
        t.get F.CLK_LOOP_STATUS.CFG_REJ l = 1 ∧ t.clk.used = s.clk.used) ∧
      RegsKeep s t [regKey R.CLK_GATE_WAKES 0, regKey R.CLK_LOOP_STATUS l, regKey R.CLK_LOOP_CTRL l]))) ∧
  (∀ (l : Fin 85) (s : State),
    (s.isSet F.CLK_LOOP_STATUS.LOCK l.val = true ∨ s.clk.idle.get false l.val = true ∨ s.loopReady l.val = false ∨
        s.sourceBad l.val = true → exec (.loopLock l) s = .next s) ∧
    (s.isSet F.CLK_LOOP_STATUS.LOCK l.val = false → s.clk.idle.get false l.val = false →
      s.loopReady l.val = true → s.sourceBad l.val = false → Leads (.loopLock l) s (fun t =>
        t.get F.CLK_LOOP_STATUS.LOCK l.val = 1 ∧ t.get F.CLK_LOOP_STATUS.COASTING l.val = 0 ∧
        t.get F.CLK_LOOP_STATUS.LOSS l.val = s.get F.CLK_LOOP_STATUS.LOSS l.val ∧
        (l.val ≤ 2 ∧ s.get F.CLK_MUX_STATUS.CUR (45 + l.val) = 0 ∧
          s.isSet F.CLK_MUX_STATUS.MUX_PENDING (45 + l.val) = false → t.get F.CLK_MUX_STATUS.CUR (45 + l.val) = 12) ∧
        (l.val = 3 → t.clk = { s.clk with engUp := true }) ∧ (l.val = 4 → t.clk = { s.clk with timeUp := true }) ∧
        RegsKeep s t [regKey R.CLK_LOOP_STATUS l.val, regKey R.CLK_MUX_STATUS (45 + l.val),
          regKey R.CLK_MUX_CTRL (45 + l.val)]))) ∧
  (∀ (acc : Accessor) (v : Word) (s : State) (m : Nat), Writes s acc 0 R.CLK_MUX_CTRL 0 m → bitAt v.toNat 8 = false →
    (muxAllows m (v.toNat % 16) = false → Leads (.clkMuxSwitch acc v) s (fun t =>
      t.get F.CLK_MUX_CTRL.CFG_REJ m = 1 ∧ t.get F.CLK_MUX_CTRL.SEL m = s.get F.CLK_MUX_CTRL.SEL m ∧
      HubKeep s t [regKey R.CLK_MUX_CTRL m])) ∧
    (muxAllows m (v.toNat % 16) = true → s.clk.muxLow.get false m = false →
      s.isSet F.CLK_MUX_STATUS.MUX_PENDING m = false → v.toNat % 16 ≠ s.get F.CLK_MUX_STATUS.CUR m →
      Leads (.clkMuxSwitch acc v) s (fun t => t.get F.CLK_MUX_CTRL.SEL m = v.toNat % 16 ∧
        t.get F.CLK_MUX_STATUS.MUX_PENDING m = 1 ∧ t.get F.CLK_MUX_STATUS.CUR m = s.get F.CLK_MUX_STATUS.CUR m ∧
        t.clk.muxAt.get 0 m = s.now + 1 ∧
        RegsKeep s t [regKey R.CLK_GATE_WAKES 0, regKey R.CLK_MUX_CTRL m, regKey R.CLK_MUX_STATUS m])) ∧
    (muxAllows m (v.toNat % 16) = true → s.clk.muxLow.get false m = false →
      s.isSet F.CLK_MUX_STATUS.MUX_PENDING m = true → Leads (.clkMuxSwitch acc v) s (fun t =>
        t.get F.CLK_MUX_CTRL.SEL m = v.toNat % 16 ∧ HubKeep s t [regKey R.CLK_MUX_CTRL m])) ∧
    (muxAllows m (v.toNat % 16) = true → s.clk.muxLow.get false m = true → bitAt v.toNat 9 = false →
      Leads (.clkMuxSwitch acc v) s (fun t => HubKeep s t []))) ∧
  (∀ (m : Fin 48) (first : Bool) (s : State),
    (s.isSet F.CLK_MUX_STATUS.MUX_PENDING m.val = false → exec (.clkMuxSwitchComplete m first) s = .next s) ∧
    (s.isSet F.CLK_MUX_STATUS.MUX_PENDING m.val = true → first = true →
      s.muxInputRuns m.val (s.get F.CLK_MUX_STATUS.CUR m.val) = true → Leads (.clkMuxSwitchComplete m first) s (fun t =>
      t.clk = { s.clk with muxLow := s.clk.muxLow.set false m.val true } ∧ t.regs = s.regs)) ∧
    (s.isSet F.CLK_MUX_STATUS.MUX_PENDING m.val = true → first = false → s.clk.muxLow.get false m.val = true →
      (s.muxOntoCrystal m.val = false ∨ s.crystalUp = true) →
      s.muxInputRuns m.val (s.get F.CLK_MUX_CTRL.SEL m.val) = true → Leads (.clkMuxSwitchComplete m first) s (fun t => t.get F.CLK_MUX_STATUS.CUR m.val = s.get F.CLK_MUX_CTRL.SEL m.val ∧
        t.get F.CLK_MUX_STATUS.MUX_PENDING m.val = 0 ∧ t.clk.muxLow.get false m.val = false ∧
        RegsKeep s t [regKey R.CLK_MUX_STATUS m.val])) ∧
    (first = false → s.clk.muxLow.get false m.val = false → exec (.clkMuxSwitchComplete m first) s = .next s) ∧
    (s.muxInputRuns m.val (if first then s.get F.CLK_MUX_STATUS.CUR m.val else s.get F.CLK_MUX_CTRL.SEL m.val) = false →
      exec (.clkMuxSwitchComplete m first) s = .next s)) ∧
  (∀ (m : Fin 48) (s : State),
    (s.isSet F.CLK_MUX_STATUS.MUX_PENDING m.val = true → s.isSet F.CLK_MUX_STATUS.MUX_STUCK m.val = false →
      s.clk.muxAt.get 0 m.val - 1 + 1000000 ≤ s.now → Leads (.muxStuck m) s (fun t =>
        t = (s.put F.CLK_MUX_STATUS.MUX_STUCK m.val 1).raise { code := 0x0342, sev := 2, source := src 0x11 m.val } ∧
        t.get F.CLK_MUX_STATUS.MUX_STUCK m.val = 1)) ∧
    (s.isSet F.CLK_MUX_STATUS.MUX_PENDING m.val = false ∨ s.now < s.clk.muxAt.get 0 m.val - 1 + 1000000 →
      exec (.muxStuck m) s = .next s)) ∧
  (∀ (acc : Accessor) (v : Word) (s : State) (m : Nat), Writes s acc 0 R.CLK_MUX_CTRL 0 m → bitAt v.toNat 8 = true →
    muxAllows m (v.toNat % 16) = true → m < 45 → Leads (.domReset acc v) s (fun t =>
      t.get F.CLK_MUX_STATUS.CUR m = v.toNat % 16 ∧ t.get F.CLK_MUX_STATUS.MUX_PENDING m = 0 ∧
      t.get F.CLK_MUX_STATUS.MUX_STUCK m = 0 ∧ t.clk.muxLow.get false m = false ∧
      (m ≤ 20 ∧ s.loopRuns m = true → t.get F.CLK_LOOP_STATUS.COASTING m = 1 ∧ t.get F.CLK_LOOP_STATUS.LOCK m = 0 ∧
        t.clk.idle.get false m = false))) ∧
  (∀ (acc : Accessor) (v : Word) (s : State) (m : Nat), Writes s acc 0 R.CLK_MUX_CTRL 0 m → bitAt v.toNat 8 = true →
    45 ≤ m → muxAllows m (v.toNat % 16) = true → s.booting = false → s.clk.gated.get false 3 = false →
    exec (.domReset acc v) s = .next ((s.muxDomReset m v.toNat).deviceReset kWarm)) ∧
  (∀ (blk : Fin 15) (held : Bool) (s : State),
    (s.isSet F.CLK_GATE_CFG.EN 0 = true → neverGated blk.val = false → held = false →
      Leads (.clockGateRequest blk held) s (fun t => t.clk = { s.clk with gated := s.clk.gated.set false blk.val true } ∧
        t.regs = s.regs)) ∧
    (s.isSet F.CLK_GATE_CFG.EN 0 = false ∨ neverGated blk.val = true ∨ held = true →
      exec (.clockGateRequest blk held) s = .next s) ∧
    (s.clk.gated.get false blk.val = true → Leads (.gatedBlockWake blk) s (fun t =>
      t.clk = { s.clk with gated := s.clk.gated.set false blk.val false } ∧
      t.reg R.CLK_GATE_WAKES 0 = min (s.reg R.CLK_GATE_WAKES 0 + 1) (2 ^ 32 - 1) ∧
      RegsKeep s t [regKey R.CLK_GATE_WAKES 0])) ∧
    (s.clk.gated.get false blk.val = false → exec (.gatedBlockWake blk) s = .next s))

/-- The device resets: what each keeps and loses, how resets meet, HIBERNATE's wake, the DEBUG reset and firmware's
restore (R365, R393, R420, R421, R422, R423, R425, R427, R428, R473). -/
def Obligations.DeviceResets : Prop :=
  (∀ (k : Nat) (r : RegRow) (i : Nat) (s : State), k ∈ [0, 1, 2, 3, 4, 10] → regLookup r.off = some (r, 0) → i < 2 ^ 32 →
    r.off ∉ [R.CFG_FAIL.off, R.CFG_FAIL_POS.off, R.TC_STATE.off, R.PWR_WAKE_CFG.off, R.PWR_MITTEN_STATUS.off, R.HBM_STATUS.off,
      R.HBM_PC_STATUS.off, R.CIPH_STATUS.off, R.CFG_SCRUB_STATUS.off] →
    (s.deviceReset k).reg r i = (if bitAt r.surv k = true then s.reg r i else resetOf r i % 2 ^ 32)) ∧
  (∀ (k : Nat) (s : State), k ∈ [0, 1, 2, 3, 4, 10] → (s.deviceReset k).get F.CFG_SCRUB_STATUS.REPAIRING 0 = 0 ∧
    (s.deviceReset k).get F.CFG_SCRUB_STATUS.PAUSED 0 = 0 ∧ (k = 2 ∨ k = 3 ∨ k = 4 →
      (s.deviceReset k).reg R.HBM_STATUS 0 = s.reg R.HBM_STATUS 0 ∧ (s.deviceReset k).reg R.CIPH_STATUS 0 = s.reg R.CIPH_STATUS 0)) ∧
  (∀ (k : Nat) (s : State), k ∈ [0, 1, 2, 3, 4, 10] → (s.deviceReset k).pending = s.pending ∧
    (s.deviceReset k).mbx = {} ∧ (s.deviceReset k).time = {} ∧ (s.deviceReset k).links = {} ∧ (s.deviceReset k).net = {} ∧
    (s.deviceReset k).disp = [] ∧ (s.deviceReset k).cores = [] ∧ (s.deviceReset k).clk = {} ∧ (s.deviceReset k).fab = {} ∧
    (s.deviceReset k).sec.keyRam = s.sec.keyRam ∧ (s.deviceReset k).cfg.load = none ∧
    (s.deviceReset k).cfg.cause = (if k = 10 then 5 else k) ∧
    (s.deviceReset k).cfg.strapsDue = decide (k = 0 ∨ k = 1 ∨ k = 4) ∧
    (k = 0 ∨ k = 10 → (s.deviceReset k).cfg.phase = .crystal) ∧
    (k = 2 ∨ k = 3 ∨ k = 4 → (s.deviceReset k).cfg.phase = .released ∧
      (s.deviceReset k).store.bytes = s.store.bytes ∧ (s.deviceReset k).store.poison = s.store.poison ∧
      (s.deviceReset k).err.log.map (fun e => (e.code, e.seq)) = s.err.log.map (fun e => (e.code, e.seq)) ∧
      (s.deviceReset k).sec.life = s.sec.fuses.settle.life) ∧
    (k = 0 ∨ k = 1 ∨ k = 10 → (s.deviceReset k).err = {} ∧
      ∀ a, (s.deviceReset k).store.bytes.get 0 a = (if byteKept k a = true then s.store.bytes.get 0 a else 0)) ∧
    (k = 0 → (s.deviceReset k).dbg = {} ∧ (s.deviceReset k).reg R.PWR_WAKE_CFG 0 = 0) ∧
    (k ≠ 0 → ∀ n < 256, s.agentHalted n = true → (s.deviceReset k).get F.TC_STATE.HALTED n = 1)) ∧
  (∀ (k : Nat) (s : State) (l : Load), k ∈ [2, 3, 4] → s.cfg.load = some l → s.cfg.phase ≠ .dark →
    s.isSet F.CFG_FAIL.VALID 0 = false → (s.deviceReset k).get F.CFG_FAIL.CODE 0 = 0x0C ∧
    (s.deviceReset k).get F.CFG_FAIL.OVERLAY 0 = bit l.overlay) ∧
  (∀ s : State, (s.power.vbatGone = false → exec .por s = .next (s.deviceReset 0)) ∧
    (s.power.vbatGone = true → exec .por s = .next ((if Config.vauxAbsent s.free
      then ({ s with free := s.free + 1 } : State).rtcLost else { s with free := s.free + 1 }).deviceReset 0))) ∧
  (∀ (ns : BitVec 32) (seen : Bool) (s : State), s.booting = false →
    (1000 ≤ ns.toNat ∨ (100 ≤ ns.toNat ∧ seen = true) → exec (.pinReset ns seen) s = .next (s.deviceReset 1) ∧
      exec (.programNLow ns seen) s = .next (s.deviceReset 4)) ∧
    (ns.toNat < 100 ∨ (ns.toNat < 1000 ∧ seen = false) → exec (.pinReset ns seen) s = .next s ∧
      exec (.programNLow ns seen) s = .next s)) ∧
  (∀ s : State, s.booting = false → (s.flashBusy = false → exec .warmReset s = .next (s.deviceReset 2)) ∧
    (s.flashBusy = true → exec .warmReset s = .next { s with upd := { s.upd with warmDue := true } }) ∧
    (s.fwRuns = true → s.agentHalted 256 = false → s.mbx.fwWait ≤ s.now →
      exec .watchdogReset s = .next (s.deviceReset 3)) ∧
    (s.fwRuns = false ∨ s.agentHalted 256 = true ∨ s.now < s.mbx.fwWait → exec .watchdogReset s = .next s)) ∧
  (∀ s : State, s.booting = true → (s.cfg.cause = 0 → exec (.pinReset 1000 false) s = .next s ∧
      exec .warmReset s = .next s ∧ exec .watchdogReset s = .next s ∧
      exec (.programNLow 1000 false) s = .next (s.deviceReset 0)) ∧
    (s.cfg.cause = 1 → exec (.pinReset 1000 false) s = .next (s.deviceReset 1) ∧ exec .warmReset s = .next s ∧
      exec (.programNLow 1000 false) s = .next (s.deviceReset 1)) ∧
    (s.cfg.cause = 4 → exec (.pinReset 1000 false) s = .next (s.deviceReset 1) ∧ exec .warmReset s = .next s)) ∧
  (∀ (s : State) (x : DevState) (k : Nat), s.power.dev = some x →
    (x.wake = some k → x.entered = true → x.target = 3 → k < 7 → Leads .hibernateWake s (fun t => t.cfg.cause = 5 ∧
      t.cfg.phase = .crystal ∧ t.get F.PWR_MITTEN_STATUS.LP 0 = 0 ∧ t.get F.PWR_MITTEN_STATUS.LAST_WAKE 0 = k + 1 ∧
      t.reg R.PWR_RTC_SEC 0 = s.reg R.PWR_RTC_SEC 0 ∧ t.power.dev = none)) ∧
    (x.wake = none ∨ x.entered = false ∨ x.target ≠ 3 → exec .hibernateWake s = .next s)) ∧
  (∀ (s : State) (r : RegRow) (i : Nat), regLookup r.off = some (r, 0) → i < 2 ^ 32 → Leads .debugReset s (fun t =>
    t.dbg = {} ∧ t.trace = {} ∧ (∀ n < 258, t.agentHalted n = false) ∧
    (dbgRow r = true ∧ bitAt r.surv 7 = false → t.reg r i = resetOf r i % 2 ^ 32) ∧
    (dbgRow r = false ∧ (List.range 258).filter s.agentHalted = [] → t.reg r i = s.reg r i) ∧
    ((List.range 258).filter s.agentHalted = [] → t.cores = s.cores ∧ t.disp = s.disp ∧ t.cfg = s.cfg ∧ t.sec = s.sec))) ∧
  (∀ s : State,
    (s.cfg.phase = .started → s.get F.DEV_FW_STATE.STATE 0 = 1 → s.get F.HBM_STATUS.TRAINED 0 = 3 →
      (s.cfg.cause ∈ [0, 1, 5] → s.get F.HBM_STATUS.INIT_DONE 0 = 3) → s.store.damage = [] → s.err.log = [] →
      Leads .firmwareRestore s (fun t => t.get F.DEV_FW_STATE.STATE 0 = 2 ∧ t.get F.GOV_CTRL.EN 0 = 1 ∧
        (∀ b < 8, t.get F.MBX_STATUS.FW_READY b = 1) ∧
        t.err.log.map (fun e => (e.code, e.sev, e.detail)) = [(0x0390, 0, s.cfg.cause)])) ∧
    (s.cfg.phase ≠ .started ∨ s.get F.DEV_FW_STATE.STATE 0 ≠ 1 ∨ s.get F.HBM_STATUS.TRAINED 0 ≠ 3 ∨ (s.cfg.cause ∈ [0, 1, 5] ∧
      s.get F.HBM_STATUS.INIT_DONE 0 ≠ 3) → exec .firmwareRestore s = .next s)) ∧
  (∀ (v : Word) (s : State) (i : Nat), Writes s .debugger 0 R.DBG_WARM_KEY 0 i → s.clk.gated.get false 14 = false →
    (s.dbg.key = none → v.toNat = 0xA5A5 → Leads (.dbgWarmKey .debugger v) s (fun t =>
      t = { s with dbg := { s.dbg with key := some s.now } })) ∧
    (∀ x, s.dbg.key = some x → v.toNat = 1 → s.now ≤ x + 1000 → s.dbgLevel = 2 → s.booting = false →
      Leads (.dbgWarmKey .debugger v) s (fun t => t = ({ s with dbg := { s.dbg with key := none } } : State).deviceReset 2)) ∧
    (∀ x, s.dbg.key = some x → v.toNat ≠ 1 ∨ x + 1000 < s.now ∨ s.dbgLevel ≠ 2 →
      Leads (.dbgWarmKey .debugger v) s (fun t => t = { s with dbg := { s.dbg with key := none } })))

/-- Provisioning requests and their checks, the fuses they blow, key RAM, PROVE and CERT_READ, tampering, challenge and
lockout (R429, R431, R432, R433, R435, R436, R437, R438, R439, R440, R447). The order of a request's checks and the
answer to a bad form are the model's choice (log 53). -/
def Obligations.GauntletRequests : Prop :=
  (∀ (req : BitVec 2176) (b : Fin 3) (s : State),
    (reqOp req ≠ 0 → exec (.getNonce req) s = .next s) ∧ (reqOp req ≠ 1 → exec (.advance req b) s = .next s) ∧
    (reqOp req ≠ 2 → exec (.imageSlot req b) s = .next s) ∧ (reqOp req ≠ 3 → exec (.revokeSlot req b) s = .next s) ∧
    (reqOp req ≠ 4 → exec (.debugHash req b) s = .next s) ∧ (reqOp req ≠ 5 → exec (.goldenBase req b) s = .next s) ∧
    (reqOp req ≠ 6 → exec (.keyRamLoad req) s = .next s) ∧ (reqOp req ≠ 7 → exec (.keyRamClear req) s = .next s) ∧
    (reqOp req ≠ 8 → exec (.prove req) s = .next s) ∧ (reqOp req ≠ 9 → exec (.certRead req) s = .next s)) ∧
  (∀ (req : BitVec 2176) (s : State),
    (req.toNat % 2 ^ 32 ≠ 0x52504D45 → s.reqCheck req = stParam) ∧
    (req.toNat % 2 ^ 32 = 0x52504D45 → bitsOf req.toNat 48 16 = 0 →
      (reqOp req = 0 ∨ reqOp req = 8 ∨ reqOp req = 9 → s.reqCheck req = stOK) ∧
      (reqOp req ∉ [0, 8, 9] → s.sec.life = 3 → s.reqCheck req = stState) ∧
      (reqOp req ∉ [0, 8, 9] → s.sec.life ≠ 3 → s.isSet F.SEC_LOCKS.PROV_LOCK 0 = true → s.reqCheck req = stLocked) ∧
      (reqOp req ∉ [0, 8, 9] → s.sec.life ≠ 3 → s.isSet F.SEC_LOCKS.PROV_LOCK 0 = false →
        s.reqCheck req = (if s.sec.life ≠ 0 ∧ s.reqSigned req = false then stAuth
          else if (reqOp req = 6 ∨ reqOp req = 7) ∧ s.isSet F.SEC_LOCKS.KEYRAM_LOCK 0 = true then stLocked else stOK)))) ∧
  (∀ (req : BitVec 2176) (st : Nat) (extra : List Nat) (s : State), st < 65536 →
    (s.reqEnd req st extra).sec = { s.sec with nonce := (s.reqEnd req st extra).sec.nonce, rsp := (s.reqEnd req st extra).sec.rsp } ∧
    (s.reqEnd req st extra).sec.rsp.tail = s.sec.rsp ∧
    leValue (((s.reqEnd req st extra).sec.rsp.headD []).take 2) = st ∧ ((s.reqEnd req st extra).sec.rsp.headD []).length = 40 + extra.length ∧
    leValue ((((s.reqEnd req st extra).sec.rsp.headD []).drop 8).take 32) = (s.reqEnd req st extra).sec.nonce.toNat ∧
    (s.reqEnd req st extra).reg R.SEC_REQ_STATUS 0 = (reqOp req * 2 ^ 8 + st * 2 ^ 16) ∧
    RegsKeep s (s.reqEnd req st extra) [regKey R.SEC_REQ_STATUS 0]) ∧
  (∀ (req : BitVec 2176) (b : Fin 3) (s : State), b.val ≠ 2 → s.reqCheck req = stOK →
    (reqOp req = 1 → exec (.advance req b) s =
      .next ((s.advance (reqValue req) b).2.reqEnd req (s.advance (reqValue req) b).1)) ∧
    (reqOp req = 3 → exec (.revokeSlot req b) s =
      .next ((s.revokeSlot (reqIndex req) b).2.reqEnd req (s.revokeSlot (reqIndex req) b).1))) ∧
  (∀ (s : State) (f : Fuses), s.sec.fuses = f →
    (f.life = 1 → s.sec.life = 1 → s.advance 2 0 = (stOK, s.setFuses { f with life := 2 })) ∧
    (f.life = 2 → s.sec.life = 2 → (s.advance 3 0).1 = stOK ∧ (s.advance 3 0).2.sec.fuses.life = 3 ∧
      (s.advance 3 0).2.sec.life = 3 ∧ (s.advance 3 0).2.sec.keyRam = [] ∧ (s.advance 3 0).2.store.keys = [] ∧
      (s.advance 3 0).2.get F.SEC_DBG_STATUS.LEVEL 0 = 0) ∧
    (∀ k j : Nat, s.sec.life ≠ 0 → k < j → j ≤ 3 → (f.imgSlot j).valid = true → (f.imgSlot j).revoke = false →
      (f.imgSlot k).revoke = false → s.revokeSlot k 0 =
        (stOK, s.setFuses { f with img := f.img.set {} k { f.imgSlot k with revoke := true } }))) ∧
  (∀ (req : BitVec 2176) (b : Fin 3) (s : State) (c : Nat), s.reqCheck req = c → c ≠ stOK → b.val ≠ 2 →
    (reqOp req = 1 → exec (.advance req b) s = .next (s.reqEnd req c)) ∧
    (reqOp req = 2 → exec (.imageSlot req b) s = .next (s.reqEnd req c)) ∧
    (reqOp req = 3 → exec (.revokeSlot req b) s = .next (s.reqEnd req c)) ∧
    (reqOp req = 4 → exec (.debugHash req b) s = .next (s.reqEnd req c)) ∧
    (reqOp req = 5 → exec (.goldenBase req b) s = .next (s.reqEnd req c)) ∧
    (reqOp req = 6 → exec (.keyRamLoad req) s = .next (s.reqEnd req c)) ∧
    (reqOp req = 7 → exec (.keyRamClear req) s = .next (s.reqEnd req c))) ∧
  (∀ (req : BitVec 2176) (s : State) (f : Fuses) (v : Nat), s.reqCheck req = stOK → s.sec.fuses = f → reqValue req = v →
    (reqOp req = 0 → exec (.getNonce req) s = .next (s.reqEnd req stOK)) ∧
    (reqOp req = 1 → v = 1 → f.life = 0 → f.slotInUse ≠ none →
      exec (.advance req 0) s = .next ((s.setFuses { f with life := 1 }).reqEnd req stOK)) ∧
    (reqOp req = 1 → v = 1 → f.life = 0 → f.slotInUse = none → exec (.advance req 0) s = .next (s.reqEnd req stState)) ∧
    (reqOp req = 1 → 1 ≤ v → v ≤ 3 → v ≤ f.life → exec (.advance req 0) s = .next (s.reqEnd req stLocked)) ∧
    (reqOp req = 1 → v = 2 → f.life = 0 → exec (.advance req 0) s = .next (s.reqEnd req stState)) ∧
    (reqOp req = 1 → v = 1 → f.life = 0 → f.slotInUse ≠ none →
      exec (.advance req 1) s = .next (s.fuseFail.reqEnd req stHw) ∧ exec (.advance req 2) s = .next s)) ∧
  (∀ (req : BitVec 2176) (s : State) (f : Fuses) (k : Nat), s.reqCheck req = stOK → s.sec.fuses = f → reqIndex req = k →
    (∀ (key h : BitVec 256), reqOp req = 2 → k ≤ 3 → f.imgSlot k = {} → s.reqKey ((reqPart req 0x30 96).take 40) = some key →
      h = item256 (((reqPart req 0x30 96).drop 40).take 32) →
      exec (.imageSlot req 0) s = .next ((s.setFuses { f with
        img := f.img.set {} k { key := key, hash := h, valid := true } }).reqEnd req stOK) ∧
      exec (.imageSlot req 2) s = .next (s.setFuses { f with
        img := f.img.set {} k { key := key, hash := h, partly := true } })) ∧
    (reqOp req = 2 → k ≤ 3 → (f.imgSlot k).valid = true → exec (.imageSlot req 0) s = .next (s.reqEnd req stLocked)) ∧
    (reqOp req = 2 → 3 < k → exec (.imageSlot req 0) s = .next (s.reqEnd req stParam)) ∧
    (reqOp req = 2 → k ≤ 3 → f.imgSlot k = {} → s.reqKey ((reqPart req 0x30 96).take 40) = none →
      exec (.imageSlot req 0) s = .next (s.reqEnd req stKey)) ∧
    (reqOp req = 3 → k ≤ 3 → (f.imgSlot k).revoke = false → (∀ j < 4, k < j → (f.imgSlot j).valid = false) →
      exec (.revokeSlot req 0) s = .next (s.reqEnd req stState)) ∧
    (reqOp req = 4 → k ≤ 6 → f.dbgSlot k = {} → exec (.debugHash req 0) s = .next ((s.setFuses { f with
        dbg := f.dbg.set {} k { hash := item256 (reqPart req 0x30 32), valid := true } }).reqEnd req stOK)) ∧
    (reqOp req = 4 → k ≤ 6 → (f.dbgSlot k).valid = true → exec (.debugHash req 0) s = .next (s.reqEnd req stLocked)) ∧
    (reqOp req = 5 → f.golden = none → f.goldenPartly = false → reqValue req % 65536 = 0 → reqValue req < 2 ^ 29 →
      exec (.goldenBase req 0) s = .next ((s.setFuses { f with golden := some (reqValue req) }).reqEnd req stOK)) ∧
    (reqOp req = 5 → f.golden ≠ none → exec (.goldenBase req 0) s = .next (s.reqEnd req stLocked)) ∧
    (∀ key, reqOp req = 6 → k ≤ 7 → s.reqKey (reqPart req 0x30 40) = some key → Leads (.keyRamLoad req) s (fun t =>
      t = (s.setSec { s.sec with keyRam := s.sec.keyRam.set none k (some key) }).reqEnd req stOK ∧
      bitAt t.secKeyRam k = true)) ∧
    (reqOp req = 7 → k ≤ 7 → Leads (.keyRamClear req) s (fun t =>
      t = (s.setSec { s.sec with keyRam := s.sec.keyRam.set none k none }).reqEnd req stOK ∧
      bitAt t.secKeyRam k = false)) ∧
    (reqOp req = 7 → k = 0xFF → exec (.keyRamClear req) s = .next (s.clearKeyRam.reqEnd req stOK)) ∧
    (reqOp req = 8 → Leads (.prove req) s (fun t => (t.sec.rsp.headD []).length = 176 ∧
      ((t.sec.rsp.headD []).drop 40).take 72 = toBytes (s.proveBody (reqPart req 0x10 32)) ∧
      t.sec.fuses = f ∧ t.reg R.SEC_REQ_STATUS 0 = 8 * 2 ^ 8)) ∧
    (reqOp req = 9 → k ≤ 31 → Leads (.certRead req) s (fun t =>
      (t.sec.rsp.headD []).drop 40 = toBytes (certBytes (64 * k) 64) ∧ t.sec.fuses = f)) ∧
    (reqOp req = 9 → 31 < k → exec (.certRead req) s = .next (s.reqEnd req stParam))) ∧
  (∀ (ns : BitVec 32) (powered : Bool) (s : State),
    (ns.toNat < 2000 → exec (.tamper ns powered) s = .next s) ∧
    (2000 ≤ ns.toNat → Leads (.tamper ns powered) s (fun t => t.sec.keyRam = [] ∧ t.get F.SEC_TAMPER.TAMPERED 0 = 1 ∧
      (powered = true → t.store.keys = [] ∧ t.get F.SEC_DBG_STATUS.LEVEL 0 = 0) ∧
      (powered = false → t.store = s.store ∧ RegsKeep s t [regKey R.SEC_TAMPER 0]))) ∧
    Leads .vbatLoss s (fun t => t.sec = { s.sec with keyRam := [] } ∧ t.get F.SEC_TAMPER.TAMPERED 0 = 0 ∧
      RegsKeep s t [regKey R.SEC_TAMPER 0])) ∧
  (∀ (s : State) (c : BitVec 256) (x : Nat), s.sec.challenge = some (c, x) →
    (x + 60000000000 ≤ s.now → Leads .debugChallengeExpiry s (fun t => t.sec = { s.sec with challenge := none } ∧
      t.get F.SEC_DBG_STATUS.CHAL_VALID 0 = 0 ∧ RegsKeep s t [regKey R.SEC_DBG_STATUS 0])) ∧
    (s.now < x + 60000000000 → exec .debugChallengeExpiry s = .next s)) ∧
  (∀ s : State, (s.isSet F.SEC_DBG_STATUS.LOCKOUT 0 = true → s.sec.lockAt + 10000000000 ≤ s.now → Leads .lockoutEnd s (fun t =>
      t.get F.SEC_DBG_STATUS.LOCKOUT 0 = 0 ∧ t.get F.SEC_DBG_STATUS.FAILS 0 = 0 ∧
      t.get F.SEC_DBG_STATUS.LEVEL 0 = s.get F.SEC_DBG_STATUS.LEVEL 0 ∧ OnlyRegs s t [regKey R.SEC_DBG_STATUS 0])) ∧
    (s.isSet F.SEC_DBG_STATUS.LOCKOUT 0 = false ∨ s.now < s.sec.lockAt + 10000000000 → exec .lockoutEnd s = .next s))

/-- HALT, RESUME and STEP, the halt itself, breakpoints, halt groups, a halted core's registers and pc, and DBG_ACCESS
(R32, R188, R208, R463, R465, R466, R467, R468, R469, R471, R472, R473). That DBG_WARM_KEY's pair is cancelled by the
halt of any agent is the model's reading (log 26). -/
def Obligations.RunControl : Prop :=
  (∀ (s : State) (n : Nat), Writes s .debugger 0 R.DBG_CORE_CTRL 0 n → s.clk.gated.get false 14 = false →
    (n < 256 → s.agentHalted n = false → (s.core n).haltReq = none →
      exec (.halt .debugger) s = .next (s.setCore n { s.core n with haltReq := some (1, 0) })) ∧
    (s.agentHalted n = true → exec (.halt .debugger) s = .next s) ∧
    (256 ≤ n → s.debugLevel = 2 → s.agentHalted n = false → s.dbg.key = none → Leads (.halt .debugger) s (fun t =>
      t.get F.DBG_CORE_STATUS.HALTED n = 1 ∧ t.get F.DBG_CORE_STATUS.CAUSE n = 1 ∧ t.get F.DBG_CORE_STATUS.UNIT n = 0 ∧
      RegsKeep s t [regKey R.DBG_CORE_STATUS n] ∧
      t = { s with regs := t.regs, dbg := { s.dbg with fresh := s.dbg.fresh.set false n true } })) ∧
    (256 ≤ n → s.debugLevel ≠ 2 → exec (.halt .debugger) s = .next s ∧ exec (.resume .debugger) s = .next s) ∧
    (n < 256 → s.agentHalted n = true → exec (.resume .debugger) s =
      .next ((({ s with regs := ((s.put F.DBG_CORE_STATUS.HALTED n 0).put F.DBG_CORE_STATUS.CAUSE n 0 |>.put
        F.TC_STATE.HALTED n 0).regs } : State).setCore n { s.core n with
          wdt := (match (s.core n).frozen with | some x => some (s.now + max x (s.reg R.DBG_WDT_GRACE 0)) | none => (s.core n).wdt)
          frozen := none, stepping := false, bpDone := false, haltReq := none }).redecide (n / 64))) ∧
    (s.agentHalted n = false → exec (.resume .debugger) s = .next s ∧ exec (.step .debugger) s = .next s) ∧
    (n < 256 → s.agentHalted n = true → (s.core n).task.isSome = true →
      exec (.step .debugger) s = .next (s.setCore n { s.core n with stepping := true })) ∧
    ((s.core n).task = none → exec (.step .debugger) s = .next s)) ∧
  (∀ (acc : Accessor) (s : State) (n : Nat), acc ≠ .debugger → s.clk.gated.get false 14 = false →
    s.instOf acc 0 R.DBG_CORE_CTRL 0 = some n →
    exec (.halt acc) s = .next (s.violate R.DBG_CORE_CTRL.off acc) ∧
    exec (.resume acc) s = .next (s.violate R.DBG_CORE_CTRL.off acc) ∧
    exec (.step acc) s = .next (s.violate R.DBG_CORE_CTRL.off acc)) ∧
  (∀ (n : Fin 256) (s : State) (c : Core), s.core n.val = c →
    (c.haltReq = none ∨ c.slot ≠ 0 ∨ s.clReset.get 0 (n.val / 8) ≠ 0 → exec (.coreHalted n) s = .next s) ∧
    (∀ (cause unit : Nat), c.haltReq = some (cause, unit) → c.slot = 0 → s.clReset.get 0 (n.val / 8) = 0 → c.flight = [] →
      cause < 8 → unit < 4 → s.dbg.key = none →
      (s.dsp (n.val / 64)).preempt.any (fun p => p.1 == n.val % 64) = false → Leads (.coreHalted n) s (fun t =>
        t.get F.DBG_CORE_STATUS.HALTED n.val = 1 ∧ t.get F.TC_STATE.HALTED n.val = 1 ∧
        t.get F.DBG_CORE_STATUS.CAUSE n.val = cause ∧ t.get F.DBG_CORE_STATUS.UNIT n.val = unit ∧
        RegsKeep s t [regKey R.DBG_CORE_STATUS n.val, regKey R.TC_STATE n.val] ∧ t.resv.get 0 n.val = 0 ∧
        t.core n.val = { c with haltReq := none, stepping := false, wdt := none, frozen := (match c.wdt with
          | some x => some (x - s.now) | none => c.frozen) } ∧
        t.dbg.fresh.get false n.val = (cause != 4))) ∧
    (∀ (cause unit k : Nat), c.haltReq = some (cause, unit) → c.slot = 0 → s.clReset.get 0 (n.val / 8) = 0 → c.flight = [] →
      s.dbg.key = some k → s.now ≤ k + 1000 →
      (s.dsp (n.val / 64)).preempt.any (fun p => p.1 == n.val % 64) = false → Leads (.coreHalted n) s (fun t =>
        t.dbg.key = none ∧ t.get F.DBG_CORE_STATUS.LOCKSEQ_CANCELLED n.val = 1))) ∧
  (∀ (n : Fin 256) (s : State) (c : Core), s.core n.val = c →
    (s.mayIssue n.val = false ∨ s.bpDue n.val = none → exec (.breakpointHit n) s = .next s) ∧
    (∀ k : Nat, k < 4 → s.mayIssue n.val = true → c.bpDone = false → c.stepping = false →
      s.isSet F.DBG_BP_CTRL.EN (4 * n.val + k) = true → s.get F.DBG_BP_ADDR.BUNDLE (4 * n.val + k) = c.pc / 16 →
      (∀ j < 4, j = k ∨ s.isSet F.DBG_BP_CTRL.EN (4 * n.val + j) = false) →
      (s.get F.DBG_BP_CTRL.ACTION (4 * n.val + k) = 0 → s.agentHalted n.val = false →
        exec (.breakpointHit n) s = .next (s.setCore n.val { c with bpDone := true, haltReq := some (2, k) })) ∧
      (s.get F.DBG_BP_CTRL.ACTION (4 * n.val + k) = 1 → Leads (.breakpointHit n) s (fun t =>
        bitAt (t.get F.TC_IRQ_PEND.PEND n.val) 3 = true ∧ t.core n.val = { c with bpDone := true } ∧
        RegsKeep s t [regKey R.TC_IRQ_PEND n.val])) ∧
      (s.get F.DBG_BP_CTRL.ACTION (4 * n.val + k) = 2 → s.isSet F.TRC_CTRL.EN 0 = false →
        exec (.breakpointHit n) s = .next (s.setCore n.val { c with bpDone := true })))) ∧
  (∀ (m : Fin 258) (s : State),
    (s.dbg.fresh.get false m.val = false → exec (.haltGroupPropagate m) s = .next s) ∧
    (s.dbg.fresh.get false m.val = true → s.isSet F.DBG_CORE_GROUP.EN m.val = false → exec (.haltGroupPropagate m) s =
      .next { s with dbg := { s.dbg with fresh := s.dbg.fresh.set false m.val false } }) ∧
    (s.dbg.fresh.get false m.val = true → s.isSet F.DBG_CORE_GROUP.EN m.val = true →
      Leads (.haltGroupPropagate m) s (fun t => t.dbg.fresh.get false m.val = false ∧
        (∀ k : Nat, k < 256 → t.core k = if k ≠ m.val ∧ s.isSet F.DBG_CORE_GROUP.EN k = true ∧
            s.get F.DBG_CORE_GROUP.GROUP k = s.get F.DBG_CORE_GROUP.GROUP m.val ∧ s.agentHalted k = false ∧
            (s.core k).haltReq = none
          then { s.core k with haltReq := some (4, 0) } else s.core k) ∧
        (∀ k ∈ [256, 257], k ≠ m.val → s.isSet F.DBG_CORE_GROUP.EN k = true →
          s.get F.DBG_CORE_GROUP.GROUP k = s.get F.DBG_CORE_GROUP.GROUP m.val → s.agentHalted k = false →
          s.debugLevel = 2 → t.get F.DBG_CORE_STATUS.HALTED k = 1 ∧ t.get F.DBG_CORE_STATUS.CAUSE k = 4)))) ∧
  (∀ (k : Fin 4) (v : Word) (s : State) (n r p : Nat) (c : Core), Writes s .debugger 0 R.DBG_REG_DATA k.val (4 * n + k.val) →
    s.clk.gated.get false 14 = false → n < 256 → s.core n = c → s.sel .debugger F.DBG_REG_SEL.REG = r →
    s.sel .debugger F.DBG_REG_SEL.PART = p →
    (s.agentHalted n = false ∨ r = rStepLo ∨ r = rStepHi → Leads (.dbgRegDataWrite .debugger k v) s (fun t =>
      t.get F.DBG_CORE_STATUS.NOT_HALTED n = 1 ∧ OnlyRegs s t [regKey R.DBG_CORE_STATUS n])) ∧
    (s.agentHalted n = true → movNumber r = true → r ≠ rStepLo → r ≠ rStepHi → exec (.dbgRegDataWrite .debugger k v) s =
      .next (s.setCore n ((c.setReg r (bitsSet (c.reg r) (32 * k.val) 32 v.toNat)).setPoison r false))) ∧
    (s.agentHalted n = true → 0x60 ≤ r → r ≤ 0x67 → p < 3 → Leads (.dbgRegDataWrite .debugger k v) s (fun t =>
      (t.core n).reg r = bitsSet (c.reg r) (128 * p + 32 * k.val) 32 v.toNat ∧ (t.core n).poisoned r = false ∧
      t = s.setCore n (t.core n)))) ∧
  (∀ (v : Word) (s : State) (n : Nat) (c : Core), Writes s .debugger 0 R.DBG_CORE_PC 0 n → s.clk.gated.get false 14 = false →
    s.core n = c → n < 256 →
    (s.agentHalted n = true → Leads (.dbgCorePcWrite .debugger v) s (fun t =>
      (t.core n).pc = v.toNat % 0x10000 / 16 * 16 ∧ (∀ l < 3, (t.core n).la l = false) ∧ (t.core n).br = none ∧
      (∀ r, r ≠ rStat → (t.core n).reg r = c.reg r) ∧ (t.core n).task = c.task ∧ t = s.setCore n (t.core n))) ∧
    (s.agentHalted n = false → exec (.dbgCorePcWrite .debugger v) s = .next s)) ∧
  (∀ (v : Word) (s : State) (i : Nat), Writes s .debugger 0 R.DBG_CTRL 0 i → s.clk.gated.get false 14 = false →
    Leads (.dbgCtrlWrite .debugger v) s (fun t => t.get F.DBG_CTRL.ATTACHED 0 = v.toNat % 2 ∧
      OnlyRegs s t [regKey R.DBG_CTRL 0])) ∧
  (∀ (p q : Packet) (s : State) (need : Nat),
    q = { p with src := BitVec.ofNat 10 epDebug, vc := 3, debug := true, acc := .debugger } →
    need = (if 0x030000170000 ≤ p.addr.toNat ∧ p.addr.toNat < 0x030000180000 then 0
      else if inPrivate p.addr.toNat = true then 2 else 1) →
    (p.cmd.toNat ≠ cmdDebugRead → p.cmd.toNat ≠ cmdDebugWrite → exec (.dbgAccess p) s = .next s) ∧
    (p.cmd.toNat = cmdDebugRead ∨ p.cmd.toNat = cmdDebugWrite → need ≤ s.dbgLevel ∨ pktOk q = false →
      exec (.dbgAccess p) s = .next (s.inject q)) ∧
    (p.cmd.toNat = cmdDebugRead ∨ p.cmd.toNat = cmdDebugWrite → s.dbgLevel < need → pktOk q = true →
      exec (.dbgAccess p) s = .next (s.refuseInjection q 1)))

/-- Closing and forwarding of error entries, the device log, ERR_STATUS, stimulus packets and their queues, and the trace
sinks (R449, R455, R456, R457, R458, R461, R474, R475, R476, R477). Which word of a frame's head holds which MAC
address is open (a free value). -/
def Obligations.ErrorsAndTrace : Prop :=
  (∀ (acc : Accessor) (v : Word) (s : State) (i : Nat), Writes s acc 0 R.ERR_STATUS 0 i → s.clk.gated.get false 13 = false →
    Leads (.errStatusFeClear acc v) s (fun t => t.get F.ERR_STATUS.FE 0 = (if bitAt v.toNat 4 = true then 0
        else s.get F.ERR_STATUS.FE 0) ∧
      t.get F.ERR_STATUS.PENDING 0 = (s.get F.ERR_STATUS.PENDING 0 &&& (15 - v.toNat % 16)) ∧
      OnlyRegs s t [regKey R.ERR_STATUS 0])) ∧
  (∀ (k : Fin 180) (i : Fin 256) (s : State) (es cs : List Entry) (e : Entry) (coal q : Nat), k.val < 176 →
    s.err.stages.get [] k.val = es → q = stageQuad k.val → s.err.colls.get [] q = cs →
    s.get F.ERR_CFG.COALESCE_NS 0 = coal →
    (es[i.val]? = none → exec (.coalesceWindowClose k i) s = .next s) ∧
    (es[i.val]? = some e → coal ≠ 0 → (s.now : Int) - e.last < coal → exec (.coalesceWindowClose k i) s = .next s) ∧
    (es[i.val]? = some e → coal = 0 ∨ (coal : Int) ≤ (s.now : Int) - e.last → (∀ h ∈ cs, sameKey h e = false) →
      cs.length < 256 → exec (.coalesceWindowClose k i) s = .next { s with err := { s.err with
        stages := s.err.stages.set [] k.val (es.eraseIdx i.val), colls := s.err.colls.set [] q (cs ++ [{ e with closed := 0 }]) } }) ∧
    (es[i.val]? = some e → coal = 0 ∨ (coal : Int) ≤ (s.now : Int) - e.last → (∀ h ∈ cs, sameKey h e = false) →
      256 ≤ cs.length → Leads (.coalesceWindowClose k i) s (fun t =>
        t.reg R.ERR_Q_SUPPR q = min (2 ^ 32 - 1) (s.reg R.ERR_Q_SUPPR q + e.rep) ∧
        t.err = { s.err with stages := s.err.stages.set [] k.val (es.eraseIdx i.val) } ∧
        RegsKeep s t [regKey R.ERR_Q_SUPPR q])) ∧
    (∀ (h : Entry) (r : List Entry), cs = h :: r → es[i.val]? = some e → (coal : Int) ≤ (s.now : Int) - e.last →
      sameKey h e = true → h.closed = 0 → coal ≠ 0 → (e.first : Int) - h.last < coal → Leads (.coalesceWindowClose k i) s (fun t =>
        t.err = { s.err with stages := s.err.stages.set [] k.val (es.eraseIdx i.val), colls := t.err.colls } ∧
        ((t.err.colls.get [] q).headD h).rep = min (2 ^ 32 - 1) (h.rep + e.rep) ∧
        ((t.err.colls.get [] q).headD h).last = e.last ∧ ((t.err.colls.get [] q).headD h).first = h.first ∧
        (t.err.colls.get [] q).tail = r ∧ t.regs = s.regs))) ∧
  (∀ (k : Fin 180) (i : Fin 256) (s : State) (es : List Entry) (e : Entry) (q : Nat), 176 ≤ k.val → q = k.val - 176 →
    s.err.colls.get [] q = es → es[i.val]? = some e →
    (e.closed = 0 → windowOpen (s.get F.ERR_CFG.COALESCE_NS 0) e s.now = false → Leads (.coalesceWindowClose k i) s (fun t =>
      (t.err.colls.get [] q)[i.val]? = some { e with closed := s.err.closings.get 0 q + 1 } ∧
      (∀ j : Nat, j ≠ i.val → (t.err.colls.get [] q)[j]? = es[j]?) ∧ t.err.log = s.err.log ∧ t.regs = s.regs)) ∧
    (e.closed ≠ 0 ∨ windowOpen (s.get F.ERR_CFG.COALESCE_NS 0) e s.now = true → Leads (.coalesceWindowClose k i) s (fun t =>
      t.err.colls.get [] q = es ∧ t.err.log = s.err.log ∧ t.regs = s.regs))) ∧
  (∀ (es : List Entry) (e : Entry), firstClosed es = some e →
    e ∈ es ∧ e.closed ≠ 0 ∧ ∀ x ∈ es, x.closed ≠ 0 → e.closed ≤ x.closed) ∧
  (∀ (q : Fin 4) (s : State) (es : List Entry) (e : Entry), s.err.colls.get [] q.val = es →
    (firstClosed es = none → exec (.collectorForward q) s = .next s) ∧
    (s.err.lastFwd.get 0 q.val ≠ 0 → s.now < s.err.lastFwd.get 0 q.val - 1 + 1000 →
      exec (.collectorForward q) s = .next s) ∧
    (firstClosed es = some e → s.err.lastFwd.get 0 q.val = 0 ∨ s.err.lastFwd.get 0 q.val - 1 + 1000 ≤ s.now →
      exec (.collectorForward q) s = .next (({ s with err := { s.err with colls := s.err.colls.set [] q.val (es.erase e), lastFwd := s.err.lastFwd.set 0 q.val (s.now + 1) } }.setReg
          R.ERR_Q_FWD q.val (min (2 ^ 32 - 1) (s.reg R.ERR_Q_FWD q.val + 1))).logEntry e))) ∧
  (∀ (s : State) (e : Entry), (∀ h ∈ s.err.log, sameKey h e = false) →
    (s.err.log.length < 1024 → (s.logEntry e).err =
      { s.err with log := s.err.log ++ [{ e with seq := s.err.next, closed := 0 }], next := (s.err.next + 1) % 65536 } ∧
      (bitAt (s.get F.ERR_CFG.NOTIFY 0) e.sev = false → (s.logEntry e).regs = s.regs ∧ (s.logEntry e).out = s.out) ∧
      (bitAt (s.get F.ERR_CFG.NOTIFY 0) e.sev = true → e.sev < 4 →
        bitAt ((s.logEntry e).get F.ERR_STATUS.PENDING 0) e.sev = true ∧ RegsKeep s (s.logEntry e) [regKey R.ERR_STATUS 0] ∧
        (s.logEntry e).out.msix = (if bitAt (s.get F.ERR_STATUS.PENDING 0) e.sev = true then s.out.msix
          else (0, 3) :: s.out.msix))) ∧
    (1024 ≤ s.err.log.length → s.logEntry e = s.setReg R.ERR_LOST 0 (min (2 ^ 32 - 1) (s.reg R.ERR_LOST 0 + e.rep)))) ∧
  (∀ (payload now port kind index : Nat) (d64 : Bool) (p : Nat), port < 64 → kind < 4 → index < 256 →
    p = (tracePacket payload now port kind index d64).toNat →
    p % 2 ^ 64 = (if d64 = true then payload % 2 ^ 64 else payload % 2 ^ 32) ∧ p / 2 ^ 64 % 2 ^ 40 = now % 2 ^ 40 ∧
    p / 2 ^ 104 % 64 = port ∧ p / 2 ^ 110 % 4 = kind ∧ p / 2 ^ 112 % 256 = index ∧ p / 2 ^ 120 = bit d64) ∧
  (∀ (port : Fin 64) (data : BitVec 64) (d64 : Bool) (s : State), exec (.fabricStimulus port data d64) s =
    .next (if s.isSet F.TRC_CTRL.EN 0 = true ∧
        bitAt (s.reg R.TRC_PORT_EN_LO 256 + s.reg R.TRC_PORT_EN_HI 256 * 2 ^ 32) port.val = true
      then s.traceQueue 256 (tracePacket data.toNat s.now port.val 1 0 d64) else s)) ∧
  (∀ (port : Fin 16) (data : BitVec 64) (d64 : Bool) (s : State), exec (.chamoisStimulus port data d64) s =
    .next (if s.isSet F.TRC_CTRL.EN 0 = true ∧
        bitAt (s.reg R.TRC_PORT_EN_LO 257 + s.reg R.TRC_PORT_EN_HI 257 * 2 ^ 32) port.val = true
      then s.traceQueue 257 (tracePacket data.toNat s.now port.val 2 0 d64) else s)) ∧
  (∀ (s : State) (source n : Nat) (p : BitVec 128) (qs : List (BitVec 128)), s.trace.queues.get [] source = qs →
    s.trace.drops.get 0 source = n →
    (8 ≤ qs.length → (s.traceQueue source p).trace = { s.trace with drops := s.trace.drops.set 0 source (n + 1) } ∧
      (s.traceQueue source p).reg R.TRC_DROPS 0 = min (2 ^ 32 - 1) (s.reg R.TRC_DROPS 0 + 1) ∧
      RegsKeep s (s.traceQueue source p) [regKey R.TRC_DROPS 0]) ∧
    (qs.length < 8 → n = 0 → (s.traceQueue source p).trace.queues.get [] source = qs ++ [p] ∧
      (s.traceQueue source p).regs = s.regs) ∧
    (qs.length < 8 → n ≠ 0 → source ≠ 258 →
      (s.traceQueue source p).trace.queues.get [] source = qs ++ [p ||| BitVec.ofNat 128 (2 ^ 121)] ∧
      (s.traceQueue source p).trace.queues.get [] 258 = s.trace.queues.get [] 258 ++ [tracePacket n s.now 1 3 0 true] ∧
      (s.traceQueue source p).trace.drops.get 0 source = 0 ∧ (s.traceQueue source p).regs = s.regs)) ∧
  (∀ s : State, (s.isSet F.TRC_CTRL.EN 0 = true → s.trace.secs < s.now / 1000000000 →
      Leads .traceTimePacket s (fun t => t.trace.secs = s.now / 1000000000 ∧ t.trace.queues.get [] 258 =
        s.trace.queues.get [] 258 ++ [tracePacket s.now s.now 0 3 0 true] ∧ t = { s with trace := t.trace })) ∧
    (s.isSet F.TRC_CTRL.EN 0 = false ∨ s.now / 1000000000 ≤ s.trace.secs → exec .traceTimePacket s = .next s)) ∧
  (∀ (s : State) (k : Nat), s.trace.turn < 259 → s.traceNext = some k → k < 259 ∧ s.trace.queues.get [] k ≠ [] ∧
    ∀ d : Nat, d < (k + 258 - s.trace.turn) % 259 → s.trace.queues.get [] ((s.trace.turn + 1 + d) % 259) = []) ∧
  (∀ s : State, s.isSet F.TRC_CTRL.EN 0 = false ∨ s.isSet F.TRC_STATUS.FULL 0 = true ∨ s.traceNext = none →
    exec .traceDrain s = .next s) ∧
  (∀ (s : State) (k : Nat) (p : BitVec 128) (r : List (BitVec 128)), s.isSet F.TRC_CTRL.EN 0 = true →
    s.isSet F.TRC_STATUS.FULL 0 = false → s.traceNext = some k → s.trace.queues.get [] k = p :: r →
    (s.get F.TRC_CTRL.SINK 0 = 0 ∨ s.get F.TRC_CTRL.SINK 0 = 3 → Leads .traceDrain s (fun t =>
      t.trace.queues.get [] k = r ∧ t.trace.turn = k ∧ t.reg R.TRC_WPTR 0 = (s.reg R.TRC_WPTR 0 + 1) % 2 ^ 32 ∧
      t.loadNat 16 (baseTrace + 16 * (s.reg R.TRC_WPTR 0 % 65536)) = p.toNat ∧ t.trace.since = s.trace.since + 1 ∧
      (s.isSet F.TRC_CTRL.STOP_FULL 0 = true → 65536 ≤ s.trace.since + 1 → t.get F.TRC_STATUS.FULL 0 = 1) ∧
      (s.isSet F.TRC_CTRL.STOP_FULL 0 = false → t.get F.TRC_STATUS.FULL 0 = 0))) ∧
    (s.get F.TRC_CTRL.SINK 0 = 1 → s.trace.partly.length < 3 → exec .traceDrain s = .next { s with trace := { s.trace with queues := s.trace.queues.set [] k r, turn := k, partly := s.trace.partly ++ [p] } }) ∧
    (s.get F.TRC_CTRL.SINK 0 = 2 → s.isSet F.MAC_STATUS.LINK (s.laneMac (s.get F.TRC_CTRL.LANE 0)) = false →
      Leads .traceDrain s (fun t => t.trace = { s.trace with queues := s.trace.queues.set [] k r, turn := k } ∧
        t.reg R.TRC_DROPS 0 = min (2 ^ 32 - 1) (s.reg R.TRC_DROPS 0 + 1) ∧ t.out = s.out)) ∧
    (s.get F.TRC_CTRL.SINK 0 = 2 → s.isSet F.MAC_STATUS.LINK (s.laneMac (s.get F.TRC_CTRL.LANE 0)) = true →
      s.trace.partly.length = 63 → Leads .traceDrain s (fun t => t.trace.partly = [] ∧
        ((t.out.frames.headD (0, [])).2.drop 14).take 1024 = (s.trace.partly ++ [p]).flatMap (fun x => leBytes 16 x.toNat) ∧
        ((t.out.frames.headD (0, [])).2.drop 12).take 2 = [0x88, 0xB5] ∧
        t.out.frames.tail = s.out.frames)))

/-- The mailbox commands of the configuration engine, of the memory keys and of the update: their checks, effects and
answers (R45, R57, R301, R302, R316, R370, R376, R381, R423, R434, R435). The progress UPDATE_STATUS answers is a free
value. A buffer's bytes are read and written as R49 says. -/
def Obligations.ConfigKeyUpdateCommands : Prop :=
  (∀ (b : Fin 8) (m : Msg) (s : State) (k : Taken), Taking s b opLoadOverlay m k →
    (∀ l : Load, s.cfg.load = some l → l.cmd.map (·.id) = some k.id → exec (.configLoadOverlay b m) s = .next s) ∧
    (s.cfg.starting = [] → (s.cfg.load.bind (·.cmd)).map (·.id) ≠ some k.id →
      (s.cfg.load.isSome = true → Ends (.configLoadOverlay b m) s k stBusy 0 {} (fun u => u = s)) ∧
      (s.isSet F.CFG_LOCK.LOCK 0 = true → s.cfg.load = none →
        Ends (.configLoadOverlay b m) s k stLocked 0 {} (fun u => u = s)) ∧
      (s.isSet F.CFG_LOCK.LOCK 0 = false → s.cfg.load = none → bufPlace (fld m 0 64) (fld m 8 32) = false →
        Ends (.configLoadOverlay b m) s k stBuffer 0 {} (fun u => u = s)) ∧
      (s.isSet F.CFG_LOCK.LOCK 0 = false → s.cfg.load = none → bufPlace (fld m 0 64) (fld m 8 32) = true →
        exec (.configLoadOverlay b m) s = .next ((s.setReg R.CFG_CONT_INFO 0 0).beginLoad
          { path := .mailbox, cmd := some k, base := fld m 0 64, len := fld m 8 32 })))) ∧
  (∀ (b : Fin 8) (m : Msg) (s : State) (k : Taken) (r : Nat), Taking s b opUnload m k → fld m 0 64 = 2 ^ r →
    (s.isSet F.CFG_LOCK.LOCK 0 = true → Ends (.configUnload b m) s k stLocked 0 {} (fun u => u = s)) ∧
    (s.isSet F.CFG_LOCK.LOCK 0 = false → r < 64 → Ends (.configUnload b m) s k stOK 0 {} (fun u =>
      u.regionState r = (if s.domUp (domRegion r) = true then 0 else 5) ∧ u.cfg.images.get {} r = {} ∧
      (∀ j < 64, j ≠ r → u.regionState j = s.regionState j) ∧
      (∀ a : Nat, a / 2 ^ 16 ≠ r → u.fab.frames.get 0 a = s.fab.frames.get 0 a) ∧
      (∀ j : Nat, j < 65536 → u.fab.frames.get 0 (r * 2 ^ 16 + j) = 0) ∧ (∀ w < 4, u.reg R.PR_ISO_MODE (4 * r + w) = 0)))) ∧
  (∀ (b : Fin 8) (m : Msg) (s : State) (k : Taken), Taking s b opConfigStatus m k →
    Ends (.configStatus b m) s k stOK 0 (pack 20 [(0, 64, s.reg R.PR_LOADED_LO 0 + s.reg R.PR_LOADED_HI 0 * 2 ^ 32),
      (8, 64, s.reg R.PR_FAILED_LO 0 + s.reg R.PR_FAILED_HI 0 * 2 ^ 32), (16, 32, s.reg R.CFG_SCRUB_LAP_US 0)]) (fun u => u = s)) ∧
  (∀ (b : Fin 8) (m : Msg) (s : State) (k : Taken), Taking s b opConfigLock m k →
    Ends (.configLock b m) s k stOK 0 {} (fun u => u.get F.CFG_LOCK.LOCK 0 = 1 ∧ OnlyRegs s u [regKey R.CFG_LOCK 0])) ∧
  (∀ (b : Fin 8) (m : Msg) (edge : Bool) (s : State) (k : Taken), Taking s b opReadback m k →
    (edge = false ∨ s.regionState (fld m 0 8) ≠ 3 ∨ s.leafRuns (fld m 0 8) (fld m 1 8) = false →
      Ends (.configReadback b m edge) s k stState 0 {} (fun u => u = s)) ∧
    (∀ v : BitVec 172032, s.fab.ffs.get 0 (fld m 0 8) = v → edge = true → s.regionState (fld m 0 8) = 3 →
      s.leafRuns (fld m 0 8) (fld m 1 8) = true →
      if (s.bufWrite (fld m 8 64) (leBytes 21504 v.toNat)).1 = none
      then Ends (.configReadback b m edge) s k stOK 0 (pack 4 [(0, 32, 21504)]) (fun t =>
        t = (s.bufWrite (fld m 8 64) (leBytes 21504 v.toNat)).2)
      else if (s.bufWrite (fld m 8 64) (leBytes 21504 v.toNat)).1 = some .waits
      then exec (.configReadback b m edge) s = .next (s.bufWrite (fld m 8 64) (leBytes 21504 v.toNat)).2
      else Ends (.configReadback b m edge) s k stBuffer (stopDetail (s.bufWrite (fld m 8 64) (leBytes 21504 v.toNat)).1) {}
        (fun t => t = (s.bufWrite (fld m 8 64) (leBytes 21504 v.toNat)).2))) ∧
  (∀ (b : Fin 8) (m : Msg) (s : State) (k : Taken) (bs : List Byte) (u : State), Taking s b opKeyLoad m k →
    BufGives s (fld m 8 64) 72 bs u →
    if (u.unwrapPair (natBytes bs)).isSome = true
    then exec (.memkeyLoad b m) s = .next ((State.finish { u with
      store := { u.store with keys := u.store.keys.set none (fld m 0 8) (u.unwrapPair (natBytes bs)) } } k stOK 0 {}).warmWhenFree)
    else exec (.memkeyLoad b m) s = .next ((u.finish k stKey 0 {}).warmWhenFree)) ∧
  (∀ (b : Fin 8) (m : Msg) (s : State) (k : Taken), Taking s b opKeyLoad m k → bufPlace (fld m 8 64) 72 = false →
    exec (.memkeyLoad b m) s = .next ((s.finish k stBuffer 0 {}).warmWhenFree)) ∧
  (∀ (b : Fin 8) (m : Msg) (s : State) (k : Taken), Taking s b opKeyClear m k →
    ∃ u : State, exec (.memkeyClear b m) s = .next ((u.finish k stOK 0 {}).warmWhenFree) ∧ u.keySlot (fld m 0 8) = none ∧
      (∀ j, j ≠ fld m 0 8 → u.keySlot j = s.keySlot j) ∧ u = { s with store := { s.store with keys := u.store.keys } }) ∧
  (∀ (b : Fin 8) (m : Msg) (s : State) (k : Taken) (r : Nat), Taking s b opKeyRegion m k → fld m 0 8 = r →
    Ends (.memkeyRegion b m) s k stOK 0 {} (fun u => u.pair R.CIPH_REGION_BASE_LO R.CIPH_REGION_BASE_HI r = fld m 8 64 ∧
      u.pair R.CIPH_REGION_LIMIT_LO R.CIPH_REGION_LIMIT_HI r = fld m 16 64 ∧
      u.pair R.CIPH_REGION_ALLOW_LO R.CIPH_REGION_ALLOW_HI r = fld m 24 64 ∧
      (u.isSet F.CIPH_REGION_CTRL.EN r = true ↔ fld m 8 64 < fld m 16 64) ∧
      OnlyRegs s u [regKey R.CIPH_REGION_BASE_LO r, regKey R.CIPH_REGION_BASE_HI r, regKey R.CIPH_REGION_LIMIT_LO r,
        regKey R.CIPH_REGION_LIMIT_HI r, regKey R.CIPH_REGION_ALLOW_LO r, regKey R.CIPH_REGION_ALLOW_HI r,
        regKey R.CIPH_REGION_CTRL r])) ∧
  (∀ (b : Fin 8) (m : Msg) (s : State) (k : Taken), Taking s b opKeyStatus m k →
    Ends (.memkeyStatus b m) s k stOK 0 (pack 8 [(0, 64, s.cipherKeys)]) (fun u => u = s) ∧
    ∀ j < 64, bitAt s.cipherKeys j = (s.keySlot j).isSome) ∧
  (∀ (b : Fin 8) (m : Msg) (s : State) (k : Taken) (bs : List Byte) (u : State) (x : UpdImage), Taking s b opStage m k →
    BufGives s (fld m 8 64) (fld m 16 32) bs u → stagedImage (fld m 0 8) (bs.take 64) = x →
    if u.stageCode (fld m 0 8) bs = 0
    then exec (.updateStage b m) s = .next ((State.finish { u with upd := { u.upd with staged := some x } } k stOK 0
      (pack 6 [(0, 32, x.version), (4, 16, x.arb)])).updateOver)
    else if u.stageCode (fld m 0 8) bs ∈ [0x08, 0x09]
    then exec (.updateStage b m) s = .next ((u.finish k stAuth 0 {}).updateOver)
    else if u.stageCode (fld m 0 8) bs ∈ [0x0A, 0x0B]
    then exec (.updateStage b m) s = .next ((u.finish k stRollback 0 {}).updateOver)
    else exec (.updateStage b m) s = .next ((u.finish k stIntegrity (u.stageCode (fld m 0 8) bs) {}).updateOver)) ∧
  (∀ (b : Fin 8) (m : Msg) (ok : Bool) (s : State) (k : Taken), Taking s b opCommit m k →
    (s.upd.staged = none → exec (.updateCommit b m ok) s = .next ((s.finish k stState 0 {}).updateOver)) ∧
    (∀ x : UpdImage, s.upd.staged = some x →
      (ok = true → exec (.updateCommit b m ok) s = .next ((State.finish
        { s with upd := { s.upd with staged := none, committed := some x } } k stOK 0 {}).updateOver)) ∧
      (ok = false → exec (.updateCommit b m ok) s = .next ((s.hwFault.finish k stHw 0 {}).updateOver)))) ∧
  (∀ (b : Fin 8) (m : Msg) (s : State) (k : Taken), Taking s b opUpdStatus m k →
    Ends (.updateStatus b m) s k stOK 0 (pack 2 [(0, 8, bit s.upd.staged.isSome), (1, 8, Config.updateProgress s.free % 101)])
      (fun u => u = { s with free := s.free + 1 })) ∧
  (∀ (b : Fin 8) (m : Msg) (gold : BitVec 16) (blow : Fin 3) (bits : BitVec 9) (s : State) (k : Taken),
    Taking s b opActivate m k →
    (s.upd.committed = none → exec (.updateActivate b m gold blow bits) s = .next ((s.finish k stState 0 {}).updateOver)) ∧
    (∀ (x : UpdImage) (u : State), s.upd.committed = some x → fld m 0 8 ≠ 1 → s.finish k stOK 0 {} = u →
      u.flashBusy = false → exec (.updateActivate b m gold blow bits) s =
        .next ((State.takeReset { u with upd := { u.upd with warmDue := true } } kWarm).updateOver)) ∧
    (∀ (x : UpdImage) (u : State), s.upd.committed = some x → fld m 0 8 ≠ 1 → s.finish k stOK 0 {} = u →
      u.flashBusy = true → exec (.updateActivate b m gold blow bits) s =
        .next (State.updateOver { u with upd := { u.upd with warmDue := true } })) ∧
    (∀ x : UpdImage, s.upd.committed = some x → fld m 0 8 = 1 → 256 < x.arb ∨ x.kind = 1 ∧ gold.toNat < x.arb →
      exec (.updateActivate b m gold blow bits) s = .next ((s.finish k stState 0 {}).updateOver)) ∧
    (∀ (x : UpdImage) (f : Fuses), s.upd.committed = some x → fld m 0 8 = 1 → x.kind = 0 → x.arb ≤ 256 →
      s.sec.fuses = f → f.fw < x.arb →
      (∀ u : State, blow = 0 → (s.setFuses { f with fw := x.arb }).finish k stOK 0 {} = u → u.flashBusy = false →
        exec (.updateActivate b m gold blow bits) s =
          .next ((State.takeReset { u with upd := { u.upd with warmDue := true } } kWarm).updateOver)) ∧
      (blow = 1 → f.fw + bits.toNat < x.arb → exec (.updateActivate b m gold blow bits) s =
        .next (((s.setFuses { f with fw := f.fw + bits.toNat }).fuseFail.finish k stHw 0 {}).updateOver)) ∧
      (blow = 2 → f.fw + bits.toNat ≤ x.arb → exec (.updateActivate b m gold blow bits) s =
        .next ((s.setFuses { f with fw := f.fw + bits.toNat }).updateOver)))) ∧
  (∀ s u : State, s.updateOver = u →
    (s.get F.DEV_FW_STATE.STATE 0 ≠ 4 ∨ s.mbx.started.any (fun t => [opStage, opCommit, opActivate].contains t.op) = true →
      u = s.warmWhenFree) ∧
    (s.get F.DEV_FW_STATE.STATE 0 = 4 → s.mbx.started.any (fun t => [opStage, opCommit, opActivate].contains t.op) = false →
      u = (s.put F.DEV_FW_STATE.STATE 0 2).warmWhenFree)) ∧
  (∀ s : State, (s.upd.warmDue = false ∨ s.flashBusy = true → s.warmWhenFree = s) ∧
    (s.upd.warmDue = true → s.flashBusy = false → s.warmWhenFree = ({ s with upd := { s.upd with warmDue := false } } : State).takeReset kWarm))

/-- The mailbox commands of the dispatchers, the device log, attestation and debug: their checks, effects and answers
(R57, R169, R171, R173, R430, R443, R445, R446, R447, R454, R457, R477). Random numbers, certificates and the serial
number are free values. -/
def Obligations.TaskErrorDebugCommands : Prop :=
  (∀ (b : Fin 8) (m : Msg) (s : State) (k : Taken) (q n j : Nat), Taking s b opCqCfg m k → fld m 0 8 = q → fld m 1 8 = n →
    j = 16 * q + n → q < 4 → n < 16 →
    (fld m 18 8 ≠ 0 → s.vectorTaken (fld m 18 8) j = true →
      Ends (.taskCqCfg b m) s k stNoResource 0 {} (fun u => u = s)) ∧
    (fld m 18 8 = 0 ∨ s.vectorTaken (fld m 18 8) j = false → fld m 16 16 < 65536 → (s.dsp q).cbuf = [] →
      Ends (.taskCqCfg b m) s k stOK 0 {} (fun u =>
        u.reg R.TSK_CQ_BASE_LO j = fld m 8 64 % 2 ^ 32 ∧ u.reg R.TSK_CQ_CFG j = 1 + fld m 18 8 * 2 ^ 8 ∧
        u.reg R.TSK_CQ_BASE_HI j = fld m 8 64 / 2 ^ 32 % 2 ^ 16 + Nat.log2 (fld m 16 16) * 2 ^ 16 ∧
        u.reg R.TSK_CQ_IDX j = 0 ∧ (∀ w ∈ (u.dsp q).writes, w.queue ≠ n) ∧ u.cores = s.cores))) ∧
  (∀ (b : Fin 8) (m : Msg) (s : State) (k : Taken) (q v : Nat), Taking s b opTick m k → fld m 0 8 = q → fld m 4 32 % 2 ^ 14 = v →
    Ends (.taskTick b m) s k stOK 0 {} (fun u => u.get F.TSK_TICK.NS q = min 16000 (max 250 v) / 2 * 2 ∧
      (v < 250 ∨ 16000 < v → u.get F.TSK_STATUS.TICK_CLAMP q = 1) ∧
      u.dsp q = (if u.get F.TSK_TICK.NS q = s.get F.TSK_TICK.NS q then s.dsp q else { s.dsp q with
        lastTick := max (s.dsp q).lastTick (s.now / u.get F.TSK_TICK.NS q * u.get F.TSK_TICK.NS q + 1) }) ∧
      RegsKeep s u [regKey R.TSK_TICK q, regKey R.TSK_STATUS q] ∧ u.net = s.net ∧ u.store = s.store)) ∧
  (∀ (b : Fin 8) (m : Msg) (s : State) (k : Taken) (q : Nat), Taking s b opStats m k → fld m 0 8 = q →
    Ends (.taskStats b m) s k stOK 0 (pack 20 [(0, 64, s.reg R.TSK_DISPATCHED_LO q + s.reg R.TSK_DISPATCHED_HI q * 2 ^ 32),
      (8, 32, s.reg R.TSK_LATE_RISK q), (12, 32, s.reg R.TSK_VARIANTS q), (16, 32, s.reg R.TSK_ACCT q)]) (fun u => u = s)) ∧
  (∀ (b : Fin 8) (m : Msg) (s : State) (k : Taken) (q : Nat), Taking s b opFlush m k → fld m 0 8 = q →
    Ends (.taskFlush b m) s k stOK 0 (pack 2 [(0, 16, (s.flushTasks q (fld m 2 16)).1)])
      (fun u => u = s.afterReady (s.flushTasks q (fld m 2 16)).2 q)) ∧
  (∀ (s : State) (first count : Nat),
    (∀ i : Nat, s.err.log.findIdx? (fun e => e.seq == first) = some i → s.logFrom first count = (s.err.log.drop i).take count) ∧
    (∀ (e : Entry) (r : List Entry), s.err.log = e :: r → s.err.log.findIdx? (fun e => e.seq == first) = none →
      (1 ≤ (e.seq + 65536 - first % 65536) % 65536 → (e.seq + 65536 - first % 65536) % 65536 ≤ 32768 →
        s.logFrom first count = s.err.log.take count) ∧
      (32768 < (e.seq + 65536 - first % 65536) % 65536 → s.logFrom first count = []))) ∧
  (∀ e : Entry, e.bytes.length = 48 ∧ leValue (e.bytes.take 4) % 2 ^ 16 = e.code % 2 ^ 16 ∧
    leValue ((e.bytes.drop 4).take 4) = e.source % 2 ^ 32 ∧ leValue ((e.bytes.drop 12).take 4) = e.rep % 2 ^ 32 ∧
    leValue ((e.bytes.drop 24).take 8) = e.first % 2 ^ 64 ∧ leValue ((e.bytes.drop 32).take 8) = e.last % 2 ^ 64) ∧
  (∀ (b : Fin 8) (m : Msg) (s : State) (k : Taken) (es : List Entry) (w : Option BufStop × State), Taking s b opErrorRead m k →
    s.logFrom (fld m 0 16) (fld m 2 16) = es → s.bufWrite (fld m 8 64) (es.flatMap Entry.bytes) = w →
    (w.1 = none → Ends (.errorRead b m) s k stOK 0 (pack 8 [(0, 16, es.length), (2, 16, s.seqAfter es),
      (4, 32, min s.eventsLost (2 ^ 32 - 1))]) (fun u => u = w.2)) ∧
    (∀ d : Nat, w.1 = some (.bad d) → Ends (.errorRead b m) s k stBuffer d {} (fun u => u = w.2))) ∧
  (∀ (b : Fin 8) (m : Msg) (s : State) (k : Taken), Taking s b opErrorClear m k →
    Ends (.errorClear b m) s k stOK 0 {} (fun u => u = { s with err := { s.err with log := u.err.log } } ∧
      (∀ e ∈ s.err.log, e ∈ u.err.log ∨ (1 ≤ (fld m 0 16 + 65536 - e.seq % 65536) % 65536 ∧
        (fld m 0 16 + 65536 - e.seq % 65536) % 65536 ≤ 32768)) ∧
      (∀ e ∈ u.err.log, e ∈ s.err.log ∧ ((fld m 0 16 + 65536 - e.seq % 65536) % 65536 = 0 ∨
        32768 < (fld m 0 16 + 65536 - e.seq % 65536) % 65536)))) ∧
  (∀ (b : Fin 8) (m : Msg) (s : State) (k : Taken), Taking s b opErrorConfig m k →
    Ends (.errorConfig b m) s k stOK 0 {} (fun u => u.get F.ERR_CFG.COALESCE_NS 0 = fld m 0 32 % 2 ^ 24 ∧
      u.get F.ERR_CFG.NOTIFY 0 = fld m 4 8 % 16 ∧ OnlyRegs s u [regKey R.ERR_CFG 0])) ∧
  (∀ (b : Fin 8) (m : Msg) (s : State) (k : Taken), Taking s b opErrorInject m k →
    (s.sec.life = 2 ∧ s.debugLevel = 0 ∨ s.sec.life = 3 ∧ s.debugLevel ≠ 2 →
      Ends (.errorInject b m) s k stState 0 {} (fun u => u = s)) ∧
    (s.sec.life < 2 ∨ s.debugLevel = 2 ∨ s.sec.life = 2 ∧ s.debugLevel ≠ 0 → Ends (.errorInject b m) s k stOK 0 {} (fun u =>
      u = s.raise { code := fld m 4 16, sev := fld m 6 8, source := fld m 0 32, injected := true }))) ∧
  (∀ (b : Fin 8) (m : Msg) (s v : State) (k : Taken), Taking s b opReport m k → v = { s with free := s.free + 1 } →
    if (v.bufWrite (fld m 32 64) (toBytes (reportOf s (fld m 0 256)))).1 = none
    then Ends (.attestReport b m) s k stOK 0 (pack 4 [(0, 32, (reportOf s (fld m 0 256)).length)]) (fun u =>
      u = (v.bufWrite (fld m 32 64) (toBytes (reportOf s (fld m 0 256)))).2)
    else if (v.bufWrite (fld m 32 64) (toBytes (reportOf s (fld m 0 256)))).1 = some .waits
    then exec (.attestReport b m) s = .next (v.bufWrite (fld m 32 64) (toBytes (reportOf s (fld m 0 256)))).2
    else Ends (.attestReport b m) s k stBuffer
      (stopDetail (v.bufWrite (fld m 32 64) (toBytes (reportOf s (fld m 0 256)))).1) {} (fun u =>
      u = (v.bufWrite (fld m 32 64) (toBytes (reportOf s (fld m 0 256)))).2)) ∧
  (∀ (s : State) (nonce : Nat), s.sec.overlays = [] → s.sec.programs = [] → (s.reportBody nonce).length + 64 = 240 ∧
    (s.reportBody nonce).getD 8 0 = s.sec.life ∧ (s.reportBody nonce).getD 9 0 = s.debugLevel ∧
    ((s.reportBody nonce).drop 16).take 32 = Crypto.leNat 32 nonce) ∧
  (∀ (b : Fin 8) (m : Msg) (s : State) (k : Taken), Taking s b opCerts m k →
    (bufPlace (fld m 0 64) 4096 = false → Ends (.attestCerts b m) s k stBuffer 0 {} (fun u => u = s)) ∧
    (bufPlace (fld m 0 64) 4096 = true → if (s.bufWrite (fld m 0 64) s.certChain).1 = none
      then Ends (.attestCerts b m) s k stOK 0 (pack 4 [(0, 32, s.certChain.length)]) (fun u =>
        u = (s.bufWrite (fld m 0 64) s.certChain).2)
      else if (s.bufWrite (fld m 0 64) s.certChain).1 = some .waits
      then exec (.attestCerts b m) s = .next (s.bufWrite (fld m 0 64) s.certChain).2
      else Ends (.attestCerts b m) s k stBuffer (stopDetail (s.bufWrite (fld m 0 64) s.certChain).1) {} (fun u =>
        u = (s.bufWrite (fld m 0 64) s.certChain).2))) ∧
  (∀ (b : Fin 8) (m : Msg) (s : State) (k : Taken), Taking s b opChallenge m k →
    Ends (.debugChallenge b m) s k stOK 0 (pack 32 [(0, 256, (Config.random 256 s.free).toNat)]) (fun u =>
      u.sec = { s.sec with challenge := some (Config.random 256 s.free, s.now) } ∧ u.get F.SEC_DBG_STATUS.CHAL_VALID 0 = 1 ∧ u.free = s.free + 1 ∧
      RegsKeep s u [regKey R.SEC_DBG_STATUS 0])) ∧
  (∀ (b : Fin 8) (m : Msg) (s : State) (k : Taken), Taking s b opUnlock m k →
    (s.isSet F.SEC_LOCKS.DBG_DISABLE 0 = true ∨ s.isSet F.SEC_DBG_STATUS.LOCKOUT 0 = true →
      Ends (.debugUnlock b m) s k stAuth 0 {} (fun u => u.sec = { s.sec with challenge := none } ∧
        u.get F.SEC_DBG_STATUS.LEVEL 0 = s.get F.SEC_DBG_STATUS.LEVEL 0)) ∧
    (∀ (bs : List Byte) (u : State) (d : Nat), s.isSet F.SEC_LOCKS.DBG_DISABLE 0 = false →
      s.isSet F.SEC_DBG_STATUS.LOCKOUT 0 = false → BufGives s (fld m 8 64) 128 bs u → fld m 0 8 = d →
      if u.unlockKey d ((natBytes bs).drop 64) = false
      then Ends (.debugUnlock b m) s k stKey 0 {} (fun v => v = u.useChallenge.unlockFailed)
      else if u.unlockSigned d (natBytes bs) = false ∨ (u.sec.life = 3 ∧ d ≠ 7)
      then Ends (.debugUnlock b m) s k stAuth 0 {} (fun v => v = u.useChallenge.unlockFailed)
      else Ends (.debugUnlock b m) s k stOK 0 (pack 1 [(0, 8, slotLevel d)]) (fun v =>
        v.get F.SEC_DBG_STATUS.LEVEL 0 = (if d = 7 then 2 else 1) ∧ v.get F.SEC_DBG_STATUS.SLOT 0 = d % 8 ∧
        v.get F.SEC_DBG_STATUS.FAILS 0 = 0 ∧ v.sec = { u.sec with challenge := none }))) ∧
  (∀ (s : State) (d : Nat) (buf : List Nat), (s.sec.challenge = none → s.unlockSigned d buf = false) ∧
    (∀ (c : BitVec 256) (t : Nat), s.sec.challenge = some (c, t) → t + 60000000000 ≤ s.now → s.unlockSigned d buf = false)) ∧
  (∀ s : State, s.get F.SEC_DBG_STATUS.FAILS 0 < 7 →
    s.unlockFailed.get F.SEC_DBG_STATUS.FAILS 0 = s.get F.SEC_DBG_STATUS.FAILS 0 + 1 ∧
    (2 ≤ s.get F.SEC_DBG_STATUS.FAILS 0 → s.unlockFailed.isSet F.SEC_DBG_STATUS.LOCKOUT 0 = true ∧
      s.unlockFailed.sec = { s.sec with lockAt := s.now }) ∧
    (s.get F.SEC_DBG_STATUS.FAILS 0 < 2 → OnlyRegs s s.unlockFailed [regKey R.SEC_DBG_STATUS 0] ∧
      s.unlockFailed.get F.SEC_DBG_STATUS.LOCKOUT 0 = s.get F.SEC_DBG_STATUS.LOCKOUT 0)) ∧
  (∀ (b : Fin 8) (m : Msg) (s : State) (k : Taken) (sink lane : Nat), Taking s b opTraceCfg m k → fld m 0 8 = sink →
    fld m 20 16 = lane →
    (s.isSet F.TRC_CTRL.EN 0 = true ∨ (sink = 2 ∧ s.isSet F.MAC_CFG.EN (s.laneMac lane) = false) →
      Ends (.debugTraceCfg b m) s k stState 0 {} (fun u => u = s)) ∧
    (s.isSet F.TRC_CTRL.EN 0 = false → sink = 2 → s.isSet F.MAC_CFG.EN (s.laneMac lane) = true →
      Ends (.debugTraceCfg b m) s k stOK 0 {} (fun u => u.get F.TRC_CTRL.SINK 0 = 2 ∧ u.get F.TRC_CTRL.LANE 0 = lane % 256 ∧
        OnlyRegs s u [regKey R.TRC_CTRL 0])) ∧
    (s.isSet F.TRC_CTRL.EN 0 = false → sink = 1 → Ends (.debugTraceCfg b m) s k stOK 0 {} (fun u =>
      u.get F.TRC_CTRL.SINK 0 = 1 ∧ u.reg R.TRC_RING_BASE_LO 0 = fld m 8 64 % 2 ^ 32 ∧
      u.get F.TRC_RING_BASE_HI.SIZE 0 = fld m 16 32 % 32 ∧
      OnlyRegs s u [regKey R.TRC_CTRL 0, regKey R.TRC_RING_BASE_LO 0, regKey R.TRC_RING_BASE_HI 0]))) ∧
  (∀ (b : Fin 8) (m : Msg) (s : State) (k : Taken), Taking s b opDebugLock m k →
    Ends (.debugLock b m) s k stOK 0 {} (fun u => u.get F.SEC_DBG_STATUS.LEVEL 0 = 0 ∧ u.get F.SEC_DBG_STATUS.SLOT 0 = 0 ∧
      u.get F.SEC_DBG_STATUS.FAILS 0 = s.get F.SEC_DBG_STATUS.FAILS 0 ∧
      (∀ n < 258, u.agentHalted n = false)))

/-- The error source is taken whenever IN_INT is 0; any other only with IE, its IMASK bit and IN_INT 0 (R198). A source is
one that TC_IRQ_PEND latches; the boundary at which it is taken is R199's. -/
def Obligations.InterruptSources : Prop :=
  (∀ (n : Nat) (s : State), bitAt (s.get F.TC_IRQ_PEND.PEND n) 4 = true → (s.core n).inInt = false → s.nextSource n = some 4) ∧
  (∀ (n : Fin 256) (s : State) (c : Core), s.core n.val = c → bitAt (s.get F.TC_IRQ_PEND.PEND n.val) 4 = true →
    c.inInt = false → c.slot = 0 → c.task.isSome = true → s.coreUp n.val = true → s.coreHalted n.val = false →
    c.haltReq = none → s.clReset.get 0 (n.val / 8) = 0 → c.legalBoundary = true → c.flight = [] →
    Leads (.interruptEntry n) s (fun t => (t.core n.val).pc = (s.get F.TC_VBASE.ADDR n.val * 64 + 0x100) % 0x10000 ∧
      (t.core n.val).inInt = true)) ∧
  (∀ (n k : Nat) (s : State), s.nextSource n = some k → k ≠ 4 → bitAt (s.get F.TC_IRQ_PEND.PEND n) k = true ∧
    (s.core n).statBit 0 = true ∧ (s.core n).statBit (16 + k) = true ∧ (s.core n).inInt = false) ∧
  (∀ (n : Fin 256) (s : State), ((s.core n.val).inInt = true → exec (.interruptEntry n) s = .next s) ∧
    (bitAt (s.get F.TC_IRQ_PEND.PEND n.val) 4 = false → (s.core n.val).statBit 0 = false →
      exec (.interruptEntry n) s = .next s) ∧
    ((∀ k < 8, bitAt (s.get F.TC_IRQ_PEND.PEND n.val) k = false ∨ k ≠ 4 ∧ (s.core n.val).statBit (16 + k) = false) →
      exec (.interruptEntry n) s = .next s))

/-- The state after reset has memory in its canonical form and the register file in order (R13, R421). The form is the
model's own representation of what the rules name. -/
def Obligations.ResetIsCanonical : Prop :=
  Canonical State.reset

/-- From every state in canonical form every step leads to a state in canonical form (R13, R276, R295, R421). The form is
the model's own representation of what the rules name: equal memories and equal register files are equal data. -/
def Obligations.EveryStepKeepsCanonicalForm : Prop :=
  ∀ s t : State, Canonical s → step s = .next t → Canonical t
end

