-- ==== Sys2Proof/Laws/Jobs.lean ====
section
/-! SUPPORT. A job whose ranges lie in one scratchpad is served. -/

namespace Sys2Proof.Laws

open Sys2Proof.Machine Sys2Proof.Safety

/-- An address in the scratchpad of cluster `c` decodes to it (R22). -/
theorem decodeAddr_scratch {c a : Nat} (hc : c < 32) (h1 : baseScratch + 0x200000 * c ≤ a)
    (h2 : a < baseScratch + 0x200000 * (c + 1)) : decodeAddr a = .scratch c := by
  have hb : baseScratch = 0x010000000000 := rfl
  unfold decodeAddr
  rw [if_neg (show ¬a < 2 ^ 35 by omega), if_pos (show baseScratch ≤ a ∧ a < baseScratch + 32 * 0x200000 by omega),
    show (a - baseScratch) / 0x200000 = c by omega]

/-- A job is served whose requests nothing holds back and whose ranges, the empty ones apart, lie in a scratchpad that answers. -/
theorem jobServed_scratch {s : State} {e : Nat} (c : Nat) (hc : c < 32)
    (hu : Unhindered s (epEngine e) (jFld (s.eng e).job 0 24 1)) (hd : s.domainCode (.scratch c) = 0)
    (hr : ∀ r ∈ jobTouches (engineType e) (s.eng e), (r.2.2 = 0 ∧ r.2.1 % 16 = 0) ∨ InScratch c r.2.1 r.2.2) :
    JobServed s e := by
  refine ⟨hu, fun r h a h1 h2 => ?_⟩
  obtain ⟨h3, h4⟩ | ⟨h3, h4⟩ := hr r h
  · omega
  have : decodeAddr a = .scratch c := decodeAddr_scratch hc (by simp only [baseScratch] at *; omega) (by omega)
  simp only [Served, this]
  exact ⟨rfl, hd, trivial⟩

end Sys2Proof.Laws
end

