-- ==== Sys2Proof/Laws/SMap.lean ====
section
/-! SUPPORT. Sparse maps: a read after a write of the same key gives the value written, a write leaves every other key
alone, and every operation keeps the canonical form. -/

namespace Sys2Proof.Machine

variable {α : Type}

@[simp] theorem SMap.get_nil (d : α) (k : Nat) : SMap.get [] d k = d := rfl

theorem SMap.get_drop_self (m : SMap α) (d : α) (k : Nat) : (m.drop k).get d k = d := by
  induction m with
  | nil => rfl
  | cons e r ih =>
    obtain ⟨j, v⟩ := e
    by_cases h : j = k <;> simp [SMap.drop, SMap.get, h, ih]

theorem SMap.get_drop_ne (m : SMap α) (d : α) {k j : Nat} (h : j ≠ k) : (m.drop k).get d j = m.get d j := by
  induction m with
  | nil => rfl
  | cons e r ih =>
    obtain ⟨i, v⟩ := e
    by_cases hi : i = k
    · have : ¬ i = j := by omega
      simp [SMap.drop, SMap.get, hi, ih]; intro e; omega
    · simp [SMap.drop, SMap.get, hi, ih]

theorem SMap.get_ins_self (m : SMap α) (d : α) (k : Nat) (v : α) : ((m.drop k).ins k v).get d k = v := by
  induction m with
  | nil => simp [SMap.drop, SMap.ins, SMap.get]
  | cons e r ih =>
    obtain ⟨j, w⟩ := e
    by_cases h : j = k
    · simp [SMap.drop, h, ih]
    · by_cases hl : k < j <;> simp [SMap.drop, SMap.ins, SMap.get, h, hl, ih]

theorem SMap.get_ins_ne (m : SMap α) (d : α) {k j : Nat} (v : α) (h : j ≠ k) : (m.ins k v).get d j = m.get d j := by
  induction m with
  | nil => simp [SMap.ins, SMap.get]; intro e; omega
  | cons e r ih =>
    obtain ⟨i, w⟩ := e
    by_cases hl : k < i
    · simp [SMap.ins, hl, SMap.get]; intro e; omega
    · simp [SMap.ins, hl, SMap.get, ih]

@[simp] theorem SMap.get_set_self [DecidableEq α] (m : SMap α) (d : α) (k : Nat) (v : α) : (m.set d k v).get d k = v := by
  unfold SMap.set
  split
  · rw [SMap.get_drop_self]; exact Eq.symm ‹_›
  · exact SMap.get_ins_self m d k v

theorem SMap.get_set_ne [DecidableEq α] (m : SMap α) (d e : α) {k j : Nat} (v : α) (h : j ≠ k) :
    (m.set d k v).get e j = m.get e j := by
  unfold SMap.set
  split
  · exact SMap.get_drop_ne m e h
  · rw [SMap.get_ins_ne _ e v h, SMap.get_drop_ne m e h]

/-- A read after a write, whichever key is read. -/
theorem SMap.get_set [DecidableEq α] (m : SMap α) (d : α) (k j : Nat) (v : α) :
    (m.set d k v).get d j = if j = k then v else m.get d j := by
  by_cases h : j = k
  · simp [h]
  · rw [SMap.get_set_ne m d d v h, if_neg h]

theorem SMap.above_drop [DecidableEq α] (m : SMap α) (d : α) (k : Nat) (lo lo' : Option Nat)
    (hlo : ∀ l, lo' = some l → ∃ l', lo = some l' ∧ l ≤ l') (h : m.above d lo = true) : (m.drop k).above d lo' = true := by
  induction m generalizing lo lo' with
  | nil => rfl
  | cons e r ih =>
    obtain ⟨j, w⟩ := e
    simp only [SMap.above, Bool.and_eq_true] at h
    obtain ⟨⟨h1, h2⟩, h3⟩ := h
    by_cases hj : j = k
    · simp only [SMap.drop, hj, if_true]
      refine ih (some j) lo' ?_ h3
      intro l hl
      obtain ⟨l', rfl, hle⟩ := hlo l hl
      simp only [decide_eq_true_eq] at h1
      exact ⟨j, rfl, by omega⟩
    · simp only [SMap.drop, hj, if_false, SMap.above, Bool.and_eq_true]
      refine ⟨⟨?_, h2⟩, ih (some j) (some j) (fun l e => ⟨j, rfl, by cases e; exact Nat.le_refl _⟩) h3⟩
      cases lo' with
      | none => rfl
      | some l =>
        obtain ⟨l', rfl, hle⟩ := hlo l rfl
        simp only [decide_eq_true_eq] at h1 ⊢
        omega

theorem SMap.above_ins [DecidableEq α] (m : SMap α) (d : α) (k : Nat) (v : α) (lo : Option Nat) (hv : v ≠ d)
    (hk : ∀ l, lo = some l → l < k) (h : (m.drop k).above d lo = true) : ((m.drop k).ins k v).above d lo = true := by
  induction m generalizing lo with
  | nil =>
    simp only [SMap.drop, SMap.ins, SMap.above, Bool.and_eq_true, decide_eq_true_eq]
    refine ⟨⟨?_, hv⟩, trivial⟩
    cases lo with
    | none => rfl
    | some l => simpa using hk l rfl
  | cons e r ih =>
    obtain ⟨j, w⟩ := e
    by_cases hj : j = k
    · simp only [SMap.drop, hj, if_true] at h ⊢
      exact ih lo hk h
    · simp only [SMap.drop, hj, if_false, SMap.above, Bool.and_eq_true] at h ⊢
      obtain ⟨⟨h1, h2⟩, h3⟩ := h
      by_cases hl : k < j
      · simp only [SMap.ins, hl, if_true, SMap.above, Bool.and_eq_true, decide_eq_true_eq]
        refine ⟨⟨?_, hv⟩, ⟨trivial, by simpa using h2⟩, h3⟩
        cases lo with
        | none => rfl
        | some l => simpa using hk l rfl
      · simp only [SMap.ins, hl, if_false, SMap.above, Bool.and_eq_true]
        exact ⟨⟨h1, h2⟩, ih (some j) (fun l e => by cases e; omega) h3⟩

/-- A write keeps the canonical form. -/
theorem SMap.set_wf [DecidableEq α] (m : SMap α) (d : α) (k : Nat) (v : α) (h : m.wf d = true) :
    (m.set d k v).wf d = true := by
  unfold SMap.set SMap.wf at *
  have hd : (m.drop k).above d none = true := SMap.above_drop m d k none none (fun l e => by cases e) h
  split
  · exact hd
  · exact SMap.above_ins m d k v none ‹_› (fun l e => by cases e) hd

end Sys2Proof.Machine
end

