-- ==== Sys2Proof/Laws/State.lean ====
section
/-! SUPPORT. Reads of one field of the state after an update of another. Each update of the register file leaves every other
field alone, and an update of another field leaves every register alone. -/

namespace Sys2Proof.Machine

@[simp] theorem State.setReg_pending (s : State) (r : RegRow) (i v : Nat) : (s.setReg r i v).pending = s.pending := rfl
@[simp] theorem State.setReg_mbx (s : State) (r : RegRow) (i v : Nat) : (s.setReg r i v).mbx = s.mbx := rfl
@[simp] theorem State.setReg_time (s : State) (r : RegRow) (i v : Nat) : (s.setReg r i v).time = s.time := rfl
@[simp] theorem State.setReg_links (s : State) (r : RegRow) (i v : Nat) : (s.setReg r i v).links = s.links := rfl
@[simp] theorem State.setReg_net (s : State) (r : RegRow) (i v : Nat) : (s.setReg r i v).net = s.net := rfl
@[simp] theorem State.setReg_store (s : State) (r : RegRow) (i v : Nat) : (s.setReg r i v).store = s.store := rfl
@[simp] theorem State.setReg_err (s : State) (r : RegRow) (i v : Nat) : (s.setReg r i v).err = s.err := rfl
@[simp] theorem State.setReg_out (s : State) (r : RegRow) (i v : Nat) : (s.setReg r i v).out = s.out := rfl
@[simp] theorem State.setReg_power (s : State) (r : RegRow) (i v : Nat) : (s.setReg r i v).power = s.power := rfl
@[simp] theorem State.setReg_clk (s : State) (r : RegRow) (i v : Nat) : (s.setReg r i v).clk = s.clk := rfl
@[simp] theorem State.setReg_disp (s : State) (r : RegRow) (i v : Nat) : (s.setReg r i v).disp = s.disp := rfl
@[simp] theorem State.setReg_cores (s : State) (r : RegRow) (i v : Nat) : (s.setReg r i v).cores = s.cores := rfl
@[simp] theorem State.setReg_clReset (s : State) (r : RegRow) (i v : Nat) : (s.setReg r i v).clReset = s.clReset := rfl
@[simp] theorem State.setReg_resv (s : State) (r : RegRow) (i v : Nat) : (s.setReg r i v).resv = s.resv := rfl
@[simp] theorem State.setReg_engPace (s : State) (r : RegRow) (i v : Nat) : (s.setReg r i v).engPace = s.engPace := rfl
@[simp] theorem State.setReg_engIn (s : State) (r : RegRow) (i v : Nat) : (s.setReg r i v).engIn = s.engIn := rfl
@[simp] theorem State.setReg_engs (s : State) (r : RegRow) (i v : Nat) : (s.setReg r i v).engs = s.engs := rfl
@[simp] theorem State.setReg_harqHeld (s : State) (r : RegRow) (i v : Nat) : (s.setReg r i v).harqHeld = s.harqHeld := rfl
@[simp] theorem State.setReg_harqWait (s : State) (r : RegRow) (i v : Nat) : (s.setReg r i v).harqWait = s.harqWait := rfl
@[simp] theorem State.setReg_trace (s : State) (r : RegRow) (i v : Nat) : (s.setReg r i v).trace = s.trace := rfl
@[simp] theorem State.setReg_dbg (s : State) (r : RegRow) (i v : Nat) : (s.setReg r i v).dbg = s.dbg := rfl
@[simp] theorem State.setReg_fab (s : State) (r : RegRow) (i v : Nat) : (s.setReg r i v).fab = s.fab := rfl
@[simp] theorem State.setReg_cfg (s : State) (r : RegRow) (i v : Nat) : (s.setReg r i v).cfg = s.cfg := rfl
@[simp] theorem State.setReg_sec (s : State) (r : RegRow) (i v : Nat) : (s.setReg r i v).sec = s.sec := rfl
@[simp] theorem State.setReg_upd (s : State) (r : RegRow) (i v : Nat) : (s.setReg r i v).upd = s.upd := rfl
@[simp] theorem State.setReg_free (s : State) (r : RegRow) (i v : Nat) : (s.setReg r i v).free = s.free := rfl

@[simp] theorem State.put_pending (s : State) (f : Fd) (i v : Nat) : (s.put f i v).pending = s.pending := rfl
@[simp] theorem State.put_mbx (s : State) (f : Fd) (i v : Nat) : (s.put f i v).mbx = s.mbx := rfl
@[simp] theorem State.put_time (s : State) (f : Fd) (i v : Nat) : (s.put f i v).time = s.time := rfl
@[simp] theorem State.put_links (s : State) (f : Fd) (i v : Nat) : (s.put f i v).links = s.links := rfl
@[simp] theorem State.put_net (s : State) (f : Fd) (i v : Nat) : (s.put f i v).net = s.net := rfl
@[simp] theorem State.put_store (s : State) (f : Fd) (i v : Nat) : (s.put f i v).store = s.store := rfl
@[simp] theorem State.put_err (s : State) (f : Fd) (i v : Nat) : (s.put f i v).err = s.err := rfl
@[simp] theorem State.put_out (s : State) (f : Fd) (i v : Nat) : (s.put f i v).out = s.out := rfl
@[simp] theorem State.put_power (s : State) (f : Fd) (i v : Nat) : (s.put f i v).power = s.power := rfl
@[simp] theorem State.put_clk (s : State) (f : Fd) (i v : Nat) : (s.put f i v).clk = s.clk := rfl
@[simp] theorem State.put_disp (s : State) (f : Fd) (i v : Nat) : (s.put f i v).disp = s.disp := rfl
@[simp] theorem State.put_cores (s : State) (f : Fd) (i v : Nat) : (s.put f i v).cores = s.cores := rfl
@[simp] theorem State.put_clReset (s : State) (f : Fd) (i v : Nat) : (s.put f i v).clReset = s.clReset := rfl
@[simp] theorem State.put_resv (s : State) (f : Fd) (i v : Nat) : (s.put f i v).resv = s.resv := rfl
@[simp] theorem State.put_engPace (s : State) (f : Fd) (i v : Nat) : (s.put f i v).engPace = s.engPace := rfl
@[simp] theorem State.put_engIn (s : State) (f : Fd) (i v : Nat) : (s.put f i v).engIn = s.engIn := rfl
@[simp] theorem State.put_engs (s : State) (f : Fd) (i v : Nat) : (s.put f i v).engs = s.engs := rfl
@[simp] theorem State.put_harqHeld (s : State) (f : Fd) (i v : Nat) : (s.put f i v).harqHeld = s.harqHeld := rfl
@[simp] theorem State.put_harqWait (s : State) (f : Fd) (i v : Nat) : (s.put f i v).harqWait = s.harqWait := rfl
@[simp] theorem State.put_trace (s : State) (f : Fd) (i v : Nat) : (s.put f i v).trace = s.trace := rfl
@[simp] theorem State.put_dbg (s : State) (f : Fd) (i v : Nat) : (s.put f i v).dbg = s.dbg := rfl
@[simp] theorem State.put_fab (s : State) (f : Fd) (i v : Nat) : (s.put f i v).fab = s.fab := rfl
@[simp] theorem State.put_cfg (s : State) (f : Fd) (i v : Nat) : (s.put f i v).cfg = s.cfg := rfl
@[simp] theorem State.put_sec (s : State) (f : Fd) (i v : Nat) : (s.put f i v).sec = s.sec := rfl
@[simp] theorem State.put_upd (s : State) (f : Fd) (i v : Nat) : (s.put f i v).upd = s.upd := rfl
@[simp] theorem State.put_free (s : State) (f : Fd) (i v : Nat) : (s.put f i v).free = s.free := rfl

@[simp] theorem State.count_pending (s : State) (f : Fd) (i k : Nat) : (s.count f i k).pending = s.pending := rfl
@[simp] theorem State.count_mbx (s : State) (f : Fd) (i k : Nat) : (s.count f i k).mbx = s.mbx := rfl
@[simp] theorem State.count_time (s : State) (f : Fd) (i k : Nat) : (s.count f i k).time = s.time := rfl
@[simp] theorem State.count_links (s : State) (f : Fd) (i k : Nat) : (s.count f i k).links = s.links := rfl
@[simp] theorem State.count_net (s : State) (f : Fd) (i k : Nat) : (s.count f i k).net = s.net := rfl
@[simp] theorem State.count_store (s : State) (f : Fd) (i k : Nat) : (s.count f i k).store = s.store := rfl
@[simp] theorem State.count_err (s : State) (f : Fd) (i k : Nat) : (s.count f i k).err = s.err := rfl
@[simp] theorem State.count_out (s : State) (f : Fd) (i k : Nat) : (s.count f i k).out = s.out := rfl
@[simp] theorem State.count_power (s : State) (f : Fd) (i k : Nat) : (s.count f i k).power = s.power := rfl
@[simp] theorem State.count_clk (s : State) (f : Fd) (i k : Nat) : (s.count f i k).clk = s.clk := rfl
@[simp] theorem State.count_disp (s : State) (f : Fd) (i k : Nat) : (s.count f i k).disp = s.disp := rfl
@[simp] theorem State.count_cores (s : State) (f : Fd) (i k : Nat) : (s.count f i k).cores = s.cores := rfl
@[simp] theorem State.count_clReset (s : State) (f : Fd) (i k : Nat) : (s.count f i k).clReset = s.clReset := rfl
@[simp] theorem State.count_resv (s : State) (f : Fd) (i k : Nat) : (s.count f i k).resv = s.resv := rfl
@[simp] theorem State.count_engPace (s : State) (f : Fd) (i k : Nat) : (s.count f i k).engPace = s.engPace := rfl
@[simp] theorem State.count_engIn (s : State) (f : Fd) (i k : Nat) : (s.count f i k).engIn = s.engIn := rfl
@[simp] theorem State.count_engs (s : State) (f : Fd) (i k : Nat) : (s.count f i k).engs = s.engs := rfl
@[simp] theorem State.count_harqHeld (s : State) (f : Fd) (i k : Nat) : (s.count f i k).harqHeld = s.harqHeld := rfl
@[simp] theorem State.count_harqWait (s : State) (f : Fd) (i k : Nat) : (s.count f i k).harqWait = s.harqWait := rfl
@[simp] theorem State.count_trace (s : State) (f : Fd) (i k : Nat) : (s.count f i k).trace = s.trace := rfl
@[simp] theorem State.count_dbg (s : State) (f : Fd) (i k : Nat) : (s.count f i k).dbg = s.dbg := rfl
@[simp] theorem State.count_fab (s : State) (f : Fd) (i k : Nat) : (s.count f i k).fab = s.fab := rfl
@[simp] theorem State.count_cfg (s : State) (f : Fd) (i k : Nat) : (s.count f i k).cfg = s.cfg := rfl
@[simp] theorem State.count_sec (s : State) (f : Fd) (i k : Nat) : (s.count f i k).sec = s.sec := rfl
@[simp] theorem State.count_upd (s : State) (f : Fd) (i k : Nat) : (s.count f i k).upd = s.upd := rfl
@[simp] theorem State.count_free (s : State) (f : Fd) (i k : Nat) : (s.count f i k).free = s.free := rfl

@[simp] theorem State.countReg_pending (s : State) (r : RegRow) (i k : Nat) : (s.countReg r i k).pending = s.pending := rfl
@[simp] theorem State.countReg_mbx (s : State) (r : RegRow) (i k : Nat) : (s.countReg r i k).mbx = s.mbx := rfl
@[simp] theorem State.countReg_time (s : State) (r : RegRow) (i k : Nat) : (s.countReg r i k).time = s.time := rfl
@[simp] theorem State.countReg_links (s : State) (r : RegRow) (i k : Nat) : (s.countReg r i k).links = s.links := rfl
@[simp] theorem State.countReg_net (s : State) (r : RegRow) (i k : Nat) : (s.countReg r i k).net = s.net := rfl
@[simp] theorem State.countReg_store (s : State) (r : RegRow) (i k : Nat) : (s.countReg r i k).store = s.store := rfl
@[simp] theorem State.countReg_err (s : State) (r : RegRow) (i k : Nat) : (s.countReg r i k).err = s.err := rfl
@[simp] theorem State.countReg_out (s : State) (r : RegRow) (i k : Nat) : (s.countReg r i k).out = s.out := rfl
@[simp] theorem State.countReg_power (s : State) (r : RegRow) (i k : Nat) : (s.countReg r i k).power = s.power := rfl
@[simp] theorem State.countReg_clk (s : State) (r : RegRow) (i k : Nat) : (s.countReg r i k).clk = s.clk := rfl
@[simp] theorem State.countReg_disp (s : State) (r : RegRow) (i k : Nat) : (s.countReg r i k).disp = s.disp := rfl
@[simp] theorem State.countReg_cores (s : State) (r : RegRow) (i k : Nat) : (s.countReg r i k).cores = s.cores := rfl
@[simp] theorem State.countReg_clReset (s : State) (r : RegRow) (i k : Nat) : (s.countReg r i k).clReset = s.clReset := rfl
@[simp] theorem State.countReg_resv (s : State) (r : RegRow) (i k : Nat) : (s.countReg r i k).resv = s.resv := rfl
@[simp] theorem State.countReg_engPace (s : State) (r : RegRow) (i k : Nat) : (s.countReg r i k).engPace = s.engPace := rfl
@[simp] theorem State.countReg_engIn (s : State) (r : RegRow) (i k : Nat) : (s.countReg r i k).engIn = s.engIn := rfl
@[simp] theorem State.countReg_engs (s : State) (r : RegRow) (i k : Nat) : (s.countReg r i k).engs = s.engs := rfl
@[simp] theorem State.countReg_harqHeld (s : State) (r : RegRow) (i k : Nat) : (s.countReg r i k).harqHeld = s.harqHeld := rfl
@[simp] theorem State.countReg_harqWait (s : State) (r : RegRow) (i k : Nat) : (s.countReg r i k).harqWait = s.harqWait := rfl
@[simp] theorem State.countReg_trace (s : State) (r : RegRow) (i k : Nat) : (s.countReg r i k).trace = s.trace := rfl
@[simp] theorem State.countReg_dbg (s : State) (r : RegRow) (i k : Nat) : (s.countReg r i k).dbg = s.dbg := rfl
@[simp] theorem State.countReg_fab (s : State) (r : RegRow) (i k : Nat) : (s.countReg r i k).fab = s.fab := rfl
@[simp] theorem State.countReg_cfg (s : State) (r : RegRow) (i k : Nat) : (s.countReg r i k).cfg = s.cfg := rfl
@[simp] theorem State.countReg_sec (s : State) (r : RegRow) (i k : Nat) : (s.countReg r i k).sec = s.sec := rfl
@[simp] theorem State.countReg_upd (s : State) (r : RegRow) (i k : Nat) : (s.countReg r i k).upd = s.upd := rfl
@[simp] theorem State.countReg_free (s : State) (r : RegRow) (i k : Nat) : (s.countReg r i k).free = s.free := rfl

@[simp] theorem State.setPair_pending (s : State) (lo hi : RegRow) (i v : Nat) : (s.setPair lo hi i v).pending = s.pending := rfl
@[simp] theorem State.setPair_mbx (s : State) (lo hi : RegRow) (i v : Nat) : (s.setPair lo hi i v).mbx = s.mbx := rfl
@[simp] theorem State.setPair_time (s : State) (lo hi : RegRow) (i v : Nat) : (s.setPair lo hi i v).time = s.time := rfl
@[simp] theorem State.setPair_links (s : State) (lo hi : RegRow) (i v : Nat) : (s.setPair lo hi i v).links = s.links := rfl
@[simp] theorem State.setPair_net (s : State) (lo hi : RegRow) (i v : Nat) : (s.setPair lo hi i v).net = s.net := rfl
@[simp] theorem State.setPair_store (s : State) (lo hi : RegRow) (i v : Nat) : (s.setPair lo hi i v).store = s.store := rfl
@[simp] theorem State.setPair_err (s : State) (lo hi : RegRow) (i v : Nat) : (s.setPair lo hi i v).err = s.err := rfl
@[simp] theorem State.setPair_out (s : State) (lo hi : RegRow) (i v : Nat) : (s.setPair lo hi i v).out = s.out := rfl
@[simp] theorem State.setPair_power (s : State) (lo hi : RegRow) (i v : Nat) : (s.setPair lo hi i v).power = s.power := rfl
@[simp] theorem State.setPair_clk (s : State) (lo hi : RegRow) (i v : Nat) : (s.setPair lo hi i v).clk = s.clk := rfl
@[simp] theorem State.setPair_disp (s : State) (lo hi : RegRow) (i v : Nat) : (s.setPair lo hi i v).disp = s.disp := rfl
@[simp] theorem State.setPair_cores (s : State) (lo hi : RegRow) (i v : Nat) : (s.setPair lo hi i v).cores = s.cores := rfl
@[simp] theorem State.setPair_clReset (s : State) (lo hi : RegRow) (i v : Nat) : (s.setPair lo hi i v).clReset = s.clReset := rfl
@[simp] theorem State.setPair_resv (s : State) (lo hi : RegRow) (i v : Nat) : (s.setPair lo hi i v).resv = s.resv := rfl
@[simp] theorem State.setPair_engPace (s : State) (lo hi : RegRow) (i v : Nat) : (s.setPair lo hi i v).engPace = s.engPace := rfl
@[simp] theorem State.setPair_engIn (s : State) (lo hi : RegRow) (i v : Nat) : (s.setPair lo hi i v).engIn = s.engIn := rfl
@[simp] theorem State.setPair_engs (s : State) (lo hi : RegRow) (i v : Nat) : (s.setPair lo hi i v).engs = s.engs := rfl
@[simp] theorem State.setPair_harqHeld (s : State) (lo hi : RegRow) (i v : Nat) : (s.setPair lo hi i v).harqHeld = s.harqHeld := rfl
@[simp] theorem State.setPair_harqWait (s : State) (lo hi : RegRow) (i v : Nat) : (s.setPair lo hi i v).harqWait = s.harqWait := rfl
@[simp] theorem State.setPair_trace (s : State) (lo hi : RegRow) (i v : Nat) : (s.setPair lo hi i v).trace = s.trace := rfl
@[simp] theorem State.setPair_dbg (s : State) (lo hi : RegRow) (i v : Nat) : (s.setPair lo hi i v).dbg = s.dbg := rfl
@[simp] theorem State.setPair_fab (s : State) (lo hi : RegRow) (i v : Nat) : (s.setPair lo hi i v).fab = s.fab := rfl
@[simp] theorem State.setPair_cfg (s : State) (lo hi : RegRow) (i v : Nat) : (s.setPair lo hi i v).cfg = s.cfg := rfl
@[simp] theorem State.setPair_sec (s : State) (lo hi : RegRow) (i v : Nat) : (s.setPair lo hi i v).sec = s.sec := rfl
@[simp] theorem State.setPair_upd (s : State) (lo hi : RegRow) (i v : Nat) : (s.setPair lo hi i v).upd = s.upd := rfl
@[simp] theorem State.setPair_free (s : State) (lo hi : RegRow) (i v : Nat) : (s.setPair lo hi i v).free = s.free := rfl

@[simp] theorem State.reg_with_pending (s : State) (x : List Instr) (r : RegRow) (i : Nat) :
    ({ s with pending := x } : State).reg r i = s.reg r i := rfl
@[simp] theorem State.reg_with_mbx (s : State) (x : Mbx) (r : RegRow) (i : Nat) :
    ({ s with mbx := x } : State).reg r i = s.reg r i := rfl
@[simp] theorem State.reg_with_time (s : State) (x : TimeUnit) (r : RegRow) (i : Nat) :
    ({ s with time := x } : State).reg r i = s.reg r i := rfl
@[simp] theorem State.reg_with_links (s : State) (x : Links) (r : RegRow) (i : Nat) :
    ({ s with links := x } : State).reg r i = s.reg r i := rfl
@[simp] theorem State.reg_with_net (s : State) (x : Net) (r : RegRow) (i : Nat) :
    ({ s with net := x } : State).reg r i = s.reg r i := rfl
@[simp] theorem State.reg_with_store (s : State) (x : Store) (r : RegRow) (i : Nat) :
    ({ s with store := x } : State).reg r i = s.reg r i := rfl
@[simp] theorem State.reg_with_err (s : State) (x : Errors) (r : RegRow) (i : Nat) :
    ({ s with err := x } : State).reg r i = s.reg r i := rfl
@[simp] theorem State.reg_with_out (s : State) (x : Out) (r : RegRow) (i : Nat) :
    ({ s with out := x } : State).reg r i = s.reg r i := rfl
@[simp] theorem State.reg_with_power (s : State) (x : Power) (r : RegRow) (i : Nat) :
    ({ s with power := x } : State).reg r i = s.reg r i := rfl
@[simp] theorem State.reg_with_clk (s : State) (x : Clk) (r : RegRow) (i : Nat) :
    ({ s with clk := x } : State).reg r i = s.reg r i := rfl
@[simp] theorem State.reg_with_disp (s : State) (x : SMap Disp) (r : RegRow) (i : Nat) :
    ({ s with disp := x } : State).reg r i = s.reg r i := rfl
@[simp] theorem State.reg_with_cores (s : State) (x : SMap Core) (r : RegRow) (i : Nat) :
    ({ s with cores := x } : State).reg r i = s.reg r i := rfl
@[simp] theorem State.reg_with_clReset (s : State) (x : SMap Nat) (r : RegRow) (i : Nat) :
    ({ s with clReset := x } : State).reg r i = s.reg r i := rfl
@[simp] theorem State.reg_with_resv (s : State) (x : SMap Nat) (r : RegRow) (i : Nat) :
    ({ s with resv := x } : State).reg r i = s.reg r i := rfl
@[simp] theorem State.reg_with_engPace (s : State) (x : SMap Nat) (r : RegRow) (i : Nat) :
    ({ s with engPace := x } : State).reg r i = s.reg r i := rfl
@[simp] theorem State.reg_with_engIn (s : State) (x : SMap (Option Held)) (r : RegRow) (i : Nat) :
    ({ s with engIn := x } : State).reg r i = s.reg r i := rfl
@[simp] theorem State.reg_with_engs (s : State) (x : SMap Eng) (r : RegRow) (i : Nat) :
    ({ s with engs := x } : State).reg r i = s.reg r i := rfl
@[simp] theorem State.reg_with_harqHeld (s : State) (x : SMap Nat) (r : RegRow) (i : Nat) :
    ({ s with harqHeld := x } : State).reg r i = s.reg r i := rfl
@[simp] theorem State.reg_with_harqWait (s : State) (x : List Nat) (r : RegRow) (i : Nat) :
    ({ s with harqWait := x } : State).reg r i = s.reg r i := rfl
@[simp] theorem State.reg_with_trace (s : State) (x : Trace) (r : RegRow) (i : Nat) :
    ({ s with trace := x } : State).reg r i = s.reg r i := rfl
@[simp] theorem State.reg_with_dbg (s : State) (x : Dbg) (r : RegRow) (i : Nat) :
    ({ s with dbg := x } : State).reg r i = s.reg r i := rfl
@[simp] theorem State.reg_with_fab (s : State) (x : Fabric) (r : RegRow) (i : Nat) :
    ({ s with fab := x } : State).reg r i = s.reg r i := rfl
@[simp] theorem State.reg_with_cfg (s : State) (x : Cfg) (r : RegRow) (i : Nat) :
    ({ s with cfg := x } : State).reg r i = s.reg r i := rfl
@[simp] theorem State.reg_with_sec (s : State) (x : Sec) (r : RegRow) (i : Nat) :
    ({ s with sec := x } : State).reg r i = s.reg r i := rfl
@[simp] theorem State.reg_with_upd (s : State) (x : Upd) (r : RegRow) (i : Nat) :
    ({ s with upd := x } : State).reg r i = s.reg r i := rfl
@[simp] theorem State.reg_with_free (s : State) (x : Nat) (r : RegRow) (i : Nat) :
    ({ s with free := x } : State).reg r i = s.reg r i := rfl

@[simp] theorem State.msix_regs (s : State) (fn v : Nat) : (s.msix fn v).regs = s.regs := rfl
@[simp] theorem State.msix_out (s : State) (fn v : Nat) : (s.msix fn v).out.msix = (fn, v) :: s.out.msix := rfl
@[simp] theorem State.msix_reg (s : State) (fn v : Nat) (r : RegRow) (i : Nat) : (s.msix fn v).reg r i = s.reg r i := rfl

/-! ### Registers -/

theorem State.reg_lt (s : State) (r : RegRow) (i : Nat) : s.reg r i < 2 ^ 32 := BitVec.isLt _

/-- A register reads as it was written, modulo 2^32. -/
@[simp] theorem State.reg_setReg_self (s : State) (r : RegRow) (i v : Nat) : (s.setReg r i v).reg r i = v % 2 ^ 32 := by
  simp [State.reg, State.setReg]

/-- A write of one register leaves every other as it is. -/
theorem State.reg_setReg_ne (s : State) (r q : RegRow) (i j v : Nat) (h : regKey q j ≠ regKey r i) :
    (s.setReg r i v).reg q j = s.reg q j := by
  simp [State.reg, State.setReg, SMap.get_set_ne _ _ _ _ h]

theorem bitsOf_lt (v lo w : Nat) : bitsOf v lo w < 2 ^ w := Nat.mod_lt _ (Nat.two_pow_pos w)

/-- A field that lies within 32 bits keeps its register within them. -/
theorem bitsSet_lt (v lo w x : Nat) (h : lo + w ≤ 32) (hv : v < 2 ^ 32) : bitsSet v lo w x < 2 ^ 32 := by
  unfold bitsSet bitsOf
  have hx : x % 2 ^ w < 2 ^ w := Nat.mod_lt _ (Nat.two_pow_pos w)
  have e : 2 ^ 32 = 2 ^ lo * (2 ^ w * 2 ^ (32 - lo - w)) := by rw [← Nat.pow_add, ← Nat.pow_add]; congr 1; omega
  have d1 := Nat.div_add_mod v (2 ^ lo)
  have d2 := Nat.div_add_mod (v / 2 ^ lo) (2 ^ w)
  have hq : v / 2 ^ lo / 2 ^ w < 2 ^ (32 - lo - w) := by
    rw [Nat.div_div_eq_div_mul, Nat.div_lt_iff_lt_mul (by positivity)]
    rw [e] at hv; calc v < _ := hv
      _ = _ := by ring
  have hm : v % 2 ^ lo < 2 ^ lo := Nat.mod_lt _ (Nat.two_pow_pos lo)
  generalize v / 2 ^ lo / 2 ^ w = q at *
  generalize v / 2 ^ lo % 2 ^ w = r at *
  generalize v % 2 ^ lo = b at *
  generalize v / 2 ^ lo = a at *
  generalize 2 ^ (32 - lo - w) = n at *
  generalize 2 ^ lo = l at *
  generalize 2 ^ w = k at *
  subst d2
  have : v - r * l + x % k * l = q * k * l + b + x % k * l := by
    rw [← d1]; have : l * (k * q + r) = k * q * l + r * l := by ring
    rw [this]; have e2 : k * q * l = q * k * l := by ring
    omega
  rw [this, e]
  generalize x % k = y at *
  have : q * k * l + b + y * l < (q * k + y + 1) * l := by ring_nf; omega
  have h2 : q * k + y + 1 ≤ (q + 1) * k := by ring_nf; omega
  have h3 : (q + 1) * k ≤ n * k := Nat.mul_le_mul_right _ hq
  calc _ < (q * k + y + 1) * l := this
    _ ≤ n * k * l := Nat.mul_le_mul_right _ (le_trans h2 h3)
    _ = _ := by ring

/-- After a write a field reads the value written, modulo its width. -/
theorem bitsOf_bitsSet (v lo w x : Nat) : bitsOf (bitsSet v lo w x) lo w = x % 2 ^ w := by
  unfold bitsSet bitsOf
  have d1 := Nat.div_add_mod v (2 ^ lo)
  have d2 := Nat.div_add_mod (v / 2 ^ lo) (2 ^ w)
  have hm : v % 2 ^ lo < 2 ^ lo := Nat.mod_lt _ (Nat.two_pow_pos lo)
  have hl : 0 < 2 ^ lo := Nat.two_pow_pos lo
  have hx : x % 2 ^ w < 2 ^ w := Nat.mod_lt _ (Nat.two_pow_pos w)
  generalize v / 2 ^ lo / 2 ^ w = q at *
  generalize v / 2 ^ lo % 2 ^ w = r at *
  generalize v % 2 ^ lo = b at *
  generalize v / 2 ^ lo = a at *
  generalize 2 ^ lo = l at *
  generalize 2 ^ w = k at *
  generalize x % k = y at *
  subst d2
  have e : v - r * l + y * l = b + l * (k * q + y) := by
    rw [← d1]; have : l * (k * q + r) = l * (k * q) + r * l := by ring
    rw [this]; ring_nf; omega
  rw [e, Nat.add_mul_div_left _ _ hl, Nat.div_eq_of_lt hm, Nat.zero_add, Nat.mul_add_mod, Nat.mod_eq_of_lt hx]

/-- A field reads as it was put, modulo its width. -/
theorem State.get_put_self (s : State) (f : Fd) (i v : Nat) (h : f.lo + f.width ≤ 32) :
    (s.put f i v).get f i = v % 2 ^ f.width := by
  unfold State.put State.get
  rw [State.reg_setReg_self, Nat.mod_eq_of_lt (bitsSet_lt _ _ _ _ h (s.reg_lt _ _)), bitsOf_bitsSet]

/-- A field put leaves its register's other bits as `bitsSet` does. -/
theorem State.reg_put_self (s : State) (f : Fd) (i v : Nat) (h : f.lo + f.width ≤ 32) :
    (s.put f i v).reg f.reg i = bitsSet (s.reg f.reg i) f.lo f.width v := by
  unfold State.put
  rw [State.reg_setReg_self, Nat.mod_eq_of_lt (bitsSet_lt _ _ _ _ h (s.reg_lt _ _))]

theorem State.reg_put_ne (s : State) (f : Fd) (q : RegRow) (i j v : Nat) (h : regKey q j ≠ regKey f.reg i) :
    (s.put f i v).reg q j = s.reg q j := State.reg_setReg_ne _ _ _ _ _ _ h

theorem State.get_put_ne (s : State) (f g : Fd) (i j v : Nat) (h : regKey g.reg j ≠ regKey f.reg i) :
    (s.put f i v).get g j = s.get g j := by unfold State.get; rw [State.reg_put_ne _ _ _ _ _ _ h]

end Sys2Proof.Machine
end

