-- ==== Sys2Proof/Laws/Memory.lean ====
section
/-! SUPPORT. Memory: a read after a write, and the canonical form, which every operation on bytes and on registers keeps.
The operations that forget bytes (a reset, a re-formatted stack, a wiped core) filter them. -/

namespace Sys2Proof.Machine

open Sys2Proof.Safety

/-! ### Sparse maps under drop, insert and filter -/

/-- Rising keys from a lower bound. -/
theorem SMap.risesFrom_mono {α : Type} {m : SMap α} {lo lo' : Option Nat}
    (hlo : ∀ l, lo' = some l → ∃ l', lo = some l' ∧ l ≤ l') (h : m.risesFrom lo = true) : m.risesFrom lo' = true := by
  cases m with
  | nil => rfl
  | cons e r =>
    obtain ⟨j, w⟩ := e
    simp only [SMap.risesFrom, Bool.and_eq_true] at h ⊢
    refine ⟨?_, h.2⟩
    cases lo' with
    | none => rfl
    | some l =>
      obtain ⟨l', rfl, hle⟩ := hlo l rfl
      have := h.1
      simp only [decide_eq_true_eq] at this ⊢
      omega

/-- A filter keeps the keys rising. -/
theorem SMap.risesFrom_filter {α : Type} (p : Nat × α → Bool) {m : SMap α} {lo : Option Nat}
    (h : m.risesFrom lo = true) : SMap.risesFrom (m.filter p) lo = true := by
  induction m generalizing lo with
  | nil => rfl
  | cons e r ih =>
    obtain ⟨j, w⟩ := e
    simp only [SMap.risesFrom, Bool.and_eq_true] at h
    rw [List.filter_cons]
    split
    · simp only [SMap.risesFrom, Bool.and_eq_true]
      exact ⟨h.1, ih h.2⟩
    · refine ih (SMap.risesFrom_mono ?_ h.2)
      rintro l rfl
      exact ⟨j, rfl, by have := h.1; simp only [decide_eq_true_eq] at this; omega⟩

/-- A filter keeps the canonical form. -/
theorem SMap.above_filter {α : Type} [DecidableEq α] (d : α) (p : Nat × α → Bool) {m : SMap α} {lo lo' : Option Nat}
    (hlo : ∀ l, lo' = some l → ∃ l', lo = some l' ∧ l ≤ l') (h : m.above d lo = true) :
    SMap.above (m.filter p) d lo' = true := by
  induction m generalizing lo lo' with
  | nil => rfl
  | cons e r ih =>
    obtain ⟨j, w⟩ := e
    simp only [SMap.above, Bool.and_eq_true] at h
    obtain ⟨⟨h1, h2⟩, h3⟩ := h
    have below : ∀ l, lo' = some l → l < j := by
      intro l hl
      obtain ⟨l', rfl, hle⟩ := hlo l hl
      simp only [decide_eq_true_eq] at h1
      omega
    rw [List.filter_cons]
    split
    · simp only [SMap.above, Bool.and_eq_true]
      refine ⟨⟨?_, h2⟩, ih (fun l e => ⟨l, e, Nat.le_refl l⟩) h3⟩
      cases lo' with
      | none => rfl
      | some l => simpa using below l rfl
    · exact ih (fun l e => ⟨j, rfl, Nat.le_of_lt (below l e)⟩) h3

theorem SMap.wf_filter {α : Type} [DecidableEq α] {m : SMap α} {d : α} (p : Nat × α → Bool) (h : m.wf d = true) :
    SMap.wf (m.filter p) d = true := SMap.above_filter d p (fun l e => ⟨l, e, Nat.le_refl l⟩) h

theorem SMap.risesFrom_drop {α : Type} {m : SMap α} (k : Nat) {lo : Option Nat} (h : m.risesFrom lo = true) :
    SMap.risesFrom (m.drop k) lo = true := by
  induction m generalizing lo with
  | nil => rfl
  | cons e r ih =>
    obtain ⟨j, w⟩ := e
    simp only [SMap.risesFrom, Bool.and_eq_true] at h
    simp only [SMap.drop]
    split
    · refine ih (SMap.risesFrom_mono ?_ h.2)
      rintro l rfl
      exact ⟨j, rfl, by have := h.1; simp only [decide_eq_true_eq] at this; omega⟩
    · simp only [SMap.risesFrom, Bool.and_eq_true]
      exact ⟨h.1, ih h.2⟩

theorem SMap.risesFrom_ins {α : Type} (m : SMap α) (k : Nat) (v : α) {lo : Option Nat} (hk : ∀ l, lo = some l → l < k)
    (h : (m.drop k).risesFrom lo = true) : SMap.risesFrom ((m.drop k).ins k v) lo = true := by
  induction m generalizing lo with
  | nil =>
    cases lo with
    | none => rfl
    | some l => simpa [SMap.drop, SMap.ins, SMap.risesFrom] using hk l rfl
  | cons e r ih =>
    obtain ⟨j, w⟩ := e
    by_cases hj : j = k
    · simp only [SMap.drop, hj, if_true] at h ⊢
      exact ih hk h
    · simp only [SMap.drop, hj, if_false, SMap.risesFrom, Bool.and_eq_true] at h ⊢
      by_cases hl : k < j
      · simp only [SMap.ins, hl, if_true, SMap.risesFrom, Bool.and_eq_true, decide_eq_true_eq]
        refine ⟨?_, trivial, h.2⟩
        cases lo with
        | none => rfl
        | some l => simpa using hk l rfl
      · simp only [SMap.ins, hl, if_false, SMap.risesFrom, Bool.and_eq_true]
        exact ⟨h.1, ih (fun l e => by cases e; omega) h.2⟩

/-- A write keeps the keys rising, whatever an unlisted key reads as. -/
theorem SMap.set_rises {α : Type} [DecidableEq α] {m : SMap α} (d : α) (k : Nat) (v : α) (h : m.rises = true) :
    (m.set d k v).rises = true := by
  unfold SMap.set
  split
  · exact SMap.risesFrom_drop k h
  · exact SMap.risesFrom_ins m k v (fun l e => by cases e) (SMap.risesFrom_drop k h)

theorem SMap.rises_filter {α : Type} {m : SMap α} (p : Nat × α → Bool) (h : m.rises = true) :
    SMap.rises (m.filter p) = true := SMap.risesFrom_filter p h

/-! ### Bytes -/

@[simp] theorem State.setByte_regs (s : State) (a : Nat) (b : Byte) : (s.setByte a b).regs = s.regs := rfl
@[simp] theorem State.setByte_pending (s : State) (a : Nat) (b : Byte) : (s.setByte a b).pending = s.pending := rfl

/-- A byte read after a byte write. -/
theorem State.byte_setByte (s : State) (a k : Nat) (b : Byte) :
    (s.setByte a b).byte k = if k = a then b else s.byte k := SMap.get_set _ _ _ _ _

@[simp] theorem State.byte_setByte_self (s : State) (a : Nat) (b : Byte) : (s.setByte a b).byte a = b := by
  simp [State.byte_setByte]

theorem State.byte_setByte_ne (s : State) {a k : Nat} (b : Byte) (h : k ≠ a) : (s.setByte a b).byte k = s.byte k := by
  simp [State.byte_setByte, h]

/-- A store leaves every byte outside it. -/
theorem State.byte_storeNat_out (s : State) (n a v : Nat) {k : Nat} (h : k < a ∨ a + n ≤ k) :
    (s.storeNat n a v).byte k = s.byte k := by
  induction n generalizing s a v with
  | zero => rfl
  | succ n ih =>
    rw [State.storeNat, ih _ _ _ (by omega), State.byte_setByte_ne _ _ (by omega)]

/-- Little-endian (R276): byte `k` of a stored value. -/
theorem State.byte_storeNat (s : State) (n a v k : Nat) (h : k < n) :
    (s.storeNat n a v).byte (a + k) = BitVec.ofNat 8 (v / 256 ^ k) := by
  induction n generalizing s a v k with
  | zero => omega
  | succ n ih =>
    cases k with
    | zero => rw [State.storeNat, State.byte_storeNat_out _ _ _ _ (by omega)]; simp
    | succ k =>
      rw [State.storeNat, show a + (k + 1) = a + 1 + k by omega, ih _ _ _ _ (by omega), Nat.div_div_eq_div_mul,
        Nat.pow_succ, Nat.mul_comm]

@[simp] theorem State.storeNat_regs (s : State) (n a v : Nat) : (s.storeNat n a v).regs = s.regs := by
  induction n generalizing s a v with
  | zero => rfl
  | succ n ih => rw [State.storeNat, ih]; rfl

@[simp] theorem State.storeNat_pending (s : State) (n a v : Nat) : (s.storeNat n a v).pending = s.pending := by
  induction n generalizing s a v with
  | zero => rfl
  | succ n ih => rw [State.storeNat, ih]; rfl

/-- A value stored and loaded again, cut to its bytes. -/
theorem State.loadNat_storeNat (s : State) (n a v : Nat) : (s.storeNat n a v).loadNat n a = v % 256 ^ n := by
  induction n generalizing s a v with
  | zero => simp [State.loadNat, Nat.mod_one]
  | succ n ih =>
    rw [State.loadNat, State.storeNat, ih, State.byte_storeNat_out _ _ _ _ (by omega), State.byte_setByte_self,
      Nat.pow_succ, Nat.mul_comm (256 ^ n), Nat.mod_mul]
    simp

/-- A 16-byte word read after it is written. -/
theorem State.word_setWord (s : State) (w : Nat) (d : BitVec 128) : (s.setWord w d).word w = d := by
  unfold State.word State.setWord
  rw [State.loadNat_storeNat]
  apply BitVec.eq_of_toNat_eq
  have := d.isLt
  simp only [BitVec.toNat_ofNat]
  omega

/-! ### The canonical form -/

theorem State.setByte_wf {s : State} (a : Nat) (b : Byte) (h : Memory.wf s.store.bytes = true) :
    Memory.wf (s.setByte a b).store.bytes = true := SMap.set_wf _ _ _ _ h

theorem State.storeNat_wf {s : State} (n a v : Nat) (h : Memory.wf s.store.bytes = true) :
    Memory.wf (s.storeNat n a v).store.bytes = true := by
  induction n generalizing s a v with
  | zero => exact h
  | succ n ih => exact ih _ _ (State.setByte_wf _ _ h)

theorem State.setWord_wf {s : State} (w : Nat) (d : BitVec 128) (h : Memory.wf s.store.bytes = true) :
    Memory.wf (s.setWord w d).store.bytes = true := State.storeNat_wf _ _ _ h

/-- What a reset keeps of memory is in canonical form (R421). -/
theorem Store.reset_wf {x : Store} (k now : Nat) (h : Memory.wf x.bytes = true) :
    Memory.wf (x.reset k now).bytes = true := by
  unfold Store.reset
  split
  · exact SMap.wf_filter _ h
  · exact h

/-- A stack filled with zero data (R312) keeps the form. -/
theorem Store.fillStack_wf {x : Store} (st : Nat) (h : Memory.wf x.bytes = true) :
    Memory.wf (x.fillStack st).bytes = true := SMap.wf_filter _ h

/-- Emptying a range of bytes keeps the form. -/
theorem Canonical.zeroBytes {s : State} (lo n : Nat) (h : Canonical s) : Canonical (s.zeroBytes lo n) :=
  ⟨SMap.wf_filter _ h.1, h.2⟩

/-- Emptying a range leaves every byte outside it. -/
theorem State.byte_zeroBytes_out (s : State) (lo n : Nat) {k : Nat} (h : k < lo ∨ lo + n ≤ k) :
    (s.zeroBytes lo n).byte k = s.byte k := by
  unfold State.byte State.zeroBytes
  dsimp only
  generalize s.store.bytes = m
  induction m with
  | nil => rfl
  | cons e r ih =>
    obtain ⟨j, w⟩ := e
    rw [List.filter_cons]
    split
    · simp only [SMap.get, ih]
    · rename_i hp
      have : j ≠ k := by
        rintro rfl
        apply hp
        rcases h with h | h <;> simp [h]
      simp only [SMap.get, this, if_false, ih]

/-- Memory after reset lists nothing. -/
theorem reset_memory_wf : Memory.wf State.reset.store.bytes = true := rfl

theorem Canonical.setReg {s : State} (r : RegRow) (i v : Nat) (h : Canonical s) : Canonical (s.setReg r i v) :=
  ⟨h.1, SMap.set_rises _ _ _ h.2⟩

theorem Canonical.put {s : State} (f : Fd) (i v : Nat) (h : Canonical s) : Canonical (s.put f i v) :=
  ⟨h.1, SMap.set_rises _ _ _ h.2⟩

theorem Canonical.setByte {s : State} (a : Nat) (b : Byte) (h : Canonical s) : Canonical (s.setByte a b) :=
  ⟨State.setByte_wf a b h.1, h.2⟩

theorem Canonical.storeNat {s : State} (n a v : Nat) (h : Canonical s) : Canonical (s.storeNat n a v) :=
  ⟨State.storeNat_wf n a v h.1, by rw [State.storeNat_regs]; exact h.2⟩

theorem Canonical.setWord {s : State} (w : Nat) (d : BitVec 128) (h : Canonical s) : Canonical (s.setWord w d) :=
  Canonical.storeNat _ _ _ h

/-- An update of a list of things, each step of which keeps the form, keeps it. -/
theorem Canonical.foldl {β : Type} {f : State → β → State} (hf : ∀ s b, Canonical s → Canonical (f s b)) {s : State}
    (l : List β) (h : Canonical s) : Canonical (l.foldl f s) := by
  induction l generalizing s with
  | nil => exact h
  | cons b r ih => exact ih (hf s b h)

/-- Canonicity rests on memory and the register file alone. -/
theorem Canonical.of_eq {s t : State} (hb : t.store.bytes = s.store.bytes) (hr : t.regs = s.regs) (h : Canonical s) :
    Canonical t := by
  rw [Canonical, hb, hr]; exact h

end Sys2Proof.Machine
end

