-- ==== Sys2Proof/Tests/States.lean ====
section
/-! SUPPORT. Small states the tests and witnesses start from: the state after reset, changed in one place. -/

namespace Sys2Proof.Tests

open Sys2Proof.Machine

/-- The state after reset. -/
def r0 : State := .reset

/-- NS64 at `n`. -/
def at64 (s : State) (n : Nat) : State := { s with time := { s.time with ns64 := n } }

/-- A mailbox message: tag 1, version `v`, payload length 56 and the payload given as a number. -/
def msg (v : Nat) (p : Nat) : Msg := { tag := 1, ver := BitVec.ofNat 8 v, len := 56, payload := BitVec.ofNat 448 p }

/-- The command of mailbox `b` with opcode `op` and message `m`, as the first taken after reset. -/
def cmdOf (b : Fin 8) (op : Nat) (m : Msg) : Taken := ⟨0, b, op, m, false⟩

/-- `s` with that command taken. -/
def taking (s : State) (b : Fin 8) (op : Nat) (m : Msg) : State :=
  { s with mbx := { s.mbx with started := [cmdOf b op m], taken := 1 } }

/-- `s` with firmware serving, and a request of three given words in slot 0 of mailbox `b`, its doorbell written. -/
def ringed (s : State) (b : Nat) (w0 w1 w2 : Nat) : State :=
  ((((s.setReg R.MBX_REQ_RING (slotWord b 0 0) w0).setReg R.MBX_REQ_RING (slotWord b 0 1) w1).setReg
    R.MBX_REQ_RING (slotWord b 0 2) w2).setReg R.MBX_DOORBELL b 1).put F.MBX_STATUS.FW_READY b 1

/-- `s` in device state or entry `x`. -/
def inDev (s : State) (x : DevState) : State := s.setDev (some x)

/-- `s` with governor state `g`. -/
def inGov (s : State) (g : Gov) : State := s.setGov g

/-- `s` with a task held by core `n`. -/
def coreBusy (s : State) (n : Nat) : State := s.setCore n { s.core n with task := some ⟨0, 0⟩ }

/-- `s` with power `x`. -/
def inPower (s : State) (x : Power) : State := s.setPower x

/-- `s` with the time unit running as `f` changes it. -/
def inTime (s : State) (f : TimeUnit → TimeUnit) : State := { s with time := f s.time, clk := { s.clk with timeUp := true } }

/-- `s` with the servo at the host. -/
def hosted (s : State) : State := { s with time := { s.time with hostServo := true } }

/-- `s` with bytes stored at an address. -/
def stored (s : State) (a : Nat) (bs : List Byte) : State :=
  (List.range bs.length).foldl (fun t k => t.setByte (a + k) (bs.getD k 0)) s

/-- `s` with one packet in the network, whose units have all reached its destination's router. -/
def inFlight (s : State) (p : Packet) : State := { s with net := { s.net with flight := [{ pkt := p, out := pktUnits p }] } }

/-- A SUBMIT of core 0 to the dispatcher of quadrant 1, with a descriptor given as a number. -/
def submitOf (d : Nat) : Packet :=
  { cmd := 5, dest := BitVec.ofNat 10 (epDispatcher 1), len := 3, addr := 1
    data := (List.range 4).map (fun k => ⟨BitVec.ofNat 128 (d / 2 ^ (128 * k)), false⟩) }

/-- Words as bytes. -/
def wordBytes (ws : List Nat) : List Byte := ws.flatMap (leBytes 4)

/-- MAC 2 up, with one descriptor at the start of scratchpad 0: a frame of 60 zeros at 0x40, key index 0. -/
def macSending : State :=
  ((((stored r0 baseScratch (wordBytes [0x40, 0x100, 60, 0])).setReg R.MAC_TX_RING_HI 2 0x40100).setReg
    R.MAC_TX_IDX 2 1).setReg R.MAC_CFG 2 0x25800001).setReg R.MAC_STATUS 2 1

/-- Fronthaul engine 3 enabled, with one U-plane descriptor for frame 1 in its ring. -/
def fhSending : State :=
  (((stored (r0.setReg R.LANE_CTRL 0 0x309) baseScratch (wordBytes [0x40, 0x100, 0x10000, 0, 1, 0, 0])).setReg R.FH_TX_RING_HI 3 0x40100).setReg
    R.FH_TX_IDX 3 1).setReg R.FH_CTRL 3 1

/-- Controller 1 up, with one descriptor of channel 2: 4 bytes from 0x40 to PCIe address 0x1234. -/
def dmaSending : State :=
  (((stored r0 baseScratch (wordBytes [0x40, 0x100, 0x1234, 0, 4, 0, 0])).setReg R.PCIE_DMA_RING_HI 6 0x40100).setReg
    R.PCIE_DMA_IDX 6 1).setReg R.PCIE_STATUS 1 1

/-- Core 0 within a bundle: word `w` in slot `k`, which is next; `f` changes the core. -/
def midBundle (k w : Nat) (f : Core → Core) : State :=
  r0.setCore 0 (f { slot := k + 1, bundle := BitVec.ofNat 128 (w * 2 ^ (32 * k)) })

/-- Core 0 running a task from P address 0, whose first bundle is `b`. -/
def runningTask (b : Nat) : State :=
  (stored r0 baseCore (leBytes 16 b)).setCore 0 { task := some ⟨0, 0⟩ }

/-- `s` with a preemption of core 0 pending for the READY task of handle 1, whose ENTRY is 0x40. -/
def preempted (s : State) : State :=
  (s.setDsp 0 { pool := [{ handle := 1, d := BitVec.ofNat 512 (0x40 * 2 ^ 384), st := .ready }]
                preempt := [(0, 1, 0)] }).put F.TC_IRQ_PEND.PEND 0 1

/-- A job of sixteen words. -/
def jobOf (ws : List Nat) : BitVec 512 := BitVec.ofNat 512 (leValue (wordBytes ws))

/-- A 128-point forward FFT of one symbol, from 0x1000 to 0x2000 of scratchpad 0. -/
def fftJob : List Nat := [0x15, 0x1000, 0x100, 0x2000, 0x100, 0, 0, 0, 1, 0, 0, 0, 0x200, 0, 0, 0]

/-- A de-rate-matching job of one block with the soft buffer of space 2, process 3. -/
def softJob : List Nat :=
  [0x00050514, 0x1000, 0x100, 0x2000, 0x100, 0, 0, 0x00020218, 0x00010003, 0x00000002, 0x64, 4, 4, 1, 0, 0x80]

/-- Engine `e` with a task on its link whose job, at the start of scratchpad 0, has these words. -/
def jobAt (e : Nat) (ws : List Nat) : State :=
  { stored r0 baseScratch (wordBytes ws) with engIn := [(e, some ⟨7, BitVec.ofNat 512 (0x100 * 2 ^ 416)⟩)] }

/-- `s` with engine `e` as `x`. -/
def engAs (s : State) (e : Nat) (x : Eng) : State := s.setEng e x

/-- HARQ space 2 enabled, key index 5, 8 processes of one sector. -/
def space2 (s : State) : State := (s.setReg R.ACC_ENG_HARQ_CFG 2 0x00080501).setReg R.ACC_ENG_HARQ_STRIDE 2 1

/-- `s` with memory group `g` as `x`. -/
def withGrp (s : State) (g : Nat) (x : Grp) : State := s.setGrp g x

/-- `s` with a storage word damaged. -/
def hurt (s : State) (w : Nat) (d : Damage) : State := s.setDamage w (some d)

/-- Block memory `b` of a running region, with `info` in its BM_INFO and its ports on a leaf net that runs. -/
def blockRun (b info : Nat) : State :=
  let s := (r0.setReg R.BM_INFO b info).put F.PR_REGION_STATE.STATE (b / 128) 3
  { s with fab := { s.fab with leaf := s.fab.leaf.set 0 (16 * (b / 128)) 1, nets := s.fab.nets.set 0 0 833 } }

/-- `s` with fabric port `p` active, its clock a leaf net that a tap of the system clocks drives. -/
def portUp (s : State) (p : Nat) : State :=
  let s := s.put F.PR_FP_STATUS.ACTIVE p 1
  { s with fab := { s.fab with leaf := s.fab.leaf.set 0 (16 * portRegion p) 1, nets := s.fab.nets.set 0 0 833 } }

/-- `s` with the device started, bank `b` GOOD and pin `i` as the image sets it. -/
def pinAs (s : State) (i : Nat) (p : Config.PinSet) : State :=
  let s := s.setReg R.CFG_IO_BANK_STATUS 0 (4 ^ (i / 48))
  { s with cfg := { s.cfg with phase := .started }, fab := { s.fab with pins := s.fab.pins.set {} i p } }

/-- `s` with the protocol engines out of reset. -/
def inEngines (s : State) : State := { s with clk := { s.clk with engUp := true } }

/-- `s` in boot phase `p` with load `l`. -/
def inBoot (s : State) (p : BootPhase) (l : Option Load) : State := { s with cfg := { s.cfg with phase := p, load := l } }

/-- A container header for a BLANK device: a kind, a payload length, a frame count and a region mask. -/
def plainHeader (kind len frames mask : Nat) : List Byte :=
  let h := leBytes 4 0x31464D45 ++ leBytes 4 0x0EDE9256 ++ [BitVec.ofNat 8 kind, 1, 0xFF, 0] ++ leBytes 4 7 ++ leBytes 8 0 ++
    leBytes 4 len ++ leBytes 4 frames ++ leBytes 8 mask ++ leBytes 8 0
  h ++ leBytes 4 (Crypto.crc32 (natBytes h)) ++ List.replicate 12 0

/-- A load whose header has passed, with deciphered payload `b`. -/
def loadAt (p : LoadPath) (kind len : Nat) (b : List Byte) : Load :=
  { path := p, hdr := plainHeader kind len 0 1, seen := plainHeader kind len 0 1, buf := b }

/-- `s` with the debugger at level `l`. -/
def unlocked (s : State) (l : Nat) : State := s.put F.SEC_DBG_STATUS.LEVEL 0 l

/-- A provisioning request: OP, INDEX, VALUE and the payload given as a number. -/
def request (op index value payload : Nat) : BitVec 2176 :=
  BitVec.ofNat 2176 (0x52504D45 + op * 2 ^ 32 + index * 2 ^ 40 + value * 2 ^ 64 + payload * 2 ^ 384)

/-- `s` in lifecycle state `l`. -/
def inLife (s : State) (l : Nat) : State := s.setSec { s.sec with life := l }

/-- `s` with fuses `f`. -/
def inFuses (s : State) (f : Fuses) : State := s.setFuses f

/-- `s` with the debugger's selection at agent `n`. -/
def picked (s : State) (n : Nat) : State := s.setReg R.DBG_CORE_SEL 6 n

/-- `s` with agent `n` marked halted. -/
def haltedAt (s : State) (n : Nat) : State := (picked s n).put F.DBG_CORE_STATUS.HALTED n 1

/-- `s` with a halt of agent `m` new to group 2, whose members are `ks`. -/
def grouped (s : State) (m : Nat) (ks : List Nat) : State :=
  ks.foldl (fun s k => s.setReg R.DBG_CORE_GROUP k 10) { s with dbg := { s.dbg with fresh := [(m, true)] } }

/-- Core 0 running, with breakpoint 2 on its first bundle and action `act`. -/
def breakAt (act : Nat) : State := (runningTask 0).setReg R.DBG_BP_CTRL 2 (1 + 2 * act)

/-- A UE entry of a source whose one event came at NS64 `t`. -/
def ent (source t : Nat) : Entry := { code := 9, sev := 2, source := source, first := t, last := t }

/-- At NS64 `t`, stage `k` holds `es` and the collector of its quadrant `cs`. -/
def held (k : Nat) (es cs : List Entry) (t : Nat) : State :=
  { at64 r0 t with err := { stages := [(k, es)], colls := [(stageQuad k, cs)] } }

/-- Trace enabled with every even port and port 63 of the fabric, and a queue of source `k` after `n` drops. -/
def tracing (k : Nat) (q : List (BitVec 128)) (n : Nat) : State :=
  { ((r0.put F.TRC_CTRL.EN 0 1).setReg R.TRC_PORT_EN_LO 256 0x55555555).setReg R.TRC_PORT_EN_HI 256 0x80000000 with
    trace := { queues := SMap.set [] [] k q, drops := SMap.set [] 0 k n } }

/-- In HIBERNATE. -/
def dark (s : State) : State :=
  { s with power := { s.power with dev := some { target := 3, wakes := 0, lanes := 0, cmd := none, start := 0, entered := true } } }

end Sys2Proof.Tests
end

