-- ==== Sys2Proof/WellFormed.lean ====
section
/-! DEFINITION. Well-formed commands: what the operand types of Sys2Proof/Syntax.lean leave possible and no sender sends. A packet row carries
its own command, a packet at most 16 data units (R134), a PRB 12 samples (R109), a PCIe request the bytes it says
(R117), an access a size in bytes (R13). -/

namespace Sys2Proof

/-- A packet as R133 and R134 can carry it: at most 16 data units. -/
def packetOk (p : Packet) : Bool := decide (p.data.length ≤ 16)

/-- A packet that carries command `cmd`. -/
def carries (cmd : Nat) (p : Packet) : Bool := packetOk p && p.cmd.toNat == cmd

/-- A response packet. -/
def carriesResponse (p : Packet) : Bool := packetOk p && decide (8 ≤ p.cmd.toNat) && decide (p.cmd.toNat ≤ 10)

/-- A fronthaul frame whose every PRB has 12 mantissa pairs (R109). -/
def frameOk (f : FhFrame) : Bool := f.prbs.all (fun p => p.iq.length == 12)

/-- A PCIe memory request of at most 4,096 bytes, which carries its data exactly if it is a write. -/
def pcieReqOk (q : PcieReq) : Bool :=
  decide (1 ≤ q.len) && decide (q.len ≤ 4096) && q.data.length == (if q.write then q.len else 0)

/-- A command that a sender can send. -/
def Instr.wf (i : Instr) : Bool :=
  match i with
  | .registerWrite _ _ size _ _ _ => [1, 2, 4, 8, 16].contains size
  | .fhRxFrame _ frame _ => frameOk frame
  | .pcieInboundRequest _ _ req => pcieReqOk req
  | .chlRemoteRequest _ p => packetOk p
  | .requestInjection p => packetOk p
  | .read p _ => carries 0 p
  | .write p _ => carries 1 p
  | .postedWrite p _ => carries 2 p
  | .atomic p _ => carries 3 p
  | .message p => carries 4 p
  | .submit p => carries 5 p
  | .debugRead p => carries 6 p
  | .debugWrite p => carries 7 p
  | .readResponse p => carries 8 p
  | .writeResponse p => carries 9 p
  | .errorResponse p => carries 10 p
  | .variantFetchComplete p => carriesResponse p
  | .cqEntryWritten p => carriesResponse p
  | .fpIreqPacket _ p => packetOk p
  | .fpTrspResponse _ p => packetOk p
  | .dbgAccess p => packetOk p
  | _ => true

end Sys2Proof
end

