-- ==== Sys2Proof/Tests/Slice0.lean ====
section
/-! SUPPORT. Small tests: ill-formed commands that WellFormed refuses, and values the spec's own tables and examples give. -/

namespace Sys2Proof.Tests

open Sys2Proof.Machine

set_option Elab.async false

/-! ### WellFormed refuses -/

/-- 17 data units, one more than R134 allows. -/
def longPacket (cmd : Nat) : Packet := { cmd := BitVec.ofNat 4 cmd, data := List.replicate 17 ⟨0, false⟩ }

/-- An access of 3 bytes (R13). -/
theorem test_wf_registerWrite : (Instr.registerWrite .host0 0 3 false 0 0).wf = false ∧
    (Instr.registerWrite .host0 0 4 false 0 0).wf = true := by decide

/-- A PRB of 11 samples (R109). -/
theorem test_wf_fhRxFrame : (Instr.fhRxFrame 0 ⟨false, 0, 0, 0, 0, 0, 0, 0, 0, 0, 0, 0, 0, 0,
    [⟨0, List.replicate 11 (0, 0)⟩]⟩ ⟨0, 0⟩).wf = false := by decide

/-- A PCIe write of 4 bytes with 3 of data (R117). -/
theorem test_wf_pcieInboundRequest : (Instr.pcieInboundRequest 0 0 ⟨true, false, false, 0, 4, [1, 2, 3]⟩).wf = false := by decide

/-- Packets of 17 units (R134). -/
theorem test_wf_packets : (Instr.chlRemoteRequest 0 (longPacket 0)).wf = false ∧ (Instr.requestInjection (longPacket 0)).wf = false ∧
    (Instr.fpIreqPacket 0 (longPacket 0)).wf = false ∧ (Instr.fpTrspResponse 0 (longPacket 8)).wf = false ∧
    (Instr.dbgAccess (longPacket 6)).wf = false := by decide

/-- Packet rows with another command's packet (R133). -/
theorem test_wf_requests : (Instr.read { cmd := 1 } []).wf = false ∧ (Instr.write { cmd := 0 } []).wf = false ∧
    (Instr.postedWrite { cmd := 1 } []).wf = false ∧ (Instr.atomic { cmd := 4 } []).wf = false ∧
    (Instr.message { cmd := 3 }).wf = false ∧ (Instr.submit { cmd := 4 }).wf = false ∧
    (Instr.debugRead { cmd := 0 }).wf = false ∧ (Instr.debugWrite { cmd := 1 }).wf = false := by decide

/-- Responses with another command's packet (R133). -/
theorem test_wf_responses : (Instr.readResponse { cmd := 9 }).wf = false ∧ (Instr.writeResponse { cmd := 8 }).wf = false ∧
    (Instr.errorResponse { cmd := 9 }).wf = false ∧ (Instr.variantFetchComplete { cmd := 0 }).wf = false ∧
    (Instr.cqEntryWritten { cmd := 0 }).wf = false ∧ (Instr.cqEntryWritten { cmd := 10 }).wf = true := by decide

/-- No row of the table gives bits. -/
theorem test_no_word_decodes : decodeTableWord 32 0xFFFFFFFF = none := by decide

/-! ### Values of the spec -/

/-- The table of R183 with TRUNC 0 and n = 15. -/
theorem test_r183_round : (narrow 0 false true 15 0xC000 15).1 % 65536 = 2 ∧ (narrow 0 false true 15 0x14000 15).1 % 65536 = 2 ∧
    (narrow 0 false true 15 0xFFFFFFFF4000 15).1 % 65536 = 0xFFFE ∧ (narrow 0 false true 15 0x40000000 15).1 % 65536 = 32767 ∧
    (narrow 0 false false 15 0x40000000 15).1 % 65536 = 0x8000 := by decide +kernel

/-- The table of R183 with TRUNC 1. -/
theorem test_r183_floor : (narrow 0 true true 15 0xC000 15).1 % 65536 = 1 ∧ (narrow 0 true true 15 0x14000 15).1 % 65536 = 2 ∧
    (narrow 0 true true 15 0xFFFFFFFF4000 15).1 % 65536 = 0xFFFE := by decide +kernel

/-- The modulo example of R192. -/
theorem test_r192_modulo : (r0.modify 0x100AF0 0x300 32).2 = 0x100810 := by decide +kernel

/-- The bit-reversed example of R192: the offsets of eight loads. -/
theorem test_r192_bit_reversed : (List.range 8).map (fun k =>
    ((List.range k).foldl (fun a _ => (r0.modify a 0x300000 16).2) 0x100400) - 0x100400) =
    [0x00, 0x40, 0x20, 0x60, 0x10, 0x50, 0x30, 0x70] := by decide +kernel

/-- The words of each group (R289). -/
theorem test_r289_words : [0, 31, 32, 35, 36, 40, 41, 42].map groupWords =
    [294912, 294912, 630784, 630784, 32768, 65536, 262144, 32768] := by decide +kernel

/-- The CRC-32 of R356 on the check string of its polynomial. -/
theorem test_crc32 : Crypto.crc32 [0x31, 0x32, 0x33, 0x34, 0x35, 0x36, 0x37, 0x38, 0x39] = 0xCBF43926 := by decide +kernel

/-- SOURCE of pseudo-channel 6 of stack 1 in the worked example of errors: 0x04000026, of quadrant 1. -/
theorem test_source_of_pseudo_channel : src 0x04 (32 + 6) = 0x04000026 ∧ placeOf 0x04000026 = .coll 1 := by decide +kernel

/-- DEV_ID at reset (R2). -/
theorem test_dev_id : r0.reg R.DEV_ID 0 = 0x0EDE9256 := by decide +kernel

/-- Lane 143's pairs lie at CJ31 and CJ32 and at CA31 and CA32 (R482). -/
theorem test_lane_143_balls : (ballUse ⟨63, 31⟩, ballUse ⟨63, 32⟩) = (.lane 143 false false, .lane 143 false true) ∧
    (ballUse ⟨55, 31⟩, rowName 63, rowName 55) = (.lane 143 true false, "CJ", "CA") := by decide +kernel

/-- A queue is first in, first out, and an idle block stays as it is. -/
theorem test_step_front : step { r0 with pending := [.traceDrain, .warmReset] } = .next { r0 with pending := [.warmReset] } ∧
    step r0 = .next r0.idle ∧ r0.idle = r0 := ⟨rfl, rfl, by decide +kernel⟩

end Sys2Proof.Tests
end

