-- ==== Sys2Proof/Tests/Witnesses.lean ====
section
/-! SUPPORT. For each statement that has hypotheses, and each of its clauses, a state and operands that meet them all. The clauses
are numbered in their order; 3.2 is the second part of the third clause. -/

namespace Sys2Proof.Tests

open Sys2Proof Sys2Proof.Machine Sys2Proof.Safety Sys2Proof.Laws

set_option linter.unusedVariables false
set_option Elab.async false

/-- Clause 1 of Obligations.StepRunsFrontCommand: states that meet the hypotheses. -/
theorem witness_StepRunsFrontCommand_1 :
  (∃ (c : Instr), ∃ (rest : List Instr), ∃ (s : State),
    s.pending = c :: rest) :=
    ⟨.timeTick, [], { r0 with pending := [.timeTick] }, by decide +kernel⟩

/-- Clauses 1, 2, 3, 4, 5 of Obligations.RegisterWriteRules: states that meet the hypotheses. -/
theorem witness_RegisterWriteRules_1 :
  (∃ (acc : Accessor), ∃ (core : Fin 256), ∃ (size : Nat), ∃ (off : BitVec 26), ∃ (v : Word), ∃ (s : State),
    Awake s acc ∧ (size ≠ 4 ∨ off.toNat % 4 ≠ 0)) ∧
  (∃ (acc : Accessor), ∃ (core : Fin 256), ∃ (posted : Bool), ∃ (v : Word), ∃ (s : State),
    s.dark = false ∧ (acc = .host0 ∨ acc = .board)) ∧
  (∃ (acc : Accessor), ∃ (core : Fin 256), ∃ (posted : Bool), ∃ (v : Word), ∃ (s : State),
    s.dark = false ∧ (acc = .host0 ∨ acc = .board)) ∧
  (∃ (acc : Accessor), ∃ (core : Fin 256), ∃ (posted : Bool), ∃ (off : BitVec 26), ∃ (v : Word), ∃ (s : State), ∃ (r : RegRow), ∃ (e : Nat), ∃ (i : Nat),
    regLookup off.toNat = some (r, e) ∧ Plain r ∧ off.toNat % 4 = 0 ∧ off.toNat < 0xF00000 ∧ Reaches s acc ∧
    Writes s acc core.val r e i) ∧
  (∃ (acc : Accessor), ∃ (core : Fin 256), ∃ (posted : Bool), ∃ (off : BitVec 26), ∃ (v : Word), ∃ (s : State),
    Awake s acc ∧ off.toNat % 4 = 0 ∧ off.toNat < 0xF00000 ∧
    (acc = .debugger → s.debugLevel ≠ 0 ∨ (0x170000 ≤ off.toNat ∧ off.toNat < 0x180000))) ∧
  (∃ (acc : Accessor), ∃ (core : Fin 256), ∃ (posted : Bool), ∃ (off : BitVec 26), ∃ (v : Word), ∃ (s : State),
    Awake s acc ∧ off.toNat % 4 = 0 ∧ off.toNat < 0xF00000 ∧
    (acc = .debugger → s.debugLevel ≠ 0 ∨ (0x170000 ≤ off.toNat ∧ off.toNat < 0x180000))) ∧
  (∃ (acc : Accessor), ∃ (core : Fin 256), ∃ (posted : Bool), ∃ (off : BitVec 26), ∃ (v : Word), ∃ (s : State),
    Awake s acc ∧ off.toNat % 4 = 0 ∧ off.toNat < 0xF00000 ∧
    (acc = .debugger → s.debugLevel ≠ 0 ∨ (0x170000 ≤ off.toNat ∧ off.toNat < 0x180000))) ∧
  (∃ (acc : Accessor), ∃ (core : Fin 256), ∃ (via : WriteVia), ∃ (off : Nat), ∃ (v : Word), ∃ (s : State), ∃ (r : RegRow), ∃ (e : Nat), ∃ (i : Nat),
    regLookup off = some (r, e) ∧ r.off ∉ [R.DEV_OWN_VIOL.off, R.TOD_CTRL.off, R.DBG_WARM_KEY.off] ∧
    Writes s acc core.val r e i) :=
  ⟨
    ⟨.host0, 0, 2, 0, 1, r0, by decide +kernel⟩,
    ⟨.board, 0, false, 200, r0, by decide +kernel⟩,
    ⟨.host0, 0, true, 200, r0.setReg R.DEV_OWN_VIOL 0 0x80000000, by decide +kernel⟩,
    ⟨.host0, 0, false, BitVec.ofNat 26 R.ERR_CFG.off, 0xFF, r0, R.ERR_CFG, 0, 0, by decide +kernel⟩,
    ⟨.host0, 0, true, BitVec.ofNat 26 R.LANE_SEL.off, 7, r0, by decide +kernel⟩,
    ⟨.board, 0, false, BitVec.ofNat 26 0xEFFFFC, 7, r0, by decide +kernel⟩,
    ⟨.host0, 0, false, BitVec.ofNat 26 R.TSK_SUBMIT_GO.off, 1, r0, by decide +kernel⟩,
    ⟨.chamois, 0, {}, R.GOV_BUDGET.off, 100, r0, R.GOV_BUDGET, 0, 0, by decide +kernel⟩⟩

/-- Clauses 6, 3 of Obligations.RegisterWriteRules: states that meet the hypotheses. -/
theorem witness_RegisterWriteRules_2 :
  (∃ (acc : Accessor), ∃ (core : Fin 256), ∃ (posted : Bool), ∃ (v : Word), ∃ (s : State),
    s.dark = false ∧ acc ≠ .tahr ∧ acc ≠ .debugger) ∧
  (∃ (acc : Accessor), ∃ (core : Fin 256), ∃ (posted : Bool), ∃ (off : BitVec 26), ∃ (v : Word), ∃ (s : State), ∃ (r : RegRow), ∃ (e : Nat), ∃ (i : Nat),
    regLookup off.toNat = some (r, e) ∧ Plain r ∧ off.toNat % 4 = 0 ∧ off.toNat < 0xF00000 ∧ Reaches s acc ∧
    Writes s acc core.val r e i) :=
  ⟨
    ⟨.host0, 0, true, 300, r0, by decide +kernel⟩,
    ⟨.chamois, 0, true, BitVec.ofNat 26 R.GOV_HEAT_SCALE.off, 0xFF, r0, R.GOV_HEAT_SCALE, 0, 0, by decide +kernel⟩⟩

/-- Clauses 1, 2.1, 2.2, 2.3, 2.4, 2.5 of Obligations.MailboxRegisters: states that meet the hypotheses. -/
theorem witness_MailboxRegisters_1 :
  (∃ (acc : Accessor), ∃ (s : State),
    Reaches s acc) ∧
  (∃ (acc : Accessor), ∃ (b : Fin 8), ∃ (s : State), ∃ (idx : BitVec 8),
    Awake s acc ∧ OwnsBox acc b ∧ (idx.toNat + 256 - s.get F.MBX_REQ_CONS.INDEX b.val) % 256 ≤ 32) ∧
  (∃ (acc : Accessor), ∃ (b : Fin 8), ∃ (s : State), ∃ (idx : BitVec 8),
    Awake s acc ∧ OwnsBox acc b ∧ 32 < (idx.toNat + 256 - s.get F.MBX_REQ_CONS.INDEX b.val) % 256) ∧
  (∃ (acc : Accessor), ∃ (b : Fin 8), ∃ (s : State), ∃ (idx : BitVec 8),
    Awake s acc ∧ OwnsBox acc b ∧ s.mbx.rspWait = [] ∧ s.isSet F.MBX_CTRL.IRQ_EN b.val = false) ∧
  (∃ (acc : Accessor), ∃ (b : Fin 8), ∃ (s : State), ∃ (idx : BitVec 8),
    Awake s acc ∧ OwnsBox acc b ∧ b.val = 1 ∧ s.mbx.rspWait = [] ∧ s.isSet F.MBX_CTRL.IRQ_EN b.val = true ∧
    s.get F.MBX_RSP_PROD.INDEX b.val ≠ idx.toNat) ∧
  (∃ (acc : Accessor), ∃ (b : Fin 8), ∃ (s : State),
    Awake s acc ∧ OwnsBox acc b) :=
  ⟨
    ⟨.host1, r0.setReg R.DEV_OWN_VIOL 0 0x80000001, by decide +kernel⟩,
    ⟨.host0, 1, r0, 32, by decide +kernel⟩,
    ⟨.host0, 1, r0, 33, by decide +kernel⟩,
    ⟨.chamois, 6, r0.setReg R.MBX_RSP_PROD 6 3, 2, by decide +kernel⟩,
    ⟨.host0, 1, (r0.setReg R.MBX_RSP_PROD 1 3).put F.MBX_CTRL.IRQ_EN 1 1, 2, by decide +kernel⟩,
    ⟨.debugger, 7, (taking (r0.setReg R.MBX_RSP_PROD 7 3) 7 opBye (msg 3 0)).setReg R.MBX_STATUS 7 0x333,
      by decide +kernel⟩⟩

/-- Clauses 1.1, 1.2, 2, 3 of Obligations.RequestsTakenAndAnswered: states that meet the hypotheses. -/
theorem witness_RequestsTakenAndAnswered_1 :
  (∃ (s : State), ∃ (b : Fin 8), ∃ (op : Nat), ∃ (m : Msg),
    s.fwServes = true ∧ s.nextBox = some b ∧ s.slotRequest b.val (s.get F.MBX_REQ_CONS.INDEX b.val) = (op, m) ∧
    s.requestCheck b op m = none) ∧
  (∃ (s : State), ∃ (b : Fin 8), ∃ (op : Nat), ∃ (m : Msg), ∃ st, ∃ d,
    s.fwServes = true ∧ s.nextBox = some b ∧ s.slotRequest b.val (s.get F.MBX_REQ_CONS.INDEX b.val) = (op, m) ∧
    s.requestCheck b op m = some (st, d) ∧ st < 2 ^ 16 ∧ s.mbx.rspWait = [] ∧ s.rspCount b.val < 32) ∧
  (∃ (u : State), ∃ (k : Taken), ∃ (st : Nat), ∃ (d : Nat), ∃ (p : Payload),
    u.mbx.started = [k] ∧ k.discard = false ∧ k.op ≠ opHello ∧ k.op < 2 ^ 16 ∧ st < 2 ^ 16 ∧ p.len < 256 ∧
    u.rspCount k.box.val < 32 ∧ u.mbx.rspWait = []) ∧
  (∃ (u : State), ∃ (k : Taken), ∃ (st : Nat), ∃ (d : Nat), ∃ (p : Payload),
    u.mbx.started = [k] ∧ k.discard = true) :=
  ⟨
    ⟨ringed r0 0 0x00070101 0x2 0x402, 0, 0x101, (ringed r0 0 0x00070101 0x2 0x402).slotRequest 0 0 |>.2,
      by decide +kernel⟩,
    ⟨ringed r0 0 0x00070102 0x0 0, 0, 0x102, (ringed r0 0 0x00070102 0x0 0).slotRequest 0 0 |>.2, 1, 0,
      by decide +kernel⟩,
    ⟨(taking r0 2 opBye (msg 3 0)).setReg R.MBX_RSP_PROD 2 33 |>.setReg R.MBX_RSP_CONS 2 30,
      cmdOf 2 opBye (msg 3 0), 6, 9, {len := 4, val := 77}, by decide +kernel⟩,
    ⟨(taking r0 2 opBye (msg 3 0)).mbxReset 2, { cmdOf 2 opBye (msg 3 0) with discard := true }, 6, 9,
      {len := 4, val := 77}, by decide +kernel⟩⟩

/-- Clauses 1.1, 1.2, 2, 3, 4, 5 of Obligations.InfoCommands: states that meet the hypotheses. -/
theorem witness_InfoCommands_1 :
  (∃ (b : Fin 8), ∃ (m : Msg), ∃ (s : State), ∃ (k : Taken),
    Taking s b opHello m k ∧ k.msg = m ∧ m.ver = 0 ∧ 2 ≤ m.len.toNat ∧ m.len.toNat ≤ 56 ∧ k.box = b ∧
    k.discard = false ∧ s.isSet F.MBX_STATUS.SESSION b.val = false ∧ commonVersion (fld m 0 8) (fld m 1 8) = 0) ∧
  (∃ (b : Fin 8), ∃ (m : Msg), ∃ (s : State), ∃ (k : Taken), ∃ v,
    Taking s b opHello m k ∧ k.msg = m ∧ m.ver = 0 ∧ 2 ≤ m.len.toNat ∧ m.len.toNat ≤ 56 ∧ k.box = b ∧
    k.discard = false ∧ s.isSet F.MBX_STATUS.SESSION b.val = false ∧ commonVersion (fld m 0 8) (fld m 1 8) = v ∧
    v ≠ 0) ∧
  (∃ (b : Fin 8), ∃ (m : Msg), ∃ (s : State), ∃ (k : Taken), ∃ lo, ∃ hi, ∃ v,
    commonVersion lo hi = v ∧ v ≠ 0) ∧
  (∃ (b : Fin 8), ∃ (m : Msg), ∃ (s : State), ∃ (k : Taken),
    Taking s b opBye m k ∧ k.discard = false) ∧
  (∃ (b : Fin 8), ∃ (m : Msg), ∃ (s : State), ∃ (k : Taken),
    Taking s b opInfoDevice m k) ∧
  (∃ (b : Fin 8), ∃ (m : Msg), ∃ (s : State), ∃ (k : Taken),
    Taking s b opInfoSensors m k) :=
  ⟨
    ⟨1, msg 0 0x0504, taking r0 1 opHello (msg 0 0x0504), cmdOf 1 opHello (msg 0 0x0504), by decide +kernel⟩,
    ⟨1, msg 0 0x0402, taking r0 1 opHello (msg 0 0x0402), cmdOf 1 opHello (msg 0 0x0402), 3, by decide +kernel⟩,
    ⟨1, msg 3 0, r0, cmdOf 1 opBye (msg 3 0), 2, 4, 3, by decide +kernel⟩,
    ⟨1, msg 3 0, (taking r0 1 opBye (msg 3 0)).setReg R.MBX_STATUS 1 0x33, cmdOf 1 opBye (msg 3 0),
      by decide +kernel⟩,
    ⟨1, msg 3 0, taking r0 1 opInfoDevice (msg 3 0), cmdOf 1 opInfoDevice (msg 3 0), by decide +kernel⟩,
    ⟨1, msg 3 2, taking r0 1 opInfoSensors (msg 3 2), cmdOf 1 opInfoSensors (msg 3 2), by decide +kernel⟩⟩

/-- Clauses 1, 2, 3 of Obligations.PowerSettingsCommands: states that meet the hypotheses. -/
theorem witness_PowerSettingsCommands_1 :
  (∃ (b : Fin 8), ∃ (m : Msg), ∃ (s : State), ∃ (k : Taken),
    Taking s b opBudget m k ∧ firstBad (s.fieldChecks opBudget m) = none) ∧
  (∃ (b : Fin 8), ∃ (m : Msg), ∃ (s : State), ∃ (k : Taken),
    Taking s b opThermal m k ∧ firstBad (s.fieldChecks opThermal m) = none) ∧
  (∃ (b : Fin 8), ∃ (m : Msg), ∃ (s : State), ∃ (k : Taken),
    Taking s b opPowerRead m k) :=
  ⟨
    ⟨1, msg 3 0x28_1E_14_0A_00C8, taking r0 1 opBudget (msg 3 0x28_1E_14_0A_00C8),
      cmdOf 1 opBudget (msg 3 0x28_1E_14_0A_00C8), by decide +kernel⟩,
    ⟨1, msg 3 0x0200_0320_FFF0, taking r0 1 opThermal (msg 3 0x0200_0320_FFF0),
      cmdOf 1 opThermal (msg 3 0x0200_0320_FFF0), by decide +kernel⟩,
    ⟨1, msg 3 0, taking r0 1 opPowerRead (msg 3 0), cmdOf 1 opPowerRead (msg 3 0), by decide +kernel⟩⟩

/-- Clauses 1, 2, 3, 4, 5, 6, 7.1 of Obligations.TimeCounting: states that meet the hypotheses. -/
theorem witness_TimeCounting_1 :
  (∃ (s : State),
    s.clk.timeUp = false) ∧
  (∃ (s : State),
    s.clk.timeUp = true ∧ s.dark = false ∧ s.time.addendStaged = false ∧ s.time.incrStaged = false ∧
    s.time.fallbackStaged = false) ∧
  (∃ (s : State),
    s.clk.timeUp = true ∧ s.dark = false ∧ s.time.addendStaged = true ∧ s.time.incrStaged = false ∧
    s.time.fallbackStaged = false) ∧
  (∃ (s : State),
    s.clk.timeUp = true ∧ s.dark = false ∧ s.time.addendStaged = true ∧ s.time.incrStaged = false ∧
    s.time.fallbackStaged = false) ∧
  (∃ (s : State),
    s.clk.timeUp = true ∧ s.dark = false ∧ s.time.addendStaged = false ∧ s.time.incrStaged = true ∧
    s.time.fallbackStaged = false) ∧
  (∃ (acc : Accessor), ∃ (v : Word), ∃ (s : State),
    Writes s acc 0 R.TOD_ADDEND_LO 0 0) ∧
  (∃ (acc : Accessor), ∃ (v : Word), ∃ (s : State),
    Writes s acc 0 R.NS_INCR 0 0) ∧
  (∃ (b : Fin 8), ∃ (m : Msg), ∃ (s : State), ∃ (k : Taken),
    Taking s b opAdjRate m k ∧ s.time.hostServo = false) :=
  ⟨
    ⟨r0, by decide +kernel⟩,
    ⟨(inTime r0 (fun t => { t with ns := 999999999, sec := 281474976710655 })).setReg R.TOD_PPS_OUT_CTRL 1 1 |>.setReg R.TOD_STATUS 0 1,
      by decide +kernel⟩,
    ⟨(inTime r0 (fun t => { t with addendStaged := true })).setReg R.TOD_ADDEND_HI 0 3, by decide +kernel⟩,
    ⟨(inTime r0 (fun t => { t with addendStaged := true })).setReg R.TOD_ADDEND_LO 0 0x1A36E, by decide +kernel⟩,
    ⟨(inTime r0 (fun t => { t with incrStaged := true })).setReg R.NS_INCR 0 0x1000000, by decide +kernel⟩,
    ⟨.chamois, 5, r0, by decide +kernel⟩,
    ⟨.chamois, 0xFFFFFFFF, r0, by decide +kernel⟩,
    ⟨1, msg 3 819200, taking r0 1 opAdjRate (msg 3 819200), cmdOf 1 opAdjRate (msg 3 819200), by decide +kernel⟩⟩

/-- Clauses 7.2, 10 of Obligations.TimeCounting: states that meet the hypotheses. -/
theorem witness_TimeCounting_2 :
  (∃ (b : Fin 8), ∃ (m : Msg), ∃ (s : State), ∃ (k : Taken),
    Taking s b opAdjRate m k ∧ s.time.hostServo = true) ∧
  (∃ (b : Fin 8), ∃ (m : Msg), ∃ (s : State), ∃ (k : Taken),
    Taking s b opTimeOwner m k ∧ b.val ≤ 3) :=
  ⟨
    ⟨1, msg 3 0xFFF38000, taking (hosted r0) 1 opAdjRate (msg 3 0xFFF38000), cmdOf 1 opAdjRate (msg 3 0xFFF38000),
      by decide +kernel⟩,
    ⟨1, msg 3 1, taking r0 1 opTimeOwner (msg 3 1), cmdOf 1 opTimeOwner (msg 3 1), by decide +kernel⟩⟩

/-- Clauses 1, 2.1, 2.2, 3, 4 of Obligations.TimeInUse: states that meet the hypotheses. -/
theorem witness_TimeInUse_1 :
  (∃ (acc : Accessor), ∃ (s : State),
    Writes s acc 0 R.TOD_CTRL 0 0 ∧ s.now < 2 ^ 64 ∧ s.time.sec * 10 ^ 9 + s.time.ns < 2 ^ 64) ∧
  (∃ (acc : Accessor), ∃ (s : State),
    Writes s acc 0 R.TOD_CTRL 0 0 ∧ s.now < 2 ^ 64 ∧ s.time.sec * 10 ^ 9 + s.time.ns < 2 ^ 64) ∧
  (∃ (acc : Accessor), ∃ (v : Word), ∃ (s : State),
    Writes s acc 0 R.NS_FALLBACK_OFF_LO 0 0 ∧ (s.isSet F.TOD_STATUS.VALID 0 = true ∨ s.servoOwner acc = false)) ∧
  (∃ (acc : Accessor), ∃ (v : Word), ∃ (s : State),
    Writes s acc 0 R.NS_FALLBACK_OFF_LO 0 0 ∧ s.isSet F.TOD_STATUS.VALID 0 = false ∧ s.servoOwner acc = true) ∧
  (∃ (s : State),
    s.clk.timeUp = true ∧ s.dark = false ∧ s.time.addendStaged = false ∧ s.time.incrStaged = false ∧
    s.time.fallbackStaged = true ∧ s.isSet F.TOD_STATUS.VALID 0 = false) ∧
  (∃ (acc : Accessor), ∃ (core : Fin 256), ∃ (s : State), ∃ (i : Nat),
    s.selIndex acc core.val .snap = some i ∧ s.time.sec < 2 ^ 48 ∧ s.time.ns < 2 ^ 32 ∧ s.time.frac < 2 ^ 32 ∧
    s.now < 2 ^ 64) :=
  ⟨
    ⟨.chamois, inTime (r0.setReg R.TOD_STATUS 0 1) (fun t => { t with sec := 13, ns := 5, ns64 := 99 }),
      by decide +kernel⟩,
    ⟨.host0, hosted (inTime (r0.setReg R.TOD_STATUS 0 1) (fun t => { t with sec := 0, ns := 5, ns64 := 99 })),
      by decide +kernel⟩,
    ⟨.chamois, 7, r0.setReg R.TOD_STATUS 0 1, by decide +kernel⟩,
    ⟨.chamois, 7, r0, by decide +kernel⟩,
    ⟨inTime (r0.setReg R.NS_FALLBACK_OFF_HI 0 1) (fun t => { t with fallbackStaged := true }), by decide +kernel⟩,
    ⟨.tahr, 9, inTime r0 (fun t => { t with sec := 0x100000002, ns := 5, frac := 8, ns64 := 0x500000001 }), 25,
      by decide +kernel⟩⟩

/-- Clauses 1.1, 1.2, 2, 3.1, 3.2, 4, 5.1, 5.2 of Obligations.StepOfToD: states that meet the hypotheses. -/
theorem witness_StepOfToD_1 :
  (∃ (acc : Accessor), ∃ (s : State),
    Writes s acc 0 R.TOD_CTRL 0 0 ∧ s.isSet F.TOD_STATUS.STEP_LOCK 0 = true) ∧
  (∃ (acc : Accessor), ∃ (s : State),
    Writes s acc 0 R.TOD_CTRL 0 0 ∧ s.isSet F.TOD_STATUS.STEP_LOCK 0 = false) ∧
  (∃ (s : State),
    (s.isSet F.TOD_STATUS.STEP_PENDING 0 = false ∨ s.time.carried = false ∨ s.now < s.time.stepArmed + 2000)) ∧
  (∃ (s : State), ∃ (d : Int), ∃ (sec : Int),
    s.isSet F.TOD_STATUS.STEP_PENDING 0 = true ∧ s.time.carried = true ∧ s.time.stepArmed + 2000 ≤ s.now ∧
    0 < s.time.sec ∧ d = (s.time.ns : Int) + toSigned 32 s.time.stepNs ∧
    sec = (s.time.sec : Int) + toSigned 48 s.time.stepSec + d / 10 ^ 9 ∧ (sec < 0 ∨ 2 ^ 48 ≤ sec)) ∧
  (∃ (s : State), ∃ (d : Int), ∃ (sec : Int),
    s.isSet F.TOD_STATUS.STEP_PENDING 0 = true ∧ s.time.carried = true ∧ s.time.stepArmed + 2000 ≤ s.now ∧
    0 < s.time.sec ∧ d = (s.time.ns : Int) + toSigned 32 s.time.stepNs ∧
    sec = (s.time.sec : Int) + toSigned 48 s.time.stepSec + d / 10 ^ 9 ∧ 0 ≤ sec ∧ sec < 2 ^ 48) ∧
  (∃ (acc : Accessor), ∃ (s : State),
    Writes s acc 0 R.TOD_REARM 0 0) ∧
  (∃ (b : Fin 8), ∃ (m : Msg), ∃ (s : State), ∃ (k : Taken),
    Taking s b opTimeStep m k ∧ s.time.hostServo = false) ∧
  (∃ (b : Fin 8), ∃ (m : Msg), ∃ (s : State), ∃ (k : Taken),
    Taking s b opTimeStep m k ∧ s.time.hostServo = true ∧ s.isSet F.TOD_STATUS.STEP_LOCK 0 = true) :=
  ⟨
    ⟨.chamois, r0.setReg R.TOD_STATUS 0 4, by decide +kernel⟩,
    ⟨.chamois,
      inTime ((r0.setReg R.TOD_STEP_SEC_HI 0 0xFFFF).setReg R.TOD_STEP_NS 0 77) (fun t => { t with sec := 12, ns := 300000000, ns64 := 12300000000 }),
      by decide +kernel⟩,
    ⟨inTime (r0.setReg R.TOD_STATUS 0 2) (fun t => { t with carried := true, ns64 := 1999 }), by decide +kernel⟩,
    ⟨inTime (r0.setReg R.TOD_STATUS 0 2) (fun t => { t with carried := true, ns64 := 2000, sec := 5, stepSec := 0xFFFFFFFFFFFA, stepNs := 999999999 }),
      999999999, -1, by decide +kernel⟩,
    ⟨inTime ((r0.setReg R.TOD_STATUS 0 2).setReg R.TOD_SERVO 0 0x300) (fun t => { t with carried := true, ns64 := 2000, ns := 1, sec := 5, stepSec := 0xFFFFFFFFFFFB, stepNs := 0xFFFFFFFF }),
      0, 0, by decide +kernel⟩,
    ⟨.chamois, r0.setReg R.TOD_STATUS 0 4, by decide +kernel⟩,
    ⟨1, msg 3 819200, taking r0 1 opTimeStep (msg 3 819200), cmdOf 1 opTimeStep (msg 3 819200), by decide +kernel⟩,
    ⟨1, msg 3 819200, taking ((hosted r0).setReg R.TOD_STATUS 0 4) 1 opTimeStep (msg 3 819200),
      cmdOf 1 opTimeStep (msg 3 819200), by decide +kernel⟩⟩

/-- Clauses 5.3, 5.4, 5.5 of Obligations.StepOfToD: states that meet the hypotheses. -/
theorem witness_StepOfToD_2 :
  (∃ (b : Fin 8), ∃ (m : Msg), ∃ (s : State), ∃ (k : Taken),
    Taking s b opTimeStep m k ∧ s.time.hostServo = true ∧ s.isSet F.TOD_STATUS.STEP_LOCK 0 = false) ∧
  (∃ (b : Fin 8), ∃ (m : Msg), ∃ (s : State), ∃ (k : Taken),
    Taking s b opRearmStep m k ∧ s.isSet F.TOD_SERVO.LOSS_SEEN 0 = false ∧ s.isSet F.TOD_SERVO.HOLD_EXIT 0 = false) ∧
  (∃ (b : Fin 8), ∃ (m : Msg), ∃ (s : State), ∃ (k : Taken),
    Taking s b opRearmStep m k ∧ (s.isSet F.TOD_SERVO.LOSS_SEEN 0 = true ∨ s.isSet F.TOD_SERVO.HOLD_EXIT 0 = true)) :=
  ⟨
    ⟨1, msg 3 0x123456780000FFFF00000003, taking (hosted r0) 1 opTimeStep (msg 3 0x123456780000FFFF00000003),
      cmdOf 1 opTimeStep (msg 3 0x123456780000FFFF00000003), by decide +kernel⟩,
    ⟨1, msg 3 0, taking (hosted r0) 1 opRearmStep (msg 3 0), cmdOf 1 opRearmStep (msg 3 0), by decide +kernel⟩,
    ⟨1, msg 3 0, taking ((r0.setReg R.TOD_STATUS 0 5).setReg R.TOD_SERVO 0 0x100) 1 opRearmStep (msg 3 0),
      cmdOf 1 opRearmStep (msg 3 0), by decide +kernel⟩⟩

/-- Clauses 1, 2 of Obligations.ServoState: states that meet the hypotheses. -/
theorem witness_ServoState_1 :
  (∃ (acc : Accessor), ∃ (v : Word), ∃ (s : State),
    Writes s acc 0 R.TOD_SERVO 0 0 ∧ v.toNat % 8 ≤ 3) ∧
  (∃ (acc : Accessor), ∃ (v : Word), ∃ (s : State),
    Writes s acc 0 R.TOD_SERVO 0 0 ∧ v.toNat % 8 ≤ 3) ∧
  (∃ (acc : Accessor), ∃ (v : Word), ∃ (s : State),
    Writes s acc 0 R.TOD_SERVO 0 0 ∧ v.toNat % 8 ≤ 3) ∧
  (∃ (b : Fin 8), ∃ (m : Msg), ∃ (s : State), ∃ (k : Taken),
    Taking s b opTimeGet m k) :=
  ⟨
    ⟨.chamois, 1, r0.setReg R.TOD_SERVO 0 2, by decide +kernel⟩,
    ⟨.chamois, 2, r0.setReg R.TOD_SERVO 0 3, by decide +kernel⟩,
    ⟨.chamois, 0x303, r0.setReg R.TOD_SERVO 0 3, by decide +kernel⟩,
    ⟨6, msg 3 0,
      taking (inTime (r0.setReg R.TOD_SERVO 0 3) (fun t => { t with sec := 99, ns64 := 5 })) 6 opTimeGet (msg 3 0),
      cmdOf 6 opTimeGet (msg 3 0), by decide +kernel⟩⟩

/-- Clauses 1, 2, 3, 4.1, 4.2, 6 of Obligations.ComparatorsAndPulses: states that meet the hypotheses. -/
theorem witness_ComparatorsAndPulses_1 :
  (∃ (acc : Accessor), ∃ (n : Fin 32), ∃ (v : Word), ∃ (s : State),
    Writes s acc 0 R.TIME_CMP_TGT_LO n.val n.val) ∧
  (∃ (n : Fin 32), ∃ (s : State),
    (s.isSet F.TIME_CMP_CTRL.EN n.val = false ∨ s.time.cmpArmed.get false n.val = false ∨ s.cmpDiff n.val < 0)) ∧
  (∃ (n : Fin 32), ∃ (s : State), ∃ (d : Nat),
    s.isSet F.TIME_CMP_CTRL.EN n.val = true ∧ s.time.cmpArmed.get false n.val = true ∧
    s.cmpDiff n.val = (d : Int) ∧ (s.isSet F.TIME_CMP_CTRL.BASE n.val = false ∨ s.time.jumpAt ≤ s.now)) ∧
  (∃ (n : Fin 32), ∃ (s : State), ∃ (d : Nat),
    s.isSet F.TIME_CMP_CTRL.EN n.val = true ∧ s.time.cmpArmed.get false n.val = true ∧
    s.cmpDiff n.val = (d : Int) ∧ (s.isSet F.TIME_CMP_CTRL.BASE n.val = false ∨ s.time.jumpAt ≤ s.now)) ∧
  (∃ (n : Fin 2), ∃ (sub : BitVec 6), ∃ (s : State), ∃ (e : Nat),
    s.time.ppsInLast.get 0 n.val = e + 1 ∧ s.now * 32 + s.time.nsFrac / 2 ^ 19 + sub.toNat < e + 32000) ∧
  (∃ (n : Fin 2), ∃ (sub : BitVec 6), ∃ (s : State), ∃ (e : Nat),
    s.time.ppsInLast.get 0 n.val = e + 1 ∧ e + 32000 ≤ s.now * 32 + s.time.nsFrac / 2 ^ 19 + sub.toNat) ∧
  (∃ (acc : Accessor), ∃ (s : State), ∃ (m : Nat),
    Writes s acc 0 R.TSU_TX_POP 0 m) :=
  ⟨
    ⟨.host0, 31, 0xFFFFFFFF, r0.setReg R.TIME_CMP_TGT_HI 31 7, by decide +kernel⟩,
    ⟨31, r0, by decide +kernel⟩,
    ⟨31,
      (inTime r0 (fun t => { t with ns64 := 1050, cmpTgt := [(31, 1000)], cmpArmed := [(31, true)] })).setReg R.TIME_CMP_PERIOD 31 25 |>.setReg R.TIME_CMP_CTRL 31 0xFE0005,
      50, by decide +kernel⟩,
    ⟨0,
      (inTime (r0.setReg R.TOD_PPS_OUT_CTRL 0 3) (fun t => { t with ns64 := 1050, cmpTgt := [(0, 1050)], cmpArmed := [(0, true)] })).setReg R.TIME_CMP_CTRL 0 3,
      0, by decide +kernel⟩,
    ⟨1, 63, inTime r0 (fun t => { t with ns64 := 1999, ppsInLast := [(1,33001)]}), 33000, by decide +kernel⟩,
    ⟨1, 63,
      inTime (r0.setReg R.TOD_PPS_IN_STAT 1 0xFF0000) (fun t => { t with ns64 := 2000, ppsInLast := [(1,32001)]}),
      32000, by decide +kernel⟩,
    ⟨.chamois,
      (inTime r0 (fun t => { t with txFifo := [(3,[⟨1,0,0,0,true⟩,⟨2,0,0,0,true⟩])]})).setReg R.TSU_SEL 7 3, 3,
      by decide +kernel⟩⟩

/-- Clauses 1.1, 1.2, 1.3, 2, 3, 4.1 of Obligations.SlotTimers: states that meet the hypotheses. -/
theorem witness_SlotTimers_1 :
  (∃ (acc : Accessor), ∃ (n : Fin 8), ∃ (v : Word), ∃ (s : State),
    Writes s acc 0 R.SLOT_TMR_CTRL n.val n.val ∧ s.isSet F.SLOT_TMR_CTRL.EN n.val = false ∧ v.toNat % 2 = 1 ∧
    slotValid (s.reg R.SLOT_TMR_PERIOD n.val) (s.reg R.SLOT_TMR_OFFSET n.val) = true ∧
    s.reg R.SLOT_TMR_PERIOD n.val < 2 ^ 24) ∧
  (∃ (acc : Accessor), ∃ (n : Fin 8), ∃ (v : Word), ∃ (s : State),
    Writes s acc 0 R.SLOT_TMR_CTRL n.val n.val ∧ s.isSet F.SLOT_TMR_CTRL.EN n.val = false ∧ v.toNat % 2 = 1 ∧
    slotValid (s.reg R.SLOT_TMR_PERIOD n.val) (s.reg R.SLOT_TMR_OFFSET n.val) = true ∧
    s.reg R.SLOT_TMR_PERIOD n.val < 2 ^ 24) ∧
  (∃ (acc : Accessor), ∃ (n : Fin 8), ∃ (v : Word), ∃ (s : State),
    Writes s acc 0 R.SLOT_TMR_CTRL n.val n.val ∧ s.isSet F.SLOT_TMR_CTRL.EN n.val = false ∧ v.toNat % 2 = 1 ∧
    slotValid (s.reg R.SLOT_TMR_PERIOD n.val) (s.reg R.SLOT_TMR_OFFSET n.val) = false) ∧
  (∃ (acc : Accessor), ∃ (n : Fin 8), ∃ (v : Word), ∃ (s : State),
    Writes s acc 0 R.SLOT_TMR_CTRL n.val n.val ∧ s.isSet F.SLOT_TMR_CTRL.EN n.val = true) ∧
  (∃ (acc : Accessor), ∃ (n : Fin 8), ∃ (v : Word), ∃ (s : State),
    Writes s acc 0 R.SLOT_TMR_CTRL n.val n.val ∧ s.isSet F.SLOT_TMR_CTRL.EN n.val = true) ∧
  (∃ (n : Fin 8), ∃ (s : State),
    s.slotDue n.val = false) ∧
  (∃ (n : Fin 8), ∃ (s : State), ∃ (x : Nat),
    s.slotDue n.val = true ∧ s.time.slotNext.get 0 n.val = x + 1 ∧ s.now < 2 ^ 64) ∧
  (∃ (b : Fin 8), ∃ (m : Msg), ∃ (s : State), ∃ (k : Taken),
    Taking s b opSlotCfg m k ∧ s.time.hostServo = false) :=
  ⟨
    ⟨.chamois, 7, 1,
      inTime ((r0.setReg R.SLOT_TMR_PERIOD 7 500000).setReg R.SLOT_TMR_OFFSET 7 3) (fun t => { t with ns64 := 500003 }),
      by decide +kernel⟩,
    ⟨.chamois, 7, 3,
      inTime ((r0.setReg R.SLOT_TMR_PERIOD 7 500000).setReg R.SLOT_TMR_OFFSET 7 3) (fun t => { t with ns64 := 500003 }),
      by decide +kernel⟩,
    ⟨.chamois, 7, 1, r0.setReg R.SLOT_TMR_PERIOD 7 62499, by decide +kernel⟩,
    ⟨.chamois, 7, 6, inTime (r0.setReg R.SLOT_TMR_CTRL 7 1) (fun t => { t with slotNext := [(7, 1)] }),
      by decide +kernel⟩,
    ⟨.chamois, 7, 7, inTime (r0.setReg R.SLOT_TMR_CTRL 7 1) (fun t => { t with slotNext := [(7, 1)] }),
      by decide +kernel⟩,
    ⟨7, r0, by decide +kernel⟩,
    ⟨7,
      (inTime (r0.setReg R.SLOT_TMR_CTRL 7 5) (fun t => { t with slotNext := [(7, 500001)], slotResync := [(7,true)], ns64 := 500000 })).setReg R.SLOT_TMR_PERIOD 7 500000,
      500000, by decide +kernel⟩,
    ⟨1, msg 3 0, taking r0 1 opSlotCfg (msg 3 0), cmdOf 1 opSlotCfg (msg 3 0), by decide +kernel⟩⟩

/-- Clauses 4.2, 4.3 of Obligations.SlotTimers: states that meet the hypotheses. -/
theorem witness_SlotTimers_2 :
  (∃ (b : Fin 8), ∃ (m : Msg), ∃ (s : State), ∃ (k : Taken),
    Taking s b opSlotCfg m k ∧ s.time.hostServo = true ∧ firstBad (s.fieldChecks opSlotCfg m) = none) ∧
  (∃ (b : Fin 8), ∃ (m : Msg), ∃ (s : State), ∃ (k : Taken),
    Taking s b opProfile m k) :=
  ⟨
    ⟨1, msg 3 0x0100000009_0007A120_00000102,
      taking (hosted r0) 1 opSlotCfg (msg 3 0x0100000009_0007A120_00000102),
      cmdOf 1 opSlotCfg (msg 3 0x0100000009_0007A120_00000102), by decide +kernel⟩,
    ⟨1, msg 3 0x80000000000000030000000000000002,
      taking (hosted r0) 1 opProfile (msg 3 0x80000000000000030000000000000002),
      cmdOf 1 opProfile (msg 3 0x80000000000000030000000000000002), by decide +kernel⟩⟩

/-- Clauses 1, 2.1, 2.2, 3, 4, 5, 6 of Obligations.LanesAndRings: states that meet the hypotheses. -/
theorem witness_LanesAndRings_1 :
  (∃ (l : Fin 256), ∃ (s : State),
    s.isSet F.LANE_CTRL.EN l.val = true ∧ s.domState (domLaneQuad (l.val / 4)) ≠ 0) ∧
  (∃ (l : Fin 256), ∃ (k : Fin 65536), ∃ (s : State),
    2 ≤ s.laneState l.val ∧ 16 ≤ l.val ∧ s.get F.LANE_CTRL.BIND l.val = 0) ∧
  (∃ (l : Fin 256), ∃ (k : Fin 65536), ∃ (s : State), ∃ (f : Nat),
    2 ≤ s.laneState l.val ∧ 16 ≤ l.val ∧ s.get F.LANE_CTRL.BIND l.val = 3 ∧ s.get F.LANE_CTRL.ENGINE l.val = f ∧
    s.isSet F.CPRI_CFG.EN f = true ∧ s.cpriLane f = l.val ∧ s.get F.CPRI_STATUS.STATE f ≠ 0) ∧
  (∃ (l : Fin 256), ∃ (k : Fin 65536), ∃ (s : State),
    s.laneState l.val < 2) ∧
  (∃ (l : Fin 256), ∃ (a : BitVec 16), ∃ (b : BitVec 16), ∃ (c : BitVec 16), ∃ (w : BitVec 8), ∃ (e : BitVec 16), ∃ (u : BitVec 16), ∃ (s : State),
    s.laneState l.val = 3) ∧
  (∃ (acc : Accessor), ∃ (n : Fin 2), ∃ (v : Word), ∃ (s : State), ∃ (l : Nat), ∃ (need : Nat),
    Writes s acc 0 R.TSU_RCLK_CTRL n.val n.val ∧ l = v.toNat % 256 ∧ need = s.rclkLeast l) ∧
  (∃ (acc : Accessor), ∃ (n : Fin 2), ∃ (v : Word), ∃ (s : State), ∃ (l : Nat), ∃ (need : Nat),
    Writes s acc 0 R.TSU_RCLK_CTRL n.val n.val ∧ l = v.toNat % 256 ∧ need = s.rclkLeast l) ∧
  (∃ (acc : Accessor), ∃ (k : RingKind), ∃ (v : Word), ∃ (s : State), ∃ (i : Nat),
    Writes s acc 0 (ringRegs k).idx 0 i) :=
  ⟨
    ⟨255, (r0.setReg R.LANE_CTRL 255 1).setReg R.TSU_RCLK_CTRL 1 0x200000FF, by decide +kernel⟩,
    ⟨20, 3, (r0.setReg R.LANE_STATUS 20 3).setReg R.TSU_RCLK_CTRL 1 20, by decide +kernel⟩,
    ⟨20, 3,
      (((r0.setReg R.LANE_STATUS 20 3).setReg R.LANE_CTRL 20 0x70D).setReg R.CPRI_STATUS 7 0xFF05).setReg R.CPRI_CFG 7 0x1407,
      7, by decide +kernel⟩,
    ⟨20, 3, r0, by decide +kernel⟩,
    ⟨20, 100, 90, 80, 9, 5, 1, (r0.setReg R.LANE_STATUS 20 3).setReg R.LANE_ERR_LO 20 0xFFFFFFFE,
      by decide +kernel⟩,
    ⟨.chamois, 1, 0x10000010, ((r0.setReg R.LANE_RATE 16 25781250).setReg R.LANE_STATUS 16 3), 16, 129,
      by decide +kernel⟩,
    ⟨.chamois, 1, 0x1000A510, ((r0.setReg R.LANE_RATE 16 25781250).setReg R.LANE_STATUS 16 3), 16, 129,
      by decide +kernel⟩,
    ⟨.host0, .fhTx, 16, (r0.setReg R.FH_TX_RING_HI 3 0x40000).setReg R.FH_SEL 0 3, 3, by decide +kernel⟩⟩

/-- Clause 6 of Obligations.LanesAndRings: states that meet the hypotheses. -/
theorem witness_LanesAndRings_2 :
  (∃ (acc : Accessor), ∃ (k : RingKind), ∃ (v : Word), ∃ (s : State), ∃ (i : Nat),
    Writes s acc 0 (ringRegs k).idx 0 i) :=
    ⟨.host0, .fhTx, 17, (r0.setReg R.FH_TX_RING_HI 3 0x40000).setReg R.FH_SEL 0 3, 3, by decide +kernel⟩

/-- Clause 7 of Obligations.LanesAndRings: states that meet the hypotheses. -/
theorem witness_LanesAndRings_3 :
  (∃ (k : RingKind), ∃ (i : Nat), ∃ (ep : Nat), ∃ (size : Nat), ∃ (off : Nat), ∃ (bs : List Byte), ∃ (s : State), ∃ (u : State), ∃ (o : Nat),
    s.writeBytes ⟨ep, 0, 0, false⟩ (s.ringHead k i size + off) bs = (0, o, u)) :=
    ⟨.macRx, 2, epLaneQuad 2, 32, 8, [1,2,3,4],
      ((r0.setReg R.MAC_RX_RING_HI 2 0x40100).setReg R.MAC_RX_IDX 2 0xFFFF0005),
      (((r0.setReg R.MAC_RX_RING_HI 2 0x40100).setReg R.MAC_RX_IDX 2 0xFFFF0005).writeBytes ⟨epLaneQuad 2, 0, 0,
      false⟩ (((r0.setReg R.MAC_RX_RING_HI 2 0x40100).setReg R.MAC_RX_IDX 2 0xFFFF0005).ringHead .macRx 2 32 + 8) [1,2,3,4]).2.2,
      (((r0.setReg R.MAC_RX_RING_HI 2 0x40100).setReg R.MAC_RX_IDX 2 0xFFFF0005).writeBytes ⟨epLaneQuad 2, 0, 0,
      false⟩ (((r0.setReg R.MAC_RX_RING_HI 2 0x40100).setReg R.MAC_RX_IDX 2 0xFFFF0005).ringHead .macRx 2 32 + 8) [1,2,3,4]).2.1,
      by
    first | decide +kernel | ((repeat' first | apply And.intro | apply Prod.ext) <;> first | decide +kernel | with_reducible rfl | rfl)⟩

/-- Clauses 1, 2, 3, 5, 6.1, 6.2.1, 6.2.2 of Obligations.EthernetMac: states that meet the hypotheses. -/
theorem witness_EthernetMac_1 :
  (∃ (m : Fin 64), ∃ (p : MacPage), ∃ (tr : Bool), ∃ (s : State), ∃ (sp : Nat),
    s.clk.engUp = true ∧ s.macSpeedOf m.val = some sp ∧ s.isSet F.MAC_CFG.EN m.val = true ∧
    (∀ k, k < s.links.macLanes.get 0 m.val → s.laneState (4 * m.val + k) = 3) ∧
    (s.isSet F.MAC_CFG.AN_EN m.val = false ∨ (s.macShares m.val p = true ∧
    (s.isSet F.MAC_CFG.LT_EN m.val = false ∨ s.isSet F.LANE_CTRL.PAM4 (4 * m.val) = false ∨ tr = true)))) ∧
  (∃ (m : Fin 64), ∃ (p : MacPage), ∃ (tr : Bool), ∃ (s : State),
    s.macSpeedOf m.val = none ∧ s.links.macLanes.get 0 m.val ≠ 0) ∧
  (∃ (m : Fin 64), ∃ (s : State),
    s.isSet F.MAC_STATUS.LINK m.val = true) ∧
  (∃ (mac : Fin 72), ∃ (fr : List Byte), ∃ (ok : Bool), ∃ (sub : BitVec 6), ∃ (ca : Fin 8), ∃ (s : State),
    mac.val < 64 ∧
    (s.isSet F.MAC_CFG.EN mac.val = false ∨ s.isSet F.MAC_STATUS.LINK mac.val = false ∨ s.quadTakes mac.val = false)) ∧
  (∃ (mac : Fin 72), ∃ (fr : List Byte), ∃ (ok : Bool), ∃ (sub : BitVec 6), ∃ (ca : Fin 8), ∃ (s : State),
    mac.val < 64 ∧ s.isSet F.MAC_CFG.EN mac.val = true ∧ s.isSet F.MAC_STATUS.LINK mac.val = true ∧
    s.quadTakes mac.val = true ∧ (ok = false ∨ s.get F.MAC_CFG.MTU mac.val < fr.length + 4)) ∧
  (∃ (mac : Fin 72), ∃ (fr : List Byte), ∃ (ok : Bool), ∃ (sub : BitVec 6), ∃ (ca : Fin 8), ∃ (s : State),
    mac.val < 64 ∧ s.isSet F.MAC_CFG.EN mac.val = true ∧ s.isSet F.MAC_STATUS.LINK mac.val = true ∧
    s.quadTakes mac.val = true ∧ (ok = false ∨ s.get F.MAC_CFG.MTU mac.val < fr.length + 4)) ∧
  (∃ (mac : Fin 72), ∃ (fr : List Byte), ∃ (ok : Bool), ∃ (sub : BitVec 6), ∃ (ca : Fin 8), ∃ (s : State),
    mac.val < 64 ∧ s.isSet F.MAC_CFG.EN mac.val = true ∧ s.isSet F.MAC_STATUS.LINK mac.val = true ∧
    s.quadTakes mac.val = true ∧ ok = true ∧ fr.length + 4 ≤ s.get F.MAC_CFG.MTU mac.val ∧
    be16 (fr.map (·.toNat)) 12 ≠ 0x88E5 ∧ s.isSet F.MAC_SEC_CTRL.REQUIRE mac.val = false ∧
    s.macFronthaul mac.val = none ∧ s.rxFree .macRx mac.val = false) ∧
  (∃ (mac : Fin 72), ∃ (fr : List Byte), ∃ (ok : Bool), ∃ (sub : BitVec 6), ∃ (ca : Fin 8), ∃ (s : State),
    mac.val < 64 ∧ s.isSet F.MAC_CFG.EN mac.val = true ∧ s.isSet F.MAC_STATUS.LINK mac.val = true ∧
    s.quadTakes mac.val = true ∧ ok = true ∧ fr.length + 4 ≤ s.get F.MAC_CFG.MTU mac.val ∧
    be16 (fr.map (·.toNat)) 12 ≠ 0x88E5 ∧ s.isSet F.MAC_SEC_CTRL.REQUIRE mac.val = false ∧
    s.macFronthaul mac.val = none ∧ s.rxFree .macRx mac.val = true) :=
  ⟨
    ⟨2, ⟨0, 0⟩, false,
      inEngines { (((r0.setReg R.MAC_CFG 2 0x25800903).setReg R.LANE_RATE 8 25781250).setReg R.LANE_STATUS 8 3) with links := { r0.links with macLanes := [(2,1)] } },
      1, by decide +kernel⟩,
    ⟨2, ⟨0, 0⟩, false,
      { (((r0.setReg R.MAC_CFG 2 0x25800905).setReg R.LANE_RATE 8 25781250).setReg R.LANE_STATUS 8 3) with links := { r0.links with macLanes := [(2,1)] } },
      by decide +kernel⟩,
    ⟨2, r0.setReg R.MAC_STATUS 2 1, by decide +kernel⟩,
    ⟨2, [1], true, 0, 0, r0, by decide +kernel⟩,
    ⟨2, List.replicate 64 0, false, 0, 0, (r0.setReg R.MAC_STATUS 2 1).setReg R.MAC_CFG 2 0x25800001,
      by decide +kernel⟩,
    ⟨2, List.replicate 61 0, true, 0, 0, (r0.setReg R.MAC_STATUS 2 1).setReg R.MAC_CFG 2 0x00400001,
      by decide +kernel⟩,
    ⟨2, List.replicate 60 0, true, 0, 0, (r0.setReg R.MAC_STATUS 2 1).setReg R.MAC_CFG 2 0x00400001,
      by decide +kernel⟩,
    ⟨2, List.replicate 60 0, true, 0, 0,
      (((r0.setReg R.MAC_STATUS 2 1).setReg R.MAC_CFG 2 0x00400001).setReg R.MAC_RX_RING_HI 2 0x40100).setReg R.MAC_RX_IDX 2 1,
      by decide +kernel⟩⟩

/-- Clause 4.3 of Obligations.EthernetMac: states that meet the hypotheses. -/
theorem witness_EthernetMac_2 :
  (∃ (mac : Fin 72), ∃ (sub : BitVec 6), ∃ (ca : Fin 8), ∃ (ing : Nat), ∃ (s : State), ∃ (u : State), ∃ (w : State), ∃ (d : List Byte), ∃ (bs : List Byte), ∃ (c : Nat), ∃ (o : Nat), ∃ (poison : Bool),
    mac.val < 64 ∧ s.isSet F.MAC_CFG.EN mac.val = true ∧ s.isSet F.MAC_STATUS.LINK mac.val = true ∧
    s.quadTakes mac.val = true ∧ s.ringReady .macTx mac.val = true ∧
    s.ringRead .macTx mac.val (epLaneQuad mac.val) 16 = (some d, u) ∧
    u.readBytes ⟨epLaneQuad mac.val, bitsOf (wordOf d 1) 16 8, 0, false⟩ (wordOf d 0 + wordOf d 1 % 65536 * 2 ^ 32) (wordOf d 2 % 2 ^ 14) = (c, poison, o, bs, w) ∧
    c = 0 ∧ poison = false ∧ bitAt (wordOf d 1) 24 = false ∧ bitAt (wordOf d 2) 16 = false ∧
    ptpAt (bs.map (·.toNat)) = none) :=
    ⟨2, 5, 0, 0, (stored macSending (baseScratch + 8) [0]),
      ((stored macSending (baseScratch + 8) [0]).ringRead .macTx (2 : Fin 72).val (epLaneQuad (2 : Fin 72).val) 16).2,
      (((stored macSending (baseScratch + 8) [0]).ringRead .macTx (2 : Fin 72).val (epLaneQuad (2 : Fin 72).val) 16).2.readBytes ⟨epLaneQuad (2 : Fin 72).val,
      bitsOf (wordOf (((stored macSending (baseScratch + 8) [0]).ringRead .macTx (2 : Fin 72).val (epLaneQuad (2 : Fin 72).val) 16).1.getD []) 1) 16 8,
      0,
      false⟩ (wordOf (((stored macSending (baseScratch + 8) [0]).ringRead .macTx (2 : Fin 72).val (epLaneQuad (2 : Fin 72).val) 16).1.getD []) 0 + wordOf (((stored macSending (baseScratch + 8) [0]).ringRead .macTx (2 : Fin 72).val (epLaneQuad (2 : Fin 72).val) 16).1.getD []) 1 % 65536 * 2 ^ 32) (wordOf (((stored macSending (baseScratch + 8) [0]).ringRead .macTx (2 : Fin 72).val (epLaneQuad (2 : Fin 72).val) 16).1.getD []) 2 % 2 ^ 14)).2.2.2.2,
      (((stored macSending (baseScratch + 8) [0]).ringRead .macTx (2 : Fin 72).val (epLaneQuad (2 : Fin 72).val) 16).1.getD []),
      (((stored macSending (baseScratch + 8) [0]).ringRead .macTx (2 : Fin 72).val (epLaneQuad (2 : Fin 72).val) 16).2.readBytes ⟨epLaneQuad (2 : Fin 72).val,
      bitsOf (wordOf (((stored macSending (baseScratch + 8) [0]).ringRead .macTx (2 : Fin 72).val (epLaneQuad (2 : Fin 72).val) 16).1.getD []) 1) 16 8,
      0,
      false⟩ (wordOf (((stored macSending (baseScratch + 8) [0]).ringRead .macTx (2 : Fin 72).val (epLaneQuad (2 : Fin 72).val) 16).1.getD []) 0 + wordOf (((stored macSending (baseScratch + 8) [0]).ringRead .macTx (2 : Fin 72).val (epLaneQuad (2 : Fin 72).val) 16).1.getD []) 1 % 65536 * 2 ^ 32) (wordOf (((stored macSending (baseScratch + 8) [0]).ringRead .macTx (2 : Fin 72).val (epLaneQuad (2 : Fin 72).val) 16).1.getD []) 2 % 2 ^ 14)).2.2.2.1,
      0,
      (((stored macSending (baseScratch + 8) [0]).ringRead .macTx (2 : Fin 72).val (epLaneQuad (2 : Fin 72).val) 16).2.readBytes ⟨epLaneQuad (2 : Fin 72).val,
      bitsOf (wordOf (((stored macSending (baseScratch + 8) [0]).ringRead .macTx (2 : Fin 72).val (epLaneQuad (2 : Fin 72).val) 16).1.getD []) 1) 16 8,
      0,
      false⟩ (wordOf (((stored macSending (baseScratch + 8) [0]).ringRead .macTx (2 : Fin 72).val (epLaneQuad (2 : Fin 72).val) 16).1.getD []) 0 + wordOf (((stored macSending (baseScratch + 8) [0]).ringRead .macTx (2 : Fin 72).val (epLaneQuad (2 : Fin 72).val) 16).1.getD []) 1 % 65536 * 2 ^ 32) (wordOf (((stored macSending (baseScratch + 8) [0]).ringRead .macTx (2 : Fin 72).val (epLaneQuad (2 : Fin 72).val) 16).1.getD []) 2 % 2 ^ 14)).2.2.1,
      false,
      by
    first | decide +kernel | ((repeat' first | apply And.intro | apply Prod.ext) <;> first | decide +kernel | with_reducible rfl | rfl)⟩

/-- Clause 4.2 of Obligations.EthernetMac: states that meet the hypotheses. -/
theorem witness_EthernetMac_3 :
  (∃ (mac : Fin 72), ∃ (sub : BitVec 6), ∃ (ca : Fin 8), ∃ (ing : Nat), ∃ (s : State), ∃ (u : State), ∃ (w : State), ∃ (d : List Byte), ∃ (bs : List Byte), ∃ (c : Nat), ∃ (o : Nat), ∃ (poison : Bool),
    mac.val < 64 ∧ s.isSet F.MAC_CFG.EN mac.val = true ∧ s.isSet F.MAC_STATUS.LINK mac.val = true ∧
    s.quadTakes mac.val = true ∧ s.ringReady .macTx mac.val = true ∧
    s.ringRead .macTx mac.val (epLaneQuad mac.val) 16 = (some d, u) ∧
    u.readBytes ⟨epLaneQuad mac.val, bitsOf (wordOf d 1) 16 8, 0, false⟩ (wordOf d 0 + wordOf d 1 % 65536 * 2 ^ 32) (wordOf d 2 % 2 ^ 14) = (c, poison, o, bs, w) ∧
    c ≠ codeWaits ∧ (c ≠ 0 ∨ poison = true)) :=
    ⟨2, 5, 0, 0, (stored macSending (baseScratch + 4) [0,0x90]),
      ((stored macSending (baseScratch + 4) [0,0x90]).ringRead .macTx (2 : Fin 72).val (epLaneQuad (2 : Fin 72).val) 16).2,
      (((stored macSending (baseScratch + 4) [0,0x90]).ringRead .macTx (2 : Fin 72).val (epLaneQuad (2 : Fin 72).val) 16).2.readBytes ⟨epLaneQuad (2 : Fin 72).val,
      bitsOf (wordOf (((stored macSending (baseScratch + 4) [0,0x90]).ringRead .macTx (2 : Fin 72).val (epLaneQuad (2 : Fin 72).val) 16).1.getD []) 1) 16 8,
      0,
      false⟩ (wordOf (((stored macSending (baseScratch + 4) [0,0x90]).ringRead .macTx (2 : Fin 72).val (epLaneQuad (2 : Fin 72).val) 16).1.getD []) 0 + wordOf (((stored macSending (baseScratch + 4) [0,0x90]).ringRead .macTx (2 : Fin 72).val (epLaneQuad (2 : Fin 72).val) 16).1.getD []) 1 % 65536 * 2 ^ 32) (wordOf (((stored macSending (baseScratch + 4) [0,0x90]).ringRead .macTx (2 : Fin 72).val (epLaneQuad (2 : Fin 72).val) 16).1.getD []) 2 % 2 ^ 14)).2.2.2.2,
      (((stored macSending (baseScratch + 4) [0,0x90]).ringRead .macTx (2 : Fin 72).val (epLaneQuad (2 : Fin 72).val) 16).1.getD []),
      (((stored macSending (baseScratch + 4) [0,0x90]).ringRead .macTx (2 : Fin 72).val (epLaneQuad (2 : Fin 72).val) 16).2.readBytes ⟨epLaneQuad (2 : Fin 72).val,
      bitsOf (wordOf (((stored macSending (baseScratch + 4) [0,0x90]).ringRead .macTx (2 : Fin 72).val (epLaneQuad (2 : Fin 72).val) 16).1.getD []) 1) 16 8,
      0,
      false⟩ (wordOf (((stored macSending (baseScratch + 4) [0,0x90]).ringRead .macTx (2 : Fin 72).val (epLaneQuad (2 : Fin 72).val) 16).1.getD []) 0 + wordOf (((stored macSending (baseScratch + 4) [0,0x90]).ringRead .macTx (2 : Fin 72).val (epLaneQuad (2 : Fin 72).val) 16).1.getD []) 1 % 65536 * 2 ^ 32) (wordOf (((stored macSending (baseScratch + 4) [0,0x90]).ringRead .macTx (2 : Fin 72).val (epLaneQuad (2 : Fin 72).val) 16).1.getD []) 2 % 2 ^ 14)).2.2.2.1,
      1,
      (((stored macSending (baseScratch + 4) [0,0x90]).ringRead .macTx (2 : Fin 72).val (epLaneQuad (2 : Fin 72).val) 16).2.readBytes ⟨epLaneQuad (2 : Fin 72).val,
      bitsOf (wordOf (((stored macSending (baseScratch + 4) [0,0x90]).ringRead .macTx (2 : Fin 72).val (epLaneQuad (2 : Fin 72).val) 16).1.getD []) 1) 16 8,
      0,
      false⟩ (wordOf (((stored macSending (baseScratch + 4) [0,0x90]).ringRead .macTx (2 : Fin 72).val (epLaneQuad (2 : Fin 72).val) 16).1.getD []) 0 + wordOf (((stored macSending (baseScratch + 4) [0,0x90]).ringRead .macTx (2 : Fin 72).val (epLaneQuad (2 : Fin 72).val) 16).1.getD []) 1 % 65536 * 2 ^ 32) (wordOf (((stored macSending (baseScratch + 4) [0,0x90]).ringRead .macTx (2 : Fin 72).val (epLaneQuad (2 : Fin 72).val) 16).1.getD []) 2 % 2 ^ 14)).2.2.1,
      false,
      by
    first | decide +kernel | ((repeat' first | apply And.intro | apply Prod.ext) <;> first | decide +kernel | with_reducible rfl | rfl)⟩

/-- Clauses 1, 2, 4, 5.1, 5.2, 5.3, 7, 8 of Obligations.FronthaulEngine: states that meet the hypotheses. -/
theorem witness_FronthaulEngine_1 :
  (∃ (f : Fin 16), ∃ (x : FhFrame), ∃ (sub : BitVec 6), ∃ (ca : Fin 8), ∃ (s : State),
    s.isSet F.FH_CTRL.EN f.val = false) ∧
  (∃ (f : Fin 16), ∃ (x : FhFrame), ∃ (sub : BitVec 6), ∃ (ca : Fin 8), ∃ (s : State),
    TakesFronthaul s f.val x ∧ x.roe = false ∧ x.msgType = 5) ∧
  (∃ (f : Fin 16), ∃ (x : FhFrame), ∃ (sub : BitVec 6), ∃ (ca : Fin 8), ∃ (s : State),
    TakesFronthaul s f.val x ∧ (x.msgType = 0 ∨ x.msgType = 2) ∧ s.links.rus = [] ∧ s.links.flows = [] ∧
    s.isSet F.FH_CTRL.DISCOVER f.val = true) ∧
  (∃ (e : Nat), ∃ (w : Nat), ∃ (x : FhFrame), ∃ (sub : Nat), ∃ (ca : Nat), ∃ (s : State), ∃ (arr : Int), ∃ (st : Int),
    (x.msgType ≠ 0 ∨ compSupported x.method.toNat x.width.toNat = true) ∧
    arr = (s.rxStamp (s.fhQuad e) sub ca : Int) * 960 ∧
    st = s.fhSymbol e x.frameId.toNat x.subframeId.toNat x.slotId.toNat x.symbolId.toNat arr ∧
    arr < st + s.nsUnits R.FH_RX_WIN_MIN e) ∧
  (∃ (e : Nat), ∃ (w : Nat), ∃ (x : FhFrame), ∃ (sub : Nat), ∃ (ca : Nat), ∃ (s : State), ∃ (arr : Int), ∃ (st : Int),
    (x.msgType ≠ 0 ∨ compSupported x.method.toNat x.width.toNat = true) ∧
    arr = (s.rxStamp (s.fhQuad e) sub ca : Int) * 960 ∧
    st = s.fhSymbol e x.frameId.toNat x.subframeId.toNat x.slotId.toNat x.symbolId.toNat arr ∧
    st + s.nsUnits R.FH_RX_WIN_MIN e ≤ arr ∧ st + s.nsUnits R.FH_RX_WIN_MAX e < arr) ∧
  (∃ (e : Nat), ∃ (w : Nat), ∃ (x : FhFrame), ∃ (sub : Nat), ∃ (ca : Nat), ∃ (s : State), ∃ (arr : Int), ∃ (st : Int),
    (x.msgType ≠ 0 ∨ compSupported x.method.toNat x.width.toNat = true) ∧
    arr = (s.rxStamp (s.fhQuad e) sub ca : Int) * 960 ∧
    st = s.fhSymbol e x.frameId.toNat x.subframeId.toNat x.slotId.toNat x.symbolId.toNat arr ∧
    st + s.nsUnits R.FH_RX_WIN_MIN e ≤ arr ∧ arr ≤ st + s.nsUnits R.FH_RX_WIN_MAX e ∧ x.msgType = 0 ∧
    s.isSet F.TOD_STATUS.VALID 0 = true) ∧
  (∃ (acc : Accessor), ∃ (s : State), ∃ (f : Nat),
    Writes s acc 0 R.FH_CTRL 0 f) ∧
  (∃ (i : Fin 4096), ∃ (s : State),
    (s.flow i.val).used = true ∧ s.aged (s.flow i.val).owner (s.flow i.val).last = true) :=
  ⟨
    ⟨3, ⟨false,0,0,0,0,0,0,0,0,0,0,0,0,0,[]⟩, 0, 0, r0, by decide +kernel⟩,
    ⟨3, ⟨false,5,0,0,0,0,0,0,0,0,0,0,0,0,[]⟩, 9, 0,
      ((r0.setReg R.LANE_CTRL 8 0x309).setReg R.MAC_STATUS 2 1).setReg R.FH_CTRL 3 1, by decide +kernel⟩,
    ⟨3, ⟨false,0,7,8,9,0,0,0,0,0,0,0,0,0,[]⟩, 9, 0,
      ((r0.setReg R.LANE_CTRL 8 0x309).setReg R.MAC_STATUS 2 1).setReg R.FH_CTRL 3 5, by decide +kernel⟩,
    ⟨3, 0, ⟨false,0,7,8,9,0,0,0,0,0,0,0,0,0,[]⟩, 9, 0, (r0.setReg R.FH_CTRL 3 5).setReg R.FH_RX_WIN_MIN 3 1000,
      8640, 0, by decide +kernel⟩,
    ⟨3, 0, ⟨false,0,7,8,9,0,0,0,0,0,0,0,0,0,[]⟩, 9, 0, (r0.setReg R.FH_CTRL 3 5), 8640, 0, by decide +kernel⟩,
    ⟨3, 0, ⟨false,0,7,8,9,0,0,0,0,2,1,9,0,0,[⟨3,[(5,6)]⟩]⟩, 9, 0,
      ((r0.setReg R.FH_CTRL 3 5).setReg R.FH_RX_WIN_MAX 3 1000).setReg R.TOD_STATUS 0 1 |>.setReg R.FH_FLOW_DEST_HI 0 0x80000100,
      8640, 0, by decide +kernel⟩,
    ⟨.host1,
      { (r0.setReg R.FH_SEL 1 3) with links := { r0.links with rus := [(4, {used := true, owner := 3}),(5,{used:=true,owner:=2})], flows := [(4095, {used := true, owner := 3}),(7,{used:=true,owner:=2})] } },
      3, by decide +kernel⟩,
    ⟨7,
      at64 { (r0.setReg R.FH_CTRL 3 0x10001).setReg R.FH_FLOW_DEST_HI 7 0x80000000 with links := { r0.links with flows := [(7, {used := true, owner := 3})] } } 1000000000,
      by decide +kernel⟩⟩

/-- Clause 6.1 of Obligations.FronthaulEngine: states that meet the hypotheses. -/
theorem witness_FronthaulEngine_2 :
  (∃ (f : Fin 16), ∃ (s : State), ∃ (u : State), ∃ (d : List Byte), ∃ (st : Int), ∃ (dep : Int),
    s.isSet F.FH_CTRL.EN f.val = true ∧ s.fhServed f.val = true ∧ s.ringReady .fhTx f.val = true ∧
    s.ringRead .fhTx f.val (epLaneQuad (s.fhQuad f.val)) 32 = (some d, u) ∧
    st = s.fhSymbol f.val (bitsOf (wordOf d 2) 16 8) (bitsOf (wordOf d 2) 24 4) (wordOf d 3 % 64) (bitsOf (wordOf d 3) 8 6) ((s.use32 : Int) * 960) ∧
    (dep = st - s.nsUnits (if bitAt (wordOf d 1) 24 then R.FH_TX_ADV_C else R.FH_TX_ADV_U) f.val) ∧
    (s.use32 : Int) * 960 < dep) :=
    ⟨3, (inTime fhSending (fun t => { t with ns64 := 9999999 })),
      ((inTime fhSending (fun t => { t with ns64 := 9999999 })).ringRead .fhTx (3 : Fin 16).val (epLaneQuad ((inTime fhSending (fun t => { t with ns64 := 9999999 })).fhQuad (3 : Fin 16).val)) 32).2,
      ((inTime fhSending (fun t => { t with ns64 := 9999999 })).ringRead .fhTx (3 : Fin 16).val (epLaneQuad ((inTime fhSending (fun t => { t with ns64 := 9999999 })).fhQuad (3 : Fin 16).val)) 32).1.getD [],
      10000000*30720, (10000000-0)*30720,
      by
    first | decide +kernel | ((repeat' first | apply And.intro | apply Prod.ext) <;> first | decide +kernel | with_reducible rfl | rfl)⟩

/-- Clause 6.2 of Obligations.FronthaulEngine: states that meet the hypotheses. -/
theorem witness_FronthaulEngine_3 :
  (∃ (f : Fin 16), ∃ (s : State), ∃ (u : State), ∃ (d : List Byte), ∃ (st : Int), ∃ (dep : Int),
    s.isSet F.FH_CTRL.EN f.val = true ∧ s.fhServed f.val = true ∧ s.ringReady .fhTx f.val = true ∧
    s.ringRead .fhTx f.val (epLaneQuad (s.fhQuad f.val)) 32 = (some d, u) ∧
    st = s.fhSymbol f.val (bitsOf (wordOf d 2) 16 8) (bitsOf (wordOf d 2) 24 4) (wordOf d 3 % 64) (bitsOf (wordOf d 3) 8 6) ((s.use32 : Int) * 960) ∧
    (dep = st - s.nsUnits (if bitAt (wordOf d 1) 24 then R.FH_TX_ADV_C else R.FH_TX_ADV_U) f.val) ∧
    dep ≤ (s.use32 : Int) * 960 ∧ st ≤ (s.use32 : Int) * 960) :=
    ⟨3, (inTime fhSending (fun t => { t with ns64 := 10000000 })),
      ((inTime fhSending (fun t => { t with ns64 := 10000000 })).ringRead .fhTx (3 : Fin 16).val (epLaneQuad ((inTime fhSending (fun t => { t with ns64 := 10000000 })).fhQuad (3 : Fin 16).val)) 32).2,
      ((inTime fhSending (fun t => { t with ns64 := 10000000 })).ringRead .fhTx (3 : Fin 16).val (epLaneQuad ((inTime fhSending (fun t => { t with ns64 := 10000000 })).fhQuad (3 : Fin 16).val)) 32).1.getD [],
      10000000*30720, (10000000-0)*30720,
      by
    first | decide +kernel | ((repeat' first | apply And.intro | apply Prod.ext) <;> first | decide +kernel | with_reducible rfl | rfl)⟩

/-- Clause 6.3 of Obligations.FronthaulEngine: states that meet the hypotheses. -/
theorem witness_FronthaulEngine_4 :
  (∃ (f : Fin 16), ∃ (s : State), ∃ (u : State), ∃ (d : List Byte), ∃ (st : Int), ∃ (dep : Int),
    s.isSet F.FH_CTRL.EN f.val = true ∧ s.fhServed f.val = true ∧ s.ringReady .fhTx f.val = true ∧
    s.ringRead .fhTx f.val (epLaneQuad (s.fhQuad f.val)) 32 = (some d, u) ∧
    st = s.fhSymbol f.val (bitsOf (wordOf d 2) 16 8) (bitsOf (wordOf d 2) 24 4) (wordOf d 3 % 64) (bitsOf (wordOf d 3) 8 6) ((s.use32 : Int) * 960) ∧
    (dep = st - s.nsUnits (if bitAt (wordOf d 1) 24 then R.FH_TX_ADV_C else R.FH_TX_ADV_U) f.val) ∧
    dep ≤ (s.use32 : Int) * 960 ∧ (s.use32 : Int) * 960 < st ∧ s.isSet F.MAC_STATUS.LINK (s.fhQuad f.val) = true) :=
    ⟨3,
      (inTime (fhSending.setReg R.FH_TX_ADV_U 3 1000 |>.setReg R.MAC_STATUS 0 1) (fun t => { t with ns64 := 9999999 })),
      ((inTime (fhSending.setReg R.FH_TX_ADV_U 3 1000 |>.setReg R.MAC_STATUS 0 1) (fun t => { t with ns64 := 9999999 })).ringRead .fhTx (3 : Fin 16).val (epLaneQuad ((inTime (fhSending.setReg R.FH_TX_ADV_U 3 1000 |>.setReg R.MAC_STATUS 0 1) (fun t => { t with ns64 := 9999999 })).fhQuad (3 : Fin 16).val)) 32).2,
      ((inTime (fhSending.setReg R.FH_TX_ADV_U 3 1000 |>.setReg R.MAC_STATUS 0 1) (fun t => { t with ns64 := 9999999 })).ringRead .fhTx (3 : Fin 16).val (epLaneQuad ((inTime (fhSending.setReg R.FH_TX_ADV_U 3 1000 |>.setReg R.MAC_STATUS 0 1) (fun t => { t with ns64 := 9999999 })).fhQuad (3 : Fin 16).val)) 32).1.getD [],
      10000000*30720, (10000000-1000)*30720,
      by
    first | decide +kernel | ((repeat' first | apply And.intro | apply Prod.ext) <;> first | decide +kernel | with_reducible rfl | rfl)⟩

/-- Clauses 1, 2, 3, 4, 5, 6, 7 of Obligations.CpriAndPcie: states that meet the hypotheses. -/
theorem witness_CpriAndPcie_1 :
  (∃ (f : Fin 8), ∃ (n : BitVec 3), ∃ (rtt : Word), ∃ (s : State), ∃ (o : CpriOption),
    s.clk.engUp = true ∧ s.isSet F.CPRI_CFG.EN f.val = true ∧
    cpriOption (s.get F.CPRI_CFG.OPTION f.val) = some o ∧ s.laneState (s.cpriLane f.val) = 3 ∧
    s.get F.LANE_CTRL.BIND (s.cpriLane f.val) = 3 ∧ s.get F.LANE_CTRL.ENGINE (s.cpriLane f.val) = f.val ∧
    s.get F.LANE_RATE.KBPS (s.cpriLane f.val) = o.lane ∧ s.isSet F.LANE_CTRL.PAM4 (s.cpriLane f.val) = false ∧
    n.toNat ≠ 7) ∧
  (∃ (f : Fin 8), ∃ (n : BitVec 3), ∃ (rtt : Word), ∃ (s : State), ∃ (o : CpriOption),
    s.clk.engUp = true ∧ s.isSet F.CPRI_CFG.EN f.val = true ∧
    cpriOption (s.get F.CPRI_CFG.OPTION f.val) = some o ∧ s.laneState (s.cpriLane f.val) = 3 ∧
    s.get F.LANE_CTRL.BIND (s.cpriLane f.val) = 3 ∧ s.get F.LANE_CTRL.ENGINE (s.cpriLane f.val) = f.val ∧
    s.get F.LANE_RATE.KBPS (s.cpriLane f.val) = o.lane ∧ s.isSet F.LANE_CTRL.PAM4 (s.cpriLane f.val) = false ∧
    n.toNat ≠ 7) ∧
  (∃ (f : Fin 8), ∃ (bits : List Byte), ∃ (s : State),
    s.get F.CPRI_STATUS.STATE f.val ≠ 5) ∧
  (∃ (f : Fin 8), ∃ (bits : List Byte), ∃ (s : State),
    s.get F.CPRI_STATUS.STATE f.val = 5 ∧ (∀ k, k < 32 → s.isSet F.CPRI_AXC_CFG.EN (f.val * 32 + k) = false)) ∧
  (∃ (f : Nat), ∃ (k : Nat), ∃ (n : Nat), ∃ (w : Nat), ∃ (st : Nat), ∃ (bits : List Byte), ∃ (rr : RegReader), ∃ (s : State),
    s.isSet F.CPRI_AXC_CFG.EN (f * 32 + k) = true ∧ s.isSet F.CPRI_AXC_CFG.DIR (f * 32 + k) = false ∧
    s.get F.CPRI_AXC_CFG.WIDTH (f * 32 + k) = w ∧ 8 ≤ w ∧ w ≤ 16 ∧ s.get F.CPRI_AXC_CFG.START (f * 32 + k) = st) ∧
  (∃ (f : Fin 8), ∃ (s : State),
    s.get F.CPRI_STATUS.STATE f.val ≠ 0) ∧
  (∃ (c : Fin 2), ∃ (w : BitVec 3), ∃ (g : BitVec 3), ∃ (s : State),
    MayTrain s c.val w.toNat g.toNat ∧ s.power.dev = none ∧
    (∀ k, k < 2 ^ w.toNat → s.laneOn (128 * c.val + k) = true) ∧
    s.quadFits ((List.range (2 ^ w.toNat)).map (128 * c.val + ·)) (pcieKbps g.toNat) false = true) ∧
  (∃ (fn : Fin 2), ∃ (w : BitVec 3), ∃ (g : BitVec 3), ∃ (q : PcieReq), ∃ (s : State),
    s.dark = true) :=
  ⟨
    ⟨3, 5, 99,
      inEngines <| ((r0.setReg R.CPRI_CFG 3 0x1407).setReg R.LANE_STATUS 20 3).setReg R.LANE_CTRL 20 0x30D |>.setReg R.LANE_RATE 20 2457600,
      ⟨2457600, 2457600, false⟩, by decide +kernel⟩,
    ⟨3, 2, 99,
      inEngines <| ((r0.setReg R.CPRI_CFG 3 0x1407).setReg R.LANE_STATUS 20 3).setReg R.LANE_CTRL 20 0x30D |>.setReg R.LANE_RATE 20 2457600,
      ⟨2457600, 2457600, false⟩, by decide +kernel⟩,
    ⟨3, [], r0, by decide +kernel⟩,
    ⟨3, [1], { (r0.setReg R.CPRI_STATUS 3 5) with links := { r0.links with cpriFrame := [(3,38399)] } },
      by decide +kernel⟩,
    ⟨3, 31, 4000, 15, 10, [1,2,3,4,5,6,7], regWord,
      (r0.setReg R.CPRI_AXC_CFG (3*32+31) 0x00100A3D).setReg R.CPRI_AXC_ADDR_HI (3*32+31) 0x100,
      by decide +kernel⟩,
    ⟨3, r0.setReg R.CPRI_STATUS 3 0x305, by decide +kernel⟩,
    ⟨1, 0, 5, inEngines <| inBoot (r0.setReg R.LANE_CTRL 128 0x15) .started none, by decide +kernel⟩,
    ⟨1, 0, 5, ⟨false,false,false,0,4,[]⟩, dark r0, by decide +kernel⟩⟩

/-- Clauses 8, 9, 11, 6 of Obligations.CpriAndPcie: states that meet the hypotheses. -/
theorem witness_CpriAndPcie_2 :
  (∃ (c : Fin 2), ∃ (fn : Fin 2), ∃ (q : PcieReq), ∃ (s : State),
    s.isSet F.PCIE_STATUS.LINK_UP c.val = true ∧ s.power.dev = none ∧ s.inboundAddr c.val fn.val q = none ∧
    q.write = false) ∧
  (∃ (fn : Fin 2), ∃ (q : PcieReq), ∃ (s : State),
    s.isSet F.PCIE_STATUS.LINK_UP 0 = true ∧ s.isSet F.PCIE_CFG.MODE 0 = false ∧ q.bar2 = false ∧
    q.write = false ∧ q.off.toNat < 2 ^ 26 ∧ q.off.toNat % 4 = 0 ∧ q.len = 4 ∧ s.power.dev = none) ∧
  (∃ (c : Fin 2), ∃ (s : State),
    s.isSet F.PCIE_STATUS.LINK_UP c.val = true ∧
    (∀ ch, ch < 4 → s.ringProd .pcieDma (4 * c.val + ch) = s.ringCons .pcieDma (4 * c.val + ch))) ∧
  (∃ (c : Fin 2), ∃ (w : BitVec 3), ∃ (g : BitVec 3), ∃ (s : State),
    MayTrain s c.val w.toNat g.toNat ∧ s.power.dev = none ∧
    (∀ k, k < 2 ^ w.toNat → s.laneOn (128 * c.val + k) = true) ∧
    s.quadFits ((List.range (2 ^ w.toNat)).map (128 * c.val + ·)) (pcieKbps g.toNat) false = true) :=
  ⟨
    ⟨1, 1, ⟨false,false,false,0,4,[]⟩, r0.setReg R.PCIE_STATUS 1 1, by decide +kernel⟩,
    ⟨1, ⟨false,false,false,8,4,[]⟩, r0.setReg R.PCIE_STATUS 0 1, by decide +kernel⟩,
    ⟨1,
      { r0.setReg R.PCIE_STATUS 1 0x5B with links := { r0.links with hostReads := [(5,some ⟨0,0,4⟩),(1029,some ⟨0,0,4⟩)] } },
      by decide +kernel⟩,
    ⟨0, 4, 5, inEngines <| inBoot { r0 with cfg := { r0.cfg with mode := 2 } } .loading none, by decide +kernel⟩⟩

/-- Clause 10 of Obligations.CpriAndPcie: states that meet the hypotheses. -/
theorem witness_CpriAndPcie_3 :
  (∃ (c : Fin 2), ∃ (ch : Fin 4), ∃ (cpl : Option (List Byte)), ∃ (s : State), ∃ (u : State), ∃ (w : State), ∃ (d : List Byte), ∃ (bs : List Byte), ∃ (o : Nat), ∃ (poison : Bool),
    s.isSet F.PCIE_STATUS.LINK_UP c.val = true ∧ s.ringReady .pcieDma (4 * c.val + ch.val) = true ∧
    s.ringRead .pcieDma (4 * c.val + ch.val) (epPcie c.val) 32 = (some d, u) ∧ wordOf d 5 % 4 = 0 ∧
    u.readBytes ⟨epPcie c.val, bitsOf (wordOf d 1) 16 8, 0, false⟩ (wordOf d 0 + wordOf d 1 % 65536 * 2 ^ 32) (wordOf d 4 % 2 ^ 25) = (0, poison, o, bs, w)) :=
    ⟨1, 2, none, (stored dmaSending (baseScratch + 16) [0]),
      ((stored dmaSending (baseScratch + 16) [0]).ringRead .pcieDma (4 * (1 : Fin 2).val + (2 : Fin 4).val) (epPcie (1 : Fin 2).val) 32).2,
      (((stored dmaSending (baseScratch + 16) [0]).ringRead .pcieDma (4 * (1 : Fin 2).val + (2 : Fin 4).val) (epPcie (1 : Fin 2).val) 32).2.readBytes ⟨epPcie (1 : Fin 2).val,
      bitsOf (wordOf (((stored dmaSending (baseScratch + 16) [0]).ringRead .pcieDma (4 * (1 : Fin 2).val + (2 : Fin 4).val) (epPcie (1 : Fin 2).val) 32).1.getD []) 1) 16 8,
      0,
      false⟩ (wordOf (((stored dmaSending (baseScratch + 16) [0]).ringRead .pcieDma (4 * (1 : Fin 2).val + (2 : Fin 4).val) (epPcie (1 : Fin 2).val) 32).1.getD []) 0 + wordOf (((stored dmaSending (baseScratch + 16) [0]).ringRead .pcieDma (4 * (1 : Fin 2).val + (2 : Fin 4).val) (epPcie (1 : Fin 2).val) 32).1.getD []) 1 % 65536 * 2 ^ 32) (wordOf (((stored dmaSending (baseScratch + 16) [0]).ringRead .pcieDma (4 * (1 : Fin 2).val + (2 : Fin 4).val) (epPcie (1 : Fin 2).val) 32).1.getD []) 4 % 2 ^ 25)).2.2.2.2,
      (((stored dmaSending (baseScratch + 16) [0]).ringRead .pcieDma (4 * (1 : Fin 2).val + (2 : Fin 4).val) (epPcie (1 : Fin 2).val) 32).1.getD []),
      (((stored dmaSending (baseScratch + 16) [0]).ringRead .pcieDma (4 * (1 : Fin 2).val + (2 : Fin 4).val) (epPcie (1 : Fin 2).val) 32).2.readBytes ⟨epPcie (1 : Fin 2).val,
      bitsOf (wordOf (((stored dmaSending (baseScratch + 16) [0]).ringRead .pcieDma (4 * (1 : Fin 2).val + (2 : Fin 4).val) (epPcie (1 : Fin 2).val) 32).1.getD []) 1) 16 8,
      0,
      false⟩ (wordOf (((stored dmaSending (baseScratch + 16) [0]).ringRead .pcieDma (4 * (1 : Fin 2).val + (2 : Fin 4).val) (epPcie (1 : Fin 2).val) 32).1.getD []) 0 + wordOf (((stored dmaSending (baseScratch + 16) [0]).ringRead .pcieDma (4 * (1 : Fin 2).val + (2 : Fin 4).val) (epPcie (1 : Fin 2).val) 32).1.getD []) 1 % 65536 * 2 ^ 32) (wordOf (((stored dmaSending (baseScratch + 16) [0]).ringRead .pcieDma (4 * (1 : Fin 2).val + (2 : Fin 4).val) (epPcie (1 : Fin 2).val) 32).1.getD []) 4 % 2 ^ 25)).2.2.2.1,
      (((stored dmaSending (baseScratch + 16) [0]).ringRead .pcieDma (4 * (1 : Fin 2).val + (2 : Fin 4).val) (epPcie (1 : Fin 2).val) 32).2.readBytes ⟨epPcie (1 : Fin 2).val,
      bitsOf (wordOf (((stored dmaSending (baseScratch + 16) [0]).ringRead .pcieDma (4 * (1 : Fin 2).val + (2 : Fin 4).val) (epPcie (1 : Fin 2).val) 32).1.getD []) 1) 16 8,
      0,
      false⟩ (wordOf (((stored dmaSending (baseScratch + 16) [0]).ringRead .pcieDma (4 * (1 : Fin 2).val + (2 : Fin 4).val) (epPcie (1 : Fin 2).val) 32).1.getD []) 0 + wordOf (((stored dmaSending (baseScratch + 16) [0]).ringRead .pcieDma (4 * (1 : Fin 2).val + (2 : Fin 4).val) (epPcie (1 : Fin 2).val) 32).1.getD []) 1 % 65536 * 2 ^ 32) (wordOf (((stored dmaSending (baseScratch + 16) [0]).ringRead .pcieDma (4 * (1 : Fin 2).val + (2 : Fin 4).val) (epPcie (1 : Fin 2).val) 32).1.getD []) 4 % 2 ^ 25)).2.2.1,
      false,
      by
    first | decide +kernel | ((repeat' first | apply And.intro | apply Prod.ext) <;> first | decide +kernel | with_reducible rfl | rfl)⟩

/-- Clauses 1.1, 1.2, 2, 3.1, 3.2, 4, 5, 7 of Obligations.ChassisLinks: states that meet the hypotheses. -/
theorem witness_ChassisLinks_1 :
  (∃ (f : Fin 16), ∃ (p : BitVec 4), ∃ (pl : BitVec 3), ∃ (tr : BitVec 4), ∃ (s : State), ∃ (com : Nat),
    s.clk.engUp = true ∧ s.isSet F.CHL_CFG.EN f.val = true ∧ s.chlState f.val = 1 ∧ s.chlLanes f.val ≠ [] ∧
    com = s.chlOffer f.val &&& p.toNat ∧ (com = 0 ∨ linkLanes (s.chlLanes f.val).length pl.toNat = 0)) ∧
  (∃ (f : Fin 16), ∃ (p : BitVec 4), ∃ (pl : BitVec 3), ∃ (tr : BitVec 4), ∃ (s : State), ∃ (com : Nat),
    s.clk.engUp = true ∧ s.isSet F.CHL_CFG.EN f.val = true ∧ s.chlState f.val = 1 ∧ s.chlLanes f.val ≠ [] ∧
    com = s.chlOffer f.val &&& p.toNat ∧ com ≠ 0 ∧ linkLanes (s.chlLanes f.val).length pl.toNat ≠ 0 ∧
    com &&& tr.toNat = com ∧ (s.chl f.val).waiting = none ∧ (s.chl f.val).queued = [] ∧
    s.chlFits f.val (highestVersion com) = true) ∧
  (∃ (f : Fin 16), ∃ (v : BitVec 3), ∃ (s : State),
    s.isSet F.CHL_CFG.EN f.val = true ∧ s.chlState f.val = 1 ∧ 1 ≤ v.toNat ∧ v.toNat ≤ 4 ∧
    bitAt (s.chlOffer f.val &&& s.get F.CHL_PARTNER.BITMAP f.val) (v.toNat - 1) = true) ∧
  (∃ (f : Fin 16), ∃ (s : State), ∃ (v : Nat),
    s.isSet F.CHL_CFG.EN f.val = true ∧ s.isSet F.CHL_STATUS.FAILED f.val = true ∧ s.chlState f.val = 1 ∧
    v = lowestVersion (s.get F.CHL_CFG.VERSION_MASK f.val &&& (s.chl f.val).offered.toNat) ∧ v ≠ 0 ∧
    (s.chl f.val).waiting = none ∧ s.chlFits f.val v = true ∧ (s.chl f.val).lastRetry = 0) ∧
  (∃ (f : Fin 16), ∃ (s : State), ∃ (v : Nat), ∃ (tr : Bool),
    s.isSet F.CHL_CFG.EN f.val = true ∧ s.isSet F.CHL_STATUS.FAILED f.val = true ∧ s.chlState f.val = 1 ∧
    v = lowestVersion (s.get F.CHL_CFG.VERSION_MASK f.val &&& (s.chl f.val).offered.toNat) ∧ v ≠ 0 ∧
    (s.chl f.val).waiting = none ∧ s.chlFits f.val v = true ∧ s.now + 1 < (s.chl f.val).lastRetry + 10 ^ 9 ∧
    (s.chl f.val).lastRetry ≠ 0) ∧
  (∃ (f : Fin 16), ∃ (p : BitVec 4), ∃ (s : State),
    2 ≤ s.chlState f.val ∧ s.chlOffer f.val &&& p.toNat ≠ 0 ∧
    (highestVersion (s.chlOffer f.val &&& p.toNat) = s.get F.CHL_STATUS.VERSION f.val ∨ (bitAt (s.chl f.val).stored.toNat (highestVersion (s.chlOffer f.val &&& p.toNat) - 1) = true ∧
    s.chlFits f.val (highestVersion (s.chlOffer f.val &&& p.toNat)) = true)) ∧ (s.chl f.val).waiting = none ∧
    (s.chl f.val).queued = []) ∧
  (∃ (f : Fin 16), ∃ (s : State),
    s.chlState f.val < 2) ∧
  (∃ (f : Fin 16), ∃ (s : State),
    2 ≤ s.chlState f.val ∧ threeDrops ((s.now :: (s.chl f.val).drops).take 3) = false ∧ (s.chl f.val).fwd = [] ∧
    (s.chl f.val).queued = []) :=
  ⟨
    ⟨13, 4, 7, 0xF,
      inEngines <| ((r0.setReg R.CHL_CFG 13 0x13).setReg R.LANE_CTRL 200 0xD11).setReg R.CHL_STATUS 13 1, 0,
      by decide +kernel⟩,
    ⟨13, 3, 7, 0xF,
      inEngines <| (((r0.setReg R.CHL_CFG 13 0x1F).setReg R.LANE_CTRL 200 0xD11).setReg R.CHL_STATUS 13 1), 3,
      by decide +kernel⟩,
    ⟨13, 2, ((r0.setReg R.CHL_CFG 13 0x1F).setReg R.CHL_PARTNER 13 3).setReg R.CHL_STATUS 13 1, by decide +kernel⟩,
    ⟨13,
      { (r0.setReg R.CHL_CFG 13 0x1F).setReg R.CHL_STATUS 13 0x41 with links := { r0.links with chl := [(13, { offered := 6 })] } },
      2, by decide +kernel⟩,
    ⟨13,
      at64 { (r0.setReg R.CHL_CFG 13 0x1F).setReg R.CHL_STATUS 13 0x41 with links := { r0.links with chl := [(13, { lastRetry := 2, offered := 6 })] } } 1000000000,
      2, true, by decide +kernel⟩,
    ⟨13, 3,
      { (r0.setReg R.CHL_CFG 13 0x1F).setReg R.CHL_STATUS 13 0xF with links := { r0.links with chl := [(13, { stored := 2 })] } },
      by decide +kernel⟩,
    ⟨13, r0, by decide +kernel⟩,
    ⟨13,
      { (r0.setReg R.CHL_CFG 13 0x1F).setReg R.CHL_STATUS 13 0xA with links := { r0.links with chl := [(13, { owed := [({}, 3)] })] } },
      by decide +kernel⟩⟩

/-- Clauses 8, 9, 10.1, 10.2, 10.3, 11, 6 of Obligations.ChassisLinks: states that meet the hypotheses. -/
theorem witness_ChassisLinks_2 :
  (∃ (f : Nat), ∃ (p : Packet), ∃ (s : State),
    (s.chl f).fwd = [p] ∧ (s.chl f).queued = []) ∧
  (∃ (acc : Accessor), ∃ (v : Word), ∃ (s : State), ∃ (f : Nat),
    Writes s acc 0 R.CHL_CFG 0 f ∧ v.toNat / 16 % 2 = 1 ∧ s.chlState f = 0) ∧
  (∃ (acc : Accessor), ∃ (v : Word), ∃ (s : State), ∃ (w : Nat),
    Writes s acc 0 R.CHL_WIN_XLAT 0 w ∧ s.windowOn w = true) ∧
  (∃ (acc : Accessor), ∃ (v : Word), ∃ (s : State), ∃ (w : Nat),
    Writes s acc 0 R.CHL_WIN_XLAT 0 w ∧ s.windowOn w = false ∧ v.toNat % 128 ≤ 1) ∧
  (∃ (acc : Accessor), ∃ (v : Word), ∃ (s : State), ∃ (w : Nat),
    Writes s acc 0 R.CHL_WIN_XLAT 0 w ∧ s.windowOn w = false ∧ 1 < v.toNat % 128) ∧
  (∃ (f : Fin 16), ∃ (p : Packet), ∃ (s : State),
    2 ≤ s.chlState f.val ∧ p.debug = false ∧ expectsResponse p.cmd.toNat = true ∧
    s.chlReceived f.val p.vc.toNat + pktUnits p ≤ 1024 ∧ (s.chl f.val).owed.length < 256 ∧
    (∀ l ∈ s.chlLanes f.val, s.quadTakes (l / 4) = true)) ∧
  (∃ (f : Fin 16), ∃ (s : State),
    2 ≤ s.chlState f.val ∧ threeDrops ((s.now :: (s.chl f.val).drops).take 3) = true ∧ 1 ≤ (s.chl f.val).lastVer ∧
    (s.chl f.val).lastVer ≤ 4 ∧ (s.chl f.val).fwd = [] ∧ (s.chl f.val).queued = []) :=
  ⟨
    ⟨13, { cmd := 2, src := 5, tag := 7 },
      { r0 with links := { r0.links with chl := [(13, { fwd := [{ cmd := 2, src := 5, tag := 7 }] })] } },
      by decide +kernel⟩,
    ⟨.host0, 0x17, r0.setReg R.CHL_SEL 0 13, 13, by decide +kernel⟩,
    ⟨.host0, 1, (r0.setReg R.CHL_WIN_SEL 0 5).setReg R.CHL_WIN_CTRL 5 1, 5, by decide +kernel⟩,
    ⟨.host0, 1, (r0.setReg R.CHL_WIN_SEL 0 5), 5, by decide +kernel⟩,
    ⟨.host0, 2, (r0.setReg R.CHL_WIN_SEL 0 5), 5, by decide +kernel⟩,
    ⟨13, { cmd := 0, src := 5, tag := 7 }, r0.setReg R.CHL_STATUS 13 2, by decide +kernel⟩,
    ⟨13,
      at64 { (r0.setReg R.CHL_CFG 13 0x1F).setReg R.CHL_STATUS 13 0xA with links := { r0.links with chl := [(13, { lastVer := 2, drops := [5, 3] })] } } 10000000003,
      by decide +kernel⟩⟩

/-- Clauses 3, 6, 7, 8, 1, 2, 5 of Obligations.LaneCommands: states that meet the hypotheses. -/
theorem witness_LaneCommands_1 :
  (∃ (b : Fin 8), ∃ (m : Msg), ∃ (s : State), ∃ (k : Taken),
    Taking s b opLaneStatus m k) ∧
  (∃ (b : Fin 8), ∃ (m : Msg), ∃ (s : State), ∃ (k : Taken),
    Taking s b opChlNegotiate m k ∧ (s.chl (fld m 0 8)).waiting = none ∧ s.chlLanes (fld m 0 8) = []) ∧
  (∃ (b : Fin 8), ∃ (m : Msg), ∃ (s : State), ∃ (k : Taken),
    Taking s b opChlNegotiate m k ∧ (s.chl (fld m 0 8)).waiting = none ∧ s.chlLanes (fld m 0 8) ≠ [] ∧
    s.chlState (fld m 0 8) = 0) ∧
  (∃ (b : Fin 8), ∃ (m : Msg), ∃ (s : State), ∃ (k : Taken),
    Taking s b opChlNegotiate m k ∧ (s.chl (fld m 0 8)).waiting = some k ∧
    (s.chl (fld m 0 8)).waitStart + 1500000000 ≤ s.now) ∧
  (∃ (b : Fin 8), ∃ (m : Msg), ∃ (s : State), ∃ (k : Taken), ∃ (n : Fin 65536), ∃ (dn : Bool),
    Taking s b opLaneConfig m k ∧ fld m 2 16 = 1 ∧
    (s.pcieLane (fld m 0 16) = true ∨ s.domUp (domLaneQuad (fld m 0 16 / 4)) = false)) ∧
  (∃ (b : Fin 8), ∃ (m : Msg), ∃ (s : State), ∃ (k : Taken), ∃ (n : Fin 65536),
    Taking s b opLaneConfig m k ∧ fld m 2 16 = 1 ∧ fld m 9 8 = 1 ∧ s.pcieLane (fld m 0 16) = false ∧
    s.domUp (domLaneQuad (fld m 0 16 / 4)) = true ∧ s.laneState (fld m 0 16) < 2 ∧ fld m 0 16 % 4 = 0) ∧
  (∃ (b : Fin 8), ∃ (m : Msg), ∃ (s : State), ∃ (k : Taken), ∃ (n : Fin 65536),
    Taking s b opLaneConfig m k ∧ fld m 2 16 = 1 ∧ fld m 9 8 = 1 ∧ s.pcieLane (fld m 0 16) = false ∧
    s.domUp (domLaneQuad (fld m 0 16 / 4)) = true ∧ s.laneState (fld m 0 16) < 2 ∧ fld m 0 16 % 4 = 0) ∧
  (∃ (b : Fin 8), ∃ (m : Msg), ∃ (s : State), ∃ (k : Taken),
    Taking s b opFhTable m k) :=
  ⟨
    ⟨1, msg 3 0xFF, taking r0 1 opLaneStatus (msg 3 0xFF), cmdOf 1 opLaneStatus (msg 3 0xFF), by decide +kernel⟩,
    ⟨1, msg 3 0x0F0D, taking r0 1 opChlNegotiate (msg 3 0x0F0D), cmdOf 1 opChlNegotiate (msg 3 0x0F0D),
      by decide +kernel⟩,
    ⟨1, msg 3 0x070D, taking (r0.setReg R.LANE_CTRL 200 0xD11) 1 opChlNegotiate (msg 3 0x070D),
      cmdOf 1 opChlNegotiate (msg 3 0x070D), by decide +kernel⟩,
    ⟨1, msg 3 0x070D,
      at64 (taking { r0 with links := { r0.links with chl := [(13, { waiting := some (cmdOf 1 opChlNegotiate (msg 3 0x070D)), waitStart := 5 })] } } 1 opChlNegotiate (msg 3 0x070D)) 1500000005,
      cmdOf 1 opChlNegotiate (msg 3 0x070D), by decide +kernel⟩,
    ⟨1, msg 3 (2^16 + 2^72), taking r0 1 opLaneConfig (msg 3 (2^16 + 2^72)),
      cmdOf 1 opLaneConfig (msg 3 (2^16 + 2^72)), 7, true, by decide +kernel⟩,
    ⟨1, msg 3 (20 + 2^16 + 25781250*2^32 + 2^72),
      taking r0 1 opLaneConfig (msg 3 (20 + 2^16 + 25781250*2^32 + 2^72)),
      cmdOf 1 opLaneConfig (msg 3 (20 + 2^16 + 25781250*2^32 + 2^72)), 7, by decide +kernel⟩,
    ⟨1, msg 3 (20 + 2^16 + 106250000*2^32 + 2^64 + 2^72),
      taking r0 1 opLaneConfig (msg 3 (20 + 2^16 + 106250000*2^32 + 2^64 + 2^72)),
      cmdOf 1 opLaneConfig (msg 3 (20 + 2^16 + 106250000*2^32 + 2^64 + 2^72)), 7, by decide +kernel⟩,
    ⟨1, msg 3 3, taking r0 1 opFhTable (msg 3 3), cmdOf 1 opFhTable (msg 3 3), by decide +kernel⟩⟩

/-- Clause 4 of Obligations.LaneCommands: states that meet the hypotheses. -/
theorem witness_LaneCommands_2 :
  (∃ (b : Fin 8), ∃ (m : Msg), ∃ (s : State), ∃ (k : Taken), ∃ (ps : List Word), ∃ (u : State),
    Taking s b opEyeScan m k ∧ ps.length < 65535 ∧
    s.bufWrite (fld m 8 64) (leBytes 4 (s.reg R.LANE_EYE (fld m 0 16)) ++ ps.flatMap (fun p => leBytes 4 p.toNat)) = (none, u)) :=
    ⟨1, msg 3 0x0000010000000040_0000000000000003,
      taking r0 1 opEyeScan (msg 3 0x0000010000000040_0000000000000003),
      cmdOf 1 opEyeScan (msg 3 0x0000010000000040_0000000000000003), [1,2],
      ((taking r0 1 opEyeScan (msg 3 0x0000010000000040_0000000000000003)).bufWrite 0x10000000040 [0,0,0,0,1,0,0,0,2,0,0,0]).2,
      by
    first | decide +kernel | ((repeat' first | apply And.intro | apply Prod.ext) <;> first | decide +kernel | with_reducible rfl | rfl)⟩

/-- Clauses 1, 2, 3, 4.1, 4.2, 5 of Obligations.InjectionAndRegulators: states that meet the hypotheses. -/
theorem witness_InjectionAndRegulators_1 :
  (∃ (p : Packet), ∃ (s : State),
    s.darkFor p = true) ∧
  (∃ (p : Packet), ∃ (s : State),
    s.power.dev = none ∧ (pktOk p = false ∨ s.tagUsed p = true) ∧ expectsResponse p.cmd.toNat = true) ∧
  (∃ (p : Packet), ∃ (s : State),
    s.power.dev = none ∧ (pktOk p = false ∨ s.tagUsed p = true) ∧ expectsResponse p.cmd.toNat = true) ∧
  (∃ (p : Packet), ∃ (s : State), ∃ (c : Nat),
    s.power.dev = none ∧ pktOk p = true ∧ s.tagUsed p = false ∧ expectsResponse p.cmd.toNat = true ∧
    refusedWith (s.decodeRequest p (s.forcedSecure p)) = some c) ∧
  (∃ (p : Packet), ∃ (q : Packet), ∃ (s : State), ∃ (d : Nat),
    s.power.dev = none ∧ pktOk p = true ∧ s.tagUsed p = false ∧
    (s.decodeRequest p (s.forcedSecure p)).toOption = some d ∧ s.net.wait.get [] p.src.toNat = [] ∧
    s.limitAllows p = true ∧
    q = { p with dest := BitVec.ofNat 10 d, secure := s.forcedSecure p, poison := pktPoison p } ∧
    s.tokensAllow p.src.toNat p.vc.toNat (pktUnits p) = true) ∧
  (∃ (p : Packet), ∃ (q : Packet), ∃ (s : State), ∃ (d : Nat),
    s.power.dev = none ∧ pktOk p = true ∧ s.tagUsed p = false ∧
    (s.decodeRequest p (s.forcedSecure p)).toOption = some d ∧ s.net.wait.get [] p.src.toNat = [] ∧
    s.limitAllows p = true ∧
    q = { p with dest := BitVec.ofNat 10 d, secure := s.forcedSecure p, poison := pktPoison p } ∧
    s.tokensAllow p.src.toNat p.vc.toNat (pktUnits p) = true) ∧
  (∃ (p : Packet), ∃ (q : Packet), ∃ (s : State), ∃ (d : Nat),
    s.power.dev = none ∧ pktOk p = true ∧ s.tagUsed p = false ∧
    (s.decodeRequest p (s.forcedSecure p)).toOption = some d ∧ s.net.wait.get [] p.src.toNat = [] ∧
    s.limitAllows p = true ∧
    q = { p with dest := BitVec.ofNat 10 d, secure := s.forcedSecure p, poison := pktPoison p } ∧
    s.tokensAllow p.src.toNat p.vc.toNat (pktUnits p) = false) ∧
  (∃ (s : State),
    s.now / 250 ≤ s.net.refills) :=
  ⟨
    ⟨{ cmd := 0, src := 896 }, dark r0, by decide +kernel⟩,
    ⟨{ cmd := 0, vc := 2, src := 896, tag := 5 }, r0, by decide +kernel⟩,
    ⟨{ cmd := 0, vc := 0, src := 896, tag := 5 },
      { r0 with net := { r0.net with outst := [(896, [⟨5,0,2,0⟩])] } }, by decide +kernel⟩,
    ⟨{ cmd := 0, vc := 0, src := 896, tag := 5, addr := 0x0E0000000000 }, r0, 1, by decide +kernel⟩,
    ⟨{ cmd := 0, vc := 0, src := 896, tag := 5, len := 15, addr := 0x010000000000 },
      { cmd := 0, vc := 0, src := 896, dest := 6, tag := 5, len := 15, addr := 0x010000000000 }, r0, 6,
      by decide +kernel⟩,
    ⟨{ cmd := 2, vc := 1, src := 896, be := 0x00FF, len := 1, data := [⟨1,false⟩,⟨2,true⟩], addr := 0x010000000000 },
      { cmd := 2, vc := 1, src := 896, dest := 6, be := 0x00FF, len := 1, data := [⟨1,false⟩,⟨2,true⟩], poison := true, addr := 0x010000000000 },
      r0.setReg R.NOC_RATE_VC1 896 0x80200005, 6, by decide +kernel⟩,
    ⟨{ cmd := 2, vc := 1, src := 896, len := 1, data := [⟨1,false⟩,⟨2,true⟩], addr := 0x010000000000 },
      { cmd := 2, vc := 1, src := 896, dest := 6, len := 1, data := [⟨1,false⟩,⟨2,true⟩], poison := true, addr := 0x010000000000 },
      { r0.setReg R.NOC_RATE_VC1 896 0x80200005 with net := { r0.net with spent := [(2*896+1, 30)] } }, 6,
      by decide +kernel⟩,
    ⟨at64 r0 249, by decide +kernel⟩⟩

/-- Clauses 6, 7, 8 of Obligations.InjectionAndRegulators: states that meet the hypotheses. -/
theorem witness_InjectionAndRegulators_2 :
  (∃ (s : State), ∃ (i : Nat), ∃ (vc : Nat), ∃ (x : Nat),
    s.net.refills < s.now / 250 ∧ s.net.wait = [] ∧ s.net.spent = [(bucketKey i vc, x)] ∧ vc < 2 ∧
    x ≤ s.rateBurst i vc) ∧
  (∃ (acc : Accessor), ∃ (vc1 : Bool), ∃ (v : Word), ∃ (s : State), ∃ (i : Nat),
    Writes s acc 0 (rateReg (bit vc1)) 0 i ∧ s.net.wait.get [] i = []) ∧
  (∃ (acc : Accessor), ∃ (vc1 : Bool), ∃ (v : Word), ∃ (s : State), ∃ (i : Nat),
    Writes s acc 0 (rateReg (bit vc1)) 0 i ∧ s.net.wait.get [] i = []) ∧
  (∃ (acc : Accessor), ∃ (s : State), ∃ (i : Nat),
    Writes s acc 0 R.NOC_STAT_CLR 0 i) :=
  ⟨
    ⟨at64 { r0.setReg R.NOC_RATE_VC1 896 0x80200005 with net := { r0.net with spent := [(2*896+1, 30)] } } 750,
      896, 1, 30, by decide +kernel⟩,
    ⟨.chamois, true, 0x80120007,
      { (r0.setReg R.NOC_RATE_VC1 896 0x80200005).setReg R.INIT_SEL 7 896 with net := { r0.net with spent := [(2*896+1, 10)] } },
      896, by decide +kernel⟩,
    ⟨.chamois, false, 0x80120007, r0.setReg R.INIT_SEL 7 896, 896, by decide +kernel⟩,
    ⟨.host0, (r0.setReg R.INIT_SEL 0 896).setReg R.NOC_STAT_HIST (896*8+7) 4, 896, by decide +kernel⟩⟩

/-- Clauses 1, 2, 3, 4.1, 4.3, 4.5, 4.6, 4.2 of Obligations.RequestsAtTargets: states that meet the hypotheses. -/
theorem witness_RequestsAtTargets_1 :
  (∃ (p : Packet), ∃ (ups : List Upset), ∃ (s : State),
    s.arrives p = false) ∧
  (∃ (p : Packet), ∃ (s : State), ∃ (u : State), ∃ (off : Nat), ∃ (v : Nat),
    p.cmd.toNat = 0 ∧ s.arrives p = true ∧ pktTarget p = .regs ∧ regOffsetOf p = some off ∧
    (s.takePacket p).regCode (pktAccessor p) 4 off = 0 ∧
    (s.takePacket p).regRead (pktAccessor p) (pktCore p) off p.debug = (v, u) ∧ v < 2 ^ 32) ∧
  (∃ (p : Packet), ∃ (s : State), ∃ (off : Nat), ∃ (c : Nat),
    p.cmd.toNat = 0 ∧ s.arrives p = true ∧ pktTarget p = .regs ∧ regOffsetOf p = some off ∧
    (s.takePacket p).regCode (pktAccessor p) 4 off = c ∧ c ≠ 0) ∧
  (∃ (p : Packet), ∃ (s : State), ∃ (w : State), ∃ (c : Nat),
    s.arrives p = true ∧ pktTarget p = .scratch c ∧ Serves s c ∧ w = (s.takePacket p).touchDomain (domCluster c) ∧
    p.cmd.toNat = 0) ∧
  (∃ (p : Packet), ∃ (s : State), ∃ (w : State), ∃ (c : Nat),
    s.arrives p = true ∧ pktTarget p = .scratch c ∧ Serves s c ∧ w = (s.takePacket p).touchDomain (domCluster c) ∧
    p.cmd.toNat = 1) ∧
  (∃ (p : Packet), ∃ (s : State), ∃ (w : State), ∃ (c : Nat),
    s.arrives p = true ∧ pktTarget p = .scratch c ∧ Serves s c ∧ w = (s.takePacket p).touchDomain (domCluster c) ∧
    p.cmd.toNat = 2) ∧
  (∃ (p : Packet), ∃ (s : State), ∃ (w : State), ∃ (c : Nat), ∃ (x : DataUnit), ∃ (y : DataUnit), ∃ (n : Nat), ∃ (sh : Nat), ∃ (v : Nat),
    s.arrives p = true ∧ pktTarget p = .scratch c ∧ Serves s c ∧ w = (s.takePacket p).touchDomain (domCluster c) ∧
    p.cmd.toNat = 3 ∧ p.data = [x, y] ∧ y.data.toNat / 32 = 0 ∧ y.data.toNat % 16 ≤ 9 ∧
    (n = (if bitAt y.data.toNat 4 then 8 else 4)) ∧ p.addr.toNat % n = 0 ∧ sh = 8 * (p.addr.toNat % 16) ∧
    atomicOp (y.data.toNat % 16) (8 * n) (bitsOf (s.word (pktWord p)).toNat sh (8 * n)) (bitsOf x.data.toNat 0 64) (bitsOf x.data.toNat 64 64) = some v) ∧
  (∃ (p : Packet), ∃ (s : State), ∃ (w : State), ∃ (c : Nat),
    s.arrives p = true ∧ pktTarget p = .scratch c ∧ Serves s c ∧ w = (s.takePacket p).touchDomain (domCluster c) ∧
    p.cmd.toNat = 6) :=
  ⟨
    ⟨{}, [], r0, by decide +kernel⟩,
    ⟨{ cmd := 0, src := 413, tag := 5, be := 0xF0, addr := 0x030000000000 },
      inFlight r0 { cmd := 0, src := 413, tag := 5, be := 0xF0, addr := 0x030000000000 }, r0, 4, 0xB0,
      by decide +kernel⟩,
    ⟨{ cmd := 0, src := 413, tag := 5, be := 0xF0, addr := 0x030000F00000 },
      inFlight r0 { cmd := 0, src := 413, tag := 5, be := 0xF0, addr := 0x030000F00000 }, 0xF00004, 1,
      by decide +kernel⟩,
    ⟨{ cmd := 0, src := 896, dest := 6, addr := 0x010000000040 },
      inFlight r0 { cmd := 0, src := 896, dest := 6, addr := 0x010000000040 },
      ((inFlight r0 { cmd := 0, src := 896, dest := 6, addr := 0x010000000040 }).takePacket { cmd := 0, src := 896, dest := 6, addr := 0x010000000040 }).touchDomain (domCluster 0),
      0, by decide +kernel⟩,
    ⟨{ cmd := 1, src := 896, dest := 6, data := [⟨7,false⟩], addr := 0x010000000040 },
      inFlight r0 { cmd := 1, src := 896, dest := 6, data := [⟨7,false⟩], addr := 0x010000000040 },
      ((inFlight r0 { cmd := 1, src := 896, dest := 6, data := [⟨7,false⟩], addr := 0x010000000040 }).takePacket { cmd := 1, src := 896, dest := 6, data := [⟨7,false⟩], addr := 0x010000000040 }).touchDomain (domCluster 0),
      0, by decide +kernel⟩,
    ⟨{ cmd := 2, src := 896, dest := 6, data := [⟨7,true⟩], addr := 0x010000000040 },
      inFlight r0 { cmd := 2, src := 896, dest := 6, data := [⟨7,true⟩], addr := 0x010000000040 },
      ((inFlight r0 { cmd := 2, src := 896, dest := 6, data := [⟨7,true⟩], addr := 0x010000000040 }).takePacket { cmd := 2, src := 896, dest := 6, data := [⟨7,true⟩], addr := 0x010000000040 }).touchDomain (domCluster 0),
      0, by decide +kernel⟩,
    ⟨{ cmd := 3, src := 896, dest := 6, data := [⟨7,false⟩,⟨2,false⟩], addr := 0x010000000040 },
      inFlight r0 { cmd := 3, src := 896, dest := 6, data := [⟨7,false⟩,⟨2,false⟩], addr := 0x010000000040 },
      ((inFlight r0 { cmd := 3, src := 896, dest := 6, data := [⟨7,false⟩,⟨2,false⟩], addr := 0x010000000040 }).takePacket { cmd := 3, src := 896, dest := 6, data := [⟨7,false⟩,⟨2,false⟩], addr := 0x010000000040 }).touchDomain (domCluster 0),
      0, ⟨7,false⟩, ⟨2,false⟩, 4, 0, (atomicOp 2 32 0 7 0).getD 0, by decide +kernel⟩,
    ⟨{ cmd := 6, src := 289, dest := 6, addr := 0x010000000040 },
      inFlight r0 { cmd := 6, src := 289, dest := 6, addr := 0x010000000040 },
      ((inFlight r0 { cmd := 6, src := 289, dest := 6, addr := 0x010000000040 }).takePacket { cmd := 6, src := 289, dest := 6, addr := 0x010000000040 }).touchDomain (domCluster 0),
      0, by decide +kernel⟩⟩

/-- Clauses 4.4, 5.1, 5.2, 6 of Obligations.RequestsAtTargets: states that meet the hypotheses. -/
theorem witness_RequestsAtTargets_2 :
  (∃ (p : Packet), ∃ (s : State), ∃ (w : State), ∃ (c : Nat),
    s.arrives p = true ∧ pktTarget p = .scratch c ∧ Serves s c ∧ w = (s.takePacket p).touchDomain (domCluster c) ∧
    p.cmd.toNat = 7) ∧
  (∃ (p : Packet), ∃ (s : State), ∃ (n : Nat), ∃ (size : Nat), ∃ (prod : Nat),
    p.cmd.toNat = 4 ∧ s.arrives p = true ∧ pktTarget p = .core n ∧ Serves s (n / 8) ∧
    size = 2 ^ min 6 (s.get F.TC_INBOX_BASE.SIZE n) ∧ prod = s.get F.TC_INBOX_IDX.PROD n ∧
    (s.isSet F.TC_INBOX_BASE.EN n = false ∨ size ≤ (prod + 256 - s.get F.TC_INBOX_IDX.CONS n) % 256)) ∧
  (∃ (p : Packet), ∃ (s : State), ∃ (n : Nat), ∃ (size : Nat), ∃ (prod : Nat),
    p.cmd.toNat = 4 ∧ s.arrives p = true ∧ pktTarget p = .core n ∧ Serves s (n / 8) ∧
    size = 2 ^ min 6 (s.get F.TC_INBOX_BASE.SIZE n) ∧ prod = s.get F.TC_INBOX_IDX.PROD n ∧
    s.isSet F.TC_INBOX_BASE.EN n = true ∧ (prod + 256 - s.get F.TC_INBOX_IDX.CONS n) % 256 < size) ∧
  (∃ (p : Packet), ∃ (s : State), ∃ (e : Nat),
    p.cmd.toNat = 4 ∧ s.arrives p = true ∧ pktTarget p = .engine e ∧ s.domState (domEngine e) = 2) :=
  ⟨
    ⟨{ cmd := 7, src := 289, dest := 6, data := [⟨7,false⟩], addr := 0x010000000040 },
      inFlight r0 { cmd := 7, src := 289, dest := 6, data := [⟨7,false⟩], addr := 0x010000000040 },
      ((inFlight r0 { cmd := 7, src := 289, dest := 6, data := [⟨7,false⟩], addr := 0x010000000040 }).takePacket { cmd := 7, src := 289, dest := 6, data := [⟨7,false⟩], addr := 0x010000000040 }).touchDomain (domCluster 0),
      0, by decide +kernel⟩,
    ⟨{ cmd := 4, src := 896, addr := 0x011000500000 },
      inFlight r0 { cmd := 4, src := 896, addr := 0x011000500000 }, 5, 1, 0, by decide +kernel⟩,
    ⟨{ cmd := 4, src := 896, addr := 0x011000500000 },
      (inFlight r0 { cmd := 4, src := 896, addr := 0x011000500000 }).put F.TC_INBOX_BASE.EN 5 1 |>.put F.TC_INBOX_IDX.PROD 5 255 |>.put F.TC_INBOX_IDX.CONS 5 255,
      5, 1, 255, by decide +kernel⟩,
    ⟨{ cmd := 4, src := 896, addr := 0x012000000000 },
      inFlight r0 { cmd := 4, src := 896, addr := 0x012000000000 }, 0, by decide +kernel⟩⟩

/-- Clauses 1.1, 1.2, 1.3, 2 of Obligations.ResponsesAndRoutes: states that meet the hypotheses. -/
theorem witness_ResponsesAndRoutes_1 :
  (∃ (p : Packet), ∃ (o : Outst), ∃ (s : State), ∃ (x : Nat),
    p.dest.toNat = epChamois ∧ s.arrives p = true ∧ (∀ v ∈ s.net.flight, v.own = false) ∧
    (s.outstanding epChamois).find? (fun o => o.tag == p.tag) = some o ∧ s.net.wait.get [] epChamois = [] ∧
    x = (s.now - o.at64) / 2 * 2 ∧ p.cmd.toNat = 8) ∧
  (∃ (p : Packet), ∃ (o : Outst), ∃ (s : State), ∃ (x : Nat),
    p.dest.toNat = epChamois ∧ s.arrives p = true ∧ (∀ v ∈ s.net.flight, v.own = false) ∧
    (s.outstanding epChamois).find? (fun o => o.tag == p.tag) = some o ∧ s.net.wait.get [] epChamois = [] ∧
    x = (s.now - o.at64) / 2 * 2 ∧ p.cmd.toNat = 9) ∧
  (∃ (p : Packet), ∃ (o : Outst), ∃ (s : State), ∃ (x : Nat),
    p.dest.toNat = epChamois ∧ s.arrives p = true ∧ (∀ v ∈ s.net.flight, v.own = false) ∧
    (s.outstanding epChamois).find? (fun o => o.tag == p.tag) = some o ∧ s.net.wait.get [] epChamois = [] ∧
    x = (s.now - o.at64) / 2 * 2 ∧ p.cmd.toNat = 10) ∧
  (∃ (p : Packet), ∃ (s : State),
    s.arrives p = false ∧ s.chlAnswered p = none) :=
  ⟨
    ⟨{ cmd := 8, dest := 413, tag := 5, data := [⟨1,false⟩] }, ⟨5,0,2,10⟩,
      inTime (inFlight { r0 with net := { r0.net with outst := [(413, [⟨5,0,2,10⟩])] } } { cmd := 8, dest := 413, tag := 5, data := [⟨1,false⟩] }) (fun t => { t with ns64 := 61 }),
      50, by decide +kernel⟩,
    ⟨{ cmd := 9, dest := 413, tag := 5 }, ⟨5,0,2,10⟩,
      inTime (inFlight { r0 with net := { r0.net with outst := [(413, [⟨5,0,2,10⟩])] } } { cmd := 9, dest := 413, tag := 5 }) (fun t => { t with ns64 := 61 }),
      50, by decide +kernel⟩,
    ⟨{ cmd := 10, dest := 413, tag := 5 }, ⟨5,0,2,10⟩,
      inTime (inFlight { r0 with net := { r0.net with outst := [(413, [⟨5,0,2,10⟩])] } } { cmd := 10, dest := 413, tag := 5 }) (fun t => { t with ns64 := 61 }),
      50, by decide +kernel⟩,
    ⟨{}, r0, by decide +kernel⟩⟩

/-- Clauses 1.1, 2, 3, 4, 5.1 of Obligations.Submissions: states that meet the hypotheses. -/
theorem witness_Submissions_1 :
  (∃ (p : Packet), ∃ (q : Nat), ∃ (s : State),
    quadOfDispatcher p.dest.toNat = some q ∧ ((s.dsp q).free = 0 ∨ s.arrives p = false)) ∧
  (∃ (s : State), ∃ (q : Nat), ∃ (d : BitVec 512),
    dTaskId d = 0x3FFF ∧ dSlotRel d = true ∧ (s.dsp q).slots = []) ∧
  (∃ (s : State), ∃ (q : Nat), ∃ (h : Nat), ∃ (count : Nat), ∃ (last : Nat), ∃ (r : Bool), ∃ (k : Task), ∃ (x : Int),
    (s.dsp q).task? h = some k ∧ k.st = .slotWait ∧
    (s.dsp q).slots.get none (dSlotTmr k.d) = some (count, last, r) ∧ count < 2 ^ 32 ∧
    x = toSigned 32 (ofSigned 32 ((dWord k.d 3 : Int) - (count : Int)))) ∧
  (∃ (s : State), ∃ (q : Nat), ∃ (h : Nat), ∃ (count : Nat), ∃ (last : Nat), ∃ (r : Bool), ∃ (k : Task), ∃ (x : Int),
    (s.dsp q).task? h = some k ∧ k.st = .slotWait ∧
    (s.dsp q).slots.get none (dSlotTmr k.d) = some (count, last, r) ∧ count < 2 ^ 32 ∧
    x = toSigned 32 (ofSigned 32 ((dWord k.d 3 : Int) - (count : Int)))) ∧
  (∃ (s : State), ∃ (q : Nat), ∃ (d : BitVec 512),
    dTaskId d = 0x3FFF ∧ dSlotRel d = false ∧ dVar d = 0) ∧
  (∃ (s : State), ∃ (q : Nat), ∃ (d : BitVec 512),
    dTaskId d = 0x3FFF ∧ dSlotRel d = false ∧ dVar d = 0) ∧
  (∃ (s : State), ∃ (q : Nat), ∃ (d : BitVec 512),
    dTaskId d = 0x3FFF ∧ dSlotRel d = false ∧ dVar d = 0) ∧
  (∃ (ids : List Nat), ∃ (en : Nat → Bool), ∃ (cap : Nat), ∃ (d : BitVec 512),
    2 ≤ dKind d) :=
  ⟨
    ⟨submitOf (0x02443034 + 0x3FFF * 2^32), 1, r0, by decide +kernel⟩,
    ⟨r0, 1, BitVec.ofNat 512 (0x02443034 + 0x3FFF * 2^32), by decide +kernel⟩,
    ⟨r0.setDsp 1 { pool := [{ handle := 7, d := BitVec.ofNat 512 (0x02443034 + 5*2^96 + 77 * 2^64), st := .slotWait }], slots := [(0, some (5, 1000, false))] },
      1, 7, 5, 1000, false,
      { handle := 7, d := BitVec.ofNat 512 (0x02443034 + 5*2^96 + 77 * 2^64), st := .slotWait }, 0,
      by decide +kernel⟩,
    ⟨r0.setDsp 1 { pool := [{ handle := 7, d := BitVec.ofNat 512 (0x02443034 + 5*2^96 + 77 * 2^64), st := .slotWait }], slots := [(0, some (7, 1000, false))] },
      1, 7, 7, 1000, false,
      { handle := 7, d := BitVec.ofNat 512 (0x02443034 + 5*2^96 + 77 * 2^64), st := .slotWait }, -2,
      by decide +kernel⟩,
    ⟨r0, 1, BitVec.ofNat 512 (0x02403034 + 0x3FFF * 2^32 + 2^64), by decide +kernel⟩,
    ⟨r0, 1, BitVec.ofNat 512 (0x02403034 + 0x3FFF * 2^32), by decide +kernel⟩,
    ⟨r0, 1, BitVec.ofNat 512 (0x00403034 + 0x3FFF * 2^32), by decide +kernel⟩,
    ⟨[1], fun _ => true, 5, BitVec.ofNat 512 2, by decide +kernel⟩⟩

/-- Clauses 5.2, 6.1, 6.2 of Obligations.Submissions: states that meet the hypotheses. -/
theorem witness_Submissions_2 :
  (∃ (ids : List Nat), ∃ (en : Nat → Bool), ∃ (cap : Nat), ∃ (d : BitVec 512),
    dCheck ids en cap d = none) ∧
  (∃ (acc : Accessor), ∃ (v : Word), ∃ (s : State), ∃ (u : State), ∃ (q : Nat),
    Writes s acc 0 R.TSK_SUBMIT_GO 0 q ∧ u = s.ungate 7 ∧ v.toNat % 2 = 0) ∧
  (∃ (acc : Accessor), ∃ (v : Word), ∃ (s : State), ∃ (u : State), ∃ (q : Nat),
    Writes s acc 0 R.TSK_SUBMIT_GO 0 q ∧ u = s.ungate 7 ∧ v.toNat % 2 = 1) :=
  ⟨
    ⟨[1], fun _ => true, 5, BitVec.ofNat 512 (0x00403034), by decide +kernel⟩,
    ⟨.host0, 2, r0, r0, 0, by decide +kernel⟩,
    ⟨.host0, 1, (r0.setReg R.TSK_SUBMIT 0 0x02403034).setReg R.TSK_SEL 0 3,
      (r0.setReg R.TSK_SUBMIT 0 0x02403034).setReg R.TSK_SEL 0 3, 3, by decide +kernel⟩⟩

/-- Clause 1.2.2 of Obligations.Submissions: states that meet the hypotheses. -/
theorem witness_Submissions_3 :
  (∃ (p : Packet), ∃ (q : Nat), ∃ (s : State), ∃ (d : BitVec 512), ∃ bad,
    quadOfDispatcher p.dest.toNat = some q ∧ d = BitVec.ofNat 512 (leValue (unitBytes p.data 0 64)) ∧
    p.cmd.toNat = 5 ∧ s.arrives p = true ∧ (s.dsp q).free ≠ 0 ∧ (s.dsp q).ingress = [] ∧ pktPoison p = false ∧
    (s.takePacket p).checkTask q d = some bad) :=
    ⟨submitOf 0x0244303400000002, 1, inFlight r0 (submitOf 0x0244303400000002),
      BitVec.ofNat 512 0x0244303400000002, 0,
      by
    first | decide +kernel | ((repeat' first | apply And.intro | apply Prod.ext) <;> first | decide +kernel | with_reducible rfl | rfl)⟩

/-- Clause 1.2.3 of Obligations.Submissions: states that meet the hypotheses. -/
theorem witness_Submissions_4 :
  (∃ (p : Packet), ∃ (q : Nat), ∃ (s : State), ∃ (d : BitVec 512),
    quadOfDispatcher p.dest.toNat = some q ∧ d = BitVec.ofNat 512 (leValue (unitBytes p.data 0 64)) ∧
    p.cmd.toNat = 5 ∧ s.arrives p = true ∧ (s.dsp q).free ≠ 0 ∧ (s.dsp q).ingress = [] ∧ pktPoison p = false ∧
    (s.takePacket p).checkTask q d = none) :=
    ⟨submitOf (0x02403034 + 0x3FFF * 2^32), 1, inFlight r0 (submitOf (0x02403034 + 0x3FFF * 2^32)),
      BitVec.ofNat 512 (0x02403034 + 0x3FFF * 2^32),
      by
    first | decide +kernel | ((repeat' first | apply And.intro | apply Prod.ext) <;> first | decide +kernel | with_reducible rfl | rfl)⟩

/-- Clause 1.2.1 of Obligations.Submissions: states that meet the hypotheses. -/
theorem witness_Submissions_5 :
  (∃ (p : Packet), ∃ (q : Nat), ∃ (s : State), ∃ (d : BitVec 512),
    quadOfDispatcher p.dest.toNat = some q ∧ d = BitVec.ofNat 512 (leValue (unitBytes p.data 0 64)) ∧
    p.cmd.toNat = 5 ∧ s.arrives p = true ∧ (s.dsp q).free ≠ 0 ∧ (s.dsp q).ingress = [] ∧ pktPoison p = true) :=
    ⟨{ submitOf 2 with data := [⟨0,true⟩,⟨0,false⟩,⟨0,false⟩,⟨0,false⟩] }, 1,
      inFlight r0 { submitOf 2 with data := [⟨0,true⟩,⟨0,false⟩,⟨0,false⟩,⟨0,false⟩] }, 0,
      by
    first | decide +kernel | ((repeat' first | apply And.intro | apply Prod.ext) <;> first | decide +kernel | with_reducible rfl | rfl)⟩

/-- Clauses 1.1, 1.2, 2, 3, 4.1, 4.2.2, 4.2.1, 4.3 of Obligations.DispatcherEvents: states that meet the hypotheses.
-/
theorem witness_DispatcherEvents_1 :
  (∃ (q : Fin 4), ∃ (s : State), ∃ (n : Nat), ∃ (m : Nat),
    n = max 1 (s.get F.TSK_TICK.NS q.val) ∧ m = s.now / n * n ∧ m < (s.dsp q.val).lastTick) ∧
  (∃ (q : Fin 4), ∃ (s : State), ∃ (n : Nat), ∃ (m : Nat),
    n = max 1 (s.get F.TSK_TICK.NS q.val) ∧ m = s.now / n * n ∧ (s.dsp q.val).lastTick ≤ m) ∧
  (∃ (s : State), ∃ (q : Nat), ∃ (a : Nat),
    s.isSet F.GOV_CTRL.EN 0 = true ∧ s.isSet F.GOV_Q_STATE.HOT q = false ∧
    a = s.get F.GOV_BUDGET.W 0 * s.govShare q * s.get F.TSK_TICK.NS q * 4 / 100000) ∧
  (∃ (acc : Accessor), ∃ (v : Word), ∃ (s : State), ∃ (u : State), ∃ (q : Nat),
    Writes s acc 0 R.TSK_SIGNAL 0 q ∧ u = s.ungate 7) ∧
  (∃ (s : State), ∃ (q : Nat), ∃ (id : Nat),
    id = 0x3FFF) ∧
  (∃ (s : State), ∃ (q : Nat), ∃ (id : Nat), ∃ (t : Task),
    id ≠ 0x3FFF ∧ (s.dsp q).pool.find? (fun t => dTaskId t.d == id) = some t ∧ t.st ≠ .running ∧ 1 < t.count) ∧
  (∃ (s : State), ∃ (q : Nat), ∃ (id : Nat), ∃ (t : Task),
    id ≠ 0x3FFF ∧ (s.dsp q).pool.find? (fun t => dTaskId t.d == id) = some t ∧ (t.st = .running ∨ t.count = 0)) ∧
  (∃ (s : State), ∃ (q : Nat), ∃ (id : Nat),
    id ≠ 0x3FFF ∧ (∀ t ∈ (s.dsp q).pool, dTaskId t.d ≠ id) ∧ (s.dsp q).pend.length < 256) :=
  ⟨
    ⟨2, (at64 r0 1500).setDsp 2 { lastTick := 1001 }, 1000, 1000, by decide +kernel⟩,
    ⟨2, (at64 r0 2500).setDsp 2 { lastTick := 1001 }, 1000, 2000, by decide +kernel⟩,
    ⟨((r0.setReg R.GOV_BUDGET 0 320).setReg R.GOV_CTRL 0 1).setReg R.TSK_ACCT 1 0xFFFFFFF0, 1, 320,
      by decide +kernel⟩,
    ⟨.host0, 0x100, r0, r0, 0, by decide +kernel⟩,
    ⟨r0, 1, 0x3FFF, by decide +kernel⟩,
    ⟨r0.setDsp 1 { pool := [{ handle := 7, d := BitVec.ofNat 512 (0x100 * 2^32), st := .delayed, count := 2 }] },
      1, 0x100, { handle := 7, d := BitVec.ofNat 512 (0x100 * 2^32), st := .delayed, count := 2 },
      by decide +kernel⟩,
    ⟨r0.setDsp 1 { pool := [{ handle := 7, d := BitVec.ofNat 512 (0x100 * 2^32), st := .running, count := 2 }] },
      1, 0x100, { handle := 7, d := BitVec.ofNat 512 (0x100 * 2^32), st := .running, count := 2 },
      by decide +kernel⟩,
    ⟨r0, 1, 0x100, by decide +kernel⟩⟩

/-- Clauses 5, 6, 7, 8, 10.1, 10.2 of Obligations.DispatcherEvents: states that meet the hypotheses. -/
theorem witness_DispatcherEvents_2 :
  (∃ (q : Fin 4), ∃ (s : State),
    (s.dsp q.val).signals = []) ∧
  (∃ (q : Fin 4), ∃ (s : State), ∃ (u : State), ∃ (id : Nat), ∃ (r : List Nat),
    (s.dsp q.val).signals = id :: r ∧ u = s.setDsp q.val { s.dsp q.val with signals := r }) ∧
  (∃ (q : Fin 4), ∃ (s : State), ∃ (e : Nat), ∃ (h : Nat), ∃ (r : List (Nat × Nat)), ∃ (k : Task),
    (s.dsp q.val).sent = (e, h) :: r ∧ (s.dsp q.val).task? h = some k) ∧
  (∃ (q : Fin 4), ∃ (s : State), ∃ (e : Nat), ∃ (h : Nat), ∃ (r : List (Nat × Nat)), ∃ (k : Task),
    (s.dsp q.val).sent = (e, h) :: r ∧ (s.dsp q.val).task? h = some k) ∧
  (∃ (q : Fin 4), ∃ (s : State), ∃ (r : EndReport), ∃ (rs : List EndReport),
    (s.dsp q.val).ends = r :: rs) ∧
  (∃ (q : Fin 4), ∃ (k : Fin 64), ∃ (s : State), ∃ (h : Nat), ∃ (x : Nat),
    (s.dsp q.val).preempt = [(k.val, h, x)] ∧ s.now < x + 1000 * max 1 (s.get F.TSK_PREEMPT.TMO_US q.val)) ∧
  (∃ (q : Fin 4), ∃ (k : Fin 64), ∃ (s : State), ∃ (h : Nat), ∃ (x : Nat),
    (s.dsp q.val).preempt = [(k.val, h, x)] ∧ x + 1000 * max 1 (s.get F.TSK_PREEMPT.TMO_US q.val) ≤ s.now) :=
  ⟨
    ⟨3, r0, by decide +kernel⟩,
    ⟨3, r0.setDsp 3 { signals := [5,6] }, r0.setDsp 3 { signals := [6] }, 5, [6], by decide +kernel⟩,
    ⟨3, r0.setDsp 3 { pool := [{ handle := 7, d := 9, st := .running }], sent := [(63,7),(64,8)] }, 63, 7,
      [(64,8)], { handle := 7, d := 9, st := .running }, by decide +kernel⟩,
    ⟨3, r0.setDsp 3 { pool := [{ handle := 7, d := 9, st := .running }], sent := [(65,7),(64,8)] }, 65, 7,
      [(64,8)], { handle := 7, d := 9, st := .running }, by decide +kernel⟩,
    ⟨3, r0.setDsp 3 { pool := [{ handle := 7, d := 9, st := .running }], ends := [⟨7,0,0⟩] }, ⟨7,0,0⟩, [],
      by decide +kernel⟩,
    ⟨3, 5, at64 (r0.setDsp 3 { preempt := [(5,7,100)] }) 20099, 7, 100, by decide +kernel⟩,
    ⟨3, 5, (at64 (r0.setDsp 3 { preempt := [(5,7,100)] }) 20100).setReg R.TC_IRQ_PEND 197 3, 7, 100,
      by decide +kernel⟩⟩

/-- Clauses 1.1, 1.2, 1.3, 2, 3, 4 of Obligations.Decisions: states that meet the hypotheses. -/
theorem witness_Decisions_1 :
  (∃ (s : State), ∃ (q : Nat), ∃ (h : Nat), ∃ (f : Nat), ∃ (el : Nat × Bool), ∃ (t : Task),
    (s.dsp q).task? h = some t ∧ lateAt t s.now (s.estimate q el.1 t.d) = false ∧ dPrio t.d ≤ 3) ∧
  (∃ (s : State), ∃ (q : Nat), ∃ (h : Nat), ∃ (f : Nat), ∃ (el : Nat × Bool), ∃ (t : Task),
    (s.dsp q).task? h = some t ∧ lateAt t s.now (s.estimate q el.1 t.d) = false ∧ 4 ≤ dPrio t.d ∧
    (dEnergy t.d : Int) ≤ s.acct q) ∧
  (∃ (s : State), ∃ (q : Nat), ∃ (h : Nat), ∃ (f : Nat), ∃ (el : Nat × Bool), ∃ (t : Task),
    (s.dsp q).task? h = some t ∧ lateAt t s.now (s.estimate q el.1 t.d) = false ∧ 4 ≤ dPrio t.d ∧
    s.acct q < (dEnergy t.d : Int) ∧ t.vars = []) ∧
  (∃ (s : State), ∃ (q : Nat), ∃ (h : Nat), ∃ (f : Nat), ∃ (el : Nat × Bool), ∃ (t : Task),
    (s.dsp q).task? h = some t ∧ lateAt t s.now (s.estimate q el.1 t.d) = true ∧ dLate t.d = 2) ∧
  (∃ (s : State), ∃ (q : Nat), ∃ (h : Nat), ∃ (e : Nat), ∃ (t : Task),
    (s.dsp q).task? h = some t) ∧
  (∃ (s : State), ∃ (q : Nat), ∃ (h : Nat), ∃ (e : Nat), ∃ (t : Task),
    (s.dsp q).task? h = some t) ∧
  (∃ (s : State), ∃ (q : Nat), ∃ (st : Nat), ∃ (d : Nat), ∃ (t : Task), ∃ (late : Bool), ∃ (e : Nat),
    q < 4 ∧ st < 16 ∧ s.now < 2 ^ 64 ∧ t.elem < 90 ∧ e = (s.completionEntry q t st d late).toNat) :=
  ⟨
    ⟨r0.setDsp 1 { pool := [{ handle := 7, d := BitVec.ofNat 512 (0x3000 + 5*2^224), st := .ready }] }, 1, 7, 4,
      (3,false), { handle := 7, d := BitVec.ofNat 512 (0x3000 + 5*2^224), st := .ready }, by decide +kernel⟩,
    ⟨r0.setDsp 1 { pool := [{ handle := 7, d := BitVec.ofNat 512 (0x4000 + 0*2^224), st := .ready }] }, 1, 7, 4,
      (3,false), { handle := 7, d := BitVec.ofNat 512 (0x4000 + 0*2^224), st := .ready }, by decide +kernel⟩,
    ⟨r0.setDsp 1 { pool := [{ handle := 7, d := BitVec.ofNat 512 (0x4000 + 1*2^224), st := .ready }] }, 1, 7, 4,
      (3,false), { handle := 7, d := BitVec.ofNat 512 (0x4000 + 1*2^224), st := .ready }, by decide +kernel⟩,
    ⟨(at64 r0 1000).setDsp 1 { pool := [{ handle := 7, d := BitVec.ofNat 512 (0x424000 + 1*2^224), st := .ready }] },
      1, 7, 4, (3,false), { handle := 7, d := BitVec.ofNat 512 (0x424000 + 1*2^224), st := .ready },
      by decide +kernel⟩,
    ⟨(r0.setDsp 1 { pool := [{ handle := 7, d := BitVec.ofNat 512 (0x3000 + 5*2^224), st := .ready }] }).setReg R.TSK_ACCT 1 0x80000003,
      1, 7, 4, { handle := 7, d := BitVec.ofNat 512 (0x3000 + 5*2^224), st := .ready }, by decide +kernel⟩,
    ⟨(r0.setDsp 1 { pool := [{ handle := 7, d := BitVec.ofNat 512 (0x3000 + 5*2^224), st := .ready }] }).setReg R.TSK_ACCT 1 3,
      1, 7, 4, { handle := 7, d := BitVec.ofNat 512 (0x3000 + 5*2^224), st := .ready }, by decide +kernel⟩,
    ⟨at64 r0 0xFFFFFFFFFFFFFFFF, 3, 15, 0xFFFFF,
      { handle := 7, d := BitVec.allOnes 512, st := .running, elem := 89, risk := true, preempted := true, depth := 1 },
      true,
      (State.completionEntry (at64 r0 0xFFFFFFFFFFFFFFFF) 3 { handle := 7, d := BitVec.allOnes 512, st := .running, elem := 89, risk := true, preempted := true, depth := 1 } 15 0xFFFFF true).toNat,
      by decide +kernel⟩⟩

/-- Clauses 1.1, 1.2, 2, 3, 4, 6, 7.2, 8 of Obligations.QueuesAndControls: states that meet the hypotheses. -/
theorem witness_QueuesAndControls_1 :
  (∃ (p : Packet), ∃ (q : Nat), ∃ (s : State), ∃ (w : CqWrite),
    quadOfDispatcher p.dest.toNat = some q ∧ (s.dsp q).writes = [w] ∧ w.tag = p.tag ∧ w.done = false ∧
    s.arrives p = true ∧ 8 ≤ p.cmd.toNat ∧ (s.dsp q).cbuf = [] ∧ p.cmd.toNat = 9) ∧
  (∃ (p : Packet), ∃ (q : Nat), ∃ (s : State), ∃ (w : CqWrite),
    quadOfDispatcher p.dest.toNat = some q ∧ (s.dsp q).writes = [w] ∧ w.tag = p.tag ∧ w.done = false ∧
    s.arrives p = true ∧ 8 ≤ p.cmd.toNat ∧ (s.dsp q).cbuf = [] ∧ p.cmd.toNat = 10 ∧ w.queue < 16) ∧
  (∃ (p : Packet), ∃ (s : State),
    (quadOfDispatcher p.dest.toNat = none ∨ s.arrives p = false)) ∧
  (∃ (acc : Accessor), ∃ (v : Word), ∃ (s : State), ∃ (k : Nat),
    Writes s acc 0 R.TSK_CQ_IDX 0 k ∧ (s.dsp (k / 16)).cbuf = []) ∧
  (∃ (p : Packet), ∃ (q : Nat), ∃ (s : State), ∃ (u : State), ∃ (k : Task),
    quadOfDispatcher p.dest.toNat = some q ∧ (s.dsp q).pool.find? (fun t => t.fetch == some p.tag) = some k ∧
    s.arrives p = true ∧ 8 ≤ p.cmd.toNat ∧ u = (s.takeResponse p).fetchDone q k p) ∧
  (∃ (acc : Accessor), ∃ (v : Word), ∃ (s : State), ∃ (u : State), ∃ (q : Nat),
    Writes s acc 0 R.TSK_FLUSH 0 q ∧ u = s.ungate 7) ∧
  (∃ (s : State), ∃ (q : Nat), ∃ (mask : Nat),
    mask = 0xFFFF) ∧
  (∃ (acc : Accessor), ∃ (v : Word), ∃ (s : State), ∃ (q : Nat),
    Writes s acc 0 R.TSK_CTRL 0 q) :=
  ⟨
    ⟨{ cmd := 9, dest := 541, tag := 5 }, 1,
      inFlight ((r0.setDsp 1 { writes := [⟨3,5,false⟩] }).setReg R.TSK_CQ_IDX 19 0xFFFF) { cmd := 9, dest := 541, tag := 5 },
      ⟨3,5,false⟩, by decide +kernel⟩,
    ⟨{ cmd := 10, dest := 541, tag := 5 }, 1,
      inFlight ((r0.setDsp 1 { writes := [⟨3,5,false⟩] }).setReg R.TSK_CQ_CFG 19 0x1) { cmd := 10, dest := 541, tag := 5 },
      ⟨3,5,false⟩, by decide +kernel⟩,
    ⟨{ cmd := 9, dest := 541, tag := 5 }, r0, by decide +kernel⟩,
    ⟨.host1, 0x00050003, (r0.setReg R.TSK_SEL 1 2).setReg R.TSK_CQ_SEL 1 9, 41, by decide +kernel⟩,
    ⟨{ cmd := 10, dest := 541, tag := 5 }, 1,
      inFlight (r0.setDsp 1 { pool := [{ handle := 7, d := 9, st := .ready, fetch := some 5, want := some 64 }] }) { cmd := 10, dest := 541, tag := 5 },
      (((inFlight (r0.setDsp 1 { pool := [{ handle := 7, d := 9, st := .ready, fetch := some 5, want := some 64 }] }) { cmd := 10, dest := 541, tag := 5 }).takePacket { cmd := 10, dest := 541, tag := 5 }).consumeResponse { cmd := 10, dest := 541, tag := 5 }).fetchDone 1 { handle := 7, d := 9, st := .ready, fetch := some 5, want := some 64 } { cmd := 10, dest := 541, tag := 5 },
      { handle := 7, d := 9, st := .ready, fetch := some 5, want := some 64 }, by decide +kernel⟩,
    ⟨.host0, 8, (r0.setDsp 0 { pool := [{ handle := 7, d := 0x3000, st := .ready }] }),
      (r0.setDsp 0 { pool := [{ handle := 7, d := 0x3000, st := .ready }] }), 0, by decide +kernel⟩,
    ⟨(r0.setDsp 0 { pend := [5], pool := [{ handle := 7, d := 0x3000, st := .ready },{ handle := 8, d := 0x3000, st := .running }] }),
      0, 0xFFFF, by decide +kernel⟩,
    ⟨.host0, 0xD, (r0.setDsp 0 { pend := [5] }), 0, by decide +kernel⟩⟩

/-- Clauses 8, 9, 10 of Obligations.QueuesAndControls: states that meet the hypotheses. -/
theorem witness_QueuesAndControls_2 :
  (∃ (acc : Accessor), ∃ (v : Word), ∃ (s : State), ∃ (q : Nat),
    Writes s acc 0 R.TSK_CTRL 0 q) ∧
  (∃ (acc : Accessor), ∃ (v : Word), ∃ (s : State), ∃ (q : Nat),
    Writes s acc 0 R.TSK_STAT_CLR 0 q ∧ bitAt v.toNat 0 = true) ∧
  (∃ (acc : Accessor), ∃ (v : Word), ∃ (s : State), ∃ (q : Nat),
    Writes s acc 0 R.TSK_TICK 0 q) ∧
  (∃ (acc : Accessor), ∃ (v : Word), ∃ (s : State), ∃ (q : Nat),
    Writes s acc 0 R.TSK_TICK 0 q) :=
  ⟨
    ⟨.host0, 0x2, (r0.setDsp 0 { pend := [5] }), 0, by decide +kernel⟩,
    ⟨.host0, 1, (r0.setReg R.TSK_DROPS 0 5), 0, by decide +kernel⟩,
    ⟨.host0, 249, r0, 0, by decide +kernel⟩,
    ⟨.host0, 3001, r0, 0, by decide +kernel⟩⟩

/-- Clause 5.1 of Obligations.QueuesAndControls: states that meet the hypotheses. -/
theorem witness_QueuesAndControls_3 :
  (∃ (s : State), ∃ (q : Nat), ∃ (k : Task), ∃ (p : Packet), ∃ (v : BitVec 512),
    v = BitVec.ofNat 512 (leValue (unitBytes p.data 0 64)) ∧
    (p.cmd.toNat ≠ 8 ∨ pktPoison p = true ∨ variantFails (dPrio k.d) (s.acctCap q) v = true)) :=
    ⟨r0.setDsp 1 { pool := [{ handle := 7, d := 9, st := .ready, fetch := some 5, want := some 64 }] }, 1,
      { handle := 7, d := 9, st := .ready, fetch := some 5, want := some 64 },
      { cmd := 10, dest := 541, tag := 5 }, 0,
      by
    first | decide +kernel | ((repeat' first | apply And.intro | apply Prod.ext) <;> first | decide +kernel | with_reducible rfl | rfl)⟩

/-- Clause 5.2 of Obligations.QueuesAndControls: states that meet the hypotheses. -/
theorem witness_QueuesAndControls_4 :
  (∃ (s : State), ∃ (q : Nat), ∃ (k : Task), ∃ (p : Packet), ∃ (v : BitVec 512),
    v = BitVec.ofNat 512 (leValue (unitBytes p.data 0 64)) ∧ p.cmd.toNat = 8 ∧ pktPoison p = false ∧
    variantFails (dPrio k.d) (s.acctCap q) v = false ∧ dVar v = 0) :=
    ⟨r0.setDsp 1 { pool := [{ handle := 7, d := 9, st := .ready, fetch := some 5, want := some 64 }] }, 1,
      { handle := 7, d := 9, st := .ready, fetch := some 5, want := some 64 },
      { cmd := 8, dest := 541, tag := 5, data := [⟨0x9,false⟩,⟨0,false⟩,⟨0,false⟩,⟨0,false⟩] }, 9,
      by
    first | decide +kernel | ((repeat' first | apply And.intro | apply Prod.ext) <;> first | decide +kernel | with_reducible rfl | rfl)⟩

/-- Clauses 1.1, 2, 3.1, 3.2, 3.3, 3.4, 3.5, 4 of Obligations.SlotSequencing: states that meet the hypotheses. -/
theorem witness_SlotSequencing_1 :
  (∃ (n : Fin 256), ∃ (s : State), ∃ (b : BitVec 128), ∃ (c : Core), ∃ (w : Nat),
    s.core n.val = c ∧ s.mayIssue n.val = true ∧ (s.bpDue n.val).isSome = false ∧ c.pOld = [] ∧
    localWord n.val c.pc = some w ∧ s.damageAt w = none ∧ s.poisonAt w = false ∧ s.word w = b ∧
    bundleLegal c.pc b = true ∧
    ((List.range 4).flatMap (fun k => slotRegs k (bundleSlot b k))).any (fun r => c.busy.contains r) = false ∧
    s.ctlWaits n.val (bundleSlot b 3) = false ∧ bundleSlot b 0 = 0) ∧
  (∃ (n : Fin 256), ∃ (k : Fin 4), ∃ (s : State), ∃ (c : Core),
    AtSlot s n.val k.val c 0) ∧
  (∃ (n : Fin 256), ∃ (s : State), ∃ (c : Core), ∃ (w : Nat),
    AtSlot s n.val 3 c w ∧ opOf w = 0x18 ∧ syncForm w = 0) ∧
  (∃ (n : Fin 256), ∃ (s : State), ∃ (c : Core), ∃ (w : Nat),
    AtSlot s n.val 3 c w ∧ opOf w = 0x18 ∧ syncForm w = 1) ∧
  (∃ (n : Fin 256), ∃ (s : State), ∃ (c : Core), ∃ (w : Nat),
    AtSlot s n.val 3 c w ∧ opOf w = 0x19) ∧
  (∃ (n : Fin 256), ∃ (s : State), ∃ (c : Core), ∃ (w : Nat),
    AtSlot s n.val 3 c w ∧ opOf w ≠ 0x19) ∧
  (∃ (n : Fin 256), ∃ (s : State), ∃ (c : Core), ∃ (w : Nat),
    AtSlot s n.val 3 c w ∧ opOf w ≠ 0x18) ∧
  (∃ (n : Nat), ∃ (k : Nat), ∃ (s : State), ∃ (c : Core), ∃ (w : Nat),
    AtSlot s n k c w ∧ k < 3) :=
  ⟨
    ⟨0, runningTask 0, 0, (runningTask 0).core 0, (localWord 0 0).getD 0, by decide +kernel⟩,
    ⟨0, 2, midBundle 2 0 id, (midBundle 2 0 id).core 0, by decide +kernel⟩,
    ⟨0, midBundle 3 0x60000000 id, (midBundle 3 0x60000000 id).core 0, 0x60000000, by decide +kernel⟩,
    ⟨0, midBundle 3 0x61000000 id, (midBundle 3 0x61000000 id).core 0, 0x61000000, by decide +kernel⟩,
    ⟨0, midBundle 3 0x64040000 id, (midBundle 3 0x64040000 id).core 0, 0x64040000, by decide +kernel⟩,
    ⟨0, midBundle 3 0 id, (midBundle 3 0 id).core 0, 0, by decide +kernel⟩,
    ⟨0, midBundle 3 0 id, (midBundle 3 0 id).core 0, 0, by decide +kernel⟩,
    ⟨0, 1, midBundle 1 5 id, (midBundle 1 5 id).core 0, 5, by decide +kernel⟩⟩

/-- Clauses 5.1, 5.2, 5.3, 6.1, 6.2, 1.2 of Obligations.SlotSequencing: states that meet the hypotheses. -/
theorem witness_SlotSequencing_2 :
  (∃ (n : Nat), ∃ (s : State), ∃ (c : Core), ∃ (w : Nat),
    AtSlot s n 3 c w ∧ c.flight = [] ∧ c.stepping = false ∧ (∀ l < 3, c.la l = true → c.reg (rLE l) ≠ c.pc) ∧
    c.br = none) ∧
  (∃ (n : Nat), ∃ (s : State), ∃ (c : Core), ∃ (w : Nat), ∃ x,
    AtSlot s n 3 c w ∧ c.flight = [] ∧ c.stepping = false ∧ (∀ l < 3, c.la l = true → c.reg (rLE l) ≠ c.pc) ∧
    c.br = some x ∧ 1 < x.left) ∧
  (∃ (n : Nat), ∃ (s : State), ∃ (c : Core), ∃ (w : Nat), ∃ x,
    AtSlot s n 3 c w ∧ c.flight = [] ∧ c.stepping = false ∧ (∀ l < 3, c.la l = true → c.reg (rLE l) ≠ c.pc) ∧
    c.br = some x ∧ x.left = 1) ∧
  (∃ (n : Nat), ∃ (l : Nat), ∃ (s : State), ∃ (c : Core), ∃ (w : Nat),
    AtSlot s n 3 c w ∧ c.flight = [] ∧ c.stepping = false ∧ c.br = none ∧ c.skip = none ∧ l < 3 ∧
    c.reg (rLC l) < 2 ^ 32 ∧ c.la l = true ∧ c.reg (rLE l) = c.pc ∧
    (∀ m < l, c.la m = true → c.reg (rLE m) ≠ c.pc) ∧ 1 < c.reg (rLC l)) ∧
  (∃ (n : Nat), ∃ (l : Nat), ∃ (s : State), ∃ (c : Core), ∃ (w : Nat),
    AtSlot s n 3 c w ∧ c.flight = [] ∧ c.stepping = false ∧ c.br = none ∧ c.skip = none ∧ l < 3 ∧
    c.reg (rLC l) < 2 ^ 32 ∧ c.la l = true ∧ c.reg (rLE l) = c.pc ∧
    (∀ m < l, c.la m = true → c.reg (rLE m) ≠ c.pc) ∧ c.reg (rLC l) = 1) ∧
  (∃ (n : Fin 256), ∃ (s : State), ∃ (b : BitVec 128), ∃ (c : Core), ∃ (w : Nat),
    s.core n.val = c ∧ s.mayIssue n.val = true ∧ (s.bpDue n.val).isSome = false ∧ c.pOld = [] ∧
    localWord n.val c.pc = some w ∧ s.damageAt w = none ∧ s.poisonAt w = false ∧ s.word w = b ∧
    bundleLegal c.pc b = false) :=
  ⟨
    ⟨0, midBundle 3 5 id, (midBundle 3 5 id).core 0, 5, by decide +kernel⟩,
    ⟨0, midBundle 3 5 (fun c => { c with br := some ⟨some 64, 3, none⟩ }),
      (midBundle 3 5 (fun c => { c with br := some ⟨some 64, 3, none⟩ })).core 0, 5, ⟨some 64, 3, none⟩,
      by decide +kernel⟩,
    ⟨0, midBundle 3 5 (fun c => { c with br := some ⟨some 64, 1, some 5⟩ }),
      (midBundle 3 5 (fun c => { c with br := some ⟨some 64, 1, some 5⟩ })).core 0, 5, ⟨some 64, 1, some 5⟩,
      by decide +kernel⟩,
    ⟨0, 1, midBundle 3 5 (fun c => ((({ c with pc := 64 }).setStat 5 true).setReg (rLE 1) 64).setReg (rLC 1) 2),
      (midBundle 3 5 (fun c => ((({ c with pc := 64 }).setStat 5 true).setReg (rLE 1) 64).setReg (rLC 1) 2)).core 0,
      5, by decide +kernel⟩,
    ⟨0, 1, midBundle 3 5 (fun c => ((({ c with pc := 64 }).setStat 5 true).setReg (rLE 1) 64).setReg (rLC 1) 1),
      (midBundle 3 5 (fun c => ((({ c with pc := 64 }).setStat 5 true).setReg (rLE 1) 64).setReg (rLC 1) 1)).core 0,
      5, by decide +kernel⟩,
    ⟨0, runningTask 5, 5, (runningTask 5).core 0, (localWord 0 0).getD 0, by decide +kernel⟩⟩

/-- Clauses 1.1.1, 1.1.2, 1.1.3, 1.2.1, 1.2.2, 1.2.3, 1.3, 1.4 of Obligations.MacSlot: states that meet the
hypotheses. -/
theorem witness_MacSlot_1 :
  (∃ (n : Fin 256), ∃ (s : State), ∃ (c : Core), ∃ (w : Nat),
    AtSlot s n.val 2 c w ∧ cDual w = false ∧ opOf w = 1) ∧
  (∃ (n : Fin 256), ∃ (s : State), ∃ (c : Core), ∃ (w : Nat),
    AtSlot s n.val 2 c w ∧ cDual w = false ∧ opOf w = 2) ∧
  (∃ (n : Fin 256), ∃ (s : State), ∃ (c : Core), ∃ (w : Nat),
    AtSlot s n.val 2 c w ∧ cDual w = false ∧ opOf w = 3) ∧
  (∃ (n : Fin 256), ∃ (s : State), ∃ (c : Core), ∃ (w : Nat),
    AtSlot s n.val 2 c w ∧ cDual w = true ∧ opOf w = 1) ∧
  (∃ (n : Fin 256), ∃ (s : State), ∃ (c : Core), ∃ (w : Nat),
    AtSlot s n.val 2 c w ∧ cDual w = true ∧ opOf w = 2) ∧
  (∃ (n : Fin 256), ∃ (s : State), ∃ (c : Core), ∃ (w : Nat),
    AtSlot s n.val 2 c w ∧ cDual w = true ∧ opOf w = 3) ∧
  (∃ (n : Fin 256), ∃ (s : State), ∃ (c : Core), ∃ (w : Nat), ∃ p, ∃ v, ∃ o,
    AtSlot s n.val 2 c w ∧ opOf w = 4 ∧ c.reg (rPred (predOf w)) = p ∧
    narrow (nFmt w) (c.statBit 3) (c.statBit 2 || nS w) (nN w) (c.reg (rAcc (nC w))) p = (v, o)) ∧
  (∃ (n : Fin 256), ∃ (s : State), ∃ (c : Core), ∃ (w : Nat),
    AtSlot s n.val 2 c w ∧ opOf w = 5) :=
  ⟨
    ⟨0, midBundle 2 0x0404A000 id, (midBundle 2 0x0404A000 id).core 0, 0x0404A000, by decide +kernel⟩,
    ⟨0, midBundle 2 0x0804A800 (fun c => (c.setReg 1 0x80000000).setReg 5 0x80000000),
      (midBundle 2 0x0804A800 (fun c => (c.setReg 1 0x80000000).setReg 5 0x80000000)).core 0, 0x0804A800,
      by decide +kernel⟩,
    ⟨0, midBundle 2 0x0C04A000 (fun c => (c.setReg 1 0x80000000).setReg 5 0x80000000),
      (midBundle 2 0x0C04A000 (fun c => (c.setReg 1 0x80000000).setReg 5 0x80000000)).core 0, 0x0C04A000,
      by decide +kernel⟩,
    ⟨0, midBundle 2 0x04089000 (fun c => (c.setReg 3 0x80000000).setReg 5 0x80000000),
      (midBundle 2 0x04089000 (fun c => (c.setReg 3 0x80000000).setReg 5 0x80000000)).core 0, 0x04089000,
      by decide +kernel⟩,
    ⟨0, midBundle 2 0x08089000 id, (midBundle 2 0x08089000 id).core 0, 0x08089000, by decide +kernel⟩,
    ⟨0, midBundle 2 0x0C089800 id, (midBundle 2 0x0C089800 id).core 0, 0x0C089800, by decide +kernel⟩,
    ⟨0, midBundle 2 0x10207800 (fun c => c.setReg (rAcc 0) 0xC000),
      (midBundle 2 0x10207800 (fun c => c.setReg (rAcc 0) 0xC000)).core 0, 0x10207800, 15, 2, false,
      by decide +kernel⟩,
    ⟨0, midBundle 2 0x14440000 (fun c => c.setReg (rAcc 1) (2 ^ 300 + 5)),
      (midBundle 2 0x14440000 (fun c => c.setReg (rAcc 1) (2 ^ 300 + 5))).core 0, 0x14440000, by decide +kernel⟩⟩

/-- Clauses 1.5, 1.6, 2, 4.1, 4.2, 4.3 of Obligations.MacSlot: states that meet the hypotheses. -/
theorem witness_MacSlot_2 :
  (∃ (n : Fin 256), ∃ (s : State), ∃ (c : Core), ∃ (w : Nat),
    AtSlot s n.val 2 c w ∧ opOf w = 6) ∧
  (∃ (n : Fin 256), ∃ (s : State), ∃ (c : Core), ∃ (w : Nat),
    AtSlot s n.val 2 c w ∧ opOf w = 7) ∧
  (∃ (c : Core), ∃ (w : Nat), ∃ (l : Nat), ∃ (conj : Bool), ∃ (p : Nat), ∃ (ai : Int), ∃ (aq : Int), ∃ (bi : Int), ∃ (bq : Int), ∃ (x : Int),
    cFmt w = 0 ∧ l < 4 ∧ c.reg (rPred (predOf w)) = p ∧ ai = toSigned 16 (bitsOf (c.reg (cVa w)) (32 * l) 16) ∧
    aq = toSigned 16 (bitsOf (c.reg (cVa w)) (32 * l + 16) 16) ∧
    bi = toSigned 16 (bitsOf (c.reg (cVb w)) (32 * l) 16) ∧
    bq = toSigned 16 (bitsOf (c.reg (cVb w)) (32 * l + 16) 16) ∧ (x = (if conj then -bq else bq))) ∧
  (∃ (c : Core), ∃ (w : Nat), ∃ (l : Nat), ∃ (conj : Bool), ∃ (p : Nat), ∃ (ai : Int), ∃ (aq : Int), ∃ (bi : Int), ∃ (bq : Int), ∃ (x : Int),
    cFmt w = 0 ∧ l < 4 ∧ c.reg (rPred (predOf w)) = p ∧ ai = toSigned 16 (bitsOf (c.reg (cVa w)) (32 * l) 16) ∧
    aq = toSigned 16 (bitsOf (c.reg (cVa w)) (32 * l + 16) 16) ∧
    bi = toSigned 16 (bitsOf (c.reg (cVb w)) (32 * l) 16) ∧
    bq = toSigned 16 (bitsOf (c.reg (cVb w)) (32 * l + 16) 16) ∧ (x = (if conj then -bq else bq))) ∧
  (∃ (w : Nat), ∃ (v : Int), ∃ (x : Bool),
    0 < w ∧ -((2 ^ (w - 1) : Nat) : Int) ≤ v ∧ v < ((2 ^ (w - 1) : Nat) : Int)) ∧
  (∃ (w : Nat), ∃ (v : Int),
    0 < w ∧ ((2 ^ (w - 1) : Nat) : Int) ≤ v) ∧
  (∃ (w : Nat), ∃ (v : Int),
    0 < w ∧ v < -((2 ^ (w - 1) : Nat) : Int)) :=
  ⟨
    ⟨0, midBundle 2 0x18440000 (fun c => c.setReg 3 7), (midBundle 2 0x18440000 (fun c => c.setReg 3 7)).core 0,
      0x18440000, by decide +kernel⟩,
    ⟨0, midBundle 2 0x1C440000 (fun c => c.setReg 3 7), (midBundle 2 0x1C440000 (fun c => c.setReg 3 7)).core 0,
      0x1C440000, by decide +kernel⟩,
    ⟨((((({}:Core).setReg 1 0x8000000280000003).setReg 5 0x7FFF00018000FFFF).setReg (rAcc 0) (2^384-5)).setReg 57 0xD),
      0x0404A001, 0, true, 0xD, 3, -32768, -1, -32768, 32768, by decide +kernel⟩,
    ⟨((((({}:Core).setReg 1 0x8000000280000003).setReg 5 0x7FFF00018000FFFF).setReg (rAcc 0) (2^384-5)).setReg 57 0xD),
      0x0404A001, 1, false, 0xD, 2, -32768, 1, 32767, 32767, by decide +kernel⟩,
    ⟨16, -32768, true, by decide +kernel⟩,
    ⟨16, 32768, by decide +kernel⟩,
    ⟨16, -40000, by decide +kernel⟩⟩

/-- Clauses 1.1, 1.2, 2.1, 2.2, 3.1, 3.2, 3.3, 3.4 of Obligations.VectorSlot: states that meet the hypotheses. -/
theorem witness_VectorSlot_1 :
  (∃ (n : Fin 256), ∃ (s : State), ∃ (c : Core), ∃ (w : Nat), ∃ (p : Nat), ∃ (e : Nat), ∃ (z : Bool), ∃ r,
    AtSlot s n.val 3 c w ∧ c.reg (rPred (predOf w)) = p ∧ elemBits (bitsOf w 10 1) = e ∧
    (bitsOf w 9 1 == 1 || c.statBit 2) = z ∧ opOf w = 0x01 ∧
    lanes e z p (fun k => elem e (c.reg (vS w)) k + elem e (c.reg (vT w)) k) = r) ∧
  (∃ (n : Fin 256), ∃ (s : State), ∃ (c : Core), ∃ (w : Nat), ∃ (p : Nat), ∃ (e : Nat), ∃ (z : Bool), ∃ r,
    AtSlot s n.val 3 c w ∧ c.reg (rPred (predOf w)) = p ∧ elemBits (bitsOf w 10 1) = e ∧
    (bitsOf w 9 1 == 1 || c.statBit 2) = z ∧ opOf w = 0x02 ∧
    lanes e z p (fun k => elem e (c.reg (vS w)) k - elem e (c.reg (vT w)) k) = r) ∧
  (∃ (n : Fin 256), ∃ (s : State), ∃ (c : Core), ∃ (w : Nat), ∃ (y : Nat), ∃ (q : Bool),
    AtSlot s n.val 3 c w ∧ (aI w = true → y = ofSigned 32 (toSigned 12 (bitsOf w 5 12)) ∧
    q = c.poisoned (rA (aS w))) ∧ (aI w = false → y = c.reg (rA (aT w)) ∧
    q = (c.poisoned (rA (aS w)) || c.poisoned (rA (aT w)))) ∧ opOf w = 0x03) ∧
  (∃ (n : Fin 256), ∃ (s : State), ∃ (c : Core), ∃ (w : Nat), ∃ (y : Nat), ∃ (q : Bool),
    AtSlot s n.val 3 c w ∧ (aI w = true → y = ofSigned 32 (toSigned 12 (bitsOf w 5 12)) ∧
    q = c.poisoned (rA (aS w))) ∧ (aI w = false → y = c.reg (rA (aT w)) ∧
    q = (c.poisoned (rA (aS w)) || c.poisoned (rA (aT w)))) ∧ opOf w = 0x04) ∧
  (∃ (n : Fin 256), ∃ (s : State), ∃ (c : Core), ∃ (w : Nat), ∃ (p : Nat), ∃ (v : Nat),
    AtSlot s n.val 3 c w ∧ c.reg (rPred (predOf w)) = p ∧ c.reg (vS w) = v ∧ shfIs 0 w = true) ∧
  (∃ (n : Fin 256), ∃ (s : State), ∃ (c : Core), ∃ (w : Nat), ∃ (p : Nat), ∃ (v : Nat),
    AtSlot s n.val 3 c w ∧ c.reg (rPred (predOf w)) = p ∧ c.reg (vS w) = v ∧ shfIs 1 w = true) ∧
  (∃ (n : Fin 256), ∃ (s : State), ∃ (c : Core), ∃ (w : Nat), ∃ (p : Nat), ∃ (v : Nat),
    AtSlot s n.val 3 c w ∧ c.reg (rPred (predOf w)) = p ∧ c.reg (vS w) = v ∧ shfIs 2 w = true) ∧
  (∃ (n : Fin 256), ∃ (s : State), ∃ (c : Core), ∃ (w : Nat), ∃ (p : Nat), ∃ (v : Nat),
    AtSlot s n.val 3 c w ∧ c.reg (rPred (predOf w)) = p ∧ c.reg (vS w) = v ∧ shfIs 3 w = true) :=
  ⟨
    ⟨0, midBundle 3 0x04610A00 (fun c => (c.setReg 1 0x7FFF0003).setReg 1 0x7FFF0003),
      (midBundle 3 0x04610A00 (fun c => (c.setReg 1 0x7FFF0003).setReg 1 0x7FFF0003)).core 0, 0x04610A00, 15, 16,
      true, (0x7FFF0006, true), by decide +kernel⟩,
    ⟨0, midBundle 3 0x08611400 (fun c => (c.setReg 1 0x7FFF0003).setReg 2 0x80000004),
      (midBundle 3 0x08611400 (fun c => (c.setReg 1 0x7FFF0003).setReg 2 0x80000004)).core 0, 0x08611400, 15, 32,
      false, (0xFFFEFFFF, false), by decide +kernel⟩,
    ⟨0, midBundle 3 0x0C4BFFE0 (fun c => (c.setReg (rA 2) 0)),
      (midBundle 3 0x0C4BFFE0 (fun c => (c.setReg (rA 2) 0))).core 0, 0x0C4BFFE0, 0xFFFFFFFF, false,
      by decide +kernel⟩,
    ⟨0, midBundle 3 0x10482000 (fun c => (c.setReg (rA 1) 7)),
      (midBundle 3 0x10482000 (fun c => (c.setReg (rA 1) 7))).core 0, 0x10482000, 7, false, by decide +kernel⟩,
    ⟨0, midBundle 3 0x14410361 (fun c => ((c.setReg 1 0x7FFF0003).setReg 57 5)),
      (midBundle 3 0x14410361 (fun c => ((c.setReg 1 0x7FFF0003).setReg 57 5))).core 0, 0x14410361, 5, 0x7FFF0003,
      by decide +kernel⟩,
    ⟨0, midBundle 3 0x14414060 (fun c => ((c.setReg 1 0x7FFF0003).setReg 57 5)),
      (midBundle 3 0x14414060 (fun c => ((c.setReg 1 0x7FFF0003).setReg 57 5))).core 0, 0x14414060, 15,
      0x7FFF0003, by decide +kernel⟩,
    ⟨0, midBundle 3 0x1441A060 (fun c => ((c.setReg 1 0x7FFF0003).setReg 57 5)),
      (midBundle 3 0x1441A060 (fun c => ((c.setReg 1 0x7FFF0003).setReg 57 5))).core 0, 0x1441A060, 15,
      0x7FFF0003, by decide +kernel⟩,
    ⟨0, midBundle 3 0x1441C060 (fun c => ((c.setReg 1 0x8FFF0003).setReg 57 5)),
      (midBundle 3 0x1441C060 (fun c => ((c.setReg 1 0x8FFF0003).setReg 57 5))).core 0, 0x1441C060, 15,
      0x8FFF0003, by decide +kernel⟩⟩

/-- Clauses 4, 5, 6, 7.1, 7.2, 7.3, 7.4, 7.5 of Obligations.VectorSlot: states that meet the hypotheses. -/
theorem witness_VectorSlot_2 :
  (∃ (n : Fin 256), ∃ (s : State), ∃ (c : Core), ∃ (w : Nat), ∃ (p : Nat), ∃ (e : Nat), ∃ (z : Bool), ∃ (x : Nat), ∃ (y : Nat), ∃ (r : Nat × Bool), ∃ (q : Nat × Bool),
    AtSlot s n.val 3 c w ∧ opOf w = 0x06 ∧ c.reg (rPred (predOf w)) = p ∧ elemBits (bitsOf w 10 1) = e ∧
    (bitsOf w 8 1 == 1 || c.statBit 2) = z ∧ c.reg (vS w) = x ∧ c.reg (vT w) = y ∧ bitsOf w 9 1 = 0 ∧
    fitAll e z (128 / e) (fun k => sampleOn (bitsOf w 10 1) p (k / 2)) (fun k => elem e x k + elem e y k) = r ∧
    fitAll e z (128 / e) (fun k => sampleOn (bitsOf w 10 1) p (k / 2)) (fun k => elem e x k - elem e y k) = q) ∧
  (∃ (n : Fin 256), ∃ (s : State), ∃ (c : Core), ∃ (w : Nat), ∃ (p : Nat), ∃ (e : Nat), ∃ (z : Bool), ∃ (x : Nat), ∃ (y : Nat), ∃ (r : Nat × Bool), ∃ (q : Nat × Bool),
    AtSlot s n.val 3 c w ∧ opOf w = 0x06 ∧ c.reg (rPred (predOf w)) = p ∧ elemBits (bitsOf w 10 1) = e ∧
    (bitsOf w 8 1 == 1 || c.statBit 2) = z ∧ c.reg (vS w) = x ∧ c.reg (vT w) = y ∧ bitsOf w 9 1 = 1 ∧
    fitAll e z (128 / e) (fun k => sampleOn (bitsOf w 10 1) p (k / 2)) (fun k => roundShift (c.statBit 3) (elem e x k + elem e y k) 1) = r ∧
    fitAll e z (128 / e) (fun k => sampleOn (bitsOf w 10 1) p (k / 2)) (fun k => roundShift (c.statBit 3) (elem e x k - elem e y k) 1) = q) ∧
  (∃ (n : Fin 256), ∃ (s : State), ∃ (c : Core), ∃ (w : Nat), ∃ (p : Nat), ∃ (e : Nat), ∃ (v : Nat), ∃ (o : Bool),
    AtSlot s n.val 3 c w ∧ opOf w = 0x07 ∧ c.reg (rPred (predOf w)) = p ∧ elemBits (satE w) = e ∧
    (lanes e false p (fun k => max (-((2 ^ satW w : Nat) : Int)) (min (((2 ^ satW w : Nat) : Int) - 1) (elem e (c.reg (vS w)) k)))).1 = v ∧
    (o = (List.range (128 / e)).any (fun k => elemOn e p k && decide ( elem e (c.reg (vS w)) k < -((2 ^ satW w : Nat) : Int) ∨ ((2 ^ satW w : Nat) : Int) ≤ elem e (c.reg (vS w)) k)))) ∧
  (∃ (n : Fin 256), ∃ (s : State), ∃ (c : Core), ∃ (w : Nat),
    AtSlot s n.val 3 c w ∧ opOf w = 0x09 ∧ bitsOf w 21 1 = 0) ∧
  (∃ (n : Fin 256), ∃ (s : State), ∃ (c : Core), ∃ (w : Nat),
    AtSlot s n.val 3 c w ∧ opOf w = 0x09 ∧ bitsOf w 21 1 = 1) ∧
  (∃ (n : Fin 256), ∃ (s : State), ∃ (c : Core), ∃ (w : Nat),
    AtSlot s n.val 3 c w ∧ opOf w = 0x08 ∧ (∀ l < 3, c.la l = true → movDst w ≠ rLS l ∧ movDst w ≠ rLE l) ∧
    (c.poisoned (movSrc w) = true → regHasPoison (movDst w) = true) ∧ movDst w ≠ rStat ∧ movDst w ≠ rPred 0) ∧
  (∃ (n : Fin 256), ∃ (s : State), ∃ (c : Core), ∃ (w : Nat),
    AtSlot s n.val 3 c w ∧ opOf w = 0x08 ∧ c.poisoned (movSrc w) = false ∧ movDst w = rStat) ∧
  (∃ (n : Fin 256), ∃ (s : State), ∃ (c : Core), ∃ (w : Nat),
    AtSlot s n.val 3 c w ∧ opOf w = 0x08 ∧ c.poisoned (movSrc w) = false ∧ movDst w = rPred 0) :=
  ⟨
    ⟨0, midBundle 3 0x18411000 (fun c => ((c.setReg 1 5).setReg 2 3)),
      (midBundle 3 0x18411000 (fun c => ((c.setReg 1 5).setReg 2 3))).core 0, 0x18411000, 15, 16, false, 5, 3, (8,
      false), (2, false), by decide +kernel⟩,
    ⟨0, midBundle 3 0x18411200 (fun c => ((c.setReg 1 5).setReg 2 2)),
      (midBundle 3 0x18411200 (fun c => ((c.setReg 1 5).setReg 2 2))).core 0, 0x18411200, 15, 16, false, 5, 2, (4,
      false), (2, false), by decide +kernel⟩,
    ⟨0, midBundle 3 0x1C411C00 (fun c => ((c.setReg 1 500).setReg 2 2)),
      (midBundle 3 0x1C411C00 (fun c => ((c.setReg 1 500).setReg 2 2))).core 0, 0x1C411C00, 15, 16, 127, true,
      by decide +kernel⟩,
    ⟨0, midBundle 3 0x24500000 id, (midBundle 3 0x24500000 id).core 0, 0x24500000, by decide +kernel⟩,
    ⟨0, midBundle 3 0x24700020 (fun c => c.setReg (rA 1) 0x12345678),
      (midBundle 3 0x24700020 (fun c => c.setReg (rA 1) 0x12345678)).core 0, 0x24700020, by decide +kernel⟩,
    ⟨0, midBundle 3 0x20848000 (fun c => (c.setReg 0x20 0x12345678)),
      (midBundle 3 0x20848000 (fun c => (c.setReg 0x20 0x12345678))).core 0, 0x20848000, by decide +kernel⟩,
    ⟨0, midBundle 3 0x21408000 (fun c => ((c.setReg 0x20 0x12345678).setStat 5 true)),
      (midBundle 3 0x21408000 (fun c => ((c.setReg 0x20 0x12345678).setStat 5 true))).core 0, 0x21408000,
      by decide +kernel⟩,
    ⟨0, midBundle 3 0x20E08000 (fun c => ((c.setReg 0x20 0x12345678).setStat 5 true)),
      (midBundle 3 0x20E08000 (fun c => ((c.setReg 0x20 0x12345678).setStat 5 true))).core 0, 0x20E08000,
      by decide +kernel⟩⟩

/-- Clauses 7.6, 7.7, 8 of Obligations.VectorSlot: states that meet the hypotheses. -/
theorem witness_VectorSlot_3 :
  (∃ (n : Fin 256), ∃ (s : State), ∃ (c : Core), ∃ (w : Nat),
    AtSlot s n.val 3 c w ∧ opOf w = 0x08 ∧ (∃ l < 3, c.la l = true ∧ (movDst w = rLS l ∨ movDst w = rLE l))) ∧
  (∃ (n : Fin 256), ∃ (s : State), ∃ (c : Core), ∃ (w : Nat),
    AtSlot s n.val 3 c w ∧ opOf w = 0x08 ∧ (∀ l < 3, c.la l = true → movDst w ≠ rLS l ∧ movDst w ≠ rLE l) ∧
    c.poisoned (movSrc w) = true ∧ regHasPoison (movDst w) = false) ∧
  (∃ (e : Nat), ∃ (p : Nat), ∃ (k : Nat), ∃ (z : Bool), ∃ (f : Nat → Int),
    (e = 16 ∨ e = 32) ∧ k < 128 / e ∧ elemOn e p k = true) :=
  ⟨
    ⟨0, midBundle 3 0x21148000 (fun c => ((c.setReg 0x20 0x12345678).setStat 5 true)),
      (midBundle 3 0x21148000 (fun c => ((c.setReg 0x20 0x12345678).setStat 5 true))).core 0, 0x21148000,
      by decide +kernel⟩,
    ⟨0, midBundle 3 0x21408000 (fun c => ((c.setReg 0x20 0x12345678).setPoison 0x20 true)),
      (midBundle 3 0x21408000 (fun c => ((c.setReg 0x20 0x12345678).setPoison 0x20 true))).core 0, 0x21408000,
      by decide +kernel⟩,
    ⟨16, 15, 7, true, fun k => k * 10000, by decide +kernel⟩⟩

/-- Clauses 1.1, 1.2, 1.3, 1.7, 1.8, 1.9, 3.1, 3.2 of Obligations.MemorySlots: states that meet the hypotheses. -/
theorem witness_MemorySlots_1 :
  (∃ (n : Fin 256), ∃ (s : State), ∃ (c : Core), ∃ (w : Nat), ∃ (a : Nat), ∃ (k : Nat),
    Unwatched s n.val ∧ mAddr c w = a ∧ c.poisoned (rA (mAb w)) = false ∧
    (localWord n.val (a - a % (if mSz w = 1 then 4 else 16)) = some k) ∧ AtSlot s n.val 0 c w ∧ opOf w = 1 ∧
    (a < 0x10000 ∨ 0x100000 ≤ a ∧ a < 0x120000) ∧ s.damageAt k = none) ∧
  (∃ (n : Fin 256), ∃ (s : State), ∃ (c : Core), ∃ (w : Nat), ∃ (a : Nat), ∃ (k : Nat),
    Unwatched s n.val ∧ mAddr c w = a ∧ c.poisoned (rA (mAb w)) = false ∧
    (localWord n.val (a - a % (if mSz w = 1 then 4 else 16)) = some k) ∧ AtSlot s n.val 1 c w ∧ opOf w = 1 ∧
    0x200000 ≤ a ∧ a < 0x220000 ∧ s.damageAt k = none) ∧
  (∃ (n : Fin 256), ∃ (s : State), ∃ (c : Core), ∃ (w : Nat), ∃ (a : Nat), ∃ (k : Nat),
    Unwatched s n.val ∧ mAddr c w = a ∧ c.poisoned (rA (mAb w)) = false ∧
    (localWord n.val (a - a % (if mSz w = 1 then 4 else 16)) = some k) ∧ AtSlot s n.val 0 c w ∧ opOf w = 1 ∧
    0x1000000 ≤ a ∧ a < 0x1200000 ∧ s.damageAt k = none) ∧
  (∃ (n : Fin 256), ∃ (s : State), ∃ (c : Core), ∃ (w : Nat), ∃ (a : Nat), ∃ (k : Nat),
    Unwatched s n.val ∧ mAddr c w = a ∧ c.poisoned (rA (mAb w)) = false ∧
    (localWord n.val (a - a % (if mSz w = 1 then 4 else 16)) = some k) ∧ AtSlot s n.val 0 c w ∧ opOf w = 2 ∧
    0x100000 ≤ a ∧ a < 0x120000 ∧ (storeData c w a).1 ≠ 0) ∧
  (∃ (n : Fin 256), ∃ (s : State), ∃ (c : Core), ∃ (w : Nat), ∃ (a : Nat), ∃ (k : Nat),
    Unwatched s n.val ∧ mAddr c w = a ∧ c.poisoned (rA (mAb w)) = false ∧
    (localWord n.val (a - a % (if mSz w = 1 then 4 else 16)) = some k) ∧ AtSlot s n.val 0 c w ∧ opOf w = 2 ∧
    a < 0x10000 ∧ (storeData c w a).1 ≠ 0) ∧
  (∃ (n : Fin 256), ∃ (s : State), ∃ (c : Core), ∃ (w : Nat), ∃ (a : Nat), ∃ (k : Nat),
    Unwatched s n.val ∧ mAddr c w = a ∧ c.poisoned (rA (mAb w)) = false ∧
    (localWord n.val (a - a % (if mSz w = 1 then 4 else 16)) = some k) ∧ AtSlot s n.val 1 c w ∧ opOf w = 2 ∧
    0x200000 ≤ a ∧ a < 0x220000 ∧ (storeData c w a).1 ≠ 0) ∧
  (∃ (c : Core), ∃ (w : Nat), ∃ (a : Nat),
    mSz w = 1) ∧
  (∃ (c : Core), ∃ (w : Nat), ∃ (a : Nat),
    mSz w ≠ 1) :=
  ⟨
    ⟨0, midBundle 0 0x04643010 (fun c => c.setReg (rA 2) 0x100010),
      (midBundle 0 0x04643010 (fun c => c.setReg (rA 2) 0x100010)).core 0, 0x04643010, 0x100010,
      (baseCore + 0x40010) / 16, by decide +kernel⟩,
    ⟨0, midBundle 1 0x04643010 (fun c => c.setReg (rA 2) 0x200010),
      (midBundle 1 0x04643010 (fun c => c.setReg (rA 2) 0x200010)).core 0, 0x04643010, 0x200010,
      (baseCore + 0x80010) / 16, by decide +kernel⟩,
    ⟨0, midBundle 0 0x04643018 (fun c => c.setReg (rA 2) 0x1000014),
      (midBundle 0 0x04643018 (fun c => c.setReg (rA 2) 0x1000014)).core 0, 0x04643018, 0x1000014,
      (baseScratch + 0x10) / 16, by decide +kernel⟩,
    ⟨0, midBundle 0 0x08643010 (fun c => (c.setReg (rA 2) 0x100010).setReg 3 77),
      (midBundle 0 0x08643010 (fun c => (c.setReg (rA 2) 0x100010).setReg 3 77)).core 0, 0x08643010, 0x100010,
      (baseCore + 0x40010) / 16, by decide +kernel⟩,
    ⟨0, midBundle 0 0x08643010 (fun c => (c.setReg (rA 2) 0x10).setReg 3 77),
      (midBundle 0 0x08643010 (fun c => (c.setReg (rA 2) 0x10).setReg 3 77)).core 0, 0x08643010, 0x10,
      (baseCore + 0x10) / 16, by decide +kernel⟩,
    ⟨0, midBundle 1 0x08643018 (fun c => (c.setReg (rA 2) 0x200014).setReg (rA 3) 77),
      (midBundle 1 0x08643018 (fun c => (c.setReg (rA 2) 0x200014).setReg (rA 3) 77)).core 0, 0x08643018,
      0x200014, (baseCore + 0x80010) / 16, by decide +kernel⟩,
    ⟨({}:Core).setReg (rA 3) 77, 0x08643018, 0x200014, by decide +kernel⟩,
    ⟨(({}:Core).setReg 3 77).setReg 57 5, 0x08643011, 0x200014, by decide +kernel⟩⟩

/-- Clauses 4.1, 4.2, 4.3, 4.4, 5.1, 5.2, 5.3 of Obligations.MemorySlots: states that meet the hypotheses. -/
theorem witness_MemorySlots_2 :
  (∃ (s : State), ∃ (n : Nat), ∃ (slot : Nat), ∃ (w : Nat), ∃ (c : Core),
    (s.core n).slot ≠ 0 ∧ mMode w = 0) ∧
  (∃ (s : State), ∃ (n : Nat), ∃ (slot : Nat), ∃ (w : Nat), ∃ (c : Core),
    (s.core n).slot ≠ 0 ∧ mMode w = 2) ∧
  (∃ (s : State), ∃ (n : Nat), ∃ (slot : Nat), ∃ (w : Nat), ∃ (c : Core),
    (s.core n).slot ≠ 0 ∧ mMode w = 3) ∧
  (∃ (s : State), ∃ (n : Nat), ∃ (slot : Nat), ∃ (w : Nat), ∃ (c : Core), ∃ t, ∃ v,
    (s.core n).slot ≠ 0 ∧ mMode w = 1 ∧ s.modify (c.reg (rA (mAb w))) (c.reg (rM (mMod w))) (mInc w * 16) = (t, v)) ∧
  (∃ (s : State), ∃ (a : Nat), ∃ (m : Nat), ∃ (inc : Int),
    bitsOf m 0 20 = 0 ∧ bitsOf m 20 4 = 0) ∧
  (∃ (s : State), ∃ (a : Nat), ∃ (m : Nat), ∃ (inc : Int), ∃ k,
    bitsOf m 20 4 = 0 ∧ 0 < bitsOf m 0 20 ∧ bitsOf m 0 20 % 16 = 0 ∧ inc.natAbs ≤ bitsOf m 0 20 ∧
    bitsOf m 0 20 ≤ 2 ^ k ∧ 2 ^ k < 2 * bitsOf m 0 20) ∧
  (∃ (s : State), ∃ (a : Nat), ∃ (m : Nat), ∃ (inc : Int), ∃ k,
    bitsOf m 20 4 = 0 ∧ 0 < bitsOf m 0 20 ∧ bitsOf m 0 20 % 16 = 0 ∧ inc.natAbs ≤ bitsOf m 0 20 ∧
    bitsOf m 0 20 ≤ 2 ^ k ∧ 2 ^ k < 2 * bitsOf m 0 20) ∧
  (∃ (s : State), ∃ (a : Nat), ∃ (m : Nat), ∃ (inc : Int), ∃ b, ∃ v,
    bitsOf m 20 4 = b ∧ 0 < b ∧ b ≤ 12 ∧ (s.modify a m inc).2 = v) :=
  ⟨
    ⟨midBundle 0 0 id, 0, 0, 0x08640018, ({}:Core).setReg (rA 2) 0, by decide +kernel⟩,
    ⟨midBundle 0 0 id, 0, 0, 0x08642FF8, ({}:Core).setReg (rA 2) 0, by decide +kernel⟩,
    ⟨midBundle 0 0 id, 0, 1, 0x08643FF0, ({}:Core).setReg (rA 2) 0, by decide +kernel⟩,
    ⟨midBundle 0 0 id, 0, 1, 0x08645010, (({}:Core).setReg (rA 2) 0x100400).setReg (rM 1) 0x300000,
      midBundle 0 0 id, 0x100440, by decide +kernel⟩,
    ⟨r0, 0x100AF0, 0, -16, by decide +kernel⟩,
    ⟨r0, 0x100AF0, 0x300, 32, 10, by decide +kernel⟩,
    ⟨r0, 0x100AF0, 0x300, -768, 10, by decide +kernel⟩,
    ⟨r0, 0x100460, 0x300000, 16, 3, 0x100410, by decide +kernel⟩⟩

/-- Clauses 5.3, 6.1, 6.2, 6.3, 7.1, 7.2, 7.3, 7.4 of Obligations.MemorySlots: states that meet the hypotheses. -/
theorem witness_MemorySlots_3 :
  (∃ (s : State), ∃ (a : Nat), ∃ (m : Nat), ∃ (inc : Int), ∃ b, ∃ v,
    bitsOf m 20 4 = b ∧ 0 < b ∧ b ≤ 12 ∧ (s.modify a m inc).2 = v) ∧
  (∃ (n : Fin 256), ∃ (s : State), ∃ (c : Core), ∃ (w : Nat), ∃ (a : Nat), ∃ (k : Nat), ∃ (i : Nat),
    AtSlot s n.val 0 c w ∧ Unwatched s n.val ∧ (localOf (a - a % (if mSz w = 1 then 4 else 16)) = .window k) ∧
    i = winKey n.val k ∧ s.isSet F.TC_WIN_CTRL.EN i = true ∧ opOf w = 3 ∧ mAddr c w = a ∧
    c.poisoned (rA (mAb w)) = false) ∧
  (∃ (n : Fin 256), ∃ (s : State), ∃ (c : Core), ∃ (w : Nat), ∃ (a : Nat), ∃ (k : Nat), ∃ (i : Nat),
    AtSlot s n.val 0 c w ∧ Unwatched s n.val ∧ (localOf (a - a % (if mSz w = 1 then 4 else 16)) = .window k) ∧
    i = winKey n.val k ∧ s.isSet F.TC_WIN_CTRL.EN i = true ∧ opOf w = 4 ∧ mAddr c w = a ∧
    c.poisoned (rA (mAb w)) = false ∧ s.isSet F.TC_WIN_CTRL.POSTED i = true) ∧
  (∃ (n : Fin 256), ∃ (s : State), ∃ (c : Core), ∃ (w : Nat), ∃ (a : Nat), ∃ (k : Nat), ∃ (i : Nat),
    AtSlot s n.val 0 c w ∧ Unwatched s n.val ∧ (localOf (a - a % (if mSz w = 1 then 4 else 16)) = .window k) ∧
    i = winKey n.val k ∧ s.isSet F.TC_WIN_CTRL.EN i = true ∧ opOf w = 4 ∧ mAddr c w = a ∧
    c.poisoned (rA (mAb w)) = false ∧ s.isSet F.TC_WIN_CTRL.POSTED i = false) ∧
  (∃ (n : Fin 256), ∃ (s : State), ∃ (c : Core), ∃ (w : Nat), ∃ (a : Nat), ∃ (k : Nat), ∃ (i : Nat),
    AtSlot s n.val 0 c w ∧ opOf w = 5 ∧ Unwatched s n.val ∧ c.reg (rA (atAb w)) = a ∧
    c.poisoned (rA (atAb w)) = false ∧ atForm w = 0 ∧ localOf a = .window k ∧ i = winKey n.val k ∧
    s.isSet F.TC_WIN_CTRL.EN i = true) ∧
  (∃ (n : Fin 256), ∃ (s : State), ∃ (c : Core), ∃ (w : Nat), ∃ (a : Nat), ∃ (k : Nat), ∃ (i : Nat),
    AtSlot s n.val 0 c w ∧ opOf w = 5 ∧ Unwatched s n.val ∧ c.reg (rA (atAb w)) = a ∧
    c.poisoned (rA (atAb w)) = false ∧ atForm w = 1 ∧ 0x1000000 ≤ a ∧ a < 0x1200000 ∧
    localWord n.val (a - a % 16) = some k ∧ s.damageAt k = none) ∧
  (∃ (n : Fin 256), ∃ (s : State), ∃ (c : Core), ∃ (w : Nat), ∃ (a : Nat), ∃ (k : Nat), ∃ (i : Nat),
    AtSlot s n.val 0 c w ∧ opOf w = 5 ∧ Unwatched s n.val ∧ c.reg (rA (atAb w)) = a ∧
    c.poisoned (rA (atAb w)) = false ∧ atForm w = 2 ∧ 0x1000000 ≤ a ∧ a < 0x1200000 ∧
    localWord n.val (a - a % 16) = some k ∧ s.resv.get 0 n.val ≠ k + 1) ∧
  (∃ (n : Fin 256), ∃ (s : State), ∃ (c : Core), ∃ (w : Nat), ∃ (a : Nat), ∃ (k : Nat), ∃ (i : Nat),
    AtSlot s n.val 0 c w ∧ opOf w = 5 ∧ Unwatched s n.val ∧ c.reg (rA (atAb w)) = a ∧
    c.poisoned (rA (atAb w)) = false ∧ atForm w = 2 ∧ 0x1000000 ≤ a ∧ a < 0x1200000 ∧
    localWord n.val (a - a % 16) = some k ∧ s.resv.get 0 n.val = k + 1 ∧ s.damageAt k = none) :=
  ⟨
    ⟨r0, 0x100467, 0x300000, -32, 3, 0x100447, by decide +kernel⟩,
    ⟨0, (midBundle 0 0x0C643018 (fun c => c.setReg (rA 2) 0x40000014)).setReg R.TC_WIN_CTRL 0 1,
      ((midBundle 0 0x0C643018 (fun c => c.setReg (rA 2) 0x40000014)).setReg R.TC_WIN_CTRL 0 1).core 0,
      0x0C643018, 0x40000014, 0, 0, by decide +kernel⟩,
    ⟨0,
      (midBundle 0 0x10643010 (fun c => c.setReg (rA 2) 0x40000014)).setReg R.TC_WIN_CTRL 0 (1 + 2 ^ F.TC_WIN_CTRL.POSTED.lo),
      ((midBundle 0 0x10643010 (fun c => c.setReg (rA 2) 0x40000014)).setReg R.TC_WIN_CTRL 0 (1 + 2 ^ F.TC_WIN_CTRL.POSTED.lo)).core 0,
      0x10643010, 0x40000014, 0, 0, by decide +kernel⟩,
    ⟨0, (midBundle 0 0x10643010 (fun c => c.setReg (rA 2) 0x50000014)).setReg R.TC_WIN_CTRL 1 1,
      ((midBundle 0 0x10643010 (fun c => c.setReg (rA 2) 0x50000014)).setReg R.TC_WIN_CTRL 1 1).core 0,
      0x10643010, 0x50000014, 1, 1, by decide +kernel⟩,
    ⟨0, (midBundle 0 0x14188800 (fun c => c.setReg (rA 2) 0x40000010)).setReg R.TC_WIN_CTRL 0 1,
      ((midBundle 0 0x14188800 (fun c => c.setReg (rA 2) 0x40000010)).setReg R.TC_WIN_CTRL 0 1).core 0,
      0x14188800, 0x40000010, 0, 0, by decide +kernel⟩,
    ⟨0, midBundle 0 0x15180800 (fun c => c.setReg (rA 2) 0x1000014),
      (midBundle 0 0x15180800 (fun c => c.setReg (rA 2) 0x1000014)).core 0, 0x15180800, 0x1000014,
      (baseScratch + 0x10) / 16, 0, by decide +kernel⟩,
    ⟨0, midBundle 0 0x16188800 (fun c => c.setReg (rA 2) 0x1000014),
      (midBundle 0 0x16188800 (fun c => c.setReg (rA 2) 0x1000014)).core 0, 0x16188800, 0x1000014,
      (baseScratch + 0x10) / 16, 0, by decide +kernel⟩,
    ⟨0,
      { midBundle 0 0x16188800 (fun c => c.setReg (rA 2) 0x1000014) with resv := [(0, (baseScratch + 0x10) / 16 + 1)] },
      (midBundle 0 0x16188800 (fun c => c.setReg (rA 2) 0x1000014)).core 0, 0x16188800, 0x1000014,
      (baseScratch + 0x10) / 16, 0, by decide +kernel⟩⟩

/-- Clauses 8.1, 8.2, 8.3, 8.4, 8.5, 8.6, 10.1, 10.2 of Obligations.MemorySlots: states that meet the hypotheses. -/
theorem witness_MemorySlots_4 :
  (∃ (n : Fin 256), ∃ (s : State), ∃ (c : Core), ∃ (w : Nat),
    c.poisoned (rA (mAb w)) = true ∧ AtSlot s n.val 0 c w ∧ opOf w = 1) ∧
  (∃ (n : Fin 256), ∃ (s : State), ∃ (c : Core), ∃ (w : Nat),
    c.poisoned (rA (mAb w)) = true ∧ AtSlot s n.val 0 c w ∧ opOf w = 2) ∧
  (∃ (n : Fin 256), ∃ (s : State), ∃ (c : Core), ∃ (w : Nat),
    c.poisoned (rA (mAb w)) = true ∧ AtSlot s n.val 0 c w ∧ opOf w = 3) ∧
  (∃ (n : Fin 256), ∃ (s : State), ∃ (c : Core), ∃ (w : Nat),
    c.poisoned (rA (mAb w)) = true ∧ AtSlot s n.val 0 c w ∧ opOf w = 4) ∧
  (∃ (n : Fin 256), ∃ (s : State), ∃ (c : Core), ∃ (w : Nat),
    c.poisoned (rA (mAb w)) = true ∧ AtSlot s n.val 1 c w ∧ opOf w = 1) ∧
  (∃ (n : Fin 256), ∃ (s : State), ∃ (c : Core), ∃ (w : Nat),
    c.poisoned (rA (mAb w)) = true ∧ AtSlot s n.val 1 c w ∧ opOf w = 2) ∧
  (∃ (n : Fin 256), ∃ (k : Fin 64), ∃ (s : State), ∃ (c : Core), ∃ (r : Nat), ∃ (lane : Option Nat), ∃ (x : Access),
    s.core n.val = c ∧ c.slot = 0 ∧ c.accesses[k.val]? = some x ∧ x.kind = .load r lane ∧ x.tag = none ∧
    x.unit.poison = false) ∧
  (∃ (n : Fin 256), ∃ (k : Fin 64), ∃ (s : State), ∃ (c : Core), ∃ (r : Nat), ∃ (lane : Option Nat), ∃ (x : Access), ∃ tag, ∃ p,
    s.core n.val = c ∧ c.slot = 0 ∧ c.accesses[k.val]? = some x ∧ x.kind = .load r lane ∧ x.tag = some tag ∧
    s.net.packets.find? (fun p => p.dest.toNat == epCore n.val && decide (8 ≤ p.cmd.toNat) && p.tag == tag && s.arrives p) = some p) :=
  ⟨
    ⟨0, midBundle 0 0x04643010 (fun c => c.setPoison (rA 2) true),
      (midBundle 0 0x04643010 (fun c => c.setPoison (rA 2) true)).core 0, 0x04643010, by decide +kernel⟩,
    ⟨0, midBundle 0 0x08643010 (fun c => c.setPoison (rA 2) true),
      (midBundle 0 0x08643010 (fun c => c.setPoison (rA 2) true)).core 0, 0x08643010, by decide +kernel⟩,
    ⟨0, midBundle 0 0x0C643010 (fun c => c.setPoison (rA 2) true),
      (midBundle 0 0x0C643010 (fun c => c.setPoison (rA 2) true)).core 0, 0x0C643010, by decide +kernel⟩,
    ⟨0, midBundle 0 0x10643010 (fun c => c.setPoison (rA 2) true),
      (midBundle 0 0x10643010 (fun c => c.setPoison (rA 2) true)).core 0, 0x10643010, by decide +kernel⟩,
    ⟨0, midBundle 1 0x04643010 (fun c => c.setPoison (rA 2) true),
      (midBundle 1 0x04643010 (fun c => c.setPoison (rA 2) true)).core 0, 0x04643010, by decide +kernel⟩,
    ⟨0, midBundle 1 0x08643010 (fun c => c.setPoison (rA 2) true),
      (midBundle 1 0x08643010 (fun c => c.setPoison (rA 2) true)).core 0, 0x08643010, by decide +kernel⟩,
    ⟨0, 0,
      r0.setCore 0 { accesses := [{ kind := .load 3 (some 1), addr := 0, tag := none, unit := ⟨0x700000000, false⟩ }] },
      (r0.setCore 0 { accesses := [{ kind := .load 3 (some 1), addr := 0, tag := none, unit := ⟨0x700000000, false⟩ }] }).core 0,
      3, some 1, { kind := .load 3 (some 1), addr := 0, tag := none, unit := ⟨0x700000000, false⟩ },
      by decide +kernel⟩,
    ⟨0, 0,
      inFlight (r0.setCore 0 { accesses := [{ kind := .load 3 (some 1), addr := 0, tag := some 9 }] }) { cmd := 8, dest := 0, tag := 9, data := [⟨0x700000000, false⟩] },
      (r0.setCore 0 { accesses := [{ kind := .load 3 (some 1), addr := 0, tag := some 9 }] }).core 0, 3, some 1,
      { kind := .load 3 (some 1), addr := 0, tag := some 9 }, 9,
      { cmd := 8, dest := 0, tag := 9, data := [⟨0x700000000, false⟩] }, by decide +kernel⟩⟩

/-- Clauses 11.1, 11.2, 1.4, 1.10, 2.1, 2.2, 9.1.1, 9.1.2 of Obligations.MemorySlots: states that meet the
hypotheses. -/
theorem witness_MemorySlots_5 :
  (∃ (n : Nat), ∃ (r : Nat), ∃ (lane : Option Nat), ∃ (s : State), ∃ (c : Core), ∃ (x : Access), ∃ (p : Packet),
    s.core n = c ∧ c.accesses.find? (fun a => a.tag == some p.tag) = some x ∧ x.kind = .load r lane ∧
    p.cmd.toNat = cmdErrorRsp) ∧
  (∃ (n : Nat), ∃ (r : Nat), ∃ (lane : Option Nat), ∃ (s : State), ∃ (c : Core), ∃ (x : Access), ∃ (p : Packet), ∃ d,
    s.core n = c ∧ c.accesses.find? (fun a => a.tag == some p.tag) = some x ∧ x.kind = .load r lane ∧
    p.cmd.toNat ≠ cmdErrorRsp ∧ p.data = [⟨d, false⟩]) ∧
  (∃ (n : Fin 256), ∃ (s : State), ∃ (c : Core), ∃ (w : Nat), ∃ (a : Nat), ∃ (k : Nat),
    Unwatched s n.val ∧ mAddr c w = a ∧ c.poisoned (rA (mAb w)) = false ∧
    (localWord n.val (a - a % (if mSz w = 1 then 4 else 16)) = some k) ∧ AtSlot s n.val 1 c w ∧ opOf w = 1 ∧
    0x1000000 ≤ a ∧ a < 0x1200000 ∧ s.damageAt k = none) ∧
  (∃ (n : Fin 256), ∃ (s : State), ∃ (c : Core), ∃ (w : Nat), ∃ (a : Nat), ∃ (k : Nat),
    Unwatched s n.val ∧ mAddr c w = a ∧ c.poisoned (rA (mAb w)) = false ∧
    (localWord n.val (a - a % (if mSz w = 1 then 4 else 16)) = some k) ∧ AtSlot s n.val 0 c w ∧ opOf w = 2 ∧
    (a < 0x10000 ∨ 0x100000 ≤ a ∧ a < 0x120000 ∨ 0x1000000 ≤ a ∧ a < 0x1200000) ∧ (storeData c w a).1 = 0) ∧
  (∃ (n : Fin 256), ∃ (s : State), ∃ (c : Core), ∃ (w : Nat), ∃ (a : Nat),
    Unwatched s n.val ∧ mAddr c w = a ∧ c.poisoned (rA (mAb w)) = false ∧ AtSlot s n.val 0 c w ∧ 0x300000 ≤ a ∧
    a < 0x300200 ∧ mSz w = 1 ∧ opOf w = 1) ∧
  (∃ (n : Fin 256), ∃ (s : State), ∃ (c : Core), ∃ (w : Nat), ∃ (a : Nat),
    Unwatched s n.val ∧ mAddr c w = a ∧ c.poisoned (rA (mAb w)) = false ∧ AtSlot s n.val 0 c w ∧ 0x300000 ≤ a ∧
    a < 0x300200 ∧ mSz w = 1 ∧ opOf w = 2) ∧
  (∃ (n : Fin 256), ∃ (s : State), ∃ (c : Core), ∃ (w : Nat), ∃ (a : Nat),
    c.poisoned (rA (mAb w)) = false ∧ mAddr c w = a ∧ AtSlot s n.val 0 c w ∧
    (slotReaches 0 (mSz w) (localOf (a - a % (if mSz w = 1 then 4 else 16))) = false) ∧ opOf w = 1) ∧
  (∃ (n : Fin 256), ∃ (s : State), ∃ (c : Core), ∃ (w : Nat), ∃ (a : Nat),
    c.poisoned (rA (mAb w)) = false ∧ mAddr c w = a ∧ AtSlot s n.val 0 c w ∧
    (slotReaches 0 (mSz w) (localOf (a - a % (if mSz w = 1 then 4 else 16))) = false) ∧ opOf w = 2) :=
  ⟨
    ⟨0, 3, some 1, r0.setCore 0 { accesses := [{ kind := .load 3 (some 1), addr := 0, tag := some 9 }] },
      (r0.setCore 0 { accesses := [{ kind := .load 3 (some 1), addr := 0, tag := some 9 }] }).core 0,
      { kind := .load 3 (some 1), addr := 0, tag := some 9 }, { cmd := 10, dest := 0, tag := 9, addr := 0x20004 },
      by decide +kernel⟩,
    ⟨0, 3, some 1, r0.setCore 0 { accesses := [{ kind := .load 3 (some 1), addr := 0, tag := some 9 }] },
      (r0.setCore 0 { accesses := [{ kind := .load 3 (some 1), addr := 0, tag := some 9 }] }).core 0,
      { kind := .load 3 (some 1), addr := 0, tag := some 9 },
      { cmd := 8, dest := 0, tag := 9, data := [⟨0x700000000, false⟩] }, 0x700000000, by decide +kernel⟩,
    ⟨0, midBundle 1 0x04643018 (fun c => c.setReg (rA 2) 0x1000014),
      (midBundle 1 0x04643018 (fun c => c.setReg (rA 2) 0x1000014)).core 0, 0x04643018, 0x1000014,
      (baseScratch + 0x10) / 16, by decide +kernel⟩,
    ⟨0, midBundle 0 0x08643011 (fun c => c.setReg (rA 2) 0x100010),
      (midBundle 0 0x08643011 (fun c => c.setReg (rA 2) 0x100010)).core 0, 0x08643011, 0x100010,
      (baseCore + 0x40010) / 16, by decide +kernel⟩,
    ⟨0, midBundle 0 0x04643018 (fun c => c.setReg (rA 2) 0x300014),
      (midBundle 0 0x04643018 (fun c => c.setReg (rA 2) 0x300014)).core 0, 0x04643018, 0x300014,
      by decide +kernel⟩,
    ⟨0, midBundle 0 0x08643018 (fun c => c.setReg (rA 2) 0x300014),
      (midBundle 0 0x08643018 (fun c => c.setReg (rA 2) 0x300014)).core 0, 0x08643018, 0x300014,
      by decide +kernel⟩,
    ⟨0, midBundle 0 0x04643010 (fun c => c.setReg (rA 2) 0x200000),
      (midBundle 0 0x04643010 (fun c => c.setReg (rA 2) 0x200000)).core 0, 0x04643010, 0x200000,
      by decide +kernel⟩,
    ⟨0, midBundle 0 0x08643010 (fun c => c.setReg (rA 2) 0x300000),
      (midBundle 0 0x08643010 (fun c => c.setReg (rA 2) 0x300000)).core 0, 0x08643010, 0x300000,
      by decide +kernel⟩⟩

/-- Clauses 9.2.1, 9.2.2, 9.3, 1.5, 1.6 of Obligations.MemorySlots: states that meet the hypotheses. -/
theorem witness_MemorySlots_6 :
  (∃ (n : Fin 256), ∃ (s : State), ∃ (c : Core), ∃ (w : Nat), ∃ (a : Nat),
    c.poisoned (rA (mAb w)) = false ∧ mAddr c w = a ∧ AtSlot s n.val 1 c w ∧
    (slotReaches 1 (mSz w) (localOf (a - a % (if mSz w = 1 then 4 else 16))) = false) ∧ opOf w = 1) ∧
  (∃ (n : Fin 256), ∃ (s : State), ∃ (c : Core), ∃ (w : Nat), ∃ (a : Nat),
    c.poisoned (rA (mAb w)) = false ∧ mAddr c w = a ∧ AtSlot s n.val 1 c w ∧
    (slotReaches 1 (mSz w) (localOf (a - a % (if mSz w = 1 then 4 else 16))) = false) ∧ opOf w = 2) ∧
  (∃ (n : Fin 256), ∃ (s : State), ∃ (c : Core), ∃ (w : Nat), ∃ (a : Nat), ∃ k,
    c.poisoned (rA (mAb w)) = false ∧ mAddr c w = a ∧ AtSlot s n.val 0 c w ∧ opOf w = 3 ∧
    (localOf (a - a % (if mSz w = 1 then 4 else 16)) = .window k) ∧
    s.isSet F.TC_WIN_CTRL.EN (winKey n.val k) = false) ∧
  (∃ (n : Fin 256), ∃ (s : State), ∃ (c : Core), ∃ (w : Nat), ∃ (a : Nat), ∃ (k : Nat),
    Unwatched s n.val ∧ mAddr c w = a ∧ c.poisoned (rA (mAb w)) = false ∧
    (localWord n.val (a - a % (if mSz w = 1 then 4 else 16)) = some k) ∧ AtSlot s n.val 0 c w ∧ opOf w = 2 ∧
    0x1000000 ≤ a ∧ a < 0x1200000 ∧ (storeData c w a).1 ≠ 0) ∧
  (∃ (n : Fin 256), ∃ (s : State), ∃ (c : Core), ∃ (w : Nat), ∃ (a : Nat), ∃ (k : Nat),
    Unwatched s n.val ∧ mAddr c w = a ∧ c.poisoned (rA (mAb w)) = false ∧
    (localWord n.val (a - a % (if mSz w = 1 then 4 else 16)) = some k) ∧ AtSlot s n.val 1 c w ∧ opOf w = 2 ∧
    0x1000000 ≤ a ∧ a < 0x1200000 ∧ (storeData c w a).1 ≠ 0) :=
  ⟨
    ⟨0, midBundle 1 0x04643010 (fun c => c.setReg (rA 2) 0x100000),
      (midBundle 1 0x04643010 (fun c => c.setReg (rA 2) 0x100000)).core 0, 0x04643010, 0x100000,
      by decide +kernel⟩,
    ⟨0, midBundle 1 0x08643010 (fun c => c.setReg (rA 2) 0x0),
      (midBundle 1 0x08643010 (fun c => c.setReg (rA 2) 0x0)).core 0, 0x08643010, 0, by decide +kernel⟩,
    ⟨0, midBundle 0 0x0C643010 (fun c => c.setReg (rA 2) 0x50000000),
      (midBundle 0 0x0C643010 (fun c => c.setReg (rA 2) 0x50000000)).core 0, 0x0C643010, 0x50000000, 1,
      by decide +kernel⟩,
    ⟨0, midBundle 0 0x08643010 (fun c => (c.setReg (rA 2) 0x1000010).setReg 3 77),
      (midBundle 0 0x08643010 (fun c => (c.setReg (rA 2) 0x1000010).setReg 3 77)).core 0, 0x08643010, 0x1000010,
      (baseScratch + 0x10) / 16, by decide +kernel⟩,
    ⟨0, midBundle 1 0x08643018 (fun c => (c.setReg (rA 2) 0x1000014).setReg (rA 3) 77),
      (midBundle 1 0x08643018 (fun c => (c.setReg (rA 2) 0x1000014).setReg (rA 3) 77)).core 0, 0x08643018,
      0x1000014, (baseScratch + 0x10) / 16, by decide +kernel⟩⟩

/-- Clauses 1.1, 1.2, 1.3, 1.4, 1.5, 1.6, 1.7, 1.8 of Obligations.ControlSlot: states that meet the hypotheses. -/
theorem witness_ControlSlot_1 :
  (∃ (n : Fin 256), ∃ (s : State), ∃ (c : Core), ∃ (w : Nat),
    AtSlot s n.val 3 c w ∧ c.noBranchHere = false ∧ opOf w = 0x11) ∧
  (∃ (n : Fin 256), ∃ (s : State), ∃ (c : Core), ∃ (w : Nat),
    AtSlot s n.val 3 c w ∧ c.noBranchHere = false ∧ opOf w = 0x12 ∧
    (brcCond w ≤ 3 → c.poisoned (rA (brcA w)) = false) ∧ brcTaken c w = true) ∧
  (∃ (n : Fin 256), ∃ (s : State), ∃ (c : Core), ∃ (w : Nat),
    AtSlot s n.val 3 c w ∧ c.noBranchHere = false ∧ opOf w = 0x12 ∧
    (brcCond w ≤ 3 → c.poisoned (rA (brcA w)) = false) ∧ brcTaken c w = false) ∧
  (∃ (n : Fin 256), ∃ (s : State), ∃ (c : Core), ∃ (w : Nat),
    AtSlot s n.val 3 c w ∧ c.noBranchHere = false ∧ opOf w = 0x12 ∧ brcCond w ≤ 3 ∧
    c.poisoned (rA (brcA w)) = true) ∧
  (∃ (n : Fin 256), ∃ (s : State), ∃ (c : Core), ∃ (w : Nat),
    AtSlot s n.val 3 c w ∧ c.noBranchHere = false ∧ opOf w = 0x13) ∧
  (∃ (n : Fin 256), ∃ (s : State), ∃ (c : Core), ∃ (w : Nat),
    AtSlot s n.val 3 c w ∧ c.noBranchHere = false ∧ opOf w = 0x14 ∧ c.poisoned (rA (aD w)) = false ∧
    c.reg (rA (aD w)) < 0x10000) ∧
  (∃ (n : Fin 256), ∃ (s : State), ∃ (c : Core), ∃ (w : Nat),
    AtSlot s n.val 3 c w ∧ c.noBranchHere = false ∧ opOf w = 0x14 ∧ c.poisoned (rA (aD w)) = false ∧
    0x10000 ≤ c.reg (rA (aD w)) ∧ c.inInt = false) ∧
  (∃ (n : Fin 256), ∃ (s : State), ∃ (c : Core), ∃ (w : Nat),
    AtSlot s n.val 3 c w ∧ c.noBranchHere = false ∧ opOf w = 0x14 ∧ c.poisoned (rA (aD w)) = true) :=
  ⟨
    ⟨0, midBundle 3 0x44000005 (fun c => ((c.setStat 5 true).setReg (rLE 1) 64).setReg (rLC 1) 1),
      (midBundle 3 0x44000005 (fun c => ((c.setStat 5 true).setReg (rLE 1) 64).setReg (rLC 1) 1)).core 0,
      0x44000005, by decide +kernel⟩,
    ⟨0, midBundle 3 0x48100005 id, (midBundle 3 0x48100005 id).core 0, 0x48100005, by decide +kernel⟩,
    ⟨0, midBundle 3 0x48900005 id, (midBundle 3 0x48900005 id).core 0, 0x48900005, by decide +kernel⟩,
    ⟨0, midBundle 3 0x48900005 (fun c => c.setPoison (rA 2) true),
      (midBundle 3 0x48900005 (fun c => c.setPoison (rA 2) true)).core 0, 0x48900005, by decide +kernel⟩,
    ⟨0, midBundle 3 0x4C800005 id, (midBundle 3 0x4C800005 id).core 0, 0x4C800005, by decide +kernel⟩,
    ⟨0, midBundle 3 0x50800000 (fun c => c.setReg (rA 2) 0xFFFF),
      (midBundle 3 0x50800000 (fun c => c.setReg (rA 2) 0xFFFF)).core 0, 0x50800000, by decide +kernel⟩,
    ⟨0, midBundle 3 0x50800000 (fun c => c.setReg (rA 2) 0x10000),
      (midBundle 3 0x50800000 (fun c => c.setReg (rA 2) 0x10000)).core 0, 0x50800000, by decide +kernel⟩,
    ⟨0, midBundle 3 0x50800000 (fun c => c.setPoison (rA 2) true),
      (midBundle 3 0x50800000 (fun c => c.setPoison (rA 2) true)).core 0, 0x50800000, by decide +kernel⟩⟩

/-- Clauses 1.9, 2.1, 2.2, 2.3, 2.4, 2.5, 2.6, 3.1 of Obligations.ControlSlot: states that meet the hypotheses. -/
theorem witness_ControlSlot_2 :
  (∃ (n : Fin 256), ∃ (s : State), ∃ (c : Core), ∃ (w : Nat),
    AtSlot s n.val 3 c w ∧ c.noBranchHere = false ∧ opOf w = 0x15 ∧ c.reg rIpc < 0x10000) ∧
  (∃ (n : Fin 256), ∃ (s : State), ∃ (c : Core), ∃ (w : Nat),
    AtSlot s n.val 3 c w ∧ (c.br.isSome = true ∨ ∃ l < 3, c.la l = true ∧ c.reg (rLE l) = c.pc) ∧ opOf w = 0x10) ∧
  (∃ (n : Fin 256), ∃ (s : State), ∃ (c : Core), ∃ (w : Nat),
    AtSlot s n.val 3 c w ∧ (c.br.isSome = true ∨ ∃ l < 3, c.la l = true ∧ c.reg (rLE l) = c.pc) ∧ opOf w = 0x11) ∧
  (∃ (n : Fin 256), ∃ (s : State), ∃ (c : Core), ∃ (w : Nat),
    AtSlot s n.val 3 c w ∧ (c.br.isSome = true ∨ ∃ l < 3, c.la l = true ∧ c.reg (rLE l) = c.pc) ∧ opOf w = 0x12) ∧
  (∃ (n : Fin 256), ∃ (s : State), ∃ (c : Core), ∃ (w : Nat),
    AtSlot s n.val 3 c w ∧ (c.br.isSome = true ∨ ∃ l < 3, c.la l = true ∧ c.reg (rLE l) = c.pc) ∧ opOf w = 0x13) ∧
  (∃ (n : Fin 256), ∃ (s : State), ∃ (c : Core), ∃ (w : Nat),
    AtSlot s n.val 3 c w ∧ (c.br.isSome = true ∨ ∃ l < 3, c.la l = true ∧ c.reg (rLE l) = c.pc) ∧ opOf w = 0x14) ∧
  (∃ (n : Fin 256), ∃ (s : State), ∃ (c : Core), ∃ (w : Nat),
    AtSlot s n.val 3 c w ∧ (c.br.isSome = true ∨ ∃ l < 3, c.la l = true ∧ c.reg (rLE l) = c.pc) ∧ opOf w = 0x15) ∧
  (∃ (n : Fin 256), ∃ (s : State), ∃ (c : Core), ∃ (w : Nat), ∃ (k : Nat),
    AtSlot s n.val 3 c w ∧ opOf w = 0x10 ∧ c.noBranchHere = false ∧ loopLvl w < 3 ∧
    (k = (if loopReg w then c.reg (rA (bitsOf w 12 4)) else bitsOf w 12 11)) ∧ loopReg w = true ∧
    c.poisoned (rA (bitsOf w 12 4)) = true) :=
  ⟨
    ⟨0, midBundle 3 0x54000000 (fun c => c.setReg rIpc 0x48),
      (midBundle 3 0x54000000 (fun c => c.setReg rIpc 0x48)).core 0, 0x54000000, by decide +kernel⟩,
    ⟨0, midBundle 3 0x40010008 (fun c => { c with br := some ⟨some 16, 2, none⟩ }),
      (midBundle 3 0x40010008 (fun c => { c with br := some ⟨some 16, 2, none⟩ })).core 0, 0x40010008,
      by decide +kernel⟩,
    ⟨0, midBundle 3 0x44010008 (fun c => { c with br := some ⟨some 16, 2, none⟩ }),
      (midBundle 3 0x44010008 (fun c => { c with br := some ⟨some 16, 2, none⟩ })).core 0, 0x44010008,
      by decide +kernel⟩,
    ⟨0, midBundle 3 0x48010008 (fun c => { c with br := some ⟨some 16, 2, none⟩ }),
      (midBundle 3 0x48010008 (fun c => { c with br := some ⟨some 16, 2, none⟩ })).core 0, 0x48010008,
      by decide +kernel⟩,
    ⟨0, midBundle 3 0x4C010008 (fun c => { c with br := some ⟨some 16, 2, none⟩ }),
      (midBundle 3 0x4C010008 (fun c => { c with br := some ⟨some 16, 2, none⟩ })).core 0, 0x4C010008,
      by decide +kernel⟩,
    ⟨0, midBundle 3 0x50010008 (fun c => { c with br := some ⟨some 16, 2, none⟩ }),
      (midBundle 3 0x50010008 (fun c => { c with br := some ⟨some 16, 2, none⟩ })).core 0, 0x50010008,
      by decide +kernel⟩,
    ⟨0, midBundle 3 0x54010008 (fun c => (c.setStat 6 true)),
      (midBundle 3 0x54010008 (fun c => (c.setStat 6 true))).core 0, 0x54010008, by decide +kernel⟩,
    ⟨0, midBundle 3 0x40802008 (fun c => c.setPoison (rA 2) true),
      (midBundle 3 0x40802008 (fun c => c.setPoison (rA 2) true)).core 0, 0x40802008, 0, by decide +kernel⟩⟩

/-- Clauses 3.2, 3.3, 3.4, 5 of Obligations.ControlSlot: states that meet the hypotheses. -/
theorem witness_ControlSlot_3 :
  (∃ (n : Fin 256), ∃ (s : State), ∃ (c : Core), ∃ (w : Nat), ∃ (k : Nat),
    AtSlot s n.val 3 c w ∧ opOf w = 0x10 ∧ c.noBranchHere = false ∧ loopLvl w < 3 ∧
    (k = (if loopReg w then c.reg (rA (bitsOf w 12 4)) else bitsOf w 12 11)) ∧
    (loopReg w = true → c.poisoned (rA (bitsOf w 12 4)) = false) ∧ k = 0) ∧
  (∃ (n : Fin 256), ∃ (s : State), ∃ (c : Core), ∃ (w : Nat), ∃ (k : Nat),
    AtSlot s n.val 3 c w ∧ opOf w = 0x10 ∧ c.noBranchHere = false ∧ loopLvl w < 3 ∧
    (k = (if loopReg w then c.reg (rA (bitsOf w 12 4)) else bitsOf w 12 11)) ∧
    (loopReg w = true → c.poisoned (rA (bitsOf w 12 4)) = false) ∧ k ≠ 0 ∧
    (∀ m < 3, m ≠ loopLvl w → c.la m = true → c.reg (rLE m) ≠ loopEnd w * 16)) ∧
  (∃ (n : Fin 256), ∃ (s : State), ∃ (c : Core), ∃ (w : Nat), ∃ (k : Nat),
    AtSlot s n.val 3 c w ∧ opOf w = 0x10 ∧ c.noBranchHere = false ∧ loopLvl w < 3 ∧
    (k = (if loopReg w then c.reg (rA (bitsOf w 12 4)) else bitsOf w 12 11)) ∧
    (loopReg w = true → c.poisoned (rA (bitsOf w 12 4)) = false) ∧ k ≠ 0 ∧ (∃ m < 3, m ≠ loopLvl w ∧
    c.la m = true ∧ c.reg (rLE m) = loopEnd w * 16)) ∧
  (∃ (c : Core), ∃ (w : Nat), ∃ (a : Nat), ∃ (p : Nat),
    c.reg (rA (brcA w)) = a ∧ a < 2 ^ 32 ∧ c.reg (rPred (brcP w)) = p ∧ brcCond w ≤ 6) ∧
  (∃ (c : Core), ∃ (w : Nat), ∃ (a : Nat), ∃ (p : Nat),
    c.reg (rA (brcA w)) = a ∧ a < 2 ^ 32 ∧ c.reg (rPred (brcP w)) = p ∧ brcCond w ≤ 6) :=
  ⟨
    ⟨0, midBundle 3 0x40802008 id, (midBundle 3 0x40802008 id).core 0, 0x40802008, 0, by decide +kernel⟩,
    ⟨0, midBundle 3 0x41003008 id, (midBundle 3 0x41003008 id).core 0, 0x41003008, 3, by decide +kernel⟩,
    ⟨0, midBundle 3 0x41003008 (fun c => (c.setStat 6 true).setReg (rLE 2) 0x80),
      (midBundle 3 0x41003008 (fun c => (c.setStat 6 true).setReg (rLE 2) 0x80)).core 0, 0x41003008, 3,
      by decide +kernel⟩,
    ⟨({}:Core).setReg (rA 2) 0x80000000, 0x49100005, 0x80000000, 0, by decide +kernel⟩,
    ⟨({}:Core).setReg (rPred 2) 15, 0x4A900005, 0, 15, by decide +kernel⟩⟩

/-- Clauses 1.1, 1.2, 2.1, 2.2, 3.1, 3.2, 3.3, 3.4 of Obligations.TasksOnCores: states that meet the hypotheses. -/
theorem witness_TasksOnCores_1 :
  (∃ (n : Fin 256), ∃ (s : State), ∃ (c : Core), ∃ (h : Held),
    s.core n.val = c ∧ c.arrived = some h ∧ c.task = none ∧ s.coreUp n.val = true ∧ s.coreHalted n.val = false ∧
    s.clReset.get 0 (n.val / 8) = 0 ∧ c.flight = [] ∧ c.slot = 0 ∧ dEntry h.d < 0x10000) ∧
  (∃ (n : Fin 256), ∃ (s : State), ∃ (c : Core), ∃ (h : Held),
    s.core n.val = c ∧ c.arrived = some h ∧ c.task = none ∧ s.coreUp n.val = true ∧ s.coreHalted n.val = false ∧
    s.clReset.get 0 (n.val / 8) = 0 ∧ c.flight = [] ∧ c.slot = 0 ∧ 0x10000 ≤ dEntry h.d ∧ c.lower = none) ∧
  (∃ (n : Fin 256), ∃ (s : State), ∃ (c : Core), ∃ (w : Nat), ∃ (h : Held),
    AtSlot s n.val 3 c w ∧ opOf w = 0x18 ∧ syncForm w = 2 ∧ c.task = some h ∧ c.flight = [] ∧ c.stepping = false ∧
    c.lower = none) ∧
  (∃ (n : Fin 256), ∃ (s : State), ∃ (c : Core), ∃ (w : Nat), ∃ (h : Held), ∃ l,
    AtSlot s n.val 3 c w ∧ opOf w = 0x18 ∧ syncForm w = 2 ∧ c.task = some h ∧ c.flight = [] ∧ c.stepping = false ∧
    c.lower = some l) ∧
  (∃ (n : Fin 256), ∃ (s : State), ∃ (c : Core), ∃ (w : Nat), ∃ (a : Nat), ∃ h, ∃ x,
    AtSlot s n.val 3 c w ∧ opOf w = 0x18 ∧ syncForm w = 3 ∧ c.reg (rA (syncA w)) = a ∧ c.noBranchHere = false ∧
    c.poisoned (rA (syncA w)) = false ∧ c.flight = [] ∧ c.stepping = false ∧ s.preemptAt n.val = some h ∧
    c.task.isSome = true ∧ (s.dsp (n.val / 64)).task? h = some x ∧ dEntry x.d < 0x10000) ∧
  (∃ (n : Fin 256), ∃ (s : State), ∃ (c : Core), ∃ (w : Nat), ∃ (a : Nat),
    AtSlot s n.val 3 c w ∧ opOf w = 0x18 ∧ syncForm w = 3 ∧ c.reg (rA (syncA w)) = a ∧ c.noBranchHere = false ∧
    c.poisoned (rA (syncA w)) = false ∧ s.preemptAt n.val = none ∧ a < 0x10000) ∧
  (∃ (n : Fin 256), ∃ (s : State), ∃ (c : Core), ∃ (w : Nat), ∃ (a : Nat),
    AtSlot s n.val 3 c w ∧ opOf w = 0x18 ∧ syncForm w = 3 ∧ c.reg (rA (syncA w)) = a ∧ c.noBranchHere = false ∧
    c.poisoned (rA (syncA w)) = true) ∧
  (∃ (n : Fin 256), ∃ (s : State), ∃ (c : Core), ∃ (w : Nat), ∃ (a : Nat),
    AtSlot s n.val 3 c w ∧ opOf w = 0x18 ∧ syncForm w = 3 ∧ c.reg (rA (syncA w)) = a ∧ c.noBranchHere = true) :=
  ⟨
    ⟨1, r0.setCore 1 { arrived := some ⟨5, BitVec.ofNat 512 (0x40 * 2 ^ 384 + 0x1234 * 2 ^ 416 + 7 * 2 ^ 32)⟩ },
      (r0.setCore 1 { arrived := some ⟨5, BitVec.ofNat 512 (0x40 * 2 ^ 384 + 0x1234 * 2 ^ 416 + 7 * 2 ^ 32)⟩ }).core 1,
      ⟨5, BitVec.ofNat 512 (0x40 * 2 ^ 384 + 0x1234 * 2 ^ 416 + 7 * 2 ^ 32)⟩, by decide +kernel⟩,
    ⟨1, r0.setCore 1 { arrived := some ⟨5, BitVec.ofNat 512 (0x10000 * 2 ^ 384)⟩ },
      (r0.setCore 1 { arrived := some ⟨5, BitVec.ofNat 512 (0x10000 * 2 ^ 384)⟩ }).core 1, ⟨5,
      BitVec.ofNat 512 (0x10000 * 2 ^ 384)⟩, by decide +kernel⟩,
    ⟨0, midBundle 3 0x62000000 (fun c => { c with task := some ⟨3, 0⟩, wdt := some 7 }),
      (midBundle 3 0x62000000 (fun c => { c with task := some ⟨3, 0⟩, wdt := some 7 })).core 0, 0x62000000, ⟨3,
      0⟩, by decide +kernel⟩,
    ⟨0, midBundle 3 0x62000000 (fun c => { c with task := some ⟨3, 0⟩, lower := some ⟨4, 0⟩, resume := 0x48 }),
      (midBundle 3 0x62000000 (fun c => { c with task := some ⟨3, 0⟩, lower := some ⟨4, 0⟩, resume := 0x48 })).core 0,
      0x62000000, ⟨3, 0⟩, ⟨4, 0⟩, by decide +kernel⟩,
    ⟨0,
      (preempted (midBundle 3 0x63200000 (fun c => ({ c with task := some ⟨0, 0⟩ } : Core).setReg (rA 2) 0x88))),
      (preempted (midBundle 3 0x63200000 (fun c => ({ c with task := some ⟨0, 0⟩ } : Core).setReg (rA 2) 0x88))).core 0,
      0x63200000, 0x88, 1, { handle := 1, d := BitVec.ofNat 512 (0x40 * 2 ^ 384), st := .ready },
      by decide +kernel⟩,
    ⟨0, midBundle 3 0x63200000 (fun c => c.setReg (rA 2) 0x88),
      (midBundle 3 0x63200000 (fun c => c.setReg (rA 2) 0x88)).core 0, 0x63200000, 0x88, by decide +kernel⟩,
    ⟨0, midBundle 3 0x63200000 (fun c => c.setPoison (rA 2) true),
      (midBundle 3 0x63200000 (fun c => c.setPoison (rA 2) true)).core 0, 0x63200000, 0, by decide +kernel⟩,
    ⟨0, midBundle 3 0x63200000 (fun c => { c with br := some ⟨some 0, 1, none⟩ }),
      (midBundle 3 0x63200000 (fun c => { c with br := some ⟨some 0, 1, none⟩ })).core 0, 0x63200000, 0,
      by decide +kernel⟩⟩

/-- Clauses 4.1, 4.2, 4.3, 5 of Obligations.TasksOnCores: states that meet the hypotheses. -/
theorem witness_TasksOnCores_2 :
  (∃ (n : Fin 256), ∃ (s : State), ∃ (c : Core), ∃ (w : Nat), ∃ (a : Nat), ∃ (k : Nat),
    AtSlot s n.val 3 c w ∧ opOf w = 0x1A ∧ c.reg (rA (subS w)) / 64 * 64 = a ∧ Unwatched s n.val ∧
    c.poisoned (rA (subS w)) = false ∧ (0x100000 ≤ a ∧ a < 0x120000 ∨ 0x1000000 ≤ a ∧ a < 0x1200000) ∧
    localWord n.val a = some k ∧ (∀ j < 4, s.damageAt (k + j) = none)) ∧
  (∃ (n : Fin 256), ∃ (s : State), ∃ (c : Core), ∃ (w : Nat), ∃ (a : Nat), ∃ (k : Nat),
    AtSlot s n.val 3 c w ∧ opOf w = 0x1A ∧ c.reg (rA (subS w)) / 64 * 64 = a ∧ c.poisoned (rA (subS w)) = true) ∧
  (∃ (n : Fin 256), ∃ (s : State), ∃ (c : Core), ∃ (w : Nat), ∃ (a : Nat), ∃ (k : Nat),
    AtSlot s n.val 3 c w ∧ opOf w = 0x1A ∧ c.reg (rA (subS w)) / 64 * 64 = a ∧ c.poisoned (rA (subS w)) = false ∧
    ¬(0x100000 ≤ a ∧ a < 0x120000) ∧ ¬(0x1000000 ≤ a ∧ a < 0x1200000)) ∧
  (∃ (n : Fin 256), ∃ (s : State), ∃ (c : Core), ∃ (w : Nat),
    AtSlot s n.val 3 c w ∧ opOf w = 0x1B) :=
  ⟨
    ⟨0, midBundle 3 0x688E0000 (fun c => c.setReg (rA 2) 0x100050),
      (midBundle 3 0x688E0000 (fun c => c.setReg (rA 2) 0x100050)).core 0, 0x688E0000, 0x100040,
      (localWord 0 0x100040).getD 0, by decide +kernel⟩,
    ⟨0, midBundle 3 0x688E0000 (fun c => c.setPoison (rA 2) true),
      (midBundle 3 0x688E0000 (fun c => c.setPoison (rA 2) true)).core 0, 0x688E0000, 0, 0, by decide +kernel⟩,
    ⟨0, midBundle 3 0x688E0000 (fun c => c.setReg (rA 2) 0x200050),
      (midBundle 3 0x688E0000 (fun c => c.setReg (rA 2) 0x200050)).core 0, 0x688E0000, 0x200040, 0,
      by decide +kernel⟩,
    ⟨0,
      ((midBundle 3 0x6CA50000 (fun c => (c.setReg (rA 2) 9).setReg (rA 3) 8)).setReg R.TRC_CTRL 0 1).setReg R.TRC_PORT_EN_LO 0 0x20,
      (midBundle 3 0x6CA50000 (fun c => (c.setReg (rA 2) 9).setReg (rA 3) 8)).core 0, 0x6CA50000,
      by decide +kernel⟩⟩

/-- Clauses 1, 2, 3, 4, 5.1, 5.2, 6 of Obligations.CoreEvents: states that meet the hypotheses. -/
theorem witness_CoreEvents_1 :
  (∃ (n : Fin 256), ∃ (s : State), ∃ (c : Core), ∃ (k : Nat),
    s.core n.val = c ∧ s.nextSource n.val = some k ∧ c.slot = 0 ∧ c.task.isSome = true ∧ s.coreUp n.val = true ∧
    s.coreHalted n.val = false ∧ c.haltReq = none ∧ s.clReset.get 0 (n.val / 8) = 0 ∧ c.legalBoundary = true ∧
    c.flight = []) ∧
  (∃ (n : Nat), ∃ (s : State), ∃ (k : Nat),
    s.nextSource n = some k) ∧
  (∃ (n : Nat), ∃ (s : State), ∃ (k : Nat),
    s.nextSource n = some k) ∧
  (∃ (n : Fin 256), ∃ (s : State), ∃ (c : Core), ∃ (x : Nat),
    s.core n.val = c ∧ c.timer = some x ∧ s.isSet F.TC_TIMER_CTRL.EN n.val = true ∧ s.coreUp n.val = true ∧
    0 ≤ diff64 s.now x) ∧
  (∃ (acc : Accessor), ∃ (v : Word), ∃ (s : State), ∃ (n : Nat),
    Writes s acc 0 R.TC_TIMER_LO 0 n) ∧
  (∃ (n : Fin 256), ∃ (s : State), ∃ (c : Core), ∃ (x : Nat),
    s.core n.val = c ∧ c.wdt = some x ∧ x ≤ s.now ∧ c.task.isSome = true ∧ c.inInt = false ∧
    s.isSet F.TC_WDT_CTRL.WARN n.val = true ∧ s.isSet F.TC_WDT_CTRL.WARNED n.val = false) ∧
  (∃ (n : Fin 256), ∃ (s : State), ∃ (c : Core), ∃ (x : Nat), ∃ h,
    s.core n.val = c ∧ c.wdt = some x ∧ x ≤ s.now ∧ s.isSet F.TC_WDT_CTRL.WARN n.val = false ∧ c.task = some h ∧
    c.lower = none ∧ c.stepping = false) ∧
  (∃ (acc : Accessor), ∃ (v : Word), ∃ (s : State), ∃ (n : Nat),
    Writes s acc 0 R.TC_WDT_KICK 0 n ∧ bitAt v.toNat 0 = true ∧ (s.core n).task.isSome = true ∧
    s.isSet F.TC_WDT_CTRL.EN n = true ∧ s.coreHalted n = false) :=
  ⟨
    ⟨0,
      (((runningTask 0).setCore 0 { task := some ⟨0, 0⟩, pc := 0x30 }).put F.TC_IRQ_PEND.PEND 0 0xC).setReg R.TC_VBASE 0 0x400,
      (((runningTask 0).setCore 0 { task := some ⟨0, 0⟩, pc := 0x30 })).core 0, 3, by decide +kernel⟩,
    ⟨0, (runningTask 0).put F.TC_IRQ_PEND.PEND 0 0xC, 3, by decide +kernel⟩,
    ⟨0, (runningTask 0).put F.TC_IRQ_PEND.PEND 0 0x10, 4, by decide +kernel⟩,
    ⟨0, at64 ((r0.setCore 0 { timer := some 5 }).setReg R.TC_TIMER_CTRL 0 1) 5, { timer := some 5 }, 5,
      by decide +kernel⟩,
    ⟨.chamois, 9, (r0.put F.TC_SEL.CORE 7 3).setReg R.TC_TIMER_HI 3 2, 3, by decide +kernel⟩,
    ⟨0, at64 ((r0.setCore 0 { task := some ⟨0, 0⟩, wdt := some 5 }).put F.TC_WDT_CTRL.WARN 0 1) 5,
      { task := some ⟨0, 0⟩, wdt := some 5 }, 5, by decide +kernel⟩,
    ⟨0, at64 (r0.setCore 0 { task := some ⟨7, 0⟩, wdt := some 5 }) 5, { task := some ⟨7, 0⟩, wdt := some 5 }, 5,
      ⟨7, 0⟩, by decide +kernel⟩,
    ⟨.chamois, 1,
      ((r0.put F.TC_SEL.CORE 7 3).setReg R.TC_WDT_CTRL 3 7).setCore 3 { task := some ⟨7, 0⟩, wdt := some 5 }, 3,
      by decide +kernel⟩⟩

/-- Clauses 7, 8.1, 8.2, 9, 10.1, 10.2 of Obligations.CoreEvents: states that meet the hypotheses. -/
theorem witness_CoreEvents_2 :
  (∃ (acc : Accessor), ∃ (v : Word), ∃ (s : State), ∃ (n : Nat),
    Writes s acc 0 R.TC_IRQ_SET 0 n) ∧
  (∃ (e : Fin 136), ∃ (p : BitVec 16), ∃ (s : State),
    e.val < 32 ∧ s.domUp (0x10 + e.val) = true) ∧
  (∃ (e : Fin 136), ∃ (p : BitVec 16), ∃ (s : State),
    32 ≤ e.val ∧ s.domUp (domEngine (e.val - 32)) = true) ∧
  (∃ (acc : Accessor), ∃ (c : Fin 32), ∃ (c' : Fin 32), ∃ (s : State),
    Writes s acc 0 R.CL_CTRL 0 c.val ∧ s.clReset.get 0 c.val = 0 ∧ s.cfg.phase = .started) ∧
  (∃ (c : Fin 32), ∃ (s : State),
    s.clReset.get 0 c.val = 1 ∧ s.clusterDrained c.val = true) ∧
  (∃ (c : Fin 32), ∃ (s : State), ∃ x,
    s.clReset.get 0 c.val = 2 + x ∧ x + 2000 ≤ s.now) :=
  ⟨
    ⟨.chamois, 0xFF, r0.put F.TC_SEL.CORE 7 3, 3, by decide +kernel⟩,
    ⟨5, 1600, r0, by decide +kernel⟩,
    ⟨50, 1600, r0, by decide +kernel⟩,
    ⟨.chamois, 3, 0,
      { ((r0.put F.CLUSTER_SEL.CLUSTER 7 3).setCore 25 { task := some ⟨7, 0⟩ }) with cfg := { r0.cfg with phase := .started } },
      by decide +kernel⟩,
    ⟨3, { r0 with clReset := [(3, 1)] }, by decide +kernel⟩,
    ⟨3, at64 { r0 with clReset := [(3, 2)] } 2000, 0, by decide +kernel⟩⟩

/-- Clauses 3, 4.1, 4.2, 4.3.1, 4.3.2.3, 4.3.2.4, 4.3.2.2, 5 of Obligations.EngineTasks: states that meet the
hypotheses. -/
theorem witness_EngineTasks_1 :
  (∃ (t : Nat), ∃ (j : BitVec 512),
    jobCheck t j = none) ∧
  (∃ (s : State), ∃ (e : Nat), ∃ (j : BitVec 512), ∃ (p : Nat),
    jobCheck (engineType e) j = none ∧ usesSoft (engineType e) j = true ∧ jFld j 7 16 4 = p ∧
    s.isSet F.ACC_ENG_HARQ_CFG.EN p = false) ∧
  (∃ (s : State), ∃ (e : Nat), ∃ (j : BitVec 512), ∃ (p : Nat),
    jobCheck (engineType e) j = none ∧ usesSoft (engineType e) j = true ∧ jFld j 7 16 4 = p ∧
    s.isSet F.ACC_ENG_HARQ_CFG.EN p = true ∧ s.get F.ACC_ENG_HARQ_CFG.COUNT p ≤ jFld j 8 0 16) ∧
  (∃ (s : State), ∃ (e : Nat), ∃ (j : BitVec 512), ∃ (p : Nat),
    jobCheck (engineType e) j = none ∧ usesSoft (engineType e) j = true ∧ jFld j 7 16 4 = p ∧
    s.isSet F.ACC_ENG_HARQ_CFG.EN p = true ∧ jFld j 8 0 16 < s.get F.ACC_ENG_HARQ_CFG.COUNT p ∧
    jFld j 8 16 16 * align64 (jFld j 10 0 18) ≤ s.get F.ACC_ENG_HARQ_STRIDE.SECTORS p * 4096 ∧
    jKeyIn j ≠ s.get F.ACC_ENG_HARQ_CFG.KEY p) ∧
  (∃ (s : State), ∃ (e : Nat), ∃ (j : BitVec 512), ∃ (p : Nat),
    jobCheck (engineType e) j = none ∧ usesSoft (engineType e) j = true ∧ jFld j 7 16 4 = p ∧
    s.isSet F.ACC_ENG_HARQ_CFG.EN p = true ∧ jFld j 8 0 16 < s.get F.ACC_ENG_HARQ_CFG.COUNT p ∧
    jFld j 8 16 16 * align64 (jFld j 10 0 18) ≤ s.get F.ACC_ENG_HARQ_STRIDE.SECTORS p * 4096 ∧
    jKeyIn j = s.get F.ACC_ENG_HARQ_CFG.KEY p ∧ jKeyOut j = s.get F.ACC_ENG_HARQ_CFG.KEY p ∧
    s.harqHeld.get 0 (lockKey j) ≠ 0) ∧
  (∃ (s : State), ∃ (e : Nat), ∃ (j : BitVec 512), ∃ (p : Nat),
    jobCheck (engineType e) j = none ∧ usesSoft (engineType e) j = true ∧ jFld j 7 16 4 = p ∧
    s.isSet F.ACC_ENG_HARQ_CFG.EN p = true ∧ jFld j 8 0 16 < s.get F.ACC_ENG_HARQ_CFG.COUNT p ∧
    jFld j 8 16 16 * align64 (jFld j 10 0 18) ≤ s.get F.ACC_ENG_HARQ_STRIDE.SECTORS p * 4096 ∧
    jKeyIn j = s.get F.ACC_ENG_HARQ_CFG.KEY p ∧ jKeyOut j = s.get F.ACC_ENG_HARQ_CFG.KEY p ∧
    s.harqHeld.get 0 (lockKey j) = 0 ∧ s.harqWait = []) ∧
  (∃ (s : State), ∃ (e : Nat), ∃ (j : BitVec 512), ∃ (p : Nat),
    jobCheck (engineType e) j = none ∧ usesSoft (engineType e) j = true ∧ jFld j 7 16 4 = p ∧
    s.isSet F.ACC_ENG_HARQ_CFG.EN p = true ∧ jFld j 8 0 16 < s.get F.ACC_ENG_HARQ_CFG.COUNT p ∧
    jFld j 8 16 16 * align64 (jFld j 10 0 18) ≤ s.get F.ACC_ENG_HARQ_STRIDE.SECTORS p * 4096 ∧
    jKeyIn j = s.get F.ACC_ENG_HARQ_CFG.KEY p ∧ jKeyOut j = s.get F.ACC_ENG_HARQ_CFG.KEY p) ∧
  (∃ (e : Fin 104), ∃ (s : State), ∃ (x : Eng),
    s.eng e.val = x ∧ x.phase = .lockWait ∧ x.lock ≠ 0 ∧ s.harqHeld.get 0 (x.lock - 1) = 0 ∧
    s.harqWait.find? (fun y => (s.eng y).lock == x.lock) = some e.val) :=
  ⟨
    ⟨5, jobOf fftJob, by decide +kernel⟩,
    ⟨r0, 10, jobOf softJob, 2, by decide +kernel⟩,
    ⟨(space2 r0).put F.ACC_ENG_HARQ_CFG.COUNT 2 3, 10, jobOf softJob, 2, by decide +kernel⟩,
    ⟨(space2 r0).put F.ACC_ENG_HARQ_CFG.KEY 2 3, 10, jobOf softJob, 2, by decide +kernel⟩,
    ⟨{ space2 r0 with harqHeld := [(2 * 65536 + 3, 12)] }, 10, jobOf softJob, 2, by decide +kernel⟩,
    ⟨space2 r0, 10, jobOf softJob, 2, by decide +kernel⟩,
    ⟨space2 r0, 10, jobOf softJob, 2, by decide +kernel⟩,
    ⟨10, { engAs r0 10 { phase := .lockWait, lock := 9 } with harqWait := [10] },
      { phase := .lockWait, lock := 9 }, by decide +kernel⟩⟩

/-- Clauses 6.1, 6.2, 6.3, 7, 8, 9.1, 9.2 of Obligations.EngineTasks: states that meet the hypotheses. -/
theorem witness_EngineTasks_2 :
  (∃ (e : Fin 104), ∃ (s : State), ∃ (x : Eng), ∃ (h : Held),
    s.eng e.val = x ∧ x.task = some h ∧ s.domUp (domEngine e.val) = true ∧ x.phase = .done ∧ x.code < 0x100 ∧
    x.lock = 0) ∧
  (∃ (e : Fin 104), ∃ (s : State), ∃ (x : Eng), ∃ (h : Held),
    s.eng e.val = x ∧ x.task = some h ∧ s.domUp (domEngine e.val) = true ∧ x.phase = .done ∧ 0x100 ≤ x.code ∧
    x.code < 0x107 ∧ s.isSet F.ACC_ENG_ERR.VALID e.val = false) ∧
  (∃ (e : Fin 104), ∃ (s : State), ∃ (x : Eng), ∃ (h : Held),
    s.eng e.val = x ∧ x.task = some h ∧ s.domUp (domEngine e.val) = true) ∧
  (∃ (acc : Accessor), ∃ (v : Word), ∃ (s : State), ∃ (e : Nat),
    Writes s acc 0 R.ACC_ENG_CTRL 0 e ∧ v.toNat % 2 = 1 ∧ s.engState e = 3) ∧
  (∃ (acc : Accessor), ∃ (v : Word), ∃ (s : State), ∃ (e : Nat),
    Writes s acc 0 R.ACC_ENG_STAT_CLR 0 e ∧ v.toNat % 2 = 1) ∧
  (∃ (acc : Accessor), ∃ (v : Word), ∃ (s : State), ∃ (k : Nat), ∃ (n : Nat), ∃ (c : Nat),
    Writes s acc 0 R.ACC_ENG_HARQ_CFG 0 k ∧ s.get F.ACC_ENG_HARQ_STRIDE.SECTORS k = n ∧ bitsOf v.toNat 16 16 = c ∧
    s.isSet F.ACC_ENG_HARQ_CFG.EN k = false ∧ v.toNat % 4 = 1 ∧ s.isSet F.ACC_ENG_HARQ_CFG.REJ k = false) ∧
  (∃ (acc : Accessor), ∃ (v : Word), ∃ (s : State), ∃ (k : Nat), ∃ (n : Nat), ∃ (c : Nat),
    Writes s acc 0 R.ACC_ENG_HARQ_CFG 0 k ∧ s.get F.ACC_ENG_HARQ_STRIDE.SECTORS k = n ∧ bitsOf v.toNat 16 16 = c ∧
    s.isSet F.ACC_ENG_HARQ_CFG.EN k = false ∧ v.toNat % 4 = 1 ∧ s.isSet F.ACC_ENG_HARQ_CFG.REJ k = false) ∧
  (∃ (acc : Accessor), ∃ (v : Word), ∃ (s : State), ∃ (k : Nat), ∃ (n : Nat), ∃ (c : Nat),
    Writes s acc 0 R.ACC_ENG_HARQ_CFG 0 k ∧ s.get F.ACC_ENG_HARQ_STRIDE.SECTORS k = n ∧ bitsOf v.toNat 16 16 = c ∧
    s.isSet F.ACC_ENG_HARQ_CFG.EN k = true) :=
  ⟨
    ⟨30, engAs r0 30 { task := some ⟨7, 0⟩, phase := .done, code := 4 },
      { task := some ⟨7, 0⟩, phase := .done, code := 4 }, ⟨7, 0⟩, by decide +kernel⟩,
    ⟨30, engAs r0 30 { task := some ⟨7, 0⟩, phase := .done, code := 0x101, aux := 7 },
      { task := some ⟨7, 0⟩, phase := .done, code := 0x101, aux := 7 }, ⟨7, 0⟩, by decide +kernel⟩,
    ⟨30, engAs r0 30 { task := some ⟨7, 0⟩ }, { task := some ⟨7, 0⟩ }, ⟨7, 0⟩, by decide +kernel⟩,
    ⟨.chamois, 1, (engAs r0 30 { fault := true }).setReg R.ACC_ENG_SEL 7 30, 30, by decide +kernel⟩,
    ⟨.chamois, 1, (r0.setReg R.ACC_ENG_JOBS 30 5).setReg R.ACC_ENG_SEL 7 30, 30, by decide +kernel⟩,
    ⟨.chamois, 0x00080501, (r0.setReg R.ACC_ENG_HARQ_SEL 7 2).setReg R.ACC_ENG_HARQ_STRIDE 2 1, 2, 1, 8,
      by decide +kernel⟩,
    ⟨.chamois, 0x00080501, (r0.setReg R.ACC_ENG_HARQ_SEL 7 2), 2, 0, 8, by decide +kernel⟩,
    ⟨.chamois, 0x00090501, (space2 r0).setReg R.ACC_ENG_HARQ_SEL 7 2, 2, 1, 9, by decide +kernel⟩⟩

/-- Clauses 1.1, 1.2 of Obligations.EngineTasks: states that meet the hypotheses. -/
theorem witness_EngineTasks_3 :
  (∃ (e : Fin 104), ∃ (s : State), ∃ (h : Held), ∃ (c : Fin 32), ∃ (j : BitVec 512), ∃ w,
    s.engIn.get none e.val = some h ∧ (s.eng e.val).task = none ∧ (s.eng e.val).fault = false ∧
    s.domUp (domEngine e.val) = true ∧ Serves s c.val ∧ InScratch c.val (dJob h.d) 64 ∧
    Unhindered s (epEngine e.val) 0 ∧ (∀ k < 4, s.poisonAt (dJob h.d / 16 + k) = false ∧
    bitsOf j.toNat (128 * k) 128 = (s.word (dJob h.d / 16 + k)).toNat) ∧ jobCheck (engineType e.val) j = some w) ∧
  (∃ (e : Fin 104), ∃ (s : State), ∃ (h : Held), ∃ (c : Fin 32), ∃ (j : BitVec 512),
    s.engIn.get none e.val = some h ∧ (s.eng e.val).task = none ∧ (s.eng e.val).fault = false ∧
    s.domUp (domEngine e.val) = true ∧ Serves s c.val ∧ InScratch c.val (dJob h.d) 64 ∧
    Unhindered s (epEngine e.val) 0 ∧ (∀ k < 4, s.poisonAt (dJob h.d / 16 + k) = false ∧
    bitsOf j.toNat (128 * k) 128 = (s.word (dJob h.d / 16 + k)).toNat) ∧ jobCheck (engineType e.val) j = none ∧
    usesSoft (engineType e.val) j = false) :=
  ⟨
    ⟨13, jobAt 13 [0], ⟨7, BitVec.ofNat 512 (0x100 * 2 ^ 416)⟩, 0, 0, 0, by decide +kernel⟩,
    ⟨13, jobAt 13 fftJob, ⟨7, BitVec.ofNat 512 (0x100 * 2 ^ 416)⟩, 0, jobOf fftJob, by decide +kernel⟩⟩

/-- Clause 2.2 of Obligations.EngineTasks: states that meet the hypotheses. -/
theorem witness_EngineTasks_4 :
  (∃ (e : Fin 104), ∃ (s : State), ∃ (t : State), ∃ (h : Held), ∃ (c : Nat), ∃ (ds : List DataUnit),
    s.engIn.get none e.val = some h ∧ (s.eng e.val).task = none ∧ (s.eng e.val).fault = false ∧
    s.domUp (domEngine e.val) = true ∧ s.busUnits ⟨epEngine e.val, 0, 0, false⟩ 5 (dJob h.d / 16) 4 = (c, ds, t) ∧
    c ≠ codeWaits ∧ c ≠ 0) :=
    ⟨13, ({ r0 with engIn := [(13, some ⟨7, BitVec.ofNat 512 (0xFFFF * 2 ^ 416)⟩)] } : State),
      (({ r0 with engIn := [(13, some ⟨7, BitVec.ofNat 512 (0xFFFF * 2 ^ 416)⟩)] } : State).busUnits ⟨epEngine (13 : Fin 104).val,
      0, 0, false⟩ 5 (dJob (Held.d ⟨7, BitVec.ofNat 512 (0xFFFF * 2 ^ 416)⟩) / 16) 4).2.2, ⟨7,
      BitVec.ofNat 512 (0xFFFF * 2 ^ 416)⟩,
      (({ r0 with engIn := [(13, some ⟨7, BitVec.ofNat 512 (0xFFFF * 2 ^ 416)⟩)] } : State).busUnits ⟨epEngine (13 : Fin 104).val,
      0, 0, false⟩ 5 (dJob (Held.d ⟨7, BitVec.ofNat 512 (0xFFFF * 2 ^ 416)⟩) / 16) 4).1,
      (({ r0 with engIn := [(13, some ⟨7, BitVec.ofNat 512 (0xFFFF * 2 ^ 416)⟩)] } : State).busUnits ⟨epEngine (13 : Fin 104).val,
      0, 0, false⟩ 5 (dJob (Held.d ⟨7, BitVec.ofNat 512 (0xFFFF * 2 ^ 416)⟩) / 16) 4).2.1,
      by
    first | decide +kernel | ((repeat' apply And.intro) <;> first | decide +kernel | with_reducible rfl | rfl)⟩

/-- Clause 2.4.1 of Obligations.EngineTasks: states that meet the hypotheses. -/
theorem witness_EngineTasks_5 :
  (∃ (e : Fin 104), ∃ (s : State), ∃ (t : State), ∃ (h : Held), ∃ (c : Nat), ∃ (ds : List DataUnit), ∃ j, ∃ w,
    s.engIn.get none e.val = some h ∧ (s.eng e.val).task = none ∧ (s.eng e.val).fault = false ∧
    s.domUp (domEngine e.val) = true ∧ s.busUnits ⟨epEngine e.val, 0, 0, false⟩ 5 (dJob h.d / 16) 4 = (c, ds, t) ∧
    c = 0 ∧ ds.any (·.poison) = false ∧ j = BitVec.ofNat 512 (leValue (unitBytes ds 0 64)) ∧
    jobCheck (engineType e.val) j = some w) :=
    ⟨13, (jobAt 13 [0]), ((jobAt 13 [0]).busUnits ⟨epEngine (13 : Fin 104).val, 0, 0, false⟩ 5 (dJob (Held.d ⟨7,
      BitVec.ofNat 512 (0x100 * 2 ^ 416)⟩) / 16) 4).2.2, ⟨7, BitVec.ofNat 512 (0x100 * 2 ^ 416)⟩,
      ((jobAt 13 [0]).busUnits ⟨epEngine (13 : Fin 104).val, 0, 0, false⟩ 5 (dJob (Held.d ⟨7,
      BitVec.ofNat 512 (0x100 * 2 ^ 416)⟩) / 16) 4).1, ((jobAt 13 [0]).busUnits ⟨epEngine (13 : Fin 104).val, 0,
      0, false⟩ 5 (dJob (Held.d ⟨7, BitVec.ofNat 512 (0x100 * 2 ^ 416)⟩) / 16) 4).2.1, 0, 0,
      by
    first | decide +kernel | ((repeat' apply And.intro) <;> first | decide +kernel | with_reducible rfl | rfl)⟩

/-- Clause 2.4.2 of Obligations.EngineTasks: states that meet the hypotheses. -/
theorem witness_EngineTasks_6 :
  (∃ (e : Fin 104), ∃ (s : State), ∃ (t : State), ∃ (h : Held), ∃ (c : Nat), ∃ (ds : List DataUnit), ∃ j,
    s.engIn.get none e.val = some h ∧ (s.eng e.val).task = none ∧ (s.eng e.val).fault = false ∧
    s.domUp (domEngine e.val) = true ∧ s.busUnits ⟨epEngine e.val, 0, 0, false⟩ 5 (dJob h.d / 16) 4 = (c, ds, t) ∧
    c = 0 ∧ ds.any (·.poison) = false ∧ j = BitVec.ofNat 512 (leValue (unitBytes ds 0 64)) ∧
    jobCheck (engineType e.val) j = none ∧ usesSoft (engineType e.val) j = false) :=
    ⟨13, (jobAt 13 fftJob), ((jobAt 13 fftJob).busUnits ⟨epEngine (13 : Fin 104).val, 0, 0,
      false⟩ 5 (dJob (Held.d ⟨7, BitVec.ofNat 512 (0x100 * 2 ^ 416)⟩) / 16) 4).2.2, ⟨7,
      BitVec.ofNat 512 (0x100 * 2 ^ 416)⟩, ((jobAt 13 fftJob).busUnits ⟨epEngine (13 : Fin 104).val, 0, 0,
      false⟩ 5 (dJob (Held.d ⟨7, BitVec.ofNat 512 (0x100 * 2 ^ 416)⟩) / 16) 4).1,
      ((jobAt 13 fftJob).busUnits ⟨epEngine (13 : Fin 104).val, 0, 0, false⟩ 5 (dJob (Held.d ⟨7,
      BitVec.ofNat 512 (0x100 * 2 ^ 416)⟩) / 16) 4).2.1, jobOf fftJob,
      by
    first | decide +kernel | ((repeat' apply And.intro) <;> first | decide +kernel | with_reducible rfl | rfl)⟩

/-- Clause 2.3 of Obligations.EngineTasks: states that meet the hypotheses. -/
theorem witness_EngineTasks_7 :
  (∃ (e : Fin 104), ∃ (s : State), ∃ (t : State), ∃ (h : Held), ∃ (c : Nat), ∃ (ds : List DataUnit),
    s.engIn.get none e.val = some h ∧ (s.eng e.val).task = none ∧ (s.eng e.val).fault = false ∧
    s.domUp (domEngine e.val) = true ∧ s.busUnits ⟨epEngine e.val, 0, 0, false⟩ 5 (dJob h.d / 16) 4 = (c, ds, t) ∧
    c = 0 ∧ ds.any (·.poison) = true) :=
    ⟨13,
      ({ jobAt 13 [0] with store := { (jobAt 13 [0]).store with poison := [(baseScratch / 16, true)] } } : State),
      (({ jobAt 13 [0] with store := { (jobAt 13 [0]).store with poison := [(baseScratch / 16, true)] } } : State).busUnits ⟨epEngine (13 : Fin 104).val,
      0, 0, false⟩ 5 (dJob (Held.d ⟨7, BitVec.ofNat 512 (0x100 * 2 ^ 416)⟩) / 16) 4).2.2, ⟨7,
      BitVec.ofNat 512 (0x100 * 2 ^ 416)⟩,
      (({ jobAt 13 [0] with store := { (jobAt 13 [0]).store with poison := [(baseScratch / 16, true)] } } : State).busUnits ⟨epEngine (13 : Fin 104).val,
      0, 0, false⟩ 5 (dJob (Held.d ⟨7, BitVec.ofNat 512 (0x100 * 2 ^ 416)⟩) / 16) 4).1,
      (({ jobAt 13 [0] with store := { (jobAt 13 [0]).store with poison := [(baseScratch / 16, true)] } } : State).busUnits ⟨epEngine (13 : Fin 104).val,
      0, 0, false⟩ 5 (dJob (Held.d ⟨7, BitVec.ofNat 512 (0x100 * 2 ^ 416)⟩) / 16) 4).2.1,
      by
    first | decide +kernel | ((repeat' apply And.intro) <;> first | decide +kernel | with_reducible rfl | rfl)⟩

/-- Clauses 1.1, 1.2, 1.3, 1.4, 1.5.1, 1.5.2, 1.5.3, 1.5.4 of Obligations.JobsRun: states that meet the hypotheses.
-/
theorem witness_JobsRun_1 :
  (∃ (e : Fin 104), ∃ (s : State), ∃ (j : BitVec 512), ∃ (x : Eng),
    s.eng e.val = x ∧ x.job = j ∧ x.phase = .ready ∧ x.fault = false ∧ s.domUp (domEngine e.val) = true ∧
    engineType e.val = 0) ∧
  (∃ (e : Fin 104), ∃ (s : State), ∃ (j : BitVec 512), ∃ (x : Eng),
    s.eng e.val = x ∧ x.job = j ∧ x.phase = .ready ∧ x.fault = false ∧ s.domUp (domEngine e.val) = true ∧
    engineType e.val = 1) ∧
  (∃ (e : Fin 104), ∃ (s : State), ∃ (j : BitVec 512), ∃ (x : Eng),
    s.eng e.val = x ∧ x.job = j ∧ x.phase = .ready ∧ x.fault = false ∧ s.domUp (domEngine e.val) = true ∧
    engineType e.val = 2) ∧
  (∃ (e : Fin 104), ∃ (s : State), ∃ (j : BitVec 512), ∃ (x : Eng),
    s.eng e.val = x ∧ x.job = j ∧ x.phase = .ready ∧ x.fault = false ∧ s.domUp (domEngine e.val) = true ∧
    engineType e.val = 3) ∧
  (∃ (e : Fin 104), ∃ (s : State), ∃ (j : BitVec 512), ∃ (x : Eng),
    s.eng e.val = x ∧ x.job = j ∧ x.phase = .ready ∧ x.fault = false ∧ s.domUp (domEngine e.val) = true ∧
    engineType e.val = 4 ∧ jFld j 7 0 3 = 0) ∧
  (∃ (e : Fin 104), ∃ (s : State), ∃ (j : BitVec 512), ∃ (x : Eng),
    s.eng e.val = x ∧ x.job = j ∧ x.phase = .ready ∧ x.fault = false ∧ s.domUp (domEngine e.val) = true ∧
    engineType e.val = 4 ∧ jFld j 7 0 3 = 2) ∧
  (∃ (e : Fin 104), ∃ (s : State), ∃ (j : BitVec 512), ∃ (x : Eng),
    s.eng e.val = x ∧ x.job = j ∧ x.phase = .ready ∧ x.fault = false ∧ s.domUp (domEngine e.val) = true ∧
    engineType e.val = 4 ∧ jFld j 7 0 3 = 1) ∧
  (∃ (e : Fin 104), ∃ (s : State), ∃ (j : BitVec 512), ∃ (x : Eng),
    s.eng e.val = x ∧ x.job = j ∧ x.phase = .ready ∧ x.fault = false ∧ s.domUp (domEngine e.val) = true ∧
    engineType e.val = 4 ∧ jFld j 7 0 3 = 3) :=
  ⟨
    ⟨0, engAs r0 0 { phase := .ready }, 0, { phase := .ready }, by decide +kernel⟩,
    ⟨4, engAs r0 4 { phase := .ready }, 0, { phase := .ready }, by decide +kernel⟩,
    ⟨6, engAs r0 6 { phase := .ready }, 0, { phase := .ready }, by decide +kernel⟩,
    ⟨8, engAs r0 8 { phase := .ready }, 0, { phase := .ready }, by decide +kernel⟩,
    ⟨10, engAs r0 10 { phase := .ready }, 0, { phase := .ready }, by decide +kernel⟩,
    ⟨10, engAs r0 10 { phase := .ready, job := BitVec.ofNat 512 (2 * 2 ^ 224) }, BitVec.ofNat 512 (2 * 2 ^ 224),
      { phase := .ready, job := BitVec.ofNat 512 (2 * 2 ^ 224) }, by decide +kernel⟩,
    ⟨10, engAs r0 10 { phase := .ready, job := BitVec.ofNat 512 (1 * 2 ^ 224) }, BitVec.ofNat 512 (1 * 2 ^ 224),
      { phase := .ready, job := BitVec.ofNat 512 (1 * 2 ^ 224) }, by decide +kernel⟩,
    ⟨10, engAs r0 10 { phase := .ready, job := BitVec.ofNat 512 (3 * 2 ^ 224) }, BitVec.ofNat 512 (3 * 2 ^ 224),
      { phase := .ready, job := BitVec.ofNat 512 (3 * 2 ^ 224) }, by decide +kernel⟩⟩

/-- Clauses 1.5.5, 1.6, 1.7.1, 1.7.2, 1.7.3, 1.7.4, 1.7.5, 1.8 of Obligations.JobsRun: states that meet the
hypotheses. -/
theorem witness_JobsRun_2 :
  (∃ (e : Fin 104), ∃ (s : State), ∃ (j : BitVec 512), ∃ (x : Eng),
    s.eng e.val = x ∧ x.job = j ∧ x.phase = .ready ∧ x.fault = false ∧ s.domUp (domEngine e.val) = true ∧
    engineType e.val = 4 ∧ jFld j 7 0 3 = 4) ∧
  (∃ (e : Fin 104), ∃ (s : State), ∃ (j : BitVec 512), ∃ (x : Eng),
    s.eng e.val = x ∧ x.job = j ∧ x.phase = .ready ∧ x.fault = false ∧ s.domUp (domEngine e.val) = true ∧
    engineType e.val = 5) ∧
  (∃ (e : Fin 104), ∃ (s : State), ∃ (j : BitVec 512), ∃ (x : Eng),
    s.eng e.val = x ∧ x.job = j ∧ x.phase = .ready ∧ x.fault = false ∧ s.domUp (domEngine e.val) = true ∧
    engineType e.val = 6 ∧ jFld j 7 0 4 = 0) ∧
  (∃ (e : Fin 104), ∃ (s : State), ∃ (j : BitVec 512), ∃ (x : Eng),
    s.eng e.val = x ∧ x.job = j ∧ x.phase = .ready ∧ x.fault = false ∧ s.domUp (domEngine e.val) = true ∧
    engineType e.val = 6 ∧ jFld j 7 0 4 = 1) ∧
  (∃ (e : Fin 104), ∃ (s : State), ∃ (j : BitVec 512), ∃ (x : Eng),
    s.eng e.val = x ∧ x.job = j ∧ x.phase = .ready ∧ x.fault = false ∧ s.domUp (domEngine e.val) = true ∧
    engineType e.val = 6 ∧ jFld j 7 0 4 = 2) ∧
  (∃ (e : Fin 104), ∃ (s : State), ∃ (j : BitVec 512), ∃ (x : Eng),
    s.eng e.val = x ∧ x.job = j ∧ x.phase = .ready ∧ x.fault = false ∧ s.domUp (domEngine e.val) = true ∧
    engineType e.val = 6 ∧ jFld j 7 0 4 = 3) ∧
  (∃ (e : Fin 104), ∃ (s : State), ∃ (j : BitVec 512), ∃ (x : Eng),
    s.eng e.val = x ∧ x.job = j ∧ x.phase = .ready ∧ x.fault = false ∧ s.domUp (domEngine e.val) = true ∧
    engineType e.val = 6 ∧ jFld j 7 0 4 = 4) ∧
  (∃ (e : Fin 104), ∃ (s : State), ∃ (j : BitVec 512), ∃ (x : Eng),
    s.eng e.val = x ∧ x.job = j ∧ x.phase = .ready ∧ x.fault = false ∧ s.domUp (domEngine e.val) = true ∧
    engineType e.val = 7) :=
  ⟨
    ⟨10, engAs r0 10 { phase := .ready, job := BitVec.ofNat 512 (4 * 2 ^ 224) }, BitVec.ofNat 512 (4 * 2 ^ 224),
      { phase := .ready, job := BitVec.ofNat 512 (4 * 2 ^ 224) }, by decide +kernel⟩,
    ⟨13, engAs r0 13 { phase := .ready, job := jobOf fftJob }, jobOf fftJob,
      { phase := .ready, job := jobOf fftJob }, by decide +kernel⟩,
    ⟨21, engAs r0 21 { phase := .ready }, 0, { phase := .ready }, by decide +kernel⟩,
    ⟨21, engAs r0 21 { phase := .ready, job := BitVec.ofNat 512 (1 * 2 ^ 224) }, BitVec.ofNat 512 (1 * 2 ^ 224),
      { phase := .ready, job := BitVec.ofNat 512 (1 * 2 ^ 224) }, by decide +kernel⟩,
    ⟨21, engAs r0 21 { phase := .ready, job := BitVec.ofNat 512 (2 * 2 ^ 224) }, BitVec.ofNat 512 (2 * 2 ^ 224),
      { phase := .ready, job := BitVec.ofNat 512 (2 * 2 ^ 224) }, by decide +kernel⟩,
    ⟨21, engAs r0 21 { phase := .ready, job := BitVec.ofNat 512 (3 * 2 ^ 224) }, BitVec.ofNat 512 (3 * 2 ^ 224),
      { phase := .ready, job := BitVec.ofNat 512 (3 * 2 ^ 224) }, by decide +kernel⟩,
    ⟨21, engAs r0 21 { phase := .ready, job := BitVec.ofNat 512 (4 * 2 ^ 224) }, BitVec.ofNat 512 (4 * 2 ^ 224),
      { phase := .ready, job := BitVec.ofNat 512 (4 * 2 ^ 224) }, by decide +kernel⟩,
    ⟨25, engAs r0 25 { phase := .ready }, 0, { phase := .ready }, by decide +kernel⟩⟩

/-- Clauses 2.1, 2.2, 2.3, 2.4, 2.5, 2.6, 2.7, 2.8 of Obligations.JobsRun: states that meet the hypotheses. -/
theorem witness_JobsRun_3 :
  (∃ (e : Fin 104), ∃ (s : State), ∃ (j : BitVec 512),
    (s.eng e.val).job = j ∧ (s.eng e.val).phase = .ready ∧ (s.eng e.val).fault = false ∧
    s.domUp (domEngine e.val) = true ∧ JobServed s e.val ∧ jobCheck (engineType e.val) j = none ∧
    (s.eng e.val).sbase % 64 = 0 ∧ engineType e.val = 0) ∧
  (∃ (e : Fin 104), ∃ (s : State), ∃ (j : BitVec 512),
    (s.eng e.val).job = j ∧ (s.eng e.val).phase = .ready ∧ (s.eng e.val).fault = false ∧
    s.domUp (domEngine e.val) = true ∧ JobServed s e.val ∧ jobCheck (engineType e.val) j = none ∧
    (s.eng e.val).sbase % 64 = 0 ∧ engineType e.val = 1) ∧
  (∃ (e : Fin 104), ∃ (s : State), ∃ (j : BitVec 512),
    (s.eng e.val).job = j ∧ (s.eng e.val).phase = .ready ∧ (s.eng e.val).fault = false ∧
    s.domUp (domEngine e.val) = true ∧ JobServed s e.val ∧ jobCheck (engineType e.val) j = none ∧
    (s.eng e.val).sbase % 64 = 0 ∧ engineType e.val = 2) ∧
  (∃ (e : Fin 104), ∃ (s : State), ∃ (j : BitVec 512),
    (s.eng e.val).job = j ∧ (s.eng e.val).phase = .ready ∧ (s.eng e.val).fault = false ∧
    s.domUp (domEngine e.val) = true ∧ JobServed s e.val ∧ jobCheck (engineType e.val) j = none ∧
    (s.eng e.val).sbase % 64 = 0 ∧ engineType e.val = 3) ∧
  (∃ (e : Fin 104), ∃ (s : State), ∃ (j : BitVec 512),
    (s.eng e.val).job = j ∧ (s.eng e.val).phase = .ready ∧ (s.eng e.val).fault = false ∧
    s.domUp (domEngine e.val) = true ∧ JobServed s e.val ∧ jobCheck (engineType e.val) j = none ∧
    (s.eng e.val).sbase % 64 = 0 ∧ engineType e.val = 4 ∧ jFld j 7 0 3 = 0) ∧
  (∃ (e : Fin 104), ∃ (s : State), ∃ (j : BitVec 512),
    (s.eng e.val).job = j ∧ (s.eng e.val).phase = .ready ∧ (s.eng e.val).fault = false ∧
    s.domUp (domEngine e.val) = true ∧ JobServed s e.val ∧ jobCheck (engineType e.val) j = none ∧
    (s.eng e.val).sbase % 64 = 0 ∧ engineType e.val = 4 ∧ jFld j 7 0 3 = 1) ∧
  (∃ (e : Fin 104), ∃ (s : State), ∃ (j : BitVec 512),
    (s.eng e.val).job = j ∧ (s.eng e.val).phase = .ready ∧ (s.eng e.val).fault = false ∧
    s.domUp (domEngine e.val) = true ∧ JobServed s e.val ∧ jobCheck (engineType e.val) j = none ∧
    (s.eng e.val).sbase % 64 = 0 ∧ engineType e.val = 4 ∧ jFld j 7 0 3 = 2) ∧
  (∃ (e : Fin 104), ∃ (s : State), ∃ (j : BitVec 512),
    (s.eng e.val).job = j ∧ (s.eng e.val).phase = .ready ∧ (s.eng e.val).fault = false ∧
    s.domUp (domEngine e.val) = true ∧ JobServed s e.val ∧ jobCheck (engineType e.val) j = none ∧
    (s.eng e.val).sbase % 64 = 0 ∧ engineType e.val = 4 ∧ jFld j 7 0 3 = 3) :=
  ⟨
    ⟨0,
      engAs r0 0 { phase := .ready, job := jobOf [0x10, 0x1000, 0x100, 0x2000, 0x100, 0, 0, 0x10002, 0x2c, 0x10064, 0x80, 0x40, 0, 0, 0, 0] },
      jobOf [0x10, 0x1000, 0x100, 0x2000, 0x100, 0, 0, 0x10002, 0x2c, 0x10064, 0x80, 0x40, 0, 0, 0, 0],
      by
    refine ⟨?_, ?_, ?_, ?_, jobServed_scratch 0 ?_ ?_ ?_ ?_, ?_, ?_, ?_⟩ <;> decide +kernel⟩,
    ⟨4,
      engAs r0 4 { phase := .ready, job := jobOf [0x11, 0x1000, 0x100, 0x2000, 0x100, 0, 0, 2, 0x2c, 0x10064, 0x40, 0x40, 0, 0, 0, 0] },
      jobOf [0x11, 0x1000, 0x100, 0x2000, 0x100, 0, 0, 2, 0x2c, 0x10064, 0x40, 0x40, 0, 0, 0, 0],
      by
    refine ⟨?_, ?_, ?_, ?_, jobServed_scratch 0 ?_ ?_ ?_ ?_, ?_, ?_, ?_⟩ <;> decide +kernel⟩,
    ⟨6,
      engAs r0 6 { phase := .ready, job := jobOf [0x12, 0x1000, 0x100, 0x2000, 0x100, 0, 0, 0x10028, 0x10000, 0xc0, 0x40, 0, 0, 0, 0, 0] },
      jobOf [0x12, 0x1000, 0x100, 0x2000, 0x100, 0, 0, 0x10028, 0x10000, 0xc0, 0x40, 0, 0, 0, 0, 0],
      by
    refine ⟨?_, ?_, ?_, ?_, jobServed_scratch 0 ?_ ?_ ?_ ?_, ?_, ?_, ?_⟩ <;> decide +kernel⟩,
    ⟨8,
      engAs r0 8 { phase := .ready, job := jobOf [0x13, 0x1000, 0x100, 0x2000, 0x100, 0, 0, 0x14020, 0x1e, 1, 0x40, 0x40, 0, 0, 0, 0] },
      jobOf [0x13, 0x1000, 0x100, 0x2000, 0x100, 0, 0, 0x14020, 0x1e, 1, 0x40, 0x40, 0, 0, 0, 0],
      by
    refine ⟨?_, ?_, ?_, ?_, jobServed_scratch 0 ?_ ?_ ?_ ?_, ?_, ?_, ?_⟩ <;> decide +kernel⟩,
    ⟨10,
      engAs r0 10 { phase := .ready, job := jobOf [0x14, 0x1000, 0x100, 0x2000, 0x100, 0, 0, 0x200, 0x10003, 2, 0x64, 4, 4, 1, 0, 0x80] },
      jobOf [0x14, 0x1000, 0x100, 0x2000, 0x100, 0, 0, 0x200, 0x10003, 2, 0x64, 4, 4, 1, 0, 0x80],
      by
    refine ⟨?_, ?_, ?_, ?_, jobServed_scratch 0 ?_ ?_ ?_ ?_, ?_, ?_, ?_, ?_⟩ <;> decide +kernel⟩,
    ⟨10,
      engAs r0 10 { phase := .ready, job := jobOf [0x14, 0x1000, 0x100, 0x2000, 0x100, 0, 0, 0x201, 0x10003, 2, 0x64, 4, 4, 1, 0, 0x80] },
      jobOf [0x14, 0x1000, 0x100, 0x2000, 0x100, 0, 0, 0x201, 0x10003, 2, 0x64, 4, 4, 1, 0, 0x80],
      by
    refine ⟨?_, ?_, ?_, ?_, jobServed_scratch 0 ?_ ?_ ?_ ?_, ?_, ?_, ?_, ?_⟩ <;> decide +kernel⟩,
    ⟨10,
      engAs r0 10 { phase := .ready, job := jobOf [0x14, 0x1000, 0x100, 0x2000, 0x100, 0, 0, 0x202, 0x10003, 0x28, 0x64, 4, 4, 1, 0, 0x80] },
      jobOf [0x14, 0x1000, 0x100, 0x2000, 0x100, 0, 0, 0x202, 0x10003, 0x28, 0x64, 4, 4, 1, 0, 0x80],
      by
    refine ⟨?_, ?_, ?_, ?_, jobServed_scratch 0 ?_ ?_ ?_ ?_, ?_, ?_, ?_, ?_⟩ <;> decide +kernel⟩,
    ⟨10,
      engAs r0 10 { phase := .ready, job := jobOf [0x14, 0x1000, 0x100, 0x2000, 0x100, 0, 0, 0x203, 0x10003, 0x28, 0x64, 4, 4, 1, 0, 0x80] },
      jobOf [0x14, 0x1000, 0x100, 0x2000, 0x100, 0, 0, 0x203, 0x10003, 0x28, 0x64, 4, 4, 1, 0, 0x80],
      by
    refine ⟨?_, ?_, ?_, ?_, jobServed_scratch 0 ?_ ?_ ?_ ?_, ?_, ?_, ?_, ?_⟩ <;> decide +kernel⟩⟩

/-- Clauses 2.9, 2.10, 2.11, 2.12, 2.13, 2.14, 2.15, 2.16 of Obligations.JobsRun: states that meet the hypotheses.
-/
theorem witness_JobsRun_4 :
  (∃ (e : Fin 104), ∃ (s : State), ∃ (j : BitVec 512),
    (s.eng e.val).job = j ∧ (s.eng e.val).phase = .ready ∧ (s.eng e.val).fault = false ∧
    s.domUp (domEngine e.val) = true ∧ JobServed s e.val ∧ jobCheck (engineType e.val) j = none ∧
    (s.eng e.val).sbase % 64 = 0 ∧ engineType e.val = 4 ∧ jFld j 7 0 3 = 4) ∧
  (∃ (e : Fin 104), ∃ (s : State), ∃ (j : BitVec 512),
    (s.eng e.val).job = j ∧ (s.eng e.val).phase = .ready ∧ (s.eng e.val).fault = false ∧
    s.domUp (domEngine e.val) = true ∧ JobServed s e.val ∧ jobCheck (engineType e.val) j = none ∧
    (s.eng e.val).sbase % 64 = 0 ∧ engineType e.val = 5) ∧
  (∃ (e : Fin 104), ∃ (s : State), ∃ (j : BitVec 512),
    (s.eng e.val).job = j ∧ (s.eng e.val).phase = .ready ∧ (s.eng e.val).fault = false ∧
    s.domUp (domEngine e.val) = true ∧ JobServed s e.val ∧ jobCheck (engineType e.val) j = none ∧
    (s.eng e.val).sbase % 64 = 0 ∧ engineType e.val = 6 ∧ jFld j 7 0 4 = 0) ∧
  (∃ (e : Fin 104), ∃ (s : State), ∃ (j : BitVec 512),
    (s.eng e.val).job = j ∧ (s.eng e.val).phase = .ready ∧ (s.eng e.val).fault = false ∧
    s.domUp (domEngine e.val) = true ∧ JobServed s e.val ∧ jobCheck (engineType e.val) j = none ∧
    (s.eng e.val).sbase % 64 = 0 ∧ engineType e.val = 6 ∧ jFld j 7 0 4 = 1) ∧
  (∃ (e : Fin 104), ∃ (s : State), ∃ (j : BitVec 512),
    (s.eng e.val).job = j ∧ (s.eng e.val).phase = .ready ∧ (s.eng e.val).fault = false ∧
    s.domUp (domEngine e.val) = true ∧ JobServed s e.val ∧ jobCheck (engineType e.val) j = none ∧
    (s.eng e.val).sbase % 64 = 0 ∧ engineType e.val = 6 ∧ jFld j 7 0 4 = 2) ∧
  (∃ (e : Fin 104), ∃ (s : State), ∃ (j : BitVec 512),
    (s.eng e.val).job = j ∧ (s.eng e.val).phase = .ready ∧ (s.eng e.val).fault = false ∧
    s.domUp (domEngine e.val) = true ∧ JobServed s e.val ∧ jobCheck (engineType e.val) j = none ∧
    (s.eng e.val).sbase % 64 = 0 ∧ engineType e.val = 6 ∧ jFld j 7 0 4 = 3) ∧
  (∃ (e : Fin 104), ∃ (s : State), ∃ (j : BitVec 512),
    (s.eng e.val).job = j ∧ (s.eng e.val).phase = .ready ∧ (s.eng e.val).fault = false ∧
    s.domUp (domEngine e.val) = true ∧ JobServed s e.val ∧ jobCheck (engineType e.val) j = none ∧
    (s.eng e.val).sbase % 64 = 0 ∧ engineType e.val = 6 ∧ jFld j 7 0 4 = 4) ∧
  (∃ (e : Fin 104), ∃ (s : State), ∃ (j : BitVec 512),
    (s.eng e.val).job = j ∧ (s.eng e.val).phase = .ready ∧ (s.eng e.val).fault = false ∧
    s.domUp (domEngine e.val) = true ∧ JobServed s e.val ∧ jobCheck (engineType e.val) j = none ∧
    (s.eng e.val).sbase % 64 = 0 ∧ engineType e.val = 7) :=
  ⟨
    ⟨10,
      engAs r0 10 { phase := .ready, job := jobOf [0x14, 0, 0, 0, 0, 0, 0, 0x204, 0x10003, 2, 0x64, 4, 4, 1, 0, 0x80], sbase := baseScratch + 0x10000 },
      jobOf [0x14, 0, 0, 0, 0, 0, 0, 0x204, 0x10003, 2, 0x64, 4, 4, 1, 0, 0x80], by
    refine ⟨?_, ?_, ?_, ?_,
      jobServed_scratch 0 ?_ ?_ ?_ ?_, ?_, ?_, ?_, ?_⟩ <;> decide +kernel⟩,
    ⟨13, engAs r0 13 { phase := .ready, job := jobOf fftJob }, jobOf fftJob, by
    refine ⟨?_, ?_, ?_, ?_,
      jobServed_scratch 0 ?_ ?_ ?_ ?_, ?_, ?_, ?_⟩ <;> decide +kernel⟩,
    ⟨21,
      engAs r0 21 { phase := .ready, job := jobOf [0x16, 0x1000, 0x100, 0x2000, 0x100, 0, 0, 0x1010100, 1, 0x3000, 0x100, 0, 0, 0x40, 0, 0] },
      jobOf [0x16, 0x1000, 0x100, 0x2000, 0x100, 0, 0, 0x1010100, 1, 0x3000, 0x100, 0, 0, 0x40, 0, 0],
      by
    refine ⟨?_, ?_, ?_, ?_, jobServed_scratch 0 ?_ ?_ ?_ ?_, ?_, ?_, ?_, ?_⟩ <;> decide +kernel⟩,
    ⟨21,
      engAs r0 21 { phase := .ready, job := jobOf [0x16, 0x1000, 0x100, 0x2000, 0x100, 0, 0, 0x10001, 1, 0, 0, 0, 0, 0x40, 0, 0] },
      jobOf [0x16, 0x1000, 0x100, 0x2000, 0x100, 0, 0, 0x10001, 1, 0, 0, 0, 0, 0x40, 0, 0], by
    refine ⟨?_, ?_,
      ?_, ?_, jobServed_scratch 0 ?_ ?_ ?_ ?_, ?_, ?_, ?_, ?_⟩ <;> decide +kernel⟩,
    ⟨21,
      engAs r0 21 { phase := .ready, job := jobOf [0x16, 0x1000, 0x100, 0x2000, 0x100, 0, 0, 0x10102, 1, 0, 0, 0, 0, 0x40, 0, 0] },
      jobOf [0x16, 0x1000, 0x100, 0x2000, 0x100, 0, 0, 0x10102, 1, 0, 0, 0, 0, 0x40, 0, 0], by
    refine ⟨?_, ?_,
      ?_, ?_, jobServed_scratch 0 ?_ ?_ ?_ ?_, ?_, ?_, ?_, ?_⟩ <;> decide +kernel⟩,
    ⟨21,
      engAs r0 21 { phase := .ready, job := jobOf [0x16, 0x1000, 0x100, 0x2000, 0x100, 0, 0, 0x10103, 1, 0x3000, 0x100, 0, 0, 0x40, 0, 0] },
      jobOf [0x16, 0x1000, 0x100, 0x2000, 0x100, 0, 0, 0x10103, 1, 0x3000, 0x100, 0, 0, 0x40, 0, 0],
      by
    refine ⟨?_, ?_, ?_, ?_, jobServed_scratch 0 ?_ ?_ ?_ ?_, ?_, ?_, ?_, ?_⟩ <;> decide +kernel⟩,
    ⟨21,
      engAs r0 21 { phase := .ready, job := jobOf [0x16, 0x1000, 0x100, 0x2000, 0x100, 0, 0, 0x1010104, 0x1000001, 0x3000, 0x100, 0, 0, 0x40, 0, 0] },
      jobOf [0x16, 0x1000, 0x100, 0x2000, 0x100, 0, 0, 0x1010104, 0x1000001, 0x3000, 0x100, 0, 0, 0x40, 0, 0],
      by
    refine ⟨?_, ?_, ?_, ?_, jobServed_scratch 0 ?_ ?_ ?_ ?_, ?_, ?_, ?_, ?_⟩ <;> decide +kernel⟩,
    ⟨25,
      engAs r0 25 { phase := .ready, job := jobOf [0x17, 0x1000, 0x100, 0, 0, 0x4000, 0x100, 0x10104, 0, 0x101, 0, 0, 0, 0, 0, 0] },
      jobOf [0x17, 0x1000, 0x100, 0, 0, 0x4000, 0x100, 0x10104, 0, 0x101, 0, 0, 0, 0, 0, 0], by
    refine ⟨?_,
      ?_, ?_, ?_, jobServed_scratch 0 ?_ ?_ ?_ ?_, ?_, ?_, ?_⟩ <;> decide +kernel⟩⟩

/-- Clauses 3, 4.2, 4.1, 6.2 of Obligations.JobsRun: states that meet the hypotheses. -/
theorem witness_JobsRun_5 :
  (∃ (e : Nat), ∃ (s : State), ∃ (t : State), ∃ (u : State), ∃ (blur : List (Nat × Nat)), ∃ (body : Job JobDone), ∃ (d : JobDone),
    (body s).toOption = some (d, t) ∧ (jobRecord e (s.eng e).job (s.eng e).start d t).toOption = some ((), u) ∧
    (u.eng e).lock = 0) ∧
  (∃ (e : Nat), ∃ (s : State), ∃ (blur : List (Nat × Nat)), ∃ (z : JobStop),
    z.code ≠ codeWaits) ∧
  (∃ (e : Nat), ∃ (s : State), ∃ (blur : List (Nat × Nat)), ∃ (z : JobStop),
    z.code = codeWaits) ∧
  (∃ (addr : Nat), ∃ (bs : List Byte), ∃ (pz : Nat → Bool), ∃ (k : Nat), ∃ (x : WUnit),
    (lineUnits addr bs pz)[k]? = some x) :=
  ⟨
    ⟨3, r0, r0, r0, [], fun s => .ok ({ items := 5 }, s), { items := 5 }, by decide +kernel⟩,
    ⟨3, r0, [(baseScratch, 64)], ⟨0x102, 3, r0, none, {}⟩, by decide +kernel⟩,
    ⟨3, r0, [(baseScratch, 64)], ⟨codeWaits, 3, r0, none, {}⟩, by decide +kernel⟩,
    ⟨64, List.replicate 70 5, fun _ => true, 5, { w := 9, be := 65535, data := 0, poison := false },
      by decide +kernel⟩⟩

/-- Clauses 3, 5, 6, 8, 12 of Obligations.CodingResults: states that meet the hypotheses. -/
theorem witness_CodingResults_1 :
  (∃ (l : List Bool), ∃ (k : Nat),
    k < l.length) ∧
  (∃ (l : List Bool), ∃ (k : Nat),
    k < l.length) ∧
  (∃ (c : Crc), ∃ (l : List Bool),
    (c = crc24a ∨ c = crc24b ∨ c = crc16)) ∧
  (∃ (c : Crc), ∃ (l : List Bool),
    (c = crc24a ∨ c = crc24b ∨ c = crc16)) ∧
  (∃ (m : Nat), ∃ (f : Nat → Bool),
    0 < m) ∧
  (∃ (m : Nat), ∃ (f : Nat → Bool),
    0 < m) ∧
  (∃ (q : Nat), ∃ (m : Nat), ∃ (t : Nat),
    0 < q ∧ 0 < m ∧ t < q * m) ∧
  (∃ (d0 : DataUnit), ∃ (d1 : DataUnit), ∃ (d2 : DataUnit), ∃ (d3 : DataUnit),
    (d0.poison = true ∨ d1.poison = true ∨ d2.poison = true ∨ d3.poison = true)) :=
  ⟨
    ⟨[true, false, true, true, false, false, true, true, true, false, true], 10, by decide +kernel⟩,
    ⟨[true, false, true, true, false, false, true, true, true, false, true], 3, by decide +kernel⟩,
    ⟨crc24b, [true, false, true, true, false, false, true, true, true, false, true], by decide +kernel⟩,
    ⟨crc16, [true, false, true, true, false, false, true, true, true, false, true], by decide +kernel⟩,
    ⟨8, fun k => decide (k = 3), by decide +kernel⟩,
    ⟨8, fun k => decide (k = 9), by decide +kernel⟩,
    ⟨6, 4, 23, by decide +kernel⟩,
    ⟨⟨5, false⟩, ⟨5, false⟩, ⟨5, false⟩, ⟨5, true⟩, by decide +kernel⟩⟩

/-- Clause 13 of Obligations.CodingResults: states that meet the hypotheses. -/
theorem witness_CodingResults_2 :
  (∃ (ds : List DataUnit), ∃ (n : Nat),
    (∀ x ∈ ds, x.poison = true)) :=
    ⟨[⟨5, true⟩], 9, by decide +kernel⟩

/-- Clauses 1, 2, 3, 4, 10 of Obligations.SignalResults: states that meet the hypotheses. -/
theorem witness_SignalResults_1 :
  (∃ (v : Int), ∃ (d : Nat),
    0 < d) ∧
  (∃ (v : Int), ∃ (d : Nat),
    0 < d) ∧
  (∃ (x : Bool), ∃ (v : Int), ∃ (m : Int),
    (m = (if x then 2 ^ 31 else 2 ^ 15))) ∧
  (∃ (x : Bool), ∃ (v : Int), ∃ (m : Int),
    (m = (if x then 2 ^ 31 else 2 ^ 15))) ∧
  (∃ (j : BitVec 512), ∃ (n : Nat), ∃ (u : Nat), ∃ (i : Nat),
    fftSize (jFld j 7 0 3) = n ∧ jFld j 7 16 13 = u ∧ 0 < u ∧ i < u) ∧
  (∃ (j : BitVec 512), ∃ (n : Nat), ∃ (u : Nat), ∃ (i : Nat),
    fftSize (jFld j 7 0 3) = n ∧ jFld j 7 16 13 = u ∧ 0 < u ∧ i < u) ∧
  (∃ (j : BitVec 512), ∃ (i : Nat), ∃ (k : Nat),
    fftBad j 7 = false ∧ i < fftUsed j ∧ k < fftUsed j) ∧
  (∃ (f : Nat → Nat), ∃ (lo : Nat), ∃ (hi : Nat), ∃ (l : Nat), ∃ (p : Nat),
    lo < hi ∧ prachPeak f lo hi = (l, p)) :=
  ⟨
    ⟨-7, 2, by decide +kernel⟩,
    ⟨5, 2, by decide +kernel⟩,
    ⟨false, 32768, 32768, by decide +kernel⟩,
    ⟨true, -2147483648, 2147483648, by decide +kernel⟩,
    ⟨jobOf [0, 0, 0, 0, 0, 0, 0, 0x04B00105], 2048, 1200, 599, by decide +kernel⟩,
    ⟨jobOf [0, 0, 0, 0, 0, 0, 0, 0x04B00105], 2048, 1200, 600, by decide +kernel⟩,
    ⟨jobOf [0, 0, 0, 0, 0, 0, 0, 0x04B00105], 599, 600, by decide +kernel⟩,
    ⟨fun k => k % 7, 3, 20, 6, 6, by decide +kernel⟩⟩

/-- Clause 8 of Obligations.SignalResults: states that meet the hypotheses. -/
theorem witness_SignalResults_2 :
  (∃ (x : Comp), ∃ (n : Nat),
    x.zero = false ∧ x.real = false) :=
    ⟨⟨77, false, false, false⟩, 3, by decide +kernel⟩

/-- Clause 6 of Obligations.SignalResults: states that meet the hypotheses. -/
theorem witness_SignalResults_3 :
  (∃ (x : Bool), ∃ (cols : Nat), ∃ (vs : List (List Byte)),
    (∀ r ∈ vs, r.length = cols * sampleBytes x)) :=
    ⟨false, 3, [List.replicate 12 1, List.replicate 12 2],
      by
    first | decide +kernel | ((repeat' first | apply And.intro | apply Prod.ext) <;> first | decide +kernel | with_reducible rfl | rfl)⟩

/-- Clause 7.1 of Obligations.SignalResults: states that meet the hypotheses. -/
theorem witness_SignalResults_4 :
  (∃ (j : BitVec 512), ∃ (pe : Nat), ∃ (n : Nat), ∃ (r : Nat), ∃ (c : Nat), ∃ (a : List Byte), ∃ (b : Bool), ∃ (x : Comp × Comp),
    (matChol j pe a).outs[0]?.map (fun m => m.elem r c) = some x) :=
    ⟨(jobOf [0, 0, 0, 0, 0, 0, 0, 0x00020001]), 0, 3, 0, 1, [], true, ((matChol (jobOf [0, 0, 0, 0, 0, 0, 0,
      0x00020001]) 0 []).outs[0]?.map (fun m => m.elem 0 1)).getD (⟨0, false, false, false⟩, ⟨0, false, false,
      false⟩),
      by
    first | decide +kernel | ((repeat' first | apply And.intro | apply Prod.ext) <;> first | decide +kernel | with_reducible rfl | rfl)⟩

/-- Clause 7.2 of Obligations.SignalResults: states that meet the hypotheses. -/
theorem witness_SignalResults_5 :
  (∃ (j : BitVec 512), ∃ (pe : Nat), ∃ (n : Nat), ∃ (r : Nat), ∃ (c : Nat), ∃ (a : List Byte), ∃ (b : Bool), ∃ (x : Comp × Comp),
    (matQr j pe a).outs[0]?.map (fun m => m.elem r c) = some x) :=
    ⟨(jobOf [0, 0, 0, 0, 0, 0, 0, 0x00020001]), 0, 3, 1, 0, [], true, ((matQr (jobOf [0, 0, 0, 0, 0, 0, 0,
      0x00020001]) 0 []).outs[0]?.map (fun m => m.elem 1 0)).getD (⟨0, false, false, false⟩, ⟨0, false, false,
      false⟩),
      by
    first | decide +kernel | ((repeat' first | apply And.intro | apply Prod.ext) <;> first | decide +kernel | with_reducible rfl | rfl)⟩

/-- Clauses 1, 2, 3.1, 3.2, 3.3, 4, 5.1, 5.2 of Obligations.OnChipWords: states that meet the hypotheses. -/
theorem witness_OnChipWords_1 :
  (∃ (s : State), ∃ (w : Nat), ∃ (be : Nat), ∃ (d : BitVec 128), ∃ (p : Bool),
    s.damageAt w = none) ∧
  (∃ (s : State), ∃ (w : Nat), ∃ (g : Nat), ∃ (o : Nat), ∃ (x : BitVec 9),
    s.damageAt w = some (.single x) ∧ s.poisonAt w = false ∧ groupOf (16 * w) = some (g, o)) ∧
  (∃ (g : Fin 43), ∃ (word : Fin 4194304), ∃ (ups : List Upset), ∃ (s : State), ∃ (w : Nat),
    groupWord g.val word.val = w ∧ (s.strike ups).uncorrAt w = false) ∧
  (∃ (g : Fin 43), ∃ (word : Fin 4194304), ∃ (ups : List Upset), ∃ (s : State), ∃ (w : Nat),
    groupWord g.val word.val = w ∧ ups = [] ∧
    (List.range 256).filter (fun i => s.uncorrAt (w / 256 * 256 + i)) = [w % 256] ∧
    s.uncorrAt (checkWord (w / 256) 0) = false ∧ s.uncorrAt (checkWord (w / 256) 1) = false) ∧
  (∃ (g : Fin 43), ∃ (word : Fin 4194304), ∃ (ups : List Upset), ∃ (s : State), ∃ (w : Nat),
    groupWord g.val word.val = w ∧ ups = [] ∧ s.uncorrAt w = true ∧
    2 < ((List.range 256).filter (fun i => s.uncorrAt (w / 256 * 256 + i))).length) ∧
  (∃ (ws : List (BitVec 128)), ∃ (i : Nat), ∃ (d : BitVec 128),
    ws[i]? = some d) ∧
  (∃ (g : Fin 43), ∃ (b : Fin 256), ∃ (s : State),
    g.val < 32 ∧ b.val < 16) ∧
  (∃ (g : Fin 43), ∃ (b : Fin 256), ∃ (s : State),
    g.val < 32 ∧ 16 ≤ b.val ∧ b.val < 176) :=
  ⟨
    ⟨{ stored r0 baseScratch [1, 2, 3, 4, 5] with resv := [(3, baseScratch / 16 + 1)] }, baseScratch / 16, 0xFF,
      0x123456789ABCDEF00000, true, by decide +kernel⟩,
    ⟨hurt (stored r0 baseScratch [1, 2, 3, 4, 5]) (baseScratch / 16) (.single 7), baseScratch / 16, 0, 0, 7,
      by decide +kernel⟩,
    ⟨0, 5, [], r0, baseScratch / 16 + 5, by decide +kernel⟩,
    ⟨0, 5, [], hurt (stored r0 (baseScratch + 80) [1, 2, 3, 4, 5]) (baseScratch / 16 + 5) (.uncorr 7),
      baseScratch / 16 + 5, by decide +kernel⟩,
    ⟨0, 5, [],
      hurt (hurt (hurt r0 (baseScratch / 16 + 5) (.uncorr 7)) (baseScratch / 16 + 6) (.uncorr 7)) (baseScratch / 16 + 9) (.uncorr 7),
      baseScratch / 16 + 5, by decide +kernel⟩,
    ⟨[1, 5, 9], 1, 5, by decide +kernel⟩,
    ⟨3, 7, r0, by decide +kernel⟩,
    ⟨3, 175, r0, by decide +kernel⟩⟩

/-- Clauses 5.3, 7, 8 of Obligations.OnChipWords: states that meet the hypotheses. -/
theorem witness_OnChipWords_2 :
  (∃ (g : Fin 43), ∃ (b : Fin 256), ∃ (s : State),
    32 ≤ g.val) ∧
  (∃ (acc : Accessor), ∃ (s : State), ∃ (g : Nat),
    Writes s acc 0 R.ECC_TBL_CLR 0 g) ∧
  (∃ (acc : Accessor), ∃ (s : State), ∃ (i : Nat),
    Writes s acc 0 R.ECC_CNT_CLR 0 i) :=
  ⟨
    ⟨42, 7, r0, by decide +kernel⟩,
    ⟨.chamois, (withGrp r0 5 { tbl := [⟨1, 2, false, 3⟩] }).setReg R.ECC_GRP_SEL 7 5, 5, by decide +kernel⟩,
    ⟨.chamois, r0.setNode (nodeKey 0 771) { corr := 5, stale := true }, 0, by decide +kernel⟩⟩

/-- Clauses 1.1, 1.2, 3, 2, 4, 5.1, 5.2, 5.3 of Obligations.ScrubAndTest: states that meet the hypotheses. -/
theorem witness_ScrubAndTest_1 :
  (∃ (g : Fin 43), ∃ (s : State), ∃ (x : Grp), ∃ (i : Nat), ∃ (w : Nat), ∃ j,
    s.grp g.val = x ∧ s.get F.SCRUB_CTRL.EN g.val = 1 ∧ s.get F.SCRUB_STATUS.RANGE_BUSY g.val = 0 ∧
    s.groupOn g.val = true ∧ (x.lastRead = 0 ∨ x.lastRead - 1 + s.get F.SCRUB_CTRL.INTERVAL g.val ≤ s.now) ∧
    s.reg R.SCRUB_LAP_LIMIT g.val = 0 ∧ s.nextOn g.val x.lapPos = some i ∧
    s.wordBusy g.val (nthWord (groupPieces g.val) i) = false ∧
    groupWord g.val (nthWord (groupPieces g.val) i) = w ∧ s.damageAt w = none ∧ s.nextOn g.val (i + 1) = some j) ∧
  (∃ (g : Fin 43), ∃ (s : State), ∃ (x : Grp), ∃ (i : Nat), ∃ (w : Nat),
    s.grp g.val = x ∧ s.get F.SCRUB_CTRL.EN g.val = 1 ∧ s.get F.SCRUB_STATUS.RANGE_BUSY g.val = 0 ∧
    s.groupOn g.val = true ∧ (x.lastRead = 0 ∨ x.lastRead - 1 + s.get F.SCRUB_CTRL.INTERVAL g.val ≤ s.now) ∧
    s.reg R.SCRUB_LAP_LIMIT g.val = 0 ∧ s.nextOn g.val x.lapPos = some i ∧
    s.wordBusy g.val (nthWord (groupPieces g.val) i) = false ∧
    groupWord g.val (nthWord (groupPieces g.val) i) = w ∧ s.damageAt w = none ∧ s.nextOn g.val (i + 1) = none) ∧
  (∃ (g : Fin 43), ∃ (s : State),
    s.get F.SCRUB_CTRL.EN g.val = 0) ∧
  (∃ (g : Nat), ∃ (s : State), ∃ (k : Nat), ∃ (i : Nat),
    s.nextOn g k = some i) ∧
  (∃ (g : Nat), ∃ (s : State), ∃ (lim : Nat),
    s.reg R.SCRUB_LAP_LIMIT g = lim ∧ lim ≠ 0 ∧ lim < s.lapNow g) ∧
  (∃ (acc : Accessor), ∃ (s : State), ∃ (g : Nat), ∃ (a : Nat), ∃ (b : Nat),
    Writes s acc 0 R.SCRUB_CTRL 0 g ∧ s.get F.SCRUB_RANGE_START.WORD g = a ∧
    s.reg R.SCRUB_RANGE_END g % 2 ^ 22 = b ∧ a ≤ b ∧ b ≤ lastWord g ∧ s.get F.SCRUB_STATUS.RANGE_BUSY g = 0) ∧
  (∃ (acc : Accessor), ∃ (s : State), ∃ (g : Nat), ∃ (a : Nat), ∃ (b : Nat),
    Writes s acc 0 R.SCRUB_CTRL 0 g ∧ s.get F.SCRUB_RANGE_START.WORD g = a ∧
    s.reg R.SCRUB_RANGE_END g % 2 ^ 22 = b ∧ (b < a ∨ lastWord g < b ∨ s.get F.SCRUB_STATUS.RANGE_BUSY g = 1)) ∧
  (∃ (acc : Accessor), ∃ (s : State), ∃ (g : Nat), ∃ (a : Nat), ∃ (b : Nat),
    Writes s acc 0 R.SCRUB_CTRL 0 g ∧ s.get F.SCRUB_RANGE_START.WORD g = a ∧
    s.reg R.SCRUB_RANGE_END g % 2 ^ 22 = b ∧ s.get F.SCRUB_STATUS.RANGE_BUSY g = 1) :=
  ⟨
    ⟨0, at64 ((withGrp r0 0 { lastRead := 1 }).setReg R.SCRUB_LAP_LIMIT 0 0) 100, { lastRead := 1 }, 0,
      baseScratch / 16, 1, by decide +kernel⟩,
    ⟨0, at64 ((withGrp r0 0 { lastRead := 1, lapPos := 294911 }).setReg R.SCRUB_LAP_LIMIT 0 0) 100,
      { lastRead := 1, lapPos := 294911 }, 294911, (baseCore + 0x79FFF0 + 0x100000 - 0x100000 - 0) / 16,
      by decide +kernel⟩,
    ⟨3, r0.put F.SCRUB_CTRL.EN 3 0, by decide +kernel⟩,
    ⟨3, r0, 5, 5, by decide +kernel⟩,
    ⟨3, at64 r0 100000001, 100000000, by decide +kernel⟩,
    ⟨.chamois, (r0.setReg R.ECC_GRP_SEL 7 5).setReg R.SCRUB_RANGE_END 5 9, 5, 0, 9, by decide +kernel⟩,
    ⟨.chamois, (r0.setReg R.ECC_GRP_SEL 7 5).setReg R.SCRUB_RANGE_START 5 9, 5, 9, 0, by decide +kernel⟩,
    ⟨.chamois, (r0.setReg R.ECC_GRP_SEL 7 5).put F.SCRUB_STATUS.RANGE_BUSY 5 1, 5, 0, 0, by decide +kernel⟩⟩

/-- Clauses 5.4, 6.1, 6.2, 7, 8.1, 8.2, 8.3, 8.4 of Obligations.ScrubAndTest: states that meet the hypotheses. -/
theorem witness_ScrubAndTest_2 :
  (∃ (acc : Accessor), ∃ (s : State), ∃ (g : Nat), ∃ (a : Nat), ∃ (b : Nat),
    Writes s acc 0 R.SCRUB_CTRL 0 g ∧ s.get F.SCRUB_RANGE_START.WORD g = a ∧
    s.reg R.SCRUB_RANGE_END g % 2 ^ 22 = b ∧ s.get F.SCRUB_STATUS.RANGE_BUSY g = 0) ∧
  (∃ (g : Fin 43), ∃ (s : State), ∃ (o : Nat), ∃ (e : Nat),
    s.get F.SCRUB_STATUS.RANGE_BUSY g.val = 1 ∧ s.groupOn g.val = true ∧
    s.reg R.SCRUB_RANGE_END g.val % 2 ^ 22 = e ∧ nextWordAt (allPieces g.val) (s.grp g.val).rangePos = some o ∧
    s.wordOff g.val o = false ∧ s.wordBusy g.val o = false ∧ s.damageAt (groupWord g.val o) = none ∧ o < e) ∧
  (∃ (g : Fin 43), ∃ (s : State), ∃ (o : Nat), ∃ (e : Nat),
    s.get F.SCRUB_STATUS.RANGE_BUSY g.val = 1 ∧ s.groupOn g.val = true ∧
    s.reg R.SCRUB_RANGE_END g.val % 2 ^ 22 = e ∧ nextWordAt (allPieces g.val) (s.grp g.val).rangePos = some o ∧
    s.wordOff g.val o = false ∧ s.wordBusy g.val o = false ∧ s.damageAt (groupWord g.val o) = none ∧ o = e) ∧
  (∃ (g : Fin 43), ∃ (s : State), ∃ (x : Grp), ∃ (o : Nat),
    s.grp g.val = x ∧ rowStart g.val x.bistPos = o ∧ x.shadow = none ∧ s.get F.ECC_BIST_CTRL.EN g.val = 1 ∧
    (x.bistEnd = 0 ∨ x.bistEnd - 1 + max 1 (s.get F.ECC_BIST_CTRL.INTERVAL g.val) * 1000 ≤ s.now) ∧
    s.wordOff g.val o = false ∧ s.wordBusy g.val o = false ∧
    (∀ k < 64, s.damageAt (groupWord g.val (o + k)) = none)) ∧
  (∃ (g : Fin 43), ∃ (s : State), ∃ (x : Grp), ∃ (o : Nat),
    s.grp g.val = x ∧ x.shadow = some o ∧ 64 * (x.bistPos + 1) < allWords g.val) ∧
  (∃ (g : Fin 43), ∃ (s : State), ∃ (x : Grp), ∃ (o : Nat),
    s.grp g.val = x ∧ x.shadow = some o ∧ allWords g.val ≤ 64 * (x.bistPos + 1)) ∧
  (∃ (g : Fin 43), ∃ (s : State), ∃ (x : Grp), ∃ (o : Nat), ∃ b,
    s.grp g.val = x ∧ x.shadow = some o ∧ bankOf g.val (16 * o) = b ∧ x.spares.get 0 b < 4 ∧ x.repairs.length < 16) ∧
  (∃ (g : Fin 43), ∃ (s : State), ∃ (x : Grp), ∃ (o : Nat), ∃ b,
    s.grp g.val = x ∧ x.shadow = some o ∧ bankOf g.val (16 * o) = b ∧ 4 ≤ x.spares.get 0 b) :=
  ⟨
    ⟨.chamois, (r0.setReg R.ECC_GRP_SEL 7 5), 5, 0, 0, by decide +kernel⟩,
    ⟨5, (r0.setReg R.SCRUB_RANGE_END 5 9).put F.SCRUB_STATUS.RANGE_BUSY 5 1, 0, 9, by decide +kernel⟩,
    ⟨5, r0.put F.SCRUB_STATUS.RANGE_BUSY 5 1, 0, 0, by decide +kernel⟩,
    ⟨40, withGrp r0 40 { bistPos := 2 }, { bistPos := 2 }, 128, by decide +kernel⟩,
    ⟨40, withGrp r0 40 { bistPos := 2, shadow := some 128 }, { bistPos := 2, shadow := some 128 }, 128,
      by decide +kernel⟩,
    ⟨40, withGrp r0 40 { bistPos := 1023, shadow := some 65472 }, { bistPos := 1023, shadow := some 65472 },
      65472, by decide +kernel⟩,
    ⟨40, withGrp r0 40 { bistPos := 2, shadow := some 128 }, { bistPos := 2, shadow := some 128 }, 128, 0,
      by decide +kernel⟩,
    ⟨40, withGrp r0 40 { bistPos := 2, shadow := some 128, spares := [(0, 4)] },
      { bistPos := 2, shadow := some 128, spares := [(0, 4)] }, 128, 0, by decide +kernel⟩⟩

/-- Clauses 2, 3.1, 3.2, 3.3, 6.1, 6.2, 9 of Obligations.PackagedMemory: states that meet the hypotheses. -/
theorem witness_PackagedMemory_1 :
  (∃ (st : Fin 2), ∃ (s : State),
    bitAt (s.get F.HBM_STATUS.TRAINED 0) st.val = true ∧ bitAt (s.get F.HBM_STATUS.INIT_DONE 0) st.val = false) ∧
  (∃ (pc : Fin 64), ∃ (s : State), ∃ (i : Nat), ∃ (n : Nat),
    s.store.pcScrub.get 0 pc.val = i ∧ pcLine pc.val i / 64 = n ∧ s.get F.HBM_CTRL.SCRUB_EN 0 = 1 ∧
    s.hbmReady pc.val = true ∧ s.pcDown pc.val = false ∧
    (s.store.pcScrubAt.get 0 pc.val = 0 ∨ s.store.pcScrubAt.get 0 pc.val - 1 + s.get F.HBM_SCRUB_INTERVAL.NS 0 ≤ s.now) ∧
    i + 1 < pcLines ∧ (s.line n).err = []) ∧
  (∃ (pc : Fin 64), ∃ (s : State), ∃ (i : Nat), ∃ (n : Nat), ∃ (xs : List (Fin 72 × Byte)), ∃ (k : Nat), ∃ (e : Nat),
    s.store.pcScrub.get 0 pc.val = i ∧ pcLine pc.val i / 64 = n ∧ s.get F.HBM_CTRL.SCRUB_EN 0 = 1 ∧
    s.hbmReady pc.val = true ∧ s.pcDown pc.val = false ∧
    (s.store.pcScrubAt.get 0 pc.val = 0 ∨ s.store.pcScrubAt.get 0 pc.val - 1 + s.get F.HBM_SCRUB_INTERVAL.NS 0 ≤ s.now) ∧
    i + 1 < pcLines ∧ (s.strikeLine n xs).lineState n = .one k e) ∧
  (∃ (pc : Fin 64), ∃ (s : State), ∃ (i : Nat), ∃ (n : Nat), ∃ (xs : List (Fin 72 × Byte)),
    s.store.pcScrub.get 0 pc.val = i ∧ pcLine pc.val i / 64 = n ∧ s.get F.HBM_CTRL.SCRUB_EN 0 = 1 ∧
    s.hbmReady pc.val = true ∧ s.pcDown pc.val = false ∧
    (s.store.pcScrubAt.get 0 pc.val = 0 ∨ s.store.pcScrubAt.get 0 pc.val - 1 + s.get F.HBM_SCRUB_INTERVAL.NS 0 ≤ s.now) ∧
    i + 1 < pcLines ∧ (s.strikeLine n xs).lineState n = .bad) ∧
  (∃ (acc : Accessor), ∃ (v : Word), ∃ (s : State), ∃ (r : Nat), ∃ (lo : Nat), ∃ (hi : Nat),
    Writes s acc 0 R.CIPH_REGION_CTRL 0 r ∧ v.toNat % 4 = 1 ∧
    s.pair R.CIPH_REGION_BASE_LO R.CIPH_REGION_BASE_HI r = lo ∧
    s.pair R.CIPH_REGION_LIMIT_LO R.CIPH_REGION_LIMIT_HI r = hi ∧ lo < hi ∧ hi ≤ 2 ^ 35) ∧
  (∃ (acc : Accessor), ∃ (v : Word), ∃ (s : State), ∃ (r : Nat), ∃ (lo : Nat), ∃ (hi : Nat),
    Writes s acc 0 R.CIPH_REGION_CTRL 0 r ∧ v.toNat % 4 = 1 ∧
    s.pair R.CIPH_REGION_BASE_LO R.CIPH_REGION_BASE_HI r = lo ∧
    s.pair R.CIPH_REGION_LIMIT_LO R.CIPH_REGION_LIMIT_HI r = hi ∧ (hi ≤ lo ∨ 2 ^ 35 < hi)) ∧
  (∃ (pc : Nat), ∃ (i : Nat), ∃ (j : Nat),
    pc < 64 ∧ i < pcLines ∧ j < pcLines) ∧
  (∃ (pc : Nat), ∃ (i : Nat), ∃ (j : Nat),
    pc < 64 ∧ i < pcLines ∧ j < pcLines) :=
  ⟨
    ⟨1, r0.setReg R.HBM_STATUS 0 (2 * 2 ^ F.HBM_STATUS.TRAINED.lo), by decide +kernel⟩,
    ⟨1, (r0.put F.HBM_CTRL.SCRUB_EN 0 1).put F.HBM_STATUS.INIT_DONE 0 3, 0, 4, by decide +kernel⟩,
    ⟨1, (r0.put F.HBM_CTRL.SCRUB_EN 0 1).put F.HBM_STATUS.INIT_DONE 0 3, 0, 4, [(7, 3)], 7, 3, by decide +kernel⟩,
    ⟨1, (r0.put F.HBM_CTRL.SCRUB_EN 0 1).put F.HBM_STATUS.INIT_DONE 0 3, 0, 4, [(7, 3), (9, 3)],
      by decide +kernel⟩,
    ⟨.chamois, 1, (r0.setReg R.CIPH_REGION_SEL 7 3).setReg R.CIPH_REGION_LIMIT_LO 3 0x10000, 3, 0, 0x10000,
      by decide +kernel⟩,
    ⟨.chamois, 1, r0.setReg R.CIPH_REGION_SEL 7 3, 3, 0, 0, by decide +kernel⟩,
    ⟨37, 8388607, 5, by decide +kernel⟩,
    ⟨37, 5, 8388607, by decide +kernel⟩⟩

/-- Clauses 1, 2, 3, 4, 5.1 of Obligations.FabricResources: states that meet the hypotheses. -/
theorem witness_FabricResources_1 :
  (∃ (blk : Fin 8192), ∃ (a : Option BmReq), ∃ (b : Option BmReq), ∃ (s : State),
    (s.regionRuns (blk.val / 128) = false ∨ s.isSet F.BM_STATUS.REBUILDING blk.val = true ∨ (s.bmClocked blk.val 0 = false ∧
    s.bmClocked blk.val 1 = false))) ∧
  (∃ (blk : Fin 8192), ∃ (x : BmReq), ∃ (y : BmReq), ∃ (s : State), ∃ (k : Nat), ∃ (i : Nat), ∃ (j : Nat), ∃ (wa : Nat), ∃ (wb : Nat),
    s.regionRuns (blk.val / 128) = true ∧ s.bmClocked blk.val 0 = true ∧ s.bmClocked blk.val 1 = true ∧
    s.isSet F.BM_STATUS.REBUILDING blk.val = false ∧ s.fab.bmDamage = [] ∧ x.we = true ∧ y.we = true ∧
    bmWidth (s.bmCode blk.val 0) = wa ∧ bmWidth (s.bmCode blk.val 1) = wb ∧ s.bmBit blk.val 0 x = i ∧
    s.bmBit blk.val 1 y = j ∧ k < 65536) ∧
  (∃ (blk : Fin 8192), ∃ (x : BmReq), ∃ (y : BmReq), ∃ (s : State), ∃ (k : Nat), ∃ (i : Nat), ∃ (j : Nat), ∃ (wa : Nat), ∃ (wb : Nat),
    s.regionRuns (blk.val / 128) = true ∧ s.bmClocked blk.val 0 = true ∧ s.bmClocked blk.val 1 = true ∧
    s.isSet F.BM_STATUS.REBUILDING blk.val = false ∧ s.fab.bmDamage = [] ∧ x.we = true ∧ y.we = true ∧
    bmWidth (s.bmCode blk.val 0) = wa ∧ bmWidth (s.bmCode blk.val 1) = wb ∧ s.bmBit blk.val 0 x = i ∧
    s.bmBit blk.val 1 y = j ∧ k < 65536) ∧
  (∃ (blk : Fin 8192), ∃ (x : BmReq), ∃ (y : BmReq), ∃ (s : State), ∃ (k : Nat), ∃ (i : Nat), ∃ (j : Nat), ∃ (wa : Nat), ∃ (wb : Nat),
    s.regionRuns (blk.val / 128) = true ∧ s.bmClocked blk.val 0 = true ∧ s.bmClocked blk.val 1 = true ∧
    s.isSet F.BM_STATUS.REBUILDING blk.val = false ∧ s.fab.bmDamage = [] ∧ x.we = true ∧ y.we = true ∧
    bmWidth (s.bmCode blk.val 0) = wa ∧ bmWidth (s.bmCode blk.val 1) = wb ∧ s.bmBit blk.val 0 x = i ∧
    s.bmBit blk.val 1 y = j ∧ k < 65536) ∧
  (∃ (blk : Fin 8192), ∃ (x : BmReq), ∃ (s : State), ∃ (b : Option BmReq), ∃ (m : Nat),
    s.regionRuns (blk.val / 128) = true ∧ s.bmClocked blk.val 0 = true ∧
    s.isSet F.BM_STATUS.REBUILDING blk.val = false ∧ s.fab.bmDamage = [] ∧
    bitsOf (s.fab.bmMode.get 0 blk.val) 0 2 = m) ∧
  (∃ (blk : Fin 8192), ∃ (x : BmReq), ∃ (s : State), ∃ (b : Option BmReq), ∃ (m : Nat),
    s.regionRuns (blk.val / 128) = true ∧ s.bmClocked blk.val 0 = true ∧
    s.isSet F.BM_STATUS.REBUILDING blk.val = false ∧ s.fab.bmDamage = [] ∧
    bitsOf (s.fab.bmMode.get 0 blk.val) 0 2 = m) ∧
  (∃ (blk : Fin 8192), ∃ (x : BmReq), ∃ (s : State),
    s.regionRuns (blk.val / 128) = true ∧ s.bmClocked blk.val 0 = true ∧
    s.isSet F.BM_STATUS.REBUILDING blk.val = false ∧ s.bmCoded blk.val = true ∧
    s.bmBad (s.bmKey blk.val 0 x) = true) ∧
  (∃ (blk : Fin 8192), ∃ (page : Bool), ∃ (s : State), ∃ (bad : List Nat), ∃ (n : Nat),
    ((List.range 256).map (fun i => blk.val * 512 + bit page * 256 + i)).filter s.bmBad = bad ∧
    n = bad.length + bit (s.bmCheckBad blk.val (2 * bit page)) + bit (s.bmCheckBad blk.val (2 * bit page + 1)) ∧
    (s.isSet F.BM_STATUS.REBUILDING blk.val = false ∨ (s.bmClocked blk.val 0 = false ∧
    s.bmClocked blk.val 1 = false))) :=
  ⟨
    ⟨2050, none, none, r0, by decide +kernel⟩,
    ⟨2050, { addr := 5, we := true, be := 0xFFFF, data := 0x1122334455667788 },
      { addr := 22, we := true, be := 3, data := 0xABCD }, blockRun 2050 0x19, 353, 320, 352, 64, 16,
      by decide +kernel⟩,
    ⟨2050, { addr := 5, we := true, be := 0x000F, data := 0x1122334455667788 },
      { addr := 22, we := true, be := 3, data := 0xABCD }, blockRun 2050 0x19, 353, 320, 352, 64, 16,
      by decide +kernel⟩,
    ⟨2050, { addr := 16383, we := true, be := 0x000F, data := 0x5 },
      { addr := 22, we := true, be := 3, data := 0xABCD }, blockRun 2050 0x1D, 65535, 65532, 352, 4, 16,
      by decide +kernel⟩,
    ⟨2050, { addr := 5, we := true, be := 0xFFFF, data := 7 },
      ((blockRun 2050 0x19).setBmWord (2050 * 512 + 2) 9), none, 0, by decide +kernel⟩,
    ⟨2050, { addr := 4, we := false, be := 0xFFFF, data := 7 },
      ((blockRun 2050 0x119).setBmWord (2050 * 512 + 2) 9), none, 0, by decide +kernel⟩,
    ⟨2050, { addr := 4, we := false, be := 0xFFFF, data := 7 },
      ((blockRun 2050 0x119).setBmDamage (2050 * 512 + 2) (some (.uncorr 3))), by decide +kernel⟩,
    ⟨2050, true, r0, [], 0, by decide +kernel⟩⟩

/-- Clauses 5.2, 5.3, 6.1, 6.2, 7.1, 7.2.1, 7.2.2, 7.2.3 of Obligations.FabricResources: states that meet the
hypotheses. -/
theorem witness_FabricResources_2 :
  (∃ (blk : Fin 8192), ∃ (page : Bool), ∃ (s : State), ∃ (bad : List Nat), ∃ (n : Nat),
    ((List.range 256).map (fun i => blk.val * 512 + bit page * 256 + i)).filter s.bmBad = bad ∧
    n = bad.length + bit (s.bmCheckBad blk.val (2 * bit page)) + bit (s.bmCheckBad blk.val (2 * bit page + 1)) ∧
    s.isSet F.BM_STATUS.REBUILDING blk.val = true ∧
    (s.bmClocked blk.val 0 = true ∨ s.bmClocked blk.val 1 = true) ∧ n ≤ 2) ∧
  (∃ (blk : Fin 8192), ∃ (page : Bool), ∃ (s : State), ∃ (bad : List Nat), ∃ (n : Nat),
    ((List.range 256).map (fun i => blk.val * 512 + bit page * 256 + i)).filter s.bmBad = bad ∧
    n = bad.length + bit (s.bmCheckBad blk.val (2 * bit page)) + bit (s.bmCheckBad blk.val (2 * bit page + 1)) ∧
    s.isSet F.BM_STATUS.REBUILDING blk.val = true ∧
    (s.bmClocked blk.val 0 = true ∨ s.bmClocked blk.val 1 = true) ∧ 2 < n) ∧
  (∃ (acc : Accessor), ∃ (v : Word), ∃ (s : State), ∃ (i : Nat),
    Writes s acc 0 R.BM_COLL_CLR 0 i ∧ bitAt v.toNat 8 = true) ∧
  (∃ (acc : Accessor), ∃ (v : Word), ∃ (s : State), ∃ (i : Nat),
    Writes s acc 0 R.BM_COLL_CLR 0 i ∧ bitAt v.toNat 8 = false) ∧
  (∃ (port : Fin 128), ∃ (p : Packet), ∃ (q : Packet), ∃ (s : State), ∃ (x : FPort),
    s.fport port.val = x ∧
    (s.portActive port.val = false ∨ s.portClocked port.val = false ∨ s.domState (domRegion (portRegion port.val)) ≠ 2)) ∧
  (∃ (port : Fin 128), ∃ (p : Packet), ∃ (q : Packet), ∃ (s : State), ∃ (x : FPort),
    s.fport port.val = x ∧ s.portActive port.val = true ∧ s.portClocked port.val = true ∧
    s.domState (domRegion (portRegion port.val)) = 2 ∧
    (q = (match x.part with | some h => { h with data := h.data ++ p.data } | none => p)) ∧
    q.data.length < unitsDue q) ∧
  (∃ (port : Fin 128), ∃ (p : Packet), ∃ (q : Packet), ∃ (s : State), ∃ (x : FPort),
    s.fport port.val = x ∧ s.portActive port.val = true ∧ s.portClocked port.val = true ∧
    s.domState (domRegion (portRegion port.val)) = 2 ∧
    (q = (match x.part with | some h => { h with data := h.data ++ p.data } | none => p)) ∧
    unitsDue q ≤ q.data.length ∧ (q.debug = true ∨ (q.vc = 3 ∧ s.isSet F.PR_FP_CTRL.ALLOW_VC3 port.val = false)) ∧
    expectsResponse q.cmd.toNat = true) ∧
  (∃ (port : Fin 128), ∃ (p : Packet), ∃ (q : Packet), ∃ (s : State), ∃ (x : FPort),
    s.fport port.val = x ∧ s.portActive port.val = true ∧ s.portClocked port.val = true ∧
    s.domState (domRegion (portRegion port.val)) = 2 ∧
    (q = (match x.part with | some h => { h with data := h.data ++ p.data } | none => p)) ∧
    unitsDue q ≤ q.data.length ∧ q.debug = false ∧ q.vc ≠ 3 ∧ q.key.toNat < 64 ∧
    bitAt (s.pair R.PR_FP_KEYMASK_LO R.PR_FP_KEYMASK_HI port.val) q.key.toNat = false ∧
    expectsResponse q.cmd.toNat = true) :=
  ⟨
    ⟨2050, true,
      (((blockRun 2050 0x119).setBmDamage (2050 * 512 + 258) (some (.uncorr 3))).put F.BM_STATUS.REBUILDING 2050 1),
      [2050 * 512 + 258], 1, by decide +kernel⟩,
    ⟨2050, false,
      (((((blockRun 2050 0x119).setBmDamage (2050 * 512 + 2) (some (.uncorr 3))).setBmDamage (2050 * 512 + 3) (some (.uncorr 3))).setBmDamage (2050 * 512 + 4) (some (.uncorr 3))).put F.BM_STATUS.REBUILDING 2050 1),
      [2050 * 512 + 2, 2050 * 512 + 3, 2050 * 512 + 4], 3, by decide +kernel⟩,
    ⟨.chamois, 0x110, (r0.put F.BM_STATUS.COLL 2050 1).bmCollSum 16, 0, by decide +kernel⟩,
    ⟨.chamois, 0x10, (r0.put F.BM_STATUS.COLL 2050 1).bmCollSum 16, 0, by decide +kernel⟩,
    ⟨5, {}, {}, r0, {}, by decide +kernel⟩,
    ⟨5, { cmd := 1, len := 1, data := [⟨1,false⟩] }, { cmd := 1, len := 1, data := [⟨1,false⟩] }, portUp r0 5, {},
      by decide +kernel⟩,
    ⟨5, { data := [⟨2,false⟩] }, { cmd := 1, len := 1, debug := true, data := [⟨1,false⟩, ⟨2, false⟩] },
      (portUp r0 5).setFport 5 { part := some { cmd := 1, len := 1, debug := true, data := [⟨1,false⟩] } },
      { part := some { cmd := 1, len := 1, debug := true, data := [⟨1,false⟩] } }, by decide +kernel⟩,
    ⟨5, { cmd := 0, key := 9 }, { cmd := 0, key := 9 }, portUp r0 5, {}, by decide +kernel⟩⟩

/-- Clauses 7.2.4, 8.1, 8.2, 9.1, 9.2, 10, 11.1, 11.2 of Obligations.FabricResources: states that meet the
hypotheses. -/
theorem witness_FabricResources_3 :
  (∃ (port : Fin 128), ∃ (p : Packet), ∃ (q : Packet), ∃ (s : State), ∃ (x : FPort),
    s.fport port.val = x ∧ s.portActive port.val = true ∧ s.portClocked port.val = true ∧
    s.domState (domRegion (portRegion port.val)) = 2 ∧
    (q = (match x.part with | some h => { h with data := h.data ++ p.data } | none => p)) ∧
    unitsDue q ≤ q.data.length ∧ q.debug = false ∧ q.vc ≠ 3 ∧ q.key.toNat < 64 ∧
    bitAt (s.pair R.PR_FP_KEYMASK_LO R.PR_FP_KEYMASK_HI port.val) q.key.toNat = true) ∧
  (∃ (port : Fin 128), ∃ (p : Packet), ∃ (s : State), ∃ (x : FPort), ∃ (y : Packet × Nat),
    s.fport port.val = x ∧ s.portActive port.val = true ∧ s.portClocked port.val = true ∧
    x.treq.find? (fun y => y.1.tag == p.tag && y.1.src == p.dest) = none) ∧
  (∃ (port : Fin 128), ∃ (p : Packet), ∃ (s : State), ∃ (x : FPort), ∃ (y : Packet × Nat),
    s.fport port.val = x ∧ s.portActive port.val = true ∧ s.portClocked port.val = true ∧
    x.treq.find? (fun y => y.1.tag == p.tag && y.1.src == p.dest) = some y ∧ 8 ≤ p.cmd.toNat ∧ p.cmd.toNat ≤ 10) ∧
  (∃ (port : Fin 128), ∃ (s : State), ∃ (x : FPort), ∃ (q : Packet), ∃ (at' : Nat), ∃ (r : List (Packet × Nat)),
    s.fport port.val = x ∧ x.treq = (q, at') :: r ∧
    s.now < at' + 1000 * max 1 (s.get F.PR_FP_CTRL.TGT_TMO_US port.val)) ∧
  (∃ (port : Fin 128), ∃ (s : State), ∃ (x : FPort), ∃ (q : Packet), ∃ (at' : Nat), ∃ (r : List (Packet × Nat)),
    s.fport port.val = x ∧ x.treq = (q, at') :: r ∧
    at' + 1000 * max 1 (s.get F.PR_FP_CTRL.TGT_TMO_US port.val) ≤ s.now ∧ expectsResponse q.cmd.toNat = true) ∧
  (∃ (acc : Accessor), ∃ (v : Word), ∃ (s : State), ∃ (p : Nat),
    Writes s acc 0 R.PR_FP_CTRL 0 p ∧ s.portActive p = true ∧ bitAt v.toNat 0 = false) ∧
  (∃ (bank : Fin 16), ∃ (s : State),
    s.bankState bank.val = 1) ∧
  (∃ (bank : Fin 16), ∃ (s : State),
    s.bankState bank.val ≠ 1) :=
  ⟨
    ⟨5, { cmd := 0, addr := 0x010000000000 }, { cmd := 0, addr := 0x010000000000 }, portUp r0 5, {},
      by decide +kernel⟩,
    ⟨5, { cmd := 8, dest := 3, tag := 9 }, portUp r0 5, {}, ({}, 0), by decide +kernel⟩,
    ⟨5, { cmd := 8, dest := 3, tag := 9 }, (portUp r0 5).setFport 5 { treq := [({ src := 3, tag := 9 }, 0)] },
      { treq := [({ src := 3, tag := 9 }, 0)] }, ({ src := 3, tag := 9 }, 0), by decide +kernel⟩,
    ⟨5, at64 ((portUp r0 5).setFport 5 { treq := [({ src := 3, tag := 9 }, 0)] }) 99999,
      { treq := [({ src := 3, tag := 9 }, 0)] }, { src := 3, tag := 9 }, 0, [], by decide +kernel⟩,
    ⟨5, at64 ((portUp r0 5).setFport 5 { treq := [({ src := 3, tag := 9 }, 0)] }) 100000,
      { treq := [({ src := 3, tag := 9 }, 0)] }, { src := 3, tag := 9 }, 0, [], by decide +kernel⟩,
    ⟨.chamois, 0x640000,
      (((portUp r0 5).setFport 5 { treq := [({ src := 3, tag := 9 }, 0)] }).setReg R.PR_FP_SEL 7 5).put F.PR_FP_CTRL.EN 5 1,
      5, by decide +kernel⟩,
    ⟨3, r0.setBank 3 1, by decide +kernel⟩,
    ⟨3, r0, by decide +kernel⟩⟩

/-- Clauses 11.3, 12 of Obligations.FabricResources: states that meet the hypotheses. -/
theorem witness_FabricResources_4 :
  (∃ (bank : Fin 16), ∃ (s : State),
    s.bankState bank.val ≠ 1 ∧ s.get F.CFG_STATUS.STATE 0 = 3 ∧ s.fab.volts.get 0 bank.val ≠ 0) ∧
  (∃ (s : State), ∃ (k : Nat), ∃ (i : Nat),
    i < 32 ∧ s.bankState ((32 * k + i) / 48) ≠ 1) :=
  ⟨
    ⟨3,
      (let s := (r0.setBank 3 3).put F.CFG_STATUS.STATE 0 3; { s with fab := { s.fab with volts := [(3, 1800)] } }),
      by decide +kernel⟩,
    ⟨r0, 23, 31, by decide +kernel⟩⟩

/-- Clauses 1.1, 1.2, 2, 3.1, 3.2, 3.3, 4, 5 of Obligations.FabricLogic: states that meet the hypotheses. -/
theorem witness_FabricLogic_1 :
  (∃ (c : Config.CellSet), ∃ (a : Bool), ∃ (b : Bool), ∃ (d : Bool), ∃ (e : Bool), ∃ (f : Bool), ∃ (g : Bool), ∃ (l : List Bool),
    l = [a, b, d, e, f] ∧ c.split = false) ∧
  (∃ (c : Config.CellSet), ∃ (a : Bool), ∃ (b : Bool), ∃ (d : Bool), ∃ (e : Bool), ∃ (f : Bool), ∃ (g : Bool), ∃ (l : List Bool),
    l = [a, b, d, e, f] ∧ c.split = true) ∧
  (∃ (cell : Nat → Config.CellSet), ∃ (routed : Nat → Bool), ∃ (x : Nat), ∃ (y : Nat), ∃ (n : Nat),
    (∀ k < n, (cell (k + 1)).start = false)) ∧
  (∃ (f : Config.FfSet), ∃ (edge : Bool), ∃ (ce : Bool), ∃ (sr : Bool), ∃ (d : Bool), ∃ (old : Bool),
    edge = false ∧ (f.async = false ∨ sr = false)) ∧
  (∃ (f : Config.FfSet), ∃ (edge : Bool), ∃ (ce : Bool), ∃ (sr : Bool), ∃ (d : Bool), ∃ (old : Bool),
    sr = true ∧ (f.async = true ∨ edge = true)) ∧
  (∃ (f : Config.FfSet), ∃ (edge : Bool), ∃ (ce : Bool), ∃ (sr : Bool), ∃ (d : Bool), ∃ (old : Bool),
    edge = true ∧ sr = false) ∧
  (∃ (s : State), ∃ (r : Nat), ∃ (n : Nat), ∃ (b : Nat), ∃ (edges : Nat → Bool),
    b < 172032 ∧ (∀ k < 16, s.leafRuns r k = false)) ∧
  (∃ (s : State), ∃ (r : Nat), ∃ (k : Nat),
    k < 86016) :=
  ⟨
    ⟨⟨0xF0F0F0F012345678, false, false, false, ⟨0, false, true, false⟩, ⟨1, true, false, true⟩⟩, true, false,
      true, true, false, true, [true, false, true, true, false], by decide +kernel⟩,
    ⟨⟨0xF0F0F0F012345678, true, false, false, ⟨0, false, true, false⟩, ⟨1, true, false, true⟩⟩, true, false, true,
      true, false, true, [true, false, true, true, false], by decide +kernel⟩,
    ⟨fun _ => ⟨0xF0F0F0F012345678, true, false, false, ⟨0, false, true, false⟩, ⟨1, true, false, true⟩⟩,
      fun _ => true, 5, 11, 20, by decide +kernel⟩,
    ⟨⟨0, false, true, false⟩, false, true, true, true, false, by decide +kernel⟩,
    ⟨⟨0, true, true, false⟩, false, true, true, true, false, by decide +kernel⟩,
    ⟨⟨0, true, true, false⟩, true, true, false, true, false, by decide +kernel⟩,
    ⟨r0, 2, 7, 172031, fun _ => true, by decide +kernel⟩,
    ⟨r0, 2, 86015, by decide +kernel⟩⟩

/-- Clauses 10, 11, 11.2, 12.1, 12.2.1, 12.2.2, 12.2.3, 13.2 of Obligations.FabricLogic: states that meet the
hypotheses. -/
theorem witness_FabricLogic_2 :
  (∃ (a : BitVec 32), ∃ (b : BitVec 32), ∃ (ai : Int), ∃ (aq : Int), ∃ (bi : Int), ∃ (bq : Int),
    ai = toSigned 16 (bitsOf a.toNat 0 16) ∧ aq = toSigned 16 (bitsOf a.toNat 16 16) ∧
    bi = toSigned 16 (bitsOf b.toNat 0 16) ∧ bq = toSigned 16 (bitsOf b.toNat 16 16)) ∧
  (∃ (c : Config.SliceSet), ∃ (acc : BitVec 96), ∃ (w : Nat),
    c.shift < 96 ∧ (w = (if c.wide then 32 else 16))) ∧
  (∃ (c : Config.SliceSet), ∃ (acc : BitVec 96), ∃ (w : Nat),
    c.shift < 96 ∧ (w = (if c.wide then 32 else 16)) ∧ (sliceOut c acc).2 = true) ∧
  (∃ (s : State), ∃ (i : Nat),
    (s.cfg.phase ≠ .started ∨ s.bankState (i / 48) ≠ 1)) ∧
  (∃ (s : State), ∃ (i : Nat),
    s.cfg.phase = .started ∧ s.bankState (i / 48) = 1 ∧ s.fab.pinOut.get none i = none ∧
    (s.fab.pins.get {} i).pull = 1) ∧
  (∃ (s : State), ∃ (i : Nat),
    s.cfg.phase = .started ∧ s.bankState (i / 48) = 1 ∧ s.fab.pinOut.get none i = none ∧
    (s.fab.pins.get {} i).pull = 2) ∧
  (∃ (s : State), ∃ (i : Nat),
    s.cfg.phase = .started ∧ s.bankState (i / 48) = 1 ∧ s.fab.pinOut.get none i = none ∧
    (s.fab.pins.get {} i).pull = 0 ∧ (s.fab.pins.get {} i).keeper = true) ∧
  (∃ (v : Bool), ∃ (x : Bool), ∃ (b : Option Bool), ∃ (p : UserPin), ∃ (y : Bool),
    (∀ z, p ≠ .drives z)) :=
  ⟨
    ⟨0x80000003, 0x7FFF8000, 3, -32768, -32768, 32767, by decide +kernel⟩,
    ⟨⟨3, true, true, false, 0, 95, false, false, true⟩, 0x123456789, 16, by decide +kernel⟩,
    ⟨⟨3, true, true, false, 0, 2, false, false, true⟩, 0x123456789, 16, by decide +kernel⟩,
    ⟨r0, 767, by decide +kernel⟩,
    ⟨pinAs r0 48 { pull := 1, keeper := true }, 48, by decide +kernel⟩,
    ⟨pinAs r0 767 { pull := 2, keeper := true }, 767, by decide +kernel⟩,
    ⟨pinAs r0 0 { pull := 0, keeper := true }, 0, by decide +kernel⟩,
    ⟨true, false, none, .keeps true, true, by decide +kernel⟩⟩

/-- Clauses 8.1, 8.2, 8.3, 8.4, 7.2, 9.1, 9.2, 14.1.3 of Obligations.FabricLogic: states that meet the hypotheses.
-/
theorem witness_FabricLogic_3 :
  (∃ (c : Config.SliceSet), ∃ (k : Nat), ∃ (x : SliceIn), ∃ (casc : BitVec 96), ∃ (z : Slice),
    bitAt c.regs 3 = true) ∧
  (∃ (c : Config.SliceSet), ∃ (k : Nat), ∃ (x : SliceIn), ∃ (casc : BitVec 96), ∃ (z : Slice),
    bitAt c.regs 3 = false ∧ bitAt c.regs 2 = true) ∧
  (∃ (c : Config.SliceSet), ∃ (k : Nat), ∃ (x : SliceIn), ∃ (casc : BitVec 96), ∃ (z : Slice),
    c.regs = 15 ∧ c.pair = false) ∧
  (∃ (c : Config.SliceSet), ∃ (k : Nat), ∃ (x : SliceIn), ∃ (casc : BitVec 96), ∃ (z : Slice),
    c.regs = 0 ∧ c.pair = false) ∧
  (∃ (v : RegionView), ∃ (wire : Nat → Bool), ∃ (k : Nat), ∃ (j : Nat), ∃ (n : Nat),
    n = k / 48 * 48 + j ∧ bitAt (v.slice n).regs 2 = true) ∧
  (∃ (v : RegionView), ∃ (n : Nat), ∃ (w : Nat), ∃ (l : Nat), ∃ (tap : Nat), ∃ t,
    v.route w = .line l tap ∧ v.taps l = [t]) ∧
  (∃ (v : RegionView), ∃ (n : Nat), ∃ (w : Nat), ∃ (l : Nat), ∃ (tap : Nat),
    v.route w = .line l tap ∧ (v.taps l).length ≠ 1) ∧
  (∃ (s : State), ∃ (r : Nat), ∃ (k : Nat), ∃ (m : Nat),
    m = bitsOf (s.reg R.PR_ISO_MODE (4 * r + k / 1024)) (2 * (k / 64 % 16)) 2 ∧
    s.isSet F.PR_REGION_STATE.ISOLATED r = true ∧ (m = 0 ∨ m = 3)) :=
  ⟨
    ⟨⟨3, true, true, false, 15, 2, false, false, true⟩, 3, ⟨2, 3, 1, false⟩, 5, ⟨3, 5, 7, 0x123456789, 9, true⟩,
      by decide +kernel⟩,
    ⟨⟨3, true, true, false, 7, 2, false, false, true⟩, 3, ⟨2, 3, 1, false⟩, 5, ⟨3, 5, 7, 0x123456789, 9, true⟩,
      by decide +kernel⟩,
    ⟨⟨3, true, true, false, 15, 2, false, false, true⟩, 3, ⟨2, 3, 1, false⟩, 5, ⟨3, 5, 7, 0x123456789, 9, true⟩,
      by decide +kernel⟩,
    ⟨⟨3, true, true, false, 0, 2, false, false, true⟩, 3, ⟨2, 3, 1, false⟩, 5, ⟨3, 5, 7, 0x123456789, 9, true⟩,
      by decide +kernel⟩,
    ⟨{ cell := fun _ => default, route := fun w => if w = 5 then .line 3 1 else .ff 2, slice := fun _ => ⟨3, true, true, false, 15, 2, false, false, true⟩, regs := fun _ => ⟨3, 5, 7, 0x123456789, 9, true⟩, ffs := 4, taps := fun l => if l = 3 then [6] else [], bm := fun _ _ _ => false, border := fun _ => false, free := fun _ => true },
      fun _ => true, 50, 1, 49, by decide +kernel⟩,
    ⟨{ cell := fun _ => default, route := fun w => if w = 5 then .line 3 1 else .ff 2, slice := fun _ => ⟨3, true, true, false, 15, 2, false, false, true⟩, regs := fun _ => ⟨3, 5, 7, 0x123456789, 9, true⟩, ffs := 4, taps := fun l => if l = 3 then [6] else [], bm := fun _ _ _ => false, border := fun _ => false, free := fun _ => true },
      3, 5, 3, 1, 6, by decide +kernel⟩,
    ⟨{ cell := fun _ => default, route := fun w => if w = 5 then .line 3 1 else .ff 2, slice := fun _ => ⟨3, true, true, false, 15, 2, false, false, true⟩, regs := fun _ => ⟨3, 5, 7, 0x123456789, 9, true⟩, ffs := 4, taps := fun l => if l = 3 then [6, 7] else [], bm := fun _ _ _ => false, border := fun _ => false, free := fun _ => true },
      3, 5, 3, 1, by decide +kernel⟩,
    ⟨r0.put F.PR_REGION_STATE.ISOLATED 63 1, 63, 4095, 0, by decide +kernel⟩⟩

/-- Clauses 14.1.1, 14.1.2, 14.2, 14.3, 14.4 of Obligations.FabricLogic: states that meet the hypotheses. -/
theorem witness_FabricLogic_4 :
  (∃ (s : State), ∃ (r : Nat), ∃ (k : Nat), ∃ (m : Nat),
    m = bitsOf (s.reg R.PR_ISO_MODE (4 * r + k / 1024)) (2 * (k / 64 % 16)) 2 ∧
    s.isSet F.PR_REGION_STATE.ISOLATED r = true ∧ m = 1) ∧
  (∃ (s : State), ∃ (r : Nat), ∃ (k : Nat), ∃ (m : Nat),
    m = bitsOf (s.reg R.PR_ISO_MODE (4 * r + k / 1024)) (2 * (k / 64 % 16)) 2 ∧
    s.isSet F.PR_REGION_STATE.ISOLATED r = true ∧ m = 2) ∧
  (∃ (s : State), ∃ (r : Nat), ∃ (k : Nat), ∃ (m : Nat),
    m = bitsOf (s.reg R.PR_ISO_MODE (4 * r + k / 1024)) (2 * (k / 64 % 16)) 2 ∧
    s.isSet F.PR_REGION_STATE.ISOLATED r = false) ∧
  (∃ (s : State), ∃ (r : Nat), ∃ (k : Nat), ∃ (m : Nat),
    m = bitsOf (s.reg R.PR_ISO_MODE (4 * r + k / 1024)) (2 * (k / 64 % 16)) 2 ∧ s.regionState r ≠ 3 ∧
    (s.regionState r ≠ 2 ∨ s.now < s.fab.startAt.get 0 r - 1 + 2000)) ∧
  (∃ (s : State), ∃ (r : Nat), ∃ (k : Nat), ∃ (m : Nat), ∃ r', ∃ k',
    m = bitsOf (s.reg R.PR_ISO_MODE (4 * r + k / 1024)) (2 * (k / 64 % 16)) 2 ∧ s.regionState r = 3 ∧
    borderAcross r k = some (r', k') ∧ dieCell r k = false) :=
  ⟨
    ⟨(r0.setReg R.PR_ISO_MODE 255 0x40000000).put F.PR_REGION_STATE.ISOLATED 63 1, 63, 4095, 1, by decide +kernel⟩,
    ⟨(r0.setReg R.PR_ISO_MODE 253 0x8).put F.PR_REGION_STATE.ISOLATED 63 1, 63, 1088, 2, by decide +kernel⟩,
    ⟨(r0.setReg R.PR_ISO_MODE 252 0x8).put F.PR_REGION_STATE.ISOLATED 63 0, 63, 64, 2, by decide +kernel⟩,
    ⟨at64 (r0.setRegion 63 2) 1999, 63, 64, 0, by decide +kernel⟩,
    ⟨r0.setRegion 0 3, 0, 1024, 0, 1, 3072, by decide +kernel⟩⟩

/-- Clauses 1.1, 1.2, 2.1, 2.2, 3.1, 3.2, 4.1, 4.2 of Obligations.LoadingAContainer: states that meet the
hypotheses. -/
theorem witness_LoadingAContainer_1 :
  (∃ (s : State),
    s.cfg.phase = .crystal) ∧
  (∃ (s : State),
    s.cfg.phase ≠ .crystal) ∧
  (∃ (mode : BitVec 3), ∃ (gold : BitVec 2), ∃ (s : State),
    s.cfg.phase = .released) ∧
  (∃ (mode : BitVec 3), ∃ (gold : BitVec 2), ∃ (s : State),
    s.cfg.phase ≠ .released) ∧
  (∃ (s : State),
    s.cfg.phase = .fallback) ∧
  (∃ (s : State),
    s.cfg.phase ≠ .fallback) ∧
  (∃ (acc : Accessor), ∃ (v : Word), ∃ (s : State), ∃ (l : Load), ∃ (i : Nat),
    Writes s acc 0 R.PR_HOST_CTRL 0 i ∧ s.cfg.load = some l ∧ l.path = .primary ∧ l.go = false ∧
    bitAt v.toNat 0 = true ∧ s.hostBoot = true) ∧
  (∃ (acc : Accessor), ∃ (v : Word), ∃ (s : State), ∃ (l : Load), ∃ (i : Nat),
    Writes s acc 0 R.PR_HOST_CTRL 0 i ∧ s.cfg.load = some l ∧ l.path = .primary ∧ l.go = false ∧
    (bitAt v.toNat 0 = false ∨ s.hostBoot = false)) :=
  ⟨
    ⟨r0, by decide +kernel⟩,
    ⟨inBoot r0 .dark none, by decide +kernel⟩,
    ⟨2, 3, inBoot r0 .released none, by decide +kernel⟩,
    ⟨2, 3, r0, by decide +kernel⟩,
    ⟨inBoot r0 .fallback none, by decide +kernel⟩,
    ⟨r0, by decide +kernel⟩,
    ⟨.host0, 1,
      { inBoot r0 .loading (some { path := .primary }) with cfg := { (inBoot r0 .loading (some { path := .primary })).cfg with mode := 2 } },
      { path := .primary }, 0, by decide +kernel⟩,
    ⟨.host0, 1, inBoot r0 .loading (some { path := .primary }), { path := .primary }, 0, by decide +kernel⟩⟩

/-- Clauses 6.1, 6.2, 6.3, 6.4, 8.1, 9, 10 of Obligations.LoadingAContainer: states that meet the hypotheses. -/
theorem witness_LoadingAContainer_2 :
  (∃ (h : List Byte), ∃ (s : State), ∃ (u : State), ∃ (l : Load),
    s.cfg.load = some l ∧ l.hdr = [] ∧ l.path ≠ .mailbox ∧ (l.path = .primary → s.bootMode = 2 → l.go = true ∧
    l.seen.length + 64 ≤ l.len) ∧
    (u = (if s.fromHost l = true then s.pcieSend ⟨0, 1, l.base + l.seen.length, 64, false, []⟩ else s)) ∧
    h.length < 64) ∧
  (∃ (h : List Byte), ∃ (s : State), ∃ (u : State), ∃ (l : Load), ∃ (c : Nat), ∃ (auth : Bool),
    s.cfg.load = some l ∧ l.hdr = [] ∧ l.path ≠ .mailbox ∧ (l.path = .primary → s.bootMode = 2 → l.go = true ∧
    l.seen.length + 64 ≤ l.len) ∧
    (u = (if s.fromHost l = true then s.pcieSend ⟨0, 1, l.base + l.seen.length, 64, false, []⟩ else s)) ∧
    h.length = 64 ∧ s.headerCheck l.path h = some (c, auth)) ∧
  (∃ (h : List Byte), ∃ (s : State), ∃ (u : State), ∃ (l : Load),
    s.cfg.load = some l ∧ l.hdr = [] ∧ l.path ≠ .mailbox ∧ (l.path = .primary → s.bootMode = 2 → l.go = true ∧
    l.seen.length + 64 ≤ l.len) ∧
    (u = (if s.fromHost l = true then s.pcieSend ⟨0, 1, l.base + l.seen.length, 64, false, []⟩ else s)) ∧
    h.length = 64 ∧ s.headerCheck l.path h = none ∧ s.cfg.repair = none ∧ l.path ≠ .intport) ∧
  (∃ (h : List Byte), ∃ (s : State), ∃ (u : State), ∃ (l : Load),
    s.cfg.load = some l ∧ l.hdr = [] ∧ l.path ≠ .mailbox ∧ (l.path = .primary → s.bootMode = 2 → l.go = true ∧
    l.seen.length + 64 ≤ l.len) ∧
    (u = (if s.fromHost l = true then s.pcieSend ⟨0, 1, l.base + l.seen.length, 64, false, []⟩ else s)) ∧
    h.length = 64 ∧ s.headerCheck l.path h = none ∧ s.cfg.repair = none ∧ l.path = .intport) ∧
  (∃ (b : List Byte), ∃ (s : State), ∃ (u : State), ∃ (l : Load), ∃ (n : Nat),
    s.cfg.load = some l ∧ l.hdr ≠ [] ∧ l.path ≠ .mailbox ∧ l.work = false ∧ l.chunk < chunkCount (hdrLen l.hdr) ∧
    n = min 65536 (hdrLen l.hdr - 65536 * l.chunk) ∧ (s.fromHost l = true → l.seen.length + n + 20 ≤ l.len) ∧
    (u = (if s.fromHost l = true then s.pcieSend ⟨0, 1, l.base + l.seen.length, n + 20, false, []⟩ else s)) ∧
    b.length < n + 20) ∧
  (∃ (sig : List Byte), ∃ (extra : Bool), ∃ (s : State), ∃ (u : State), ∃ (l : Load),
    s.cfg.load = some l ∧ l.hdr ≠ [] ∧ l.path ≠ .mailbox ∧ (s.fromHost l = true → l.seen.length + 128 ≤ l.len) ∧
    (u = (if s.fromHost l = true then s.pcieSend ⟨0, 1, l.base + l.seen.length, 128, false, []⟩ else s)) ∧
    chunkCount (hdrLen l.hdr) ≤ l.chunk ∧ s.cfg.phase ≠ .verified ∧ l.ended = true ∧ sig.length = 128) ∧
  (∃ (sig : List Byte), ∃ (extra : Bool), ∃ (s : State), ∃ (u : State), ∃ (l : Load),
    s.cfg.load = some l ∧ l.hdr ≠ [] ∧ l.path ≠ .mailbox ∧ (s.fromHost l = true → l.seen.length + 128 ≤ l.len) ∧
    (u = (if s.fromHost l = true then s.pcieSend ⟨0, 1, l.base + l.seen.length, 128, false, []⟩ else s)) ∧
    chunkCount (hdrLen l.hdr) ≤ l.chunk ∧ s.cfg.phase ≠ .verified ∧ l.ended = true ∧ sig.length = 128) ∧
  (∃ (s : State), ∃ (l : Load), ∃ (sig : List Byte),
    l.path = .intport) :=
  ⟨
    ⟨[1], inBoot r0 .loading (some { path := .primary }), inBoot r0 .loading (some { path := .primary }),
      { path := .primary }, by decide +kernel⟩,
    ⟨plainHeader 2 16 0 0, inBoot r0 .loading (some { path := .primary }),
      inBoot r0 .loading (some { path := .primary }), { path := .primary }, 1, false, by decide +kernel⟩,
    ⟨plainHeader 1 16 0 0, inBoot r0 .loading (some { path := .primary }),
      inBoot r0 .loading (some { path := .primary }), { path := .primary }, by decide +kernel⟩,
    ⟨plainHeader 3 16 0 6, inBoot r0 .started (some { path := .intport }),
      inBoot r0 .started (some { path := .intport }), { path := .intport }, by decide +kernel⟩,
    ⟨[1], inBoot r0 .loading (some (loadAt .primary 1 32 [])),
      inBoot r0 .loading (some (loadAt .primary 1 32 [])), loadAt .primary 1 32 [], 32, by decide +kernel⟩,
    ⟨List.replicate 128 0, true,
      inBoot r0 .loading (some { loadAt .primary 1 32 [] with chunk := 1, ended := true }),
      inBoot r0 .loading (some { loadAt .primary 1 32 [] with chunk := 1, ended := true }),
      { loadAt .primary 1 32 [] with chunk := 1, ended := true }, by decide +kernel⟩,
    ⟨List.replicate 128 0, false,
      inBoot r0 .loading (some { loadAt .primary 1 32 [] with chunk := 1, ended := true }),
      inBoot r0 .loading (some { loadAt .primary 1 32 [] with chunk := 1, ended := true }),
      { loadAt .primary 1 32 [] with chunk := 1, ended := true }, by decide +kernel⟩,
    ⟨inBoot r0 .started none, { path := .intport, hdr := plainHeader 3 16 0 6 }, [], by decide +kernel⟩⟩

/-- Clauses 11.1, 11.2, 12.1, 12.2, 12.3, 12.4, 12.6 of Obligations.LoadingAContainer: states that meet the
hypotheses. -/
theorem witness_LoadingAContainer_3 :
  (∃ (s : State), ∃ (l : Load),
    s.cfg.load = some l ∧ s.streamed l = true ∧ l.go = true ∧ s.cfg.phase ≠ .verified ∧ l.last + 50000000 ≤ s.now) ∧
  (∃ (s : State), ∃ (l : Load),
    s.cfg.load = some l ∧ (s.streamed l = false ∨ s.now < l.last + 50000000)) ∧
  (∃ (s : State), ∃ (l : Load), ∃ (code : Nat), ∃ (auth : Bool), ∃ (pos : Nat),
    code < 256 ∧ s.isSet F.CFG_FAIL.VALID 0 = false) ∧
  (∃ (s : State), ∃ (l : Load), ∃ (code : Nat), ∃ (auth : Bool), ∃ (pos : Nat),
    code < 256 ∧ s.isSet F.CFG_FAIL.VALID 0 = true) ∧
  (∃ (s : State), ∃ (l : Load), ∃ (code : Nat), ∃ (auth : Bool), ∃ (pos : Nat),
    code < 256 ∧ (l.path = .golden ∨ (l.path = .primary ∧ (s.bootMode = 3 ∨ (auth = true ∧
    (s.sec.life = 2 ∨ code = 0x0B)))))) ∧
  (∃ (s : State), ∃ (l : Load), ∃ (code : Nat), ∃ (auth : Bool), ∃ (pos : Nat),
    code < 256 ∧ (l.path = .golden ∨ (l.path = .primary ∧ (s.bootMode = 3 ∨ (auth = true ∧
    (s.sec.life = 2 ∨ code = 0x0B)))))) ∧
  (∃ (s : State), ∃ (l : Load), ∃ (code : Nat), ∃ (auth : Bool), ∃ (pos : Nat),
    code < 256 ∧ l.path = .primary ∧ s.bootMode ≠ 3 ∧ (auth = false ∨ (s.sec.life ≠ 2 ∧ code ≠ 0x0B))) ∧
  (∃ (s : State), ∃ (l : Load), ∃ (code : Nat), ∃ (auth : Bool), ∃ (pos : Nat), ∃ (r : Nat),
    code < 256 ∧ l.overlay = true ∧ l.hdr ≠ [] ∧ r < 64 ∧ bitAt (hdrMask l.hdr) r = true) :=
  ⟨
    ⟨at64 (inBoot r0 .started (some { path := .intport, go := true })) 50000000, { path := .intport, go := true },
      by decide +kernel⟩,
    ⟨at64 (inBoot r0 .started (some { path := .intport, go := true })) 49999999, { path := .intport, go := true },
      by decide +kernel⟩,
    ⟨r0, { path := .golden }, 2, true, 0x100000005, by decide +kernel⟩,
    ⟨r0.setReg R.CFG_FAIL 0 0x80000002, { path := .golden }, 3, true, 0x100000005, by decide +kernel⟩,
    ⟨r0, { path := .golden }, 2, true, 0x100000005, by decide +kernel⟩,
    ⟨r0, { path := .primary }, 0xB, true, 5, by decide +kernel⟩,
    ⟨r0, { path := .primary }, 8, true, 5, by decide +kernel⟩,
    ⟨r0, { path := .intport, hdr := plainHeader 3 16 0 6 }, 8, true, 5, 2, by decide +kernel⟩⟩

/-- Clauses 13, 14.1, 14.2, 14.3, 7, 6.3, 12.5 of Obligations.LoadingAContainer: states that meet the hypotheses. -/
theorem witness_LoadingAContainer_4 :
  (∃ (supplies : List (BitVec 16)), ∃ (s : State), ∃ (l : Load),
    s.cfg.phase = .verified ∧ s.cfg.load = some l) ∧
  (∃ (supplies : List (BitVec 16)), ∃ (s : State), ∃ (l : Load),
    s.cfg.phase = .verified ∧ s.cfg.load = some l) ∧
  (∃ (h : List Byte), ∃ (s : State),
    (s.cfg.phase ≠ .started ∨ s.cfg.load.isSome = true)) ∧
  (∃ (h : List Byte), ∃ (s : State),
    s.cfg.phase = .started ∧ s.cfg.load = none ∧ s.isSet F.CFG_LOCK.LOCK 0 = true ∧
    s.isSet F.CFG_FAIL.VALID 0 = false) ∧
  (∃ (h : List Byte), ∃ (s : State),
    s.cfg.phase = .started ∧ s.cfg.load = none ∧ s.isSet F.CFG_LOCK.LOCK 0 = false ∧ h.length = 64 ∧
    s.headerCheck .intport h = none ∧ s.cfg.repair = none) ∧
  (∃ (b : List Byte), ∃ (s : State), ∃ (l : Load),
    s.cfg.load = some l ∧ l.work = true) ∧
  (∃ (h : List Byte), ∃ (s : State), ∃ (u : State), ∃ (l : Load),
    s.cfg.load = some l ∧ l.hdr = [] ∧ l.path ≠ .mailbox ∧ (l.path = .primary → s.bootMode = 2 → l.go = true ∧
    l.seen.length + 64 ≤ l.len) ∧
    (u = (if s.fromHost l = true then s.pcieSend ⟨0, 1, l.base + l.seen.length, 64, false, []⟩ else s)) ∧
    h.length = 64 ∧ s.headerCheck l.path h = none ∧ s.cfg.repair = none ∧ l.path ≠ .intport) ∧
  (∃ (s : State), ∃ (l : Load), ∃ (code : Nat), ∃ (auth : Bool), ∃ (pos : Nat),
    code < 256 ∧ l.path = .intport) :=
  ⟨
    ⟨[1800, 0], inBoot r0 .verified (some (loadAt .golden 2 32 [] )), loadAt .golden 2 32 [], by decide +kernel⟩,
    ⟨[1800, 0],
      inBoot r0 .verified (some { loadAt .golden 2 32 [] with hdr := plainHeader 2 32 0 0x8000000000000003 }),
      { loadAt .golden 2 32 [] with hdr := plainHeader 2 32 0 0x8000000000000003 }, by decide +kernel⟩,
    ⟨[], r0, by decide +kernel⟩,
    ⟨[], (inBoot r0 .started none).put F.CFG_LOCK.LOCK 0 1, by decide +kernel⟩,
    ⟨plainHeader 3 16 0 6, inBoot r0 .started none, by decide +kernel⟩,
    ⟨[], inBoot r0 .loading (some (loadAt .primary 1 32 (wordBytes [15, 0, 0, 0]))),
      loadAt .primary 1 32 (wordBytes [15, 0, 0, 0]), by decide +kernel⟩,
    ⟨plainHeader 1 16 0 0,
      { inBoot r0 .loading (some { path := .primary, go := true, base := 0x1000, len := 1000 }) with cfg := { (inBoot r0 .loading (some { path := .primary, go := true, base := 0x1000, len := 1000 })).cfg with mode := 2 } },
      ({ inBoot r0 .loading (some { path := .primary, go := true, base := 0x1000, len := 1000 }) with cfg := { (inBoot r0 .loading (some { path := .primary, go := true, base := 0x1000, len := 1000 })).cfg with mode := 2 } } : State).pcieSend ⟨0,
      1, 0x1000, 64, false, []⟩, { path := .primary, go := true, base := 0x1000, len := 1000 }, by decide +kernel⟩,
    ⟨r0, { path := .intport, hdr := plainHeader 3 16 0 6 }, 8, true, 5, by decide +kernel⟩⟩

/-- Clause 8.2 of Obligations.LoadingAContainer: states that meet the hypotheses. -/
theorem witness_LoadingAContainer_5 :
  (∃ (b : List Byte), ∃ (s : State), ∃ (u : State), ∃ (l : Load), ∃ (n : Nat),
    s.cfg.load = some l ∧ l.hdr ≠ [] ∧ l.path ≠ .mailbox ∧ l.work = false ∧ l.chunk < chunkCount (hdrLen l.hdr) ∧
    n = min 65536 (hdrLen l.hdr - 65536 * l.chunk) ∧ (s.fromHost l = true → l.seen.length + n + 20 ≤ l.len) ∧
    (u = (if s.fromHost l = true then s.pcieSend ⟨0, 1, l.base + l.seen.length, n + 20, false, []⟩ else s)) ∧
    b.length = n + 20 ∧ Crypto.crc32 (natBytes (b.take (n + 16))) ≠ leValue (b.drop (n + 16))) :=
    ⟨List.replicate 52 1, inBoot r0 .loading (some (loadAt .primary 1 32 [])),
      inBoot r0 .loading (some (loadAt .primary 1 32 [])), loadAt .primary 1 32 [], 32,
      by
    first | decide +kernel | ((repeat' first | apply And.intro | apply Prod.ext) <;> first | decide +kernel | with_reducible rfl | rfl)⟩

/-- Clause 8.3.1 of Obligations.LoadingAContainer: states that meet the hypotheses. -/
theorem witness_LoadingAContainer_6 :
  (∃ (b : List Byte), ∃ (s : State), ∃ (u : State), ∃ (l : Load), ∃ (n : Nat), ∃ key,
    s.cfg.load = some l ∧ l.hdr ≠ [] ∧ l.path ≠ .mailbox ∧ l.work = false ∧ l.chunk < chunkCount (hdrLen l.hdr) ∧
    n = min 65536 (hdrLen l.hdr - 65536 * l.chunk) ∧ (s.fromHost l = true → l.seen.length + n + 20 ≤ l.len) ∧
    (u = (if s.fromHost l = true then s.pcieSend ⟨0, 1, l.base + l.seen.length, n + 20, false, []⟩ else s)) ∧
    b.length = n + 20 ∧ Crypto.crc32 (natBytes (b.take (n + 16))) = leValue (b.drop (n + 16)) ∧
    s.loadKey (hdrKeyId l.hdr) = some key ∧ chunkPlain key l.hdr l.chunk (b.take n) ((b.drop n).take 16) = none) :=
    ⟨List.replicate 48 1 ++ leBytes 4 (Crypto.crc32 (List.replicate 48 1)),
      inBoot r0 .loading (some (loadAt .primary 1 32 [])), inBoot r0 .loading (some (loadAt .primary 1 32 [])),
      loadAt .primary 1 32 [], 32, none,
      by
    first | decide +kernel | ((repeat' first | apply And.intro | apply Prod.ext) <;> first | decide +kernel | with_reducible rfl | rfl)⟩

/-- Clause 8.3.2 of Obligations.LoadingAContainer: states that meet the hypotheses. -/
theorem witness_LoadingAContainer_7 :
  (∃ (b : List Byte), ∃ (s : State), ∃ (u : State), ∃ (l : Load), ∃ (n : Nat), ∃ key, ∃ plain,
    s.cfg.load = some l ∧ l.hdr ≠ [] ∧ l.path ≠ .mailbox ∧ l.work = false ∧ l.chunk < chunkCount (hdrLen l.hdr) ∧
    n = min 65536 (hdrLen l.hdr - 65536 * l.chunk) ∧ (s.fromHost l = true → l.seen.length + n + 20 ≤ l.len) ∧
    (u = (if s.fromHost l = true then s.pcieSend ⟨0, 1, l.base + l.seen.length, n + 20, false, []⟩ else s)) ∧
    b.length = n + 20 ∧ Crypto.crc32 (natBytes (b.take (n + 16))) = leValue (b.drop (n + 16)) ∧
    s.loadKey (hdrKeyId l.hdr) = some key ∧
    chunkPlain key l.hdr l.chunk (b.take n) ((b.drop n).take 16) = some plain) :=
    ⟨List.replicate 48 0 ++ leBytes 4 (Crypto.crc32 (List.replicate 48 0)),
      inBoot r0 .loading (some (loadAt .primary 1 32 [])), inBoot r0 .loading (some (loadAt .primary 1 32 [])),
      loadAt .primary 1 32 [], 32, none, List.replicate 32 0,
      by
    first | decide +kernel | ((repeat' first | apply And.intro | apply Prod.ext) <;> first | decide +kernel | with_reducible rfl | rfl)⟩

/-- Clauses 1.1, 1.2, 1.3.1, 1.3.2, 1.3.3, 1.3.4, 1.3.5.1, 1.3.5.2 of Obligations.RecordsAndRegions: states that
meet the hypotheses. -/
theorem witness_RecordsAndRegions_1 :
  (∃ (s : State), ∃ (x : Nat × Instr),
    x ∈ [(1, .frames), (2, .zero), (3, .data), (4, .iso), (5, .port), (6, .firmware), (15, .endRecord)] ∧
    s.cfg.load = none) ∧
  (∃ (s : State), ∃ (x : Nat × Instr), ∃ (l : Load),
    x ∈ [(1, .frames), (2, .zero), (3, .data), (4, .iso), (5, .port), (6, .firmware), (15, .endRecord)] ∧
    s.cfg.load = some l ∧ (l.ended = true ∨ l.opened = none)) ∧
  (∃ (s : State), ∃ (x : Nat × Instr), ∃ (l : Load), ∃ (o : Load),
    x ∈ [(1, .frames), (2, .zero), (3, .data), (4, .iso), (5, .port), (6, .firmware), (15, .endRecord)] ∧
    s.cfg.load = some l ∧ l.ended = false ∧ l.opened = some o ∧ recType o.head ∉ [1, 2, 3, 4, 5, 6, 15]) ∧
  (∃ (s : State), ∃ (x : Nat × Instr), ∃ (l : Load), ∃ (o : Load),
    x ∈ [(1, .frames), (2, .zero), (3, .data), (4, .iso), (5, .port), (6, .firmware), (15, .endRecord)] ∧
    s.cfg.load = some l ∧ l.ended = false ∧ l.opened = some o ∧ recType o.head ∈ [1, 2, 3, 4, 5, 6, 15] ∧
    recType o.head ≠ x.1) ∧
  (∃ (s : State), ∃ (x : Nat × Instr), ∃ (l : Load), ∃ (o : Load),
    x ∈ [(1, .frames), (2, .zero), (3, .data), (4, .iso), (5, .port), (6, .firmware), (15, .endRecord)] ∧
    s.cfg.load = some l ∧ l.ended = false ∧ l.opened = some o ∧ recType o.head = x.1 ∧
    headValid o o.head o.start = false) ∧
  (∃ (s : State), ∃ (x : Nat × Instr), ∃ (l : Load), ∃ (o : Load),
    x ∈ [(1, .frames), (2, .zero), (3, .data), (4, .iso), (5, .port), (6, .firmware), (15, .endRecord)] ∧
    s.cfg.load = some l ∧ l.ended = false ∧ l.opened = some o ∧ recType o.head = x.1 ∧
    headValid o o.head o.start = true ∧ hdrLen o.hdr < o.start + 16 + recBody o.head) ∧
  (∃ (s : State), ∃ (x : Nat × Instr), ∃ (l : Load), ∃ (o : Load),
    x ∈ [(1, .frames), (2, .zero), (3, .data), (4, .iso), (5, .port), (6, .firmware), (15, .endRecord)] ∧
    s.cfg.load = some l ∧ l.ended = false ∧ l.opened = some o ∧ recType o.head = x.1 ∧
    headValid o o.head o.start = true ∧ o.start + 16 + recBody o.head ≤ hdrLen o.hdr ∧ o.buf.length < o.left ∧
    x.1 ≠ 1) ∧
  (∃ (s : State), ∃ (x : Nat × Instr), ∃ (l : Load), ∃ (o : Load),
    x ∈ [(1, .frames), (2, .zero), (3, .data), (4, .iso), (5, .port), (6, .firmware), (15, .endRecord)] ∧
    s.cfg.load = some l ∧ l.ended = false ∧ l.opened = some o ∧ recType o.head = x.1 ∧
    headValid o o.head o.start = true ∧ o.start + 16 + recBody o.head ≤ hdrLen o.hdr ∧ o.left ≤ o.buf.length ∧
    x.1 ≠ 1 ∧ bodyValid o.head (o.buf.take o.left) = false) :=
  ⟨
    ⟨r0, (1, .frames), by decide +kernel⟩,
    ⟨inBoot r0 .loading (some (loadAt .primary 1 16 [])), (1, .frames), loadAt .primary 1 16 [],
      by decide +kernel⟩,
    ⟨inBoot r0 .loading (some (loadAt .primary 1 16 (wordBytes [7, 0, 0, 0]))), (6, .firmware),
      loadAt .primary 1 16 (wordBytes [7, 0, 0, 0]),
      { loadAt .primary 1 16 [] with head := wordBytes [7, 0, 0, 0], taken := 16, left := 0 }, by decide +kernel⟩,
    ⟨inBoot r0 .loading (some (loadAt .primary 1 16 (wordBytes [15, 0, 0, 0]))), (6, .firmware),
      loadAt .primary 1 16 (wordBytes [15, 0, 0, 0]),
      { loadAt .primary 1 16 [] with head := wordBytes [15, 0, 0, 0], taken := 16, left := 0 }, by decide +kernel⟩,
    ⟨inBoot r0 .loading (some (loadAt .primary 1 16 (wordBytes [6, 0, 0, 0]))), (6, .firmware),
      loadAt .primary 1 16 (wordBytes [6, 0, 0, 0]),
      { loadAt .primary 1 16 [] with head := wordBytes [6, 0, 0, 0], taken := 16, left := 0 }, by decide +kernel⟩,
    ⟨inBoot r0 .loading (some (loadAt .primary 1 16 (wordBytes [6, 1, 0, 0]))), (6, .firmware),
      loadAt .primary 1 16 (wordBytes [6, 1, 0, 0]),
      { loadAt .primary 1 16 [] with head := wordBytes [6, 1, 0, 0], taken := 16, left := 16 }, by decide +kernel⟩,
    ⟨inBoot r0 .loading (some (loadAt .primary 1 64 (wordBytes [6, 1, 0, 0]))), (6, .firmware),
      loadAt .primary 1 64 (wordBytes [6, 1, 0, 0]),
      { loadAt .primary 1 64 [] with head := wordBytes [6, 1, 0, 0], taken := 16, left := 16 }, by decide +kernel⟩,
    ⟨inBoot r0 .loading (some (loadAt .primary 1 64 (wordBytes [6, 1, 0, 0, 0x100, 0, 0, 0]))), (6, .firmware),
      loadAt .primary 1 64 (wordBytes [6, 1, 0, 0, 0x100, 0, 0, 0]),
      { loadAt .primary 1 64 (wordBytes [0x100, 0, 0, 0]) with head := wordBytes [6, 1, 0, 0], taken := 16, left := 16 },
      by decide +kernel⟩⟩

/-- Clauses 2.1, 2.2, 2.4, 2.5, 2.6, 2.7, 2.8, 2.9 of Obligations.RecordsAndRegions: states that meet the
hypotheses. -/
theorem witness_RecordsAndRegions_2 :
  (∃ (s : State), ∃ (l : Load), ∃ (o : Load), ∃ (b : List Byte), ∃ (body : List Byte), ∃ (n : Nat), ∃ (addr : Nat), ∃ (l' : Load), ∃ (m : Nat), ∃ (a : Nat),
    s.cfg.load = some l ∧ l.ended = false ∧ l.opened = some o ∧ o.head = b ∧ o.left = n ∧ o.buf.take n = body ∧
    recAddr b = addr ∧ body.length = n ∧ headValid o b o.start = true ∧ o.start + 16 + recBody b ≤ hdrLen o.hdr ∧
    bodyValid b body = true ∧ l' = o.took n ∧ recType b = 1 ∧ o.part = m ∧ 0 < m ∧
    a = addr + (recBody b - n) / 512) ∧
  (∃ (s : State), ∃ (l : Load), ∃ (o : Load), ∃ (b : List Byte), ∃ (body : List Byte), ∃ (n : Nat), ∃ (addr : Nat), ∃ (l' : Load),
    s.cfg.load = some l ∧ l.ended = false ∧ l.opened = some o ∧ o.head = b ∧ o.left = n ∧ o.buf.take n = body ∧
    recAddr b = addr ∧ body.length = n ∧ headValid o b o.start = true ∧ o.start + 16 + recBody b ≤ hdrLen o.hdr ∧
    bodyValid b body = true ∧ l' = o.took n ∧ recType b = 2 ∧ bitAt addr 24 = true ∧ n = recBody b) ∧
  (∃ (s : State), ∃ (l : Load), ∃ (o : Load), ∃ (b : List Byte), ∃ (body : List Byte), ∃ (n : Nat), ∃ (addr : Nat), ∃ (l' : Load), ∃ (k : Nat),
    s.cfg.load = some l ∧ l.ended = false ∧ l.opened = some o ∧ o.head = b ∧ o.left = n ∧ o.buf.take n = body ∧
    recAddr b = addr ∧ body.length = n ∧ headValid o b o.start = true ∧ o.start + 16 + recBody b ≤ hdrLen o.hdr ∧
    bodyValid b body = true ∧ l' = o.took n ∧ k < 32 ∧ recType b = 3 ∧ InScratch k addr (recCount b) ∧
    Serves s k ∧ Unhindered s epConfig 3) ∧
  (∃ (s : State), ∃ (l : Load), ∃ (o : Load), ∃ (b : List Byte), ∃ (body : List Byte), ∃ (n : Nat), ∃ (addr : Nat), ∃ (l' : Load),
    s.cfg.load = some l ∧ l.ended = false ∧ l.opened = some o ∧ o.head = b ∧ o.left = n ∧ o.buf.take n = body ∧
    recAddr b = addr ∧ body.length = n ∧ headValid o b o.start = true ∧ o.start + 16 + recBody b ≤ hdrLen o.hdr ∧
    bodyValid b body = true ∧ l' = o.took n ∧ recType b = 4) ∧
  (∃ (s : State), ∃ (l : Load), ∃ (o : Load), ∃ (b : List Byte), ∃ (body : List Byte), ∃ (n : Nat), ∃ (addr : Nat), ∃ (l' : Load),
    s.cfg.load = some l ∧ l.ended = false ∧ l.opened = some o ∧ o.head = b ∧ o.left = n ∧ o.buf.take n = body ∧
    recAddr b = addr ∧ body.length = n ∧ headValid o b o.start = true ∧ o.start + 16 + recBody b ≤ hdrLen o.hdr ∧
    bodyValid b body = true ∧ l' = o.took n ∧ recType b = 5) ∧
  (∃ (s : State), ∃ (l : Load), ∃ (o : Load), ∃ (b : List Byte), ∃ (body : List Byte), ∃ (n : Nat), ∃ (addr : Nat), ∃ (l' : Load),
    s.cfg.load = some l ∧ l.ended = false ∧ l.opened = some o ∧ o.head = b ∧ o.left = n ∧ o.buf.take n = body ∧
    recAddr b = addr ∧ body.length = n ∧ headValid o b o.start = true ∧ o.start + 16 + recBody b ≤ hdrLen o.hdr ∧
    bodyValid b body = true ∧ l' = o.took n ∧ recType b = 6) ∧
  (∃ (s : State), ∃ (l : Load), ∃ (o : Load), ∃ (b : List Byte), ∃ (body : List Byte), ∃ (n : Nat), ∃ (addr : Nat), ∃ (l' : Load),
    s.cfg.load = some l ∧ l.ended = false ∧ l.opened = some o ∧ o.head = b ∧ o.left = n ∧ o.buf.take n = body ∧
    recAddr b = addr ∧ body.length = n ∧ headValid o b o.start = true ∧ o.start + 16 + recBody b ≤ hdrLen o.hdr ∧
    bodyValid b body = true ∧ l' = o.took n ∧ recType b = 15 ∧ o.frames = hdrFrames o.hdr ∧ o.overlay = true) ∧
  (∃ (s : State), ∃ (l : Load), ∃ (o : Load), ∃ (b : List Byte), ∃ (body : List Byte), ∃ (n : Nat), ∃ (addr : Nat), ∃ (l' : Load),
    s.cfg.load = some l ∧ l.ended = false ∧ l.opened = some o ∧ o.head = b ∧ o.left = n ∧ o.buf.take n = body ∧
    recAddr b = addr ∧ body.length = n ∧ headValid o b o.start = true ∧ o.start + 16 + recBody b ≤ hdrLen o.hdr ∧
    bodyValid b body = true ∧ l' = o.took n ∧ recType b = 15 ∧ n = recBody b ∧ o.overlay = false) :=
  ⟨
    ⟨inBoot r0 .loading (some { loadAt .primary 1 1024 (wordBytes [1, 1, 5, 0] ++ List.replicate 512 3) with taken := 16 }),
      { loadAt .primary 1 1024 (wordBytes [1, 1, 5, 0] ++ List.replicate 512 3) with taken := 16 },
      { loadAt .primary 1 1024 (List.replicate 512 3) with head := wordBytes [1, 1, 5, 0], taken := 32, left := 512 },
      wordBytes [1, 1, 5, 0], List.replicate 512 3, 512, 5, { loadAt .primary 1 1024 [] with taken := 544 }, 512,
      5, by decide +kernel⟩,
    ⟨inBoot r0 .loading (some { loadAt .primary 1 1024 (wordBytes [2, 3, 0x1000005, 0] ++ ([] : List Byte)) with taken := 16 }),
      { loadAt .primary 1 1024 (wordBytes [2, 3, 0x1000005, 0] ++ ([] : List Byte)) with taken := 16 },
      { loadAt .primary 1 1024 (([] : List Byte)) with head := wordBytes [2, 3, 0x1000005, 0], taken := 32, left := 0 },
      wordBytes [2, 3, 0x1000005, 0], ([] : List Byte), 0, 0x1000005,
      { loadAt .primary 1 1024 [] with taken := 32 }, by decide +kernel⟩,
    ⟨inBoot r0 .loading (some { loadAt .primary 1 1024 (wordBytes [3, 4, 0x40, 0x100] ++ wordBytes [9, 0, 0, 0]) with taken := 16 }),
      { loadAt .primary 1 1024 (wordBytes [3, 4, 0x40, 0x100] ++ wordBytes [9, 0, 0, 0]) with taken := 16 },
      { loadAt .primary 1 1024 (wordBytes [9, 0, 0, 0]) with head := wordBytes [3, 4, 0x40, 0x100], taken := 32, left := 16 },
      wordBytes [3, 4, 0x40, 0x100], wordBytes [9, 0, 0, 0], 16, 0x10000000040,
      { loadAt .primary 1 1024 [] with taken := 48 }, 0, by decide +kernel⟩,
    ⟨inBoot r0 .loading (some { loadAt .primary 1 1024 (wordBytes [4, 0, 5, 0] ++ wordBytes [9, 8, 7, 6]) with taken := 16 }),
      { loadAt .primary 1 1024 (wordBytes [4, 0, 5, 0] ++ wordBytes [9, 8, 7, 6]) with taken := 16 },
      { loadAt .primary 1 1024 (wordBytes [9, 8, 7, 6]) with head := wordBytes [4, 0, 5, 0], taken := 32, left := 16 },
      wordBytes [4, 0, 5, 0], wordBytes [9, 8, 7, 6], 16, 5, { loadAt .primary 1 1024 [] with taken := 48 },
      by decide +kernel⟩,
    ⟨inBoot r0 .loading (some { loadAt .primary 1 1024 (wordBytes [5, 0, 5, 0] ++ wordBytes [9, 8, 7, 0]) with taken := 16 }),
      { loadAt .primary 1 1024 (wordBytes [5, 0, 5, 0] ++ wordBytes [9, 8, 7, 0]) with taken := 16 },
      { loadAt .primary 1 1024 (wordBytes [9, 8, 7, 0]) with head := wordBytes [5, 0, 5, 0], taken := 32, left := 16 },
      wordBytes [5, 0, 5, 0], wordBytes [9, 8, 7, 0], 16, 5, { loadAt .primary 1 1024 [] with taken := 48 },
      by decide +kernel⟩,
    ⟨inBoot r0 .loading (some { loadAt .primary 1 1024 (wordBytes [6, 4, 0, 0] ++ wordBytes [9, 0, 0, 0]) with taken := 0 }),
      { loadAt .primary 1 1024 (wordBytes [6, 4, 0, 0] ++ wordBytes [9, 0, 0, 0]) with taken := 0 },
      { loadAt .primary 1 1024 (wordBytes [9, 0, 0, 0]) with head := wordBytes [6, 4, 0, 0], taken := 16, left := 16 },
      wordBytes [6, 4, 0, 0], wordBytes [9, 0, 0, 0], 16, 0, { loadAt .primary 1 1024 [] with taken := 32 },
      by decide +kernel⟩,
    ⟨inBoot r0 .started (some { loadAt .intport 3 16 (wordBytes [15, 0, 0, 0] ++ ([] : List Byte)) with taken := 0 }),
      { loadAt .intport 3 16 (wordBytes [15, 0, 0, 0] ++ ([] : List Byte)) with taken := 0 },
      { loadAt .intport 3 16 (([] : List Byte)) with head := wordBytes [15, 0, 0, 0], taken := 16, left := 0 },
      wordBytes [15, 0, 0, 0], ([] : List Byte), 0, 0, { loadAt .intport 3 16 [] with taken := 16 },
      by decide +kernel⟩,
    ⟨inBoot r0 .loading (some { loadAt .primary 1 32 (wordBytes [15, 0, 0, 0] ++ ([] : List Byte)) with taken := 16 }),
      { loadAt .primary 1 32 (wordBytes [15, 0, 0, 0] ++ ([] : List Byte)) with taken := 16 },
      { loadAt .primary 1 32 (([] : List Byte)) with head := wordBytes [15, 0, 0, 0], taken := 32, left := 0 },
      wordBytes [15, 0, 0, 0], ([] : List Byte), 0, 0, { loadAt .primary 1 32 [] with taken := 32 },
      by decide +kernel⟩⟩

/-- Clauses 2.10, 4, 5.1, 5.2, 5.3, 6.1, 6.2 of Obligations.RecordsAndRegions: states that meet the hypotheses. -/
theorem witness_RecordsAndRegions_3 :
  (∃ (s : State), ∃ (l : Load), ∃ (o : Load), ∃ (b : List Byte), ∃ (body : List Byte), ∃ (n : Nat), ∃ (addr : Nat), ∃ (l' : Load),
    s.cfg.load = some l ∧ l.ended = false ∧ l.opened = some o ∧ o.head = b ∧ o.left = n ∧ o.buf.take n = body ∧
    recAddr b = addr ∧ body.length = n ∧ headValid o b o.start = true ∧ o.start + 16 + recBody b ≤ hdrLen o.hdr ∧
    bodyValid b body = true ∧ l' = o.took n ∧ recType b = 15 ∧ n = recBody b ∧ o.frames ≠ hdrFrames o.hdr ∧
    o.overlay = true) ∧
  (∃ (s : State), ∃ (a : Nat), ∃ (r : Nat), ∃ (d : BitVec 4096),
    frameRegion a = some r ∧ a % 2 ^ 14 < 7168 ∧ s.isSet F.CFG_CONT_INFO.VALID 0 = false) ∧
  (∃ (s : State), ∃ (a : Nat), ∃ (r : Nat), ∃ (d : BitVec 4096),
    frameRegion a = some r ∧ a % 2 ^ 14 < 7168 ∧ s.isSet F.CFG_CONT_INFO.VALID 0 = false) ∧
  (∃ (r : Fin 64), ∃ (s : State),
    (s.regionState r.val ≠ 2 ∨ s.now < s.fab.startAt.get 0 r.val - 1 + 3000)) ∧
  (∃ (r : Fin 64), ∃ (s : State),
    s.regionState r.val = 2 ∧ s.fab.startAt.get 0 r.val - 1 + 3000 ≤ s.now ∧ s.cfg.starting = []) ∧
  (∃ (r : Fin 64), ∃ (s : State), ∃ (k : Taken), ∃ (ver : Nat), ∃ (h : BitVec 256),
    s.regionState r.val = 2 ∧ s.fab.startAt.get 0 r.val - 1 + 3000 ≤ s.now ∧
    s.cfg.starting = [⟨2 ^ r.val, ver, h, some k⟩]) ∧
  (∃ (r : Fin 64), ∃ (s : State),
    s.regionState r.val ≠ 3) ∧
  (∃ (r : Fin 64), ∃ (s : State),
    s.regionState r.val = 3) :=
  ⟨
    ⟨inBoot r0 .started (some { loadAt .intport 3 16 (wordBytes [15, 0, 0, 0] ++ ([] : List Byte)) with taken := 0, frames := 2 }),
      { loadAt .intport 3 16 (wordBytes [15, 0, 0, 0] ++ ([] : List Byte)) with taken := 0, frames := 2 },
      { loadAt .intport 3 16 (([] : List Byte)) with head := wordBytes [15, 0, 0, 0], taken := 16, left := 0, frames := 2 },
      wordBytes [15, 0, 0, 0], ([] : List Byte), 0, 0, { loadAt .intport 3 16 [] with taken := 16, frames := 2 },
      by decide +kernel⟩,
    ⟨r0, 0x30005, 3, 7, by decide +kernel⟩,
    ⟨{ r0 with fab := { r0.fab with drivers := [(3 * 1024 + 5, [(0x30001, 2), (0x30002, 0)])] } }, 0x30005, 3, 7,
      by decide +kernel⟩,
    ⟨2, r0, by decide +kernel⟩,
    ⟨34, at64 ((r0.setRegion 34 2)) 3000, by decide +kernel⟩,
    ⟨34,
      at64 { (taking r0 3 opLoadOverlay (msg 1 0)).setRegion 34 2 with cfg := { r0.cfg with starting := [⟨2 ^ 34, 7, 9, some (cmdOf 3 opLoadOverlay (msg 1 0))⟩] } } 3000,
      cmdOf 3 opLoadOverlay (msg 1 0), 7, 9, by decide +kernel⟩,
    ⟨34, r0, by decide +kernel⟩,
    ⟨34, ((r0.setRegion 34 3).setReg R.PR_REGION_VERSION 34 7).setReg R.PR_ISO_MODE 138 5, by decide +kernel⟩⟩

/-- Clauses 6.3, 6.4, 7, 3, 8, 9.1, 9.2 of Obligations.RecordsAndRegions: states that meet the hypotheses. -/
theorem witness_RecordsAndRegions_4 :
  (∃ (r : Fin 64), ∃ (s : State),
    (s.regionState r.val ≠ 6 ∨ s.now < s.fab.startAt.get 0 r.val - 1 + 1000)) ∧
  (∃ (r : Fin 64), ∃ (s : State),
    s.regionState r.val = 6 ∧ s.fab.startAt.get 0 r.val - 1 + 1000 ≤ s.now ∧ s.domUp (domRegion r.val) = true) ∧
  (∃ (acc : Accessor), ∃ (w : Fin 4), ∃ (v : Word), ∃ (s : State), ∃ (i : Nat),
    Writes s acc 0 R.PR_ISO_MODE w.val i) ∧
  (∃ (fs : List (BitVec 4096)), ∃ (s : State), ∃ (a : Nat),
    2 ^ 24 ≤ a ∧ a + fs.length ≤ 2 ^ 24 + 16384) ∧
  (∃ (hit : FrameRead), ∃ (s : State),
    (s.scrubbing = false ∨ s.dark = true)) ∧
  (∃ (s : State), ∃ (k : Nat), ∃ (a : Nat),
    s.scrubbing = true ∧ s.dark = false ∧ s.lapNext s.cfg.scrubPos = k ∧ k < lapPlaces ∧ lapFrame k = a ∧
    s.fab.hits.get none a = none ∧ s.cfg.compare = false) ∧
  (∃ (s : State), ∃ (k : Nat), ∃ (a : Nat), ∃ (b : Fin 4112),
    s.scrubbing = true ∧ s.dark = false ∧ s.lapNext s.cfg.scrubPos = k ∧ k < lapPlaces ∧ lapFrame k = a ∧
    s.fab.hits.get none a = none ∧ s.cfg.compare = false ∧ (s.writeFrame a (s.fab.frames.get 0 a)).1 = true) ∧
  (∃ (s : State), ∃ (k : Nat), ∃ (a : Nat), ∃ (b : Fin 4112),
    s.scrubbing = true ∧ s.dark = false ∧ s.lapNext s.cfg.scrubPos = k ∧ k < lapPlaces ∧ lapFrame k = a ∧
    s.fab.hits.get none a = none ∧ s.cfg.compare = false ∧ (s.writeFrame a (s.fab.frames.get 0 a)).1 = true) :=
  ⟨
    ⟨34, r0, by decide +kernel⟩,
    ⟨34, at64 ((r0.setRegion 34 6).setImage 34 { configured := true, ver := 7 }) 1000, by decide +kernel⟩,
    ⟨.host0, 2, 0x1234, r0.setReg R.PR_REGION_SEL 0 34, 138, by decide +kernel⟩,
    ⟨[5, 6], r0, 0x1000005, by decide +kernel⟩,
    ⟨{}, r0, by decide +kernel⟩,
    ⟨inBoot r0 .started none, 0, 0x1000000, by decide +kernel⟩,
    ⟨inBoot r0 .started none, 0, 0x1000000, 4111, by decide +kernel⟩,
    ⟨inBoot r0 .started none, 0, 0x1000000, 0, by decide +kernel⟩⟩

/-- Clauses 9.3, 10, 11.1, 11.2, 12.1, 12.2 of Obligations.RecordsAndRegions: states that meet the hypotheses. -/
theorem witness_RecordsAndRegions_5 :
  (∃ (s : State), ∃ (k : Nat), ∃ (a : Nat), ∃ (b : Fin 4112), ∃ (c : Fin 4112),
    s.scrubbing = true ∧ s.dark = false ∧ s.lapNext s.cfg.scrubPos = k ∧ k < lapPlaces ∧ lapFrame k = a ∧
    s.fab.hits.get none a = none ∧ b ≠ c) ∧
  (∃ (chunk : List Byte), ∃ (s : State),
    s.cfg.repair = none) ∧
  (∃ (chunk : List Byte), ∃ (s : State), ∃ (u : State), ∃ (a : Nat), ∃ d,
    s.cfg.repair = some a ∧
    u = { s.put F.CFG_SCRUB_STATUS.REPAIRING 0 0 with cfg := { s.cfg with repair := none } } ∧
    u.sourceFrame a chunk = (some d, u) ∧ (u.writeFrame a d).1 = true ∧ logicFrame a = true) ∧
  (∃ (chunk : List Byte), ∃ (s : State), ∃ (u : State), ∃ (a : Nat),
    s.cfg.repair = some a ∧
    u = { s.put F.CFG_SCRUB_STATUS.REPAIRING 0 0 with cfg := { s.cfg with repair := none } } ∧
    u.sourceFrame a chunk = (none, u) ∧ s.isSet F.CFG_LOST_ADDR.VALID 0 = false ∧ a < 2 ^ 25) ∧
  (∃ (mismatch : Bool), ∃ (bad : Bool), ∃ (s : State), ∃ (ns : Nat),
    s.now - s.cfg.lapStart - s.cfg.lapPaused = ns ∧ (bad = (mismatch || s.cfg.lapDiff != 0)) ∧
    (s.scrubbing = false ∨ s.dark = true ∨ s.lapNext s.cfg.scrubPos < lapPlaces)) ∧
  (∃ (mismatch : Bool), ∃ (bad : Bool), ∃ (s : State), ∃ (ns : Nat),
    s.now - s.cfg.lapStart - s.cfg.lapPaused = ns ∧ (bad = (mismatch || s.cfg.lapDiff != 0)) ∧
    s.scrubbing = true ∧ s.dark = false ∧ lapPlaces ≤ s.lapNext s.cfg.scrubPos) ∧
  (∃ (mismatch : Bool), ∃ (bad : Bool), ∃ (s : State), ∃ (ns : Nat),
    s.now - s.cfg.lapStart - s.cfg.lapPaused = ns ∧ (bad = (mismatch || s.cfg.lapDiff != 0)) ∧
    s.scrubbing = true ∧ s.dark = false ∧ lapPlaces ≤ s.lapNext s.cfg.scrubPos) ∧
  (∃ (mismatch : Bool), ∃ (bad : Bool), ∃ (s : State), ∃ (ns : Nat),
    s.now - s.cfg.lapStart - s.cfg.lapPaused = ns ∧ (bad = (mismatch || s.cfg.lapDiff != 0)) ∧
    s.scrubbing = true ∧ s.dark = false ∧ lapPlaces ≤ s.lapNext s.cfg.scrubPos) :=
  ⟨
    ⟨inBoot r0 .started none, 0, 0x1000000, 0, 4095, by decide +kernel⟩,
    ⟨[], r0, by decide +kernel⟩,
    ⟨[], { r0.put F.CFG_STATUS.FLASH_REPAIR 0 1 with cfg := { r0.cfg with repair := some 0x1000005 } },
      ({ ({ r0.put F.CFG_STATUS.FLASH_REPAIR 0 1 with cfg := { r0.cfg with repair := some 0x1000005 } }).put F.CFG_SCRUB_STATUS.REPAIRING 0 0 with cfg := { ({ r0.put F.CFG_STATUS.FLASH_REPAIR 0 1 with cfg := { r0.cfg with repair := some 0x1000005 } }).cfg with repair := none } }),
      0x1000005, 0, by decide +kernel⟩,
    ⟨[], { r0 with cfg := { r0.cfg with repair := some 0x1000005 } },
      ({ ({ r0 with cfg := { r0.cfg with repair := some 0x1000005 } }).put F.CFG_SCRUB_STATUS.REPAIRING 0 0 with cfg := { ({ r0 with cfg := { r0.cfg with repair := some 0x1000005 } }).cfg with repair := none } }),
      0x1000005, by decide +kernel⟩,
    ⟨true, true, r0, 0, by decide +kernel⟩,
    ⟨true, true,
      at64 { inBoot r0 .started none with cfg := { (inBoot r0 .started none).cfg with scrubPos := 16384, lapDiff := 0 } } 100001000,
      100001000, by decide +kernel⟩,
    ⟨false, false,
      at64 { inBoot r0 .started none with cfg := { (inBoot r0 .started none).cfg with scrubPos := 16384, lapDiff := 0 } } 100000000,
      100000000, by decide +kernel⟩,
    ⟨false, true,
      at64 { inBoot r0 .started none with cfg := { (inBoot r0 .started none).cfg with scrubPos := 16384, lapDiff := 5 } } 100000000,
      100000000, by decide +kernel⟩⟩

/-- Clause 2.3.2 of Obligations.RecordsAndRegions: states that meet the hypotheses. -/
theorem witness_RecordsAndRegions_6 :
  (∃ (s : State), ∃ (l : Load), ∃ (o : Load), ∃ (b : List Byte), ∃ (body : List Byte), ∃ (n : Nat), ∃ (addr : Nat), ∃ (l' : Load), ∃ c, ∃ n', ∃ u,
    s.cfg.load = some l ∧ l.ended = false ∧ l.opened = some o ∧ o.head = b ∧ o.left = n ∧ o.buf.take n = body ∧
    recAddr b = addr ∧ body.length = n ∧ headValid o b o.start = true ∧ o.start + 16 + recBody b ≤ hdrLen o.hdr ∧
    bodyValid b body = true ∧ l' = o.took n ∧ recType b = 3 ∧ n = recBody b ∧
    s.writeBytes ⟨epConfig, 0, 3, false⟩ addr (body.take (recCount b)) = (c, n', u) ∧ c = 0 ∧ recSub b = 0 ∧
    u.sec.programs.length < 256) :=
    ⟨inBoot r0 .loading (some { loadAt .primary 1 1024 (wordBytes [3, 4, 0x40, 0x100] ++ wordBytes [9, 0, 0, 0]) with taken := 16 }),
      { loadAt .primary 1 1024 (wordBytes [3, 4, 0x40, 0x100] ++ wordBytes [9, 0, 0, 0]) with taken := 16 },
      { loadAt .primary 1 1024 (wordBytes [9, 0, 0, 0]) with head := wordBytes [3, 4, 0x40, 0x100], taken := 32, left := 16 },
      wordBytes [3, 4, 0x40, 0x100], wordBytes [9, 0, 0, 0], 16, 0x10000000040,
      { loadAt .primary 1 1024 [] with taken := 48 }, 0, 16,
      ((inBoot r0 .loading (some { loadAt .primary 1 1024 (wordBytes [3, 4, 0x40, 0x100] ++ wordBytes [9, 0, 0, 0]) with taken := 16 })).writeBytes ⟨epConfig,
      0, 3, false⟩ 0x10000000040 (wordBytes [9])).2.2,
      by
    first | decide +kernel | ((repeat' first | apply And.intro | apply Prod.ext) <;> first | decide +kernel | with_reducible rfl | rfl)⟩

/-- Clauses 1, 2, 3, 4, 5, 6, 7, 8 of Obligations.PowerDownSequence: states that meet the hypotheses. -/
theorem witness_PowerDownSequence_1 :
  (∃ (d : Fin 256), ∃ (s : State), ∃ x,
    s.down d.val = some x ∧ x.attempts = 0 ∧ s.domState d.val = 2 ∧ (x.entry && s.entryBefore d.val) = false) ∧
  (∃ (d : Fin 256), ∃ (s : State),
    s.domState d.val = 3 ∧ (s.down d.val).isSome ∧ s.domIdle d.val = true ∧ s.domDrained d.val = true) ∧
  (∃ (d : Fin 256), ∃ (s : State), ∃ x,
    s.down d.val = some x ∧ s.domState d.val = 3 ∧ x.start + 1000000 ≤ s.now ∧ x.attempts < 4 ∧
    (s.domIdle d.val && s.domDrained d.val) = false) ∧
  (∃ (d : Fin 256), ∃ (s : State),
    s.domState d.val = 4) ∧
  (∃ (d : Fin 256), ∃ (s : State), ∃ x, ∃ f,
    s.down d.val = some x ∧ x.failed = some f ∧ x.attempts < 4 ∧ s.domState d.val = 2 ∧
    s.quietSince d.val f + 100000 ≤ s.now) ∧
  (∃ (d : Fin 256), ∃ (s : State), ∃ x, ∃ f, ∃ k,
    s.down d.val = some x ∧ x.failed = some f ∧ x.entry = false ∧ x.cmd = some k ∧ f + 100000000 ≤ s.now ∧
    s.now < s.quietSince d.val f + 100000) ∧
  (∃ (d : Fin 256), ∃ (s : State), ∃ x,
    s.down d.val = some x ∧ s.domState d.val = 5 ∧ x.entry = false ∧ x.cmd = none ∧ x.on = false ∧
    (x.deny = true ∨ ((s.domGone d.val).parkedAt d.val = [] ∧ (s.domGone d.val).askedAt d.val = []))) ∧
  (∃ (d : Fin 256), ∃ (s : State),
    s.domState d.val = 1 ∧ (d.val = 0xC0 ∨ d.val = 0xC1) ∧ s.power.ups.get none d.val = none) :=
  ⟨
    ⟨0x10, r0.setDown 0x10 (some {}), {}, by decide +kernel⟩,
    ⟨0x10, (r0.setDown 0x10 (some {attempts:=1})).setDom 0x10 3, by decide +kernel⟩,
    ⟨0x10,
      at64 (((r0.setDown 0x10 (some {attempts:=1})).setDom 0x10 3).setCore 0 ((coreBusy r0 0).core 0)) 1000000,
      {attempts:=1}, by decide +kernel⟩,
    ⟨0x10, (r0.setDown 0x10 (some {attempts:=1})).setDom 0x10 4, by decide +kernel⟩,
    ⟨0x10, at64 (r0.setDown 0x10 (some {attempts:=1, failed := some 0})) 100000, {attempts:=1, failed := some 0},
      0, by decide +kernel⟩,
    ⟨0x10,
      at64 ((taking r0 0 opPowerDomain (msg 3 0x010010)).setPower {downs := [(0x10, some {attempts:=1, failed := some 0, cmd := some (cmdOf 0 opPowerDomain (msg 3 0x010010))})], access := [(0x10, 100000001)]}) 100000000,
      {attempts:=1, failed := some 0, cmd := some (cmdOf 0 opPowerDomain (msg 3 0x010010))}, 0,
      cmdOf 0 opPowerDomain (msg 3 0x010010), by decide +kernel⟩,
    ⟨0x30, (r0.setDown 0x30 (some {attempts:=1,lock:=true})).setDom 0x30 5, {attempts:=1,lock:=true},
      by decide +kernel⟩,
    ⟨0xC0, (r0.setDom 0xC0 1).setParked 0xC0 [{dest:=1}] [], by decide +kernel⟩⟩

/-- Clauses 9, 10 of Obligations.PowerDownSequence: states that meet the hypotheses. -/
theorem witness_PowerDownSequence_2 :
  (∃ (d : Fin 256), ∃ (s : State),
    s.domState d.val = 1 ∧ s.power.wakeAt.get 0 d.val ≠ 0 ∧
    s.power.wakeAt.get 0 d.val - 1 + s.wakeLimit d.val ≤ s.now) ∧
  (∃ (d : Fin 256), ∃ (s : State), ∃ x,
    s.power.dev = some x ∧ x.entered = true ∧ x.target = 2 ∧ s.domState d.val = 2 ∧
    s.quietSince d.val 0 + 1000000 ≤ s.now ∧ (d.val = 0xC0 ∨ d.val = 0xC1)) :=
  ⟨
    ⟨0x10, at64 ((inPower r0 {wakeAt := [(0x10, 1)], parked := [(0x10,[{dest:=1}])]}).setDom 0x10 1) 500000,
      by decide +kernel⟩,
    ⟨0xC1,
      at64 (inDev r0 {target := 2, wakes := 1, lanes := 0, cmd := none, start := 0, entered := true}) 1000000,
      {target := 2, wakes := 1, lanes := 0, cmd := none, start := 0, entered := true}, by decide +kernel⟩⟩

/-- Clauses 1.1, 1.2, 1.3, 1.4, 1.5, 2.1, 2.2, 2.3 of Obligations.DomainCommands: states that meet the hypotheses.
-/
theorem witness_DomainCommands_1 :
  (∃ (acc : Accessor), ∃ (v : Word), ∃ (s : State), ∃ (d : Nat),
    Firmware s acc ∧ Reaches s acc ∧ s.sel acc F.PWR_DOM_SEL.DOMAIN = d ∧ domListed d = true ∧
    domSwitchable d = true ∧ v.toNat % 4 = 0 ∧ s.domState d = 0) ∧
  (∃ (acc : Accessor), ∃ (v : Word), ∃ (s : State), ∃ (d : Nat),
    Firmware s acc ∧ Reaches s acc ∧ s.sel acc F.PWR_DOM_SEL.DOMAIN = d ∧ domListed d = true ∧
    domSwitchable d = true ∧ v.toNat % 4 = 1 ∧ s.domState d = 2 ∧ s.down d = none) ∧
  (∃ (acc : Accessor), ∃ (v : Word), ∃ (s : State), ∃ (d : Nat),
    Firmware s acc ∧ Reaches s acc ∧ s.sel acc F.PWR_DOM_SEL.DOMAIN = d ∧ domListed d = true ∧
    domSwitchable d = true ∧ v.toNat % 4 = 2 ∧ s.domState d = 0) ∧
  (∃ (acc : Accessor), ∃ (v : Word), ∃ (s : State), ∃ (d : Nat),
    Firmware s acc ∧ Reaches s acc ∧ s.sel acc F.PWR_DOM_SEL.DOMAIN = d ∧ domListed d = true ∧
    domSwitchable d = true ∧ v.toNat % 4 = 2 ∧ s.domState d = 2 ∧ s.down d = none) ∧
  (∃ (acc : Accessor), ∃ (v : Word), ∃ (s : State), ∃ (d : Nat),
    Firmware s acc ∧ Reaches s acc ∧ s.sel acc F.PWR_DOM_SEL.DOMAIN = d ∧ domListed d = true ∧
    domSwitchable d = true ∧ v.toNat % 4 = 3) ∧
  (∃ (b : Fin 8), ∃ (m : Msg), ∃ (s : State), ∃ (k : Taken), ∃ (d : Nat),
    Taking s b opPowerDomain m k ∧ fld m 0 16 = d ∧ s.domCommand d ≠ some k.id ∧ domSwitchable d = true ∧
    fld m 2 8 = 0 ∧ s.domState d = 0) ∧
  (∃ (b : Fin 8), ∃ (m : Msg), ∃ (s : State), ∃ (k : Taken), ∃ (d : Nat),
    Taking s b opPowerDomain m k ∧ fld m 0 16 = d ∧ s.domCommand d ≠ some k.id ∧ domSwitchable d = true ∧
    fld m 2 8 = 1 ∧ s.haltedIn d = false ∧ s.domState d = 0) ∧
  (∃ (b : Fin 8), ∃ (m : Msg), ∃ (s : State), ∃ (k : Taken), ∃ (d : Nat),
    Taking s b opPowerDomain m k ∧ fld m 0 16 = d ∧ s.domCommand d ≠ some k.id ∧ domSwitchable d = true ∧
    fld m 2 8 = 1 ∧ s.haltedIn d = false ∧ s.domState d = 2 ∧ s.down d = none) :=
  ⟨
    ⟨.chamois, 0, (r0.put F.PWR_DOM_SEL.DOMAIN 7 0x10).setReg R.PWR_DOM_STATUS 0x10 0x18, 0x10, by decide +kernel⟩,
    ⟨.chamois, 1, r0.put F.PWR_DOM_SEL.DOMAIN 7 0x10, 0x10, by decide +kernel⟩,
    ⟨.chamois, 2, (r0.put F.PWR_DOM_SEL.DOMAIN 7 0x10).setReg R.PWR_DOM_STATUS 0x10 0, 0x10, by decide +kernel⟩,
    ⟨.chamois, 2, r0.put F.PWR_DOM_SEL.DOMAIN 7 0x10, 0x10, by decide +kernel⟩,
    ⟨.chamois, 3, (r0.put F.PWR_DOM_SEL.DOMAIN 7 0x10).setReg R.PWR_DOM_STATUS 0x10 8, 0x10, by decide +kernel⟩,
    ⟨0, msg 3 0x000010, (taking r0 0 opPowerDomain (msg 3 0x000010)).setReg R.PWR_DOM_STATUS 0x10 0x18,
      cmdOf 0 opPowerDomain (msg 3 0x000010), 0x10, by decide +kernel⟩,
    ⟨0, msg 3 0x010010, (taking r0 0 opPowerDomain (msg 3 0x010010)).setReg R.PWR_DOM_STATUS 0x10 0,
      cmdOf 0 opPowerDomain (msg 3 0x010010), 0x10, by decide +kernel⟩,
    ⟨0, msg 3 0x010010, taking r0 0 opPowerDomain (msg 3 0x010010), cmdOf 0 opPowerDomain (msg 3 0x010010), 0x10,
      by decide +kernel⟩⟩

/-- Clauses 2.4, 2.5, 2.6 of Obligations.DomainCommands: states that meet the hypotheses. -/
theorem witness_DomainCommands_2 :
  (∃ (b : Fin 8), ∃ (m : Msg), ∃ (s : State), ∃ (k : Taken), ∃ (d : Nat),
    Taking s b opPowerDomain m k ∧ fld m 0 16 = d ∧ s.domCommand d ≠ some k.id ∧ domSwitchable d = true ∧
    fld m 2 8 = 2 ∧ s.haltedIn d = false ∧ s.domState d = 0) ∧
  (∃ (b : Fin 8), ∃ (m : Msg), ∃ (s : State), ∃ (k : Taken), ∃ (d : Nat),
    Taking s b opPowerDomain m k ∧ fld m 0 16 = d ∧ s.domCommand d ≠ some k.id ∧ domSwitchable d = true ∧
    fld m 2 8 = 3) ∧
  (∃ (b : Fin 8), ∃ (m : Msg), ∃ (s : State), ∃ (k : Taken), ∃ (d : Nat),
    Taking s b opPowerDomain m k ∧ fld m 0 16 = d ∧ s.domCommand d ≠ some k.id ∧ domSwitchable d = false ∧
    fld m 2 8 = 0) :=
  ⟨
    ⟨0, msg 3 0x020010, (taking r0 0 opPowerDomain (msg 3 0x020010)).setReg R.PWR_DOM_STATUS 0x10 0,
      cmdOf 0 opPowerDomain (msg 3 0x020010), 0x10, by decide +kernel⟩,
    ⟨0, msg 3 0x030010, taking r0 0 opPowerDomain (msg 3 0x030010), cmdOf 0 opPowerDomain (msg 3 0x030010), 0x10,
      by decide +kernel⟩,
    ⟨0, msg 3 0x000001, taking r0 0 opPowerDomain (msg 3 0x000001), cmdOf 0 opPowerDomain (msg 3 0x000001), 1,
      by decide +kernel⟩⟩

/-- Clauses 1.1, 1.2, 1.3, 2, 3, 4, 5, 6 of Obligations.DeviceStates: states that meet the hypotheses. -/
theorem witness_DeviceStates_1 :
  (∃ (b : Fin 8), ∃ (m : Msg), ∃ (s : State), ∃ (k : Taken),
    Taking s b opPowerState m k ∧ s.power.dev = none ∧ s.stateRefused (fld m 0 8) (fld m 1 8) = false ∧
    s.tasksRun = false ∧ fld m 0 8 = 1) ∧
  (∃ (b : Fin 8), ∃ (m : Msg), ∃ (s : State), ∃ (k : Taken),
    Taking s b opPowerState m k ∧ s.power.dev = none ∧ s.stateRefused (fld m 0 8) (fld m 1 8) = false ∧
    s.tasksRun = false ∧ fld m 0 8 = 2) ∧
  (∃ (b : Fin 8), ∃ (m : Msg), ∃ (s : State), ∃ (k : Taken),
    Taking s b opPowerState m k ∧ s.power.dev = none ∧ s.stateRefused (fld m 0 8) (fld m 1 8) = false ∧
    s.tasksRun = false ∧ fld m 0 8 = 3) ∧
  (∃ (s : State), ∃ (x : DevState), ∃ (w : Nat),
    s.power.dev = some x ∧ x.window = some w ∧ x.entered = false ∧ w + 122070 ≤ s.now) ∧
  (∃ (s : State), ∃ (x : DevState), ∃ (k : Fin 7),
    s.power.dev = some x ∧ x.target = 2 ∧ x.entered = true ∧ x.wake = none ∧ s.power.stuck = false ∧ 1 ≤ k.val ∧
    k.val ≤ 5 ∧ bitAt x.wakes k.val = true) ∧
  (∃ (s : State), ∃ (x : DevState), ∃ (k : Nat),
    s.power.dev = some x ∧ x.target = 2 ∧ x.entered = true ∧ x.wake = some k) ∧
  (∃ (s : State), ∃ (x : DevState),
    s.power.dev = some x ∧ x.target = 3 ∧ x.entered = true ∧ x.wake.isSome = true) ∧
  (∃ (s : State), ∃ (ticks : BitVec 47), ∃ (n : Nat),
    n = ticks.toNat - s.power.settle ∧ s.reg R.PWR_RTC_ALARM 0 ≠ 0 ∧ s.power.alarmDone = false ∧
    s.power.dev = none ∧
    0 ≤ toSigned 32 ((s.reg R.PWR_RTC_SEC 0 * 32768 + s.get F.PWR_RTC_SUB.SUB 0 + n) / 32768 % 2 ^ 32 + 2 ^ 32 - s.reg R.PWR_RTC_ALARM 0)) :=
  ⟨
    ⟨0, msg 3 1, taking r0 0 opPowerState (msg 3 1), cmdOf 0 opPowerState (msg 3 1), by decide +kernel⟩,
    ⟨0, msg 3 0x0202, taking r0 0 opPowerState (msg 3 0x0202), cmdOf 0 opPowerState (msg 3 0x0202),
      by decide +kernel⟩,
    ⟨0, msg 3 0x0203, taking r0 0 opPowerState (msg 3 0x0203), cmdOf 0 opPowerState (msg 3 0x0203),
      by decide +kernel⟩,
    ⟨at64 (inDev r0 {target := 2, wakes := 2, lanes := 0, cmd := none, start := 0, window := some 0}) 122070,
      {target := 2, wakes := 2, lanes := 0, cmd := none, start := 0, window := some 0}, 0, by decide +kernel⟩,
    ⟨inDev r0 {target := 2, wakes := 2, lanes := 0, cmd := none, start := 0, window := some 0, entered := true},
      {target := 2, wakes := 2, lanes := 0, cmd := none, start := 0, window := some 0, entered := true}, 1,
      by decide +kernel⟩,
    ⟨inDev r0 {target := 2, wakes := 2, lanes := 0, cmd := none, start := 0, window := some 0, entered := true, wake := some 1},
      {target := 2, wakes := 2, lanes := 0, cmd := none, start := 0, window := some 0, entered := true, wake := some 1},
      1, by decide +kernel⟩,
    ⟨(inDev r0 {target := 3, wakes := 2, lanes := 0, cmd := none, start := 0, window := some 0, entered := true, wake := some 1}).put F.PWR_MITTEN_STATUS.RETRIES 0 2,
      {target := 3, wakes := 2, lanes := 0, cmd := none, start := 0, window := some 0, entered := true, wake := some 1},
      by decide +kernel⟩,
    ⟨r0.setReg R.PWR_RTC_ALARM 0 2, 69632, 65536, by decide +kernel⟩⟩

/-- Clause 7 of Obligations.DeviceStates: states that meet the hypotheses. -/
theorem witness_DeviceStates_2 :
  (∃ (acc : Accessor), ∃ (v : Word), ∃ (s : State),
    Firmware s acc ∧ Reaches s acc) :=
    ⟨.chamois, 5, r0.put F.PWR_MITTEN_STATUS.ALARM 0 1, by decide +kernel⟩

/-- Clauses 1.1, 1.2, 2, 3, 4 of Obligations.GovernorPeriodAndDroop: states that meet the hypotheses. -/
theorem witness_GovernorPeriodAndDroop_1 :
  (∃ (s : State), ∃ (rails : BitVec 512),
    s.power.gov.period < s.now / 10000 ∧ s.isSet F.GOV_CTRL.EN 0 = false) ∧
  (∃ (s : State), ∃ (rails : BitVec 512),
    s.power.gov.period < s.now / 10000 ∧ s.isSet F.GOV_CTRL.EN 0 = true) ∧
  (∃ (s : State), ∃ (q : Fin 4), ∃ (old : Nat), ∃ (v : Nat), ∃ (at64 : Nat), ∃ (later : List (Nat × Nat)),
    s.power.gov.avs.get none q.val = some (old, (v, at64) :: later) ∧ at64 + 100000 ≤ s.now ∧
    s.now ≤ at64 + 102000) ∧
  (∃ (s : State), ∃ (k : Fin 16), ∃ (mv : BitVec 10),
    max 1 (s.get F.GOV_DROOP_CFG.MV 0) < mv.toNat ∧ s.power.gov.sags.get false k.val = false) ∧
  (∃ (s : State), ∃ (q : Fin 4),
    s.power.gov.stretch.get false q.val = true ∧
    (∀ k, k < 16 → droopQuad k = q.val → s.power.gov.sags.get false k = false) ∧
    s.power.gov.sagEnd.get 0 q.val + 1000 ≤ s.now) :=
  ⟨
    ⟨at64 (r0.put F.GOV_OTHER_W.W 0 3) 10000, 0x100000000000007D0, by decide +kernel⟩,
    ⟨at64 (r0.put F.GOV_CTRL.EN 0 1) 10000, 0x100000000000007D0, by decide +kernel⟩,
    ⟨at64 (inGov r0 {avs := [(1, some (750, [(740, 0)]))]}) 100000, 1, 750, 740, 0, [], by decide +kernel⟩,
    ⟨r0, 5, 31, by decide +kernel⟩,
    ⟨at64 (inGov r0 {stretch := [(1, true)]}) 1000, 1, by decide +kernel⟩⟩

/-- Clauses 1, 2, 3, 4 of Obligations.ThermalLimits: states that meet the hypotheses. -/
theorem witness_ThermalLimits_1 :
  (∃ (s : State), ∃ (i : Fin 64), ∃ (v : BitVec 12),
    s.tempSoft ≤ toSigned 12 v.toNat ∧ toSigned 12 v.toNat < 920 ∧ s.isSet F.GOV_STATUS.HARD 0 = false ∧
    (s.reading i.val v).anyTemp (List.range 64) s.tempHard = false) ∧
  (∃ (s : State), ∃ (i : Fin 64), ∃ (v : BitVec 12),
    s.tempHard ≤ toSigned 12 v.toNat ∧ s.isSet F.GOV_STATUS.HARD 0 = false) ∧
  (∃ (s : State), ∃ (i : Fin 64), ∃ (v : BitVec 12),
    s.isSet F.GOV_STATUS.HARD 0 = true ∧ s.isSet F.GOV_CTRL.EN 0 = false ∧
    (s.reading i.val v).anyTemp (List.range 64) (s.tempHard - 40) = false) ∧
  (∃ (s : State), ∃ (i : Fin 64), ∃ (v : BitVec 12),
    920 ≤ toSigned 12 v.toNat) :=
  ⟨
    ⟨r0, 17, 760, by decide +kernel⟩,
    ⟨r0, 17, 840, by decide +kernel⟩,
    ⟨r0.put F.GOV_STATUS.HARD 0 1, 17, 700, by decide +kernel⟩,
    ⟨r0, 17, 920, by decide +kernel⟩⟩

/-- Clauses 1, 2, 3.1, 3.2 of Obligations.ClocksAndMultiplexers: states that meet the hypotheses. -/
theorem witness_ClocksAndMultiplexers_1 :
  (∃ (k : Fin 61), ∃ (count : Word), ∃ (s : State), ∃ (e : Nat), ∃ (x : Nat), ∃ (tol : Nat),
    s.get F.CLK_MON_CFG.EXP_KHZ k.val = e ∧ s.get F.CLK_MON_CFG.TOL k.val = tol ∧
    x = (count.toNat * 100000 - e * 4096) + (e * 4096 - count.toNat * 100000) ∧ s.crystalUp = true) ∧
  (∃ (k : Fin 61), ∃ (count : Word), ∃ (s : State), ∃ (e : Nat), ∃ (x : Nat), ∃ (tol : Nat),
    s.get F.CLK_MON_CFG.EXP_KHZ k.val = e ∧ s.get F.CLK_MON_CFG.TOL k.val = tol ∧
    x = (count.toNat * 100000 - e * 4096) + (e * 4096 - count.toNat * 100000) ∧ s.crystalUp = true) ∧
  (∃ (k : Fin 61), ∃ (count : Word), ∃ (s : State), ∃ (e : Nat), ∃ (x : Nat), ∃ (tol : Nat),
    s.get F.CLK_MON_CFG.EXP_KHZ k.val = e ∧ s.get F.CLK_MON_CFG.TOL k.val = tol ∧
    x = (count.toNat * 100000 - e * 4096) + (e * 4096 - count.toNat * 100000) ∧ s.crystalUp = true) ∧
  (∃ (k : Fin 61), ∃ (count : Word), ∃ (s : State), ∃ (e : Nat), ∃ (x : Nat), ∃ (tol : Nat),
    s.get F.CLK_MON_CFG.EXP_KHZ k.val = e ∧ s.get F.CLK_MON_CFG.TOL k.val = tol ∧
    x = (count.toNat * 100000 - e * 4096) + (e * 4096 - count.toNat * 100000) ∧ s.crystalUp = true) ∧
  (∃ (k : Fin 61), ∃ (count : Word), ∃ (s : State), ∃ (e : Nat), ∃ (x : Nat), ∃ (tol : Nat),
    s.get F.CLK_MON_CFG.EXP_KHZ k.val = e ∧ s.get F.CLK_MON_CFG.TOL k.val = tol ∧
    x = (count.toNat * 100000 - e * 4096) + (e * 4096 - count.toNat * 100000) ∧ s.crystalUp = true) ∧
  (∃ (k : Fin 61), ∃ (count : Word), ∃ (s : State),
    s.crystalUp = false) ∧
  (∃ (k : Fin 61), ∃ (s : State),
    (s.get F.CLK_MON_CFG.EXP_KHZ k.val = 0 ∨ s.dark = true)) ∧
  (∃ (k : Fin 61), ∃ (s : State),
    s.get F.CLK_MON_CFG.EXP_KHZ k.val ≠ 0 ∧ s.dark = false) :=
  ⟨
    ⟨6, 6400, inBoot (r0.put F.CLK_MON_CFG.EXP_KHZ 6 156250) .started none, 156250, 0, 4, by decide +kernel⟩,
    ⟨6, 6411, inBoot (r0.put F.CLK_MON_CFG.EXP_KHZ 6 156250) .started none, 156250, 460000+640000, 4,
      by decide +kernel⟩,
    ⟨0, 1178, inBoot (r0) .started none, 25000, 15400000, 4, by decide +kernel⟩,
    ⟨0, 1177, inBoot (r0) .started none, 25000, 15300000, 4, by decide +kernel⟩,
    ⟨5, 1177, inBoot (r0) .started none, 0, 117700000, 4, by decide +kernel⟩,
    ⟨6, 6400, r0, by decide +kernel⟩,
    ⟨6, r0, by decide +kernel⟩,
    ⟨0, r0, by decide +kernel⟩⟩

/-- Clauses 5.1, 5.2, 6.1, 6.2, 7.1, 7.2, 8.1 of Obligations.ClocksAndMultiplexers: states that meet the hypotheses.
-/
theorem witness_ClocksAndMultiplexers_2 :
  (∃ (l : Fin 85), ∃ (s : State),
    s.isSet F.CLK_LOOP_STATUS.LOCK l.val = false ∧
    (s.clk.idle.get false l.val = true ∨ s.loopReady l.val = false ∨ s.sourceBad l.val = false)) ∧
  (∃ (l : Fin 85), ∃ (s : State),
    (s.isSet F.CLK_LOOP_STATUS.LOCK l.val = true ∨ (s.clk.idle.get false l.val = false ∧
    s.loopReady l.val = true ∧ s.sourceBad l.val = true))) ∧
  (∃ (l : Fin 85), ∃ (s : State), ∃ (k : Nat),
    l.val < 21 ∧ s.loopSource l.val = some k ∧ s.clk.idle.get false l.val = true ∧
    s.isSet F.CLK_LOOP_CTRL.AUTO l.val = true ∧ s.loopRuns l.val = true ∧ s.clk.good.get 0 k ≠ 0 ∧
    s.clk.good.get 0 k - 1 + 1000000 ≤ s.now ∧
    s.loopOk l.val (s.reg R.CLK_LOOP_CFG l.val) (s.reg R.CLK_LOOP_FRAC l.val) = true) ∧
  (∃ (l : Fin 85), ∃ (s : State), ∃ (k : Nat),
    l.val < 21 ∧ s.loopSource l.val = some k ∧
    (s.clk.good.get 0 k = 0 ∨ s.now < s.clk.good.get 0 k - 1 + 1000000 ∨ s.isSet F.CLK_LOOP_CTRL.AUTO l.val = false)) ∧
  (∃ (acc : Accessor), ∃ (v : Word), ∃ (s : State), ∃ (l : Nat),
    Writes s acc 0 R.CLK_LOOP_CTRL 0 l ∧ 21 ≤ l) ∧
  (∃ (acc : Accessor), ∃ (v : Word), ∃ (s : State), ∃ (l : Nat),
    Writes s acc 0 R.CLK_LOOP_CTRL 0 l ∧ l < 21 ∧ v.toNat % 16 = 7) ∧
  (∃ (acc : Accessor), ∃ (v : Word), ∃ (s : State), ∃ (l : Nat),
    Writes s acc 0 R.CLK_LOOP_CTRL 0 l ∧ l < 21 ∧ v.toNat % 16 = 7) ∧
  (∃ (l : Fin 85), ∃ (s : State),
    (s.isSet F.CLK_LOOP_STATUS.LOCK l.val = true ∨ s.clk.idle.get false l.val = true ∨ s.loopReady l.val = false ∨ s.sourceBad l.val = true)) :=
  ⟨
    ⟨4, r0, by decide +kernel⟩,
    ⟨4, r0.put F.CLK_LOOP_STATUS.LOCK 4 1, by decide +kernel⟩,
    ⟨4, at64 { r0 with clk := { r0.clk with idle := [(4, true)], good := [(0, 1)] } } 1000000, 0,
      by decide +kernel⟩,
    ⟨4, at64 { r0 with clk := { r0.clk with idle := [(4, true)], good := [(0, 1)] } } 999999, 0,
      by decide +kernel⟩,
    ⟨.chamois, 7, r0.setReg R.CLK_LOOP_SEL 7 25, 25, by decide +kernel⟩,
    ⟨.chamois, 7, r0.setReg R.CLK_LOOP_SEL 7 4, 4, by decide +kernel⟩,
    ⟨.chamois, 7, (r0.setReg R.CLK_LOOP_SEL 7 4).setReg R.CLK_LOOP_CFG 4 1, 4, by decide +kernel⟩,
    ⟨4, r0.put F.CLK_LOOP_STATUS.LOCK 4 1, by decide +kernel⟩⟩

/-- Clauses 8.2, 9.1, 9.2, 9.3, 9.4, 10.1 of Obligations.ClocksAndMultiplexers: states that meet the hypotheses. -/
theorem witness_ClocksAndMultiplexers_3 :
  (∃ (l : Fin 85), ∃ (s : State),
    s.isSet F.CLK_LOOP_STATUS.LOCK l.val = false ∧ s.clk.idle.get false l.val = false ∧ s.loopReady l.val = true ∧
    s.sourceBad l.val = false) ∧
  (∃ (l : Fin 85), ∃ (s : State),
    s.isSet F.CLK_LOOP_STATUS.LOCK l.val = false ∧ s.clk.idle.get false l.val = false ∧ s.loopReady l.val = true ∧
    s.sourceBad l.val = false) ∧
  (∃ (l : Fin 85), ∃ (s : State),
    s.isSet F.CLK_LOOP_STATUS.LOCK l.val = false ∧ s.clk.idle.get false l.val = false ∧ s.loopReady l.val = true ∧
    s.sourceBad l.val = false) ∧
  (∃ (acc : Accessor), ∃ (v : Word), ∃ (s : State), ∃ (m : Nat),
    Writes s acc 0 R.CLK_MUX_CTRL 0 m ∧ bitAt v.toNat 8 = false ∧ muxAllows m (v.toNat % 16) = false) ∧
  (∃ (acc : Accessor), ∃ (v : Word), ∃ (s : State), ∃ (m : Nat),
    Writes s acc 0 R.CLK_MUX_CTRL 0 m ∧ bitAt v.toNat 8 = false ∧ muxAllows m (v.toNat % 16) = true ∧
    s.clk.muxLow.get false m = false ∧ s.isSet F.CLK_MUX_STATUS.MUX_PENDING m = false ∧
    v.toNat % 16 ≠ s.get F.CLK_MUX_STATUS.CUR m) ∧
  (∃ (acc : Accessor), ∃ (v : Word), ∃ (s : State), ∃ (m : Nat),
    Writes s acc 0 R.CLK_MUX_CTRL 0 m ∧ bitAt v.toNat 8 = false ∧ muxAllows m (v.toNat % 16) = true ∧
    s.clk.muxLow.get false m = false ∧ s.isSet F.CLK_MUX_STATUS.MUX_PENDING m = true) ∧
  (∃ (acc : Accessor), ∃ (v : Word), ∃ (s : State), ∃ (m : Nat),
    Writes s acc 0 R.CLK_MUX_CTRL 0 m ∧ bitAt v.toNat 8 = false ∧ muxAllows m (v.toNat % 16) = true ∧
    s.clk.muxLow.get false m = true ∧ bitAt v.toNat 9 = false) ∧
  (∃ (m : Fin 48), ∃ (first : Bool), ∃ (s : State),
    s.isSet F.CLK_MUX_STATUS.MUX_PENDING m.val = false) :=
  ⟨
    ⟨4, inBoot r0 .started none, by decide +kernel⟩,
    ⟨1, inBoot r0 .started none, by decide +kernel⟩,
    ⟨3, inBoot r0 .started none, by decide +kernel⟩,
    ⟨.chamois, 7, r0.setReg R.CLK_MUX_SEL 7 4, 4, by decide +kernel⟩,
    ⟨.chamois, 5, r0.setReg R.CLK_MUX_SEL 7 4, 4, by decide +kernel⟩,
    ⟨.chamois, 5, (r0.setReg R.CLK_MUX_SEL 7 4).put F.CLK_MUX_STATUS.MUX_PENDING 4 1, 4, by decide +kernel⟩,
    ⟨.chamois, 5, { r0.setReg R.CLK_MUX_SEL 7 4 with clk := { r0.clk with muxLow := [(4, true)] } }, 4,
      by decide +kernel⟩,
    ⟨4, true, r0, by decide +kernel⟩⟩

/-- Clauses 10.2, 10.3, 10.4, 11.1, 11.2, 12, 13, 14.1 of Obligations.ClocksAndMultiplexers: states that meet the
hypotheses. -/
theorem witness_ClocksAndMultiplexers_4 :
  (∃ (m : Fin 48), ∃ (first : Bool), ∃ (s : State),
    s.isSet F.CLK_MUX_STATUS.MUX_PENDING m.val = true ∧ first = true ∧
    s.muxInputRuns m.val (s.get F.CLK_MUX_STATUS.CUR m.val) = true) ∧
  (∃ (m : Fin 48), ∃ (first : Bool), ∃ (s : State),
    s.isSet F.CLK_MUX_STATUS.MUX_PENDING m.val = true ∧ first = false ∧ s.clk.muxLow.get false m.val = true ∧
    (s.muxOntoCrystal m.val = false ∨ s.crystalUp = true) ∧
    s.muxInputRuns m.val (s.get F.CLK_MUX_CTRL.SEL m.val) = true) ∧
  (∃ (m : Fin 48), ∃ (first : Bool), ∃ (s : State),
    first = false ∧ s.clk.muxLow.get false m.val = false) ∧
  (∃ (m : Fin 48), ∃ (s : State),
    s.isSet F.CLK_MUX_STATUS.MUX_PENDING m.val = true ∧ s.isSet F.CLK_MUX_STATUS.MUX_STUCK m.val = false ∧
    s.clk.muxAt.get 0 m.val - 1 + 1000000 ≤ s.now) ∧
  (∃ (m : Fin 48), ∃ (s : State),
    (s.isSet F.CLK_MUX_STATUS.MUX_PENDING m.val = false ∨ s.now < s.clk.muxAt.get 0 m.val - 1 + 1000000)) ∧
  (∃ (acc : Accessor), ∃ (v : Word), ∃ (s : State), ∃ (m : Nat),
    Writes s acc 0 R.CLK_MUX_CTRL 0 m ∧ bitAt v.toNat 8 = true ∧ muxAllows m (v.toNat % 16) = true ∧ m < 45) ∧
  (∃ (acc : Accessor), ∃ (v : Word), ∃ (s : State), ∃ (m : Nat),
    Writes s acc 0 R.CLK_MUX_CTRL 0 m ∧ bitAt v.toNat 8 = true ∧ 45 ≤ m ∧ muxAllows m (v.toNat % 16) = true ∧
    s.booting = false ∧ s.clk.gated.get false 3 = false) ∧
  (∃ (blk : Fin 15), ∃ (held : Bool), ∃ (s : State),
    s.isSet F.CLK_GATE_CFG.EN 0 = true ∧ neverGated blk.val = false ∧ held = false) :=
  ⟨
    ⟨4, true, r0.put F.CLK_MUX_STATUS.MUX_PENDING 4 1, by decide +kernel⟩,
    ⟨4, false,
      { (((inBoot r0 .started none).put F.CLK_MUX_STATUS.MUX_PENDING 4 1).put F.CLK_MUX_CTRL.SEL 4 5) with clk := { r0.clk with muxLow := [(4, true)] } },
      by decide +kernel⟩,
    ⟨4, false, r0, by decide +kernel⟩,
    ⟨4,
      at64 { r0.put F.CLK_MUX_STATUS.MUX_PENDING 4 1 with clk := { r0.clk with muxAt := [(4, 41001)] } } 1041000,
      by decide +kernel⟩,
    ⟨4,
      at64 { r0.put F.CLK_MUX_STATUS.MUX_PENDING 4 1 with clk := { r0.clk with muxAt := [(4, 41001)] } } 1040999,
      by decide +kernel⟩,
    ⟨.chamois, 0x105, (r0.setReg R.CLK_MUX_SEL 7 4).put F.CLK_MUX_STATUS.MUX_PENDING 4 1, 4, by decide +kernel⟩,
    ⟨.chamois, 0x10C, inBoot (r0.setReg R.CLK_MUX_SEL 7 45) .started none, 45, by decide +kernel⟩,
    ⟨2, false, r0, by decide +kernel⟩⟩

/-- Clauses 14.2, 14.3, 14.4, 5.2, 8.1, 10.5 of Obligations.ClocksAndMultiplexers: states that meet the hypotheses.
-/
theorem witness_ClocksAndMultiplexers_5 :
  (∃ (blk : Fin 15), ∃ (held : Bool), ∃ (s : State),
    (s.isSet F.CLK_GATE_CFG.EN 0 = false ∨ neverGated blk.val = true ∨ held = true)) ∧
  (∃ (blk : Fin 15), ∃ (held : Bool), ∃ (s : State),
    s.clk.gated.get false blk.val = true) ∧
  (∃ (blk : Fin 15), ∃ (held : Bool), ∃ (s : State),
    s.clk.gated.get false blk.val = false) ∧
  (∃ (l : Fin 85), ∃ (s : State),
    (s.isSet F.CLK_LOOP_STATUS.LOCK l.val = true ∨ (s.clk.idle.get false l.val = false ∧
    s.loopReady l.val = true ∧ s.sourceBad l.val = true))) ∧
  (∃ (l : Fin 85), ∃ (s : State),
    (s.isSet F.CLK_LOOP_STATUS.LOCK l.val = true ∨ s.clk.idle.get false l.val = true ∨ s.loopReady l.val = false ∨ s.sourceBad l.val = true)) ∧
  (∃ (m : Fin 48), ∃ (first : Bool), ∃ (s : State),
    (s.muxInputRuns m.val (if first then s.get F.CLK_MUX_STATUS.CUR m.val else s.get F.CLK_MUX_CTRL.SEL m.val) = false)) :=
  ⟨
    ⟨4, false, r0, by decide +kernel⟩,
    ⟨2, false, { r0 with clk := { r0.clk with gated := [(2, true)] } }, by decide +kernel⟩,
    ⟨2, false, r0, by decide +kernel⟩,
    ⟨4, inBoot (r0.put F.CLK_MON_STATUS.STOPPED 0 1) .started none, by decide +kernel⟩,
    ⟨4, inBoot (r0.put F.CLK_MON_STATUS.STOPPED 0 1) .started none, by decide +kernel⟩,
    ⟨4, true, (r0.put F.CLK_MON_STATUS.STOPPED 0 1).put F.CLK_MUX_STATUS.MUX_PENDING 4 1, by decide +kernel⟩⟩

/-- Clauses 1, 3 of Obligations.DeviceResets: states that meet the hypotheses. -/
theorem witness_DeviceResets_1 :
  (∃ (k : Nat), ∃ (r : RegRow), ∃ (i : Nat), ∃ (s : State),
    k ∈ [0, 1, 2, 3, 4, 10] ∧ regLookup r.off = some (r, 0) ∧ i < 2 ^ 32 ∧
    r.off ∉ [R.CFG_FAIL.off, R.CFG_FAIL_POS.off, R.TC_STATE.off, R.PWR_WAKE_CFG.off, R.PWR_MITTEN_STATUS.off, R.HBM_STATUS.off, R.HBM_PC_STATUS.off, R.CIPH_STATUS.off, R.CFG_SCRUB_STATUS.off]) ∧
  (∃ (k : Nat), ∃ (r : RegRow), ∃ (i : Nat), ∃ (s : State),
    k ∈ [0, 1, 2, 3, 4, 10] ∧ regLookup r.off = some (r, 0) ∧ i < 2 ^ 32 ∧
    r.off ∉ [R.CFG_FAIL.off, R.CFG_FAIL_POS.off, R.TC_STATE.off, R.PWR_WAKE_CFG.off, R.PWR_MITTEN_STATUS.off, R.HBM_STATUS.off, R.HBM_PC_STATUS.off, R.CIPH_STATUS.off, R.CFG_SCRUB_STATUS.off]) ∧
  (∃ (k : Nat), ∃ (r : RegRow), ∃ (i : Nat), ∃ (s : State),
    k ∈ [0, 1, 2, 3, 4, 10] ∧ regLookup r.off = some (r, 0) ∧ i < 2 ^ 32 ∧
    r.off ∉ [R.CFG_FAIL.off, R.CFG_FAIL_POS.off, R.TC_STATE.off, R.PWR_WAKE_CFG.off, R.PWR_MITTEN_STATUS.off, R.HBM_STATUS.off, R.HBM_PC_STATUS.off, R.CIPH_STATUS.off, R.CFG_SCRUB_STATUS.off]) ∧
  (∃ (k : Nat), ∃ (r : RegRow), ∃ (i : Nat), ∃ (s : State),
    k ∈ [0, 1, 2, 3, 4, 10] ∧ regLookup r.off = some (r, 0) ∧ i < 2 ^ 32 ∧
    r.off ∉ [R.CFG_FAIL.off, R.CFG_FAIL_POS.off, R.TC_STATE.off, R.PWR_WAKE_CFG.off, R.PWR_MITTEN_STATUS.off, R.HBM_STATUS.off, R.HBM_PC_STATUS.off, R.CIPH_STATUS.off, R.CFG_SCRUB_STATUS.off]) ∧
  (∃ (k : Nat), ∃ (s : State),
    k ∈ [0, 1, 2, 3, 4, 10]) ∧
  (∃ (k : Nat), ∃ (s : State),
    k ∈ [0, 1, 2, 3, 4, 10]) ∧
  (∃ (k : Nat), ∃ (s : State),
    k ∈ [0, 1, 2, 3, 4, 10]) ∧
  (∃ (k : Nat), ∃ (s : State),
    k ∈ [0, 1, 2, 3, 4, 10]) :=
  ⟨
    ⟨2, R.CFG_LOCK, 0, r0.setReg R.CFG_LOCK 0 1, by decide +kernel⟩,
    ⟨10, R.PWR_RTC_SEC, 0, r0.setReg R.PWR_RTC_SEC 0 77, by decide +kernel⟩,
    ⟨3, R.DEV_OWN_VIOL, 0, r0.setReg R.DEV_OWN_VIOL 0 77, by decide +kernel⟩,
    ⟨1, R.CLK_LOOP_CFG, 4, r0.setReg R.CLK_LOOP_CFG 4 77, by decide +kernel⟩,
    ⟨0, r0.put F.DBG_CORE_STATUS.HALTED 3 1, by decide +kernel⟩,
    ⟨1, stored (r0.put F.DBG_CORE_STATUS.HALTED 3 1) baseScratch [1, 2], by decide +kernel⟩,
    ⟨2, stored (r0.put F.DBG_CORE_STATUS.HALTED 3 1) baseScratch [1, 2], by decide +kernel⟩,
    ⟨4, r0.bankEvent 3, by decide +kernel⟩⟩

/-- Clauses 3, 4, 2, 5.1, 5.2, 6.1, 6.2, 7.1 of Obligations.DeviceResets: states that meet the hypotheses. -/
theorem witness_DeviceResets_2 :
  (∃ (k : Nat), ∃ (s : State),
    k ∈ [0, 1, 2, 3, 4, 10]) ∧
  (∃ (k : Nat), ∃ (s : State), ∃ (l : Load),
    k ∈ [2, 3, 4] ∧ s.cfg.load = some l ∧ s.cfg.phase ≠ .dark ∧ s.isSet F.CFG_FAIL.VALID 0 = false) ∧
  (∃ (k : Nat), ∃ (s : State),
    k ∈ [0, 1, 2, 3, 4, 10]) ∧
  (∃ (s : State),
    s.power.vbatGone = false) ∧
  (∃ (s : State),
    s.power.vbatGone = true) ∧
  (∃ (ns : BitVec 32), ∃ (seen : Bool), ∃ (s : State),
    s.booting = false ∧ (1000 ≤ ns.toNat ∨ (100 ≤ ns.toNat ∧ seen = true))) ∧
  (∃ (ns : BitVec 32), ∃ (seen : Bool), ∃ (s : State),
    s.booting = false ∧ (ns.toNat < 100 ∨ (ns.toNat < 1000 ∧ seen = false))) ∧
  (∃ (s : State),
    s.booting = false ∧ s.flashBusy = false) :=
  ⟨
    ⟨10, r0.bankEvent 3, by decide +kernel⟩,
    ⟨4, inBoot r0 .started (some { path := .intport }), { path := .intport }, by decide +kernel⟩,
    ⟨3, r0.put F.HBM_STATUS.TRAINED 0 3, by decide +kernel⟩,
    ⟨r0, by decide +kernel⟩,
    ⟨inPower r0 { vbatGone := true }, by decide +kernel⟩,
    ⟨500, true, inBoot r0 .started none, by decide +kernel⟩,
    ⟨500, false, inBoot r0 .started none, by decide +kernel⟩,
    ⟨inBoot r0 .started none, by decide +kernel⟩⟩

/-- Clauses 7.2, 7.3, 7.4, 8.1, 8.2, 8.3, 9.1, 9.2 of Obligations.DeviceResets: states that meet the hypotheses. -/
theorem witness_DeviceResets_3 :
  (∃ (s : State),
    s.booting = false ∧ s.flashBusy = true) ∧
  (∃ (s : State),
    s.booting = false ∧ s.fwRuns = true ∧ s.agentHalted 256 = false ∧ s.mbx.fwWait ≤ s.now) ∧
  (∃ (s : State),
    s.booting = false ∧ (s.fwRuns = false ∨ s.agentHalted 256 = true ∨ s.now < s.mbx.fwWait)) ∧
  (∃ (s : State),
    s.booting = true ∧ s.cfg.cause = 0) ∧
  (∃ (s : State),
    s.booting = true ∧ s.cfg.cause = 1) ∧
  (∃ (s : State),
    s.booting = true ∧ s.cfg.cause = 4) ∧
  (∃ (s : State), ∃ (x : DevState), ∃ (k : Nat),
    s.power.dev = some x ∧ x.wake = some k ∧ x.entered = true ∧ x.target = 3 ∧ k < 7) ∧
  (∃ (s : State), ∃ (x : DevState), ∃ (k : Nat),
    s.power.dev = some x ∧ (x.wake = none ∨ x.entered = false ∨ x.target ≠ 3)) :=
  ⟨
    ⟨inBoot (taking r0 3 0x0B02 (msg 1 0)) .started none, by decide +kernel⟩,
    ⟨inBoot (r0.put F.DEV_FW_STATE.STATE 0 2) .started none, by decide +kernel⟩,
    ⟨inBoot r0 .started none, by decide +kernel⟩,
    ⟨r0, by decide +kernel⟩,
    ⟨{ r0 with cfg := { r0.cfg with cause := 1 } }, by decide +kernel⟩,
    ⟨{ r0 with cfg := { r0.cfg with cause := 4 } }, by decide +kernel⟩,
    ⟨inDev r0 { target := 3, wakes := 4, lanes := 0, cmd := cmdOf 0 0x0202 (msg 1 0), start := 0, entered := true, wake := some 2 },
      { target := 3, wakes := 4, lanes := 0, cmd := cmdOf 0 0x0202 (msg 1 0), start := 0, entered := true, wake := some 2 },
      2, by decide +kernel⟩,
    ⟨inDev r0 { target := 3, wakes := 4, lanes := 0, cmd := cmdOf 0 0x0202 (msg 1 0), start := 0, entered := true },
      { target := 3, wakes := 4, lanes := 0, cmd := cmdOf 0 0x0202 (msg 1 0), start := 0, entered := true }, 2,
      by decide +kernel⟩⟩

/-- Clauses 10, 11.1, 11.2, 12.1, 12.2, 12.3 of Obligations.DeviceResets: states that meet the hypotheses. -/
theorem witness_DeviceResets_4 :
  (∃ (s : State), ∃ (r : RegRow), ∃ (i : Nat),
    regLookup r.off = some (r, 0) ∧ i < 2 ^ 32) ∧
  (∃ (s : State), ∃ (r : RegRow), ∃ (i : Nat),
    regLookup r.off = some (r, 0) ∧ i < 2 ^ 32) ∧
  (∃ (s : State), ∃ (r : RegRow), ∃ (i : Nat),
    regLookup r.off = some (r, 0) ∧ i < 2 ^ 32) ∧
  (∃ (s : State),
    s.cfg.phase = .started ∧ s.get F.DEV_FW_STATE.STATE 0 = 1 ∧ s.get F.HBM_STATUS.TRAINED 0 = 3 ∧
    (s.cfg.cause ∈ [0, 1, 5] → s.get F.HBM_STATUS.INIT_DONE 0 = 3) ∧ s.store.damage = [] ∧ s.err.log = []) ∧
  (∃ (s : State),
    (s.cfg.phase ≠ .started ∨ s.get F.DEV_FW_STATE.STATE 0 ≠ 1 ∨ s.get F.HBM_STATUS.TRAINED 0 ≠ 3 ∨ (s.cfg.cause ∈ [0, 1, 5] ∧
    s.get F.HBM_STATUS.INIT_DONE 0 ≠ 3))) ∧
  (∃ (v : Word), ∃ (s : State), ∃ (i : Nat),
    Writes s .debugger 0 R.DBG_WARM_KEY 0 i ∧ s.clk.gated.get false 14 = false ∧ s.dbg.key = none ∧
    v.toNat = 0xA5A5) ∧
  (∃ (v : Word), ∃ (s : State), ∃ (i : Nat), ∃ x,
    Writes s .debugger 0 R.DBG_WARM_KEY 0 i ∧ s.clk.gated.get false 14 = false ∧ s.dbg.key = some x ∧
    v.toNat = 1 ∧ s.now ≤ x + 1000 ∧ s.dbgLevel = 2 ∧ s.booting = false) ∧
  (∃ (v : Word), ∃ (s : State), ∃ (i : Nat), ∃ x,
    Writes s .debugger 0 R.DBG_WARM_KEY 0 i ∧ s.clk.gated.get false 14 = false ∧ s.dbg.key = some x ∧
    (v.toNat ≠ 1 ∨ x + 1000 < s.now ∨ s.dbgLevel ≠ 2)) :=
  ⟨
    ⟨r0.put F.DBG_CORE_STATUS.HALTED 3 1, R.DBG_CORE_STATUS, 3, by decide +kernel⟩,
    ⟨r0.setReg R.DBG_BP_CTRL 3 1, R.DBG_BP_CTRL, 3, by decide +kernel⟩,
    ⟨r0.setReg R.CFG_LOCK 0 1, R.CFG_LOCK, 0, by decide +kernel⟩,
    ⟨inBoot (((r0.put F.DEV_FW_STATE.STATE 0 1).put F.HBM_STATUS.INIT_DONE 0 3).put F.HBM_STATUS.TRAINED 0 3) .started none,
      by decide +kernel⟩,
    ⟨r0, by decide +kernel⟩,
    ⟨0xA5A5, unlocked r0 1, 0, by decide +kernel⟩,
    ⟨1, inBoot { unlocked r0 2 with dbg := { r0.dbg with key := some 0 } } .started none, 0, 0, by decide +kernel⟩,
    ⟨1, { unlocked r0 1 with dbg := { r0.dbg with key := some 0 } }, 0, 0, by decide +kernel⟩⟩

/-- Clauses 1.2, 1.1, 1.10, 1.3, 2.1, 2.2.1, 2.2.2, 2.2.3 of Obligations.GauntletRequests: states that meet the
hypotheses. -/
theorem witness_GauntletRequests_1 :
  (∃ (req : BitVec 2176), ∃ (b : Fin 3), ∃ (s : State),
    reqOp req ≠ 1) ∧
  (∃ (req : BitVec 2176), ∃ (b : Fin 3), ∃ (s : State),
    reqOp req ≠ 0) ∧
  (∃ (req : BitVec 2176), ∃ (b : Fin 3), ∃ (s : State),
    reqOp req ≠ 9) ∧
  (∃ (req : BitVec 2176), ∃ (b : Fin 3), ∃ (s : State),
    reqOp req ≠ 2) ∧
  (∃ (req : BitVec 2176), ∃ (s : State),
    req.toNat % 2 ^ 32 ≠ 0x52504D45) ∧
  (∃ (req : BitVec 2176), ∃ (s : State),
    req.toNat % 2 ^ 32 = 0x52504D45 ∧ bitsOf req.toNat 48 16 = 0 ∧ (reqOp req = 0 ∨ reqOp req = 8 ∨ reqOp req = 9)) ∧
  (∃ (req : BitVec 2176), ∃ (s : State),
    req.toNat % 2 ^ 32 = 0x52504D45 ∧ bitsOf req.toNat 48 16 = 0 ∧ reqOp req ∉ [0, 8, 9] ∧ s.sec.life = 3) ∧
  (∃ (req : BitVec 2176), ∃ (s : State),
    req.toNat % 2 ^ 32 = 0x52504D45 ∧ bitsOf req.toNat 48 16 = 0 ∧ reqOp req ∉ [0, 8, 9] ∧ s.sec.life ≠ 3 ∧
    s.isSet F.SEC_LOCKS.PROV_LOCK 0 = true) :=
  ⟨
    ⟨request 0 0 0 0, 0, r0, by decide +kernel⟩,
    ⟨request 1 0 0 0, 0, r0, by decide +kernel⟩,
    ⟨request 1 0 0 0, 0, r0, by decide +kernel⟩,
    ⟨request 1 0 0 0, 2, r0, by decide +kernel⟩,
    ⟨0, r0, by decide +kernel⟩,
    ⟨request 8 0 0 0, inLife r0 3, by decide +kernel⟩,
    ⟨request 1 0 0 0, inLife r0 3, by decide +kernel⟩,
    ⟨request 1 0 0 0, r0.put F.SEC_LOCKS.PROV_LOCK 0 1, by decide +kernel⟩⟩

/-- Clauses 2.2.4, 3, 6.1, 6.7, 7.1, 7.2, 7.3 of Obligations.GauntletRequests: states that meet the hypotheses. -/
theorem witness_GauntletRequests_2 :
  (∃ (req : BitVec 2176), ∃ (s : State),
    req.toNat % 2 ^ 32 = 0x52504D45 ∧ bitsOf req.toNat 48 16 = 0 ∧ reqOp req ∉ [0, 8, 9] ∧ s.sec.life ≠ 3 ∧
    s.isSet F.SEC_LOCKS.PROV_LOCK 0 = false) ∧
  (∃ (req : BitVec 2176), ∃ (s : State),
    req.toNat % 2 ^ 32 = 0x52504D45 ∧ bitsOf req.toNat 48 16 = 0 ∧ reqOp req ∉ [0, 8, 9] ∧ s.sec.life ≠ 3 ∧
    s.isSet F.SEC_LOCKS.PROV_LOCK 0 = false) ∧
  (∃ (req : BitVec 2176), ∃ (st : Nat), ∃ (extra : List Nat), ∃ (s : State),
    st < 65536) ∧
  (∃ (req : BitVec 2176), ∃ (b : Fin 3), ∃ (s : State), ∃ (c : Nat),
    s.reqCheck req = c ∧ c ≠ stOK ∧ b.val ≠ 2 ∧ reqOp req = 1) ∧
  (∃ (req : BitVec 2176), ∃ (b : Fin 3), ∃ (s : State), ∃ (c : Nat),
    s.reqCheck req = c ∧ c ≠ stOK ∧ b.val ≠ 2 ∧ reqOp req = 7) ∧
  (∃ (req : BitVec 2176), ∃ (s : State), ∃ (f : Fuses), ∃ (v : Nat),
    s.reqCheck req = stOK ∧ s.sec.fuses = f ∧ reqValue req = v ∧ reqOp req = 0) ∧
  (∃ (req : BitVec 2176), ∃ (s : State), ∃ (f : Fuses), ∃ (v : Nat),
    s.reqCheck req = stOK ∧ s.sec.fuses = f ∧ reqValue req = v ∧ reqOp req = 1 ∧ v = 1 ∧ f.life = 0 ∧
    f.slotInUse ≠ none) ∧
  (∃ (req : BitVec 2176), ∃ (s : State), ∃ (f : Fuses), ∃ (v : Nat),
    s.reqCheck req = stOK ∧ s.sec.fuses = f ∧ reqValue req = v ∧ reqOp req = 1 ∧ v = 1 ∧ f.life = 0 ∧
    f.slotInUse = none) :=
  ⟨
    ⟨request 1 0 0 0, inLife r0 1, by decide +kernel⟩,
    ⟨request 6 0 0 0, r0.put F.SEC_LOCKS.KEYRAM_LOCK 0 1, by decide +kernel⟩,
    ⟨request 6 0 0 0, 0x305, [1, 2], r0, by decide +kernel⟩,
    ⟨request 1 0 0 0, 0, inLife r0 3, stState, by decide +kernel⟩,
    ⟨request 7 0 0 0, 0, inLife r0 3, stState, by decide +kernel⟩,
    ⟨request 0 0 0 0, r0, {}, 0, by decide +kernel⟩,
    ⟨request 1 0 1 0, inFuses r0 { img := [(2, { valid := true })] }, { img := [(2, { valid := true })] }, 1,
      by decide +kernel⟩,
    ⟨request 1 0 1 0, inFuses r0 { img := [(2, { valid := true, revoke := true })] },
      { img := [(2, { valid := true, revoke := true })] }, 1, by decide +kernel⟩⟩

/-- Clauses 7.4, 7.5, 7.6, 8.1, 8.2, 8.3, 8.4, 8.5 of Obligations.GauntletRequests: states that meet the hypotheses.
-/
theorem witness_GauntletRequests_3 :
  (∃ (req : BitVec 2176), ∃ (s : State), ∃ (f : Fuses), ∃ (v : Nat),
    s.reqCheck req = stOK ∧ s.sec.fuses = f ∧ reqValue req = v ∧ reqOp req = 1 ∧ 1 ≤ v ∧ v ≤ 3 ∧ v ≤ f.life) ∧
  (∃ (req : BitVec 2176), ∃ (s : State), ∃ (f : Fuses), ∃ (v : Nat),
    s.reqCheck req = stOK ∧ s.sec.fuses = f ∧ reqValue req = v ∧ reqOp req = 1 ∧ v = 2 ∧ f.life = 0) ∧
  (∃ (req : BitVec 2176), ∃ (s : State), ∃ (f : Fuses), ∃ (v : Nat),
    s.reqCheck req = stOK ∧ s.sec.fuses = f ∧ reqValue req = v ∧ reqOp req = 1 ∧ v = 1 ∧ f.life = 0 ∧
    f.slotInUse ≠ none) ∧
  (∃ (req : BitVec 2176), ∃ (s : State), ∃ (f : Fuses), ∃ (k : Nat), ∃ (key : BitVec 256), ∃ (h : BitVec 256),
    s.reqCheck req = stOK ∧ s.sec.fuses = f ∧ reqIndex req = k ∧ reqOp req = 2 ∧ k ≤ 3 ∧ f.imgSlot k = {} ∧
    s.reqKey ((reqPart req 0x30 96).take 40) = some key ∧ h = item256 (((reqPart req 0x30 96).drop 40).take 32)) ∧
  (∃ (req : BitVec 2176), ∃ (s : State), ∃ (f : Fuses), ∃ (k : Nat),
    s.reqCheck req = stOK ∧ s.sec.fuses = f ∧ reqIndex req = k ∧ reqOp req = 2 ∧ k ≤ 3 ∧
    (f.imgSlot k).valid = true) ∧
  (∃ (req : BitVec 2176), ∃ (s : State), ∃ (f : Fuses), ∃ (k : Nat),
    s.reqCheck req = stOK ∧ s.sec.fuses = f ∧ reqIndex req = k ∧ reqOp req = 2 ∧ 3 < k) ∧
  (∃ (req : BitVec 2176), ∃ (s : State), ∃ (f : Fuses), ∃ (k : Nat),
    s.reqCheck req = stOK ∧ s.sec.fuses = f ∧ reqIndex req = k ∧ reqOp req = 2 ∧ k ≤ 3 ∧ f.imgSlot k = {} ∧
    s.reqKey ((reqPart req 0x30 96).take 40) = none) ∧
  (∃ (req : BitVec 2176), ∃ (s : State), ∃ (f : Fuses), ∃ (k : Nat),
    s.reqCheck req = stOK ∧ s.sec.fuses = f ∧ reqIndex req = k ∧ reqOp req = 3 ∧ k ≤ 3 ∧
    (f.imgSlot k).revoke = false ∧ (∀ j < 4, k < j → (f.imgSlot j).valid = false)) :=
  ⟨
    ⟨request 1 0 1 0, inFuses r0 { life := 1 }, { life := 1 }, 1, by decide +kernel⟩,
    ⟨request 1 0 2 0, r0, {}, 2, by decide +kernel⟩,
    ⟨request 1 0 1 0, inFuses r0 { img := [(2, { valid := true })] }, { img := [(2, { valid := true })] }, 1,
      by decide +kernel⟩,
    ⟨request 2 3 0 (5 + 9 * 2 ^ 320), r0, {}, 3, 5, 9, by decide +kernel⟩,
    ⟨request 2 2 0 0, inFuses r0 { img := [(2, { valid := true })] }, { img := [(2, { valid := true })] }, 2,
      by decide +kernel⟩,
    ⟨request 2 4 0 0, r0, {}, 4, by decide +kernel⟩,
    ⟨request 2 3 0 (2 ^ 256), r0, {}, 3, by decide +kernel⟩,
    ⟨request 3 3 0 0, r0, {}, 3, by decide +kernel⟩⟩

/-- Clauses 8.6, 8.7, 8.8, 8.9, 8.10, 8.11, 8.12, 8.13 of Obligations.GauntletRequests: states that meet the
hypotheses. -/
theorem witness_GauntletRequests_4 :
  (∃ (req : BitVec 2176), ∃ (s : State), ∃ (f : Fuses), ∃ (k : Nat),
    s.reqCheck req = stOK ∧ s.sec.fuses = f ∧ reqIndex req = k ∧ reqOp req = 4 ∧ k ≤ 6 ∧ f.dbgSlot k = {}) ∧
  (∃ (req : BitVec 2176), ∃ (s : State), ∃ (f : Fuses), ∃ (k : Nat),
    s.reqCheck req = stOK ∧ s.sec.fuses = f ∧ reqIndex req = k ∧ reqOp req = 4 ∧ k ≤ 6 ∧
    (f.dbgSlot k).valid = true) ∧
  (∃ (req : BitVec 2176), ∃ (s : State), ∃ (f : Fuses), ∃ (k : Nat),
    s.reqCheck req = stOK ∧ s.sec.fuses = f ∧ reqIndex req = k ∧ reqOp req = 5 ∧ f.golden = none ∧
    f.goldenPartly = false ∧ reqValue req % 65536 = 0 ∧ reqValue req < 2 ^ 29) ∧
  (∃ (req : BitVec 2176), ∃ (s : State), ∃ (f : Fuses), ∃ (k : Nat),
    s.reqCheck req = stOK ∧ s.sec.fuses = f ∧ reqIndex req = k ∧ reqOp req = 5 ∧ f.golden ≠ none) ∧
  (∃ (req : BitVec 2176), ∃ (s : State), ∃ (f : Fuses), ∃ (k : Nat), ∃ key,
    s.reqCheck req = stOK ∧ s.sec.fuses = f ∧ reqIndex req = k ∧ reqOp req = 6 ∧ k ≤ 7 ∧
    s.reqKey (reqPart req 0x30 40) = some key) ∧
  (∃ (req : BitVec 2176), ∃ (s : State), ∃ (f : Fuses), ∃ (k : Nat),
    s.reqCheck req = stOK ∧ s.sec.fuses = f ∧ reqIndex req = k ∧ reqOp req = 7 ∧ k ≤ 7) ∧
  (∃ (req : BitVec 2176), ∃ (s : State), ∃ (f : Fuses), ∃ (k : Nat),
    s.reqCheck req = stOK ∧ s.sec.fuses = f ∧ reqIndex req = k ∧ reqOp req = 7 ∧ k = 0xFF) ∧
  (∃ (req : BitVec 2176), ∃ (s : State), ∃ (f : Fuses), ∃ (k : Nat),
    s.reqCheck req = stOK ∧ s.sec.fuses = f ∧ reqIndex req = k ∧ reqOp req = 8) :=
  ⟨
    ⟨request 4 6 0 77, r0, {}, 6, by decide +kernel⟩,
    ⟨request 4 6 0 77, inFuses r0 { dbg := [(6, { valid := true })] }, { dbg := [(6, { valid := true })] }, 6,
      by decide +kernel⟩,
    ⟨request 5 0 0x1FFF0000 0, r0, {}, 0, by decide +kernel⟩,
    ⟨request 5 0 0x1FFF0000 0, inFuses r0 { golden := some 1 }, { golden := some 1 }, 0, by decide +kernel⟩,
    ⟨request 6 7 0 5, r0, {}, 7, 5, by decide +kernel⟩,
    ⟨request 7 7 0 5, r0.setSec { r0.sec with keyRam := [(7, some 3)] }, {}, 7, by decide +kernel⟩,
    ⟨request 7 255 0 5, r0.setSec { r0.sec with keyRam := [(7, some 3)] }, {}, 255, by decide +kernel⟩,
    ⟨request 8 0 0 5, r0, {}, 0, by decide +kernel⟩⟩

/-- Clauses 8.14, 8.15, 9.1, 9.2, 10.1, 10.2, 11.1 of Obligations.GauntletRequests: states that meet the hypotheses.
-/
theorem witness_GauntletRequests_5 :
  (∃ (req : BitVec 2176), ∃ (s : State), ∃ (f : Fuses), ∃ (k : Nat),
    s.reqCheck req = stOK ∧ s.sec.fuses = f ∧ reqIndex req = k ∧ reqOp req = 9 ∧ k ≤ 31) ∧
  (∃ (req : BitVec 2176), ∃ (s : State), ∃ (f : Fuses), ∃ (k : Nat),
    s.reqCheck req = stOK ∧ s.sec.fuses = f ∧ reqIndex req = k ∧ reqOp req = 9 ∧ 31 < k) ∧
  (∃ (ns : BitVec 32), ∃ (powered : Bool), ∃ (s : State),
    ns.toNat < 2000) ∧
  (∃ (ns : BitVec 32), ∃ (powered : Bool), ∃ (s : State),
    2000 ≤ ns.toNat) ∧
  (∃ (ns : BitVec 32), ∃ (powered : Bool), ∃ (s : State),
    2000 ≤ ns.toNat) ∧
  (∃ (s : State), ∃ (c : BitVec 256), ∃ (x : Nat),
    s.sec.challenge = some (c, x) ∧ x + 60000000000 ≤ s.now) ∧
  (∃ (s : State), ∃ (c : BitVec 256), ∃ (x : Nat),
    s.sec.challenge = some (c, x) ∧ s.now < x + 60000000000) ∧
  (∃ (s : State),
    s.isSet F.SEC_DBG_STATUS.LOCKOUT 0 = true ∧ s.sec.lockAt + 10000000000 ≤ s.now) :=
  ⟨
    ⟨request 9 31 0 5, r0, {}, 31, by decide +kernel⟩,
    ⟨request 9 32 0 5, r0, {}, 32, by decide +kernel⟩,
    ⟨1999, true, r0, by decide +kernel⟩,
    ⟨2000, true, (unlocked r0 2).setSec { r0.sec with keyRam := [(7, some 3)] }, by decide +kernel⟩,
    ⟨2000, false, (unlocked r0 2).setSec { r0.sec with keyRam := [(7, some 3)] }, by decide +kernel⟩,
    ⟨at64 (r0.setSec { r0.sec with challenge := some (3, 0) }) 60000000000, 3, 0, by decide +kernel⟩,
    ⟨at64 (r0.setSec { r0.sec with challenge := some (3, 0) }) 59999999999, 3, 0, by decide +kernel⟩,
    ⟨at64 ((unlocked r0 2).put F.SEC_DBG_STATUS.LOCKOUT 0 1) 10000000000, by decide +kernel⟩⟩

/-- Clauses 11.2, 4.1, 4.2, 5.1, 5.2, 5.3 of Obligations.GauntletRequests: states that meet the hypotheses. -/
theorem witness_GauntletRequests_6 :
  (∃ (s : State),
    (s.isSet F.SEC_DBG_STATUS.LOCKOUT 0 = false ∨ s.now < s.sec.lockAt + 10000000000)) ∧
  (∃ (req : BitVec 2176), ∃ (b : Fin 3), ∃ (s : State),
    b.val ≠ 2 ∧ s.reqCheck req = stOK ∧ reqOp req = 1) ∧
  (∃ (req : BitVec 2176), ∃ (b : Fin 3), ∃ (s : State),
    b.val ≠ 2 ∧ s.reqCheck req = stOK ∧ reqOp req = 3) ∧
  (∃ (s : State), ∃ (f : Fuses),
    s.sec.fuses = f ∧ f.life = 1 ∧ s.sec.life = 1) ∧
  (∃ (s : State), ∃ (f : Fuses),
    s.sec.fuses = f ∧ f.life = 2 ∧ s.sec.life = 2) ∧
  (∃ (s : State), ∃ (f : Fuses), ∃ (k : Nat), ∃ (j : Nat),
    s.sec.fuses = f ∧ s.sec.life ≠ 0 ∧ k < j ∧ j ≤ 3 ∧ (f.imgSlot j).valid = true ∧ (f.imgSlot j).revoke = false ∧
    (f.imgSlot k).revoke = false) :=
  ⟨
    ⟨at64 ((unlocked r0 2).put F.SEC_DBG_STATUS.LOCKOUT 0 1) 9999999999, by decide +kernel⟩,
    ⟨request 1 0 1 0, 0, r0, by decide +kernel⟩,
    ⟨request 3 0 1 0, 0, r0, by decide +kernel⟩,
    ⟨inFuses (inLife r0 1) { life := 1 }, { life := 1 }, by decide +kernel⟩,
    ⟨inFuses (inLife (unlocked r0 2) 2) { life := 2 }, { life := 2 }, by decide +kernel⟩,
    ⟨inFuses (inLife r0 1) { img := [(3, { valid := true })] }, { img := [(3, { valid := true })] }, 0, 3,
      by decide +kernel⟩⟩

/-- Clauses 1.1, 1.2, 1.3, 1.4, 1.5, 1.6, 1.7 of Obligations.RunControl: states that meet the hypotheses. -/
theorem witness_RunControl_1 :
  (∃ (s : State), ∃ (n : Nat),
    Writes s .debugger 0 R.DBG_CORE_CTRL 0 n ∧ s.clk.gated.get false 14 = false ∧ n < 256 ∧
    s.agentHalted n = false ∧ (s.core n).haltReq = none) ∧
  (∃ (s : State), ∃ (n : Nat),
    Writes s .debugger 0 R.DBG_CORE_CTRL 0 n ∧ s.clk.gated.get false 14 = false ∧ s.agentHalted n = true) ∧
  (∃ (s : State), ∃ (n : Nat),
    Writes s .debugger 0 R.DBG_CORE_CTRL 0 n ∧ s.clk.gated.get false 14 = false ∧ 256 ≤ n ∧ s.debugLevel = 2 ∧
    s.agentHalted n = false ∧ s.dbg.key = none) ∧
  (∃ (s : State), ∃ (n : Nat),
    Writes s .debugger 0 R.DBG_CORE_CTRL 0 n ∧ s.clk.gated.get false 14 = false ∧ 256 ≤ n ∧ s.debugLevel ≠ 2) ∧
  (∃ (s : State), ∃ (n : Nat),
    Writes s .debugger 0 R.DBG_CORE_CTRL 0 n ∧ s.clk.gated.get false 14 = false ∧ n < 256 ∧ s.agentHalted n = true) ∧
  (∃ (s : State), ∃ (n : Nat),
    Writes s .debugger 0 R.DBG_CORE_CTRL 0 n ∧ s.clk.gated.get false 14 = false ∧ n < 256 ∧ s.agentHalted n = true) ∧
  (∃ (s : State), ∃ (n : Nat),
    Writes s .debugger 0 R.DBG_CORE_CTRL 0 n ∧ s.clk.gated.get false 14 = false ∧ s.agentHalted n = false) ∧
  (∃ (s : State), ∃ (n : Nat),
    Writes s .debugger 0 R.DBG_CORE_CTRL 0 n ∧ s.clk.gated.get false 14 = false ∧ n < 256 ∧
    s.agentHalted n = true ∧ (s.core n).task.isSome = true) :=
  ⟨
    ⟨picked r0 3, 3, by decide +kernel⟩,
    ⟨haltedAt r0 255, 255, by decide +kernel⟩,
    ⟨picked (unlocked r0 2) 257, 257, by decide +kernel⟩,
    ⟨picked r0 256, 256, by decide +kernel⟩,
    ⟨(haltedAt (at64 r0 50) 3).setCore 3 { frozen := some 2000000, bpDone := true }, 3, by decide +kernel⟩,
    ⟨(haltedAt (at64 r0 50) 3).setCore 3 { frozen := some 2, bpDone := true }, 3, by decide +kernel⟩,
    ⟨picked r0 3, 3, by decide +kernel⟩,
    ⟨coreBusy (haltedAt r0 3) 3, 3, by decide +kernel⟩⟩

/-- Clauses 1.8, 2, 3.1, 3.2, 3.3 of Obligations.RunControl: states that meet the hypotheses. -/
theorem witness_RunControl_2 :
  (∃ (s : State), ∃ (n : Nat),
    Writes s .debugger 0 R.DBG_CORE_CTRL 0 n ∧ s.clk.gated.get false 14 = false ∧ (s.core n).task = none) ∧
  (∃ (acc : Accessor), ∃ (s : State), ∃ (n : Nat),
    acc ≠ .debugger ∧ s.clk.gated.get false 14 = false ∧ s.instOf acc 0 R.DBG_CORE_CTRL 0 = some n) ∧
  (∃ (acc : Accessor), ∃ (s : State), ∃ (n : Nat),
    acc ≠ .debugger ∧ s.clk.gated.get false 14 = false ∧ s.instOf acc 0 R.DBG_CORE_CTRL 0 = some n) ∧
  (∃ (n : Fin 256), ∃ (s : State), ∃ (c : Core),
    s.core n.val = c ∧ (c.haltReq = none ∨ c.slot ≠ 0 ∨ s.clReset.get 0 (n.val / 8) ≠ 0)) ∧
  (∃ (n : Fin 256), ∃ (s : State), ∃ (c : Core),
    s.core n.val = c ∧ (c.haltReq = none ∨ c.slot ≠ 0 ∨ s.clReset.get 0 (n.val / 8) ≠ 0)) ∧
  (∃ (n : Fin 256), ∃ (s : State), ∃ (c : Core), ∃ (cause : Nat), ∃ (unit : Nat),
    s.core n.val = c ∧ c.haltReq = some (cause, unit) ∧ c.slot = 0 ∧ s.clReset.get 0 (n.val / 8) = 0 ∧
    c.flight = [] ∧ cause < 8 ∧ unit < 4 ∧ s.dbg.key = none ∧
    (s.dsp (n.val / 64)).preempt.any (fun p => p.1 == n.val % 64) = false) ∧
  (∃ (n : Fin 256), ∃ (s : State), ∃ (c : Core), ∃ (cause : Nat), ∃ (unit : Nat),
    s.core n.val = c ∧ c.haltReq = some (cause, unit) ∧ c.slot = 0 ∧ s.clReset.get 0 (n.val / 8) = 0 ∧
    c.flight = [] ∧ cause < 8 ∧ unit < 4 ∧ s.dbg.key = none ∧
    (s.dsp (n.val / 64)).preempt.any (fun p => p.1 == n.val % 64) = false) ∧
  (∃ (n : Fin 256), ∃ (s : State), ∃ (c : Core), ∃ (cause : Nat), ∃ (unit : Nat), ∃ (k : Nat),
    s.core n.val = c ∧ c.haltReq = some (cause, unit) ∧ c.slot = 0 ∧ s.clReset.get 0 (n.val / 8) = 0 ∧
    c.flight = [] ∧ s.dbg.key = some k ∧ s.now ≤ k + 1000 ∧
    (s.dsp (n.val / 64)).preempt.any (fun p => p.1 == n.val % 64) = false) :=
  ⟨
    ⟨haltedAt r0 3, 3, by decide +kernel⟩,
    ⟨.host0, r0, 0, by decide +kernel⟩,
    ⟨.chamois, r0, 0, by decide +kernel⟩,
    ⟨9, r0, {}, by decide +kernel⟩,
    ⟨0, midBundle 2 0 (fun c => { c with haltReq := some (1, 0) }),
      { (midBundle 2 0 (fun c => { c with haltReq := some (1, 0) })).core 0 with step := 0 }, by decide +kernel⟩,
    ⟨9,
      ({ at64 r0 10 with resv := [(9, 64)] } : State).setCore 9 { haltReq := some (2, 3), wdt := some 110, pc := 32 },
      { haltReq := some (2, 3), wdt := some 110, pc := 32 }, 2, 3, by decide +kernel⟩,
    ⟨9, (at64 r0 10).setCore 9 { haltReq := some (4, 0), frozen := some 5 },
      { haltReq := some (4, 0), frozen := some 5 }, 4, 0, by decide +kernel⟩,
    ⟨9, ({ at64 r0 1010 with dbg := { key := some 10 } } : State).setCore 9 { haltReq := some (4, 0) },
      { haltReq := some (4, 0) }, 4, 0, 10, by decide +kernel⟩⟩

/-- Clauses 4.1, 4.2.1, 4.2.2, 4.2.3, 5.1, 5.2, 5.3 of Obligations.RunControl: states that meet the hypotheses. -/
theorem witness_RunControl_3 :
  (∃ (n : Fin 256), ∃ (s : State), ∃ (c : Core),
    s.core n.val = c ∧ (s.mayIssue n.val = false ∨ s.bpDue n.val = none)) ∧
  (∃ (n : Fin 256), ∃ (s : State), ∃ (c : Core), ∃ (k : Nat),
    s.core n.val = c ∧ k < 4 ∧ s.mayIssue n.val = true ∧ c.bpDone = false ∧ c.stepping = false ∧
    s.isSet F.DBG_BP_CTRL.EN (4 * n.val + k) = true ∧ s.get F.DBG_BP_ADDR.BUNDLE (4 * n.val + k) = c.pc / 16 ∧
    (∀ j < 4, j = k ∨ s.isSet F.DBG_BP_CTRL.EN (4 * n.val + j) = false) ∧
    s.get F.DBG_BP_CTRL.ACTION (4 * n.val + k) = 0 ∧ s.agentHalted n.val = false) ∧
  (∃ (n : Fin 256), ∃ (s : State), ∃ (c : Core), ∃ (k : Nat),
    s.core n.val = c ∧ k < 4 ∧ s.mayIssue n.val = true ∧ c.bpDone = false ∧ c.stepping = false ∧
    s.isSet F.DBG_BP_CTRL.EN (4 * n.val + k) = true ∧ s.get F.DBG_BP_ADDR.BUNDLE (4 * n.val + k) = c.pc / 16 ∧
    (∀ j < 4, j = k ∨ s.isSet F.DBG_BP_CTRL.EN (4 * n.val + j) = false) ∧
    s.get F.DBG_BP_CTRL.ACTION (4 * n.val + k) = 1) ∧
  (∃ (n : Fin 256), ∃ (s : State), ∃ (c : Core), ∃ (k : Nat),
    s.core n.val = c ∧ k < 4 ∧ s.mayIssue n.val = true ∧ c.bpDone = false ∧ c.stepping = false ∧
    s.isSet F.DBG_BP_CTRL.EN (4 * n.val + k) = true ∧ s.get F.DBG_BP_ADDR.BUNDLE (4 * n.val + k) = c.pc / 16 ∧
    (∀ j < 4, j = k ∨ s.isSet F.DBG_BP_CTRL.EN (4 * n.val + j) = false) ∧
    s.get F.DBG_BP_CTRL.ACTION (4 * n.val + k) = 2 ∧ s.isSet F.TRC_CTRL.EN 0 = false) ∧
  (∃ (m : Fin 258), ∃ (s : State),
    s.dbg.fresh.get false m.val = false) ∧
  (∃ (m : Fin 258), ∃ (s : State),
    s.dbg.fresh.get false m.val = true ∧ s.isSet F.DBG_CORE_GROUP.EN m.val = false) ∧
  (∃ (m : Fin 258), ∃ (s : State),
    s.dbg.fresh.get false m.val = true ∧ s.isSet F.DBG_CORE_GROUP.EN m.val = true) ∧
  (∃ (m : Fin 258), ∃ (s : State),
    s.dbg.fresh.get false m.val = true ∧ s.isSet F.DBG_CORE_GROUP.EN m.val = true) :=
  ⟨
    ⟨0, runningTask 0, (runningTask 0).core 0, by decide +kernel⟩,
    ⟨0, breakAt 0, (breakAt 0).core 0, 2, by decide +kernel⟩,
    ⟨0, breakAt 1, (breakAt 1).core 0, 2, by decide +kernel⟩,
    ⟨0, breakAt 2, (breakAt 2).core 0, 2, by decide +kernel⟩,
    ⟨7, r0, by decide +kernel⟩,
    ⟨7, grouped r0 7 [8], by decide +kernel⟩,
    ⟨7, unlocked (grouped r0 7 [7, 8, 200, 256, 257]) 2, by decide +kernel⟩,
    ⟨256, unlocked (grouped (haltedAt r0 200) 256 [7, 8, 200, 256, 257]) 2, by decide +kernel⟩⟩

/-- Clauses 6.1, 6.2, 6.3, 7.1, 7.2, 8, 9.1 of Obligations.RunControl: states that meet the hypotheses. -/
theorem witness_RunControl_4 :
  (∃ (k : Fin 4), ∃ (v : Word), ∃ (s : State), ∃ (n : Nat), ∃ (r : Nat), ∃ (p : Nat), ∃ (c : Core),
    Writes s .debugger 0 R.DBG_REG_DATA k.val (4 * n + k.val) ∧ s.clk.gated.get false 14 = false ∧ n < 256 ∧
    s.core n = c ∧ s.sel .debugger F.DBG_REG_SEL.REG = r ∧ s.sel .debugger F.DBG_REG_SEL.PART = p ∧
    (s.agentHalted n = false ∨ r = rStepLo ∨ r = rStepHi)) ∧
  (∃ (k : Fin 4), ∃ (v : Word), ∃ (s : State), ∃ (n : Nat), ∃ (r : Nat), ∃ (p : Nat), ∃ (c : Core),
    Writes s .debugger 0 R.DBG_REG_DATA k.val (4 * n + k.val) ∧ s.clk.gated.get false 14 = false ∧ n < 256 ∧
    s.core n = c ∧ s.sel .debugger F.DBG_REG_SEL.REG = r ∧ s.sel .debugger F.DBG_REG_SEL.PART = p ∧
    (s.agentHalted n = false ∨ r = rStepLo ∨ r = rStepHi)) ∧
  (∃ (k : Fin 4), ∃ (v : Word), ∃ (s : State), ∃ (n : Nat), ∃ (r : Nat), ∃ (p : Nat), ∃ (c : Core),
    Writes s .debugger 0 R.DBG_REG_DATA k.val (4 * n + k.val) ∧ s.clk.gated.get false 14 = false ∧ n < 256 ∧
    s.core n = c ∧ s.sel .debugger F.DBG_REG_SEL.REG = r ∧ s.sel .debugger F.DBG_REG_SEL.PART = p ∧
    s.agentHalted n = true ∧ movNumber r = true ∧ r ≠ rStepLo ∧ r ≠ rStepHi) ∧
  (∃ (k : Fin 4), ∃ (v : Word), ∃ (s : State), ∃ (n : Nat), ∃ (r : Nat), ∃ (p : Nat), ∃ (c : Core),
    Writes s .debugger 0 R.DBG_REG_DATA k.val (4 * n + k.val) ∧ s.clk.gated.get false 14 = false ∧ n < 256 ∧
    s.core n = c ∧ s.sel .debugger F.DBG_REG_SEL.REG = r ∧ s.sel .debugger F.DBG_REG_SEL.PART = p ∧
    s.agentHalted n = true ∧ 0x60 ≤ r ∧ r ≤ 0x67 ∧ p < 3) ∧
  (∃ (v : Word), ∃ (s : State), ∃ (n : Nat), ∃ (c : Core),
    Writes s .debugger 0 R.DBG_CORE_PC 0 n ∧ s.clk.gated.get false 14 = false ∧ s.core n = c ∧ n < 256 ∧
    s.agentHalted n = true) ∧
  (∃ (v : Word), ∃ (s : State), ∃ (n : Nat), ∃ (c : Core),
    Writes s .debugger 0 R.DBG_CORE_PC 0 n ∧ s.clk.gated.get false 14 = false ∧ s.core n = c ∧ n < 256 ∧
    s.agentHalted n = false) ∧
  (∃ (v : Word), ∃ (s : State), ∃ (i : Nat),
    Writes s .debugger 0 R.DBG_CTRL 0 i ∧ s.clk.gated.get false 14 = false) ∧
  (∃ (p : Packet), ∃ (q : Packet), ∃ (s : State), ∃ (need : Nat),
    q = { p with src := BitVec.ofNat 10 epDebug, vc := 3, debug := true, acc := .debugger } ∧
    (need = (if 0x030000170000 ≤ p.addr.toNat ∧
    p.addr.toNat < 0x030000180000 then 0 else if inPrivate p.addr.toNat = true then 2 else 1)) ∧
    p.cmd.toNat ≠ cmdDebugRead ∧ p.cmd.toNat ≠ cmdDebugWrite) :=
  ⟨
    ⟨1, 0xDEADBEEF, picked r0 3, 3, 0, 0, (picked r0 3).core 3, by decide +kernel⟩,
    ⟨1, 0xDEADBEEF, (haltedAt r0 3).setReg R.DBG_REG_SEL 6 0x54, 3, 0x54, 0, {}, by decide +kernel⟩,
    ⟨1, 0xDEADBEEF, ((haltedAt r0 3).setReg R.DBG_REG_SEL 6 5).setCore 3 { r := [(5, 7)], pz := [(5, true)] }, 3,
      5, 0, { r := [(5, 7)], pz := [(5, true)] }, by decide +kernel⟩,
    ⟨3, 0xDEADBEEF, ((haltedAt r0 3).setReg R.DBG_REG_SEL 6 0x267).setCore 3 { pz := [(0x67, true)] }, 3, 0x67, 2,
      { pz := [(0x67, true)] }, by decide +kernel⟩,
    ⟨0x12345, (haltedAt r0 3).setCore 3 { br := some ⟨some 64, 1, some 0⟩, r := [(rStat, 0xFF0071)] }, 3,
      { br := some ⟨some 64, 1, some 0⟩, r := [(rStat, 0xFF0071)] }, by decide +kernel⟩,
    ⟨0x12345, picked r0 3, 3, {}, by decide +kernel⟩,
    ⟨3, r0, 0, by decide +kernel⟩,
    ⟨{}, { src := BitVec.ofNat 10 epDebug, vc := 3, debug := true, acc := .debugger }, r0, 1, by decide +kernel⟩⟩

/-- Clauses 9.2, 9.3 of Obligations.RunControl: states that meet the hypotheses. -/
theorem witness_RunControl_5 :
  (∃ (p : Packet), ∃ (q : Packet), ∃ (s : State), ∃ (need : Nat),
    q = { p with src := BitVec.ofNat 10 epDebug, vc := 3, debug := true, acc := .debugger } ∧
    (need = (if 0x030000170000 ≤ p.addr.toNat ∧
    p.addr.toNat < 0x030000180000 then 0 else if inPrivate p.addr.toNat = true then 2 else 1)) ∧
    (p.cmd.toNat = cmdDebugRead ∨ p.cmd.toNat = cmdDebugWrite) ∧ (need ≤ s.dbgLevel ∨ pktOk q = false)) ∧
  (∃ (p : Packet), ∃ (q : Packet), ∃ (s : State), ∃ (need : Nat),
    q = { p with src := BitVec.ofNat 10 epDebug, vc := 3, debug := true, acc := .debugger } ∧
    (need = (if 0x030000170000 ≤ p.addr.toNat ∧
    p.addr.toNat < 0x030000180000 then 0 else if inPrivate p.addr.toNat = true then 2 else 1)) ∧
    (p.cmd.toNat = cmdDebugRead ∨ p.cmd.toNat = cmdDebugWrite) ∧ (need ≤ s.dbgLevel ∨ pktOk q = false)) ∧
  (∃ (p : Packet), ∃ (q : Packet), ∃ (s : State), ∃ (need : Nat),
    q = { p with src := BitVec.ofNat 10 epDebug, vc := 3, debug := true, acc := .debugger } ∧
    (need = (if 0x030000170000 ≤ p.addr.toNat ∧
    p.addr.toNat < 0x030000180000 then 0 else if inPrivate p.addr.toNat = true then 2 else 1)) ∧
    (p.cmd.toNat = cmdDebugRead ∨ p.cmd.toNat = cmdDebugWrite) ∧ s.dbgLevel < need ∧ pktOk q = true) ∧
  (∃ (p : Packet), ∃ (q : Packet), ∃ (s : State), ∃ (need : Nat),
    q = { p with src := BitVec.ofNat 10 epDebug, vc := 3, debug := true, acc := .debugger } ∧
    (need = (if 0x030000170000 ≤ p.addr.toNat ∧
    p.addr.toNat < 0x030000180000 then 0 else if inPrivate p.addr.toNat = true then 2 else 1)) ∧
    (p.cmd.toNat = cmdDebugRead ∨ p.cmd.toNat = cmdDebugWrite) ∧ s.dbgLevel < need ∧ pktOk q = true) :=
  ⟨
    ⟨{ cmd := 6 }, { cmd := 6, src := BitVec.ofNat 10 epDebug, vc := 3, debug := true, acc := .debugger }, r0, 1,
      by decide +kernel⟩,
    ⟨{ cmd := 6, addr := 0x030000170000 },
      { cmd := 6, addr := 0x030000170000, src := BitVec.ofNat 10 epDebug, vc := 3, debug := true, acc := .debugger },
      inLife r0 3, 0, by decide +kernel⟩,
    ⟨{ cmd := 7, data := [⟨1, false⟩] },
      { cmd := 7, data := [⟨1, false⟩], src := BitVec.ofNat 10 epDebug, vc := 3, debug := true, acc := .debugger },
      inLife r0 3, 1, by decide +kernel⟩,
    ⟨{ cmd := 6, addr := 0x031000000000 },
      { cmd := 6, addr := 0x031000000000, src := BitVec.ofNat 10 epDebug, vc := 3, debug := true, acc := .debugger },
      r0, 2, by decide +kernel⟩⟩

/-- Clauses 1, 2.1, 2.2, 2.3, 2.4, 2.5, 3.1 of Obligations.ErrorsAndTrace: states that meet the hypotheses. -/
theorem witness_ErrorsAndTrace_1 :
  (∃ (acc : Accessor), ∃ (v : Word), ∃ (s : State), ∃ (i : Nat),
    Writes s acc 0 R.ERR_STATUS 0 i ∧ s.clk.gated.get false 13 = false) ∧
  (∃ (acc : Accessor), ∃ (v : Word), ∃ (s : State), ∃ (i : Nat),
    Writes s acc 0 R.ERR_STATUS 0 i ∧ s.clk.gated.get false 13 = false) ∧
  (∃ (k : Fin 180), ∃ (i : Fin 256), ∃ (s : State), ∃ (es : List Entry), ∃ (cs : List Entry), ∃ (e : Entry), ∃ (coal : Nat), ∃ (q : Nat),
    k.val < 176 ∧ s.err.stages.get [] k.val = es ∧ q = stageQuad k.val ∧ s.err.colls.get [] q = cs ∧
    s.get F.ERR_CFG.COALESCE_NS 0 = coal ∧ es[i.val]? = none) ∧
  (∃ (k : Fin 180), ∃ (i : Fin 256), ∃ (s : State), ∃ (es : List Entry), ∃ (cs : List Entry), ∃ (e : Entry), ∃ (coal : Nat), ∃ (q : Nat),
    k.val < 176 ∧ s.err.stages.get [] k.val = es ∧ q = stageQuad k.val ∧ s.err.colls.get [] q = cs ∧
    s.get F.ERR_CFG.COALESCE_NS 0 = coal ∧ es[i.val]? = some e ∧ coal ≠ 0 ∧ (s.now : Int) - e.last < coal) ∧
  (∃ (k : Fin 180), ∃ (i : Fin 256), ∃ (s : State), ∃ (es : List Entry), ∃ (cs : List Entry), ∃ (e : Entry), ∃ (coal : Nat), ∃ (q : Nat),
    k.val < 176 ∧ s.err.stages.get [] k.val = es ∧ q = stageQuad k.val ∧ s.err.colls.get [] q = cs ∧
    s.get F.ERR_CFG.COALESCE_NS 0 = coal ∧ es[i.val]? = some e ∧
    (coal = 0 ∨ (coal : Int) ≤ (s.now : Int) - e.last) ∧ (∀ h ∈ cs, sameKey h e = false) ∧ cs.length < 256) ∧
  (∃ (k : Fin 180), ∃ (i : Fin 256), ∃ (s : State), ∃ (es : List Entry), ∃ (cs : List Entry), ∃ (e : Entry), ∃ (coal : Nat), ∃ (q : Nat),
    k.val < 176 ∧ s.err.stages.get [] k.val = es ∧ q = stageQuad k.val ∧ s.err.colls.get [] q = cs ∧
    s.get F.ERR_CFG.COALESCE_NS 0 = coal ∧ es[i.val]? = some e ∧
    (coal = 0 ∨ (coal : Int) ≤ (s.now : Int) - e.last) ∧ (∀ h ∈ cs, sameKey h e = false) ∧ 256 ≤ cs.length) ∧
  (∃ (k : Fin 180), ∃ (i : Fin 256), ∃ (s : State), ∃ (es : List Entry), ∃ (cs : List Entry), ∃ (e : Entry), ∃ (coal : Nat), ∃ (q : Nat), ∃ (h : Entry), ∃ (r : List Entry),
    k.val < 176 ∧ s.err.stages.get [] k.val = es ∧ q = stageQuad k.val ∧ s.err.colls.get [] q = cs ∧
    s.get F.ERR_CFG.COALESCE_NS 0 = coal ∧ cs = h :: r ∧ es[i.val]? = some e ∧
    (coal : Int) ≤ (s.now : Int) - e.last ∧ sameKey h e = true ∧ h.closed = 0 ∧ coal ≠ 0 ∧
    (e.first : Int) - h.last < coal) ∧
  (∃ (k : Fin 180), ∃ (i : Fin 256), ∃ (s : State), ∃ (es : List Entry), ∃ (e : Entry), ∃ (q : Nat),
    176 ≤ k.val ∧ q = k.val - 176 ∧ s.err.colls.get [] q = es ∧ es[i.val]? = some e ∧ e.closed = 0 ∧
    windowOpen (s.get F.ERR_CFG.COALESCE_NS 0) e s.now = false) :=
  ⟨
    ⟨.host0, 0x1A, r0.setReg R.ERR_STATUS 0 0x1F, 0, by decide +kernel⟩,
    ⟨.host0, 0x05, r0.setReg R.ERR_STATUS 0 0x1F, 0, by decide +kernel⟩,
    ⟨175, 0, r0, [], [], { code := 0, sev := 0, source := 0 }, 10000, 3, by decide +kernel⟩,
    ⟨0, 0, held 0 [ent 9 50] [] 10049, [ent 9 50], [], ent 9 50, 10000, 0, by decide +kernel⟩,
    ⟨0, 0, held 0 [ent 9 50] [ent 8 50] 10050, [ent 9 50], [ent 8 50], ent 9 50, 10000, 0, by decide +kernel⟩,
    ⟨31, 0, held 31 [ent 9 50] (List.replicate 256 (ent 8 50)) 10050, [ent 9 50], List.replicate 256 (ent 8 50),
      ent 9 50, 10000, 3, by decide +kernel⟩,
    ⟨31, 0, held 31 [ent 9 50] [ent 9 20, ent 8 1] 10050, [ent 9 50], [ent 9 20, ent 8 1], ent 9 50, 10000, 3,
      ent 9 20, [ent 8 1], by decide +kernel⟩,
    ⟨179, 1, held 31 [] [ent 9 20, ent 8 1] 10050, [ent 9 20, ent 8 1], ent 8 1, 3, by decide +kernel⟩⟩

/-- Clauses 3.2, 4, 5.1, 5.2, 5.3, 6.1 of Obligations.ErrorsAndTrace: states that meet the hypotheses. -/
theorem witness_ErrorsAndTrace_2 :
  (∃ (k : Fin 180), ∃ (i : Fin 256), ∃ (s : State), ∃ (es : List Entry), ∃ (e : Entry), ∃ (q : Nat),
    176 ≤ k.val ∧ q = k.val - 176 ∧ s.err.colls.get [] q = es ∧ es[i.val]? = some e ∧
    (e.closed ≠ 0 ∨ windowOpen (s.get F.ERR_CFG.COALESCE_NS 0) e s.now = true)) ∧
  (∃ (es : List Entry), ∃ (e : Entry),
    firstClosed es = some e) ∧
  (∃ (q : Fin 4), ∃ (s : State), ∃ (es : List Entry), ∃ (e : Entry),
    s.err.colls.get [] q.val = es ∧ firstClosed es = none) ∧
  (∃ (q : Fin 4), ∃ (s : State), ∃ (es : List Entry), ∃ (e : Entry),
    s.err.colls.get [] q.val = es ∧ s.err.lastFwd.get 0 q.val ≠ 0 ∧ s.now < s.err.lastFwd.get 0 q.val - 1 + 1000) ∧
  (∃ (q : Fin 4), ∃ (s : State), ∃ (es : List Entry), ∃ (e : Entry),
    s.err.colls.get [] q.val = es ∧ firstClosed es = some e ∧
    (s.err.lastFwd.get 0 q.val = 0 ∨ s.err.lastFwd.get 0 q.val - 1 + 1000 ≤ s.now)) ∧
  (∃ (s : State), ∃ (e : Entry),
    (∀ h ∈ s.err.log, sameKey h e = false) ∧ s.err.log.length < 1024) ∧
  (∃ (s : State), ∃ (e : Entry),
    (∀ h ∈ s.err.log, sameKey h e = false) ∧ s.err.log.length < 1024) ∧
  (∃ (s : State), ∃ (e : Entry),
    (∀ h ∈ s.err.log, sameKey h e = false) ∧ s.err.log.length < 1024) :=
  ⟨
    ⟨176, 1, held 0 [] [ent 9 20, ent 8 1] 1050, [ent 9 20, ent 8 1], ent 8 1, 0, by decide +kernel⟩,
    ⟨[ent 9 1, { ent 8 1 with closed := 5 }, { ent 7 1 with closed := 2 }, { ent 6 1 with closed := 3 }],
      { ent 7 1 with closed := 2 }, by decide +kernel⟩,
    ⟨3, r0, [], ent 9 1, by decide +kernel⟩,
    ⟨3,
      { held 31 [] [ent 9 20, { ent 8 1 with closed := 2 }] 1099 with err := { colls := [(3, [ent 9 20, { ent 8 1 with closed := 2 }])], lastFwd := [(3, 101)] } },
      [ent 9 20, { ent 8 1 with closed := 2 }], ent 9 1, by decide +kernel⟩,
    ⟨3,
      { held 31 [] [ent 9 20, { ent 8 1 with closed := 2 }] 1100 with err := { colls := [(3, [ent 9 20, { ent 8 1 with closed := 2 }])], lastFwd := [(3, 101)] } },
      [ent 9 20, { ent 8 1 with closed := 2 }], { ent 8 1 with closed := 2 }, by decide +kernel⟩,
    ⟨r0, ent 9 1, by decide +kernel⟩,
    ⟨r0, { ent 9 1 with sev := 0 }, by decide +kernel⟩,
    ⟨r0.put F.ERR_STATUS.PENDING 0 4, ent 9 1, by decide +kernel⟩⟩

/-- Clauses 6.2, 7, 10.1, 10.2, 10.3, 11.1, 11.2 of Obligations.ErrorsAndTrace: states that meet the hypotheses. -/
theorem witness_ErrorsAndTrace_3 :
  (∃ (s : State), ∃ (e : Entry),
    (∀ h ∈ s.err.log, sameKey h e = false) ∧ 1024 ≤ s.err.log.length) ∧
  (∃ (payload : Nat), ∃ (now : Nat), ∃ (port : Nat), ∃ (kind : Nat), ∃ (index : Nat), ∃ (d64 : Bool), ∃ (p : Nat),
    port < 64 ∧ kind < 4 ∧ index < 256 ∧ p = (tracePacket payload now port kind index d64).toNat) ∧
  (∃ (payload : Nat), ∃ (now : Nat), ∃ (port : Nat), ∃ (kind : Nat), ∃ (index : Nat), ∃ (d64 : Bool), ∃ (p : Nat),
    port < 64 ∧ kind < 4 ∧ index < 256 ∧ p = (tracePacket payload now port kind index d64).toNat) ∧
  (∃ (s : State), ∃ (source : Nat), ∃ (n : Nat), ∃ (p : BitVec 128), ∃ (qs : List (BitVec 128)),
    s.trace.queues.get [] source = qs ∧ s.trace.drops.get 0 source = n ∧ 8 ≤ qs.length) ∧
  (∃ (s : State), ∃ (source : Nat), ∃ (n : Nat), ∃ (p : BitVec 128), ∃ (qs : List (BitVec 128)),
    s.trace.queues.get [] source = qs ∧ s.trace.drops.get 0 source = n ∧ qs.length < 8 ∧ n = 0) ∧
  (∃ (s : State), ∃ (source : Nat), ∃ (n : Nat), ∃ (p : BitVec 128), ∃ (qs : List (BitVec 128)),
    s.trace.queues.get [] source = qs ∧ s.trace.drops.get 0 source = n ∧ qs.length < 8 ∧ n ≠ 0 ∧ source ≠ 258) ∧
  (∃ (s : State),
    s.isSet F.TRC_CTRL.EN 0 = true ∧ s.trace.secs < s.now / 1000000000) ∧
  (∃ (s : State),
    (s.isSet F.TRC_CTRL.EN 0 = false ∨ s.now / 1000000000 ≤ s.trace.secs)) :=
  ⟨
    ⟨{ r0 with err := { log := List.replicate 1024 (ent 8 1) } }, ent 9 1, by decide +kernel⟩,
    ⟨2 ^ 70 - 1, 2 ^ 50 - 5, 63, 3, 255, true, (tracePacket (2 ^ 70 - 1) (2 ^ 50 - 5) 63 3 255 true).toNat,
      by decide +kernel⟩,
    ⟨2 ^ 70 - 1, 2 ^ 50 - 5, 0, 1, 0, false, (tracePacket (2 ^ 70 - 1) (2 ^ 50 - 5) 0 1 0 false).toNat,
      by decide +kernel⟩,
    ⟨tracing 3 (List.replicate 8 1) 4, 3, 4, 7, List.replicate 8 1, by decide +kernel⟩,
    ⟨tracing 3 (List.replicate 7 1) 0, 3, 0, 7, List.replicate 7 1, by decide +kernel⟩,
    ⟨tracing 3 (List.replicate 7 1) 4, 3, 4, 7, List.replicate 7 1, by decide +kernel⟩,
    ⟨at64 (tracing 3 [] 0) 2000000000, by decide +kernel⟩,
    ⟨at64 (tracing 3 [] 0) 999999999, by decide +kernel⟩⟩

/-- Clauses 12, 13, 14.1, 14.2, 14.3 of Obligations.ErrorsAndTrace: states that meet the hypotheses. -/
theorem witness_ErrorsAndTrace_4 :
  (∃ (s : State), ∃ (k : Nat),
    s.trace.turn < 259 ∧ s.traceNext = some k) ∧
  (∃ (s : State), ∃ (k : Nat),
    s.trace.turn < 259 ∧ s.traceNext = some k) ∧
  (∃ (s : State),
    (s.isSet F.TRC_CTRL.EN 0 = false ∨ s.isSet F.TRC_STATUS.FULL 0 = true ∨ s.traceNext = none)) ∧
  (∃ (s : State),
    (s.isSet F.TRC_CTRL.EN 0 = false ∨ s.isSet F.TRC_STATUS.FULL 0 = true ∨ s.traceNext = none)) ∧
  (∃ (s : State), ∃ (k : Nat), ∃ (p : BitVec 128), ∃ (r : List (BitVec 128)),
    s.isSet F.TRC_CTRL.EN 0 = true ∧ s.isSet F.TRC_STATUS.FULL 0 = false ∧ s.traceNext = some k ∧
    s.trace.queues.get [] k = p :: r ∧ (s.get F.TRC_CTRL.SINK 0 = 0 ∨ s.get F.TRC_CTRL.SINK 0 = 3)) ∧
  (∃ (s : State), ∃ (k : Nat), ∃ (p : BitVec 128), ∃ (r : List (BitVec 128)),
    s.isSet F.TRC_CTRL.EN 0 = true ∧ s.isSet F.TRC_STATUS.FULL 0 = false ∧ s.traceNext = some k ∧
    s.trace.queues.get [] k = p :: r ∧ (s.get F.TRC_CTRL.SINK 0 = 0 ∨ s.get F.TRC_CTRL.SINK 0 = 3)) ∧
  (∃ (s : State), ∃ (k : Nat), ∃ (p : BitVec 128), ∃ (r : List (BitVec 128)),
    s.isSet F.TRC_CTRL.EN 0 = true ∧ s.isSet F.TRC_STATUS.FULL 0 = false ∧ s.traceNext = some k ∧
    s.trace.queues.get [] k = p :: r ∧ s.get F.TRC_CTRL.SINK 0 = 1 ∧ s.trace.partly.length < 3) ∧
  (∃ (s : State), ∃ (k : Nat), ∃ (p : BitVec 128), ∃ (r : List (BitVec 128)),
    s.isSet F.TRC_CTRL.EN 0 = true ∧ s.isSet F.TRC_STATUS.FULL 0 = false ∧ s.traceNext = some k ∧
    s.trace.queues.get [] k = p :: r ∧ s.get F.TRC_CTRL.SINK 0 = 2 ∧
    s.isSet F.MAC_STATUS.LINK (s.laneMac (s.get F.TRC_CTRL.LANE 0)) = false) :=
  ⟨
    ⟨tracing 3 [7] 0, 3, by decide +kernel⟩,
    ⟨{ tracing 3 [7] 0 with trace := { queues := [(3, [7]), (5, [8])], turn := 5 } }, 3, by decide +kernel⟩,
    ⟨r0, by decide +kernel⟩,
    ⟨tracing 3 [] 0, by decide +kernel⟩,
    ⟨(tracing 3 [7, 8] 0).setReg R.TRC_WPTR 0 (2 ^ 32 - 1), 3, 7, [8], by decide +kernel⟩,
    ⟨{ ((tracing 3 [7, 8] 0).put F.TRC_CTRL.STOP_FULL 0 1).put F.TRC_CTRL.SINK 0 3 with trace := { queues := [(3, [7, 8])], since := 65535 } },
      3, 7, [8], by decide +kernel⟩,
    ⟨(tracing 3 [7, 8] 0).put F.TRC_CTRL.SINK 0 1, 3, 7, [8], by decide +kernel⟩,
    ⟨(tracing 3 [7, 8] 0).put F.TRC_CTRL.SINK 0 2, 3, 7, [8], by decide +kernel⟩⟩

/-- Clause 14.4 of Obligations.ErrorsAndTrace: states that meet the hypotheses. -/
theorem witness_ErrorsAndTrace_5 :
  (∃ (s : State), ∃ (k : Nat), ∃ (p : BitVec 128), ∃ (r : List (BitVec 128)),
    s.isSet F.TRC_CTRL.EN 0 = true ∧ s.isSet F.TRC_STATUS.FULL 0 = false ∧ s.traceNext = some k ∧
    s.trace.queues.get [] k = p :: r ∧ s.get F.TRC_CTRL.SINK 0 = 2 ∧
    s.isSet F.MAC_STATUS.LINK (s.laneMac (s.get F.TRC_CTRL.LANE 0)) = true ∧ s.trace.partly.length = 63) :=
    ⟨{ (((tracing 3 [7, 8] 0).put F.TRC_CTRL.SINK 0 2).setReg R.MAC_STATUS 0 1) with trace := { queues := [(3, [7, 8])], partly := List.replicate 63 5 } },
      3, 7, [8], by decide +kernel⟩

/-- Clauses 1.1, 1.2.2, 1.2.1, 1.2.3, 1.2.4, 2.1, 2.2, 3 of Obligations.ConfigKeyUpdateCommands: states that meet
the hypotheses. -/
theorem witness_ConfigKeyUpdateCommands_1 :
  (∃ (b : Fin 8), ∃ (m : Msg), ∃ (s : State), ∃ (k : Taken), ∃ (l : Load),
    Taking s b opLoadOverlay m k ∧ s.cfg.load = some l ∧ l.cmd.map (·.id) = some k.id) ∧
  (∃ (b : Fin 8), ∃ (m : Msg), ∃ (s : State), ∃ (k : Taken),
    Taking s b opLoadOverlay m k ∧ s.cfg.starting = [] ∧ (s.cfg.load.bind (·.cmd)).map (·.id) ≠ some k.id ∧
    s.isSet F.CFG_LOCK.LOCK 0 = true ∧ s.cfg.load = none) ∧
  (∃ (b : Fin 8), ∃ (m : Msg), ∃ (s : State), ∃ (k : Taken),
    Taking s b opLoadOverlay m k ∧ s.cfg.starting = [] ∧ (s.cfg.load.bind (·.cmd)).map (·.id) ≠ some k.id ∧
    s.cfg.load.isSome = true) ∧
  (∃ (b : Fin 8), ∃ (m : Msg), ∃ (s : State), ∃ (k : Taken),
    Taking s b opLoadOverlay m k ∧ s.cfg.starting = [] ∧ (s.cfg.load.bind (·.cmd)).map (·.id) ≠ some k.id ∧
    s.isSet F.CFG_LOCK.LOCK 0 = false ∧ s.cfg.load = none ∧ bufPlace (fld m 0 64) (fld m 8 32) = false) ∧
  (∃ (b : Fin 8), ∃ (m : Msg), ∃ (s : State), ∃ (k : Taken),
    Taking s b opLoadOverlay m k ∧ s.cfg.starting = [] ∧ (s.cfg.load.bind (·.cmd)).map (·.id) ≠ some k.id ∧
    s.isSet F.CFG_LOCK.LOCK 0 = false ∧ s.cfg.load = none ∧ bufPlace (fld m 0 64) (fld m 8 32) = true) ∧
  (∃ (b : Fin 8), ∃ (m : Msg), ∃ (s : State), ∃ (k : Taken), ∃ (r : Nat),
    Taking s b opUnload m k ∧ fld m 0 64 = 2 ^ r ∧ s.isSet F.CFG_LOCK.LOCK 0 = true) ∧
  (∃ (b : Fin 8), ∃ (m : Msg), ∃ (s : State), ∃ (k : Taken), ∃ (r : Nat),
    Taking s b opUnload m k ∧ fld m 0 64 = 2 ^ r ∧ s.isSet F.CFG_LOCK.LOCK 0 = false ∧ r < 64) ∧
  (∃ (b : Fin 8), ∃ (m : Msg), ∃ (s : State), ∃ (k : Taken),
    Taking s b opConfigStatus m k) :=
  ⟨
    ⟨1, msg 3 0,
      { taking r0 1 opLoadOverlay (msg 3 0) with cfg := { load := some { path := .mailbox, cmd := some (cmdOf 1 opLoadOverlay (msg 3 0)) } } },
      cmdOf 1 opLoadOverlay (msg 3 0), { path := .mailbox, cmd := some (cmdOf 1 opLoadOverlay (msg 3 0)) },
      by decide +kernel⟩,
    ⟨1, msg 3 0, (taking r0 1 opLoadOverlay (msg 3 0)).setReg R.CFG_LOCK 0 1, cmdOf 1 opLoadOverlay (msg 3 0),
      by decide +kernel⟩,
    ⟨1, msg 3 0, { taking r0 1 opLoadOverlay (msg 3 0) with cfg := { load := some { path := .primary } } },
      cmdOf 1 opLoadOverlay (msg 3 0), by decide +kernel⟩,
    ⟨1, msg 3 (2 ^ 35 + 2 ^ 64), taking r0 1 opLoadOverlay (msg 3 (2 ^ 35 + 2 ^ 64)),
      cmdOf 1 opLoadOverlay (msg 3 (2 ^ 35 + 2 ^ 64)), by decide +kernel⟩,
    ⟨1, msg 3 (baseScratch + 1000 * 2 ^ 64), taking r0 1 opLoadOverlay (msg 3 (baseScratch + 1000 * 2 ^ 64)),
      cmdOf 1 opLoadOverlay (msg 3 (baseScratch + 1000 * 2 ^ 64)), by decide +kernel⟩,
    ⟨1, msg 3 32, (taking r0 1 opUnload (msg 3 32)).setReg R.CFG_LOCK 0 1, cmdOf 1 opUnload (msg 3 32), 5,
      by decide +kernel⟩,
    ⟨1, msg 3 32,
      { ((taking r0 1 opUnload (msg 3 32)).setRegion 5 3).setRegion 6 3 with fab := { frames := [(5 * 65536 + 3, 9), (6 * 65536 + 7, 9)] } },
      cmdOf 1 opUnload (msg 3 32), 5, by decide +kernel⟩,
    ⟨1, msg 3 32, (taking r0 1 opConfigStatus (msg 3 32)).setReg R.PR_FAILED_HI 0 5,
      cmdOf 1 opConfigStatus (msg 3 32), by decide +kernel⟩⟩

/-- Clauses 4, 5.1, 5.2, 7, 8, 9 of Obligations.ConfigKeyUpdateCommands: states that meet the hypotheses. -/
theorem witness_ConfigKeyUpdateCommands_2 :
  (∃ (b : Fin 8), ∃ (m : Msg), ∃ (s : State), ∃ (k : Taken),
    Taking s b opConfigLock m k) ∧
  (∃ (b : Fin 8), ∃ (m : Msg), ∃ (edge : Bool), ∃ (s : State), ∃ (k : Taken),
    Taking s b opReadback m k ∧
    (edge = false ∨ s.regionState (fld m 0 8) ≠ 3 ∨ s.leafRuns (fld m 0 8) (fld m 1 8) = false)) ∧
  (∃ (b : Fin 8), ∃ (m : Msg), ∃ (edge : Bool), ∃ (s : State), ∃ (k : Taken),
    Taking s b opReadback m k ∧
    (edge = false ∨ s.regionState (fld m 0 8) ≠ 3 ∨ s.leafRuns (fld m 0 8) (fld m 1 8) = false)) ∧
  (∃ (b : Fin 8), ∃ (m : Msg), ∃ (edge : Bool), ∃ (s : State), ∃ (k : Taken), ∃ (v : BitVec 172032),
    Taking s b opReadback m k ∧ s.fab.ffs.get 0 (fld m 0 8) = v ∧ edge = true ∧ s.regionState (fld m 0 8) = 3 ∧
    s.leafRuns (fld m 0 8) (fld m 1 8) = true) ∧
  (∃ (b : Fin 8), ∃ (m : Msg), ∃ (s : State), ∃ (k : Taken),
    Taking s b opKeyLoad m k ∧ bufPlace (fld m 8 64) 72 = false) ∧
  (∃ (b : Fin 8), ∃ (m : Msg), ∃ (s : State), ∃ (k : Taken),
    Taking s b opKeyClear m k) ∧
  (∃ (b : Fin 8), ∃ (m : Msg), ∃ (s : State), ∃ (k : Taken), ∃ (r : Nat),
    Taking s b opKeyRegion m k ∧ fld m 0 8 = r) ∧
  (∃ (b : Fin 8), ∃ (m : Msg), ∃ (s : State), ∃ (k : Taken), ∃ (r : Nat),
    Taking s b opKeyRegion m k ∧ fld m 0 8 = r) :=
  ⟨
    ⟨1, msg 3 32, taking r0 1 opConfigLock (msg 3 32), cmdOf 1 opConfigLock (msg 3 32), by decide +kernel⟩,
    ⟨1, msg 3 5, true, taking r0 1 opReadback (msg 3 5), cmdOf 1 opReadback (msg 3 5), by decide +kernel⟩,
    ⟨1, msg 3 5, false, (taking r0 1 opReadback (msg 3 5)).setRegion 5 3, cmdOf 1 opReadback (msg 3 5),
      by decide +kernel⟩,
    ⟨1, msg 3 (5 + baseScratch * 2 ^ 64), true,
      { (((taking r0 1 opReadback (msg 3 (5 + baseScratch * 2 ^ 64))).setRegion 5 3).put F.CLK_FAB_OUT.EN 20 1).put F.CLK_LOOP_CTRL.EN 5 1 with fab := { ffs := [(5, 77)], leaf := [(80, 1)], nets := [(0, 1)] } },
      cmdOf 1 opReadback (msg 3 (5 + baseScratch * 2 ^ 64)), 77, by decide +kernel⟩,
    ⟨1, msg 3 (5 + 2 ^ 35 * 2 ^ 64), taking r0 1 opKeyLoad (msg 3 (5 + 2 ^ 35 * 2 ^ 64)),
      cmdOf 1 opKeyLoad (msg 3 (5 + 2 ^ 35 * 2 ^ 64)), by decide +kernel⟩,
    ⟨1, msg 3 63, { taking r0 1 opKeyClear (msg 3 63) with store := { keys := [(3, some 5), (63, some 9)] } },
      cmdOf 1 opKeyClear (msg 3 63), by decide +kernel⟩,
    ⟨1, msg 3 (15 + 2 ^ 64 * 0x100010000 + 2 ^ 128 * 0x200020000 + 2 ^ 192 * 0xF000000001),
      taking r0 1 opKeyRegion (msg 3 (15 + 2 ^ 64 * 0x100010000 + 2 ^ 128 * 0x200020000 + 2 ^ 192 * 0xF000000001)),
      cmdOf 1 opKeyRegion (msg 3 (15 + 2 ^ 64 * 0x100010000 + 2 ^ 128 * 0x200020000 + 2 ^ 192 * 0xF000000001)),
      15, by decide +kernel⟩,
    ⟨1, msg 3 15, (taking r0 1 opKeyRegion (msg 3 15)).put F.CIPH_REGION_CTRL.EN 15 1,
      cmdOf 1 opKeyRegion (msg 3 15), 15, by decide +kernel⟩⟩

/-- Clauses 10, 12.1, 12.2.1, 12.2.2, 13, 14.1, 14.2, 14.3 of Obligations.ConfigKeyUpdateCommands: states that meet
the hypotheses. -/
theorem witness_ConfigKeyUpdateCommands_3 :
  (∃ (b : Fin 8), ∃ (m : Msg), ∃ (s : State), ∃ (k : Taken),
    Taking s b opKeyStatus m k) ∧
  (∃ (b : Fin 8), ∃ (m : Msg), ∃ (ok : Bool), ∃ (s : State), ∃ (k : Taken),
    Taking s b opCommit m k ∧ s.upd.staged = none) ∧
  (∃ (b : Fin 8), ∃ (m : Msg), ∃ (ok : Bool), ∃ (s : State), ∃ (k : Taken), ∃ (x : UpdImage),
    Taking s b opCommit m k ∧ s.upd.staged = some x ∧ ok = true) ∧
  (∃ (b : Fin 8), ∃ (m : Msg), ∃ (ok : Bool), ∃ (s : State), ∃ (k : Taken), ∃ (x : UpdImage),
    Taking s b opCommit m k ∧ s.upd.staged = some x ∧ ok = false) ∧
  (∃ (b : Fin 8), ∃ (m : Msg), ∃ (s : State), ∃ (k : Taken),
    Taking s b opUpdStatus m k) ∧
  (∃ (b : Fin 8), ∃ (m : Msg), ∃ (gold : BitVec 16), ∃ (blow : Fin 3), ∃ (bits : BitVec 9), ∃ (s : State), ∃ (k : Taken),
    Taking s b opActivate m k ∧ s.upd.committed = none) ∧
  (∃ (b : Fin 8), ∃ (m : Msg), ∃ (gold : BitVec 16), ∃ (blow : Fin 3), ∃ (bits : BitVec 9), ∃ (s : State), ∃ (k : Taken), ∃ (x : UpdImage), ∃ (u : State),
    Taking s b opActivate m k ∧ s.upd.committed = some x ∧ fld m 0 8 ≠ 1 ∧ s.finish k stOK 0 {} = u ∧
    u.flashBusy = false) ∧
  (∃ (b : Fin 8), ∃ (m : Msg), ∃ (gold : BitVec 16), ∃ (blow : Fin 3), ∃ (bits : BitVec 9), ∃ (s : State), ∃ (k : Taken), ∃ (x : UpdImage), ∃ (u : State),
    Taking s b opActivate m k ∧ s.upd.committed = some x ∧ fld m 0 8 ≠ 1 ∧ s.finish k stOK 0 {} = u ∧
    u.flashBusy = true) :=
  ⟨
    ⟨1, msg 3 63, { taking r0 1 opKeyStatus (msg 3 63) with store := { keys := [(3, some 5), (63, some 9)] } },
      cmdOf 1 opKeyStatus (msg 3 63), by decide +kernel⟩,
    ⟨1, msg 3 0, true, taking r0 1 opCommit (msg 3 0), cmdOf 1 opCommit (msg 3 0), by decide +kernel⟩,
    ⟨1, msg 3 0, true, { taking r0 1 opCommit (msg 3 0) with upd := { staged := some ⟨0, 5, 6⟩ } },
      cmdOf 1 opCommit (msg 3 0), ⟨0, 5, 6⟩, by decide +kernel⟩,
    ⟨1, msg 3 0, false, { taking r0 1 opCommit (msg 3 0) with upd := { staged := some ⟨0, 5, 6⟩ } },
      cmdOf 1 opCommit (msg 3 0), ⟨0, 5, 6⟩, by decide +kernel⟩,
    ⟨1, msg 3 0, taking r0 1 opUpdStatus (msg 3 0), cmdOf 1 opUpdStatus (msg 3 0), by decide +kernel⟩,
    ⟨1, msg 3 1, 0, 0, 0, taking r0 1 opActivate (msg 3 1), cmdOf 1 opActivate (msg 3 1), by decide +kernel⟩,
    ⟨1, msg 3 0, 0, 0, 0, { taking r0 1 opActivate (msg 3 0) with upd := { committed := some ⟨0, 5, 6⟩ } },
      cmdOf 1 opActivate (msg 3 0), ⟨0, 5, 6⟩,
      State.finish ({ taking r0 1 opActivate (msg 3 0) with upd := { committed := some ⟨0, 5, 6⟩ } }) (cmdOf 1 opActivate (msg 3 0)) stOK 0 {},
      by decide +kernel⟩,
    ⟨1, msg 3 0, 0, 0, 0,
      { taking r0 1 opActivate (msg 3 0) with upd := { committed := some ⟨0, 5, 6⟩ }, mbx := { (taking r0 1 opActivate (msg 3 0)).mbx with started := [cmdOf 1 opActivate (msg 3 0), ⟨1, 2, 0x0B01, msg 3 0, false⟩] } },
      cmdOf 1 opActivate (msg 3 0), ⟨0, 5, 6⟩,
      State.finish ({ taking r0 1 opActivate (msg 3 0) with upd := { committed := some ⟨0, 5, 6⟩ }, mbx := { (taking r0 1 opActivate (msg 3 0)).mbx with started := [cmdOf 1 opActivate (msg 3 0), ⟨1, 2, 0x0B01, msg 3 0, false⟩] } }) (cmdOf 1 opActivate (msg 3 0)) stOK 0 {},
      by decide +kernel⟩⟩

/-- Clauses 14.4, 14.5.1, 14.5.2, 14.5.3, 5.2, 15.2, 15.1, 16.1 of Obligations.ConfigKeyUpdateCommands: states that
meet the hypotheses. -/
theorem witness_ConfigKeyUpdateCommands_4 :
  (∃ (b : Fin 8), ∃ (m : Msg), ∃ (gold : BitVec 16), ∃ (blow : Fin 3), ∃ (bits : BitVec 9), ∃ (s : State), ∃ (k : Taken), ∃ (x : UpdImage),
    Taking s b opActivate m k ∧ s.upd.committed = some x ∧ fld m 0 8 = 1 ∧ (256 < x.arb ∨ x.kind = 1 ∧
    gold.toNat < x.arb)) ∧
  (∃ (b : Fin 8), ∃ (m : Msg), ∃ (gold : BitVec 16), ∃ (blow : Fin 3), ∃ (bits : BitVec 9), ∃ (s : State), ∃ (k : Taken), ∃ (x : UpdImage), ∃ (f : Fuses), ∃ (u : State),
    Taking s b opActivate m k ∧ s.upd.committed = some x ∧ fld m 0 8 = 1 ∧ x.kind = 0 ∧ x.arb ≤ 256 ∧
    s.sec.fuses = f ∧ f.fw < x.arb ∧ blow = 0 ∧ (s.setFuses { f with fw := x.arb }).finish k stOK 0 {} = u ∧
    u.flashBusy = false) ∧
  (∃ (b : Fin 8), ∃ (m : Msg), ∃ (gold : BitVec 16), ∃ (blow : Fin 3), ∃ (bits : BitVec 9), ∃ (s : State), ∃ (k : Taken), ∃ (x : UpdImage), ∃ (f : Fuses),
    Taking s b opActivate m k ∧ s.upd.committed = some x ∧ fld m 0 8 = 1 ∧ x.kind = 0 ∧ x.arb ≤ 256 ∧
    s.sec.fuses = f ∧ f.fw < x.arb ∧ blow = 1 ∧ f.fw + bits.toNat < x.arb) ∧
  (∃ (b : Fin 8), ∃ (m : Msg), ∃ (gold : BitVec 16), ∃ (blow : Fin 3), ∃ (bits : BitVec 9), ∃ (s : State), ∃ (k : Taken), ∃ (x : UpdImage), ∃ (f : Fuses),
    Taking s b opActivate m k ∧ s.upd.committed = some x ∧ fld m 0 8 = 1 ∧ x.kind = 0 ∧ x.arb ≤ 256 ∧
    s.sec.fuses = f ∧ f.fw < x.arb ∧ blow = 2 ∧ f.fw + bits.toNat ≤ x.arb) ∧
  (∃ (b : Fin 8), ∃ (m : Msg), ∃ (edge : Bool), ∃ (s : State), ∃ (k : Taken), ∃ (v : BitVec 172032),
    Taking s b opReadback m k ∧ s.fab.ffs.get 0 (fld m 0 8) = v ∧ edge = true ∧ s.regionState (fld m 0 8) = 3 ∧
    s.leafRuns (fld m 0 8) (fld m 1 8) = true) ∧
  (∃ (s : State), ∃ (u : State),
    s.updateOver = u ∧ s.get F.DEV_FW_STATE.STATE 0 = 4 ∧
    s.mbx.started.any (fun t => [opStage, opCommit, opActivate].contains t.op) = false) ∧
  (∃ (s : State), ∃ (u : State),
    s.updateOver = u ∧
    (s.get F.DEV_FW_STATE.STATE 0 ≠ 4 ∨ s.mbx.started.any (fun t => [opStage, opCommit, opActivate].contains t.op) = true)) ∧
  (∃ (s : State),
    (s.upd.warmDue = false ∨ s.flashBusy = true)) :=
  ⟨
    ⟨1, msg 3 1, 5, 0, 0, { taking r0 1 opActivate (msg 3 1) with upd := { committed := some ⟨1, 5, 6⟩ } },
      cmdOf 1 opActivate (msg 3 1), ⟨1, 5, 6⟩, by decide +kernel⟩,
    ⟨1, msg 3 1, 5, 0, 0, { taking r0 1 opActivate (msg 3 1) with upd := { committed := some ⟨0, 5, 256⟩ } },
      cmdOf 1 opActivate (msg 3 1), ⟨0, 5, 256⟩, {},
      State.finish (State.setFuses ({ taking r0 1 opActivate (msg 3 1) with upd := { committed := some ⟨0, 5, 256⟩ } }) { (({} : Fuses)) with fw := 256 }) (cmdOf 1 opActivate (msg 3 1)) stOK 0 {},
      by decide +kernel⟩,
    ⟨1, msg 3 1, 5, 1, 3, { taking r0 1 opActivate (msg 3 1) with upd := { committed := some ⟨0, 5, 6⟩ } },
      cmdOf 1 opActivate (msg 3 1), ⟨0, 5, 6⟩, {}, by decide +kernel⟩,
    ⟨1, msg 3 1, 5, 2, 3, { taking r0 1 opActivate (msg 3 1) with upd := { committed := some ⟨0, 5, 6⟩ } },
      cmdOf 1 opActivate (msg 3 1), ⟨0, 5, 6⟩, {}, by decide +kernel⟩,
    ⟨1, msg 3 (5 + (baseScratch - 64) * 2 ^ 64), true,
      { (((taking r0 1 opReadback (msg 3 (5 + (baseScratch - 64) * 2 ^ 64))).setRegion 5 3).put F.CLK_FAB_OUT.EN 20 1).put F.CLK_LOOP_CTRL.EN 5 1 with fab := { ffs := [(5, 77)], leaf := [(80, 1)], nets := [(0, 1)] } },
      cmdOf 1 opReadback (msg 3 (5 + (baseScratch - 64) * 2 ^ 64)), 77, by decide +kernel⟩,
    ⟨r0.put F.DEV_FW_STATE.STATE 0 4, (r0.put F.DEV_FW_STATE.STATE 0 4).updateOver, by decide +kernel⟩,
    ⟨r0, r0.updateOver, by decide +kernel⟩,
    ⟨r0, by decide +kernel⟩⟩

/-- Clause 16.2 of Obligations.ConfigKeyUpdateCommands: states that meet the hypotheses. -/
theorem witness_ConfigKeyUpdateCommands_5 :
  (∃ (s : State),
    s.upd.warmDue = true ∧ s.flashBusy = false) :=
    ⟨{ r0 with upd := { warmDue := true } }, by decide +kernel⟩

/-- Clause 6 of Obligations.ConfigKeyUpdateCommands: states that meet the hypotheses. -/
theorem witness_ConfigKeyUpdateCommands_6 :
  (∃ (b : Fin 8), ∃ (m : Msg), ∃ (s : State), ∃ (k : Taken), ∃ (bs : List Byte), ∃ (u : State),
    Taking s b opKeyLoad m k ∧ BufGives s (fld m 8 64) 72 bs u) :=
    ⟨1, msg 3 (5 + baseScratch * 2 ^ 64), taking r0 1 opKeyLoad (msg 3 (5 + baseScratch * 2 ^ 64)),
      cmdOf 1 opKeyLoad (msg 3 (5 + baseScratch * 2 ^ 64)), List.replicate 72 0,
      ((taking r0 1 opKeyLoad (msg 3 (5 + baseScratch * 2 ^ 64))).bufRead baseScratch 72).2,
      by
    first | decide +kernel | ((repeat' first | apply And.intro | apply Prod.ext) <;> first | decide +kernel | with_reducible rfl | rfl)⟩

/-- Clause 11 of Obligations.ConfigKeyUpdateCommands: states that meet the hypotheses. -/
theorem witness_ConfigKeyUpdateCommands_7 :
  (∃ (b : Fin 8), ∃ (m : Msg), ∃ (s : State), ∃ (k : Taken), ∃ (bs : List Byte), ∃ (u : State), ∃ (x : UpdImage),
    Taking s b opStage m k ∧ BufGives s (fld m 8 64) (fld m 16 32) bs u ∧ stagedImage (fld m 0 8) (bs.take 64) = x) :=
    ⟨1, msg 3 (1 + baseScratch * 2 ^ 64 + 200 * 2 ^ 128),
      taking r0 1 opStage (msg 3 (1 + baseScratch * 2 ^ 64 + 200 * 2 ^ 128)),
      cmdOf 1 opStage (msg 3 (1 + baseScratch * 2 ^ 64 + 200 * 2 ^ 128)), List.replicate 200 0,
      ((taking r0 1 opStage (msg 3 (1 + baseScratch * 2 ^ 64 + 200 * 2 ^ 128))).bufRead baseScratch 200).2,
      stagedImage 1 (List.replicate 64 0),
      by
    first | decide +kernel | ((repeat' first | apply And.intro | apply Prod.ext) <;> first | decide +kernel | with_reducible rfl | rfl)⟩

/-- Clauses 1.1, 1.2, 2, 3, 4, 5.1, 5.2.1 of Obligations.TaskErrorDebugCommands: states that meet the hypotheses. -/
theorem witness_TaskErrorDebugCommands_1 :
  (∃ (b : Fin 8), ∃ (m : Msg), ∃ (s : State), ∃ (k : Taken), ∃ (q : Nat), ∃ (n : Nat), ∃ (j : Nat),
    Taking s b opCqCfg m k ∧ fld m 0 8 = q ∧ fld m 1 8 = n ∧ j = 16 * q + n ∧ q < 4 ∧ n < 16 ∧ fld m 18 8 ≠ 0 ∧
    s.vectorTaken (fld m 18 8) j = true) ∧
  (∃ (b : Fin 8), ∃ (m : Msg), ∃ (s : State), ∃ (k : Taken), ∃ (q : Nat), ∃ (n : Nat), ∃ (j : Nat),
    Taking s b opCqCfg m k ∧ fld m 0 8 = q ∧ fld m 1 8 = n ∧ j = 16 * q + n ∧ q < 4 ∧ n < 16 ∧
    (fld m 18 8 = 0 ∨ s.vectorTaken (fld m 18 8) j = false) ∧ fld m 16 16 < 65536 ∧ (s.dsp q).cbuf = []) ∧
  (∃ (b : Fin 8), ∃ (m : Msg), ∃ (s : State), ∃ (k : Taken), ∃ (q : Nat), ∃ (v : Nat),
    Taking s b opTick m k ∧ fld m 0 8 = q ∧ fld m 4 32 % 2 ^ 14 = v) ∧
  (∃ (b : Fin 8), ∃ (m : Msg), ∃ (s : State), ∃ (k : Taken), ∃ (q : Nat), ∃ (v : Nat),
    Taking s b opTick m k ∧ fld m 0 8 = q ∧ fld m 4 32 % 2 ^ 14 = v) ∧
  (∃ (b : Fin 8), ∃ (m : Msg), ∃ (s : State), ∃ (k : Taken), ∃ (q : Nat),
    Taking s b opStats m k ∧ fld m 0 8 = q) ∧
  (∃ (b : Fin 8), ∃ (m : Msg), ∃ (s : State), ∃ (k : Taken), ∃ (q : Nat),
    Taking s b opFlush m k ∧ fld m 0 8 = q) ∧
  (∃ (s : State), ∃ (first : Nat), ∃ (count : Nat), ∃ (i : Nat),
    s.err.log.findIdx? (fun e => e.seq == first) = some i) ∧
  (∃ (s : State), ∃ (first : Nat), ∃ (count : Nat), ∃ (e : Entry), ∃ (r : List Entry),
    s.err.log = e :: r ∧ s.err.log.findIdx? (fun e => e.seq == first) = none ∧
    1 ≤ (e.seq + 65536 - first % 65536) % 65536 ∧ (e.seq + 65536 - first % 65536) % 65536 ≤ 32768) :=
  ⟨
    ⟨1, msg 3 (3 + 15 * 2 ^ 8 + (2 ^ 33 + 64) * 2 ^ 64 + 256 * 2 ^ 128 + 5 * 2 ^ 144),
      taking r0 1 opCqCfg (msg 3 (3 + 15 * 2 ^ 8 + (2 ^ 33 + 64) * 2 ^ 64 + 256 * 2 ^ 128 + 5 * 2 ^ 144)),
      cmdOf 1 opCqCfg (msg 3 (3 + 15 * 2 ^ 8 + (2 ^ 33 + 64) * 2 ^ 64 + 256 * 2 ^ 128 + 5 * 2 ^ 144)), 3, 15, 63,
      by decide +kernel⟩,
    ⟨1, msg 3 (3 + 15 * 2 ^ 8 + (2 ^ 33 + 64) * 2 ^ 64 + 256 * 2 ^ 128 + 9 * 2 ^ 144),
      { (taking r0 1 opCqCfg (msg 3 (3 + 15 * 2 ^ 8 + (2 ^ 33 + 64) * 2 ^ 64 + 256 * 2 ^ 128 + 9 * 2 ^ 144))).setReg R.TSK_CQ_IDX 63 5 with disp := [(3, { writes := [{ queue := 15, tag := 1, done := false }] })] },
      cmdOf 1 opCqCfg (msg 3 (3 + 15 * 2 ^ 8 + (2 ^ 33 + 64) * 2 ^ 64 + 256 * 2 ^ 128 + 9 * 2 ^ 144)), 3, 15, 63,
      by decide +kernel⟩,
    ⟨1, msg 3 (3 + 2 ^ 32 * 16383), taking r0 1 opTick (msg 3 (3 + 2 ^ 32 * 16383)),
      cmdOf 1 opTick (msg 3 (3 + 2 ^ 32 * 16383)), 3, 16383, by decide +kernel⟩,
    ⟨1, msg 3 (3 + 2 ^ 32 * 999), taking r0 1 opTick (msg 3 (3 + 2 ^ 32 * 999)),
      cmdOf 1 opTick (msg 3 (3 + 2 ^ 32 * 999)), 3, 999, by decide +kernel⟩,
    ⟨1, msg 3 (3), (taking r0 1 opStats (msg 3 (3))).setReg R.TSK_LATE_RISK 3 9, cmdOf 1 opStats (msg 3 (3)), 3,
      by decide +kernel⟩,
    ⟨1, msg 3 (3), taking r0 1 opFlush (msg 3 (3)), cmdOf 1 opFlush (msg 3 (3)), 3, by decide +kernel⟩,
    ⟨{ r0 with err := { log := [{ ent 1 1 with seq := 65535 }, { ent 2 2 with seq := 0 }] } }, 0, 5, 1,
      by decide +kernel⟩,
    ⟨{ r0 with err := { log := [{ ent 1 1 with seq := 65535 }, { ent 2 2 with seq := 0 }] } }, 65530, 1,
      { ent 1 1 with seq := 65535 }, [{ ent 2 2 with seq := 0 }], by decide +kernel⟩⟩

/-- Clauses 5.2.2, 8, 9, 10.1, 10.2, 11, 12 of Obligations.TaskErrorDebugCommands: states that meet the hypotheses.
-/
theorem witness_TaskErrorDebugCommands_2 :
  (∃ (s : State), ∃ (first : Nat), ∃ (count : Nat), ∃ (e : Entry), ∃ (r : List Entry),
    s.err.log = e :: r ∧ s.err.log.findIdx? (fun e => e.seq == first) = none ∧
    32768 < (e.seq + 65536 - first % 65536) % 65536) ∧
  (∃ (b : Fin 8), ∃ (m : Msg), ∃ (s : State), ∃ (k : Taken),
    Taking s b opErrorClear m k) ∧
  (∃ (b : Fin 8), ∃ (m : Msg), ∃ (s : State), ∃ (k : Taken),
    Taking s b opErrorConfig m k) ∧
  (∃ (b : Fin 8), ∃ (m : Msg), ∃ (s : State), ∃ (k : Taken),
    Taking s b opErrorInject m k ∧ (s.sec.life = 2 ∧ s.debugLevel = 0 ∨ s.sec.life = 3 ∧ s.debugLevel ≠ 2)) ∧
  (∃ (b : Fin 8), ∃ (m : Msg), ∃ (s : State), ∃ (k : Taken),
    Taking s b opErrorInject m k ∧ (s.sec.life < 2 ∨ s.debugLevel = 2 ∨ s.sec.life = 2 ∧ s.debugLevel ≠ 0)) ∧
  (∃ (b : Fin 8), ∃ (m : Msg), ∃ (s : State), ∃ (k : Taken),
    Taking s b opErrorInject m k ∧ (s.sec.life < 2 ∨ s.debugLevel = 2 ∨ s.sec.life = 2 ∧ s.debugLevel ≠ 0)) ∧
  (∃ (b : Fin 8), ∃ (m : Msg), ∃ (s : State), ∃ (v : State), ∃ (k : Taken),
    Taking s b opReport m k ∧ v = { s with free := s.free + 1 }) ∧
  (∃ (s : State), ∃ (nonce : Nat),
    s.sec.overlays = [] ∧ s.sec.programs = []) :=
  ⟨
    ⟨{ r0 with err := { log := [{ ent 1 1 with seq := 65535 }, { ent 2 2 with seq := 0 }] } }, 1, 1,
      { ent 1 1 with seq := 65535 }, [{ ent 2 2 with seq := 0 }], by decide +kernel⟩,
    ⟨1, msg 3 (0),
      { (taking r0 1 opErrorClear (msg 3 (0))) with err := { log := [{ ent 1 1 with seq := 65535 }, { ent 2 2 with seq := 0 }] } },
      cmdOf 1 opErrorClear (msg 3 (0)), by decide +kernel⟩,
    ⟨1, msg 3 (2 ^ 31 + 77 + 255 * 2 ^ 32), taking r0 1 opErrorConfig (msg 3 (2 ^ 31 + 77 + 255 * 2 ^ 32)),
      cmdOf 1 opErrorConfig (msg 3 (2 ^ 31 + 77 + 255 * 2 ^ 32)), by decide +kernel⟩,
    ⟨1, msg 3 (2 ^ 24 + 77 + 255 * 2 ^ 32),
      inLife (taking r0 1 opErrorInject (msg 3 (2 ^ 24 + 77 + 255 * 2 ^ 32))) 3,
      cmdOf 1 opErrorInject (msg 3 (2 ^ 24 + 77 + 255 * 2 ^ 32)), by decide +kernel⟩,
    ⟨1, msg 3 (2 ^ 24 + 77 + 0x20300 * 2 ^ 32),
      taking r0 1 opErrorInject (msg 3 (2 ^ 24 + 77 + 0x20300 * 2 ^ 32)),
      cmdOf 1 opErrorInject (msg 3 (2 ^ 24 + 77 + 0x20300 * 2 ^ 32)), by decide +kernel⟩,
    ⟨1, msg 3 (2 ^ 24 + 77 + 0x30300 * 2 ^ 32),
      unlocked (inLife (taking r0 1 opErrorInject (msg 3 (2 ^ 24 + 77 + 0x30300 * 2 ^ 32))) 2) 1,
      cmdOf 1 opErrorInject (msg 3 (2 ^ 24 + 77 + 0x30300 * 2 ^ 32)), by decide +kernel⟩,
    ⟨1, msg 3 (9 + baseScratch * 2 ^ 256), (taking r0 1 opReport (msg 3 (9 + baseScratch * 2 ^ 256))),
      { (taking r0 1 opReport (msg 3 (9 + baseScratch * 2 ^ 256))) with free := 1 },
      cmdOf 1 opReport (msg 3 (9 + baseScratch * 2 ^ 256)), by decide +kernel⟩,
    ⟨r0, 5, by decide +kernel⟩⟩

/-- Clauses 13.1, 13.2, 14, 15.1, 16.1, 16.2, 17 of Obligations.TaskErrorDebugCommands: states that meet the
hypotheses. -/
theorem witness_TaskErrorDebugCommands_3 :
  (∃ (b : Fin 8), ∃ (m : Msg), ∃ (s : State), ∃ (k : Taken),
    Taking s b opCerts m k ∧ bufPlace (fld m 0 64) 4096 = false) ∧
  (∃ (b : Fin 8), ∃ (m : Msg), ∃ (s : State), ∃ (k : Taken),
    Taking s b opCerts m k ∧ bufPlace (fld m 0 64) 4096 = true) ∧
  (∃ (b : Fin 8), ∃ (m : Msg), ∃ (s : State), ∃ (k : Taken),
    Taking s b opChallenge m k) ∧
  (∃ (b : Fin 8), ∃ (m : Msg), ∃ (s : State), ∃ (k : Taken),
    Taking s b opUnlock m k ∧
    (s.isSet F.SEC_LOCKS.DBG_DISABLE 0 = true ∨ s.isSet F.SEC_DBG_STATUS.LOCKOUT 0 = true)) ∧
  (∃ (s : State), ∃ (d : Nat), ∃ (buf : List Nat),
    s.sec.challenge = none) ∧
  (∃ (s : State), ∃ (d : Nat), ∃ (buf : List Nat), ∃ (c : BitVec 256), ∃ (t : Nat),
    s.sec.challenge = some (c, t) ∧ t + 60000000000 ≤ s.now) ∧
  (∃ (s : State),
    s.get F.SEC_DBG_STATUS.FAILS 0 < 7) ∧
  (∃ (s : State),
    s.get F.SEC_DBG_STATUS.FAILS 0 < 7) :=
  ⟨
    ⟨1, msg 3 (baseScratch - 64), taking r0 1 opCerts (msg 3 (baseScratch - 64)),
      cmdOf 1 opCerts (msg 3 (baseScratch - 64)), by decide +kernel⟩,
    ⟨1, msg 3 (baseScratch), taking r0 1 opCerts (msg 3 (baseScratch)), cmdOf 1 opCerts (msg 3 (baseScratch)),
      by decide +kernel⟩,
    ⟨1, msg 3 (0), taking r0 1 opChallenge (msg 3 (0)), cmdOf 1 opChallenge (msg 3 (0)), by decide +kernel⟩,
    ⟨1, msg 3 (3 + baseScratch * 2 ^ 64),
      (taking r0 1 opUnlock (msg 3 (3 + baseScratch * 2 ^ 64))).put F.SEC_LOCKS.DBG_DISABLE 0 1,
      cmdOf 1 opUnlock (msg 3 (3 + baseScratch * 2 ^ 64)), by decide +kernel⟩,
    ⟨r0, 3, [], by decide +kernel⟩,
    ⟨{ at64 r0 60000000009 with sec := { r0.sec with challenge := some (5, 9) } }, 3, [], 5, 9, by decide +kernel⟩,
    ⟨r0, by decide +kernel⟩,
    ⟨r0.put F.SEC_DBG_STATUS.FAILS 0 2, by decide +kernel⟩⟩

/-- Clauses 18.1, 18.2, 18.3, 19 of Obligations.TaskErrorDebugCommands: states that meet the hypotheses. -/
theorem witness_TaskErrorDebugCommands_4 :
  (∃ (b : Fin 8), ∃ (m : Msg), ∃ (s : State), ∃ (k : Taken), ∃ (sink : Nat), ∃ (lane : Nat),
    Taking s b opTraceCfg m k ∧ fld m 0 8 = sink ∧ fld m 20 16 = lane ∧
    (s.isSet F.TRC_CTRL.EN 0 = true ∨ (sink = 2 ∧ s.isSet F.MAC_CFG.EN (s.laneMac lane) = false))) ∧
  (∃ (b : Fin 8), ∃ (m : Msg), ∃ (s : State), ∃ (k : Taken), ∃ (sink : Nat), ∃ (lane : Nat),
    Taking s b opTraceCfg m k ∧ fld m 0 8 = sink ∧ fld m 20 16 = lane ∧ s.isSet F.TRC_CTRL.EN 0 = false ∧
    sink = 2 ∧ s.isSet F.MAC_CFG.EN (s.laneMac lane) = true) ∧
  (∃ (b : Fin 8), ∃ (m : Msg), ∃ (s : State), ∃ (k : Taken), ∃ (sink : Nat), ∃ (lane : Nat),
    Taking s b opTraceCfg m k ∧ fld m 0 8 = sink ∧ fld m 20 16 = lane ∧ s.isSet F.TRC_CTRL.EN 0 = false ∧ sink = 1) ∧
  (∃ (b : Fin 8), ∃ (m : Msg), ∃ (s : State), ∃ (k : Taken),
    Taking s b opDebugLock m k) :=
  ⟨
    ⟨1, msg 3 (2 + 2 ^ 160 * 5), taking r0 1 opTraceCfg (msg 3 (2 + 2 ^ 160 * 5)),
      cmdOf 1 opTraceCfg (msg 3 (2 + 2 ^ 160 * 5)), 2, 5, by decide +kernel⟩,
    ⟨1, msg 3 (2 + 2 ^ 160 * 5), (taking r0 1 opTraceCfg (msg 3 (2 + 2 ^ 160 * 5))).setReg R.MAC_CFG 1 1,
      cmdOf 1 opTraceCfg (msg 3 (2 + 2 ^ 160 * 5)), 2, 5, by decide +kernel⟩,
    ⟨1, msg 3 (1 + 64 * 2 ^ 64 + 2 ^ 128 * 12), taking r0 1 opTraceCfg (msg 3 (1 + 64 * 2 ^ 64 + 2 ^ 128 * 12)),
      cmdOf 1 opTraceCfg (msg 3 (1 + 64 * 2 ^ 64 + 2 ^ 128 * 12)), 1, 0, by decide +kernel⟩,
    ⟨1, msg 3 (0), unlocked (haltedAt (taking r0 1 opDebugLock (msg 3 (0))) 3) 2, cmdOf 1 opDebugLock (msg 3 (0)),
      by decide +kernel⟩⟩

/-- Clause 7.1 of Obligations.TaskErrorDebugCommands: states that meet the hypotheses. -/
theorem witness_TaskErrorDebugCommands_5 :
  (∃ (b : Fin 8), ∃ (m : Msg), ∃ (s : State), ∃ (k : Taken), ∃ (es : List Entry), ∃ (w : Option BufStop × State),
    Taking s b opErrorRead m k ∧ s.logFrom (fld m 0 16) (fld m 2 16) = es ∧
    s.bufWrite (fld m 8 64) (es.flatMap Entry.bytes) = w ∧ w.1 = none) :=
    ⟨1, msg 3 (65535 + 5 * 2 ^ 16 + baseScratch * 2 ^ 64),
      { (taking r0 1 opErrorRead (msg 3 (65535 + 5 * 2 ^ 16 + baseScratch * 2 ^ 64))) with err := { log := [{ ent 1 1 with seq := 65535 }, { ent 2 2 with seq := 0 }] } },
      cmdOf 1 opErrorRead (msg 3 (65535 + 5 * 2 ^ 16 + baseScratch * 2 ^ 64)), [{ ent 1 1 with seq := 65535 },
      { ent 2 2 with seq := 0 }],
      (({ (taking r0 1 opErrorRead (msg 3 (65535 + 5 * 2 ^ 16 + baseScratch * 2 ^ 64))) with err := { log := [{ ent 1 1 with seq := 65535 }, { ent 2 2 with seq := 0 }] } } : State)).bufWrite baseScratch (([{ ent 1 1 with seq := 65535 },
      { ent 2 2 with seq := 0 }] : List Entry).flatMap Entry.bytes),
      by
    first | decide +kernel | ((repeat' first | apply And.intro | apply Prod.ext) <;> first | decide +kernel | with_reducible rfl | rfl)⟩

/-- Clause 7.2 of Obligations.TaskErrorDebugCommands: states that meet the hypotheses. -/
theorem witness_TaskErrorDebugCommands_6 :
  (∃ (b : Fin 8), ∃ (m : Msg), ∃ (s : State), ∃ (k : Taken), ∃ (es : List Entry), ∃ (w : Option BufStop × State), ∃ (d : Nat),
    Taking s b opErrorRead m k ∧ s.logFrom (fld m 0 16) (fld m 2 16) = es ∧
    s.bufWrite (fld m 8 64) (es.flatMap Entry.bytes) = w ∧ w.1 = some (.bad d)) :=
    ⟨1, msg 3 (65535 + 5 * 2 ^ 16 + (baseScratch - 8) * 2 ^ 64),
      { (taking r0 1 opErrorRead (msg 3 (65535 + 5 * 2 ^ 16 + (baseScratch - 8) * 2 ^ 64))) with err := { log := [{ ent 1 1 with seq := 65535 }, { ent 2 2 with seq := 0 }] } },
      cmdOf 1 opErrorRead (msg 3 (65535 + 5 * 2 ^ 16 + (baseScratch - 8) * 2 ^ 64)),
      [{ ent 1 1 with seq := 65535 }, { ent 2 2 with seq := 0 }], (some (.bad 0),
      { (taking r0 1 opErrorRead (msg 3 (65535 + 5 * 2 ^ 16 + (baseScratch - 8) * 2 ^ 64))) with err := { log := [{ ent 1 1 with seq := 65535 }, { ent 2 2 with seq := 0 }] } }),
      0,
      by
    first | decide +kernel | ((repeat' first | apply And.intro | apply Prod.ext) <;> first | decide +kernel | with_reducible rfl | rfl)⟩

/-- Clause 15.2 of Obligations.TaskErrorDebugCommands: states that meet the hypotheses. -/
theorem witness_TaskErrorDebugCommands_7 :
  (∃ (b : Fin 8), ∃ (m : Msg), ∃ (s : State), ∃ (k : Taken), ∃ (bs : List Byte), ∃ (u : State), ∃ (d : Nat),
    Taking s b opUnlock m k ∧ s.isSet F.SEC_LOCKS.DBG_DISABLE 0 = false ∧
    s.isSet F.SEC_DBG_STATUS.LOCKOUT 0 = false ∧ BufGives s (fld m 8 64) 128 bs u ∧ fld m 0 8 = d) :=
    ⟨1, msg 3 (3 + baseScratch * 2 ^ 64), taking r0 1 opUnlock (msg 3 (3 + baseScratch * 2 ^ 64)),
      cmdOf 1 opUnlock (msg 3 (3 + baseScratch * 2 ^ 64)), List.replicate 128 0,
      ((taking r0 1 opUnlock (msg 3 (3 + baseScratch * 2 ^ 64))).bufRead baseScratch 128).2, 3,
      by
    first | decide +kernel | ((repeat' first | apply And.intro | apply Prod.ext) <;> first | decide +kernel | with_reducible rfl | rfl)⟩

/-- Clauses 1, 2, 3, 4.1, 4.2, 4.3 of Obligations.InterruptSources: states that meet the hypotheses. -/
theorem witness_InterruptSources_1 :
  (∃ (n : Nat), ∃ (s : State),
    bitAt (s.get F.TC_IRQ_PEND.PEND n) 4 = true ∧ (s.core n).inInt = false) ∧
  (∃ (n : Fin 256), ∃ (s : State), ∃ (c : Core),
    s.core n.val = c ∧ bitAt (s.get F.TC_IRQ_PEND.PEND n.val) 4 = true ∧ c.inInt = false ∧ c.slot = 0 ∧
    c.task.isSome = true ∧ s.coreUp n.val = true ∧ s.coreHalted n.val = false ∧ c.haltReq = none ∧
    s.clReset.get 0 (n.val / 8) = 0 ∧ c.legalBoundary = true ∧ c.flight = []) ∧
  (∃ (n : Nat), ∃ (k : Nat), ∃ (s : State),
    s.nextSource n = some k ∧ k ≠ 4) ∧
  (∃ (n : Fin 256), ∃ (s : State),
    (s.core n.val).inInt = true) ∧
  (∃ (n : Fin 256), ∃ (s : State),
    bitAt (s.get F.TC_IRQ_PEND.PEND n.val) 4 = false ∧ (s.core n.val).statBit 0 = false) ∧
  (∃ (n : Fin 256), ∃ (s : State),
    (∀ k < 8, bitAt (s.get F.TC_IRQ_PEND.PEND n.val) k = false ∨ k ≠ 4 ∧ (s.core n.val).statBit (16 + k) = false)) :=
  ⟨
    ⟨0, (runningTask 0).put F.TC_IRQ_PEND.PEND 0 0x1F, by decide +kernel⟩,
    ⟨0, (runningTask 0).put F.TC_IRQ_PEND.PEND 0 0x1F, (runningTask 0).core 0, by decide +kernel⟩,
    ⟨0, 3, ((runningTask 0).put F.TC_IRQ_PEND.PEND 0 0xEF), by decide +kernel⟩,
    ⟨0, (r0.setCore 0 { task := some ⟨0, 0⟩, r := [(rStat, 0xFF0003)] }).put F.TC_IRQ_PEND.PEND 0 0xFF,
      by decide +kernel⟩,
    ⟨0, (r0.setCore 0 { task := some ⟨0, 0⟩, r := [(rStat, 0xFF0000)] }).put F.TC_IRQ_PEND.PEND 0 0xEF,
      by decide +kernel⟩,
    ⟨0, (r0.setCore 0 { task := some ⟨0, 0⟩, r := [(rStat, 0x0F0001)] }).put F.TC_IRQ_PEND.PEND 0 0xE0,
      by decide +kernel⟩⟩

/-- Obligations.EveryStepKeepsCanonicalForm: a state that meets the hypotheses. -/
theorem witness_EveryStepKeepsCanonicalForm_1 : ∃ s t : State, Canonical s ∧ step s = .next t :=
  ⟨{ r0 with pending := [.chamoisStimulus 3 5 true], store := { bytes := [(0x40, 1), (0x41, 2)] }, regs := [(2, 5), (7, 0)] },
    { r0 with store := { bytes := [(0x40, 1), (0x41, 2)] }, regs := [(2, 5), (7, 0)] }, by decide +kernel, rfl⟩

end Sys2Proof.Tests
end

namespace Sys2Proof.RunControl

open Sys2Proof.Machine Sys2Proof.Safety

/-- In HIBERNATE the register hub is off for an accessor, and its write to an owned register neither acts nor is recorded as a
violation (R382, R390). -/
theorem ownedWrite_of_asleep {s : State} {a : Accessor} (h : s.asleep a = true) (core : Nat) (r : RegRow) (elem : Nat)
    (act : Nat → State → State) : s.ownedWrite a core r elem act = s := by
  unfold State.ownedWrite
  rw [if_pos h]

/-- HALT of an accessor that finds the register hub off does nothing. -/
theorem exec_halt_of_asleep {s : State} {a : Accessor} (h : s.asleep a = true) : exec (.halt a) s = .next s :=
  congrArg Host.Outcome.next (ownedWrite_of_asleep h 0 R.DBG_CORE_CTRL 0 _)

/-- Every violation is counted (R17, R61), whether or not it is the one captured. -/
theorem reg_violationCount_violate (s : State) (off : Nat) (a : Accessor) :
    (s.violate off a).reg R.DEV_OWN_VIOL_CNT 0 = satAdd 32 (s.reg R.DEV_OWN_VIOL_CNT 0) 1 := by
  have hcount : (s.countReg R.DEV_OWN_VIOL_CNT 0 1).reg R.DEV_OWN_VIOL_CNT 0 = satAdd 32 (s.reg R.DEV_OWN_VIOL_CNT 0) 1 := by
    unfold State.countReg
    rw [State.reg_setReg_self]
    exact Nat.mod_eq_of_lt (by unfold satAdd; omega)
  simp only [State.violate]
  split
  · exact hcount
  · rw [State.reg_setReg_ne _ _ _ _ _ _ (by decide), hcount]

/-- The state of reset but for the power state: HIBERNATE has been entered, with no debugger attached. -/
def hibernating : State :=
  { power := { dev := some { target := 3, wakes := 0, lanes := 0, cmd := none, start := 0, entered := true } } }

/-- Refutes O54: its second clause has HALT, RESUME and STEP of every accessor but the debugger recorded as a violation, and
leaves out that the accessor must find the register hub on (`Awake`). In HIBERNATE the HALT of host 0 is lost without a record
(R382, R390), so the count of violations stays 0 where the clause has it 1. -/
theorem not_runControl : ¬ Obligations.RunControl := by
  unfold Obligations.RunControl
  rintro ⟨-, hviolates, -⟩
  obtain ⟨hhalt, -, -⟩ := hviolates .host0 hibernating 0 (by decide) (by decide) (by decide)
  have hlost : exec (.halt .host0) hibernating = .next hibernating := exec_halt_of_asleep (by decide)
  have hsame : hibernating = hibernating.violate R.DBG_CORE_CTRL.off .host0 :=
    Host.Outcome.next.inj (hlost.symm.trans hhalt)
  have hcount : hibernating.reg R.DEV_OWN_VIOL_CNT 0 = satAdd 32 (hibernating.reg R.DEV_OWN_VIOL_CNT 0) 1 := by
    rw [← reg_violationCount_violate hibernating R.DBG_CORE_CTRL.off .host0, ← hsame]
  exact absurd hcount (by decide)

end Sys2Proof.RunControl

namespace Sys2Proof.Machine

open Sys2Proof.Safety

/-! ### Fields of one register -/

/-- A register word with a field written: the bits above the field, the value, the bits below. -/
theorem bitsSet_eq (v lo w x : Nat) :
    bitsSet v lo w x = 2 ^ lo * (2 ^ w * (v / 2 ^ (lo + w)) + x % 2 ^ w) + v % 2 ^ lo := by
  unfold bitsSet bitsOf
  have hlow := Nat.div_add_mod v (2 ^ lo)
  have hfield := Nat.div_add_mod (v / 2 ^ lo) (2 ^ w)
  rw [Nat.div_div_eq_div_mul, ← Nat.pow_add] at hfield
  generalize v / 2 ^ (lo + w) = q at *
  generalize v / 2 ^ lo % 2 ^ w = r at *
  generalize v % 2 ^ lo = l at *
  have hv : v = 2 ^ lo * (2 ^ w * q) + r * 2 ^ lo + l := by rw [← hlow, ← hfield]; ring
  have hx : 2 ^ lo * (2 ^ w * q + x % 2 ^ w) = 2 ^ lo * (2 ^ w * q) + x % 2 ^ w * 2 ^ lo := by ring
  omega

/-- A write of a field changes the field's bits and no other. -/
theorem testBit_bitsSet (v lo w x k : Nat) :
    (bitsSet v lo w x).testBit k = if lo ≤ k ∧ k < lo + w then x.testBit (k - lo) else v.testBit k := by
  rw [bitsSet_eq, Nat.testBit_two_pow_mul_add _ (Nat.mod_lt _ (Nat.two_pow_pos lo))]
  by_cases hlow : k < lo
  · rw [if_pos hlow, if_neg (by omega), Nat.testBit_mod_two_pow]; simp [hlow]
  · rw [if_neg hlow, Nat.testBit_two_pow_mul_add _ (Nat.mod_lt _ (Nat.two_pow_pos w)), Nat.testBit_mod_two_pow]
    by_cases hin : k - lo < w
    · rw [if_pos hin, if_pos (by omega)]; simp [hin]
    · rw [if_neg hin, if_neg (by omega), Nat.testBit_div_two_pow]
      congr 1; omega

/-- A field reads as before where another field of its register is written. -/
theorem bitsOf_bitsSet_disjoint (v lo w x lo' w' : Nat) (h : lo' + w' ≤ lo ∨ lo + w ≤ lo') :
    bitsOf (bitsSet v lo w x) lo' w' = bitsOf v lo' w' := by
  unfold bitsOf
  refine Nat.eq_of_testBit_eq fun k => ?_
  rw [Nat.testBit_mod_two_pow, Nat.testBit_mod_two_pow, Nat.testBit_div_two_pow, Nat.testBit_div_two_pow, testBit_bitsSet]
  by_cases hk : k < w'
  · rw [if_neg (by omega)]
  · simp [hk]

/-- A field reads as before where another field of its register is put. -/
theorem State.get_put_disjoint (s : State) (f g : Fd) (i v : Nat) (hr : g.reg = f.reg) (hf : f.lo + f.width ≤ 32)
    (hd : g.lo + g.width ≤ f.lo ∨ f.lo + f.width ≤ g.lo) : (s.put f i v).get g i = s.get g i := by
  unfold State.get
  rw [hr, State.reg_put_self s f i v hf, bitsOf_bitsSet_disjoint _ _ _ _ _ _ hd]

theorem State.get_lt (s : State) (f : Fd) (i : Nat) : s.get f i < 2 ^ f.width := bitsOf_lt _ _ _

theorem State.isSet_put_one (s : State) (f : Fd) (i : Nat) (h : f.lo + f.width ≤ 32) (hw : f.width = 1) :
    (s.put f i 1).isSet f i = true := by
  unfold State.isSet
  rw [State.get_put_self _ _ _ _ h, hw]; rfl

/-! ### Registers that a change leaves alone -/

theorem State.get_setReg_ne (s : State) (f : Fd) (r : RegRow) (i j v : Nat) (h : regKey f.reg j ≠ regKey r i) :
    (s.setReg r i v).get f j = s.get f j := by unfold State.get; rw [State.reg_setReg_ne _ _ _ _ _ _ h]

/-- A register reads from the register file alone. -/
theorem State.reg_congr {s t : State} (h : t.regs = s.regs) (r : RegRow) (i : Nat) : t.reg r i = s.reg r i := by
  unfold State.reg; rw [h]

theorem State.get_congr {s t : State} (h : t.regs = s.regs) (f : Fd) (i : Nat) : t.get f i = s.get f i := by
  unfold State.get; rw [State.reg_congr h]

/-- Registers at different offsets have different keys. -/
theorem regKey_ne_of_off {r q : RegRow} {i j : Nat} (h : r.off ≠ q.off) (hi : i < 2 ^ 32) (hj : j < 2 ^ 32) :
    regKey r i ≠ regKey q j := by
  unfold regKey; omega


end Sys2Proof.Machine

namespace Sys2Proof.Safety

open Sys2Proof.Machine

theorem RegsKeep.refl (s : State) (ks : List Nat) : RegsKeep s s ks := fun _ _ _ => rfl

theorem RegsKeep.trans {s t u : State} {ks : List Nat} (h : RegsKeep s t ks) (h' : RegsKeep t u ks) : RegsKeep s u ks :=
  fun r i hk => (h' r i hk).trans (h r i hk)

theorem RegsKeep.mono {s t : State} {ks ks' : List Nat} (h : RegsKeep s t ks) (hs : ks ⊆ ks') : RegsKeep s t ks' :=
  fun r i hk => h r i (fun hm => hk (hs hm))

theorem RegsKeep.of_regs {s t u : State} {ks : List Nat} (h : RegsKeep s t ks) (hr : u.regs = t.regs) : RegsKeep s u ks :=
  fun r i hk => (State.reg_congr hr r i).trans (h r i hk)

theorem RegsKeep.setReg {s t : State} {ks : List Nat} (h : RegsKeep s t ks) {r : RegRow} {i : Nat} (v : Nat)
    (hm : regKey r i ∈ ks) : RegsKeep s (t.setReg r i v) ks := fun q j hq => by
  rw [State.reg_setReg_ne t r q i j v (fun e => hq (by rw [e]; exact hm)), h q j hq]

theorem RegsKeep.put {s t : State} {ks : List Nat} (h : RegsKeep s t ks) {f : Fd} {i : Nat} (v : Nat)
    (hm : regKey f.reg i ∈ ks) : RegsKeep s (t.put f i v) ks := h.setReg _ hm

theorem RegsKeep.get {s t : State} {ks : List Nat} (h : RegsKeep s t ks) {f : Fd} {i : Nat} (hk : regKey f.reg i ∉ ks) :
    t.get f i = s.get f i := by unfold State.get; rw [h f.reg i hk]

end Sys2Proof.Safety

/-! ### Registers of some rows kept

Operations that write many registers are shown to keep the rows another operation speaks of, by their offsets. -/

namespace Sys2Proof.Machine

/-- Every register at an offset of `P` reads in `t` as in `s`; no instance number reaches 2^32. -/
def KeepsRegs (P : Nat → Prop) (s t : State) : Prop := ∀ r i, P r.off → i < 2 ^ 32 → t.reg r i = s.reg r i

namespace KeepsRegs

variable {P : Nat → Prop} {s t u : State}

theorem refl (s : State) : KeepsRegs P s s := fun _ _ _ _ => rfl

theorem trans (h : KeepsRegs P s t) (h' : KeepsRegs P t u) : KeepsRegs P s u :=
  fun r i hr hi => (h' r i hr hi).trans (h r i hr hi)

theorem of_regs (h : KeepsRegs P s t) (hr : u.regs = t.regs) : KeepsRegs P s u :=
  fun r i hP hi => (State.reg_congr hr r i).trans (h r i hP hi)

theorem setReg (h : KeepsRegs P s t) {r : RegRow} {i : Nat} (v : Nat) (hr : ¬ P r.off) (hi : i < 2 ^ 32) :
    KeepsRegs P s (t.setReg r i v) := fun q j hq hj => by
  rw [State.reg_setReg_ne t r q i j v (regKey_ne_of_off (fun e => hr (e ▸ hq)) hj hi), h q j hq hj]

theorem put (h : KeepsRegs P s t) {f : Fd} {i : Nat} (v : Nat) (hr : ¬ P f.reg.off) (hi : i < 2 ^ 32) :
    KeepsRegs P s (t.put f i v) := h.setReg _ hr hi

theorem coreIrq (h : KeepsRegs P s t) {n : Nat} (k : Nat) (hr : ¬ P R.TC_IRQ_PEND.off) (hn : n < 2 ^ 32) :
    KeepsRegs P s (t.coreIrq n k) := h.put _ hr hn

theorem foldl {β : Type} {f : State → β → State} {l : List β} (hf : ∀ t, ∀ x ∈ l, KeepsRegs P t (f t x)) (s : State) :
    KeepsRegs P s (l.foldl f s) := by
  induction l generalizing s with
  | nil => exact refl s
  | cons x l ih =>
    exact (hf s x (by simp)).trans (ih (fun t y hy => hf t y (by simp [hy])) (f s x))

theorem get (h : KeepsRegs P s t) (f : Fd) {i : Nat} (hf : P f.reg.off) (hi : i < 2 ^ 32) : t.get f i = s.get f i := by
  unfold State.get; rw [h f.reg i hf hi]

end KeepsRegs

end Sys2Proof.Machine

namespace Sys2Proof.Mailboxes

open Sys2Proof.Machine Sys2Proof.Safety

/-! ### How a command row runs -/

theorem runTaken_eq {s : State} {b : Fin 8} {op : Nat} {m : Msg} {k : Taken} (h : Taking s b op m k)
    (body : Taken → State → State) : s.runTaken b op m body = body k s := by
  unfold State.runTaken; rw [h]

/-- A command whose body answers ends with that answer. -/
theorem runCmd_eq {s u : State} {b : Fin 8} {op st d : Nat} {m : Msg} {k : Taken} {p : Payload} {body : State → Answer}
    (h : Taking s b op m k) (hb : body s = { status := st, detail := d, payload := p, state := u }) :
    s.runCmd b op m body = u.finish k st d p := by
  unfold State.runCmd
  rw [runTaken_eq h]
  simp only [hb, Bool.false_eq_true, if_false]

/-- A command whose body waits leaves the body's state. -/
theorem runCmd_waits {s : State} {b : Fin 8} {op : Nat} {m : Msg} {k : Taken} {body : State → Answer}
    (h : Taking s b op m k) (hb : (body s).wait = true) : s.runCmd b op m body = (body s).state := by
  unfold State.runCmd
  rw [runTaken_eq h]
  exact if_pos hb

theorem ends_of_runCmd {c : Instr} {s u : State} {b : Fin 8} {op st d : Nat} {m : Msg} {k : Taken} {p : Payload}
    {body : State → Answer} {P : State → Prop} (h : Taking s b op m k) (he : exec c s = .next (s.runCmd b op m body))
    (hb : body s = { status := st, detail := d, payload := p, state := u }) (hP : P u) : Ends c s k st d p P :=
  ⟨u, by rw [he, runCmd_eq h hb], hP⟩

/-! ### Payload fields and their checks -/

/-- A field of a field. -/
theorem bitsOf_bitsOf (v lo w lo' w' : Nat) (h : lo' + w' ≤ w) :
    bitsOf (bitsOf v lo w) lo' w' = bitsOf v (lo + lo') w' := by
  unfold bitsOf
  refine Nat.eq_of_testBit_eq fun k => ?_
  simp only [Nat.testBit_mod_two_pow, Nat.testBit_div_two_pow]
  by_cases hk : k < w'
  · rw [decide_eq_true (show k + lo' < w by omega), Bool.true_and, show k + lo' + lo = k + (lo + lo') by omega]
  · simp [hk]

/-- Byte `k` of a 32-bit payload field. -/
theorem bitsOf_fld_byte (m : Msg) (o k : Nat) (h : k < 4) : bitsOf (fld m o 32) (8 * k) 8 = fld m (o + k) 8 := by
  unfold fld
  rw [bitsOf_bitsOf _ _ _ _ _ (by omega), show 8 * o + 8 * k = 8 * (o + k) by omega]

theorem fld_lt (m : Msg) (o w : Nat) : fld m o w < 2 ^ w := bitsOf_lt _ _ _

theorem firstBad_cons {o : Nat} {ok : Bool} {r : List (Nat × Bool)} (h : firstBad ((o, ok) :: r) = none) :
    ok = true ∧ firstBad r = none := by
  unfold firstBad at h
  cases ok with
  | true => exact ⟨rfl, h⟩
  | false => exact nomatch h

end Sys2Proof.Mailboxes

namespace Sys2Proof.Mailboxes

open Sys2Proof.Machine Sys2Proof.Safety

/-! ### What an answer leaves alone -/

/-- Offsets of the registers an answer may write: the response slots, the producer index, the mailbox's status, and the
interrupt of mailbox 6 to its core (R42, R59). -/
def answerRows : List Nat := [R.MBX_RSP_RING.off, R.MBX_RSP_PROD.off, R.MBX_STATUS.off, R.TC_IRQ_PEND.off]

/-- Registers an answer leaves as they are. -/
abbrev AnswerKeeps (s t : State) : Prop := KeepsRegs (· ∉ answerRows) s t

theorem mbxNotify_keeps (s : State) (b : Nat) : AnswerKeeps s (s.mbxNotify b) := by
  unfold State.mbxNotify
  split
  case isTrue =>
    split
    case h_5 =>
      refine KeepsRegs.coreIrq ?_ _ (by simp [answerRows]) (lt_trans (State.get_lt s F.MBX_CTRL.TARGET 6) (by decide))
      exact (KeepsRegs.refl s).of_regs rfl
    all_goals exact (KeepsRegs.refl s).of_regs rfl
  case isFalse => exact KeepsRegs.refl s

theorem rspPush_keeps (s : State) {b : Nat} (hb : b < 8) (ws : List Word) : AnswerKeeps s (s.rspPush b ws) := by
  have hslots : AnswerKeeps s (((ws.take 16).mapIdx (fun k w => (k, w))).foldl (fun t (x : Nat × Word) =>
      t.setReg R.MBX_RSP_RING (slotWord b (s.get F.MBX_RSP_PROD.INDEX b) x.1) x.2.toNat) s) := by
    refine KeepsRegs.foldl (fun t x hx => (KeepsRegs.refl t).setReg _ (by simp [answerRows]) ?_) s
    obtain ⟨k, hk, rfl⟩ := List.mem_mapIdx.mp hx
    have : k < 16 := lt_of_lt_of_le hk (List.length_take_le _ _)
    unfold slotWord; omega
  have hrest := (hslots.put (f := F.MBX_RSP_PROD.INDEX) (i := b) (s.get F.MBX_RSP_PROD.INDEX b + 1) (by simp [answerRows])
    (by omega)).put (f := F.MBX_STATUS.RSP_STALL) (i := b) (bit (decide (31 ≤ s.rspCount b))) (by simp [answerRows]) (by omega)
  unfold State.rspPush
  dsimp only
  split
  · exact hrest.trans (mbxNotify_keeps _ b)
  · exact hrest

theorem countInFlight_keeps (s : State) (b : Fin 8) : AnswerKeeps s (s.countInFlight b) :=
  (KeepsRegs.refl s).put _ (by simp [answerRows]) (by omega)

theorem answer_keeps (s : State) (b : Fin 8) (op : Nat) (m : Msg) (ver st d : Nat) (p : Payload) :
    AnswerKeeps s (s.answer b op m ver st d p) := by
  unfold State.answer State.rspGive
  split
  · exact rspPush_keeps s b.isLt _
  · exact (KeepsRegs.refl s).of_regs rfl

/-- The end of a command leaves every register alone but its mailbox's and the interrupt to mailbox 6's core. -/
theorem finish_keeps (s : State) (k : Taken) (st d : Nat) (p : Payload) : AnswerKeeps s (s.finish k st d p) := by
  unfold State.finish
  split
  · exact KeepsRegs.refl s
  case h_2 u _ =>
    refine KeepsRegs.trans ?_ (countInFlight_keeps _ _)
    split
    · exact (KeepsRegs.refl s).of_regs rfl
    · refine KeepsRegs.trans ?_ (answer_keeps _ _ _ _ _ _ _ _)
      exact (KeepsRegs.refl s).of_regs rfl

end Sys2Proof.Mailboxes

namespace Sys2Proof.Mailboxes

open Sys2Proof.Machine Sys2Proof.Safety

/-! ### Taking a request -/

/-- Firmware that serves takes the request of the mailbox whose turn it is (R44). -/
theorem exec_mailboxTakeRequest {s : State} {b : Fin 8} (hs : s.fwServes = true) (hb : s.nextBox = some b) :
    exec .mailboxTakeRequest s = .next (s.takeFrom b) := by
  change (if s.fwServes = true then _ else _) = _
  rw [if_pos hs, hb]

/-- Mailbox 0 has a session at version 1 and one request, UPDATE_COMMIT; nothing else has happened since reset. -/
def commitWaits : State :=
  ((((((State.reset.put F.MBX_STATUS.FW_READY 0 1).put F.MBX_STATUS.SESSION 0 1).put F.MBX_STATUS.VERSION 0 1).put
    F.MBX_DOORBELL.INDEX 0 1).setReg R.MBX_REQ_RING (slotWord 0 0 0) opCommit).setReg R.MBX_REQ_RING (slotWord 0 0 1) 0x100)

/-- Refutes O6: its first clause has the taking of a request that starts change no register but the mailbox's consumer index and
status. A request for UPDATE_COMMIT, as for the other update commands, also sets DEV_FW_STATE to 4 (R61; log 100), and one for
LANE_CONFIG the CFG_BUSY of its lanes (R100). -/
theorem not_requestsTakenAndAnswered : ¬ Obligations.RequestsTakenAndAnswered := by
  unfold Obligations.RequestsTakenAndAnswered
  rintro ⟨htake, -⟩
  have hserves : commitWaits.fwServes = true := by decide +kernel
  have hturn : commitWaits.nextBox = some 0 := by decide +kernel
  have hpasses : commitWaits.requestCheck 0 opCommit { tag := 0, ver := 1, len := 0, payload := 0 } = none := by decide +kernel
  have hslot : commitWaits.slotRequest 0 (commitWaits.get F.MBX_REQ_CONS.INDEX 0) =
      (opCommit, { tag := 0, ver := 1, len := 0, payload := 0 }) := by decide +kernel
  obtain ⟨t, hexec, -, -, hkeep⟩ := (htake commitWaits 0 _ _ hserves hturn hslot).1 hpasses
  obtain rfl : commitWaits.takeFrom 0 = t :=
    Host.Outcome.next.inj ((exec_mailboxTakeRequest hserves hturn).symm.trans hexec)
  have hsame : (commitWaits.takeFrom 0).reg R.DEV_FW_STATE 0 = commitWaits.reg R.DEV_FW_STATE 0 :=
    hkeep R.DEV_FW_STATE 0 (by decide)
  have hupdating : (commitWaits.takeFrom 0).reg R.DEV_FW_STATE 0 = 4 := by decide +kernel
  have hreset : commitWaits.reg R.DEV_FW_STATE 0 = 0 := by decide +kernel
  rw [hupdating, hreset] at hsame
  exact absurd hsame (by decide)

end Sys2Proof.Mailboxes

namespace Sys2Proof.Mailboxes

open Sys2Proof.Machine Sys2Proof.Safety

/-! ### HELLO, BYE and INFO -/

/-- The common version is the highest in both ranges (R51). -/
theorem commonVersion_highest {lo hi v : Nat} (hv : commonVersion lo hi = v) (h0 : v ≠ 0) :
    lo ≤ v ∧ v ≤ hi ∧ v ≤ 3 ∧ (v + 1 ≤ hi → v = 3) := by
  unfold commonVersion at hv
  split at hv <;> omega

/-- A HELLO outside a session is answered at once (R51). -/
theorem exec_hello_closed {b : Fin 8} {m : Msg} {s : State} {k : Taken} (hk : Taking s b opHello m k)
    (hs : s.isSet F.MBX_STATUS.SESSION b.val = false) : exec (.hello b m) s = .next (s.helloRun k) := by
  change Host.Outcome.next (s.runTaken b opHello m _) = _
  rw [runTaken_eq hk, if_neg (by rw [hs]; exact fun h => nomatch h.1)]

/-- The session of mailbox `i` open at version `v` (R50). -/
def openSession (s : State) (i v : Nat) : State := (s.put F.MBX_STATUS.SESSION i 1).put F.MBX_STATUS.VERSION i v

theorem openSession_onlyRegs (s : State) (i v : Nat) : OnlyRegs s (openSession s i v) [regKey R.MBX_STATUS i] :=
  ⟨rfl, ((RegsKeep.refl s _).put _ (by simp)).put _ (by simp)⟩

theorem isSet_session_openSession (s : State) (i v : Nat) : (openSession s i v).isSet F.MBX_STATUS.SESSION i = true := by
  rw [State.isSet, openSession, State.get_put_disjoint _ F.MBX_STATUS.VERSION F.MBX_STATUS.SESSION _ _ rfl (by decide) (by decide)]
  exact State.isSet_put_one s _ _ (by decide) rfl

theorem get_version_openSession (s : State) (i : Nat) {v : Nat} (h : v < 16) :
    (openSession s i v).get F.MBX_STATUS.VERSION i = v := by
  rw [openSession, State.get_put_self _ _ _ _ (by decide)]
  exact Nat.mod_eq_of_lt h

theorem hello_ends_none {b : Fin 8} {m : Msg} {s : State} {k : Taken} (hk : Taking s b opHello m k) (hm : k.msg = m)
    (hver : m.ver = 0) (hlo : 2 ≤ m.len.toNat) (hhi : m.len.toNat ≤ 56) (hs : s.isSet F.MBX_STATUS.SESSION b.val = false)
    (hv : commonVersion (fld m 0 8) (fld m 1 8) = 0) : Ends (.hello b m) s k stVersion 0 {} (fun u => u = s) := by
  refine ⟨s, ?_, rfl⟩
  rw [exec_hello_closed hk hs]
  subst hm
  simp only [State.helloRun, hv, hver, ne_eq, not_true, if_false, if_true]
  rw [if_neg (by omega)]

theorem hello_ends_common {b : Fin 8} {m : Msg} {s : State} {k : Taken} {v : Nat} (hk : Taking s b opHello m k) (hm : k.msg = m)
    (hver : m.ver = 0) (hlo : 2 ≤ m.len.toNat) (hhi : m.len.toNat ≤ 56) (hbox : k.box = b) (hd : k.discard = false)
    (hs : s.isSet F.MBX_STATUS.SESSION b.val = false) (hv : commonVersion (fld m 0 8) (fld m 1 8) = v) (h0 : v ≠ 0) :
    Ends (.hello b m) s k stOK 0 (pack 8 [(0, 8, v), (1, 8, 32), (4, 32, s.reg R.DEV_FW_VERSION 0)]) (fun u =>
      u.isSet F.MBX_STATUS.SESSION b.val = true ∧ u.get F.MBX_STATUS.VERSION b.val = v ∧
      OnlyRegs s u [regKey R.MBX_STATUS b.val]) := by
  have hmax : v ≤ 3 := (commonVersion_highest hv h0).2.2.1
  have hfw : (openSession s b.val v).reg R.DEV_FW_VERSION 0 = s.reg R.DEV_FW_VERSION 0 :=
    (openSession_onlyRegs s b.val v).2 _ _ (by simp [regKey]; omega)
  refine ⟨openSession s b.val v, ?_, isSet_session_openSession s _ v, get_version_openSession s _ (by omega),
    openSession_onlyRegs s _ v⟩
  rw [exec_hello_closed hk hs, ← hfw]
  subst hm hbox
  simp only [State.helloRun, hv, hver, hd, ne_eq, not_true, if_false, Bool.false_eq_true]
  rw [if_neg (by omega), if_neg h0]
  rfl

theorem bye_leads {b : Fin 8} {m : Msg} {s : State} {k : Taken} (hk : Taking s b opBye m k) (hd : k.discard = false) :
    Leads (.bye b m) s (fun t => t.get F.MBX_STATUS.SESSION b.val = 0 ∧ t.get F.MBX_STATUS.VERSION b.val = 0 ∧
      t = (s.finish k stOK 0 {}).endSession b.val) := by
  refine ⟨(s.finish k stOK 0 {}).endSession b.val, ?_, ?_, ?_, rfl⟩
  · change Host.Outcome.next (s.runTaken b opBye m _) = _
    rw [runTaken_eq hk]
    simp only [hd, Bool.false_eq_true, if_false]
  · rw [State.endSession, State.get_put_disjoint _ F.MBX_STATUS.VERSION F.MBX_STATUS.SESSION _ _ rfl (by decide) (by decide), State.get_put_self _ _ _ _ (by decide)]
    rfl
  · rw [State.endSession, State.get_put_self _ _ _ _ (by decide)]; rfl

theorem infoDevice_ends {b : Fin 8} {m : Msg} {s : State} {k : Taken} (hk : Taking s b opInfoDevice m k) :
    Ends (.infoDevice b m) s k stOK 0 (pack 32 [(0, 32, s.reg R.DEV_ID 0),
      (4, 32, s.reg R.DEV_REV 0), (8, 8, s.sec.life), (10, 16, s.sec.fuses.fw), (12, 16, s.sec.fuses.base),
      (16, 32, s.reg R.DEV_FW_VERSION 0), (20, 32, s.reg R.CFG_BASE_VERSION 0), (24, 64, Config.serial.toNat)])
      (fun u => u = s) :=
  ends_of_runCmd hk rfl rfl rfl

theorem infoSensors_ends {b : Fin 8} {m : Msg} {s : State} {k : Taken} (hk : Taking s b opInfoSensors m k) :
    if Config.sensorFault s.free = true then Ends (.infoSensors b m) s k stHw 0 {} (fun u => u = s.hwFault)
    else Ends (.infoSensors b m) s k stOK 0 (pack 24
      ((maskBits 4 (fld m 0 8)).flatMap (fun q => [(6 * q, 16, s.hotField (quadSensors q)),
        (6 * q + 2, 16, s.get F.GOV_Q_STATE.POWER q), (6 * q + 4, 16, s.paceMin q)])))
      (fun u => u = { s with free := s.free + 1 }) := by
  split
  case isTrue hf => exact ends_of_runCmd hk rfl (if_pos hf) rfl
  case isFalse hf => exact ends_of_runCmd hk rfl (if_neg hf) rfl

/-- Settles O7: HELLO opens the session at the common version, BYE ends it, and the two INFO commands read. -/
theorem infoCommands : Obligations.InfoCommands := by
  unfold Obligations.InfoCommands
  intro b m s k
  refine ⟨fun hk hm hver hlo hhi hbox hd hs => ⟨hello_ends_none hk hm hver hlo hhi hs, fun v => ?_⟩,
    fun _ _ _ => commonVersion_highest, bye_leads, infoDevice_ends, infoSensors_ends⟩
  exact hello_ends_common hk hm hver hlo hhi hbox hd hs

end Sys2Proof.Mailboxes

namespace Sys2Proof.Mailboxes

open Sys2Proof.Machine Sys2Proof.Safety

/-! ### POWER -/

/-- GOV_BUDGET takes a budget within its limits as it is (R404). -/
theorem govBudgetWrite_eq {s : State} {v : Nat} (hlo : 120 ≤ v) (hhi : v ≤ 480) :
    s.govBudgetWrite v = s.setReg R.GOV_BUDGET 0 v := by
  have hc : min 480 (max 120 (v % 512)) = v := by omega
  simp only [State.govBudgetWrite, hc]
  rw [if_pos (by omega)]

/-- GOV_SHARE takes shares that total 100 as they are (R404). -/
theorem govShareWrite_eq {s : State} {v : Nat}
    (h : bitsOf v 0 8 + bitsOf v 8 8 + bitsOf v 16 8 + bitsOf v 24 8 = 100) :
    s.govShareWrite v = s.setReg R.GOV_SHARE 0 (v % 2 ^ 32) := if_pos h

/-- The four shares of POWER_BUDGET_SET are the bytes of one word. -/
theorem shares_total {m : Msg} (h : fld m 2 8 + fld m 3 8 + fld m 4 8 + fld m 5 8 = 100) :
    bitsOf (fld m 2 32) 0 8 + bitsOf (fld m 2 32) 8 8 + bitsOf (fld m 2 32) 16 8 + bitsOf (fld m 2 32) 24 8 = 100 := by
  have h0 := bitsOf_fld_byte m 2 0 (by omega)
  have h1 := bitsOf_fld_byte m 2 1 (by omega)
  have h2 := bitsOf_fld_byte m 2 2 (by omega)
  have h3 := bitsOf_fld_byte m 2 3 (by omega)
  rw [h0, h1, h2, h3]; exact h

theorem powerBudgetSet_ends {b : Fin 8} {m : Msg} {s : State} {k : Taken} (hk : Taking s b opBudget m k)
    (hc : firstBad (s.fieldChecks opBudget m) = none) :
    Ends (.powerBudgetSet b m) s k stOK 0 (pack 2 [(0, 16, fld m 0 16)]) (fun u =>
      u.get F.GOV_BUDGET.W 0 = fld m 0 16 ∧ u.reg R.GOV_SHARE 0 = fld m 2 32 ∧
      OnlyRegs s u [regKey R.GOV_BUDGET 0, regKey R.GOV_SHARE 0]) := by
  obtain ⟨hbudget, hc⟩ := firstBad_cons hc
  obtain ⟨hshares, -⟩ := firstBad_cons hc
  simp only [within, Bool.and_eq_true, decide_eq_true_eq] at hbudget
  refine ends_of_runCmd hk rfl rfl ?_
  rw [govBudgetWrite_eq hbudget.1 hbudget.2, govShareWrite_eq (shares_total (beq_iff_eq.mp hshares))]
  refine ⟨?_, ?_, rfl, ((RegsKeep.refl s _).setReg _ (by simp)).setReg _ (by simp)⟩
  · rw [State.get, State.reg_setReg_ne _ _ _ _ _ _ (by decide), State.reg_setReg_self]
    simp only [bitsOf]; omega
  · have := fld_lt m 2 32
    rw [State.reg_setReg_self]; omega

/-- A write of GOV_TEMP_LIMITS takes limits in order and not above 105 °C as they are (R404). -/
theorem govLimitsWrite_eq {s : State} {v : Nat} (hhi : toSigned 12 (bitsOf v 16 12) ≤ 840)
    (hord : toSigned 12 (bitsOf v 0 12) < toSigned 12 (bitsOf v 16 12)) :
    s.govLimitsWrite v = s.writePlain R.GOV_TEMP_LIMITS 0 v := if_neg (by omega)

/-- GOV_TEMP_LIMITS after a write: the two limits replaced, each by its field of the value. -/
theorem reg_writePlain_tempLimits (s : State) (v : Nat) :
    (s.writePlain R.GOV_TEMP_LIMITS 0 v).reg R.GOV_TEMP_LIMITS 0 =
      bitsSet (bitsSet (s.reg R.GOV_TEMP_LIMITS 0) 0 12 (bitsOf v 0 12)) 16 12 (bitsOf v 16 12) := by
  refine (State.reg_setReg_self s _ _ _).trans (Nat.mod_eq_of_lt ?_)
  exact bitsSet_lt _ _ _ _ (by decide) (bitsSet_lt _ _ _ _ (by decide) (s.reg_lt _ _))

theorem get_writePlain_tempSoft (s : State) (v : Nat) :
    (s.writePlain R.GOV_TEMP_LIMITS 0 v).get F.GOV_TEMP_LIMITS.SOFT 0 = bitsOf v 0 12 := by
  rw [State.get, reg_writePlain_tempLimits, bitsOf_bitsSet_disjoint _ _ _ _ _ _ (by decide), bitsOf_bitsSet,
    Nat.mod_eq_of_lt (bitsOf_lt _ _ _)]

theorem get_writePlain_tempHard (s : State) (v : Nat) :
    (s.writePlain R.GOV_TEMP_LIMITS 0 v).get F.GOV_TEMP_LIMITS.HARD 0 = bitsOf v 16 12 := by
  rw [State.get, reg_writePlain_tempLimits, bitsOf_bitsSet, Nat.mod_eq_of_lt (bitsOf_lt _ _ _)]

/-- A temperature that 12 bits hold reads the same in 12 bits as in 16. -/
theorem toSigned_12_of_16 {x : Nat} (hlo : -2048 ≤ toSigned 16 x) (hhi : toSigned 16 x < 2048) :
    toSigned 12 (x % 2 ^ 12) = toSigned 16 x := by
  unfold toSigned at *
  split at hlo <;> split at hhi <;> split <;> omega

theorem powerThermalSet_ends {b : Fin 8} {m : Msg} {s : State} {k : Taken} (hk : Taking s b opThermal m k)
    (hc : firstBad (s.fieldChecks opThermal m) = none) :
    Ends (.powerThermalSet b m) s k stOK 0 {} (fun u => u.tempSoft = tempField m 0 ∧ u.tempHard = tempField m 2 ∧
      u.get F.GOV_HEAT_SCALE.SCALE 0 = fld m 4 16 ∧ OnlyRegs s u [regKey R.GOV_TEMP_LIMITS 0, regKey R.GOV_HEAT_SCALE 0]) := by
  obtain ⟨hsoft, hc⟩ := firstBad_cons hc
  obtain ⟨hhard, hc⟩ := firstBad_cons hc
  obtain ⟨hscale, -⟩ := firstBad_cons hc
  simp only [within, Bool.and_eq_true, decide_eq_true_eq] at hsoft hhard hscale
  obtain ⟨hmax, hord⟩ := hhard
  have h0 : toSigned 12 (fld m 0 16 % 2 ^ 12) = tempField m 0 := 
    toSigned_12_of_16 (by unfold tempField at *; omega) (by unfold tempField at *; omega)
  have h2 : toSigned 12 (fld m 2 16 % 2 ^ 12) = tempField m 2 :=
    toSigned_12_of_16 (by unfold tempField at *; omega) (by unfold tempField at *; omega)
  have hlow : bitsOf (fld m 0 16 % 2 ^ 12 + fld m 2 16 % 2 ^ 12 * 2 ^ 16) 0 12 = fld m 0 16 % 2 ^ 12 := by
    unfold bitsOf; omega
  have hhigh : bitsOf (fld m 0 16 % 2 ^ 12 + fld m 2 16 % 2 ^ 12 * 2 ^ 16) 16 12 = fld m 2 16 % 2 ^ 12 := by
    unfold bitsOf; omega
  refine ends_of_runCmd hk rfl rfl ?_
  rw [govLimitsWrite_eq (by rw [hhigh, h2]; exact hmax) (by rw [hlow, hhigh, h0, h2]; exact hord)]
  refine ⟨?_, ?_, ?_, rfl, ((RegsKeep.refl s _).setReg _ (by simp)).put _ (by simp)⟩
  · rw [State.tempSoft, State.get_put_ne _ _ _ _ _ _ (by decide), get_writePlain_tempSoft, hlow, h0]
  · rw [State.tempHard, State.get_put_ne _ _ _ _ _ _ (by decide), get_writePlain_tempHard, hhigh, h2]
  · rw [State.get_put_self _ _ _ _ (by decide)]
    exact Nat.mod_eq_of_lt (by change _ < 2048; omega)

theorem powerRead_ends {b : Fin 8} {m : Msg} {s : State} {k : Taken} (hk : Taking s b opPowerRead m k) :
    Ends (.powerRead b m) s k stOK 0 (pack 16 [(0, 32, s.get F.GOV_POWER.MW 0), (4, 16, s.reg R.GOV_BUDGET 0),
      (14, 16, s.hotField (List.range 64)), (6, 16, s.vset 0), (8, 16, s.vset 1), (10, 16, s.vset 2), (12, 16, s.vset 3)])
      (fun u => u.regs = s.regs) :=
  ends_of_runCmd hk rfl rfl rfl

/-- Settles O8: each command's body writes what its checks let through as it stands, and reads the rest. -/
theorem powerSettingsCommands : Obligations.PowerSettingsCommands := by
  unfold Obligations.PowerSettingsCommands
  exact fun b m s k => ⟨powerBudgetSet_ends, powerThermalSet_ends, powerRead_ends⟩
end Sys2Proof.Mailboxes

namespace Sys2Proof.Mailboxes

open Sys2Proof.Machine Sys2Proof.Safety

/-! ### Registers of a mailbox -/

/-- Waking a block's clock touches its wake counter and what is gated, and no more (R415). -/
theorem ungate_hubKeep (s : State) (blk : Nat) : HubKeep s (s.ungate blk) [] := by
  unfold State.ungate
  split
  case isTrue => exact ⟨(RegsKeep.refl s _).setReg _ (by simp) , rfl⟩
  case isFalse => exact ⟨RegsKeep.refl s _, rfl⟩

/-- An owner's write of one of its mailbox's registers acts (R39). -/
theorem ownedWrite_mbx {acc : Accessor} {b : Fin 8} {s : State} (ha : Awake s acc) (ho : OwnsBox acc b) {r : RegRow}
    (hsel : r.sel = .mbx) (hoff : r.off ≠ R.MBX_REQ_RING.off ∧ r.off ≠ R.MBX_RSP_RING.off) (act : Nat → State → State) :
    s.ownedWrite acc 0 r b.val act = act b.val (s.ungate (r.off / 0x100000)) := by
  have hmay : ∀ t : State, t.mayWrite acc r b.val = true := fun t => by
    unfold State.mayWrite
    rw [if_pos hsel, if_neg (by rintro (h | h); exacts [hoff.1 h, hoff.2 h])]
    rcases ho with rfl | rfl
    · rfl
    · simp
  have hinst : ∀ t : State, t.instOf acc 0 r b.val = some b.val := fun t => if_pos hsel
  have hopen : ∀ t : State, t.dbgBlocked acc r = false := fun t => by
    unfold State.dbgBlocked; rw [hsel]; simp
  have hnear : ∀ t : State, t.regAway r b.val = false := fun t => by
    unfold State.regAway regDomain; rw [hsel]
  unfold State.ownedWrite
  simp only [ha, hinst, hopen, hmay, hnear, Bool.false_eq_true, if_false, if_true]

theorem devOwnViolClear_leads {acc : Accessor} {s : State} (h : Reaches s acc) :
    Leads (.devOwnViolClear acc) s (fun t => t.reg R.DEV_OWN_VIOL 0 = 0 ∧ OnlyRegs s t [regKey R.DEV_OWN_VIOL 0]) := by
  obtain ⟨hdbg, hawake⟩ := h
  refine ⟨s.clearViolation, ?_, State.reg_setReg_self _ _ _ _, rfl, (RegsKeep.refl s _).setReg _ (by simp)⟩
  have hopen : s.dbgBlocked acc R.DEV_OWN_VIOL = false := by
    unfold State.dbgBlocked
    by_cases hacc : acc = .debugger
    · simp [hdbg hacc]
    · simp [hacc]
  change Host.Outcome.next (if _ then _ else _) = _
  rw [hopen, hawake]
  rfl

section
variable {acc : Accessor} {b : Fin 8} {s : State} (ha : Awake s acc) (ho : OwnsBox acc b)
include ha ho

theorem exec_mbxDoorbell (idx : BitVec 8) :
    exec (.mbxDoorbell acc b idx) s = .next ((s.ungate 1).doorbell b.val idx.toNat) :=
  congrArg Host.Outcome.next (ownedWrite_mbx ha ho rfl (by decide) _)

theorem exec_mbxRspConsWrite (idx : BitVec 8) :
    exec (.mbxRspConsWrite acc b idx) s = .next ((s.ungate 1).rspCons b idx.toNat) :=
  congrArg Host.Outcome.next (ownedWrite_mbx ha ho rfl (by decide) _)

theorem exec_mbxReset : exec (.mbxReset acc b) s = .next ((s.ungate 1).mbxReset b) :=
  congrArg Host.Outcome.next (ownedWrite_mbx ha ho rfl (by decide) _)
end

/-- A register of a mailbox reads the same once the clock of the block runs. -/
theorem get_ungate (s : State) (blk : Nat) (f : Fd) (i : Nat) (h : regKey f.reg i ≠ regKey R.CLK_GATE_WAKES 0) :
    (s.ungate blk).get f i = s.get f i :=
  (ungate_hubKeep s blk).1.get (by simpa using h)

theorem reqCons_ungate (s : State) (b : Fin 8) :
    (s.ungate 1).get F.MBX_REQ_CONS.INDEX b.val = s.get F.MBX_REQ_CONS.INDEX b.val :=
  get_ungate _ _ _ _ (by simp [regKey]; omega)

/-! ### The doorbell -/

theorem doorbell_takes {s : State} {b : Fin 8} {idx : BitVec 8}
    (h : (idx.toNat + 256 - s.get F.MBX_REQ_CONS.INDEX b.val) % 256 ≤ 32) :
    s.doorbell b.val idx.toNat = s.setReg R.MBX_DOORBELL b.val idx.toNat := by
  have hidx : idx.toNat % 256 = idx.toNat := Nat.mod_eq_of_lt idx.isLt
  unfold State.doorbell
  rw [hidx, if_neg (by omega)]

theorem doorbell_refuses {s : State} {b : Fin 8} {idx : BitVec 8}
    (h : 32 < (idx.toNat + 256 - s.get F.MBX_REQ_CONS.INDEX b.val) % 256) :
    s.doorbell b.val idx.toNat = s.put F.MBX_STATUS.OVERRUN b.val 1 := by
  have hidx : idx.toNat % 256 = idx.toNat := Nat.mod_eq_of_lt idx.isLt
  unfold State.doorbell
  rw [hidx, if_pos h]

/-- A write of one register behind the hub. -/
theorem HubKeep_setReg (s : State) (blk : Nat) (r : RegRow) (i v : Nat) :
    HubKeep s ((s.ungate blk).setReg r i v) [regKey r i] := by
  obtain ⟨hregs, hrest⟩ := ungate_hubKeep s blk
  refine ⟨(hregs.mono (by simp)).setReg _ (by simp), ?_⟩
  rw [State.setReg, hrest]

theorem mbxDoorbell_takes {acc : Accessor} {b : Fin 8} {s : State} (ha : Awake s acc) (ho : OwnsBox acc b) {idx : BitVec 8}
    (h : (idx.toNat + 256 - s.get F.MBX_REQ_CONS.INDEX b.val) % 256 ≤ 32) :
    Leads (.mbxDoorbell acc b idx) s (fun t => t.get F.MBX_DOORBELL.INDEX b.val = idx.toNat ∧
      HubKeep s t [regKey R.MBX_DOORBELL b.val]) := by
  refine ⟨_, exec_mbxDoorbell ha ho idx, ?_⟩
  rw [doorbell_takes (by rw [reqCons_ungate]; exact h)]
  refine ⟨?_, HubKeep_setReg _ _ _ _ _⟩
  have := idx.isLt
  rw [State.get, State.reg_setReg_self]
  simp only [bitsOf]; omega

theorem mbxDoorbell_refuses {acc : Accessor} {b : Fin 8} {s : State} (ha : Awake s acc) (ho : OwnsBox acc b) {idx : BitVec 8}
    (h : 32 < (idx.toNat + 256 - s.get F.MBX_REQ_CONS.INDEX b.val) % 256) :
    Leads (.mbxDoorbell acc b idx) s (fun t => t.isSet F.MBX_STATUS.OVERRUN b.val = true ∧
      HubKeep s t [regKey R.MBX_STATUS b.val]) := by
  refine ⟨_, exec_mbxDoorbell ha ho idx, ?_⟩
  rw [doorbell_refuses (by rw [reqCons_ungate]; exact h)]
  exact ⟨State.isSet_put_one _ _ _ (by decide) rfl, HubKeep_setReg _ _ _ _ _⟩

/-! ### The response consumer index -/

@[simp] theorem ungate_mbx (s : State) (blk : Nat) : (s.ungate blk).mbx = s.mbx := by
  unfold State.ungate; split <;> rfl

@[simp] theorem ungate_out (s : State) (blk : Nat) : (s.ungate blk).out = s.out := by
  unfold State.ungate; split <;> rfl

/-- The consumer index written and notification armed again (R60). -/
def rearmed (s : State) (b : Fin 8) (idx : Nat) : State :=
  { s.put F.MBX_RSP_CONS.INDEX b.val idx with mbx := { s.mbx with notified := s.mbx.notified.set false b.val false } }

theorem rearmed_regsKeep (s : State) (b : Fin 8) (idx : Nat) : RegsKeep s (rearmed s b idx) [regKey R.MBX_RSP_CONS b.val] :=
  (RegsKeep.refl s _).put (f := F.MBX_RSP_CONS.INDEX) idx (by simp)

theorem get_rspCons_rearmed (s : State) (b : Fin 8) (idx : BitVec 8) :
    (rearmed s b idx.toNat).get F.MBX_RSP_CONS.INDEX b.val = idx.toNat :=
  (State.get_put_self s F.MBX_RSP_CONS.INDEX _ _ (by decide)).trans (Nat.mod_eq_of_lt idx.isLt)

/-- A notification changes no response that waits. -/
theorem mbxNotify_rspWait (s : State) (i : Nat) : (s.mbxNotify i).mbx.rspWait = s.mbx.rspWait := by
  unfold State.mbxNotify
  split
  case isTrue => split <;> rfl
  case isFalse => rfl

theorem rspDrain_nil {s : State} (h : s.mbx.rspWait = []) (b : Fin 8) (n : Nat) : s.rspDrain b n = s := by
  cases n with
  | zero => rfl
  | succ n => simp [State.rspDrain, h]

/-- Status after a write of the consumer index with no response waiting: RSP_STALL and IN_FLIGHT follow (R60, R62). -/
def consStatus (s : State) (b : Fin 8) : State :=
  (s.put F.MBX_STATUS.RSP_STALL b.val (bit (decide (32 ≤ s.rspCount b.val)))).countInFlight b

theorem consStatus_regsKeep (s : State) (b : Fin 8) : RegsKeep s (consStatus s b) [regKey R.MBX_STATUS b.val] :=
  ((RegsKeep.refl s _).put _ (by simp)).put _ (by simp)

theorem get_rspCons_consStatus (s : State) (b : Fin 8) :
    (consStatus s b).get F.MBX_RSP_CONS.INDEX b.val = s.get F.MBX_RSP_CONS.INDEX b.val :=
  (consStatus_regsKeep s b).get (by simp [regKey])

/-- What a write of the consumer index does where no response waits for a slot (R60). -/
theorem rspCons_eq {s : State} (h : s.mbx.rspWait = []) (b : Fin 8) (idx : Nat) :
    s.rspCons b idx = consStatus (if (rearmed s b idx).get F.MBX_RSP_PROD.INDEX b.val = idx % 256 then rearmed s b idx
      else (rearmed s b idx).mbxNotify b.val) b := by
  have hwait : (if (rearmed s b idx).get F.MBX_RSP_PROD.INDEX b.val = idx % 256 then rearmed s b idx
      else (rearmed s b idx).mbxNotify b.val).mbx.rspWait = [] := by
    split
    · exact h
    · rw [mbxNotify_rspWait]; exact h
  exact congrArg (fun t => State.countInFlight t b) (rspDrain_nil (s := State.put _ _ _ _) hwait b 32)

/-- Registers of the mailbox read behind the hub as before, but for the consumer index. -/
theorem get_rearmed_ungate {s : State} {b : Fin 8} {f : Fd} (idx : Nat) (hcons : regKey f.reg b.val ≠ regKey R.MBX_RSP_CONS b.val)
    (hwakes : regKey f.reg b.val ≠ regKey R.CLK_GATE_WAKES 0) :
    (rearmed (s.ungate 1) b idx).get f b.val = s.get f b.val := by
  rw [(rearmed_regsKeep _ b idx).get (by simpa using hcons), get_ungate _ _ _ _ hwakes]

section
variable {acc : Accessor} {b : Fin 8} {s : State} (ha : Awake s acc) (ho : OwnsBox acc b) (hwait : s.mbx.rspWait = [])
include ha ho hwait

theorem mbxRspConsWrite_silent {idx : BitVec 8} (hirq : s.isSet F.MBX_CTRL.IRQ_EN b.val = false) :
    Leads (.mbxRspConsWrite acc b idx) s (fun t => t.get F.MBX_RSP_CONS.INDEX b.val = idx.toNat ∧
      t.mbx.notified.get false b.val = false ∧
      RegsKeep s t [regKey R.CLK_GATE_WAKES 0, regKey R.MBX_RSP_CONS b.val, regKey R.MBX_STATUS b.val]) := by
  have hoff : (rearmed (s.ungate 1) b idx.toNat).isSet F.MBX_CTRL.IRQ_EN b.val = false := by
    rw [← hirq, State.isSet, State.isSet, get_rearmed_ungate _ (by simp [regKey]) (by simp [regKey]; omega)]
  have hquiet : (rearmed (s.ungate 1) b idx.toNat).mbxNotify b.val = rearmed (s.ungate 1) b idx.toNat := by
    unfold State.mbxNotify; rw [hoff]; rfl
  refine ⟨_, exec_mbxRspConsWrite ha ho idx, ?_⟩
  rw [rspCons_eq (by rw [ungate_mbx]; exact hwait), hquiet, ite_self]
  refine ⟨(get_rspCons_consStatus _ b).trans (get_rspCons_rearmed _ b idx), SMap.get_set_self (s.ungate 1).mbx.notified false b.val false, ?_⟩
  exact (((ungate_hubKeep s 1).1.mono (by simp)).trans ((rearmed_regsKeep _ b _).mono (by simp))).trans
    ((consStatus_regsKeep _ b).mono (by simp))

theorem mbxRspConsWrite_notifies {idx : BitVec 8} (hb : b.val = 1) (hirq : s.isSet F.MBX_CTRL.IRQ_EN b.val = true)
    (hleft : s.get F.MBX_RSP_PROD.INDEX b.val ≠ idx.toNat) :
    Leads (.mbxRspConsWrite acc b idx) s (fun t => t.get F.MBX_RSP_CONS.INDEX b.val = idx.toNat ∧
      t.out.msix = (0, 1) :: s.out.msix) := by
  have hon : (rearmed (s.ungate 1) b idx.toNat).isSet F.MBX_CTRL.IRQ_EN b.val = true := by
    rw [← hirq, State.isSet, State.isSet, get_rearmed_ungate _ (by simp [regKey]) (by simp [regKey]; omega)]
  have hprod : (rearmed (s.ungate 1) b idx.toNat).get F.MBX_RSP_PROD.INDEX b.val ≠ idx.toNat % 256 := by
    rw [get_rearmed_ungate _ (by simp [regKey]) (by simp [regKey]; omega), Nat.mod_eq_of_lt idx.isLt]
    exact hleft
  refine ⟨_, exec_mbxRspConsWrite ha ho idx, ?_⟩
  rw [rspCons_eq (by rw [ungate_mbx]; exact hwait), if_neg hprod]
  have hnotify : (rearmed (s.ungate 1) b idx.toNat).mbxNotify b.val = State.msix { rearmed (s.ungate 1) b idx.toNat with
      mbx := { (rearmed (s.ungate 1) b idx.toNat).mbx with
        notified := (rearmed (s.ungate 1) b idx.toNat).mbx.notified.set false b.val true } } 0 1 := by
    unfold State.mbxNotify; rw [hon, hb]; rfl
  rw [hnotify]
  exact ⟨(get_rspCons_consStatus _ b).trans (get_rspCons_rearmed _ b idx), congrArg (fun o : Out => (0, 1) :: o.msix) (ungate_out s 1)⟩
end

/-! ### The mailbox reset -/

/-- The four indices of mailbox `i` at zero. -/
def zeroIndices (s : State) (i : Nat) : State :=
  (((s.setReg R.MBX_DOORBELL i 0).setReg R.MBX_REQ_CONS i 0).setReg R.MBX_RSP_PROD i 0).setReg R.MBX_RSP_CONS i 0

/-- Keys of the four indices of mailbox `i`. -/
def indexKeys (i : Nat) : List Nat :=
  [regKey R.MBX_DOORBELL i, regKey R.MBX_REQ_CONS i, regKey R.MBX_RSP_PROD i, regKey R.MBX_RSP_CONS i]

theorem zeroIndices_regsKeep (s : State) (i : Nat) : RegsKeep s (zeroIndices s i) (indexKeys i) :=
  ((((RegsKeep.refl s _).setReg _ (by simp [indexKeys])).setReg _ (by simp [indexKeys])).setReg _ (by simp [indexKeys])).setReg _
    (by simp [indexKeys])

theorem reg_zeroIndices (s : State) (i : Nat) : (zeroIndices s i).reg R.MBX_DOORBELL i = 0 ∧
    (zeroIndices s i).reg R.MBX_REQ_CONS i = 0 ∧ (zeroIndices s i).reg R.MBX_RSP_PROD i = 0 ∧
    (zeroIndices s i).reg R.MBX_RSP_CONS i = 0 := by
  unfold zeroIndices
  refine ⟨?_, ?_, ?_, State.reg_setReg_self _ _ _ _⟩
  · rw [State.reg_setReg_ne _ _ _ _ _ _ (by simp [regKey]), State.reg_setReg_ne _ _ _ _ _ _ (by simp [regKey]),
      State.reg_setReg_ne _ _ _ _ _ _ (by simp [regKey]), State.reg_setReg_self, Nat.zero_mod]
  · rw [State.reg_setReg_ne _ _ _ _ _ _ (by simp [regKey]), State.reg_setReg_ne _ _ _ _ _ _ (by simp [regKey]),
      State.reg_setReg_self, Nat.zero_mod]
  · rw [State.reg_setReg_ne _ _ _ _ _ _ (by simp [regKey]), State.reg_setReg_self, Nat.zero_mod]

/-- The status of mailbox `i` with OVERRUN and RSP_STALL clear and `n` commands in flight. -/
def clearStatus (s : State) (i n : Nat) : State :=
  ((s.put F.MBX_STATUS.OVERRUN i 0).put F.MBX_STATUS.RSP_STALL i 0).put F.MBX_STATUS.IN_FLIGHT i n

theorem clearStatus_regsKeep (s : State) (i n : Nat) : RegsKeep s (clearStatus s i n) [regKey R.MBX_STATUS i] :=
  (((RegsKeep.refl s _).put _ (by simp)).put _ (by simp)).put _ (by simp)

/-- A field of the status below OVERRUN is as before. -/
theorem get_clearStatus_low (s : State) (i n : Nat) {f : Fd} (hr : f.reg = R.MBX_STATUS) (h : f.lo + f.width ≤ 8) :
    (clearStatus s i n).get f i = s.get f i := by
  have below : ∀ (g : Fd) (t : State) (v : Nat), g.reg = R.MBX_STATUS → 8 ≤ g.lo → g.lo + g.width ≤ 32 →
      (t.put g i v).get f i = t.get f i := fun g t v hg hlo hhi =>
    State.get_put_disjoint t g f i v (hr.trans hg.symm) hhi (.inl (h.trans hlo))
  unfold clearStatus
  rw [below _ _ _ rfl (by decide) (by decide), below _ _ _ rfl (by decide) (by decide), below _ _ _ rfl (by decide) (by decide)]

theorem get_clearStatus_overrun (s : State) (i n : Nat) : (clearStatus s i n).get F.MBX_STATUS.OVERRUN i = 0 := by
  unfold clearStatus
  rw [State.get_put_disjoint _ F.MBX_STATUS.IN_FLIGHT F.MBX_STATUS.OVERRUN _ _ rfl (by decide) (by decide),
    State.get_put_disjoint _ F.MBX_STATUS.RSP_STALL F.MBX_STATUS.OVERRUN _ _ rfl (by decide) (by decide),
    State.get_put_self _ _ _ _ (by decide)]
  rfl

theorem get_clearStatus_rspStall (s : State) (i n : Nat) : (clearStatus s i n).get F.MBX_STATUS.RSP_STALL i = 0 := by
  unfold clearStatus
  rw [State.get_put_disjoint _ F.MBX_STATUS.IN_FLIGHT F.MBX_STATUS.RSP_STALL _ _ rfl (by decide) (by decide),
    State.get_put_self _ _ _ _ (by decide)]
  rfl

theorem endSession_regsKeep (s : State) (i : Nat) : RegsKeep s (s.endSession i) [regKey R.MBX_STATUS i] :=
  ((RegsKeep.refl s _).put _ (by simp)).put _ (by simp)

theorem get_session_endSession (s : State) (i : Nat) : (s.endSession i).get F.MBX_STATUS.SESSION i = 0 := by
  rw [State.endSession, State.get_put_disjoint _ F.MBX_STATUS.VERSION F.MBX_STATUS.SESSION _ _ rfl (by decide) (by decide),
    State.get_put_self _ _ _ _ (by decide)]
  rfl

theorem get_version_endSession (s : State) (i : Nat) : (s.endSession i).get F.MBX_STATUS.VERSION i = 0 := by
  rw [State.endSession, State.get_put_self _ _ _ _ (by decide)]; rfl

/-- Commands in flight after the reset of mailbox `b`: those taken go on, and no response of it waits (R46, R62). -/
def resetInFlight (s : State) (b : Fin 8) : Nat :=
  ((s.mbx.started.map (fun t => if t.box = b then { t with discard := true } else t)).filter (fun t => t.box == b)).length +
    ((s.mbx.rspWait.filter (fun r => r.box != b)).filter (fun r => r.box == b)).length

/-- The registers after a mailbox reset. -/
theorem mbxReset_regs (s : State) (b : Fin 8) :
    (s.mbxReset b).regs = (clearStatus (zeroIndices (s.endSession b.val) b.val) b.val (resetInFlight s b)).regs := rfl

theorem mbxReset_regsKeep (s : State) (b : Fin 8) :
    RegsKeep s (s.mbxReset b) (regKey R.MBX_STATUS b.val :: indexKeys b.val) :=
  ((((endSession_regsKeep s _).mono (by simp)).trans ((zeroIndices_regsKeep _ _).mono (by simp))).trans
    ((clearStatus_regsKeep _ _ _).mono (by simp))).of_regs (mbxReset_regs s b)

/-- The session and its version read 0 after a mailbox reset (R46). -/
theorem get_mbxReset_low (s : State) (b : Fin 8) {f : Fd} (hr : f.reg = R.MBX_STATUS) (h : f.lo + f.width ≤ 8) :
    (s.mbxReset b).get f b.val = (s.endSession b.val).get f b.val := by
  rw [State.get_congr (mbxReset_regs s b), get_clearStatus_low _ _ _ hr h]
  exact (zeroIndices_regsKeep _ _).get (by rw [hr]; simp [indexKeys, regKey])

/-- The indices read 0 after a mailbox reset (R46). -/
theorem reg_mbxReset_index (s : State) (b : Fin 8) {r : RegRow} (hr : r.off ≠ R.MBX_STATUS.off)
    (h0 : (zeroIndices (s.endSession b.val) b.val).reg r b.val = 0) : (s.mbxReset b).reg r b.val = 0 := by
  rw [State.reg_congr (mbxReset_regs s b), clearStatus_regsKeep _ _ _ _ _ (by
    simpa using regKey_ne_of_off hr (show b.val < 2 ^ 32 by omega) (show b.val < 2 ^ 32 by omega)), h0]

/-- Commands already taken run on, their responses to be discarded (R46). -/
theorem mbxReset_discards (s : State) (b : Fin 8) : ∀ k ∈ (s.mbxReset b).mbx.started, k.box = b → k.discard = true := by
  intro k hk hbox
  obtain ⟨t, -, rfl⟩ := List.mem_map.mp hk
  by_cases ht : t.box = b
  · rw [if_pos ht]
  · rw [if_neg ht] at hbox; exact absurd hbox ht

theorem mbxReset_leads {acc : Accessor} {b : Fin 8} {s : State} (ha : Awake s acc) (ho : OwnsBox acc b) :
    Leads (.mbxReset acc b) s (fun t => t.get F.MBX_STATUS.SESSION b.val = 0 ∧ t.get F.MBX_STATUS.VERSION b.val = 0 ∧
      t.get F.MBX_STATUS.OVERRUN b.val = 0 ∧ t.get F.MBX_STATUS.RSP_STALL b.val = 0 ∧
      t.reg R.MBX_DOORBELL b.val = 0 ∧ t.reg R.MBX_REQ_CONS b.val = 0 ∧ t.reg R.MBX_RSP_PROD b.val = 0 ∧
      t.reg R.MBX_RSP_CONS b.val = 0 ∧ (∀ k ∈ t.mbx.started, k.box = b → k.discard = true) ∧
      t.mbx.started.length = s.mbx.started.length ∧ (∀ w ∈ t.mbx.rspWait, w.box ≠ b) ∧
      RegsKeep s t [regKey R.CLK_GATE_WAKES 0, regKey R.MBX_STATUS b.val, regKey R.MBX_DOORBELL b.val,
        regKey R.MBX_REQ_CONS b.val, regKey R.MBX_RSP_PROD b.val, regKey R.MBX_RSP_CONS b.val]) := by
  obtain ⟨hdoor, hcons, hprod, hrsp⟩ := reg_zeroIndices ((s.ungate 1).endSession b.val) b.val
  refine ⟨_, exec_mbxReset ha ho, ?_, ?_, ?_, ?_, reg_mbxReset_index _ _ (by decide) hdoor,
    reg_mbxReset_index _ _ (by decide) hcons, reg_mbxReset_index _ _ (by decide) hprod, reg_mbxReset_index _ _ (by decide) hrsp,
    mbxReset_discards _ b, ?_, ?_, ?_⟩
  · rw [get_mbxReset_low _ _ rfl (by decide), get_session_endSession]
  · rw [get_mbxReset_low _ _ rfl (by decide), get_version_endSession]
  · rw [State.get_congr (mbxReset_regs _ b), get_clearStatus_overrun]
  · rw [State.get_congr (mbxReset_regs _ b), get_clearStatus_rspStall]
  · exact (List.length_map _).trans (by rw [State.endSession]; simp)
  · intro w hw
    simpa using (List.mem_filter.mp hw).2
  · exact ((ungate_hubKeep s 1).1.mono (by simp)).trans ((mbxReset_regsKeep _ b).mono (by simp [indexKeys]))

/-- Settles O5: each write acts behind the register hub on the mailbox its accessor owns. -/
theorem mailboxRegisters : Obligations.MailboxRegisters := by
  unfold Obligations.MailboxRegisters
  refine ⟨fun _ _ => devOwnViolClear_leads, fun acc b s ha ho => ⟨fun _ => mbxDoorbell_takes ha ho,
    fun _ => mbxDoorbell_refuses ha ho, fun _ hwait => mbxRspConsWrite_silent ha ho hwait, fun _ hb hwait => ?_, mbxReset_leads ha ho⟩⟩
  exact mbxRspConsWrite_notifies ha ho hwait hb

end Sys2Proof.Mailboxes

namespace Sys2Proof.Mailboxes

open Sys2Proof.Machine Sys2Proof.Safety

/-! ### LANE_CONFIG -/

/-- LANE_CONFIG of one lane for a MAC, where the lane may be configured (R100). -/
theorem laneConfig_mac {s : State} {m : Msg} (n : Nat) (hcount : fld m 2 16 = 1) (hbind : fld m 9 8 = 1)
    (hpcie : s.pcieLane (fld m 0 16) = false) (hup : s.domUp (domLaneQuad (fld m 0 16 / 4)) = true) :
    s.laneConfig m n true = .ok ((((s.laneUnbind (fld m 0 16) n).macsUnbind (fld m 0 16) 1).laneBind (fld m 0 16) (fld m 4 32)
      (fld m 8 8) 1 0).engineBind (fld m 0 16) 1 1 0) := by
  have hlane : (List.range 1).map (fld m 0 16 + ·) = [fld m 0 16] := rfl
  have heng : (if oneOf [2, 3, 4] 1 = true then fld m 10 8 else 0) = 0 := if_neg (by decide)
  unfold State.laneConfig
  simp only [hcount, hbind, hlane, heng]
  rw [if_neg (by simp [hpcie, hup]), if_neg (by decide), if_neg (by decide), List.foldl_cons, List.foldl_nil, List.foldl_cons,
    List.foldl_nil]

/-- The control registers of the lanes read the same. -/
abbrev KeepsLaneCtrl (s t : State) : Prop := KeepsRegs (· = R.LANE_CTRL.off) s t

/-- Raising a recovered clock's divider leaves the lanes alone (R86). -/
theorem rclkRaise_keepsLaneCtrl (s : State) {n : Nat} (hn : n < 2) : KeepsLaneCtrl s (s.rclkRaise n) := by
  unfold State.rclkRaise
  dsimp only
  split
  · exact ((KeepsRegs.refl s).put _ (by decide) (by omega)).put _ (by decide) (by omega)
  · exact KeepsRegs.refl s

theorem setQuadLoop_keepsLaneCtrl (s : State) {l : Nat} (hl : l < 65536) (kbps : Nat) (pam4 : Bool) :
    KeepsLaneCtrl s (s.setQuadLoop l kbps pam4) := by
  have hk : quadLoop l < 2 ^ 32 := by unfold quadLoop; omega
  unfold State.setQuadLoop
  dsimp only
  split
  · exact KeepsRegs.refl s
  · exact (((KeepsRegs.refl s).put _ (by decide) hk).put _ (by decide) hk).of_regs rfl

theorem laneBusy_keepsLaneCtrl (s : State) (m : Msg) (v : Nat) : KeepsLaneCtrl s (s.laneBusy m v) := by
  refine KeepsRegs.foldl (fun t k hk => (KeepsRegs.refl t).put _ (by decide) ?_) s
  have hcount := fld_lt m 2 16
  have hfirst := fld_lt m 0 16
  have := List.mem_range.mp hk
  omega

/-- A lane runs with PAM4 as its modulation says, whatever recovered clocks follow it. -/
theorem get_pam4_laneRun (s : State) {l : Nat} (hl : l < 65536) (kbps : Nat) (pam4 : Bool) :
    (s.laneRun l kbps pam4).get F.LANE_CTRL.PAM4 l = bit pam4 := by
  have hclocks : KeepsLaneCtrl ((s.put F.LANE_RATE.KBPS l kbps).put F.LANE_CTRL.PAM4 l (bit pam4)) (s.laneRun l kbps pam4) := by
    refine KeepsRegs.foldl (fun t n hn => ?_) _
    split
    · exact rclkRaise_keepsLaneCtrl t (List.mem_range.mp hn)
    · exact KeepsRegs.refl t
  rw [hclocks.get F.LANE_CTRL.PAM4 rfl (by omega), State.get_put_self _ _ _ _ (by decide)]
  cases pam4 <;> rfl

/-- A lane that runs at its new rate, bound and enabled. -/
def boundLane (s : State) (l rate pam4 b eng : Nat) : State :=
  ((((s.laneRun l rate (pam4 != 0)).setQuadLoop l rate (pam4 != 0)).put F.LANE_CTRL.BIND l b).put F.LANE_CTRL.ENGINE l eng).put
    F.LANE_CTRL.EN l 1

/-- What else binding a lane does leaves its control register alone. -/
theorem laneBind_keepsLaneCtrl (s : State) {l : Nat} (hl : l < 2 ^ 32) (rate pam4 b eng : Nat) :
    KeepsLaneCtrl (boundLane s l rate pam4 b eng) (s.laneBind l rate pam4 b eng) := by
  unfold State.laneBind
  refine KeepsRegs.of_regs (t := State.setReg (State.setReg _ R.LANE_TS_TX_DELAY l _) R.LANE_TS_RX_DELAY l _) ?_ rfl
  exact (((KeepsRegs.refl (boundLane s l rate pam4 b eng)).put _ (by decide) hl).setReg _ (by decide) hl).setReg _ (by decide) hl

/-- A bound lane runs with PAM4 for every PAM4 field but 0. -/
theorem get_pam4_laneBind (s : State) {l : Nat} (hl : l < 65536) (rate pam4 b eng : Nat) :
    (s.laneBind l rate pam4 b eng).get F.LANE_CTRL.PAM4 l = bit (pam4 != 0) := by
  have hwide : l < 2 ^ 32 := by omega
  rw [(laneBind_keepsLaneCtrl s hwide rate pam4 b eng).get F.LANE_CTRL.PAM4 rfl hwide, boundLane,
    State.get_put_disjoint _ F.LANE_CTRL.EN F.LANE_CTRL.PAM4 _ _ rfl (by decide) (by decide),
    State.get_put_disjoint _ F.LANE_CTRL.ENGINE F.LANE_CTRL.PAM4 _ _ rfl (by decide) (by decide),
    State.get_put_disjoint _ F.LANE_CTRL.BIND F.LANE_CTRL.PAM4 _ _ rfl (by decide) (by decide),
    (setQuadLoop_keepsLaneCtrl _ hl _ _).get F.LANE_CTRL.PAM4 rfl hwide, get_pam4_laneRun s hl]

theorem engineBind_mac_keepsLaneCtrl (s : State) {first : Nat} (h : first < 65536) (count eng : Nat) :
    KeepsLaneCtrl s (s.engineBind first count 1 eng) := by
  refine KeepsRegs.put ?_ _ (by decide) (by omega)
  exact (KeepsRegs.refl s).of_regs rfl

/-- LANE_CONFIG of one lane for a MAC leaves the lane running PAM4 for every PAM4 field but 0, whatever it answers. -/
theorem get_pam4_laneConfig {b : Fin 8} {m : Msg} {s t : State} {k : Taken} (n : Fin 65536) (hk : Taking s b opLaneConfig m k)
    (hcount : fld m 2 16 = 1) (hbind : fld m 9 8 = 1) (hpcie : s.pcieLane (fld m 0 16) = false)
    (hup : s.domUp (domLaneQuad (fld m 0 16 / 4)) = true) (h : exec (.laneConfig b m ⟨n, true⟩) s = .next t) :
    t.get F.LANE_CTRL.PAM4 (fld m 0 16) = bit (fld m 8 8 != 0) := by
  have hlane : fld m 0 16 < 65536 := fld_lt m 0 16
  have hwide : fld m 0 16 < 2 ^ 32 := by omega
  have hrun : exec (.laneConfig b m ⟨n, true⟩) s = .next (((((((s.laneUnbind (fld m 0 16) n).macsUnbind (fld m 0 16) 1).laneBind
      (fld m 0 16) (fld m 4 32) (fld m 8 8) 1 0).engineBind (fld m 0 16) 1 1 0)).laneBusy m 0).finish k stOK 0 {}) := by
    refine congrArg Host.Outcome.next (runCmd_eq hk ?_)
    rw [laneConfig_mac n.val hcount hbind hpcie hup]
    rfl
  obtain rfl := Host.Outcome.next.inj (hrun.symm.trans h)
  rw [(finish_keeps _ k _ _ _).get F.LANE_CTRL.PAM4 (by simp [answerRows]) hwide,
    (laneBusy_keepsLaneCtrl _ m 0).get F.LANE_CTRL.PAM4 rfl hwide,
    (engineBind_mac_keepsLaneCtrl _ hlane 1 0).get F.LANE_CTRL.PAM4 rfl hwide, get_pam4_laneBind _ hlane]

/-- A LANE_CONFIG that asks for PAM4 with 2: lane 20, one lane, 25.78125 Gbit/s, bind 1. -/
def pam4Two : Msg := { tag := 1, ver := 1, len := 56, payload := 20 + 2 ^ 16 + 25781250 * 2 ^ 32 + 2 * 2 ^ 64 + 2 ^ 72 }

/-- That command, taken in mailbox 1 as the first since reset. -/
def pam4TwoTaken : Taken := ⟨0, 1, opLaneConfig, pam4Two, false⟩

/-- The reset state with the command taken. -/
def takingPam4Two : State := { State.reset with mbx := { State.reset.mbx with started := [pam4TwoTaken], taken := 1 } }

/-- Refutes O20: its second clause has LANE_CTRL.PAM4 read the PAM4 field modulo 2, and leaves out the field's check (0 or 1,
R495) that a command passes before it starts. With 2 the lane runs PAM4, and the bit reads 1 where the clause has 0. -/
theorem not_laneCommands : ¬ Obligations.LaneCommands := by
  unfold Obligations.LaneCommands
  intro h
  have htaking : Taking takingPam4Two 1 opLaneConfig pam4Two pam4TwoTaken := by decide +kernel
  have hcount : fld pam4Two 2 16 = 1 := by decide +kernel
  have hbind : fld pam4Two 9 8 = 1 := by decide +kernel
  have hlane : fld pam4Two 0 16 = 20 := by decide +kernel
  have htwo : fld pam4Two 8 8 = 2 := by decide +kernel
  have hpcie : takingPam4Two.pcieLane (fld pam4Two 0 16) = false := by decide +kernel
  have hup : takingPam4Two.domUp (domLaneQuad (fld pam4Two 0 16 / 4)) = true := by decide +kernel
  have hidle : takingPam4Two.laneState (fld pam4Two 0 16) < 2 := by decide +kernel
  obtain ⟨-, hconfig, -⟩ := h 1 pam4Two takingPam4Two pam4TwoTaken
  obtain ⟨u, hexec, -, hpam4, -⟩ := hconfig 0 htaking hcount hbind hpcie hup hidle (by rw [hlane])
  have hruns := get_pam4_laneConfig 0 htaking hcount hbind hpcie hup hexec
  rw [(finish_keeps _ _ _ _ _).get F.LANE_CTRL.PAM4 (by simp [answerRows]) (by rw [hlane]; decide), hpam4, htwo] at hruns
  exact absurd hruns (by decide)

end Sys2Proof.Mailboxes

namespace Sys2Proof.Mailboxes

open Sys2Proof.Machine Sys2Proof.Safety

/-! ### Answers that fill a buffer -/

/-- A command whose answer is a buffer write: OK where the write passes, nothing yet where it waits, else E_BUFFER. -/
theorem ends_of_writeAnswer {c : Instr} {s t : State} {b : Fin 8} {op a : Nat} {m : Msg} {k : Taken} {bs : List Byte}
    {p : Payload} {body : State → Answer} (hk : Taking s b op m k) (he : exec c s = .next (s.runCmd b op m body))
    (hb : body s = t.writeAnswer a bs p) :
    if (t.bufWrite a bs).1 = none then Ends c s k stOK 0 p (fun u => u = (t.bufWrite a bs).2)
    else if (t.bufWrite a bs).1 = some .waits then exec c s = .next (t.bufWrite a bs).2
    else Ends c s k stBuffer (stopDetail (t.bufWrite a bs).1) {} (fun u => u = (t.bufWrite a bs).2) := by
  unfold State.writeAnswer at hb
  generalize t.bufWrite a bs = w at hb ⊢
  obtain ⟨stop, u⟩ := w
  match stop with
  | none => exact ends_of_runCmd hk he hb rfl
  | some (.bad d) => exact ends_of_runCmd hk he hb rfl
  | some .waits =>
    rw [if_neg (by simp), if_pos rfl, he, runCmd_waits hk (by rw [hb]; rfl), hb]
    rfl

/-- What a buffer read gives, once it passes. -/
theorem bufRead_of_gives {s u : State} {a len : Nat} {bs : List Byte} (h : BufGives s a len bs u) :
    s.bufRead a len = (.ok bs, u) := by
  obtain ⟨hok, hst⟩ := h
  generalize s.bufRead a len = w at hok hst ⊢
  obtain ⟨r, t⟩ := w
  cases r with
  | error e => exact nomatch hok
  | ok bs' => exact Prod.ext (congrArg Except.ok (Option.some.inj hok)) hst

theorem bufRead_of_noPlace {s : State} {a len : Nat} (h : bufPlace a len = false) :
    s.bufRead a len = (.error (.bad 0), s) := if_pos h

/-! ### CONFIG -/

/-- CONFIG_LOAD_OVERLAY is the load's own command only where it has begun the load. -/
theorem exec_configLoadOverlay_own {b : Fin 8} {m : Msg} {s : State} {k : Taken} (hk : Taking s b opLoadOverlay m k)
    {l : Load} (hl : s.cfg.load = some l) (hown : l.cmd.map (·.id) = some k.id) :
    exec (.configLoadOverlay b m) s = .next s := by
  change Host.Outcome.next (s.runTaken b opLoadOverlay m _) = _
  rw [runTaken_eq hk]
  simp only [hl, hown, beq_self_eq_true, true_or, if_true]

theorem exec_configLoadOverlay_new {b : Fin 8} {m : Msg} {s : State} {k : Taken} (hk : Taking s b opLoadOverlay m k)
    (hstart : s.cfg.starting = []) (hown : (s.cfg.load.bind (·.cmd)).map (·.id) ≠ some k.id) :
    exec (.configLoadOverlay b m) s = .next (
      if s.cfg.load.isSome then s.finish k stBusy 0 {}
      else if s.isSet F.CFG_LOCK.LOCK 0 then s.finish k stLocked 0 {}
      else if bufPlace (fld m 0 64) (fld m 8 32) = false then s.finish k stBuffer 0 {}
      else (s.setReg R.CFG_CONT_INFO 0 0).beginLoad
        { path := .mailbox, cmd := some k, base := fld m 0 64, len := fld m 8 32 }) := by
  change Host.Outcome.next (s.runTaken b opLoadOverlay m _) = _
  rw [runTaken_eq hk, hstart]
  refine congrArg Host.Outcome.next (if_neg ?_)
  rintro (h | h)
  · cases hl : s.cfg.load with
    | none => rw [hl] at h; exact nomatch h
    | some l => rw [hl] at h hown; exact hown (beq_iff_eq.mp h)
  · exact nomatch h

theorem configLoadOverlay_clause (b : Fin 8) (m : Msg) (s : State) (k : Taken) (hk : Taking s b opLoadOverlay m k) :
    (∀ l : Load, s.cfg.load = some l → l.cmd.map (·.id) = some k.id → exec (.configLoadOverlay b m) s = .next s) ∧
    (s.cfg.starting = [] → (s.cfg.load.bind (·.cmd)).map (·.id) ≠ some k.id →
      (s.cfg.load.isSome = true → Ends (.configLoadOverlay b m) s k stBusy 0 {} (fun u => u = s)) ∧
      (s.isSet F.CFG_LOCK.LOCK 0 = true → s.cfg.load = none →
        Ends (.configLoadOverlay b m) s k stLocked 0 {} (fun u => u = s)) ∧
      (s.isSet F.CFG_LOCK.LOCK 0 = false → s.cfg.load = none → bufPlace (fld m 0 64) (fld m 8 32) = false →
        Ends (.configLoadOverlay b m) s k stBuffer 0 {} (fun u => u = s)) ∧
      (s.isSet F.CFG_LOCK.LOCK 0 = false → s.cfg.load = none → bufPlace (fld m 0 64) (fld m 8 32) = true →
        exec (.configLoadOverlay b m) s = .next ((s.setReg R.CFG_CONT_INFO 0 0).beginLoad
          { path := .mailbox, cmd := some k, base := fld m 0 64, len := fld m 8 32 }))) := by
  refine ⟨fun l => exec_configLoadOverlay_own hk, fun hstart hown => ?_⟩
  have he := exec_configLoadOverlay_new hk hstart hown
  refine ⟨fun hl => ⟨s, ?_, rfl⟩, fun hlock hl => ⟨s, ?_, rfl⟩, fun hlock hl hp => ⟨s, ?_, rfl⟩, fun hlock hl hp => ?_⟩
  · rw [he, if_pos hl]
  · rw [he, hl, if_neg (by simp), if_pos hlock]
  · rw [he, hl, hlock, if_neg (by simp), if_neg (by simp), if_pos hp]
  · rw [he, hl, hlock, hp, if_neg (by simp), if_neg (by simp), if_neg (by simp)]

theorem configLock_ends {b : Fin 8} {m : Msg} {s : State} {k : Taken} (hk : Taking s b opConfigLock m k) :
    Ends (.configLock b m) s k stOK 0 {} (fun u => u.get F.CFG_LOCK.LOCK 0 = 1 ∧ OnlyRegs s u [regKey R.CFG_LOCK 0]) :=
  ends_of_runCmd hk rfl rfl ⟨State.get_put_self _ _ _ _ (by decide), rfl, (RegsKeep.refl s _).put _ (by simp)⟩

theorem configReadback_fails {b : Fin 8} {m : Msg} {edge : Bool} {s : State} {k : Taken} (hk : Taking s b opReadback m k)
    (h : edge = false ∨ s.regionState (fld m 0 8) ≠ 3 ∨ s.leafRuns (fld m 0 8) (fld m 1 8) = false) :
    Ends (.configReadback b m edge) s k stState 0 {} (fun u => u = s) := by
  refine ends_of_runCmd hk rfl (if_neg ?_) rfl
  rintro ⟨hact, hedge, hleaf⟩
  rcases h with h | h | h
  · exact absurd h (by simp [hedge])
  · exact h hact
  · exact absurd h (by simp [hleaf])

/-- The read of an ACTIVE region; `bs` are the bytes of its flip-flops. -/
theorem configReadback_reads {b : Fin 8} {m : Msg} {edge : Bool} {s : State} {k : Taken} (hk : Taking s b opReadback m k)
    {v : BitVec 172032} {bs : List Byte} (hbs : leBytes 21504 v.toNat = bs) (hv : s.fab.ffs.get 0 (fld m 0 8) = v)
    (hedge : edge = true) (hact : s.regionState (fld m 0 8) = 3) (hleaf : s.leafRuns (fld m 0 8) (fld m 1 8) = true) :
    if (s.bufWrite (fld m 8 64) bs).1 = none
    then Ends (.configReadback b m edge) s k stOK 0 (pack 4 [(0, 32, 21504)]) (fun t => t = (s.bufWrite (fld m 8 64) bs).2)
    else if (s.bufWrite (fld m 8 64) bs).1 = some .waits
    then exec (.configReadback b m edge) s = .next (s.bufWrite (fld m 8 64) bs).2
    else Ends (.configReadback b m edge) s k stBuffer (stopDetail (s.bufWrite (fld m 8 64) bs).1) {}
      (fun t => t = (s.bufWrite (fld m 8 64) bs).2) :=
  ends_of_writeAnswer hk rfl ((if_pos ⟨hact, hedge, hleaf⟩).trans (by rw [hv, hbs]))

/-! ### MEMKEY -/

theorem exec_memkeyLoad {b : Fin 8} {m : Msg} {s u : State} {k : Taken} {bs : List Byte} (hk : Taking s b opKeyLoad m k)
    (hr : BufGives s (fld m 8 64) 72 bs u) :
    if (u.unwrapPair (natBytes bs)).isSome = true
    then exec (.memkeyLoad b m) s = .next ((State.finish { u with
      store := { u.store with keys := u.store.keys.set none (fld m 0 8) (u.unwrapPair (natBytes bs)) } } k stOK 0 {}).warmWhenFree)
    else exec (.memkeyLoad b m) s = .next ((u.finish k stKey 0 {}).warmWhenFree) := by
  have hread := bufRead_of_gives hr
  cases hp : u.unwrapPair (natBytes bs) with
  | none =>
    refine congrArg (fun t : State => Host.Outcome.next t.warmWhenFree) (runCmd_eq hk ?_)
    simp only [hread, hp]; rfl
  | some pair =>
    refine congrArg (fun t : State => Host.Outcome.next t.warmWhenFree) (runCmd_eq hk ?_)
    simp only [hread, hp]; rfl

theorem exec_memkeyLoad_noPlace {b : Fin 8} {m : Msg} {s : State} {k : Taken} (hk : Taking s b opKeyLoad m k)
    (hp : bufPlace (fld m 8 64) 72 = false) :
    exec (.memkeyLoad b m) s = .next ((s.finish k stBuffer 0 {}).warmWhenFree) := by
  refine congrArg (fun t : State => Host.Outcome.next t.warmWhenFree) (runCmd_eq hk ?_)
  simp only [bufRead_of_noPlace hp]; rfl

theorem memkeyClear_clause {b : Fin 8} {m : Msg} {s : State} {k : Taken} (hk : Taking s b opKeyClear m k) :
    ∃ u : State, exec (.memkeyClear b m) s = .next ((u.finish k stOK 0 {}).warmWhenFree) ∧ u.keySlot (fld m 0 8) = none ∧
      (∀ j, j ≠ fld m 0 8 → u.keySlot j = s.keySlot j) ∧ u = { s with store := { s.store with keys := u.store.keys } } := by
  refine ⟨{ s with store := { s.store with keys := s.store.keys.set none (fld m 0 8) none } },
    congrArg (fun t : State => Host.Outcome.next t.warmWhenFree) (runCmd_eq hk rfl), ?_, fun j hj => ?_, rfl⟩
  · exact SMap.get_set_self s.store.keys none (fld m 0 8) none
  · exact SMap.get_set_ne s.store.keys none none none hj

/-- The two halves of a 64-bit value put in a pair of registers read as that value. -/
theorem pair_setPair (s : State) (lo hi : RegRow) (i v : Nat) (hne : regKey lo i ≠ regKey hi i) (hv : v < 2 ^ 64) :
    (s.setPair lo hi i v).pair lo hi i = v := by
  unfold State.pair State.setPair
  rw [State.reg_setReg_self, State.reg_setReg_ne _ _ _ _ _ _ hne, State.reg_setReg_self]
  omega

/-- A pair of registers reads as before where others are written. -/
theorem regsKeep_pair {s t : State} {ks : List Nat} (h : RegsKeep s t ks) {lo hi : RegRow} {i : Nat}
    (hlo : regKey lo i ∉ ks) (hhi : regKey hi i ∉ ks) : t.pair lo hi i = s.pair lo hi i := by
  unfold State.pair; rw [h lo i hlo, h hi i hhi]

theorem setPair_regsKeep (s : State) (lo hi : RegRow) (i v : Nat) :
    RegsKeep s (s.setPair lo hi i v) [regKey lo i, regKey hi i] :=
  ((RegsKeep.refl s _).setReg _ (by simp)).setReg _ (by simp)

theorem memkeyRegion_ends {b : Fin 8} {m : Msg} {s : State} {k : Taken} {r : Nat} (hk : Taking s b opKeyRegion m k)
    (hr : fld m 0 8 = r) :
    Ends (.memkeyRegion b m) s k stOK 0 {} (fun u => u.pair R.CIPH_REGION_BASE_LO R.CIPH_REGION_BASE_HI r = fld m 8 64 ∧
      u.pair R.CIPH_REGION_LIMIT_LO R.CIPH_REGION_LIMIT_HI r = fld m 16 64 ∧
      u.pair R.CIPH_REGION_ALLOW_LO R.CIPH_REGION_ALLOW_HI r = fld m 24 64 ∧
      (u.isSet F.CIPH_REGION_CTRL.EN r = true ↔ fld m 8 64 < fld m 16 64) ∧
      OnlyRegs s u [regKey R.CIPH_REGION_BASE_LO r, regKey R.CIPH_REGION_BASE_HI r, regKey R.CIPH_REGION_LIMIT_LO r,
        regKey R.CIPH_REGION_LIMIT_HI r, regKey R.CIPH_REGION_ALLOW_LO r, regKey R.CIPH_REGION_ALLOW_HI r,
        regKey R.CIPH_REGION_CTRL r]) := by
  subst hr
  refine ends_of_runCmd hk rfl rfl ?_
  generalize fld m 0 8 = r
  set t1 := s.setPair R.CIPH_REGION_BASE_LO R.CIPH_REGION_BASE_HI r (fld m 8 64) with ht1
  set t2 := t1.setPair R.CIPH_REGION_LIMIT_LO R.CIPH_REGION_LIMIT_HI r (fld m 16 64) with ht2
  set t3 := t2.setPair R.CIPH_REGION_ALLOW_LO R.CIPH_REGION_ALLOW_HI r (fld m 24 64) with ht3
  set t4 := t3.put F.CIPH_REGION_CTRL.EN r (bit (decide (fld m 8 64 < fld m 16 64))) with ht4
  have k1 := setPair_regsKeep s R.CIPH_REGION_BASE_LO R.CIPH_REGION_BASE_HI r (fld m 8 64)
  have k2 := setPair_regsKeep t1 R.CIPH_REGION_LIMIT_LO R.CIPH_REGION_LIMIT_HI r (fld m 16 64)
  have k3 := setPair_regsKeep t2 R.CIPH_REGION_ALLOW_LO R.CIPH_REGION_ALLOW_HI r (fld m 24 64)
  have k4 : RegsKeep t3 t4 [regKey R.CIPH_REGION_CTRL r] := (RegsKeep.refl t3 _).put _ (by simp)
  refine ⟨?_, ?_, ?_, ?_, rfl, ?_⟩
  · rw [regsKeep_pair k4 (by simp [regKey]) (by simp [regKey]), regsKeep_pair k3 (by simp [regKey]) (by simp [regKey]),
      regsKeep_pair k2 (by simp [regKey]) (by simp [regKey])]
    exact pair_setPair _ _ _ _ _ (by simp [regKey]) (fld_lt m 8 64)
  · rw [regsKeep_pair k4 (by simp [regKey]) (by simp [regKey]), regsKeep_pair k3 (by simp [regKey]) (by simp [regKey])]
    exact pair_setPair _ _ _ _ _ (by simp [regKey]) (fld_lt m 16 64)
  · rw [regsKeep_pair k4 (by simp [regKey]) (by simp [regKey])]
    exact pair_setPair _ _ _ _ _ (by simp [regKey]) (fld_lt m 24 64)
  · rw [State.isSet, State.get_put_self _ _ _ _ (by decide)]
    by_cases h : fld m 8 64 < fld m 16 64 <;> simp [h, bit]
  · exact (((k1.mono (by simp)).trans (k2.mono (by simp))).trans (k3.mono (by simp))).trans (k4.mono (by simp))

theorem bitAt_eq_testBit (v k : Nat) : bitAt v k = v.testBit k := by
  rw [Nat.testBit_eq_decide_div_mod_eq]; rfl

/-- The sum of the powers of two that a predicate marks has the marked bits and no other. -/
theorem testBit_marks (p : Nat → Bool) (n : Nat) :
    (List.range n).foldl (fun a k => if p k then a + 2 ^ k else a) 0 < 2 ^ n ∧
    ∀ j < n, ((List.range n).foldl (fun a k => if p k then a + 2 ^ k else a) 0).testBit j = p j := by
  induction n with
  | zero => exact ⟨by simp, fun j hj => absurd hj (by omega)⟩
  | succ n ih =>
    obtain ⟨hlt, hbits⟩ := ih
    rw [List.range_succ, List.foldl_append, List.foldl_cons, List.foldl_nil]
    generalize (List.range n).foldl (fun a k => if p k then a + 2 ^ k else a) 0 = a at *
    have hpow : 2 ^ (n + 1) = 2 * 2 ^ n := by ring
    refine ⟨by split <;> omega, fun j hj => ?_⟩
    have htop : a.testBit n = false := Nat.testBit_lt_two_pow hlt
    rcases Nat.lt_succ_iff_lt_or_eq.mp hj with hj | rfl
    · rw [← hbits j hj]
      split
      · rw [Nat.add_comm, Nat.testBit_two_pow_add_gt hj]
      · rfl
    · by_cases hp : p j
      · rw [if_pos hp, Nat.add_comm, Nat.testBit_two_pow_add_eq, htop, hp]; rfl
      · rw [if_neg hp, htop]; simpa using hp

theorem memkeyStatus_clause {b : Fin 8} {m : Msg} {s : State} {k : Taken} (hk : Taking s b opKeyStatus m k) :
    Ends (.memkeyStatus b m) s k stOK 0 (pack 8 [(0, 64, s.cipherKeys)]) (fun u => u = s) ∧
    ∀ j < 64, bitAt s.cipherKeys j = (s.keySlot j).isSome :=
  ⟨ends_of_runCmd hk rfl rfl rfl, fun j hj =>
    (bitAt_eq_testBit _ _).trans ((testBit_marks (fun j => (s.keySlot j).isSome) 64).2 j hj)⟩

end Sys2Proof.Mailboxes

namespace Sys2Proof.Mailboxes

open Sys2Proof.Machine Sys2Proof.Safety

/-! ### A WARM reset that is due

A device reset forgets that one was due; one that a boot flow absorbs leaves the flag to the end of the command. -/

/-- The state with the flag of a WARM reset that is due set to `w`. -/
def withWarmDue (s : State) (w : Bool) : State := { s with upd := { s.upd with warmDue := w } }

theorem setReg_withWarmDue (s : State) (w : Bool) (r : RegRow) (i v : Nat) :
    (withWarmDue s w).setReg r i v = withWarmDue (s.setReg r i v) w := rfl

theorem failRecord_withWarmDue (s : State) (w : Bool) (l : Load) (code : Nat) (auth : Bool) (pos : Nat) :
    (withWarmDue s w).failRecord l code auth pos = withWarmDue (s.failRecord l code auth pos) w := by
  have hvalid : (withWarmDue s w).isSet F.CFG_FAIL.VALID 0 = s.isSet F.CFG_FAIL.VALID 0 := rfl
  unfold State.failRecord
  rw [hvalid]
  split
  · exact setReg_withWarmDue s w _ _ _
  · rw [setReg_withWarmDue, setReg_withWarmDue]

theorem abortLoad_withWarmDue (s : State) (w : Bool) : (withWarmDue s w).abortLoad = withWarmDue s.abortLoad w := by
  have hload : (withWarmDue s w).cfg = s.cfg := rfl
  unfold State.abortLoad
  rw [hload]
  split
  · rfl
  · split
    · rfl
    · exact failRecord_withWarmDue _ _ _ _ _ _

/-- Writes made in turn give the same registers from the same registers. -/
theorem foldl_setReg_regs_congr {r : RegRow} {v : Nat → Nat} (l : List Nat) {s t : State} (h : s.regs = t.regs) :
    (l.foldl (fun u i => u.setReg r i (v i)) s).regs = (l.foldl (fun u i => u.setReg r i (v i)) t).regs := by
  induction l generalizing s t with
  | nil => exact h
  | cons i l ih => exact ih (by simp only [State.setReg, h])

theorem hbmKept_regs_congr {s t s' t' : State} (h : s.regs = t.regs) (h' : s'.regs = t'.regs) (k : Nat) :
    (s.hbmKept s' k).regs = (t.hbmKept t' k).regs := by
  unfold State.hbmKept
  split
  · exact h
  · simp only [State.reg_congr h']
    exact foldl_setReg_regs_congr (v := fun pc => t'.reg R.HBM_PC_STATUS pc) _ (by simp only [State.setReg, h])

theorem mittenReset_regs_congr {s t : State} (h : s.regs = t.regs) (k : Nat) : (s.mittenReset k).regs = (t.mittenReset k).regs := by
  unfold State.mittenReset
  split
  · simp only [State.setReg, h]
  · exact h

theorem put_regs_congr {s t : State} (h : s.regs = t.regs) (f : Fd) (i v : Nat) : (s.put f i v).regs = (t.put f i v).regs := by
  simp only [State.put, State.setReg, State.reg_congr h, h]

theorem resetTo_withWarmDue (s : State) (w : Bool) (k : Nat) : (withWarmDue s w).resetTo k = s.resetTo k := by
  unfold State.resetTo
  rw [abortLoad_withWarmDue]
  generalize s.abortLoad = u
  have hstart : ((withWarmDue u w).resetRegs k (fun _ _ => true)).regs = (u.resetRegs k (fun _ _ => true)).regs := rfl
  have hregs : ((((((withWarmDue u w).resetRegs k (fun _ _ => true)).mittenReset k).hbmKept (withWarmDue u w) k).put
        F.CFG_SCRUB_STATUS.REPAIRING 0 0).put F.CFG_SCRUB_STATUS.PAUSED 0 0).regs =
      (((((u.resetRegs k (fun _ _ => true)).mittenReset k).hbmKept u k).put
        F.CFG_SCRUB_STATUS.REPAIRING 0 0).put F.CFG_SCRUB_STATUS.PAUSED 0 0).regs :=
    put_regs_congr (put_regs_congr (hbmKept_regs_congr (mittenReset_regs_congr hstart k) rfl k) _ _ _) _ _ _
  dsimp only
  rw [hregs]
  rfl

theorem deviceReset_withWarmDue (s : State) (w : Bool) (k : Nat) : (withWarmDue s w).deviceReset k = s.deviceReset k := by
  unfold State.deviceReset
  rw [resetTo_withWarmDue]

/-- A WARM reset is taken whole, or the boot flow that runs absorbs it (R422). -/
theorem takeReset_warm (s : State) :
    s.takeReset kWarm = if s.booting ∧ resetRank s.bootKind < resetRank kWarm then s else s.deviceReset kWarm := by
  unfold State.takeReset
  rw [if_neg (show ¬ kWarm = kFabric by decide)]

/-- The end of an update command sees the flag of a WARM reset only where one is due and can begin. -/
theorem updateOver_eq (s : State) :
    s.updateOver = (if s.get F.DEV_FW_STATE.STATE 0 = 4 ∧
        s.mbx.started.any (fun t => [opStage, opCommit, opActivate].contains t.op) = false
      then s.put F.DEV_FW_STATE.STATE 0 2 else s).warmWhenFree := rfl

theorem warmWhenFree_idle {s : State} (h : s.upd.warmDue = false ∨ s.flashBusy = true) : s.warmWhenFree = s := by
  unfold State.warmWhenFree
  refine if_neg ?_
  rintro ⟨hdue, hfree⟩
  rcases h with h | h
  · exact absurd h (by simp [hdue])
  · exact absurd h (by simp [hfree])

theorem warmWhenFree_due {s : State} (hdue : s.upd.warmDue = true) (hfree : s.flashBusy = false) :
    s.warmWhenFree = (withWarmDue s false).takeReset kWarm := if_pos ⟨hdue, hfree⟩

/-- Where a boot flow absorbs the WARM reset, its end clears the flag and nothing else. -/
theorem updateOver_absorbed {s : State} (hfree : s.flashBusy = false)
    (habs : s.booting ∧ resetRank s.bootKind < resetRank kWarm) :
    (withWarmDue s true).updateOver = (withWarmDue s false).updateOver := by
  have key : ∀ t : State, t.flashBusy = false → t.booting ∧ resetRank t.bootKind < resetRank kWarm →
      (withWarmDue t true).warmWhenFree = (withWarmDue t false).warmWhenFree := fun t hf ha => by
    rw [warmWhenFree_due (s := withWarmDue t true) rfl hf, warmWhenFree_idle (s := withWarmDue t false) (.inl rfl), takeReset_warm]
    exact if_pos ha
  rw [updateOver_eq, updateOver_eq]
  by_cases hlast : s.get F.DEV_FW_STATE.STATE 0 = 4 ∧
      s.mbx.started.any (fun t => [opStage, opCommit, opActivate].contains t.op) = false
  · exact (congrArg State.warmWhenFree (if_pos hlast)).trans
      ((key (s.put F.DEV_FW_STATE.STATE 0 2) hfree habs).trans (congrArg State.warmWhenFree (if_pos hlast)).symm)
  · exact (congrArg State.warmWhenFree (if_neg hlast)).trans
      ((key s hfree habs).trans (congrArg State.warmWhenFree (if_neg hlast)).symm)

/-- A WARM reset asked for while nothing holds it begins at once. -/
theorem warmAsked_free {u : State} (hfree : u.flashBusy = false) :
    u.warmAsked.updateOver = (State.takeReset (withWarmDue u true) kWarm).updateOver := by
  have hasked : u.warmAsked = (withWarmDue u false).takeReset kWarm :=
    warmWhenFree_due (s := withWarmDue u true) rfl hfree
  rw [hasked, takeReset_warm, takeReset_warm]
  by_cases habs : u.booting ∧ resetRank u.bootKind < resetRank kWarm
  · exact (congrArg State.updateOver (if_pos habs)).trans
      ((updateOver_absorbed hfree habs).symm.trans (congrArg State.updateOver (if_pos habs)).symm)
  · refine (congrArg State.updateOver (if_neg habs)).trans (Eq.trans ?_ (congrArg State.updateOver (if_neg habs)).symm)
    rw [deviceReset_withWarmDue, deviceReset_withWarmDue]

/-- A WARM reset asked for while flash, fuses or key slots change waits. -/
theorem warmAsked_busy {u : State} (hbusy : u.flashBusy = true) : u.warmAsked = withWarmDue u true :=
  warmWhenFree_idle (s := withWarmDue u true) (.inr hbusy)

/-! ### The end of an update command -/

theorem updateOver_clause (s u : State) (hu : s.updateOver = u) :
    (s.get F.DEV_FW_STATE.STATE 0 ≠ 4 ∨ s.mbx.started.any (fun t => [opStage, opCommit, opActivate].contains t.op) = true →
      u = s.warmWhenFree) ∧
    (s.get F.DEV_FW_STATE.STATE 0 = 4 → s.mbx.started.any (fun t => [opStage, opCommit, opActivate].contains t.op) = false →
      u = (s.put F.DEV_FW_STATE.STATE 0 2).warmWhenFree) := by
  subst hu
  refine ⟨fun h => ?_, fun hst hlast => ?_⟩
  · rw [updateOver_eq, if_neg]
    rintro ⟨hst, hlast⟩
    rcases h with h | h
    · exact h hst
    · exact absurd h (by rw [hlast]; exact Bool.false_ne_true)
  · rw [updateOver_eq, if_pos ⟨hst, hlast⟩]

theorem warmWhenFree_clause (s : State) : (s.upd.warmDue = false ∨ s.flashBusy = true → s.warmWhenFree = s) ∧
    (s.upd.warmDue = true → s.flashBusy = false →
      s.warmWhenFree = ({ s with upd := { s.upd with warmDue := false } } : State).takeReset kWarm) :=
  ⟨warmWhenFree_idle, warmWhenFree_due⟩

/-- An update command whose body answers ends with that answer, and the update is over. -/
theorem exec_update {c : Instr} {s u : State} {b : Fin 8} {op st d : Nat} {m : Msg} {k : Taken} {p : Payload}
    {body : State → Answer} (hk : Taking s b op m k) (he : exec c s = .next (s.runCmd b op m body).updateOver)
    (hb : body s = { status := st, detail := d, payload := p, state := u }) :
    exec c s = .next ((u.finish k st d p).updateOver) := by rw [he, runCmd_eq hk hb]

/-! ### UPDATE_STAGE and UPDATE_COMMIT -/

theorem updateStage_clause {b : Fin 8} {m : Msg} {s u : State} {k : Taken} {bs : List Byte} {x : UpdImage}
    (hk : Taking s b opStage m k) (hr : BufGives s (fld m 8 64) (fld m 16 32) bs u)
    (hx : stagedImage (fld m 0 8) (bs.take 64) = x) :
    if u.stageCode (fld m 0 8) bs = 0
    then exec (.updateStage b m) s = .next ((State.finish { u with upd := { u.upd with staged := some x } } k stOK 0
      (pack 6 [(0, 32, x.version), (4, 16, x.arb)])).updateOver)
    else if u.stageCode (fld m 0 8) bs ∈ [0x08, 0x09]
    then exec (.updateStage b m) s = .next ((u.finish k stAuth 0 {}).updateOver)
    else if u.stageCode (fld m 0 8) bs ∈ [0x0A, 0x0B]
    then exec (.updateStage b m) s = .next ((u.finish k stRollback 0 {}).updateOver)
    else exec (.updateStage b m) s = .next ((u.finish k stIntegrity (u.stageCode (fld m 0 8) bs) {}).updateOver) := by
  have hread := bufRead_of_gives hr
  subst hx
  split
  case isTrue h0 => exact exec_update hk rfl (by simp only [hread, h0]; rfl)
  case isFalse h0 =>
    have hfail : ∀ st d, stageStatus (u.stageCode (fld m 0 8) bs) = st →
        (if st = stIntegrity then u.stageCode (fld m 0 8) bs else 0) = d →
        exec (.updateStage b m) s = .next ((u.finish k st d {}).updateOver) := fun st d hst hd => by
      subst hst hd
      exact exec_update hk rfl (by simp only [hread]; rw [if_pos h0]; rfl)
    split
    case isTrue h => exact hfail _ _ (if_pos (by simpa using h)) rfl
    case isFalse hauth =>
      split
      case isTrue h => exact hfail _ _ ((if_neg (by simpa using hauth)).trans (if_pos (by simpa using h))) rfl
      case isFalse hroll =>
        exact hfail _ _ ((if_neg (by simpa using hauth)).trans (if_neg (by simpa using hroll))) (if_pos rfl)

theorem updateCommit_clause {b : Fin 8} {m : Msg} {ok : Bool} {s : State} {k : Taken} (hk : Taking s b opCommit m k) :
    (s.upd.staged = none → exec (.updateCommit b m ok) s = .next ((s.finish k stState 0 {}).updateOver)) ∧
    (∀ x : UpdImage, s.upd.staged = some x →
      (ok = true → exec (.updateCommit b m ok) s = .next ((State.finish
        { s with upd := { s.upd with staged := none, committed := some x } } k stOK 0 {}).updateOver)) ∧
      (ok = false → exec (.updateCommit b m ok) s = .next ((s.hwFault.finish k stHw 0 {}).updateOver))) := by
  refine ⟨fun h => exec_update hk rfl ?_, fun x h => ⟨fun hok => exec_update hk rfl ?_, fun hok => exec_update hk rfl ?_⟩⟩
  · simp only [h]; rfl
  · simp only [h, hok]; rfl
  · simp only [h, hok]; rfl

/-! ### UPDATE_ACTIVATE -/

section
variable {b : Fin 8} {m : Msg} {gold : BitVec 16} {blow : Fin 3} {bits : BitVec 9} {s : State} {k : Taken}
  (hk : Taking s b opActivate m k)
include hk

theorem exec_updateActivate_none (h : s.upd.committed = none) :
    exec (.updateActivate b m gold blow bits) s = .next ((s.finish k stState 0 {}).updateOver) := by
  refine congrArg (fun t : State => Host.Outcome.next t.updateOver) ((runTaken_eq hk _).trans ?_)
  simp only [h]

theorem exec_updateActivate_plain {x : UpdImage} (h : s.upd.committed = some x) (hf : fld m 0 8 ≠ 1) :
    exec (.updateActivate b m gold blow bits) s = .next ((s.finish k stOK 0 {}).warmAsked.updateOver) := by
  refine congrArg (fun t : State => Host.Outcome.next t.updateOver) ((runTaken_eq hk _).trans ?_)
  simp only [h]
  exact if_pos hf

theorem exec_updateActivate_refused {x : UpdImage} (h : s.upd.committed = some x) (hf : fld m 0 8 = 1)
    (href : 256 < x.arb ∨ x.kind = 1 ∧ gold.toNat < x.arb) :
    exec (.updateActivate b m gold blow bits) s = .next ((s.finish k stState 0 {}).updateOver) := by
  have hraise : raiseRefused x gold.toNat = true := by
    unfold raiseRefused
    simpa using href
  refine congrArg (fun t : State => Host.Outcome.next t.updateOver) ((runTaken_eq hk _).trans ?_)
  simp only [h]
  rw [if_neg (by simp [hf]), if_pos hraise]

/-- The raise of the firmware counter, which every step of it enters. -/
theorem exec_updateActivate_raise {x : UpdImage} {f : Fuses} (h : s.upd.committed = some x) (hf : fld m 0 8 = 1)
    (hkind : x.kind = 0) (harb : x.arb ≤ 256) (hfs : s.sec.fuses = f) (hlow : f.fw < x.arb) :
    exec (.updateActivate b m gold blow bits) s = .next (State.updateOver
      (match blow.val with
      | 0 => (s.setFuses (f.raiseTo 0 (raiseEnd f.fw x.arb bits.toNat blow))).activateDone k
      | 1 => (s.setFuses (f.raiseTo 0 (raiseEnd f.fw x.arb bits.toNat blow))).fuseFail.finish k stHw 0 {}
      | _ => s.setFuses (f.raiseTo 0 (raiseEnd f.fw x.arb bits.toNat blow)))) := by
  have hopen : ¬ raiseRefused x gold.toNat = true := by
    unfold raiseRefused
    simp [hkind, harb]
  have hup : ¬ (1 < x.kind ∨ x.arb ≤ s.sec.fuses.counter x.kind) := by
    rw [hkind, hfs]
    exact fun hc => hc.elim (by omega) (fun hle => absurd (show x.arb ≤ f.fw from hle) (by omega))
  refine congrArg (fun t : State => Host.Outcome.next t.updateOver) ((runTaken_eq hk _).trans ?_)
  simp only [h]
  rw [if_neg (by simp [hf]), if_neg hopen, State.activateRaise]
  dsimp only
  rw [if_neg hup, hkind, hfs]
  rfl
end

theorem raiseTo_firmware {f : Fuses} {v : Nat} (h : f.fw ≤ v) : f.raiseTo 0 v = { f with fw := v } := by
  unfold Fuses.raiseTo
  simp only [Nat.max_eq_right h]

theorem updateActivate_raises {b : Fin 8} {m : Msg} {gold : BitVec 16} {blow : Fin 3} {bits : BitVec 9} {s : State} {k : Taken}
    (hk : Taking s b opActivate m k) {x : UpdImage} {f : Fuses} (h : s.upd.committed = some x) (hf : fld m 0 8 = 1)
    (hkind : x.kind = 0) (harb : x.arb ≤ 256) (hfs : s.sec.fuses = f) (hlow : f.fw < x.arb) :
    (∀ u : State, blow = 0 → (s.setFuses { f with fw := x.arb }).finish k stOK 0 {} = u → u.flashBusy = false →
      exec (.updateActivate b m gold blow bits) s =
        .next ((State.takeReset { u with upd := { u.upd with warmDue := true } } kWarm).updateOver)) ∧
    (blow = 1 → f.fw + bits.toNat < x.arb → exec (.updateActivate b m gold blow bits) s =
      .next (((s.setFuses { f with fw := f.fw + bits.toNat }).fuseFail.finish k stHw 0 {}).updateOver)) ∧
    (blow = 2 → f.fw + bits.toNat ≤ x.arb → exec (.updateActivate b m gold blow bits) s =
      .next ((s.setFuses { f with fw := f.fw + bits.toNat }).updateOver)) := by
  have he := exec_updateActivate_raise (gold := gold) (blow := blow) (bits := bits) hk h hf hkind harb hfs hlow
  refine ⟨fun u hb hu hfree => ?_, fun hb hbits => ?_, fun hb hbits => ?_⟩
  · subst hb hu
    rw [he, show raiseEnd f.fw x.arb bits.toNat 0 = x.arb from rfl, raiseTo_firmware (le_of_lt hlow)]
    exact congrArg Host.Outcome.next (warmAsked_free hfree)
  · subst hb
    rw [he, show raiseEnd f.fw x.arb bits.toNat 1 = f.fw + bits.toNat from Nat.min_eq_left (by omega),
      raiseTo_firmware (Nat.le_add_right _ _)]
    rfl
  · subst hb
    rw [he, show raiseEnd f.fw x.arb bits.toNat 2 = f.fw + bits.toNat from Nat.min_eq_left hbits,
      raiseTo_firmware (Nat.le_add_right _ _)]
    rfl

theorem updateActivate_clause (b : Fin 8) (m : Msg) (gold : BitVec 16) (blow : Fin 3) (bits : BitVec 9) (s : State) (k : Taken)
    (hk : Taking s b opActivate m k) :
    (s.upd.committed = none → exec (.updateActivate b m gold blow bits) s = .next ((s.finish k stState 0 {}).updateOver)) ∧
    (∀ (x : UpdImage) (u : State), s.upd.committed = some x → fld m 0 8 ≠ 1 → s.finish k stOK 0 {} = u →
      u.flashBusy = false → exec (.updateActivate b m gold blow bits) s =
        .next ((State.takeReset { u with upd := { u.upd with warmDue := true } } kWarm).updateOver)) ∧
    (∀ (x : UpdImage) (u : State), s.upd.committed = some x → fld m 0 8 ≠ 1 → s.finish k stOK 0 {} = u →
      u.flashBusy = true → exec (.updateActivate b m gold blow bits) s =
        .next (State.updateOver { u with upd := { u.upd with warmDue := true } })) ∧
    (∀ x : UpdImage, s.upd.committed = some x → fld m 0 8 = 1 → 256 < x.arb ∨ x.kind = 1 ∧ gold.toNat < x.arb →
      exec (.updateActivate b m gold blow bits) s = .next ((s.finish k stState 0 {}).updateOver)) ∧
    (∀ (x : UpdImage) (f : Fuses), s.upd.committed = some x → fld m 0 8 = 1 → x.kind = 0 → x.arb ≤ 256 →
      s.sec.fuses = f → f.fw < x.arb →
      (∀ u : State, blow = 0 → (s.setFuses { f with fw := x.arb }).finish k stOK 0 {} = u → u.flashBusy = false →
        exec (.updateActivate b m gold blow bits) s =
          .next ((State.takeReset { u with upd := { u.upd with warmDue := true } } kWarm).updateOver)) ∧
      (blow = 1 → f.fw + bits.toNat < x.arb → exec (.updateActivate b m gold blow bits) s =
        .next (((s.setFuses { f with fw := f.fw + bits.toNat }).fuseFail.finish k stHw 0 {}).updateOver)) ∧
      (blow = 2 → f.fw + bits.toNat ≤ x.arb → exec (.updateActivate b m gold blow bits) s =
        .next ((s.setFuses { f with fw := f.fw + bits.toNat }).updateOver))) := by
  refine ⟨exec_updateActivate_none hk, fun x u h hf hu hfree => ?_, fun x u h hf hu hbusy => ?_,
    fun x => exec_updateActivate_refused hk, fun x f => updateActivate_raises hk⟩
  · subst hu
    rw [exec_updateActivate_plain hk h hf, warmAsked_free hfree]; rfl
  · subst hu
    rw [exec_updateActivate_plain hk h hf, warmAsked_busy hbusy]; rfl

end Sys2Proof.Mailboxes

namespace Sys2Proof.Mailboxes

open Sys2Proof.Machine Sys2Proof.Safety

/-! ### What packets, events and dispatchers leave alone

A halt that ends, or a fabric port that stops, sets off requests, events and decision passes. None of them writes a halt's
status, the debug status, a region's state or a configuration frame. -/

/-- Offsets of the registers that requests, events and dispatchers leave alone. -/
def calmRows : List Nat := [R.DBG_CORE_STATUS.off, R.SEC_DBG_STATUS.off, R.PR_REGION_STATE.off]

/-- From `s` to `t` the calm registers and the configuration frames stay. -/
structure Calm (s t : State) : Prop where
  regs : KeepsRegs (· ∈ calmRows) s t
  frames : t.fab.frames = s.fab.frames

namespace Calm

variable {s t u : State}

theorem refl (s : State) : Calm s s := ⟨.refl s, rfl⟩

theorem trans (h : Calm s t) (h' : Calm t u) : Calm s u := ⟨h.regs.trans h'.regs, h'.frames.trans h.frames⟩

/-- Neither the register file nor the frames are touched. -/
theorem of_same (hr : t.regs = s.regs) (hf : t.fab.frames = s.fab.frames) : Calm s t := ⟨(KeepsRegs.refl s).of_regs hr, hf⟩

theorem setReg (s : State) {r : RegRow} {i : Nat} (v : Nat) (hi : i < 2 ^ 32) (hr : r.off ∉ calmRows := by decide) :
    Calm s (s.setReg r i v) := ⟨(KeepsRegs.refl s).setReg v hr hi, rfl⟩

theorem put (s : State) {f : Fd} {i : Nat} (v : Nat) (hi : i < 2 ^ 32) (hr : f.reg.off ∉ calmRows := by decide) :
    Calm s (s.put f i v) := setReg s _ hi hr

theorem count (s : State) {f : Fd} {i : Nat} (v : Nat) (hi : i < 2 ^ 32) (hr : f.reg.off ∉ calmRows := by decide) :
    Calm s (s.count f i v) := put s _ hi hr

theorem countReg (s : State) {r : RegRow} {i : Nat} (v : Nat) (hi : i < 2 ^ 32) (hr : r.off ∉ calmRows := by decide) :
    Calm s (s.countReg r i v) := setReg s _ hi hr

theorem setPair (s : State) {lo hi : RegRow} {i : Nat} (v : Nat) (hi' : i < 2 ^ 32) (hlo : lo.off ∉ calmRows := by decide)
    (hhi : hi.off ∉ calmRows := by decide) : Calm s (s.setPair lo hi i v) := (setReg s _ hi' hlo).trans (setReg _ _ hi' hhi)

theorem msix (s : State) (fn v : Nat) : Calm s (s.msix fn v) := of_same rfl rfl

theorem foldl {β : Type} {f : State → β → State} {l : List β} (hf : ∀ t, ∀ x ∈ l, Calm t (f t x)) (s : State) :
    Calm s (l.foldl f s) := by
  induction l generalizing s with
  | nil => exact refl s
  | cons x l ih => exact (hf s x (by simp)).trans (ih (fun t y hy => hf t y (by simp [hy])) (f s x))

end Calm

/-! #### Events -/

theorem calm_feAct (s : State) : Calm s s.feAct :=
  (Calm.put s (f := F.ERR_STATUS.FE) 1 (by decide)).trans (.msix _ 0 4)

theorem calm_logEntry (s : State) (e : Entry) : Calm s (s.logEntry e) := by
  unfold State.logEntry
  split
  · exact .of_same rfl rfl
  · split
    · dsimp only
      split
      · split
        · refine Calm.trans ?_ (Calm.put _ _ (by decide))
          exact .of_same rfl rfl
        · refine Calm.trans (Calm.trans ?_ (Calm.put _ _ (by decide))) (Calm.msix _ 0 3)
          exact .of_same rfl rfl
      · exact .of_same rfl rfl
    · exact .countReg s _ (by decide)

theorem calm_collEntry (s : State) {q : Nat} (hq : q < 2 ^ 32) (e : Entry) : Calm s (s.collEntry q e) := by
  unfold State.collEntry
  dsimp only
  split
  · exact .of_same rfl rfl
  · split
    · exact .of_same rfl rfl
    · exact .countReg s _ hq

theorem stageQuad_lt {k : Nat} (hk : k < 2 ^ 32) : stageQuad k < 2 ^ 32 := by
  unfold stageQuad
  split_ifs <;> omega

theorem calm_stageEntry (s : State) {k : Nat} (hk : k < 2 ^ 32) (e : Entry) : Calm s (s.stageEntry k e) := by
  unfold State.stageEntry
  dsimp only
  split
  · exact .of_same rfl rfl
  · split
    · exact .of_same rfl rfl
    · exact .countReg s _ (stageQuad_lt hk)

/-- The number of a place of the collector path is below `2^32`. -/
def Bounded : Place → Prop
  | .stage k => k < 2 ^ 32
  | .coll q => q < 2 ^ 32
  | .log => True

theorem calm_raiseAt (s : State) {p : Place} (hp : Bounded p) (e : Ev) : Calm s (s.raiseAt p e) := by
  have henter : Calm s (s.enter p (e.entry s.now)) := by
    unfold State.enter
    cases p with
    | stage k => exact calm_stageEntry s hp _
    | coll q => exact calm_collEntry s hp _
    | log => exact calm_logEntry s _
  unfold State.raiseAt
  dsimp only
  split
  · exact henter.trans (calm_feAct _)
  · exact henter

theorem quadOfEndpoint_lt (ep : Nat) : quadOfEndpoint ep < 2 ^ 32 := by
  unfold quadOfEndpoint quadOfRouter; omega

theorem bounded_placeOfEp (ep : Nat) : Bounded (placeOfEp ep) := by
  unfold placeOfEp
  split
  · trivial
  · exact quadOfEndpoint_lt ep

theorem accGroupOf_le (i : Nat) : accGroupOf i ≤ 3 := by unfold accGroupOf; split_ifs <;> omega

theorem bounded_placeOf (source : Nat) : Bounded (placeOf source) := by
  have hi : source % 2 ^ 24 < 2 ^ 24 := Nat.mod_lt _ (by decide)
  unfold placeOf
  generalize source / 2 ^ 24 = cls
  generalize source % 2 ^ 24 = i at hi
  have hgroup := accGroupOf_le (i % 26)
  have hbank := accGroupOf_le (i % 256 / 9)
  dsimp only
  split <;> try (simp only [Bounded]; omega)
  · split_ifs <;> simp only [Bounded] <;> omega
  · simp only [Bounded, quadOfRouter]; omega
  · exact bounded_placeOfEp i
  · split
    next q hq =>
      unfold quadOfDomain at hq
      split_ifs at hq <;> simp only [Bounded] <;> simp only [Option.some.injEq] at hq <;> omega
    · trivial
  · trivial

theorem calm_raise (s : State) (e : Ev) : Calm s (s.raise e) := calm_raiseAt s (bounded_placeOf _) e

/-! #### Packets -/

theorem calm_sendPacket (s : State) (p : Packet) : Calm s (s.sendPacket p) := .of_same rfl rfl

theorem calm_nocAdd (s : State) {lo hi : RegRow} {i : Nat} (k : Nat) (hi' : i < 2 ^ 32) (hlo : lo.off ∉ calmRows := by decide)
    (hhi : hi.off ∉ calmRows := by decide) : Calm s (s.nocAdd lo hi i k) := .setPair s _ hi' hlo hhi

theorem src_lt (p : Packet) : p.src.toNat < 2 ^ 32 := lt_trans p.src.isLt (by decide)

theorem calm_launch (s : State) (p : Packet) : Calm s (s.launch p) := by
  unfold State.launch
  dsimp only
  refine Calm.trans ?_ (calm_sendPacket _ p)
  refine Calm.trans ?_ (calm_nocAdd _ _ (src_lt p))
  refine Calm.trans ?_ (calm_nocAdd _ _ (src_lt p))
  split
  all_goals
    split
    all_goals exact .of_same rfl rfl

theorem calm_pumpList (ps : List Packet) : ∀ (all : Bool) (vcs : List Nat) (s : State) (kept : List Packet),
    Calm s (State.pumpList ps all vcs s kept).1 := by
  induction ps with
  | nil => exact fun _ _ s _ => .refl s
  | cons p r ih =>
    intro all vcs s kept
    unfold State.pumpList
    split
    · exact ih _ _ _ _
    · split
      · exact ih _ _ _ _
      · split
        · exact ih _ _ _ _
        · exact (calm_launch s p).trans (ih _ _ _ _)

theorem calm_pump (s : State) (i : Nat) : Calm s (s.pump i) :=
  (calm_pumpList (s.net.wait.get [] i) false [] s []).trans (.of_same rfl rfl)

theorem calm_postedFailed (s : State) {place : Place} (hp : Bounded place) (ep code addr : Nat) :
    Calm s (s.postedFailed place ep code addr) := calm_raiseAt s hp _

theorem calm_refuseLocal (s : State) (p : Packet) (code : Nat) : Calm s (s.refuseLocal p code) := by
  unfold State.refuseLocal
  split
  · exact .of_same rfl rfl
  · exact calm_postedFailed s (bounded_placeOfEp _) _ _ _

theorem calm_refuseInjection (s : State) (p : Packet) (code : Nat) : Calm s (s.refuseInjection p code) :=
  (Calm.countReg s 1 (by decide)).trans (calm_refuseLocal _ p code)

theorem calm_dozeExit (s : State) : Calm s s.dozeExit := by
  unfold State.dozeExit
  dsimp only
  have hstate : Calm s ((s.restartLoops ((List.range 16).map (5 + ·))).put F.PWR_STATE.STATE 0 0) := by
    refine Calm.trans ?_ (Calm.put _ _ (by decide))
    exact .of_same rfl rfl
  refine hstate.trans (Calm.trans ?_ (Calm.foldl (fun t q _ => ?_) _))
  · exact .of_same rfl rfl
  · exact .of_same rfl rfl

theorem calm_dozeLeft (s : State) (ep : Nat) : Calm s (s.dozeLeft ep) := by
  unfold State.dozeLeft
  split
  · exact .refl s
  · split
    · exact calm_dozeExit s
    · exact .refl s

theorem calm_inject (s : State) (p : Packet) : Calm s (s.inject p) := by
  refine (calm_dozeLeft s p.src.toNat).trans ?_
  unfold State.inject
  generalize s.dozeLeft p.src.toNat = t
  dsimp only
  split
  · exact .refl t
  · split
    · exact calm_refuseInjection t p 3
    · split
      · exact calm_refuseInjection t p _
      · refine Calm.trans ?_ (calm_pump _ _)
        exact .of_same rfl rfl

end Sys2Proof.Mailboxes

namespace Sys2Proof.Mailboxes

open Sys2Proof.Machine Sys2Proof.Safety

/-! #### Dispatchers -/

theorem calm_setDsp (s : State) (q : Nat) (x : Disp) : Calm s (s.setDsp q x) := .of_same rfl rfl

theorem calm_setTask (s : State) (q h : Nat) (f : Task → Task) : Calm s (s.setTask q h f) := .of_same rfl rfl

theorem calm_freeVariants (s : State) (q h : Nat) : Calm s (s.freeVariants q h) := calm_setTask s q h _

section
variable {q : Nat} (hq : q < 4)
include hq

theorem quad_lt : q < 2 ^ 32 := lt_trans hq (by decide)

theorem calm_dispFlags (s : State) : Calm s (s.dispFlags q) := by
  have hq := quad_lt hq
  unfold State.dispFlags
  exact (((((((Calm.put s _ hq).trans (.put _ _ hq)).trans (.put _ _ hq)).trans (.put _ _ hq)).trans (.put _ _ hq)).trans
    (.setReg _ _ hq)).trans (.put _ _ hq))

theorem calm_varFail (s : State) : Calm s (s.varFail q) := (Calm.put s 1 (quad_lt hq)).trans (calm_raise _ _)

theorem calm_startFetch (s : State) (h : Nat) : Calm s (s.startFetch q h) := by
  unfold State.startFetch
  split
  · exact .refl s
  · split
    · split
      · exact (calm_setTask s q h _).trans (calm_varFail hq _)
      · split
        · exact .refl s
        · exact (calm_setTask s q h _).trans (calm_inject _ _)
    · exact .refl s

theorem calm_resumeFetches (s : State) : Calm s (s.resumeFetches q) := .foldl (fun t _ _ => calm_startFetch hq t _) s

theorem calm_wantVariant (s : State) (h : Nat) : Calm s (s.wantVariant q h) :=
  (calm_setTask s q h _).trans (calm_startFetch hq _ h)

theorem calm_makeReady (s : State) (h : Nat) : Calm s (s.makeReady q h) :=
  ((calm_setTask s q h _).trans (calm_setDsp _ q _)).trans (calm_wantVariant hq _ h)

theorem calm_replaceTask (s : State) (h : Nat) : Calm s (s.replaceTask q h) :=
  ((calm_setTask s q h _).trans (calm_wantVariant hq _ h)).trans (.countReg _ 1 (quad_lt hq))

theorem calm_signal (s : State) (id : Nat) : Calm s (s.signal q id) := by
  have hq' := quad_lt hq
  unfold State.signal
  dsimp only
  split
  · exact .count s 1 hq'
  · split
    · split
      · exact .count s 1 hq'
      · split
        · exact (calm_setTask s q _ _).trans (calm_makeReady hq _ _)
        · exact calm_setTask s q _ _
    · split
      · exact calm_setDsp s q _
      · exact ((Calm.count s 1 hq').trans (.put _ 1 hq')).trans (calm_raise _ _)

theorem calm_sendSignals (s : State) (d : BitVec 512) : Calm s (s.sendSignals q d) := by
  refine .foldl (fun t w _ => ?_) s
  split
  · exact calm_signal hq t _
  · exact calm_setDsp t _ _

omit hq in
theorem calm_cqSend (s : State) (q n : Nat) (e : BitVec 256) : Calm s (s.cqSend q n e) :=
  (calm_setDsp s q _).trans (calm_inject _ _)

omit hq in
theorem calm_cqPumpList (q : Nat) (es : List (Nat × BitVec 256)) : ∀ (full : List Nat) (s : State)
    (kept : List (Nat × BitVec 256)), Calm s (State.cqPumpList q es full s kept).1 := by
  induction es with
  | nil => exact fun _ s _ => .refl s
  | cons ne r ih =>
    intro full s kept
    obtain ⟨n, e⟩ := ne
    unfold State.cqPumpList
    dsimp only
    split
    · exact ih _ _ _
    · split
      · exact ih _ _ _
      · exact (calm_cqSend s q n e).trans (ih _ _ _)

theorem calm_cqPump (s : State) : Calm s (s.cqPump q) := by
  have hlist := calm_cqPumpList q (s.dsp q).cbuf [] s []
  unfold State.cqPump
  refine (hlist.trans (Calm.foldl (fun t n hn => ?_) _)).trans (calm_setDsp _ q _)
  have := List.mem_range.mp hn
  exact .put t _ (by unfold cqKey; omega)

theorem calm_post (s : State) (t : Task) (status detail : Nat) (late : Bool) : Calm s (s.post q t status detail late) := by
  unfold State.post
  split
  · exact (calm_setDsp s q _).trans (calm_cqPump hq _)
  · exact .refl s

theorem calm_completeTask (s : State) (h status detail : Nat) : Calm s (s.completeTask q h status detail) := by
  unfold State.completeTask
  split
  · exact .refl s
  next t _ =>
    dsimp only
    refine Calm.trans (Calm.trans (Calm.trans (Calm.trans (Calm.trans ?_ (calm_freeVariants _ q h)) (calm_setTask _ q h _))
      (calm_sendSignals hq _ _)) (calm_post hq _ _ _ _ _)) (calm_setDsp _ q _)
    split
    · exact .countReg s 1 (quad_lt hq)
    · exact .refl s

theorem calm_resolveSlot (s : State) (h : Nat) : Calm s (s.resolveSlot q h) := by
  unfold State.resolveSlot
  split
  · exact .refl s
  · split
    · exact .refl s
    · dsimp only
      split
      · exact .refl s
      · split
        · exact (calm_setTask s q h _).trans (.put _ 1 (quad_lt hq))
        · exact calm_setTask s q h _

theorem calm_takeTask (s : State) (d : BitVec 512) : Calm s (s.takeTask q d) := by
  unfold State.takeTask
  extract_lets x h hits rel t s₁ s₂
  have hstart : Calm s s₂ := (calm_setDsp s q _).trans (.count _ _ (quad_lt hq))
  split
  · exact hstart.trans (calm_resolveSlot hq _ _)
  · split
    · exact hstart.trans (calm_setTask _ q _ _)
    · split
      · exact hstart.trans (calm_setTask _ q _ _)
      · exact hstart.trans (calm_makeReady hq _ _)

theorem calm_takeGo (s : State) (w : Waiting) : Calm s (s.takeGo q w) := by
  unfold State.takeGo
  extract_lets s₁ s₂
  have hanswer : Calm s s₁ := by
    simp only [s₁]
    split
    · exact .of_same rfl rfl
    · exact .refl s
  have hrej : Calm s s₂ := hanswer.trans (.put _ 1 (quad_lt hq))
  split
  · exact hanswer.trans (calm_takeTask hq _ _)
  · split
    · exact hrej.trans (calm_raiseAt _ (p := .coll q) (quad_lt hq) _)
    · exact hrej

theorem calm_intake (fuel : Nat) : ∀ s : State, Calm s (s.intake q fuel) := by
  induction fuel with
  | zero => exact .refl
  | succ fuel ih =>
    intro s
    refine (calm_resumeFetches hq s).trans ?_
    unfold State.intake
    generalize s.resumeFetches q = t
    dsimp only
    split
    · exact .refl t
    · split
      · exact .refl t
      · exact ((calm_setDsp t q _).trans (calm_takeGo hq _ _)).trans (ih _)

/-! #### Decision passes -/

omit hq in
/-- Elements of a class are elements of the quadrant. -/
theorem classOf_lt {d : BitVec 512} {e : Nat} (h : e ∈ classOf d) : e < 90 := by
  have hcl : dCluster d < 2 ^ 3 := Nat.mod_lt _ (by decide)
  unfold classOf at h
  split at h
  · have := List.mem_range.mp h; omega
  · obtain ⟨j, hj, rfl⟩ := List.mem_map.mp h
    have := List.mem_range.mp hj; omega
  · obtain ⟨j, hj, rfl⟩ := List.mem_map.mp h
    have := List.mem_range.mp (List.mem_filter.mp hj).1; omega

omit hq in
theorem elementFor_lt {s : State} {d : BitVec 512} {e : Nat} (h : s.elementFor q d = some e) : e < 90 :=
  classOf_lt (List.mem_of_find?_eq_some h)

omit hq in
/-- A search that keeps its best or takes the element at hand ends with an element of the list. -/
theorem foldl_best {β : Type} {f : Option (Nat × β) → Nat → Option (Nat × β)} {P : Nat → Prop}
    (hf : ∀ best e, f best e = best ∨ ∃ p, f best e = some (e, p)) (l : List Nat) (hl : ∀ e ∈ l, P e) :
    ∀ best, (∀ b, best = some b → P b.1) → ∀ b, l.foldl f best = some b → P b.1 := by
  induction l with
  | nil => exact fun _ h => h
  | cons e l ih =>
    intro best hbest
    refine ih (fun x hx => hl x (by simp [hx])) (f best e) (fun b hb => ?_)
    rcases hf best e with h | ⟨p, h⟩
    · exact hbest b (h ▸ hb)
    · rw [h] at hb
      obtain rfl := Option.some.inj hb
      exact hl e (by simp)

omit hq in
theorem victim_lt {s : State} {q : Nat} {d : BitVec 512} {e : Nat} (h : s.victim q d = some e) : e < 90 := by
  unfold State.victim at h
  split at h
  · exact nomatch h
  · obtain ⟨b, hb, rfl⟩ := Option.map_eq_some_iff.mp h
    refine foldl_best (P := (· < 90)) (fun best e => ?_) _ (fun e he => classOf_lt he) none (fun b hb => nomatch hb) b hb
    rcases (s.dsp q).running e with _ | ⟨low, _ | _⟩
    · exact .inl rfl
    · dsimp only
      split_ifs
      · exact .inl rfl
      · exact .inr ⟨_, rfl⟩
    · exact .inl rfl

omit hq in
theorem pick_lt {s : State} {q : Nat} {d : BitVec 512} {el : Nat × Bool} (h : s.pick q d = some el) : el.1 < 90 := by
  unfold State.pick at h
  split at h
  next e he =>
    obtain rfl := Option.some.inj h
    exact elementFor_lt he
  · obtain ⟨e, he, rfl⟩ := Option.map_eq_some_iff.mp h
    exact victim_lt he

omit hq in
theorem energySwap_lt {s : State} {q e ve : Nat} {t : Task} (h : s.energySwap q e t = some ve) : ve < 90 := by
  unfold State.energySwap at h
  split at h
  · exact nomatch h
  · dsimp only at h
    split at h
    · exact nomatch h
    · split at h
      · exact nomatch h
      next hve =>
        split at h
        · exact nomatch h
        · obtain rfl := Option.some.inj h
          exact elementFor_lt hve

theorem calm_setAcct (s : State) (v : Int) : Calm s (s.setAcct q v) := .setReg s _ (quad_lt hq)

theorem calm_dispatchTask (s : State) (h e : Nat) (upper : Bool) : Calm s (s.dispatchTask q h e upper) := by
  unfold State.dispatchTask
  split
  · exact .refl s
  next t _ =>
    extract_lets s₁ a s₂ s₃
    have h₁ : Calm s s₁ := (calm_freeVariants s q h).trans (calm_setTask _ q h _)
    have h₂ : Calm s₁ s₂ := by
      show Calm s₁ (if _ then _ else _)
      split
      · exact (calm_setAcct hq _ _).trans (.put _ 1 (quad_lt hq))
      · exact calm_setAcct hq _ _
    have h₃ : Calm s s₃ := (h₁.trans h₂).trans (.setPair _ _ (quad_lt hq))
    split
    · exact h₃
    · exact h₃.trans (calm_setDsp _ q _)

omit hq in
theorem calm_coreIrq (s : State) {n : Nat} (hn : n < 2 ^ 32) (k : Nat) : Calm s (s.coreIrq n k) := .put s _ hn

theorem calm_launchTask (s : State) (h : Nat) {el : Nat × Bool} (hel : el.1 < 90) : Calm s (s.launchTask q h el) := by
  unfold State.launchTask
  split
  · refine Calm.trans ?_ (calm_coreIrq _ (by omega) 0)
    exact calm_setDsp s q _
  · exact calm_dispatchTask hq s _ _ _

theorem calm_decideTask (fuel : Nat) : ∀ (s : State) (h : Nat) {el : Nat × Bool}, el.1 < 90 →
    Calm s (s.decideTask q h fuel el).2 := by
  induction fuel with
  | zero => exact fun s _ _ _ => .refl s
  | succ fuel ih =>
    intro s h el hel
    unfold State.decideTask
    split
    · exact .refl s
    next t _ =>
      extract_lets late s₁ s₂
      have h₁ : Calm s s₁ := by
        show Calm s (if _ then _ else _)
        split
        · exact (Calm.countReg s 1 (quad_lt hq)).trans (calm_setTask _ q h _)
        · exact .refl s
      have h₂ : Calm s s₂ := h₁.trans (calm_replaceTask hq _ h)
      clear_value s₁ late
      split
      · refine Calm.trans ?_ (calm_completeTask hq _ h 1 0)
        exact (h₁.trans (calm_freeVariants s₁ q h)).trans (.countReg _ 1 (quad_lt hq))
      · split
        · split
          · exact h₂
          next hpick =>
            obtain ⟨u, -, hpick⟩ := Option.bind_eq_some_iff.mp hpick
            exact h₂.trans (ih _ h (pick_lt hpick))
        · split
          · dsimp only
            exact h₁.trans (calm_launchTask hq s₁ h hel)
          · split
            next ve hswap =>
              dsimp only
              exact (h₁.trans (calm_replaceTask hq s₁ h)).trans (calm_launchTask hq (s₁.replaceTask q h) h
                (el := (ve, false)) (energySwap_lt hswap))
            · exact h₁

theorem calm_passList (hs : List Nat) : ∀ (held : List (Nat × Nat)) (s : State),
    Calm s (State.passList q hs held s).2 := by
  induction hs with
  | nil => exact fun _ s => .refl s
  | cons h r ih =>
    intro held s
    unfold State.passList
    split
    · exact ih _ _
    · dsimp only
      split
      · exact .refl s
      · split
        · exact ih _ _
        · split
          · exact ih _ _
          next hpick => exact (calm_decideTask hq 4 s h (pick_lt hpick)).trans (ih _ _)

theorem calm_pass (s : State) : Calm s (s.pass q) := by
  unfold State.pass
  split
  · exact (calm_passList hq _ [] s).trans (calm_setDsp _ q _)
  · exact .refl s

theorem calm_passes (fuel : Nat) : ∀ s : State, Calm s (s.passes q fuel) := by
  induction fuel with
  | zero => exact .refl
  | succ fuel ih =>
    intro s
    have hround := ((calm_intake hq 5000 s).trans (calm_pass hq _)).trans (calm_intake hq 5000 _)
    unfold State.passes
    dsimp only
    generalize ((s.intake q 5000).pass q).intake q 5000 = t at hround ⊢
    split
    · exact hround
    · exact hround.trans (ih _)

/-- A trigger of the dispatcher leaves the calm registers alone. -/
theorem calm_redecide (s : State) : Calm s (s.redecide q) :=
  (((calm_setDsp s q _).trans (calm_passes hq _ _)).trans (calm_intake hq 5000 _)).trans (calm_dispFlags hq _)

end

end Sys2Proof.Mailboxes

namespace Sys2Proof.Mailboxes

open Sys2Proof.Machine Sys2Proof.Safety

/-! ### A region loses its configuration -/

theorem calm_targetRefuse (s : State) (p : Packet) (source code : Nat) : Calm s (s.targetRefuse p source code) := by
  unfold State.targetRefuse
  split
  · refine Calm.trans ?_ (calm_sendPacket _ _)
    split
    · exact calm_raiseAt s (bounded_placeOfEp _) _
    · exact .refl s
  · exact calm_postedFailed s (bounded_placeOfEp _) _ _ _

theorem calm_setFport (s : State) (p : Nat) (x : FPort) : Calm s (s.setFport p x) := .of_same rfl rfl

theorem calm_portOut (s : State) {p : Nat} (hp : p < 2 ^ 32) : Calm s (s.portOut p) := .put s _ hp

theorem calm_portRequest (s : State) {p : Nat} (hp : p < 2 ^ 32) (q : Packet) : Calm s (s.portRequest p q) := by
  unfold State.portRequest
  dsimp only
  split
  · exact calm_refuseInjection s _ 3
  · split
    · exact calm_inject s _
    · exact ((Calm.put s 1 hp).trans (.count _ 1 hp)).trans (calm_refuseLocal _ _ 7)

/-- A port that becomes inactive leaves the state of every region and the frames alone. -/
theorem calm_portStop (s : State) {p : Nat} (hp : p < 2 ^ 32) : Calm s (s.portStop p) := by
  unfold State.portStop
  split
  · extract_lets x s₁ s₂ s₃
    have h₁ : Calm s s₁ := .put s 0 hp
    have h₂ : Calm s s₂ := (h₁.trans (calm_setFport _ p _)).trans (calm_portOut _ hp)
    have h₃ : Calm s s₃ := h₂.trans (.foldl (fun t _ _ => calm_targetRefuse t _ _ _) _)
    split
    · exact h₃.trans (calm_portRequest _ hp _)
    · exact h₃
  · exact .refl s

theorem calm_stopPorts (s : State) {r : Nat} (hr : r < 64) : Calm s ((regionPorts r).foldl (fun t p => t.portStop p) s) := by
  refine .foldl (fun t p hp => calm_portStop t ?_) s
  simp only [regionPorts, List.mem_cons, List.not_mem_nil, or_false] at hp
  omega

/-- A table of which some keys are dropped reads as before at the others, and its default at those. -/
theorem get_filter {α : Type} (m : SMap α) (d : α) (p : Nat → Bool) (k : Nat) :
    SMap.get (m.filter (fun e => p e.1)) d k = if p k then m.get d k else d := by
  induction m with
  | nil => simp [SMap.get]
  | cons e m ih =>
    obtain ⟨j, v⟩ := e
    rw [List.filter_cons]
    by_cases hj : j = k
    · subst hj
      by_cases hp : p j <;> simp [hp, SMap.get] at ih ⊢
      exact ih
    · by_cases hp : p j <;> simp [hp, SMap.get, hj, ih]

/-- Registers a region's state is shown in. -/
def regionKeys (r : Nat) : List Nat := [regKey R.PR_REGION_STATE r, regKey R.PR_LOADED_LO 0, regKey R.PR_LOADED_HI 0,
  regKey R.PR_FAILED_LO 0, regKey R.PR_FAILED_HI 0]

theorem holdBorders_regs (s : State) (r : Nat) : (s.holdBorders r).regs = s.regs := by
  unfold State.holdBorders; split <;> rfl

theorem holdBorders_frames (s : State) (r : Nat) : (s.holdBorders r).fab.frames = s.fab.frames := by
  unfold State.holdBorders; split <;> rfl

theorem holdBorders_cfg (s : State) (r : Nat) : (s.holdBorders r).cfg = s.cfg := by
  unfold State.holdBorders; split <;> rfl

/-- The state and isolation of a region written, before the summaries follow. -/
def regionWritten (s : State) (r st : Nat) : State :=
  ((if st = 3 then s else s.holdBorders r).put F.PR_REGION_STATE.STATE r st).put F.PR_REGION_STATE.ISOLATED r (bit (st != 3))

theorem regionWritten_regsKeep (s : State) (r st : Nat) : RegsKeep s (regionWritten s r st) (regionKeys r) := by
  refine RegsKeep.put (RegsKeep.put ?_ _ (by simp [regionKeys])) _ (by simp [regionKeys])
  split
  · exact .refl s _
  · exact (RegsKeep.refl s _).of_regs (holdBorders_regs s r)

theorem get_state_regionWritten (s : State) (r : Nat) {st : Nat} (h : st < 8) : (regionWritten s r st).regionState r = st := by
  rw [State.regionState, regionWritten, State.get_put_disjoint _ F.PR_REGION_STATE.ISOLATED F.PR_REGION_STATE.STATE _ _ rfl
    (by decide) (by decide), State.get_put_self _ _ _ _ (by decide)]
  exact Nat.mod_eq_of_lt h

/-- A region's bit in a pair of summary registers written. -/
def summaryMarked (t : State) (r : Nat) (lo hi : RegRow) (b : Bool) : State :=
  if r < 32 then t.setReg lo 0 (bitsSet (t.reg lo 0) r 1 (bit b)) else t.setReg hi 0 (bitsSet (t.reg hi 0) (r - 32) 1 (bit b))

theorem setRegion_eq (s : State) (r st : Nat) : s.setRegion r st =
    summaryMarked (summaryMarked (regionWritten s r st) r R.PR_LOADED_LO R.PR_LOADED_HI
      (st == 2 || st == 3 || st == 5 && ((regionWritten s r st).cfg.images.get {} r).configured))
      r R.PR_FAILED_LO R.PR_FAILED_HI (st == 4) := rfl

theorem summaryMarked_regsKeep (t : State) (r : Nat) (lo hi : RegRow) (b : Bool) :
    RegsKeep t (summaryMarked t r lo hi b) [regKey lo 0, regKey hi 0] := by
  unfold summaryMarked
  split
  · exact (RegsKeep.refl t _).setReg _ (by simp)
  · exact (RegsKeep.refl t _).setReg _ (by simp)

theorem summaryMarked_fab (t : State) (r : Nat) (lo hi : RegRow) (b : Bool) : (summaryMarked t r lo hi b).fab = t.fab := by
  unfold summaryMarked; split <;> rfl

theorem summaryMarked_cfg (t : State) (r : Nat) (lo hi : RegRow) (b : Bool) : (summaryMarked t r lo hi b).cfg = t.cfg := by
  unfold summaryMarked; split <;> rfl

theorem setRegion_regsKeep (s : State) (r st : Nat) : RegsKeep s (s.setRegion r st) (regionKeys r) := by
  rw [setRegion_eq]
  exact ((regionWritten_regsKeep s r st).trans ((summaryMarked_regsKeep _ _ _ _ _).mono (by simp [regionKeys]))).trans
    ((summaryMarked_regsKeep _ _ _ _ _).mono (by simp [regionKeys]))

theorem setRegion_frames (s : State) (r st : Nat) : (s.setRegion r st).fab.frames = s.fab.frames := by
  rw [setRegion_eq, summaryMarked_fab, summaryMarked_fab]
  change (if st = 3 then s else s.holdBorders r).fab.frames = _
  split
  · rfl
  · exact holdBorders_frames s r

theorem setRegion_cfg (s : State) (r st : Nat) : (s.setRegion r st).cfg = s.cfg := by
  rw [setRegion_eq, summaryMarked_cfg, summaryMarked_cfg]
  change (if st = 3 then s else s.holdBorders r).cfg = _
  split
  · rfl
  · exact holdBorders_cfg s r

theorem setRegion_state (s : State) {r st : Nat} (hr : r < 64) (hst : st < 8) : (s.setRegion r st).regionState r = st := by
  rw [setRegion_eq, State.regionState, (summaryMarked_regsKeep _ _ _ _ _).get (by simp [regKey]; omega),
    (summaryMarked_regsKeep _ _ _ _ _).get (by simp [regKey]; omega)]
  exact get_state_regionWritten s r hst

/-- The key of another region's state is none that setting a region's state writes. -/
theorem stateKey_notMem {r j : Nat} (hj : j < 64) (h : j ≠ r) : regKey R.PR_REGION_STATE j ∉ regionKeys r := by
  simp [regKey, regionKeys]; omega

/-! ### Unloading -/

/-- What an unload of region `r` does to the registers of other regions' states, to the frames and to the images. -/
structure OthersKeep (r : Nat) (s t : State) : Prop where
  state : ∀ j < 64, j ≠ r → t.regionState j = s.regionState j
  frames : ∀ a, a / 2 ^ 16 ≠ r → t.fab.frames.get 0 a = s.fab.frames.get 0 a

namespace OthersKeep

variable {r : Nat} {s t u : State}

theorem trans (h : OthersKeep r s t) (h' : OthersKeep r t u) : OthersKeep r s u :=
  ⟨fun j hj hr => (h'.state j hj hr).trans (h.state j hj hr), fun a ha => (h'.frames a ha).trans (h.frames a ha)⟩

theorem of_calm (h : Calm s t) : OthersKeep r s t :=
  ⟨fun j hj _ => h.regs.get F.PR_REGION_STATE.STATE (by decide) (by omega), fun a _ => by rw [h.frames]⟩

theorem of_regsKeep {ks : List Nat} (h : RegsKeep s t ks) (hk : ∀ j < 64, j ≠ r → regKey R.PR_REGION_STATE j ∉ ks)
    (hf : t.fab.frames = s.fab.frames) : OthersKeep r s t :=
  ⟨fun j hj hne => h.get (f := F.PR_REGION_STATE.STATE) (hk j hj hne), fun a _ => by rw [hf]⟩

end OthersKeep

theorem setRegion_others (s : State) (r st : Nat) : OthersKeep r s (s.setRegion r st) :=
  .of_regsKeep (setRegion_regsKeep s r st) (fun _ hj h => stateKey_notMem hj h) (setRegion_frames s r st)

theorem isolateRegion_others (s : State) {r : Nat} (st : Nat) (hr : r < 64) : OthersKeep r s (s.isolateRegion r st) :=
  (OthersKeep.of_calm (calm_stopPorts s hr)).trans (setRegion_others _ r st)

theorem calm_bmCollSum (s : State) (r : Nat) : Calm s (s.bmCollSum r) := by
  unfold State.bmCollSum
  dsimp only
  split
  · exact .setReg s _ (by decide)
  · exact .setReg s _ (by decide)

/-- The tables of a region's frames, drivers, block memories and flip-flops, cleared. -/
def regionEmptied (s : State) (r : Nat) : State :=
  let out := fun (lo hi k : Nat) => decide (k < lo) || decide (hi ≤ k)
  { s with fab := { s.fab with
    frames := s.fab.frames.filter (fun e => out (r * 2 ^ 16) ((r + 1) * 2 ^ 16) e.1)
    checks := s.fab.checks.filter (fun e => out (r * 2 ^ 16) ((r + 1) * 2 ^ 16) e.1)
    hits := s.fab.hits.filter (fun e => out (r * 2 ^ 16) ((r + 1) * 2 ^ 16) e.1)
    drivers := s.fab.drivers.filter (fun e => out (r * 1024) ((r + 1) * 1024) e.1)
    bmWords := s.fab.bmWords.filter (fun e => out (r * 65536) ((r + 1) * 65536) e.1)
    bmPoison := s.fab.bmPoison.filter (fun e => out (r * 65536) ((r + 1) * 65536) e.1)
    bmDamage := s.fab.bmDamage.filter (fun e => out (r * 65536) ((r + 1) * 65536) e.1)
    bmCheck := s.fab.bmCheck.filter (fun e => e.1 / 512 != r)
    ffs := s.fab.ffs.filter (fun e => e.1 != r)
    slices := s.fab.slices.filter (fun e => e.1 / 192 != r)
    leaf := s.fab.leaf.filter (fun e => e.1 / 16 != r) } }

theorem calm_clearRegion (s : State) {r : Nat} (hr : r < 64) : Calm (regionEmptied s r) (s.clearRegion r) := by
  change Calm _ (((List.range 128).foldl (fun t b => t.setReg R.BM_STATUS (128 * r + b) 0) (regionEmptied s r)).bmCollSum r)
  refine Calm.trans (.foldl (fun t b hb => ?_) _) (calm_bmCollSum _ r)
  have := List.mem_range.mp hb
  exact .setReg t 0 (by omega)

theorem regionEmptied_frames (s : State) (r a : Nat) :
    (regionEmptied s r).fab.frames.get 0 a = if a / 2 ^ 16 = r then 0 else s.fab.frames.get 0 a := by
  refine (get_filter s.fab.frames 0 (fun k => decide (k < r * 2 ^ 16) || decide ((r + 1) * 2 ^ 16 ≤ k)) a).trans ?_
  by_cases h : a / 2 ^ 16 = r
  · rw [if_pos h, if_neg (by simp; omega)]
  · rw [if_neg h, if_pos (by simp; omega)]

theorem clearRegion_frames (s : State) {r : Nat} (hr : r < 64) (a : Nat) :
    (s.clearRegion r).fab.frames.get 0 a = if a / 2 ^ 16 = r then 0 else s.fab.frames.get 0 a := by
  rw [(calm_clearRegion s hr).frames, regionEmptied_frames]

theorem clearRegion_others (s : State) {r : Nat} (hr : r < 64) : OthersKeep r s (s.clearRegion r) :=
  ⟨fun j hj _ => (calm_clearRegion s hr).regs.get F.PR_REGION_STATE.STATE (by decide) (by omega),
    fun a ha => by rw [clearRegion_frames s hr, if_neg ha]⟩

/-- Registers of region `r` dropped, which return to their reset values. -/
def regsDropped (s : State) (r : Nat) : State :=
  { s with regs := s.regs.filter (fun e =>
      match regLookup (e.1 / 2 ^ 32) with | some (x, _) => !rowInRegion r x (e.1 % 2 ^ 32) | none => true) }

theorem regionRegs_eq (s : State) (r : Nat) : s.regionRegs r = (regsDropped s r).bmCollSum r := rfl

/-- A register of a listed row reads 0 after the drop where it is one of the region's and its row resets to 0, else as before. -/
theorem reg_regsDropped (s : State) (r : Nat) {x : RegRow} {i n : Nat} (hx : regLookup x.off = some (x, n)) (hi : i < 2 ^ 32) :
    (regsDropped s r).reg x i = if rowInRegion r x i = true then (BitVec.ofNat 32 (resetOf x i)).toNat else s.reg x i := by
  have hoff : regKey x i / 2 ^ 32 = x.off := by unfold regKey; omega
  have hinst : regKey x i % 2 ^ 32 = i := by unfold regKey; omega
  refine (congrArg BitVec.toNat (get_filter s.regs (BitVec.ofNat 32 (resetOf x i)) (fun k =>
    match regLookup (k / 2 ^ 32) with | some (x, _) => !rowInRegion r x (k % 2 ^ 32) | none => true) (regKey x i))).trans ?_
  rw [hoff, hinst, hx]
  by_cases h : rowInRegion r x i = true <;> simp [h, State.reg]

theorem regionRegs_others (s : State) (r : Nat) : OthersKeep r s (s.regionRegs r) := by
  rw [regionRegs_eq]
  refine OthersKeep.trans (t := regsDropped s r) ⟨fun j hj _ => ?_, fun a _ => rfl⟩ (.of_calm (calm_bmCollSum _ r))
  have hrow : rowInRegion r R.PR_REGION_STATE j = false := by unfold rowInRegion; simp
  rw [State.regionState, State.get, reg_regsDropped s r (x := R.PR_REGION_STATE) (n := 0) (by decide +kernel) (by omega),
    hrow, if_neg (by simp)]
  rfl

theorem regionFlags_regsKeep (s : State) (r : Nat) (c i b : Bool) :
    RegsKeep s (s.regionFlags r c i b) [regKey R.PR_REGION_STATE r] :=
  (((RegsKeep.refl s _).put _ (by simp)).put _ (by simp)).put _ (by simp)

theorem regionFlags_others (s : State) (r : Nat) (c i b : Bool) : OthersKeep r s (s.regionFlags r c i b) :=
  .of_regsKeep (regionFlags_regsKeep s r c i b) (fun j _ h => by simpa [regKey] using h) rfl

theorem setImage_others (s : State) (r : Nat) (x : RegionImage) : OthersKeep r s (s.setImage r x) :=
  ⟨fun _ _ _ => rfl, fun _ _ => rfl⟩

theorem bmCollSum_regsKeep (s : State) (r : Nat) :
    RegsKeep s (s.bmCollSum r) [regKey R.BM_COLL_SUM_LO 0, regKey R.BM_COLL_SUM_HI 0] := by
  unfold State.bmCollSum
  dsimp only
  split
  · exact (RegsKeep.refl s _).setReg _ (by simp)
  · exact (RegsKeep.refl s _).setReg _ (by simp)

theorem bmCollSum_fab (s : State) (r : Nat) : (s.bmCollSum r).fab = s.fab := by
  unfold State.bmCollSum
  dsimp only
  split <;> rfl

/-- The ISO modes of the region read 0 once its registers have been dropped. -/
theorem regionRegs_iso (s : State) {r w : Nat} (hr : r < 64) (hw : w < 4) : (s.regionRegs r).reg R.PR_ISO_MODE (4 * r + w) = 0 := by
  have hrow : rowInRegion r R.PR_ISO_MODE (4 * r + w) = true := by
    unfold rowInRegion
    simp; omega
  rw [regionRegs_eq, bmCollSum_regsKeep _ r _ _ (by simp [regKey]; omega),
    reg_regsDropped s r (x := R.PR_ISO_MODE) (n := 0) (by decide +kernel) (by omega), if_pos hrow]
  rfl

/-- The region emptied, before its last state is set. -/
def regionBare (s : State) (r st : Nat) : State :=
  (((((s.isolateRegion r st).clearRegion r).regionRegs r).regionFlags r false false false).setImage r {})

theorem unloadRegion_eq (s : State) (r : Nat) : s.unloadRegion r =
    (regionBare s r (if s.domUp (domRegion r) then 0 else 5)).setRegion r (if s.domUp (domRegion r) then 0 else 5) := rfl

theorem regionBare_others (s : State) {r : Nat} (st : Nat) (hr : r < 64) : OthersKeep r s (regionBare s r st) :=
  ((((isolateRegion_others s st hr).trans (clearRegion_others _ hr)).trans (regionRegs_others _ r)).trans
    (regionFlags_others _ r _ _ _)).trans (setImage_others _ r {})

theorem regionBare_image (s : State) (r st : Nat) : (regionBare s r st).cfg.images.get {} r = {} :=
  SMap.get_set_self ((((s.isolateRegion r st).clearRegion r).regionRegs r).regionFlags r false false false).cfg.images {} r {}

theorem regionBare_frames (s : State) {r : Nat} (st j : Nat) (hr : r < 64) (hj : j < 65536) :
    (regionBare s r st).fab.frames.get 0 (r * 2 ^ 16 + j) = 0 := by
  change (((s.isolateRegion r st).clearRegion r).regionRegs r).fab.frames.get 0 (r * 2 ^ 16 + j) = 0
  rw [regionRegs_eq, bmCollSum_fab]
  change ((s.isolateRegion r st).clearRegion r).fab.frames.get 0 (r * 2 ^ 16 + j) = 0
  rw [clearRegion_frames _ hr, if_pos (by omega)]

theorem regionBare_iso (s : State) {r w : Nat} (st : Nat) (hr : r < 64) (hw : w < 4) :
    (regionBare s r st).reg R.PR_ISO_MODE (4 * r + w) = 0 := by
  have hflags := regionFlags_regsKeep (((s.isolateRegion r st).clearRegion r).regionRegs r) r false false false
    R.PR_ISO_MODE (4 * r + w) (by simp [regKey]; omega)
  rw [regionRegs_iso _ hr hw] at hflags
  exact hflags

/-- A mask of one region names that region. -/
theorem maskBits_two_pow {r : Nat} (hr : r < 64) : maskBits 64 (2 ^ r) = [r] := by
  have h : ∀ r : Fin 64, maskBits 64 (2 ^ r.val) = [r.val] := by decide +kernel
  exact h ⟨r, hr⟩

theorem configUnload_locked {b : Fin 8} {m : Msg} {s : State} {k : Taken} (hk : Taking s b opUnload m k)
    (h : s.isSet F.CFG_LOCK.LOCK 0 = true) : Ends (.configUnload b m) s k stLocked 0 {} (fun u => u = s) :=
  ends_of_runCmd hk rfl (if_pos h) rfl

theorem configUnload_unloads {b : Fin 8} {m : Msg} {s : State} {k : Taken} {r : Nat} (hk : Taking s b opUnload m k)
    (hmask : fld m 0 64 = 2 ^ r) (h : s.isSet F.CFG_LOCK.LOCK 0 = false) (hr : r < 64) :
    Ends (.configUnload b m) s k stOK 0 {} (fun u =>
      u.regionState r = (if s.domUp (domRegion r) = true then 0 else 5) ∧ u.cfg.images.get {} r = {} ∧
      (∀ j < 64, j ≠ r → u.regionState j = s.regionState j) ∧
      (∀ a : Nat, a / 2 ^ 16 ≠ r → u.fab.frames.get 0 a = s.fab.frames.get 0 a) ∧
      (∀ j : Nat, j < 65536 → u.fab.frames.get 0 (r * 2 ^ 16 + j) = 0) ∧ (∀ w < 4, u.reg R.PR_ISO_MODE (4 * r + w) = 0)) := by
  refine ends_of_runCmd (u := (s.unloadRegion r).pruneOverlays) hk rfl ?_ ?_
  · refine (if_neg (by rw [h]; exact Bool.false_ne_true)).trans ?_
    rw [hmask, maskBits_two_pow hr]
    rfl
  · change (s.unloadRegion r).regionState r = _ ∧ (s.unloadRegion r).cfg.images.get {} r = {} ∧
      (∀ j < 64, j ≠ r → (s.unloadRegion r).regionState j = s.regionState j) ∧
      (∀ a : Nat, a / 2 ^ 16 ≠ r → (s.unloadRegion r).fab.frames.get 0 a = s.fab.frames.get 0 a) ∧
      (∀ j : Nat, j < 65536 → (s.unloadRegion r).fab.frames.get 0 (r * 2 ^ 16 + j) = 0) ∧
      (∀ w < 4, (s.unloadRegion r).reg R.PR_ISO_MODE (4 * r + w) = 0)
    rw [unloadRegion_eq]
    have hst : (if s.domUp (domRegion r) = true then 0 else 5) < 8 := by split <;> decide
    generalize (if s.domUp (domRegion r) = true then 0 else 5) = st at hst ⊢
    have hothers := (regionBare_others s st hr).trans (setRegion_others _ r st)
    refine ⟨setRegion_state _ hr hst, ?_, hothers.state, hothers.frames, fun j hj => ?_, fun w hw => ?_⟩
    · rw [setRegion_cfg, regionBare_image]
    · rw [setRegion_frames, regionBare_frames s st j hr hj]
    · rw [setRegion_regsKeep _ r st _ _ (by simp [regKey, regionKeys]; omega), regionBare_iso s st hr hw]

/-- Settles O56: each command's body is its checks and its one effect; an unload empties its region and no other, and a WARM
reset begins or waits. -/
theorem configKeyUpdateCommands : Obligations.ConfigKeyUpdateCommands := by
  unfold Obligations.ConfigKeyUpdateCommands
  exact ⟨configLoadOverlay_clause,
    fun b m s k r hk hmask => ⟨configUnload_locked hk, configUnload_unloads hk hmask⟩,
    fun b m s k hk => ends_of_runCmd hk rfl rfl rfl,
    fun b m s k => configLock_ends,
    fun b m edge s k hk => ⟨configReadback_fails hk, fun v => by
      generalize hbs : leBytes 21504 v.toNat = bs
      exact configReadback_reads hk hbs⟩,
    fun b m s k bs u => exec_memkeyLoad,
    fun b m s k => exec_memkeyLoad_noPlace,
    fun b m s k => memkeyClear_clause,
    fun b m s k r => memkeyRegion_ends,
    fun b m s k => memkeyStatus_clause,
    fun b m s k bs u x => updateStage_clause,
    fun b m ok s k => updateCommit_clause,
    fun b m s k hk => ends_of_runCmd hk rfl rfl rfl,
    updateActivate_clause, updateOver_clause, warmWhenFree_clause⟩

end Sys2Proof.Mailboxes

namespace Sys2Proof.Mailboxes

open Sys2Proof.Machine Sys2Proof.Safety

/-! ### TASK -/

/-- A queue whose indices are both 0 is not full. -/
theorem cqFill_ne_cqLen {s : State} {k : Nat} (h : s.reg R.TSK_CQ_IDX k = 0) : (s.cqFill k == s.cqLen k) = false := by
  have hfill : s.cqFill k = 0 := by
    unfold State.cqFill State.get
    rw [h]; rfl
  have hlen : s.cqLen k ≠ 0 := by unfold State.cqLen; positivity
  rw [hfill, beq_eq_false_iff_ne]
  exact fun e => hlen e.symm

/-- Bit 31 of a value below it is 0 already. -/
theorem bitsSet_top_zero {v : Nat} (h : v < 2 ^ 31) : bitsSet v 31 1 0 = v := by
  rw [bitsSet_eq]; omega

/-- Queue `j` has these configuration and base registers and its indices at 0. -/
def FreshQueue (s : State) (j cfg lo hi : Nat) : Prop :=
  s.reg R.TSK_CQ_CFG j = cfg ∧ s.reg R.TSK_CQ_IDX j = 0 ∧ s.reg R.TSK_CQ_BASE_LO j = lo ∧ s.reg R.TSK_CQ_BASE_HI j = hi

/-- Bringing any queue's FULL up to date leaves a fresh queue as it is. -/
theorem FreshQueue.cqFull {s : State} {j k cfg lo hi : Nat} (h : FreshQueue s j cfg lo hi) (hcfg : cfg < 2 ^ 31) (hj : j < 64)
    (hk : k < 64) : FreshQueue (s.cqFull k) j cfg lo hi := by
  obtain ⟨hc, hidx, hlo, hhi⟩ := h
  have hother : ∀ r : RegRow, r.off ≠ R.TSK_CQ_CFG.off → (s.cqFull k).reg r j = s.reg r j := fun r hr =>
    State.reg_setReg_ne _ _ _ _ _ _ (regKey_ne_of_off hr (by omega) (by omega))
  refine ⟨?_, (hother _ (by decide)).trans hidx, (hother _ (by decide)).trans hlo, (hother _ (by decide)).trans hhi⟩
  unfold State.cqFull
  by_cases hkj : k = j
  · subst hkj
    rw [cqFill_ne_cqLen hidx, State.reg_put_self _ _ _ _ (by decide), hc]
    exact bitsSet_top_zero hcfg
  · rw [State.put, State.reg_setReg_ne _ _ _ _ _ _ (by simpa [regKey] using fun e => hkj e.symm), hc]

theorem FreshQueue.foldl_cqFull {j cfg lo hi q : Nat} (hcfg : cfg < 2 ^ 31) (hj : j < 64) (hq : q < 4) (l : List Nat)
    (hl : ∀ n ∈ l, n < 16) : ∀ {s : State}, FreshQueue s j cfg lo hi →
    FreshQueue (l.foldl (fun u n => u.cqFull (cqKey q n)) s) j cfg lo hi := by
  induction l with
  | nil => exact id
  | cons n l ih =>
    intro s h
    have := hl n (by simp)
    exact ih (fun m hm => hl m (by simp [hm])) (h.cqFull hcfg hj (by unfold cqKey; omega))

/-- Bringing FULL up to date keeps whatever a write of a register keeps. -/
theorem foldl_cqFull_keeps {α : Type} {g : State → α} (hg : ∀ t k, g (State.cqFull t k) = g t) (q : Nat) (l : List Nat) (s : State) :
    g (l.foldl (fun u n => u.cqFull (cqKey q n)) s) = g s := by
  induction l generalizing s with
  | nil => rfl
  | cons n l ih => exact (ih (s.cqFull (cqKey q n))).trans (hg s _)

/-- Registers of the dispatchers but those of their completion queues. -/
def flagRows : List Nat := [R.TSK_STATUS.off, R.TSK_POOL.off, R.TSK_READY_MASK.off, R.TSK_SIG_STATUS.off]

theorem dispFlags_keeps (s : State) {q : Nat} (hq : q < 4) : KeepsRegs (· ∉ flagRows) s (s.dispFlags q) := by
  have hq' := quad_lt hq
  unfold State.dispFlags
  refine KeepsRegs.put ?_ _ (by simp [flagRows]) hq'
  refine KeepsRegs.setReg ?_ _ (by simp [flagRows]) hq'
  refine KeepsRegs.put ?_ _ (by simp [flagRows]) hq'
  refine KeepsRegs.put ?_ _ (by simp [flagRows]) hq'
  refine KeepsRegs.put ?_ _ (by simp [flagRows]) hq'
  refine KeepsRegs.put ?_ _ (by simp [flagRows]) hq'
  exact (KeepsRegs.refl s).put _ (by simp [flagRows]) hq'

theorem FreshQueue.dispFlags {s : State} {j q cfg lo hi : Nat} (h : FreshQueue s j cfg lo hi) (hj : j < 64) (hq : q < 4) :
    FreshQueue (s.dispFlags q) j cfg lo hi := by
  obtain ⟨hc, hidx, hlo, hhi⟩ := h
  have hkeep : ∀ r : RegRow, r.off ∉ flagRows → (s.dispFlags q).reg r j = s.reg r j := fun r hr =>
    dispFlags_keeps s hq r j hr (by omega)
  exact ⟨(hkeep _ (by decide)).trans hc, (hkeep _ (by decide)).trans hidx, (hkeep _ (by decide)).trans hlo,
    (hkeep _ (by decide)).trans hhi⟩

/-- The dispatcher's record without the entries and writes of queue `n`. -/
def withoutQueue (x : Disp) (n : Nat) : Disp :=
  { x with writes := x.writes.filter (fun w => w.queue != n), cbuf := x.cbuf.filter (fun e => e.1 != n) }

/-- The queue's registers and the writes of the dispatcher as TASK_CQ_CFG sets them, before the buffer is run. -/
def queueSet (s : State) (q n base entries v : Nat) : State :=
  ((((s.setDsp q (withoutQueue (s.dsp q) n)).setReg R.TSK_CQ_BASE_LO (cqKey q n) (base % 2 ^ 32)).setReg
    R.TSK_CQ_BASE_HI (cqKey q n) (base / 2 ^ 32 % 2 ^ 16 + Nat.log2 entries * 2 ^ 16)).setReg R.TSK_CQ_IDX (cqKey q n) 0).setReg
    R.TSK_CQ_CFG (cqKey q n) (1 + v * 2 ^ 8)

theorem cqConfigure_eq (s : State) (q n base entries v : Nat) :
    s.cqConfigure q n base entries v = (queueSet s q n base entries v).cqPump q := rfl

theorem queueSet_fresh (s : State) {q n base entries v : Nat} (hv : v < 2 ^ 8) (he : entries < 65536) (hj : cqKey q n < 64) :
    FreshQueue (queueSet s q n base entries v) (cqKey q n) (1 + v * 2 ^ 8) (base % 2 ^ 32)
      (base / 2 ^ 32 % 2 ^ 16 + Nat.log2 entries * 2 ^ 16) := by
  have hlog : Nat.log2 entries < 16 := by
    by_cases h0 : entries = 0
    · subst h0; decide
    · exact (Nat.log2_lt h0).mpr he
  have hne : ∀ r r' : RegRow, r.off ≠ r'.off → regKey r (cqKey q n) ≠ regKey r' (cqKey q n) := fun r r' h =>
    regKey_ne_of_off h (by omega) (by omega)
  unfold queueSet
  refine ⟨?_, ?_, ?_, ?_⟩
  · rw [State.reg_setReg_self]; omega
  · rw [State.reg_setReg_ne _ _ _ _ _ _ (hne _ _ (by decide)), State.reg_setReg_self, Nat.zero_mod]
  · rw [State.reg_setReg_ne _ _ _ _ _ _ (hne _ _ (by decide)), State.reg_setReg_ne _ _ _ _ _ _ (hne _ _ (by decide)),
      State.reg_setReg_ne _ _ _ _ _ _ (hne _ _ (by decide)), State.reg_setReg_self]
    omega
  · rw [State.reg_setReg_ne _ _ _ _ _ _ (hne _ _ (by decide)), State.reg_setReg_ne _ _ _ _ _ _ (hne _ _ (by decide)),
      State.reg_setReg_self]
    omega

theorem dsp_setDsp (s : State) (q : Nat) (x : Disp) : (s.setDsp q x).dsp q = x := SMap.get_set_self s.disp {} q x

theorem queueSet_disp (s : State) (q n base entries v : Nat) :
    (queueSet s q n base entries v).disp = (s.setDsp q (withoutQueue (s.dsp q) n)).disp := by
  unfold queueSet
  rw [State.setReg_disp, State.setReg_disp, State.setReg_disp, State.setReg_disp]

theorem dsp_queueSet (s : State) (q n base entries v : Nat) :
    (queueSet s q n base entries v).dsp q = withoutQueue (s.dsp q) n :=
  (congrArg (fun d : SMap Disp => d.get {} q) (queueSet_disp s q n base entries v)).trans (dsp_setDsp s q _)

theorem queueSet_cores (s : State) (q n base entries v : Nat) : (queueSet s q n base entries v).cores = s.cores := by
  unfold queueSet
  rw [State.setReg_cores, State.setReg_cores, State.setReg_cores, State.setReg_cores]
  rfl

/-- FULL of the quadrant's queues brought up to date. -/
def fullMarked (s : State) (q : Nat) : State := (List.range 16).foldl (fun u n => u.cqFull (cqKey q n)) s

theorem FreshQueue.fullMarked {s : State} {j q cfg lo hi : Nat} (h : FreshQueue s j cfg lo hi) (hcfg : cfg < 2 ^ 31)
    (hj : j < 64) (hq : q < 4) : FreshQueue (fullMarked s q) j cfg lo hi :=
  FreshQueue.foldl_cqFull hcfg hj hq (List.range 16) (fun _ hi => List.mem_range.mp hi) h

theorem fullMarked_disp (s : State) (q : Nat) : (fullMarked s q).disp = s.disp := by
  unfold fullMarked
  exact foldl_cqFull_keeps (fun t _ => t.put_disp _ _ _) q _ s

theorem fullMarked_dsp (s : State) (q : Nat) : (fullMarked s q).dsp q = s.dsp q := by
  unfold State.dsp
  rw [fullMarked_disp]

theorem fullMarked_cores (s : State) (q : Nat) : (fullMarked s q).cores = s.cores := by
  unfold fullMarked
  exact foldl_cqFull_keeps (fun t _ => t.put_cores _ _ _) q _ s

/-- The dispatcher with an empty completion buffer. -/
def bufferEmptied (s : State) (q : Nat) : State := s.setDsp q { s.dsp q with cbuf := [] }

theorem FreshQueue.bufferEmptied {s : State} {j cfg lo hi : Nat} (h : FreshQueue s j cfg lo hi) (q : Nat) :
    FreshQueue (bufferEmptied s q) j cfg lo hi := h

theorem bufferEmptied_dsp (s : State) (q : Nat) : (bufferEmptied s q).dsp q = { s.dsp q with cbuf := [] } := dsp_setDsp s q _

theorem bufferEmptied_cores (s : State) (q : Nat) : (bufferEmptied s q).cores = s.cores := rfl

/-- The buffer's run where nothing waits in it: FULL of the quadrant's queues follows, and no more. -/
theorem cqPump_empty {s : State} {q : Nat} (h : (s.dsp q).cbuf = []) : s.cqPump q = bufferEmptied (fullMarked s q) q := by
  unfold State.cqPump
  rw [h]
  rfl

/-- TASK_CQ_CFG's work where nothing waits in the buffer. -/
theorem cqConfigure_of_empty {s : State} {q : Nat} (n base entries v : Nat) (hbuf : (s.dsp q).cbuf = []) :
    s.cqConfigure q n base entries v = bufferEmptied (fullMarked (queueSet s q n base entries v) q) q := by
  rw [cqConfigure_eq, cqPump_empty]
  rw [dsp_queueSet, withoutQueue, hbuf]; rfl

theorem taskCqCfg_fails {b : Fin 8} {m : Msg} {s : State} {k : Taken} {q n j : Nat} (hk : Taking s b opCqCfg m k)
    (hq : fld m 0 8 = q) (hn : fld m 1 8 = n) (hj : j = 16 * q + n) (hv : fld m 18 8 ≠ 0)
    (ht : s.vectorTaken (fld m 18 8) j = true) : Ends (.taskCqCfg b m) s k stNoResource 0 {} (fun u => u = s) := by
  subst hq hn hj
  exact ends_of_runCmd hk rfl (if_pos ⟨hv, ht⟩) rfl

/-- TASK_CQ_CFG's queue starts empty at its base, where nothing waits in the buffer. -/
theorem cqConfigure_fresh {s : State} {q n j base entries v : Nat} (hj : j = 16 * q + n) (hq : q < 4) (hn : n < 16)
    (hv : v < 2 ^ 8) (he : entries < 65536) (hbuf : (s.dsp q).cbuf = []) :
    FreshQueue ((s.cqConfigure q n base entries v).dispFlags q) j (1 + v * 2 ^ 8) (base % 2 ^ 32)
      (base / 2 ^ 32 % 2 ^ 16 + Nat.log2 entries * 2 ^ 16) := by
  have hkey : cqKey q n = j := hj.symm
  have hj64 : j < 64 := by omega
  have hfresh := queueSet_fresh s (q := q) (n := n) (base := base) hv he (by rw [hkey]; exact hj64)
  rw [hkey] at hfresh
  rw [cqConfigure_of_empty n base entries v hbuf]
  exact ((hfresh.fullMarked (by omega) hj64 hq).bufferEmptied q).dispFlags hj64 hq

theorem dispFlags_dsp (s : State) (q : Nat) : (s.dispFlags q).dsp q = s.dsp q := by
  unfold State.dsp State.dispFlags
  rw [State.put_disp, State.setReg_disp, State.put_disp, State.put_disp, State.put_disp, State.put_disp, State.put_disp]

theorem dispFlags_cores (s : State) (q : Nat) : (s.dispFlags q).cores = s.cores := by
  unfold State.dispFlags
  rw [State.put_cores, State.setReg_cores, State.put_cores, State.put_cores, State.put_cores, State.put_cores, State.put_cores]

theorem cqConfigure_writes {s : State} {q n base entries v : Nat} (hbuf : (s.dsp q).cbuf = []) :
    ∀ w ∈ (((s.cqConfigure q n base entries v).dispFlags q).dsp q).writes, w.queue ≠ n := by
  rw [dispFlags_dsp, cqConfigure_of_empty n base entries v hbuf, bufferEmptied_dsp, fullMarked_dsp, dsp_queueSet]
  intro w hw
  simpa using (List.mem_filter.mp hw).2

theorem cqConfigure_cores {s : State} {q n base entries v : Nat} (hbuf : (s.dsp q).cbuf = []) :
    ((s.cqConfigure q n base entries v).dispFlags q).cores = s.cores := by
  rw [dispFlags_cores, cqConfigure_of_empty n base entries v hbuf, bufferEmptied_cores, fullMarked_cores, queueSet_cores]

theorem taskCqCfg_starts {b : Fin 8} {m : Msg} {s : State} {k : Taken} {q n j : Nat} (hk : Taking s b opCqCfg m k)
    (hq : fld m 0 8 = q) (hn : fld m 1 8 = n) (hj : j = 16 * q + n) (hq4 : q < 4) (hn16 : n < 16)
    (hfree : fld m 18 8 = 0 ∨ s.vectorTaken (fld m 18 8) j = false) (he : fld m 16 16 < 65536) (hbuf : (s.dsp q).cbuf = []) :
    Ends (.taskCqCfg b m) s k stOK 0 {} (fun u =>
      u.reg R.TSK_CQ_BASE_LO j = fld m 8 64 % 2 ^ 32 ∧ u.reg R.TSK_CQ_CFG j = 1 + fld m 18 8 * 2 ^ 8 ∧
      u.reg R.TSK_CQ_BASE_HI j = fld m 8 64 / 2 ^ 32 % 2 ^ 16 + Nat.log2 (fld m 16 16) * 2 ^ 16 ∧
      u.reg R.TSK_CQ_IDX j = 0 ∧ (∀ w ∈ (u.dsp q).writes, w.queue ≠ n) ∧ u.cores = s.cores) := by
  obtain ⟨hcfg, hidx, hlo, hhi⟩ := cqConfigure_fresh (base := fld m 8 64) hj hq4 hn16 (fld_lt m 18 8) he hbuf
  have hwrites := cqConfigure_writes (n := n) (base := fld m 8 64) (entries := fld m 16 16) (v := fld m 18 8) hbuf
  have hcores := cqConfigure_cores (n := n) (base := fld m 8 64) (entries := fld m 16 16) (v := fld m 18 8) hbuf
  refine ends_of_runCmd (u := (s.cqConfigure q n (fld m 8 64) (fld m 16 16) (fld m 18 8)).dispFlags q) hk rfl ?_
    ⟨hlo, hcfg, hhi, hidx, hwrites, hcores⟩
  subst hq hn hj
  refine if_neg ?_
  rintro ⟨hne, ht⟩
  rcases hfree with h | h
  · exact hne h
  · exact absurd ht (by rw [show cqKey (fld m 0 8) (fld m 1 8) = 16 * fld m 0 8 + fld m 1 8 from rfl, h]; exact Bool.false_ne_true)

/-! #### The tick -/

/-- The tick after a write: the value clamped to 250 to 16,000, its lowest bit dropped (R173). -/
def tickOf (v : Nat) : Nat := min 16000 (max 250 (v % 2 ^ 14)) / 2 * 2

/-- TICK_CLAMP set where the value was clamped. -/
def clampMarked (s : State) (q v : Nat) : State :=
  if min 16000 (max 250 (v % 2 ^ 14)) = v % 2 ^ 14 then s else s.put F.TSK_STATUS.TICK_CLAMP q 1

/-- The last tick of a dispatcher, which a changed tick sets anew. -/
def tickRestarted (s : State) (q n : Nat) : State :=
  if n = s.get F.TSK_TICK.NS q then s
  else s.setDsp q { s.dsp q with lastTick := max (s.dsp q).lastTick (s.now / n * n + 1) }

theorem tickWrite_eq (s : State) (q v : Nat) :
    s.tickWrite q v = (tickRestarted (clampMarked s q v) q (tickOf v)).put F.TSK_TICK.NS q (tickOf v) := rfl

end Sys2Proof.Mailboxes

namespace Sys2Proof.Mailboxes

open Sys2Proof.Machine Sys2Proof.Safety

theorem clampMarked_regsKeep (s : State) (q v : Nat) : RegsKeep s (clampMarked s q v) [regKey R.TSK_STATUS q] := by
  unfold clampMarked
  split
  · exact .refl s _
  · exact (RegsKeep.refl s _).put _ (by simp)

theorem clampMarked_rest (s : State) (q v : Nat) : (clampMarked s q v).disp = s.disp ∧ (clampMarked s q v).now = s.now ∧
    (clampMarked s q v).net = s.net ∧ (clampMarked s q v).store = s.store := by
  unfold clampMarked State.now
  split
  · exact ⟨rfl, rfl, rfl, rfl⟩
  · simp only [State.put_disp, State.put_time, State.put_net, State.put_store, and_self]

theorem tickRestarted_rest (s : State) (q n : Nat) : (tickRestarted s q n).regs = s.regs ∧
    (tickRestarted s q n).net = s.net ∧ (tickRestarted s q n).store = s.store := by
  unfold tickRestarted
  split <;> exact ⟨rfl, rfl, rfl⟩

theorem tickRestarted_dsp (s : State) (q n : Nat) : (tickRestarted s q n).dsp q =
    if n = s.get F.TSK_TICK.NS q then s.dsp q
    else { s.dsp q with lastTick := max (s.dsp q).lastTick (s.now / n * n + 1) } := by
  unfold tickRestarted
  split
  · rfl
  · exact dsp_setDsp s q _

theorem tickWrite_tick (s : State) (q v : Nat) : (s.tickWrite q v).get F.TSK_TICK.NS q = tickOf v := by
  rw [tickWrite_eq, State.get_put_self _ _ _ _ (by decide)]
  refine Nat.mod_eq_of_lt (lt_of_le_of_lt ?_ (show 16000 < 2 ^ 14 by decide))
  unfold tickOf; omega

theorem tickWrite_clamps (s : State) (q v : Nat) (h : v % 2 ^ 14 < 250 ∨ 16000 < v % 2 ^ 14) :
    (s.tickWrite q v).get F.TSK_STATUS.TICK_CLAMP q = 1 := by
  rw [tickWrite_eq, State.get_put_ne _ _ _ _ _ _ (by simp [regKey]), State.get_congr (tickRestarted_rest _ q _).1, clampMarked,
    if_neg (by omega), State.get_put_self _ _ _ _ (by decide)]
  rfl

theorem tickWrite_dsp (s : State) (q v : Nat) : (s.tickWrite q v).dsp q =
    if tickOf v = s.get F.TSK_TICK.NS q then s.dsp q
    else { s.dsp q with lastTick := max (s.dsp q).lastTick (s.now / tickOf v * tickOf v + 1) } := by
  obtain ⟨hdisp, hnow, -, -⟩ := clampMarked_rest s q v
  have hdsp : (clampMarked s q v).dsp q = s.dsp q := by unfold State.dsp; rw [hdisp]
  have hput : (s.tickWrite q v).dsp q = (tickRestarted (clampMarked s q v) q (tickOf v)).dsp q := by
    rw [tickWrite_eq]
    unfold State.dsp
    rw [State.put_disp]
  rw [hput, tickRestarted_dsp, hdsp, hnow, (clampMarked_regsKeep s q v).get (by simp [regKey])]

theorem tickWrite_keeps (s : State) (q v : Nat) : RegsKeep s (s.tickWrite q v) [regKey R.TSK_TICK q, regKey R.TSK_STATUS q] ∧
    (s.tickWrite q v).net = s.net ∧ (s.tickWrite q v).store = s.store := by
  obtain ⟨-, -, hnet, hstore⟩ := clampMarked_rest s q v
  obtain ⟨hregs, hnet', hstore'⟩ := tickRestarted_rest (clampMarked s q v) q (tickOf v)
  rw [tickWrite_eq, State.put_net, State.put_store, hnet', hstore', hnet, hstore]
  exact ⟨(((clampMarked_regsKeep s q v).mono (by simp)).of_regs hregs).put _ (by simp), rfl, rfl⟩

theorem taskTick_ends {b : Fin 8} {m : Msg} {s : State} {k : Taken} {q v : Nat} (hk : Taking s b opTick m k)
    (hq : fld m 0 8 = q) (hv : fld m 4 32 % 2 ^ 14 = v) :
    Ends (.taskTick b m) s k stOK 0 {} (fun u => u.get F.TSK_TICK.NS q = min 16000 (max 250 v) / 2 * 2 ∧
      (v < 250 ∨ 16000 < v → u.get F.TSK_STATUS.TICK_CLAMP q = 1) ∧
      u.dsp q = (if u.get F.TSK_TICK.NS q = s.get F.TSK_TICK.NS q then s.dsp q else { s.dsp q with
        lastTick := max (s.dsp q).lastTick (s.now / u.get F.TSK_TICK.NS q * u.get F.TSK_TICK.NS q + 1) }) ∧
      RegsKeep s u [regKey R.TSK_TICK q, regKey R.TSK_STATUS q] ∧ u.net = s.net ∧ u.store = s.store) := by
  subst hq hv
  refine ends_of_runCmd hk rfl rfl ⟨tickWrite_tick _ _ _, tickWrite_clamps _ _ _, ?_, tickWrite_keeps _ _ _⟩
  rw [tickWrite_tick]
  exact tickWrite_dsp _ _ _

theorem taskStats_ends {b : Fin 8} {m : Msg} {s : State} {k : Taken} {q : Nat} (hk : Taking s b opStats m k)
    (hq : fld m 0 8 = q) : Ends (.taskStats b m) s k stOK 0
      (pack 20 [(0, 64, s.reg R.TSK_DISPATCHED_LO q + s.reg R.TSK_DISPATCHED_HI q * 2 ^ 32),
        (8, 32, s.reg R.TSK_LATE_RISK q), (12, 32, s.reg R.TSK_VARIANTS q), (16, 32, s.reg R.TSK_ACCT q)]) (fun u => u = s) := by
  subst hq
  exact ends_of_runCmd hk rfl rfl rfl

theorem taskFlush_ends {b : Fin 8} {m : Msg} {s : State} {k : Taken} {q : Nat} (hk : Taking s b opFlush m k)
    (hq : fld m 0 8 = q) : Ends (.taskFlush b m) s k stOK 0 (pack 2 [(0, 16, (s.flushTasks q (fld m 2 16)).1)])
      (fun u => u = s.afterReady (s.flushTasks q (fld m 2 16)).2 q) := by
  subst hq
  exact ends_of_runCmd hk rfl rfl rfl

/-! ### ERROR -/

theorem leBytes_length (n v : Nat) : (leBytes n v).length = n := by
  induction n generalizing v with
  | zero => rfl
  | succ n ih => simp [leBytes, ih]

theorem leValue_leBytes (n v : Nat) : leValue (leBytes n v) = v % 256 ^ n := by
  induction n generalizing v with
  | zero => simp [leBytes, leValue, Nat.mod_one]
  | succ n ih =>
    have hpow : 256 ^ (n + 1) = 256 * 256 ^ n := by ring
    rw [leBytes, leValue, ih, BitVec.toNat_ofNat, hpow, Nat.mod_mul]

/-- The bytes of a word, and what follows it. -/
theorem drop_leBytes_append (n v k : Nat) (r : List Byte) (h : n ≤ k) : (leBytes n v ++ r).drop k = r.drop (k - n) := by
  rw [List.drop_append, leBytes_length, List.drop_of_length_le (by rw [leBytes_length]; exact h), List.nil_append]

theorem take_leBytes_append (n v : Nat) (r : List Byte) : (leBytes n v ++ r).take n = leBytes n v := by
  rw [List.take_append, leBytes_length, Nat.sub_self, List.take_zero, List.append_nil,
    List.take_of_length_le (by rw [leBytes_length])]

/-- The fields of an entry's 48 bytes, word by word. -/
theorem entryBytes_fields (e : Entry) : e.bytes.length = 48 ∧ leValue (e.bytes.take 4) % 2 ^ 16 = e.code % 2 ^ 16 ∧
    leValue ((e.bytes.drop 4).take 4) = e.source % 2 ^ 32 ∧ leValue ((e.bytes.drop 12).take 4) = e.rep % 2 ^ 32 ∧
    leValue ((e.bytes.drop 24).take 8) = e.first % 2 ^ 64 ∧ leValue ((e.bytes.drop 32).take 8) = e.last % 2 ^ 64 := by
  unfold Entry.bytes
  simp only [List.append_assoc]
  refine ⟨by simp only [List.length_append, leBytes_length], ?_, ?_, ?_, ?_, ?_⟩
  · rw [take_leBytes_append, leValue_leBytes]; omega
  all_goals
    repeat rw [drop_leBytes_append _ _ _ _ (by decide)]
    rw [Nat.sub_self, List.drop_zero, take_leBytes_append, leValue_leBytes]
    norm_num

end Sys2Proof.Mailboxes

namespace Sys2Proof.Mailboxes

open Sys2Proof.Machine Sys2Proof.Safety

theorem logFrom_held {s : State} {first count i : Nat} (h : s.err.log.findIdx? (fun e => e.seq == first) = some i) :
    s.logFrom first count = (s.err.log.drop i).take count := by
  unfold State.logFrom
  rw [h]

theorem logFrom_gone {s : State} {first count : Nat} {e : Entry} {r : List Entry} (hlog : s.err.log = e :: r)
    (h : s.err.log.findIdx? (fun e => e.seq == first) = none) :
    s.logFrom first count = (if seqPrecedes first e.seq then s.err.log else []).take count := by
  unfold State.logFrom
  rw [h]
  simp only [hlog]

theorem seqPrecedes_iff (a b : Nat) :
    seqPrecedes a b = true ↔ 1 ≤ (b + 65536 - a % 65536) % 65536 ∧ (b + 65536 - a % 65536) % 65536 ≤ 32768 := by
  unfold seqPrecedes
  simp only [Bool.and_eq_true, decide_eq_true_eq]

theorem logFrom_clause (s : State) (first count : Nat) :
    (∀ i : Nat, s.err.log.findIdx? (fun e => e.seq == first) = some i → s.logFrom first count = (s.err.log.drop i).take count) ∧
    (∀ (e : Entry) (r : List Entry), s.err.log = e :: r → s.err.log.findIdx? (fun e => e.seq == first) = none →
      (1 ≤ (e.seq + 65536 - first % 65536) % 65536 → (e.seq + 65536 - first % 65536) % 65536 ≤ 32768 →
        s.logFrom first count = s.err.log.take count) ∧
      (32768 < (e.seq + 65536 - first % 65536) % 65536 → s.logFrom first count = [])) := by
  refine ⟨fun i => logFrom_held, fun e r hlog hgone => ⟨fun hlo hhi => ?_, fun hhi => ?_⟩⟩
  · rw [logFrom_gone hlog hgone, if_pos ((seqPrecedes_iff _ _).mpr ⟨hlo, hhi⟩)]
  · have hnot : ¬ seqPrecedes first e.seq = true := fun h => absurd ((seqPrecedes_iff _ _).mp h).2 (by omega)
    rw [logFrom_gone hlog hgone, if_neg hnot, List.take_nil]

theorem errorRead_clause {b : Fin 8} {m : Msg} {s : State} {k : Taken} {es : List Entry} {w : Option BufStop × State}
    (hk : Taking s b opErrorRead m k) (hes : s.logFrom (fld m 0 16) (fld m 2 16) = es)
    (hw : s.bufWrite (fld m 8 64) (es.flatMap Entry.bytes) = w) :
    (w.1 = none → Ends (.errorRead b m) s k stOK 0 (pack 8 [(0, 16, es.length), (2, 16, s.seqAfter es),
      (4, 32, min s.eventsLost (2 ^ 32 - 1))]) (fun u => u = w.2)) ∧
    (∀ d : Nat, w.1 = some (.bad d) → Ends (.errorRead b m) s k stBuffer d {} (fun u => u = w.2)) := by
  subst hes hw
  have h := ends_of_writeAnswer hk (c := .errorRead b m) rfl rfl
  refine ⟨fun h0 => ?_, fun d hd => ?_⟩
  · rw [if_pos h0] at h; exact h
  · rw [if_neg (by rw [hd]; simp), if_neg (by rw [hd]; simp), hd] at h; exact h

theorem errorClear_clause {b : Fin 8} {m : Msg} {s : State} {k : Taken} (hk : Taking s b opErrorClear m k) :
    Ends (.errorClear b m) s k stOK 0 {} (fun u => u = { s with err := { s.err with log := u.err.log } } ∧
      (∀ e ∈ s.err.log, e ∈ u.err.log ∨ (1 ≤ (fld m 0 16 + 65536 - e.seq % 65536) % 65536 ∧
        (fld m 0 16 + 65536 - e.seq % 65536) % 65536 ≤ 32768)) ∧
      (∀ e ∈ u.err.log, e ∈ s.err.log ∧ ((fld m 0 16 + 65536 - e.seq % 65536) % 65536 = 0 ∨
        32768 < (fld m 0 16 + 65536 - e.seq % 65536) % 65536))) := by
  refine ends_of_runCmd hk rfl rfl ⟨rfl, fun e he => ?_, fun e he => ?_⟩
  · by_cases hp : seqPrecedes e.seq (fld m 0 16) = true
    · exact .inr ((seqPrecedes_iff _ _).mp hp)
    · exact .inl (List.mem_filter.mpr ⟨he, by simpa using hp⟩)
  · obtain ⟨hmem, hp⟩ := List.mem_filter.mp he
    have hnot : ¬ seqPrecedes e.seq (fld m 0 16) = true := by simpa using hp
    rw [seqPrecedes_iff] at hnot
    exact ⟨hmem, by omega⟩

theorem errorConfig_clause {b : Fin 8} {m : Msg} {s : State} {k : Taken} (hk : Taking s b opErrorConfig m k) :
    Ends (.errorConfig b m) s k stOK 0 {} (fun u => u.get F.ERR_CFG.COALESCE_NS 0 = fld m 0 32 % 2 ^ 24 ∧
      u.get F.ERR_CFG.NOTIFY 0 = fld m 4 8 % 16 ∧ OnlyRegs s u [regKey R.ERR_CFG 0]) := by
  refine ends_of_runCmd hk rfl rfl ⟨?_, State.get_put_self _ _ _ _ (by decide), rfl,
    ((RegsKeep.refl s _).put _ (by simp)).put _ (by simp)⟩
  rw [State.get_put_disjoint _ F.ERR_CFG.NOTIFY F.ERR_CFG.COALESCE_NS _ _ rfl (by decide) (by decide)]
  exact State.get_put_self _ _ _ _ (by decide)

theorem errorInject_clause {b : Fin 8} {m : Msg} {s : State} {k : Taken} (hk : Taking s b opErrorInject m k) :
    (s.sec.life = 2 ∧ s.debugLevel = 0 ∨ s.sec.life = 3 ∧ s.debugLevel ≠ 2 →
      Ends (.errorInject b m) s k stState 0 {} (fun u => u = s)) ∧
    (s.sec.life < 2 ∨ s.debugLevel = 2 ∨ s.sec.life = 2 ∧ s.debugLevel ≠ 0 → Ends (.errorInject b m) s k stOK 0 {} (fun u =>
      u = s.raise { code := fld m 4 16, sev := fld m 6 8, source := fld m 0 32, injected := true })) := by
  have hclosed : s.injectClosed = true ↔ s.sec.life = 2 ∧ s.debugLevel = 0 ∨ s.sec.life = 3 ∧ s.debugLevel ≠ 2 := by
    unfold State.injectClosed
    simp
  refine ⟨fun h => ends_of_runCmd hk rfl (if_pos (hclosed.mpr h)) rfl, fun h => ends_of_runCmd hk rfl (if_neg ?_) rfl⟩
  rw [hclosed]
  omega

/-! ### ATTEST -/

theorem attestReport_clause {b : Fin 8} {m : Msg} {s v : State} {k : Taken} {r : List Nat} (hk : Taking s b opReport m k)
    (hv : v = { s with free := s.free + 1 }) (hr : reportOf s (fld m 0 256) = r) :
    if (v.bufWrite (fld m 32 64) (toBytes r)).1 = none
    then Ends (.attestReport b m) s k stOK 0 (pack 4 [(0, 32, r.length)]) (fun u => u = (v.bufWrite (fld m 32 64) (toBytes r)).2)
    else if (v.bufWrite (fld m 32 64) (toBytes r)).1 = some .waits
    then exec (.attestReport b m) s = .next (v.bufWrite (fld m 32 64) (toBytes r)).2
    else Ends (.attestReport b m) s k stBuffer (stopDetail (v.bufWrite (fld m 32 64) (toBytes r)).1) {} (fun u =>
      u = (v.bufWrite (fld m 32 64) (toBytes r)).2) := by
  subst hv
  exact ends_of_writeAnswer hk rfl (by rw [← hr]; rfl)

theorem leNat_length (n v : Nat) : (Crypto.leNat n v).length = n := by
  induction n generalizing v with
  | zero => rfl
  | succ n ih => simp [Crypto.leNat, ih]

theorem bytes256_length (v : BitVec 256) : (bytes256 v).length = 32 := leNat_length 32 _

theorem devId_length (s : State) : s.devId.length = 8 := by
  unfold State.devId
  rw [List.length_append, leNat_length, leNat_length]

theorem getD_leNat_append (n v k : Nat) (r : List Nat) (h : n ≤ k) : (Crypto.leNat n v ++ r).getD k 0 = r.getD (k - n) 0 := by
  rw [List.getD_append_right _ _ _ _ (by rw [leNat_length]; exact h), leNat_length]

theorem drop_leNat_append (n v k : Nat) (r : List Nat) (h : n ≤ k) : (Crypto.leNat n v ++ r).drop k = r.drop (k - n) := by
  rw [List.drop_append, leNat_length, List.drop_of_length_le (by rw [leNat_length]; exact h), List.nil_append]

theorem take_leNat_append (n v : Nat) (r : List Nat) : (Crypto.leNat n v ++ r).take n = Crypto.leNat n v := by
  rw [List.take_append, leNat_length, Nat.sub_self, List.take_zero, List.append_nil,
    List.take_of_length_le (by rw [leNat_length])]

/-- The header of a report: 8 bytes, then lifecycle, debug level, overlays and flags. -/
theorem reportBody_clause (s : State) (nonce : Nat) (ho : s.sec.overlays = []) (hp : s.sec.programs = []) :
    (s.reportBody nonce).length + 64 = 240 ∧
    (s.reportBody nonce).getD 8 0 = s.sec.life ∧ (s.reportBody nonce).getD 9 0 = s.debugLevel ∧
    ((s.reportBody nonce).drop 16).take 32 = Crypto.leNat 32 nonce := by
  unfold State.reportBody
  dsimp only
  rw [ho, hp]
  simp only [List.append_assoc]
  refine ⟨?_, ?_, ?_, ?_⟩
  · simp only [List.length_append, leNat_length, bytes256_length, devId_length, List.flatMap_nil, List.length_cons, List.length_nil]
  · rw [getD_leNat_append _ _ _ _ (by decide), getD_leNat_append _ _ _ _ (by decide), getD_leNat_append _ _ _ _ (by decide)]
    rfl
  · rw [getD_leNat_append _ _ _ _ (by decide), getD_leNat_append _ _ _ _ (by decide), getD_leNat_append _ _ _ _ (by decide)]
    rfl
  · rw [drop_leNat_append _ _ _ _ (by decide), drop_leNat_append _ _ _ _ (by decide), drop_leNat_append _ _ _ _ (by decide)]
    simp only [Nat.reduceSub, List.cons_append, List.nil_append, List.drop_succ_cons]
    rw [drop_leNat_append _ _ _ _ (by decide)]
    simp only [Nat.reduceSub, List.drop_succ_cons, List.drop_zero]
    exact take_leNat_append _ _ _

theorem attestCerts_clause {b : Fin 8} {m : Msg} {s : State} {k : Taken} (hk : Taking s b opCerts m k) :
    (bufPlace (fld m 0 64) 4096 = false → Ends (.attestCerts b m) s k stBuffer 0 {} (fun u => u = s)) ∧
    (bufPlace (fld m 0 64) 4096 = true → if (s.bufWrite (fld m 0 64) s.certChain).1 = none
      then Ends (.attestCerts b m) s k stOK 0 (pack 4 [(0, 32, s.certChain.length)]) (fun u =>
        u = (s.bufWrite (fld m 0 64) s.certChain).2)
      else if (s.bufWrite (fld m 0 64) s.certChain).1 = some .waits
      then exec (.attestCerts b m) s = .next (s.bufWrite (fld m 0 64) s.certChain).2
      else Ends (.attestCerts b m) s k stBuffer (stopDetail (s.bufWrite (fld m 0 64) s.certChain).1) {} (fun u =>
        u = (s.bufWrite (fld m 0 64) s.certChain).2)) := by
  refine ⟨fun hp => ends_of_runCmd hk rfl (if_pos hp) rfl, fun hp => ?_⟩
  generalize hc : s.certChain = c
  exact ends_of_writeAnswer hk rfl ((if_neg (by rw [hp]; simp)).trans (by rw [hc]))

end Sys2Proof.Mailboxes

namespace Sys2Proof.Mailboxes

open Sys2Proof.Machine Sys2Proof.Safety

/-! ### DEBUG -/

theorem debugChallenge_clause {b : Fin 8} {m : Msg} {s : State} {k : Taken} (hk : Taking s b opChallenge m k) :
    Ends (.debugChallenge b m) s k stOK 0 (pack 32 [(0, 256, (Config.random 256 s.free).toNat)]) (fun u =>
      u.sec = { s.sec with challenge := some (Config.random 256 s.free, s.now) } ∧ u.get F.SEC_DBG_STATUS.CHAL_VALID 0 = 1 ∧
      u.free = s.free + 1 ∧ RegsKeep s u [regKey R.SEC_DBG_STATUS 0]) := by
  refine ends_of_runCmd hk rfl rfl ⟨State.put_sec _ _ _ _, State.get_put_self _ _ _ _ (by decide), State.put_free _ _ _ _, ?_⟩
  refine RegsKeep.put ?_ _ (by simp)
  exact (RegsKeep.refl s _).of_regs rfl

/-- A challenge consumed leaves the rest of the debug status. -/
theorem useChallenge_sec (s : State) : s.useChallenge.sec = { s.sec with challenge := none } := State.put_sec _ _ _ _

theorem useChallenge_get (s : State) (f : Fd) (hr : f.reg = R.SEC_DBG_STATUS) (hd : f.lo + f.width ≤ 16) :
    s.useChallenge.get f 0 = s.get f 0 :=
  State.get_put_disjoint (s.setSec { s.sec with challenge := none }) F.SEC_DBG_STATUS.CHAL_VALID f 0 0 hr (by decide) (.inl hd)

theorem debugUnlock_closed {b : Fin 8} {m : Msg} {s : State} {k : Taken} (hk : Taking s b opUnlock m k)
    (h : s.isSet F.SEC_LOCKS.DBG_DISABLE 0 = true ∨ s.isSet F.SEC_DBG_STATUS.LOCKOUT 0 = true) :
    Ends (.debugUnlock b m) s k stAuth 0 {} (fun u => u.sec = { s.sec with challenge := none } ∧
      u.get F.SEC_DBG_STATUS.LEVEL 0 = s.get F.SEC_DBG_STATUS.LEVEL 0) :=
  ends_of_runCmd hk rfl (if_pos h) ⟨useChallenge_sec s, useChallenge_get s F.SEC_DBG_STATUS.LEVEL rfl (by decide)⟩

/-- The unlock at the level of slot `d`. -/
def unlockGranted (s : State) (d : Nat) : State :=
  ((s.useChallenge.put F.SEC_DBG_STATUS.LEVEL 0 (slotLevel d)).put F.SEC_DBG_STATUS.SLOT 0 d).put F.SEC_DBG_STATUS.FAILS 0 0

theorem unlockGranted_sec (s : State) (d : Nat) : (unlockGranted s d).sec = { s.sec with challenge := none } := by
  unfold unlockGranted
  rw [State.put_sec, State.put_sec, State.put_sec, useChallenge_sec]

theorem unlockGranted_fields (s : State) (d : Nat) : (unlockGranted s d).get F.SEC_DBG_STATUS.LEVEL 0 = (if d = 7 then 2 else 1) ∧
    (unlockGranted s d).get F.SEC_DBG_STATUS.SLOT 0 = d % 8 ∧ (unlockGranted s d).get F.SEC_DBG_STATUS.FAILS 0 = 0 := by
  unfold unlockGranted
  refine ⟨?_, ?_, State.get_put_self _ _ _ _ (by decide)⟩
  · rw [State.get_put_disjoint _ F.SEC_DBG_STATUS.FAILS F.SEC_DBG_STATUS.LEVEL _ _ rfl (by decide) (by decide),
      State.get_put_disjoint _ F.SEC_DBG_STATUS.SLOT F.SEC_DBG_STATUS.LEVEL _ _ rfl (by decide) (by decide),
      State.get_put_self _ _ _ _ (by decide)]
    unfold slotLevel
    split <;> rfl
  · rw [State.get_put_disjoint _ F.SEC_DBG_STATUS.FAILS F.SEC_DBG_STATUS.SLOT _ _ rfl (by decide) (by decide)]
    exact State.get_put_self _ _ _ _ (by decide)

/-- With the debug logic open, the command's answer is that of the buffer's bytes. -/
theorem unlock_body {s u : State} {a d : Nat} {bs : List Byte} (hdis : s.isSet F.SEC_LOCKS.DBG_DISABLE 0 = false)
    (hlock : s.isSet F.SEC_DBG_STATUS.LOCKOUT 0 = false) (hr : BufGives s a 128 bs u) :
    (if s.isSet F.SEC_LOCKS.DBG_DISABLE 0 ∨ s.isSet F.SEC_DBG_STATUS.LOCKOUT 0 then Answer.fail s.useChallenge stAuth
    else match s.bufRead a 128 with
    | (.error .waits, t) => .buffer t .waits
    | (.error (.bad d), t) => .buffer t.useChallenge (.bad d)
    | (.ok bs, t) => t.unlockWith d (natBytes bs)) = u.unlockWith d (natBytes bs) := by
  rw [bufRead_of_gives hr, if_neg]
  rw [hdis, hlock]
  simp

theorem debugUnlock_clause {b : Fin 8} {m : Msg} {s u : State} {k : Taken} {bs : List Byte} {d : Nat} (hk : Taking s b opUnlock m k)
    (hdis : s.isSet F.SEC_LOCKS.DBG_DISABLE 0 = false) (hlock : s.isSet F.SEC_DBG_STATUS.LOCKOUT 0 = false)
    (hr : BufGives s (fld m 8 64) 128 bs u) (hd : fld m 0 8 = d) :
    if u.unlockKey d ((natBytes bs).drop 64) = false
    then Ends (.debugUnlock b m) s k stKey 0 {} (fun v => v = u.useChallenge.unlockFailed)
    else if u.unlockSigned d (natBytes bs) = false ∨ (u.sec.life = 3 ∧ d ≠ 7)
    then Ends (.debugUnlock b m) s k stAuth 0 {} (fun v => v = u.useChallenge.unlockFailed)
    else Ends (.debugUnlock b m) s k stOK 0 (pack 1 [(0, 8, slotLevel d)]) (fun v =>
      v.get F.SEC_DBG_STATUS.LEVEL 0 = (if d = 7 then 2 else 1) ∧ v.get F.SEC_DBG_STATUS.SLOT 0 = d % 8 ∧
      v.get F.SEC_DBG_STATUS.FAILS 0 = 0 ∧ v.sec = { u.sec with challenge := none }) := by
  subst hd
  have hbody := unlock_body (d := fld m 0 8) hdis hlock hr
  split
  case isTrue hkey => exact ends_of_runCmd hk rfl (hbody.trans (if_pos hkey)) rfl
  case isFalse hkey =>
    split
    case isTrue hsig => exact ends_of_runCmd hk rfl (hbody.trans ((if_neg hkey).trans (if_pos hsig))) rfl
    case isFalse hsig =>
      obtain ⟨hlevel, hslot, hfails⟩ := unlockGranted_fields u (fld m 0 8)
      exact ends_of_runCmd (u := unlockGranted u (fld m 0 8)) hk rfl (hbody.trans ((if_neg hkey).trans (if_neg hsig)))
        ⟨hlevel, hslot, hfails, unlockGranted_sec u _⟩

theorem unlockSigned_clause (s : State) (d : Nat) (buf : List Nat) :
    (s.sec.challenge = none → s.unlockSigned d buf = false) ∧
    (∀ (c : BitVec 256) (t : Nat), s.sec.challenge = some (c, t) → t + 60000000000 ≤ s.now → s.unlockSigned d buf = false) := by
  refine ⟨fun h => ?_, fun c t h hold => ?_⟩
  · unfold State.unlockSigned
    rw [h]
  · unfold State.unlockSigned
    rw [h]
    dsimp only
    rw [decide_eq_false (by omega), Bool.false_and]

/-- A failed unlock counts one more, and the third locks the debug logic out. -/
theorem unlockFailed_eq (s : State) : s.unlockFailed =
    if 3 ≤ s.get F.SEC_DBG_STATUS.FAILS 0 + 1 then
      ((s.put F.SEC_DBG_STATUS.FAILS 0 (s.get F.SEC_DBG_STATUS.FAILS 0 + 1)).setSec { s.sec with lockAt := s.now }).put
        F.SEC_DBG_STATUS.LOCKOUT 0 1
    else s.put F.SEC_DBG_STATUS.FAILS 0 (s.get F.SEC_DBG_STATUS.FAILS 0 + 1) := rfl

theorem unlockFailed_clause (s : State) (h : s.get F.SEC_DBG_STATUS.FAILS 0 < 7) :
    s.unlockFailed.get F.SEC_DBG_STATUS.FAILS 0 = s.get F.SEC_DBG_STATUS.FAILS 0 + 1 ∧
    (2 ≤ s.get F.SEC_DBG_STATUS.FAILS 0 → s.unlockFailed.isSet F.SEC_DBG_STATUS.LOCKOUT 0 = true ∧
      s.unlockFailed.sec = { s.sec with lockAt := s.now }) ∧
    (s.get F.SEC_DBG_STATUS.FAILS 0 < 2 → OnlyRegs s s.unlockFailed [regKey R.SEC_DBG_STATUS 0] ∧
      s.unlockFailed.get F.SEC_DBG_STATUS.LOCKOUT 0 = s.get F.SEC_DBG_STATUS.LOCKOUT 0) := by
  have hcount : (s.put F.SEC_DBG_STATUS.FAILS 0 (s.get F.SEC_DBG_STATUS.FAILS 0 + 1)).get F.SEC_DBG_STATUS.FAILS 0 =
      s.get F.SEC_DBG_STATUS.FAILS 0 + 1 := by
    rw [State.get_put_self _ _ _ _ (by decide)]
    exact Nat.mod_eq_of_lt (by change _ < 8; omega)
  refine ⟨?_, fun hlock => ?_, fun hlow => ?_⟩
  · rw [unlockFailed_eq]
    split
    · rw [State.get_put_disjoint _ F.SEC_DBG_STATUS.LOCKOUT F.SEC_DBG_STATUS.FAILS _ _ rfl (by decide) (by decide)]
      exact hcount
    · exact hcount
  · rw [unlockFailed_eq, if_pos (by omega)]
    exact ⟨State.isSet_put_one _ _ _ (by decide) rfl, State.put_sec _ _ _ _⟩
  · rw [unlockFailed_eq, if_neg (by omega)]
    exact ⟨⟨rfl, (RegsKeep.refl s _).put _ (by simp)⟩,
      State.get_put_disjoint _ F.SEC_DBG_STATUS.FAILS F.SEC_DBG_STATUS.LOCKOUT _ _ rfl (by decide) (by decide)⟩

/-! #### The trace sink -/

section
variable {b : Fin 8} {m : Msg} {s : State} {k : Taken} {sink lane : Nat} (hk : Taking s b opTraceCfg m k)
  (hs : fld m 0 8 = sink) (hl : fld m 20 16 = lane)
include hk hs hl

theorem debugTraceCfg_fails (h : s.isSet F.TRC_CTRL.EN 0 = true ∨ (sink = 2 ∧ s.isSet F.MAC_CFG.EN (s.laneMac lane) = false)) :
    Ends (.debugTraceCfg b m) s k stState 0 {} (fun u => u = s) := by
  subst hs hl
  exact ends_of_runCmd hk rfl (if_pos h) rfl

theorem debugTraceCfg_sets (hen : s.isSet F.TRC_CTRL.EN 0 = false)
    (hmac : sink = 2 → s.isSet F.MAC_CFG.EN (s.laneMac lane) = true) {P : State → Prop}
    (hP : P (s.traceConfigure sink (fld m 8 64) (fld m 16 32) lane)) : Ends (.debugTraceCfg b m) s k stOK 0 {} P := by
  subst hs hl
  refine ends_of_runCmd hk rfl (if_neg ?_) hP
  rintro (h | ⟨h2, h⟩)
  · exact absurd h (by rw [hen]; exact Bool.false_ne_true)
  · exact absurd (hmac h2) (by rw [h]; exact Bool.false_ne_true)
end

theorem traceConfigure_lane (s : State) (base size lane : Nat) :
    (s.traceConfigure 2 base size lane).get F.TRC_CTRL.SINK 0 = 2 ∧
    (s.traceConfigure 2 base size lane).get F.TRC_CTRL.LANE 0 = lane % 256 ∧
    OnlyRegs s (s.traceConfigure 2 base size lane) [regKey R.TRC_CTRL 0] := by
  change ((s.put F.TRC_CTRL.SINK 0 2).put F.TRC_CTRL.LANE 0 lane).get F.TRC_CTRL.SINK 0 = 2 ∧
    ((s.put F.TRC_CTRL.SINK 0 2).put F.TRC_CTRL.LANE 0 lane).get F.TRC_CTRL.LANE 0 = lane % 256 ∧
    OnlyRegs s ((s.put F.TRC_CTRL.SINK 0 2).put F.TRC_CTRL.LANE 0 lane) [regKey R.TRC_CTRL 0]
  refine ⟨?_, State.get_put_self _ _ _ _ (by decide), rfl, ((RegsKeep.refl s _).put _ (by simp)).put _ (by simp)⟩
  rw [State.get_put_disjoint _ F.TRC_CTRL.LANE F.TRC_CTRL.SINK _ _ rfl (by decide) (by decide)]
  exact State.get_put_self _ _ _ _ (by decide)

theorem traceConfigure_ring (s : State) (base size lane : Nat) :
    (s.traceConfigure 1 base size lane).get F.TRC_CTRL.SINK 0 = 1 ∧
    (s.traceConfigure 1 base size lane).reg R.TRC_RING_BASE_LO 0 = base % 2 ^ 32 ∧
    (s.traceConfigure 1 base size lane).get F.TRC_RING_BASE_HI.SIZE 0 = size % 32 ∧
    OnlyRegs s (s.traceConfigure 1 base size lane)
      [regKey R.TRC_CTRL 0, regKey R.TRC_RING_BASE_LO 0, regKey R.TRC_RING_BASE_HI 0] := by
  have heq : s.traceConfigure 1 base size lane = ((s.put F.TRC_CTRL.SINK 0 1).setReg R.TRC_RING_BASE_LO 0 (base % 2 ^ 32)).setReg
      R.TRC_RING_BASE_HI 0 (base / 2 ^ 32 % 2 ^ 16 + size % 32 * 2 ^ 16) := rfl
  rw [heq]
  refine ⟨?_, ?_, ?_, rfl, (((RegsKeep.refl s _).put _ (by simp)).setReg _ (by simp)).setReg _ (by simp)⟩
  · rw [State.get_setReg_ne _ _ _ _ _ _ (by decide), State.get_setReg_ne _ _ _ _ _ _ (by decide)]
    exact State.get_put_self _ _ _ _ (by decide)
  · rw [State.reg_setReg_ne _ _ _ _ _ _ (by decide), State.reg_setReg_self]
    exact Nat.mod_mod _ _
  · rw [State.get, State.reg_setReg_self]
    unfold bitsOf
    dsimp only
    omega

theorem debugTraceCfg_clause (b : Fin 8) (m : Msg) (s : State) (k : Taken) (sink lane : Nat) (hk : Taking s b opTraceCfg m k)
    (hs : fld m 0 8 = sink) (hl : fld m 20 16 = lane) :
    (s.isSet F.TRC_CTRL.EN 0 = true ∨ (sink = 2 ∧ s.isSet F.MAC_CFG.EN (s.laneMac lane) = false) →
      Ends (.debugTraceCfg b m) s k stState 0 {} (fun u => u = s)) ∧
    (s.isSet F.TRC_CTRL.EN 0 = false → sink = 2 → s.isSet F.MAC_CFG.EN (s.laneMac lane) = true →
      Ends (.debugTraceCfg b m) s k stOK 0 {} (fun u => u.get F.TRC_CTRL.SINK 0 = 2 ∧ u.get F.TRC_CTRL.LANE 0 = lane % 256 ∧
        OnlyRegs s u [regKey R.TRC_CTRL 0])) ∧
    (s.isSet F.TRC_CTRL.EN 0 = false → sink = 1 → Ends (.debugTraceCfg b m) s k stOK 0 {} (fun u =>
      u.get F.TRC_CTRL.SINK 0 = 1 ∧ u.reg R.TRC_RING_BASE_LO 0 = fld m 8 64 % 2 ^ 32 ∧
      u.get F.TRC_RING_BASE_HI.SIZE 0 = fld m 16 32 % 32 ∧
      OnlyRegs s u [regKey R.TRC_CTRL 0, regKey R.TRC_RING_BASE_LO 0, regKey R.TRC_RING_BASE_HI 0])) := by
  refine ⟨debugTraceCfg_fails hk hs hl, fun hen h2 hmac => debugTraceCfg_sets hk hs hl hen (fun _ => hmac) ?_,
    fun hen h1 => debugTraceCfg_sets hk hs hl hen (fun h2 => absurd h2 (by omega)) ?_⟩
  · subst h2; exact traceConfigure_lane s _ _ _
  · subst h1; exact traceConfigure_ring s _ _ _

end Sys2Proof.Mailboxes

namespace Sys2Proof.Mailboxes

open Sys2Proof.Machine Sys2Proof.Safety

/-! #### The debug lock -/

/-- The halt of agent `n` ended in its status. -/
def haltEnded (s : State) (n : Nat) : State := (s.put F.DBG_CORE_STATUS.HALTED n 0).put F.DBG_CORE_STATUS.CAUSE n 0

theorem haltEnded_regsKeep (s : State) (n : Nat) : RegsKeep s (haltEnded s n) [regKey R.DBG_CORE_STATUS n] :=
  ((RegsKeep.refl s _).put _ (by simp)).put _ (by simp)

theorem agentHalted_haltEnded_self (s : State) (n : Nat) : (haltEnded s n).agentHalted n = false := by
  unfold State.agentHalted State.isSet haltEnded
  rw [State.get_put_disjoint _ F.DBG_CORE_STATUS.CAUSE F.DBG_CORE_STATUS.HALTED _ _ rfl (by decide) (by decide),
    State.get_put_self _ _ _ _ (by decide)]
  rfl

theorem agentHalted_haltEnded_ne (s : State) {n j : Nat} (h : j ≠ n) : (haltEnded s n).agentHalted j = s.agentHalted j := by
  unfold State.agentHalted State.isSet
  rw [(haltEnded_regsKeep s n).get (by simpa [regKey] using h)]

theorem Calm.agentHalted {s t : State} (h : Calm s t) {j : Nat} (hj : j < 2 ^ 32) : t.agentHalted j = s.agentHalted j := by
  unfold State.agentHalted State.isSet
  rw [h.regs.get F.DBG_CORE_STATUS.HALTED (by decide) hj]

/-- What follows the end of a halt writes no halt's status. -/
theorem calm_resumeAgent (s : State) {n : Nat} (hn : n < 258) : Calm (haltEnded s n) (s.resumeAgent n) := by
  unfold State.resumeAgent
  extract_lets s₁ _ s₂ c w
  split
  · exact .of_same rfl rfl
  · split
    · exact .refl _
    · have hcore : Calm s₂ (s₂.setCore n { c with wdt := w, frozen := none, stepping := false, bpDone := false, haltReq := none }) :=
        .of_same rfl rfl
      exact ((Calm.put s₁ (f := F.TC_STATE.HALTED) 0 (by omega)).trans hcore).trans (calm_redecide (by omega) _)

/-- An agent that is resumed is not halted, and no other is halted by it. -/
theorem agentHalted_resumeAgent (s : State) {n j : Nat} (hn : n < 258) (hj : j < 258) (h : j = n ∨ s.agentHalted j = false) :
    (s.resumeAgent n).agentHalted j = false := by
  rw [(calm_resumeAgent s hn).agentHalted (by omega)]
  by_cases he : j = n
  · rw [he]; exact agentHalted_haltEnded_self s n
  · rw [agentHalted_haltEnded_ne s he]
    exact h.resolve_left he

theorem dbgStatus_resumeAgent (s : State) {n : Nat} (hn : n < 258) :
    (s.resumeAgent n).reg R.SEC_DBG_STATUS 0 = s.reg R.SEC_DBG_STATUS 0 :=
  ((calm_resumeAgent s hn).regs R.SEC_DBG_STATUS 0 (by decide) (by decide)).trans
    (haltEnded_regsKeep s n _ _ (by simp [regKey]; omega))

/-- The halts of the listed agents ended. -/
def haltsEnded (l : List Nat) (s : State) : State := l.foldl (fun t n => if t.agentHalted n then t.resumeAgent n else t) s

theorem haltsEnded_dbgStatus (l : List Nat) (hl : ∀ n ∈ l, n < 258) (s : State) :
    (haltsEnded l s).reg R.SEC_DBG_STATUS 0 = s.reg R.SEC_DBG_STATUS 0 := by
  unfold haltsEnded
  induction l generalizing s with
  | nil => rfl
  | cons n l ih =>
    rw [List.foldl_cons, ih (fun m hm => hl m (by simp [hm]))]
    split
    · exact dbgStatus_resumeAgent s (hl n (by simp))
    · rfl

theorem haltsEnded_halted (l : List Nat) (hl : ∀ n ∈ l, n < 258) {j : Nat} (hj : j < 258) :
    ∀ s : State, j ∈ l ∨ s.agentHalted j = false → (haltsEnded l s).agentHalted j = false := by
  unfold haltsEnded
  induction l with
  | nil => exact fun s h => h.resolve_left (by simp)
  | cons n l ih =>
    intro s h
    rw [List.foldl_cons]
    refine ih (fun m hm => hl m (by simp [hm])) _ ?_
    rw [List.mem_cons] at h
    by_cases hhalt : s.agentHalted n = true
    · rw [if_pos hhalt]
      rcases h with (h | h) | h
      · exact .inr (agentHalted_resumeAgent s (hl n (by simp)) hj (.inl h))
      · exact .inl h
      · exact .inr (agentHalted_resumeAgent s (hl n (by simp)) hj (.inr h))
    · rw [if_neg hhalt]
      rcases h with (h | h) | h
      · exact .inr (by rw [h]; simpa using hhalt)
      · exact .inl h
      · exact .inr h

/-- The debug status with level and slot returned to locked. -/
def levelLocked (s : State) : State :=
  s.setReg R.SEC_DBG_STATUS 0 (bitsSet (bitsSet (s.reg R.SEC_DBG_STATUS 0) 0 2 0) 9 3 0)

theorem debugLock_eq (s : State) : s.debugLock = haltsEnded (List.range 258) (levelLocked s) := rfl

theorem reg_levelLocked (s : State) : (levelLocked s).reg R.SEC_DBG_STATUS 0 =
    bitsSet (bitsSet (s.reg R.SEC_DBG_STATUS 0) 0 2 0) 9 3 0 := by
  unfold levelLocked
  rw [State.reg_setReg_self]
  exact Nat.mod_eq_of_lt (bitsSet_lt _ _ _ _ (by decide) (bitsSet_lt _ _ _ _ (by decide) (s.reg_lt _ _)))

theorem debugLock_fields (s : State) : s.debugLock.get F.SEC_DBG_STATUS.LEVEL 0 = 0 ∧ s.debugLock.get F.SEC_DBG_STATUS.SLOT 0 = 0 ∧
    s.debugLock.get F.SEC_DBG_STATUS.FAILS 0 = s.get F.SEC_DBG_STATUS.FAILS 0 := by
  have hreg : s.debugLock.reg R.SEC_DBG_STATUS 0 = bitsSet (bitsSet (s.reg R.SEC_DBG_STATUS 0) 0 2 0) 9 3 0 := by
    rw [debugLock_eq, haltsEnded_dbgStatus _ (fun n hn => List.mem_range.mp hn), reg_levelLocked]
  refine ⟨?_, ?_, ?_⟩
  · rw [State.get, hreg, bitsOf_bitsSet_disjoint _ _ _ _ _ _ (by decide), bitsOf_bitsSet]; rfl
  · rw [State.get, hreg, bitsOf_bitsSet]; rfl
  · rw [State.get, hreg, bitsOf_bitsSet_disjoint _ _ _ _ _ _ (by decide), bitsOf_bitsSet_disjoint _ _ _ _ _ _ (by decide)]
    rfl

theorem debugLock_halted (s : State) : ∀ n < 258, s.debugLock.agentHalted n = false := by
  intro n hn
  rw [debugLock_eq]
  exact haltsEnded_halted _ (fun m hm => List.mem_range.mp hm) hn _ (.inl (List.mem_range.mpr hn))

theorem debugLock_ends {b : Fin 8} {m : Msg} {s : State} {k : Taken} (hk : Taking s b opDebugLock m k) :
    Ends (.debugLock b m) s k stOK 0 {} (fun u => u.get F.SEC_DBG_STATUS.LEVEL 0 = 0 ∧ u.get F.SEC_DBG_STATUS.SLOT 0 = 0 ∧
      u.get F.SEC_DBG_STATUS.FAILS 0 = s.get F.SEC_DBG_STATUS.FAILS 0 ∧ (∀ n < 258, u.agentHalted n = false)) := by
  obtain ⟨hlevel, hslot, hfails⟩ := debugLock_fields s
  exact ends_of_runCmd (u := s.debugLock) hk rfl rfl ⟨hlevel, hslot, hfails, debugLock_halted s⟩

/-- Settles O57: each command's body is its checks and its one effect; the end of the debug unlock ends every halt, and what
that sets off halts no agent. -/
theorem taskErrorDebugCommands : Obligations.TaskErrorDebugCommands := by
  unfold Obligations.TaskErrorDebugCommands
  exact ⟨fun b m s k q n j hk hq hn hj hq4 hn16 => ⟨taskCqCfg_fails hk hq hn hj, taskCqCfg_starts hk hq hn hj hq4 hn16⟩,
    fun b m s k q v => taskTick_ends,
    fun b m s k q => taskStats_ends,
    fun b m s k q => taskFlush_ends,
    logFrom_clause, entryBytes_fields,
    fun b m s k es w => errorRead_clause,
    fun b m s k => errorClear_clause,
    fun b m s k => errorConfig_clause,
    fun b m s k => errorInject_clause,
    fun b m s v k hk hv => by
      generalize hr : reportOf s (fld m 0 256) = r
      exact attestReport_clause hk hv hr,
    reportBody_clause,
    fun b m s k => attestCerts_clause,
    fun b m s k => debugChallenge_clause,
    fun b m s k hk => ⟨debugUnlock_closed hk, fun bs u d => debugUnlock_clause hk⟩,
    unlockSigned_clause, unlockFailed_clause, debugTraceCfg_clause,
    fun b m s k => debugLock_ends⟩

end Sys2Proof.Mailboxes

namespace Sys2Proof.Machine

/-! ### Pairs of registers -/

/-- Registers at different offsets have different keys, one index for both. -/
theorem regKey_ne_same {r q : RegRow} (i : Nat) (h : r.off ≠ q.off) : regKey r i ≠ regKey q i := by
  unfold regKey; omega

theorem State.pair_congr {s t : State} (h : t.regs = s.regs) (lo hi : RegRow) (i : Nat) : t.pair lo hi i = s.pair lo hi i := by
  unfold State.pair; rw [State.reg_congr h, State.reg_congr h]

theorem KeepsRegs.mono {P Q : Nat → Prop} {s t : State} (h : KeepsRegs P s t) (hPQ : ∀ o, Q o → P o) : KeepsRegs Q s t :=
  fun r i hr hi => h r i (hPQ _ hr) hi

theorem KeepsRegs.pair {P : Nat → Prop} {s t : State} (h : KeepsRegs P s t) {lo hi : RegRow} {i : Nat} (hlo : P lo.off)
    (hhi : P hi.off) (hi' : i < 2 ^ 32) : t.pair lo hi i = s.pair lo hi i := by
  unfold State.pair; rw [h lo i hlo hi', h hi i hhi hi']

end Sys2Proof.Machine

namespace Sys2Proof.Network

open Sys2Proof.Machine Sys2Proof.Safety Sys2Proof.Mailboxes

/-! ### Counters of an initiator -/

section
variable (s : State) (lo hi : RegRow) (i k : Nat)

/-- A 48-bit counter wraps (R148). -/
theorem pair_nocAdd (h : lo.off ≠ hi.off) :
    (s.nocAdd lo hi i k).pair lo hi i = (s.pair lo hi i + k) % 2 ^ 48 :=
  pair_setPair s lo hi i _ (regKey_ne_same i h) (by omega)

theorem nocAdd_regsKeep : RegsKeep s (s.nocAdd lo hi i k) [regKey lo i, regKey hi i] := setPair_regsKeep _ _ _ _ _

@[simp] theorem nocAdd_net : (s.nocAdd lo hi i k).net = s.net := by
  unfold State.nocAdd; rw [State.setPair_net]

end

/-- A saturating counter after one event. -/
theorem reg_countReg_one (s : State) (r : RegRow) (i : Nat) :
    (s.countReg r i 1).reg r i = min (s.reg r i + 1) (2 ^ 32 - 1) := by
  unfold State.countReg satAdd
  rw [State.reg_setReg_self]
  omega

/-! ### What waits at an injection interface -/

/-- `s` with `ps` waiting at initiator `i`. -/
def setWait (s : State) (i : Nat) (ps : List Packet) : State :=
  { s with net := { s.net with wait := s.net.wait.set [] i ps } }

theorem reg_setWait (s : State) (j : Nat) (ps : List Packet) (r : RegRow) (i : Nat) :
    (setWait s j ps).reg r i = s.reg r i := rfl

@[simp] theorem setWait_flight (s : State) (i : Nat) (ps : List Packet) : (setWait s i ps).net.flight = s.net.flight := rfl

@[simp] theorem setWait_arrived (s : State) (i : Nat) (ps : List Packet) : (setWait s i ps).net.arrived = s.net.arrived := rfl

@[simp] theorem setWait_outstanding (s : State) (i : Nat) (ps : List Packet) (j : Nat) :
    (setWait s i ps).outstanding j = s.outstanding j := rfl

theorem setWait_wait (s : State) (i : Nat) (ps : List Packet) : (setWait s i ps).net.wait.get [] i = ps :=
  SMap.get_set_self _ _ _ _

theorem pair_setWait (s : State) (j : Nat) (ps : List Packet) (lo hi : RegRow) (i : Nat) :
    (setWait s j ps).pair lo hi i = s.pair lo hi i := State.pair_congr rfl lo hi i

theorem pump_eq (s : State) (i : Nat) : s.pump i =
    setWait (State.pumpList (s.net.wait.get [] i) false [] s []).1 i (State.pumpList (s.net.wait.get [] i) false [] s []).2 := rfl

/-- Where nothing waits, nothing is injected. -/
theorem pump_idle {s : State} {i : Nat} (h : s.net.wait.get [] i = []) : s.pump i = setWait s i [] := by
  rw [pump_eq, h]; rfl

section
variable {s : State} {q : Packet} {i : Nat} (hwait : s.net.wait.get [] i = [q]) (hlimit : s.limitAllows q = true)
include hwait hlimit

/-- One packet that meets neither its limit nor its bucket is injected (R146, R147). -/
theorem pump_launches (htok : s.tokensAllow q.src.toNat q.vc.toNat (pktUnits q) = true) :
    s.pump i = setWait (s.launch q) i [] := by
  rw [pump_eq, hwait]
  simp [State.pumpList, hlimit, htok]

/-- One that meets its bucket waits on. -/
theorem pump_starved (htok : s.tokensAllow q.src.toNat q.vc.toNat (pktUnits q) = false) :
    s.pump i = setWait s i [q] := by
  rw [pump_eq, hwait]
  simp [State.pumpList, hlimit, htok]

end

/-! ### Checks at injection (R132, R138) -/

theorem dozeLeft_of_noDev {s : State} (h : s.power.dev = none) (ep : Nat) : s.dozeLeft ep = s := by
  unfold State.dozeLeft; rw [h]

theorem darkFor_of_noDev {s : State} (h : s.power.dev = none) (p : Packet) : s.darkFor p = false := by
  unfold State.darkFor State.dark; rw [h]; rfl

/-- A request does not end HIBERNATE as it ends DOZE (R390). -/
theorem dozeLeft_of_dark {s : State} (h : s.dark = true) (ep : Nat) : s.dozeLeft ep = s := by
  unfold State.dark at h
  unfold State.dozeLeft
  cases hdev : s.power.dev with
  | none => rfl
  | some x =>
    rw [hdev] at h
    have htarget : x.target = 3 := by simp at h; exact h.2
    simp [htarget]

theorem inject_dark {p : Packet} {s : State} (h : s.darkFor p = true) : s.inject p = s := by
  have hdark : s.dark = true := by
    unfold State.darkFor at h
    exact (Bool.and_eq_true_iff.mp h).1
  unfold State.inject
  simp only [dozeLeft_of_dark hdark, h, if_true]

section
variable {p : Packet} {s : State} (hdev : s.power.dev = none)
include hdev

theorem inject_malformed (hbad : pktOk p = false ∨ s.tagUsed p = true) : s.inject p = s.refuseInjection p 3 := by
  unfold State.inject
  simp [dozeLeft_of_noDev hdev, darkFor_of_noDev hdev, hbad]

section
variable (hok : pktOk p = true) (htag : s.tagUsed p = false)
include hok htag

theorem inject_undecoded {c : Nat} (hdec : s.decodeRequest p (s.forcedSecure p) = .error c) :
    s.inject p = s.refuseInjection p c := by
  unfold State.inject
  simp [dozeLeft_of_noDev hdev, darkFor_of_noDev hdev, hok, htag, hdec]

/-- A good request joins what waits at its initiator, with its destination, forced SECURE and POISON. -/
theorem inject_decoded {d : Nat} (hdec : s.decodeRequest p (s.forcedSecure p) = .ok d) :
    s.inject p = (setWait s p.src.toNat (s.net.wait.get [] p.src.toNat ++
      [{ p with dest := BitVec.ofNat 10 d, secure := s.forcedSecure p, poison := pktPoison p }])).pump p.src.toNat := by
  unfold State.inject
  simp [dozeLeft_of_noDev hdev, darkFor_of_noDev hdev, hok, htag, hdec, setWait]

end

end

/-- A refused request that expects a response is counted, and its interface hands it the error (R138). -/
theorem refuseInjection_answers {p : Packet} (s : State) (c : Nat) (hrsp : expectsResponse p.cmd.toNat = true) :
    (s.refuseInjection p c).reg R.NOC_DROP_COUNT 0 = min (s.reg R.NOC_DROP_COUNT 0 + 1) (2 ^ 32 - 1) ∧
    (s.refuseInjection p c).net.packets = pktResponse { p with dest := p.src } 10 c [] :: s.net.packets ∧
    (s.refuseInjection p c).net.outst = s.net.outst ∧ (s.refuseInjection p c).net.wait = s.net.wait ∧
    RegsKeep s (s.refuseInjection p c) [regKey R.NOC_DROP_COUNT 0] := by
  have heq : s.refuseInjection p c = (s.countReg R.NOC_DROP_COUNT 0 1).handPackets
      [pktResponse { p with dest := p.src } cmdErrorRsp c []] true := if_pos hrsp
  rw [heq]
  exact ⟨reg_countReg_one s R.NOC_DROP_COUNT 0, rfl, rfl, rfl,
    ((RegsKeep.refl s _).setReg _ (by simp)).of_regs rfl⟩

/-! ### Injection (R141, R146 to R148) -/

/-- `s` with the tokens of `p` taken out of its bucket (R147). -/
def tokensTaken (s : State) (p : Packet) : State :=
  if p.vc.toNat < 2 ∧ s.rateOn p.src.toNat p.vc.toNat = true then s.takeTokens p.src.toNat p.vc.toNat (pktUnits p) else s

/-- The outstanding requests `p` adds at its initiator, injected at NS64 `now` (R146). -/
def reservation (p : Packet) (now : Nat) : List Outst :=
  if expectsResponse p.cmd.toNat then
    [{ tag := p.tag, cmd := p.cmd, units := responseUnits p.cmd.toNat p.len.toNat, at64 := now }] else []

/-- `s` with the response of `p` awaited. -/
def reserved (s : State) (p : Packet) : State :=
  if expectsResponse p.cmd.toNat then
    { s with net := { s.net with outst := s.net.outst.set [] p.src.toNat (s.outstanding p.src.toNat ++
      [{ tag := p.tag, cmd := p.cmd, units := responseUnits p.cmd.toNat p.len.toNat, at64 := s.now }]) } }
  else s

/-- `s` with `p` counted as sent (R148). -/
def sentCounted (s : State) (p : Packet) : State :=
  (s.nocAdd R.NOC_STAT_REQ_LO R.NOC_STAT_REQ_HI p.src.toNat 1).nocAdd R.NOC_STAT_WR_LO R.NOC_STAT_WR_HI p.src.toNat (pktBytes p)

theorem launch_eq (s : State) (p : Packet) :
    s.launch p = (sentCounted (reserved (tokensTaken s p) p) p).sendPacket p := rfl

/-- Keys of the counters a sent request adds to (R148). -/
def sentKeys (i : Nat) : List Nat := [regKey R.NOC_STAT_REQ_LO i, regKey R.NOC_STAT_REQ_HI i,
  regKey R.NOC_STAT_WR_LO i, regKey R.NOC_STAT_WR_HI i]

theorem sentCounted_regs (s : State) (p : Packet) :
    (sentCounted s p).pair R.NOC_STAT_REQ_LO R.NOC_STAT_REQ_HI p.src.toNat =
      (s.pair R.NOC_STAT_REQ_LO R.NOC_STAT_REQ_HI p.src.toNat + 1) % 2 ^ 48 ∧
    (sentCounted s p).pair R.NOC_STAT_WR_LO R.NOC_STAT_WR_HI p.src.toNat =
      (s.pair R.NOC_STAT_WR_LO R.NOC_STAT_WR_HI p.src.toNat + pktBytes p) % 2 ^ 48 ∧
    RegsKeep s (sentCounted s p) (sentKeys p.src.toNat) := by
  have hreq := nocAdd_regsKeep s R.NOC_STAT_REQ_LO R.NOC_STAT_REQ_HI p.src.toNat 1
  have hwr := nocAdd_regsKeep (s.nocAdd R.NOC_STAT_REQ_LO R.NOC_STAT_REQ_HI p.src.toNat 1) R.NOC_STAT_WR_LO R.NOC_STAT_WR_HI
    p.src.toNat (pktBytes p)
  refine ⟨?_, ?_, (hreq.mono (by simp [sentKeys])).trans (hwr.mono (by simp [sentKeys]))⟩
  · exact (regsKeep_pair hwr (by simp [regKey]) (by simp [regKey])).trans (pair_nocAdd _ _ _ _ _ (by decide))
  · refine (pair_nocAdd _ _ _ _ _ (by decide)).trans ?_
    rw [regsKeep_pair hreq (by simp [regKey]) (by simp [regKey])]

theorem sentCounted_net (s : State) (p : Packet) : (sentCounted s p).net = s.net := by
  unfold sentCounted; rw [nocAdd_net, nocAdd_net]

theorem sendPacket_net (s : State) (p : Packet) : (s.sendPacket p).net.packets = s.net.packets ++ [p] ∧
    (s.sendPacket p).net.outst = s.net.outst ∧ (s.sendPacket p).net.spent = s.net.spent := by
  refine ⟨?_, rfl, rfl⟩
  exact List.map_append ..

theorem tokensTaken_regs (s : State) (p : Packet) : (tokensTaken s p).regs = s.regs := by
  unfold tokensTaken; split <;> rfl

theorem tokensTaken_net (s : State) (p : Packet) : (tokensTaken s p).net.outst = s.net.outst ∧
    (tokensTaken s p).net.packets = s.net.packets ∧ (tokensTaken s p).now = s.now := by
  unfold tokensTaken; split <;> exact ⟨rfl, rfl, rfl⟩

theorem reserved_regs (s : State) (p : Packet) : (reserved s p).regs = s.regs := by
  unfold reserved; split <;> rfl

theorem reserved_net (s : State) (p : Packet) : (reserved s p).net.packets = s.net.packets ∧
    (reserved s p).net.spent = s.net.spent := by
  unfold reserved; split <;> exact ⟨rfl, rfl⟩

theorem outstanding_reserved (s : State) (p : Packet) :
    (reserved s p).outstanding p.src.toNat = s.outstanding p.src.toNat ++ reservation p s.now := by
  unfold reserved reservation
  split
  · exact SMap.get_set_self _ _ _ _
  · exact (List.append_nil _).symm

/-- Tokens in a bucket: what its BURST leaves of those given and not regained. -/
theorem tokens_eq (s : State) (i vc : Nat) : s.tokens i vc = s.rateBurst i vc - s.net.spent.get 0 (bucketKey i vc) := rfl

theorem tokens_setSpent (s : State) (i vc n : Nat) : (s.setSpent i vc n).tokens i vc = s.rateBurst i vc - n := by
  rw [tokens_eq]
  exact congrArg (s.rateBurst i vc - ·) (SMap.get_set_self _ _ _ _)

theorem tokens_setWait (s : State) (j : Nat) (ps : List Packet) (i vc : Nat) :
    (setWait s j ps).tokens i vc = s.tokens i vc := rfl

theorem tokens_tokensTaken {s : State} {p : Packet} (hvc : p.vc.toNat < 2) (hon : s.rateOn p.src.toNat p.vc.toNat = true) :
    (tokensTaken s p).tokens p.src.toNat p.vc.toNat = s.tokens p.src.toNat p.vc.toNat - pktUnits p := by
  unfold tokensTaken State.takeTokens
  rw [if_pos ⟨hvc, hon⟩, tokens_setSpent, tokens_eq]
  omega

theorem tokens_congr {s t : State} {i : Nat} (hr : RegsKeep s t (sentKeys i)) (hn : t.net.spent = s.net.spent) (vc : Nat) :
    t.tokens i vc = s.tokens i vc := by
  have hreg : t.reg (rateReg vc) i = s.reg (rateReg vc) i := hr _ _ (by unfold rateReg; split <;> simp [sentKeys, regKey])
  rw [tokens_eq, tokens_eq, hn]
  unfold State.rateBurst
  rw [hreg]

/-- What the injection of a request leaves: it is in the network, awaited, paid for and counted. -/
structure Launched (s t : State) (p : Packet) : Prop where
  packets : t.net.packets = s.net.packets ++ [p]
  awaited : t.outstanding p.src.toNat = s.outstanding p.src.toNat ++ reservation p s.now
  paid : p.vc.toNat < 2 → s.rateOn p.src.toNat p.vc.toNat = true →
    t.tokens p.src.toNat p.vc.toNat = s.tokens p.src.toNat p.vc.toNat - pktUnits p
  requests : t.pair R.NOC_STAT_REQ_LO R.NOC_STAT_REQ_HI p.src.toNat =
    (s.pair R.NOC_STAT_REQ_LO R.NOC_STAT_REQ_HI p.src.toNat + 1) % 2 ^ 48
  written : t.pair R.NOC_STAT_WR_LO R.NOC_STAT_WR_HI p.src.toNat =
    (s.pair R.NOC_STAT_WR_LO R.NOC_STAT_WR_HI p.src.toNat + pktBytes p) % 2 ^ 48
  rest : RegsKeep s t (sentKeys p.src.toNat)

theorem launch_launched (s : State) (p : Packet) : Launched s (s.launch p) p := by
  obtain ⟨htaken, hflight, hnow⟩ := tokensTaken_net s p
  obtain ⟨hflight', hspent'⟩ := reserved_net (tokensTaken s p) p
  have hawaited : (reserved (tokensTaken s p) p).outstanding p.src.toNat =
      s.outstanding p.src.toNat ++ reservation p s.now := by
    rw [outstanding_reserved, hnow]; unfold State.outstanding; rw [htaken]
  have hregs : (reserved (tokensTaken s p) p).regs = (tokensTaken s p).regs := reserved_regs _ _
  rw [launch_eq]
  generalize reserved (tokensTaken s p) p = u at *
  obtain ⟨hreq, hwr, hkeep⟩ := sentCounted_regs u p
  obtain ⟨hpackets, houtst, hspent⟩ := sendPacket_net (sentCounted u p) p
  rw [sentCounted_net] at hpackets houtst hspent
  generalize sentCounted u p = c at *
  have hsent : (c.sendPacket p).regs = c.regs := rfl
  have hsend : RegsKeep u (c.sendPacket p) (sentKeys p.src.toNat) := hkeep.of_regs hsent
  have hpaid : RegsKeep (tokensTaken s p) u (sentKeys p.src.toNat) := (RegsKeep.refl _ _).of_regs hregs
  have hsame : u.regs = s.regs := hregs.trans (tokensTaken_regs s p)
  exact {
    packets := by rw [hpackets, hflight', hflight]
    awaited := by unfold State.outstanding at *; rw [houtst, hawaited]
    paid := fun hvc hon => by
      rw [tokens_congr (hpaid.trans hsend) (hspent.trans hspent'), tokens_tokensTaken hvc hon]
    requests := by rw [State.pair_congr hsent, hreq, State.pair_congr hsame]
    written := by rw [State.pair_congr hsent, hwr, State.pair_congr hsame]
    rest := ((RegsKeep.refl s _).of_regs hsame).trans hsend }

/-- What waits at an initiator changes nothing else of an injection. -/
theorem Launched.of_setWait {s t : State} {p : Packet} {i : Nat} {ps : List Packet} (h : Launched (setWait s i ps) t p) (j : Nat)
    (qs : List Packet) : Launched s (setWait t j qs) p :=
  { packets := h.packets
    awaited := h.awaited
    paid := h.paid
    requests := by rw [pair_setWait, h.requests, pair_setWait]
    written := by rw [pair_setWait, h.written, pair_setWait]
    rest := h.rest }

section
variable {p q : Packet} {s : State} {d : Nat} (hdev : s.power.dev = none) (hok : pktOk p = true) (htag : s.tagUsed p = false)
  (hdec : s.decodeRequest p (s.forcedSecure p) = .ok d) (hwait : s.net.wait.get [] p.src.toNat = [])
  (hlimit : s.limitAllows p = true)
  (hq : q = { p with dest := BitVec.ofNat 10 d, secure := s.forcedSecure p, poison := pktPoison p })
include hdev hok htag hdec hwait hq

/-- A good request at an idle initiator is alone there. -/
theorem inject_alone : s.inject p = (setWait s p.src.toNat [q]).pump p.src.toNat := by
  rw [inject_decoded hdev hok htag hdec, hwait, List.nil_append, hq]

include hlimit

theorem inject_launches (htok : s.tokensAllow p.src.toNat p.vc.toNat (pktUnits p) = true) :
    Launched s (s.inject p) q ∧ (s.inject p).net.wait.get [] p.src.toNat = [] := by
  have hlimit' : (setWait s p.src.toNat [q]).limitAllows q = true := by subst hq; exact hlimit
  have htok' : (setWait s p.src.toNat [q]).tokensAllow q.src.toNat q.vc.toNat (pktUnits q) = true := by subst hq; exact htok
  rw [inject_alone hdev hok htag hdec hwait hq, pump_launches (setWait_wait _ _ _) hlimit' htok']
  exact ⟨(launch_launched _ q).of_setWait _ _, setWait_wait _ _ _⟩

theorem inject_waits (htok : s.tokensAllow p.src.toNat p.vc.toNat (pktUnits p) = false) :
    s.inject p = setWait (setWait s p.src.toNat [q]) p.src.toNat [q] := by
  have hlimit' : (setWait s p.src.toNat [q]).limitAllows q = true := by subst hq; exact hlimit
  have htok' : (setWait s p.src.toNat [q]).tokensAllow q.src.toNat q.vc.toNat (pktUnits q) = false := by subst hq; exact htok
  rw [inject_alone hdev hok htag hdec hwait hq, pump_starved (setWait_wait _ _ _) hlimit' htok']

end

/-! ### Regulators (R147) -/

theorem tokenRefill_of_early {s : State} (h : s.now / 250 ≤ s.net.refills) : exec .tokenRefill s = .next s := if_pos h

/-- One bucket is refilled where one alone has given tokens, and nothing waits for them. -/
theorem tokenRefill_one {s : State} {i vc x : Nat} (hdue : s.net.refills < s.now / 250) (hwait : s.net.wait = [])
    (hspent : s.net.spent = [(bucketKey i vc, x)]) :
    exec .tokenRefill s = .next (State.refill { s with net := { s.net with refills := s.now / 250 } }
      (s.now / 250 - s.net.refills) (bucketKey i vc)) := by
  change (if s.now / 250 ≤ s.net.refills then _ else _) = _
  rw [if_neg (by omega)]
  dsimp only
  rw [hspent, hwait]
  rfl

theorem refill_bucket (s : State) (k i : Nat) {vc : Nat} (hvc : vc < 2) : s.refill k (bucketKey i vc) =
    s.setSpent i vc (s.net.spent.get 0 (bucketKey i vc) - k * s.rateRate i vc) := by
  have hi : bucketKey i vc / 2 = i := by unfold bucketKey; omega
  have hv : bucketKey i vc % 2 = vc := by unfold bucketKey; omega
  unfold State.refill
  dsimp only
  rw [hi, hv]

theorem tokenRefill_leads {s : State} {i vc x : Nat} (hdue : s.net.refills < s.now / 250) (hwait : s.net.wait = [])
    (hspent : s.net.spent = [(bucketKey i vc, x)]) (hvc : vc < 2) (hx : x ≤ s.rateBurst i vc) :
    Leads .tokenRefill s (fun t => t.net.refills = s.now / 250 ∧
      t.tokens i vc = min (s.rateBurst i vc) (s.tokens i vc + (s.now / 250 - s.net.refills) * s.rateRate i vc) ∧
      t.regs = s.regs) := by
  refine ⟨_, tokenRefill_one hdue hwait hspent, ?_⟩
  have hgiven : s.net.spent.get 0 (bucketKey i vc) = x := by rw [hspent]; exact if_pos rfl
  have hrate : s.tokens i vc = s.rateBurst i vc - x := by rw [tokens_eq, hgiven]
  rw [refill_bucket _ _ _ hvc]
  refine ⟨rfl, ?_, rfl⟩
  rw [tokens_setSpent, hrate]
  change s.rateBurst i vc - (s.net.spent.get 0 (bucketKey i vc) - _ * s.rateRate i vc) = _
  rw [hgiven]
  generalize (s.now / 250 - s.net.refills) * s.rateRate i vc = gain
  omega

/-! ### Registers selected by INIT_SEL (R149) -/

theorem accId_lt (a : Accessor) : accId a < 8 := by cases a <;> decide

theorem selIndex_init (s : State) (a : Accessor) (core : Nat) : s.selIndex a core .init =
    if accBanked a = false then none
    else if epPlaced (s.sel a F.INIT_SEL.ENDPOINT) then some (s.sel a F.INIT_SEL.ENDPOINT) else none := rfl

theorem instOf_init (s : State) (a : Accessor) {r : RegRow} (hsel : r.sel = .init) :
    s.instOf a 0 r 0 = (s.selIndex a 0 .init).map (fun k => k * r.n + 0) := by
  unfold State.instOf
  rw [hsel]
  rfl

/-- The initiator an access names is an endpoint ID. -/
theorem writes_init_lt {s : State} {a : Accessor} {r : RegRow} {i : Nat} (hsel : r.sel = .init) (hn : r.n = 1)
    (h : Writes s a 0 r 0 i) : i < 1024 := by
  obtain ⟨-, h, -⟩ := h
  have hlt : s.sel a F.INIT_SEL.ENDPOINT < 1024 := State.get_lt s F.INIT_SEL.ENDPOINT _
  rw [instOf_init s a hsel, selIndex_init, hn] at h
  split_ifs at h
  · cases h
  · have hi : s.sel a F.INIT_SEL.ENDPOINT * 1 + 0 = i := Option.some.inj h
    omega
  · cases h

/-- An accessor's write of an initiator's register acts, its block's clock awake (R149, R415). -/
theorem ownedWrite_init {s : State} {a : Accessor} {r : RegRow} {i : Nat} (hsel : r.sel = .init) (hown : r.own = .hostOwned)
    (h : Writes s a 0 r 0 i) (act : Nat → State → State) :
    s.ownedWrite a 0 r 0 act = act i (s.ungate (r.off / 0x100000)) := by
  obtain ⟨hawake, hinst, hopen, -, -⟩ := h
  generalize hu : s.ungate (r.off / 0x100000) = u
  have hkeep : ∀ (f : Fd) j, f.reg.off ≠ R.CLK_GATE_WAKES.off → j < 2 ^ 32 → u.get f j = s.get f j := fun f j hf hj => by
    rw [← hu]; exact get_ungate s _ f j (regKey_ne_of_off hf hj (by decide))
  have hinst' : u.instOf a 0 r 0 = some i := by
    have hacc := accId_lt a
    rw [← hinst, instOf_init u a hsel, instOf_init s a hsel, selIndex_init, selIndex_init]
    unfold State.sel
    rw [hkeep F.INIT_SEL.ENDPOINT _ (by decide) (by omega)]
  have hopen' : u.dbgBlocked a r = false := by
    rw [← hopen]
    have hsec : u.sec = s.sec := by rw [← hu]; unfold State.ungate; split <;> rfl
    unfold State.dbgBlocked State.debugLevel
    rw [hkeep F.SEC_DBG_STATUS.LEVEL 0 (by decide) (by decide), hsec]
  have hmay : u.mayWrite a r i = true := by unfold State.mayWrite; rw [hsel, hown]; rfl
  have hnear : u.regAway r i = false := by unfold State.regAway regDomain; rw [hsel]
  unfold State.ownedWrite
  simp only [hawake, hu, hinst', hopen', hmay, hnear, Bool.false_eq_true, if_false, if_true]

theorem ungate_net (s : State) (blk : Nat) : (s.ungate blk).net = s.net := by
  unfold State.ungate; split <;> rfl

/-! ### A write of a rate regulator (R147) -/

theorem rateReg_row (vc : Nat) : (rateReg vc).sel = .init ∧ (rateReg vc).own = .hostOwned ∧ (rateReg vc).n = 1 ∧
    (rateReg vc).off ≠ R.CLK_GATE_WAKES.off := by
  unfold rateReg; split <;> decide

theorem rateReg_fields (vc : Nat) : (rateReg vc).fields = [⟨0, 10, .rw⟩, ⟨16, 12, .rw⟩, ⟨31, 1, .rw⟩] := by
  unfold rateReg; split <;> rfl

/-- A regulator after a write: RATE, BURST and EN replaced (R149). -/
def rateValue (old v : Nat) : Nat :=
  bitsSet (bitsSet (bitsSet old 0 10 (bitsOf v 0 10)) 16 12 (bitsOf v 16 12)) 31 1 (bitsOf v 31 1)

theorem rateValue_lt {old : Nat} (v : Nat) (h : old < 2 ^ 32) : rateValue old v < 2 ^ 32 :=
  bitsSet_lt _ _ _ _ (by decide) (bitsSet_lt _ _ _ _ (by decide) (bitsSet_lt _ _ _ _ (by decide) h))

theorem writeField_rw (old rst v acc lo w : Nat) :
    writeField old rst v acc ⟨lo, w, .rw⟩ = bitsSet acc lo w (bitsOf v lo w) := rfl

theorem writeFields_rate (vc old rst v : Nat) : writeFields (rateReg vc) old rst v = rateValue old v := by
  unfold writeFields rateValue
  rw [rateReg_fields, List.foldl_cons, List.foldl_cons, List.foldl_cons, List.foldl_nil, writeField_rw, writeField_rw,
    writeField_rw]

theorem reg_writePlain_rate (s : State) (vc i v : Nat) :
    (s.writePlain (rateReg vc) i v).reg (rateReg vc) i = rateValue (s.reg (rateReg vc) i) v := by
  unfold State.writePlain
  rw [State.reg_setReg_self, writeFields_rate, Nat.mod_eq_of_lt (rateValue_lt v (s.reg_lt _ _))]

theorem rateValue_fields (old v : Nat) : bitsOf (rateValue old v) 0 10 = bitsOf v 0 10 ∧
    bitsOf (rateValue old v) 16 12 = bitsOf v 16 12 ∧ bitsOf (rateValue old v) 31 1 = bitsOf v 31 1 := by
  unfold rateValue
  refine ⟨?_, ?_, ?_⟩
  · rw [bitsOf_bitsSet_disjoint _ _ _ _ _ _ (by decide), bitsOf_bitsSet_disjoint _ _ _ _ _ _ (by decide), bitsOf_bitsSet,
      Nat.mod_eq_of_lt (bitsOf_lt _ _ _)]
  · rw [bitsOf_bitsSet_disjoint _ _ _ _ _ _ (by decide), bitsOf_bitsSet, Nat.mod_eq_of_lt (bitsOf_lt _ _ _)]
  · rw [bitsOf_bitsSet, Nat.mod_eq_of_lt (bitsOf_lt _ _ _)]

theorem rate_writePlain (s : State) (vc i v : Nat) :
    (s.writePlain (rateReg vc) i v).rateRate i vc = v % 1024 ∧
    (s.writePlain (rateReg vc) i v).rateBurst i vc = max 17 (v / 2 ^ 16 % 2 ^ 12) ∧
    (s.writePlain (rateReg vc) i v).rateOn i vc = bitAt v 31 := by
  obtain ⟨hrate, hburst, hon⟩ := rateValue_fields (s.reg (rateReg vc) i) v
  unfold State.rateRate State.rateBurst State.rateOn
  rw [reg_writePlain_rate]
  refine ⟨?_, congrArg (max 17) hburst, congrArg (· == 1) hon⟩
  simpa [bitsOf] using hrate

/-- The tokens a regulator that goes on has given after a write, and those of one that starts or stops (R147). -/
def spentAfter (s : State) (i vc burst : Nat) (on : Bool) : Nat :=
  if s.rateOn i vc && on then burst - min (s.tokens i vc) burst + s.tokenDebt i vc else 0

theorem rateWrite_eq {s : State} {i : Nat} (vc : Nat) (v : Word) (hwait : s.net.wait.get [] i = []) :
    s.rateWrite i vc v = setWait ((s.writePlain (rateReg vc) i v.toNat).setSpent i vc
      (spentAfter s i vc (max 17 (v.toNat / 2 ^ 16 % 2 ^ 12)) (bitAt v.toNat 31))) i [] := by
  obtain ⟨-, hburst, hon⟩ := rate_writePlain s vc i v.toNat
  have hidle : ∀ n, ((s.writePlain (rateReg vc) i v.toNat).setSpent i vc n).net.wait.get [] i = [] := fun n => hwait
  unfold State.rateWrite spentAfter
  dsimp only
  rw [hon, hburst]
  split
  · exact pump_idle (hidle _)
  · exact pump_idle (hidle _)

/-- A bucket that goes on holds what it held, up to the new BURST; one that starts or stops is full (R147). -/
theorem burst_sub_spentAfter (s : State) (i vc burst : Nat) (on : Bool) : burst - spentAfter s i vc burst on =
    if s.rateOn i vc = true ∧ on = true then min (s.tokens i vc) burst else burst := by
  unfold spentAfter State.tokens State.tokenDebt
  simp only [Bool.and_eq_true]
  split <;> omega

theorem rateWrite_bucket {s : State} {i : Nat} (vc : Nat) (v : Word) (hwait : s.net.wait.get [] i = []) :
    (s.rateWrite i vc v).rateRate i vc = v.toNat % 1024 ∧
    (s.rateWrite i vc v).rateBurst i vc = max 17 (v.toNat / 2 ^ 16 % 2 ^ 12) ∧
    (s.rateWrite i vc v).rateOn i vc = bitAt v.toNat 31 ∧
    (s.rateWrite i vc v).tokens i vc = (if s.rateOn i vc = true ∧ bitAt v.toNat 31 = true
      then min (s.tokens i vc) (max 17 (v.toNat / 2 ^ 16 % 2 ^ 12)) else max 17 (v.toNat / 2 ^ 16 % 2 ^ 12)) ∧
    RegsKeep s (s.rateWrite i vc v) [regKey (rateReg vc) i] := by
  obtain ⟨hrate, hburst, hon⟩ := rate_writePlain s vc i v.toNat
  rw [rateWrite_eq vc v hwait]
  refine ⟨hrate, hburst, hon, ?_, ?_⟩
  · rw [tokens_setWait, tokens_setSpent, hburst, burst_sub_spentAfter]
  · have hwrite : RegsKeep s (s.writePlain (rateReg vc) i v.toNat) [regKey (rateReg vc) i] :=
      (RegsKeep.refl s _).setReg _ (by simp)
    exact hwrite.of_regs rfl

theorem nocRateWrite_leads {acc : Accessor} {vc1 : Bool} {s : State} {i : Nat} (v : Word)
    (h : Writes s acc 0 (rateReg (bit vc1)) 0 i) (hwait : s.net.wait.get [] i = []) :
    Leads (.nocRateWrite acc vc1 v) s (fun t =>
      t.rateRate i (bit vc1) = v.toNat % 1024 ∧ t.rateBurst i (bit vc1) = max 17 (v.toNat / 2 ^ 16 % 2 ^ 12) ∧
      t.rateOn i (bit vc1) = bitAt v.toNat 31 ∧
      t.tokens i (bit vc1) = (if s.rateOn i (bit vc1) = true ∧ bitAt v.toNat 31 = true
        then min (s.tokens i (bit vc1)) (t.rateBurst i (bit vc1)) else t.rateBurst i (bit vc1)) ∧
      RegsKeep s t [regKey R.CLK_GATE_WAKES 0, regKey (rateReg (bit vc1)) i]) := by
  generalize hvc : bit vc1 = vc at *
  obtain ⟨hsel, hown, hn, hoff⟩ := rateReg_row vc
  have hi : i < 1024 := writes_init_lt hsel hn h
  have hexec : exec (.nocRateWrite acc vc1 v) s = .next ((s.ungate ((rateReg vc).off / 0x100000)).rateWrite i vc v) := by
    rw [← ownedWrite_init hsel hown h (fun i t => t.rateWrite i vc v), ← hvc]; rfl
  obtain ⟨hkeep, -⟩ := ungate_hubKeep s ((rateReg vc).off / 0x100000)
  have hnet := ungate_net s ((rateReg vc).off / 0x100000)
  generalize s.ungate ((rateReg vc).off / 0x100000) = u at *
  have hreg : u.reg (rateReg vc) i = s.reg (rateReg vc) i :=
    hkeep _ _ (by simpa using regKey_ne_of_off hoff (by omega : i < 2 ^ 32) (by decide : 0 < 2 ^ 32))
  have hon' : u.rateOn i vc = s.rateOn i vc := by unfold State.rateOn; rw [hreg]
  have htokens' : u.tokens i vc = s.tokens i vc := by rw [tokens_eq, tokens_eq, hnet]; unfold State.rateBurst; rw [hreg]
  obtain ⟨hrate, hburst, hon, htokens, hrest⟩ := rateWrite_bucket (s := u) vc v (by rw [hnet]; exact hwait)
  refine ⟨_, hexec, hrate, hburst, hon, ?_, (hkeep.mono (by simp)).trans (hrest.mono (by simp))⟩
  rw [hburst, htokens, hon', htokens']

/-! ### Clearing an initiator's counters (R149) -/

/-- Counters of one register each, with the halves of the 48-bit ones. -/
def clearedRows : List RegRow := [R.NOC_STAT_RD_LO, R.NOC_STAT_RD_HI, R.NOC_STAT_WR_LO, R.NOC_STAT_WR_HI, R.NOC_STAT_REQ_LO,
  R.NOC_STAT_REQ_HI, R.NOC_STAT_LAT_SUM_LO, R.NOC_STAT_LAT_SUM_HI, R.NOC_STAT_LAT_MAX]

/-- `s` with these registers at 0. -/
def zeroed (l : List (RegRow × Nat)) (s : State) : State := l.foldl (fun t e => t.setReg e.1 e.2 0) s

theorem zeroed_net (l : List (RegRow × Nat)) (s : State) : (zeroed l s).net = s.net := by
  induction l generalizing s with
  | nil => rfl
  | cons e l ih => exact ih (s.setReg e.1 e.2 0)

/-- A register among them, whose key is no other row's, reads 0. -/
theorem reg_zeroed {l : List (RegRow × Nat)} {r : RegRow} {i : Nat}
    (hkey : ∀ e ∈ l, regKey e.1 e.2 = regKey r i → e = (r, i)) {s : State} (h : (r, i) ∈ l ∨ s.reg r i = 0) :
    (zeroed l s).reg r i = 0 := by
  induction l generalizing s with
  | nil => exact h.resolve_left (by simp)
  | cons e l ih =>
    refine ih (fun x hx => hkey x (by simp [hx])) (s := s.setReg e.1 e.2 0) ?_
    by_cases he : regKey e.1 e.2 = regKey r i
    · obtain rfl := hkey e (by simp) he
      exact .inr (State.reg_setReg_self _ _ _ _)
    · rw [State.reg_setReg_ne _ _ _ _ _ _ (Ne.symm he)]
      rcases h with h | h
      · rcases List.mem_cons.mp h with rfl | h
        · exact absurd rfl he
        · exact .inl h
      · exact .inr h

theorem nocClear_eq (s : State) (i : Nat) : s.nocClear i =
    zeroed ((List.range 8).map (fun b => (R.NOC_STAT_HIST, i * 8 + b))) (zeroed (clearedRows.map (fun r => (r, i))) s) := by
  unfold zeroed State.nocClear
  rw [List.foldl_map, List.foldl_map]
  rfl

theorem reg_nocClear_counter (s : State) {r : RegRow} {i : Nat} (hr : r ∈ clearedRows) (hi : i < 1024) :
    (s.nocClear i).reg r i = 0 := by
  have hoff : ∀ r ∈ clearedRows, r.off ≠ R.NOC_STAT_HIST.off := by decide
  have hinj : ∀ r ∈ clearedRows, ∀ q ∈ clearedRows, q.off = r.off → q = r := by decide
  rw [nocClear_eq]
  refine reg_zeroed ?_ (.inr (reg_zeroed ?_ (.inl (List.mem_map_of_mem hr))))
  · intro e he hkey
    obtain ⟨b, hb, rfl⟩ := List.mem_map.mp he
    have hb8 := List.mem_range.mp hb
    exact absurd hkey (regKey_ne_of_off (hoff r hr).symm (by omega) (by omega))
  · intro e he hkey
    obtain ⟨q, hq, rfl⟩ := List.mem_map.mp he
    have hqr : ¬ q.off ≠ r.off := fun hne => regKey_ne_same i hne hkey
    rw [hinj r hr q hq (not_not.mp hqr)]

theorem reg_nocClear_hist (s : State) (i : Nat) {b : Nat} (hb : b < 8) :
    (s.nocClear i).reg R.NOC_STAT_HIST (i * 8 + b) = 0 := by
  rw [nocClear_eq]
  refine reg_zeroed ?_ (.inl (List.mem_map.mpr ⟨b, List.mem_range.mpr hb, rfl⟩))
  intro e he hkey
  obtain ⟨c, -, rfl⟩ := List.mem_map.mp he
  have hcb : i * 8 + c = i * 8 + b := Nat.add_left_cancel hkey
  rw [hcb]

theorem pair_eq_zero {s : State} {lo hi : RegRow} {i : Nat} (hlo : s.reg lo i = 0) (hhi : s.reg hi i = 0) :
    s.pair lo hi i = 0 := by unfold State.pair; omega

theorem nocStatClr_leads {acc : Accessor} {s : State} {i : Nat} (h : Writes s acc 0 R.NOC_STAT_CLR 0 i) :
    Leads (.nocStatClr acc) s (fun t =>
      t.pair R.NOC_STAT_RD_LO R.NOC_STAT_RD_HI i = 0 ∧ t.pair R.NOC_STAT_WR_LO R.NOC_STAT_WR_HI i = 0 ∧
      t.pair R.NOC_STAT_REQ_LO R.NOC_STAT_REQ_HI i = 0 ∧ t.pair R.NOC_STAT_LAT_SUM_LO R.NOC_STAT_LAT_SUM_HI i = 0 ∧
      t.reg R.NOC_STAT_LAT_MAX i = 0 ∧ (∀ b : Fin 8, t.reg R.NOC_STAT_HIST (i * 8 + b.val) = 0) ∧ t.net = s.net) := by
  have hexec : exec (.nocStatClr acc) s = .next ((s.ungate 6).nocClear i) :=
    congrArg Host.Outcome.next (ownedWrite_init rfl rfl h _)
  have hi := writes_init_lt rfl rfl h
  have hzero : ∀ r ∈ clearedRows, ((s.ungate 6).nocClear i).reg r i = 0 := fun r hr => reg_nocClear_counter _ hr hi
  refine ⟨_, hexec, pair_eq_zero (hzero _ ?_) (hzero _ ?_), pair_eq_zero (hzero _ ?_) (hzero _ ?_),
    pair_eq_zero (hzero _ ?_) (hzero _ ?_), pair_eq_zero (hzero _ ?_) (hzero _ ?_), hzero _ ?_,
    fun b => reg_nocClear_hist _ i b.isLt, ?_⟩
  case refine_10 => rw [nocClear_eq, zeroed_net, zeroed_net, ungate_net]
  all_goals decide

/-! ### A bridge fault (R149, R449) -/

/-- The device log and an FE event write ERR_STATUS and ERR_LOST, and no other register (R449, R453). -/
abbrev LogKeeps (s t : State) : Prop := KeepsRegs (· ∉ [R.ERR_STATUS.off, R.ERR_LOST.off]) s t

theorem logEntry_keeps (s : State) (e : Entry) : LogKeeps s (s.logEntry e) := by
  unfold State.logEntry
  split
  · exact (KeepsRegs.refl s).of_regs rfl
  · split
    · dsimp only
      generalize hu : ({ s with err := _ } : State) = u
      have hsame : LogKeeps s u := by subst hu; exact (KeepsRegs.refl s).of_regs rfl
      have hput : ∀ v, LogKeeps s (u.put F.ERR_STATUS.PENDING 0 v) := fun v => hsame.put v (by decide) (by decide)
      split
      · split
        · exact hput _
        · exact (hput _).of_regs rfl
      · exact hsame
    · exact (KeepsRegs.refl s).setReg _ (by decide) (by decide)

theorem raiseAt_log_keeps (s : State) (e : Ev) : LogKeeps s (s.raiseAt .log e) := by
  have henter : LogKeeps s (s.enter .log (e.entry s.now)) := logEntry_keeps s _
  unfold State.raiseAt
  dsimp only
  split
  · exact (henter.put (f := F.ERR_STATUS.FE) 1 (by decide) (by decide)).of_regs rfl
  · exact henter

theorem nocBridgeFault_leads (s : State) : Leads .nocBridgeFault s (fun t =>
    t.isSet F.NOC_BRIDGE_STATUS.FAULT 0 = true ∧
    t = (s.put F.NOC_BRIDGE_STATUS.FAULT 0 1).raise { code := 0x0351, sev := 3, source := srcBridge }) := by
  refine ⟨_, rfl, ?_, rfl⟩
  have hset := State.isSet_put_one s F.NOC_BRIDGE_STATUS.FAULT 0 (by decide) rfl
  have hkeep := (raiseAt_log_keeps (s.put F.NOC_BRIDGE_STATUS.FAULT 0 1) { code := 0x0351, sev := 3, source := srcBridge }).get
    F.NOC_BRIDGE_STATUS.FAULT (i := 0) (by decide) (by decide)
  unfold State.isSet at *
  exact (congrArg (· == 1) hkeep).trans hset

theorem eq_ok_of_toOption {x : Except Nat Nat} {d : Nat} (h : x.toOption = some d) : x = .ok d := by
  cases x with
  | error c => cases h
  | ok v => exact congrArg Except.ok (Option.some.inj h)

theorem eq_error_of_refusedWith {x : Except Nat Nat} {c : Nat} (h : refusedWith x = some c) : x = .error c := by
  cases x with
  | error v => exact congrArg Except.error (Option.some.inj h)
  | ok d => cases h

/-- Settles O21: each clause is the one branch of the injection, refill or write its hypotheses leave. -/
theorem injectionAndRegulators : Obligations.InjectionAndRegulators := by
  unfold Obligations.InjectionAndRegulators
  refine ⟨fun p s h => congrArg Host.Outcome.next (inject_dark h), fun p s hdev hbad hrsp => ?_,
    fun p s c hdev hok htag hrsp hdec => ?_, fun p q s d hdev hok htag hdec hwait hlimit hq => ⟨fun htok => ?_, fun htok => ?_⟩,
    fun s => tokenRefill_of_early, fun s i vc x => tokenRefill_leads, fun acc vc1 v s i => nocRateWrite_leads v,
    fun acc s i => nocStatClr_leads, nocBridgeFault_leads⟩
  · exact ⟨_, congrArg Host.Outcome.next (inject_malformed hdev hbad), refuseInjection_answers s 3 hrsp⟩
  · obtain ⟨hdrop, hpackets, houtst, -, -⟩ := refuseInjection_answers s c hrsp
    exact ⟨_, congrArg Host.Outcome.next (inject_undecoded hdev hok htag (eq_error_of_refusedWith hdec)), hdrop, hpackets, houtst⟩
  · obtain ⟨hsent, hempty⟩ := inject_launches hdev hok htag (eq_ok_of_toOption hdec) hwait hlimit hq htok
    obtain ⟨hpackets, hawaited, hpaid, hrequests, hwritten, hrest⟩ := hsent
    refine ⟨_, rfl, hpackets, hempty, ?_⟩
    subst hq
    exact ⟨hawaited, hpaid, hrequests, hwritten, hrest⟩
  · refine ⟨_, congrArg Host.Outcome.next (inject_waits hdev hok htag (eq_ok_of_toOption hdec) hwait hlimit hq htok), rfl, ?_, rfl⟩
    exact setWait_wait _ _ _

end Sys2Proof.Network


namespace Sys2Proof.Network

open Sys2Proof.Machine Sys2Proof.Safety

/-! ### Routes (R141, R142) -/

/-- The odd-even turn model leaves a direction at every router: an even column that is not the source's allows no turn off
the row, but two columns side by side are not both even (R141). -/
theorem routeDirs_ne_nil (cx cy sx dx dy : Nat) : routeDirs cx cy sx dx dy ≠ [] := by
  unfold routeDirs
  split_ifs <;> simp <;> omega

/-- A direction takes a packet nearer to its destination, or hands it over there. -/
def Nearer (cx cy dx dy : Nat) : Dir → Prop
  | .localPort => cx = dx ∧ cy = dy
  | .east => cx < dx
  | .west => dx < cx
  | .south => cy < dy
  | .north => dy < cy

/-- Each direction the turn model allows is minimal (R141). -/
theorem routeDirs_nearer (cx cy sx dx dy : Nat) : ∀ d ∈ routeDirs cx cy sx dx dy, Nearer cx cy dx dy d := by
  unfold routeDirs
  split_ifs <;> simp [Nearer] <;> omega

/-- A nearer direction is the local port at the destination and nowhere else. -/
theorem Nearer.directions {cx cy dx dy : Nat} {d : Dir} (h : Nearer cx cy dx dy d) :
    (d = .localPort ↔ cx = dx ∧ cy = dy) ∧ (d = .east → cx < dx) ∧ (d = .west → dx < cx) ∧ (d = .south → cy < dy) ∧
    (d = .north → dy < cy) := by
  cases d <;> simp [Nearer] at * <;> omega

/-- The XY route ends at the destination, and leaves a row only in the destination's column (R142). -/
theorem routeXy_order (cx cy dx dy : Nat) : (routeXy cx cy dx dy = .localPort ↔ cx = dx ∧ cy = dy) ∧
    ((routeXy cx cy dx dy = .south ∨ routeXy cx cy dx dy = .north) → cx = dx) := by
  unfold routeXy
  split_ifs <;> simp <;> omega

/-! ### Units (R133) -/

/-- A field above the seam of two joined words lies in the upper one. -/
theorem bitsOf_append_high {n m : Nat} (x : BitVec n) (y : BitVec m) {lo w : Nat} (h : m ≤ lo) :
    bitsOf (x ++ y).toNat lo w = bitsOf x.toNat (lo - m) w := by
  unfold bitsOf
  refine Nat.eq_of_testBit_eq fun k => ?_
  simp only [Nat.testBit_mod_two_pow, Nat.testBit_div_two_pow, BitVec.testBit_toNat, BitVec.getLsbD_append]
  rw [if_neg (by omega), show k + lo - m = k + (lo - m) by omega]

/-- A field below the seam lies in the lower one. -/
theorem bitsOf_append_low {n m : Nat} (x : BitVec n) (y : BitVec m) {lo w : Nat} (h : lo + w ≤ m) :
    bitsOf (x ++ y).toNat lo w = bitsOf y.toNat lo w := by
  unfold bitsOf
  refine Nat.eq_of_testBit_eq fun k => ?_
  simp only [Nat.testBit_mod_two_pow, Nat.testBit_div_two_pow, BitVec.testBit_toNat, BitVec.getLsbD_append]
  by_cases hk : k < w
  · rw [if_pos (by omega)]
  · simp [hk]

/-- A whole word is a field of itself. -/
theorem bitsOf_toNat {w : Nat} (x : BitVec w) : bitsOf x.toNat 0 w = x.toNat := by
  unfold bitsOf
  rw [Nat.pow_zero, Nat.div_one, Nat.mod_eq_of_lt x.isLt]

theorem toNat_ofBool_eq_bit (b : Bool) : (BitVec.ofBool b).toNat = bit b := by cases b <;> rfl

theorem headerField_layout (p : Packet) : headerField p 118 10 = p.dest.toNat ∧ headerField p 108 10 = p.src.toNat ∧
    headerField p 104 4 = p.cmd.toNat ∧ headerField p 102 2 = p.vc.toNat ∧ headerField p 92 10 = p.tag.toNat ∧
    headerField p 88 4 = p.len.toNat ∧ headerField p 80 8 = p.key.toNat ∧ headerField p 79 1 = bit p.secure ∧
    headerField p 78 1 = bit p.debug ∧ headerField p 77 1 = bit p.poison ∧ headerField p 76 1 = bit p.ordered ∧
    headerField p 64 12 = p.rsv.toNat ∧ headerField p 48 16 = p.be.toNat ∧ headerField p 0 48 = p.addr.toNat := by
  unfold headerField headerUnit
  simp (disch := decide) only [bitsOf_append_high, bitsOf_append_low]
  simp only [Nat.reduceSub, bitsOf_toNat, ← toNat_ofBool_eq_bit, and_self]

theorem packetUnits_length (p : Packet) : (packetUnits p).length = p.data.length + 1 := by
  unfold packetUnits
  rw [List.length_mapIdx, List.length_cons]

/-- A packet's last unit, and no other, carries LAST (R133). -/
theorem packetUnits_last {p : Packet} {k : Nat} {u : LinkUnit} (h : (packetUnits p)[k]? = some u) :
    u.last = decide (k = p.data.length) := by
  unfold packetUnits at h
  rw [List.getElem?_mapIdx] at h
  obtain ⟨v, -, rfl⟩ := Option.map_eq_some_iff.mp h
  rfl

/-! ### A round of the network (R140) -/

theorem Worm.moved_pkt (w : Worm) (m : Move) (now : Nat) : (w.moved m now).pkt = w.pkt := by
  obtain ⟨i, from?, to?, key, inp, header⟩ := m
  cases from? <;> cases to? <;> cases header <;> rfl

/-- An output port that serves a unit moves it within its packet: the packets stay. -/
theorem portMove_packets (n : Net) (up : Bool) (key : Nat) : (n.portMove up key).packets = n.packets := by
  unfold Net.portMove
  dsimp only
  split
  · rfl
  · split
    · rfl
    · refine List.ext_getElem? fun i => ?_
      simp only [Net.packets, List.getElem?_map, List.getElem?_mapIdx, Option.map_map]
      congr 1
      funext w
      simp only [Function.comp_apply]
      split
      · exact Worm.moved_pkt _ _ _
      · rfl

theorem round_packets (n : Net) (up : Bool) : (n.round up).packets = n.packets := by
  unfold Net.round
  generalize ((n.allMoves up).map (·.key)).eraseDups = keys
  induction keys generalizing n with
  | nil => rfl
  | cons key keys ih => exact (ih (n.portMove up key)).trans (portMove_packets n up key)

end Sys2Proof.Network

namespace Sys2Proof.Network

open Sys2Proof.Machine Sys2Proof.Safety Sys2Proof.Mailboxes

/-! ### Latency (R148) -/

theorem nocAdd_keeps (s : State) (lo hi : RegRow) {i : Nat} (k : Nat) (hi' : i < 2 ^ 32) :
    KeepsRegs (· ∉ [lo.off, hi.off]) s (s.nocAdd lo hi i k) :=
  ((KeepsRegs.refl s).setReg _ (by simp) hi').setReg _ (by simp) hi'

/-- The histogram bin of a latency: the last one takes the rest. -/
def latencyBin (s : State) (x : Nat) : Nat := min (x / max 1 (s.get F.NOC_HIST_CFG.STEP_NS 0)) 7

/-- What a response's latency `x` leaves of its initiator's counters. -/
structure Timed (s t : State) (i x : Nat) : Prop where
  sum : t.pair R.NOC_STAT_LAT_SUM_LO R.NOC_STAT_LAT_SUM_HI i =
    (s.pair R.NOC_STAT_LAT_SUM_LO R.NOC_STAT_LAT_SUM_HI i + x) % 2 ^ 48
  largest : t.reg R.NOC_STAT_LAT_MAX i = max (s.reg R.NOC_STAT_LAT_MAX i) (min x (2 ^ 32 - 1))
  bin : t.reg R.NOC_STAT_HIST (i * 8 + latencyBin s x) =
    min (s.reg R.NOC_STAT_HIST (i * 8 + latencyBin s x) + 1) (2 ^ 32 - 1)

/-- The maximum after one more latency. -/
def maxCounted (s : State) (i x : Nat) : State :=
  s.setReg R.NOC_STAT_LAT_MAX i (max (s.reg R.NOC_STAT_LAT_MAX i) (min x (2 ^ 32 - 1)))

theorem maxCounted_keeps (s : State) {i : Nat} (x : Nat) (hi : i < 2 ^ 32) :
    KeepsRegs (· ≠ R.NOC_STAT_LAT_MAX.off) s (maxCounted s i x) := (KeepsRegs.refl s).setReg _ (by simp) hi

theorem reg_maxCounted (s : State) (i x : Nat) :
    (maxCounted s i x).reg R.NOC_STAT_LAT_MAX i = max (s.reg R.NOC_STAT_LAT_MAX i) (min x (2 ^ 32 - 1)) := by
  have hlt := s.reg_lt R.NOC_STAT_LAT_MAX i
  unfold maxCounted
  rw [State.reg_setReg_self]
  omega

theorem nocLatency_eq (s : State) (i ns : Nat) : s.nocLatency i ns =
    (maxCounted (s.nocAdd R.NOC_STAT_LAT_SUM_LO R.NOC_STAT_LAT_SUM_HI i (ns / 2 * 2)) i (ns / 2 * 2)).countReg R.NOC_STAT_HIST
      (i * 8 + latencyBin s (ns / 2 * 2)) 1 := rfl

theorem latencyBin_lt (s : State) (x : Nat) : latencyBin s x < 8 := by unfold latencyBin; omega

theorem nocLatency_timed (s : State) {i ns x : Nat} (hi : i < 1024) (hx : x = ns / 2 * 2) :
    Timed s (s.nocLatency i ns) i x := by
  have hbin := latencyBin_lt s x
  rw [nocLatency_eq, ← hx]
  have hsum := nocAdd_keeps s R.NOC_STAT_LAT_SUM_LO R.NOC_STAT_LAT_SUM_HI x (i := i) (by omega)
  have hpair := pair_nocAdd s R.NOC_STAT_LAT_SUM_LO R.NOC_STAT_LAT_SUM_HI i x (by decide)
  generalize s.nocAdd R.NOC_STAT_LAT_SUM_LO R.NOC_STAT_LAT_SUM_HI i x = u at *
  have hmax := maxCounted_keeps u x (i := i) (by omega)
  have hlargest := reg_maxCounted u i x
  generalize maxCounted u i x = v at *
  have hone := reg_countReg_one v R.NOC_STAT_HIST (i * 8 + latencyBin s x)
  have hhist : KeepsRegs (· ≠ R.NOC_STAT_HIST.off) v (v.countReg R.NOC_STAT_HIST (i * 8 + latencyBin s x) 1) :=
    (KeepsRegs.refl v).setReg _ (by simp) (by omega)
  exact {
    sum := by rw [hhist.pair (by decide) (by decide) (by omega), hmax.pair (by decide) (by decide) (by omega), hpair]
    largest := by rw [hhist _ _ (by decide) (by omega), hlargest, hsum _ _ (by decide) (by omega)]
    bin := by rw [hone, hmax _ _ (by decide) (by omega), hsum _ _ (by decide) (by omega)] }

/-- A latency counts in its own registers alone. -/
theorem nocLatency_keeps (s : State) {i : Nat} (ns : Nat) (hi : i < 1024) : KeepsRegs (· ∉ [R.NOC_STAT_LAT_SUM_LO.off,
    R.NOC_STAT_LAT_SUM_HI.off, R.NOC_STAT_LAT_MAX.off, R.NOC_STAT_HIST.off]) s (s.nocLatency i ns) := by
  have hbin := latencyBin_lt s (ns / 2 * 2)
  rw [nocLatency_eq]
  have hsum := nocAdd_keeps s R.NOC_STAT_LAT_SUM_LO R.NOC_STAT_LAT_SUM_HI (ns / 2 * 2) (i := i) (by omega)
  have hmax := maxCounted_keeps (s.nocAdd R.NOC_STAT_LAT_SUM_LO R.NOC_STAT_LAT_SUM_HI i (ns / 2 * 2)) (ns / 2 * 2) (i := i) (by omega)
  refine ((hsum.mono ?_).trans (hmax.mono ?_)).setReg _ (by decide) (by omega) <;> simp +contextual

theorem nocLatency_net (s : State) (i ns : Nat) : (s.nocLatency i ns).net = s.net := by
  rw [nocLatency_eq]
  unfold State.countReg maxCounted
  rw [State.setReg_net, State.setReg_net, nocAdd_net]

/-! ### Responses (R145, R146, R148) -/

/-- `s` with request `o` of initiator `i` no longer awaited. -/
def freed (s : State) (i : Nat) (o : Outst) : State :=
  { s with net := { s.net with outst := s.net.outst.set [] i ((s.outstanding i).erase o) } }

/-- `s` with the data of response `p` counted as read, where it carries any. -/
def readCounted (s : State) (p : Packet) : State :=
  if p.cmd.toNat = cmdReadRsp then s.nocAdd R.NOC_STAT_RD_LO R.NOC_STAT_RD_HI p.dest.toNat (16 * p.data.length) else s

theorem readCounted_net (s : State) (p : Packet) : (readCounted s p).net = s.net := by
  unfold readCounted
  split
  · exact nocAdd_net _ _ _ _ _
  · rfl

theorem readCounted_now (s : State) (p : Packet) : (readCounted s p).now = s.now := by
  unfold readCounted State.nocAdd State.now
  split
  · rw [State.setPair_time]
  · rfl

theorem readCounted_keeps (s : State) (p : Packet) :
    KeepsRegs (· ∉ [R.NOC_STAT_RD_LO.off, R.NOC_STAT_RD_HI.off]) s (readCounted s p) := by
  have hi := p.dest.isLt
  unfold readCounted
  split
  · exact nocAdd_keeps _ _ _ _ (by omega)
  · exact KeepsRegs.refl _

theorem pair_readCounted (s : State) (p : Packet) :
    (readCounted s p).pair R.NOC_STAT_RD_LO R.NOC_STAT_RD_HI p.dest.toNat = if p.cmd.toNat = cmdReadRsp then
      (s.pair R.NOC_STAT_RD_LO R.NOC_STAT_RD_HI p.dest.toNat + 16 * p.data.length) % 2 ^ 48
      else s.pair R.NOC_STAT_RD_LO R.NOC_STAT_RD_HI p.dest.toNat := by
  unfold readCounted
  split
  · exact pair_nocAdd _ _ _ _ _ (by decide)
  · rfl

/-- A response that is awaited frees its request and is counted; what waits at its initiator is tried again (R146, R148). -/
theorem consumeResponse_awaited {s : State} {p : Packet} {o : Outst}
    (hawait : (s.outstanding p.dest.toNat).find? (fun o => o.tag == p.tag) = some o) : s.consumeResponse p =
    ((readCounted (freed s p.dest.toNat o) p).nocLatency p.dest.toNat
      ((readCounted (freed s p.dest.toNat o) p).now - o.at64)).pump p.dest.toNat := by
  unfold State.consumeResponse readCounted freed
  dsimp only
  rw [hawait]

/-- What an awaited response leaves at its initiator `i`: `x` is its latency. -/
structure Consumed (s t : State) (i : Nat) (p : Packet) (o : Outst) (x : Nat) : Prop where
  freed : t.outstanding i = (s.outstanding i).erase o
  read : t.pair R.NOC_STAT_RD_LO R.NOC_STAT_RD_HI i = if p.cmd.toNat = cmdReadRsp then
    (s.pair R.NOC_STAT_RD_LO R.NOC_STAT_RD_HI i + 16 * p.data.length) % 2 ^ 48
    else s.pair R.NOC_STAT_RD_LO R.NOC_STAT_RD_HI i
  latency : t.pair R.NOC_STAT_LAT_SUM_LO R.NOC_STAT_LAT_SUM_HI i =
    (s.pair R.NOC_STAT_LAT_SUM_LO R.NOC_STAT_LAT_SUM_HI i + x) % 2 ^ 48
  largest : t.reg R.NOC_STAT_LAT_MAX i = max (s.reg R.NOC_STAT_LAT_MAX i) (min x (2 ^ 32 - 1))
  bin : t.reg R.NOC_STAT_HIST (i * 8 + latencyBin s x) =
    min (s.reg R.NOC_STAT_HIST (i * 8 + latencyBin s x) + 1) (2 ^ 32 - 1)

/-- It speaks of the registers and the outstanding requests alone. -/
theorem Consumed.of_same {s s' t t' : State} {i x : Nat} {p : Packet} {o : Outst} (h : Consumed s t i p o x)
    (hs : s'.regs = s.regs) (ho : s'.outstanding i = s.outstanding i) (ht : t'.regs = t.regs)
    (ho' : t'.outstanding i = t.outstanding i) : Consumed s' t' i p o x := by
  obtain ⟨hfreed, hread, hlatency, hlargest, hbin⟩ := h
  have hbins : latencyBin s' x = latencyBin s x := by unfold latencyBin; rw [State.get_congr hs]
  exact {
    freed := by rw [ho, ho', hfreed]
    read := by rw [State.pair_congr ht, State.pair_congr hs, hread]
    latency := by rw [State.pair_congr ht, State.pair_congr hs, hlatency]
    largest := by rw [State.reg_congr ht, State.reg_congr hs, hlargest]
    bin := by rw [hbins, State.reg_congr ht, State.reg_congr hs, hbin] }

section
variable {s : State} {p : Packet} {o : Outst} (hawait : (s.outstanding p.dest.toNat).find? (fun o => o.tag == p.tag) = some o)
  (hwait : s.net.wait.get [] p.dest.toNat = [])
include hawait hwait

/-- Where nothing waits at its initiator, a response does no more than free and count. -/
theorem consumeResponse_idle : s.consumeResponse p = setWait ((readCounted (freed s p.dest.toNat o) p).nocLatency p.dest.toNat
    (s.now - o.at64)) p.dest.toNat [] := by
  rw [consumeResponse_awaited hawait, readCounted_now, show (freed s p.dest.toNat o).now = s.now from rfl]
  refine pump_idle ?_
  rw [nocLatency_net, readCounted_net]
  exact hwait

theorem consumeResponse_net : (s.consumeResponse p).net.flight = s.net.flight ∧
    (s.consumeResponse p).net.arrived = s.net.arrived := by
  rw [consumeResponse_idle hawait hwait, setWait_flight, setWait_arrived, nocLatency_net, readCounted_net]
  exact ⟨rfl, rfl⟩

theorem consumeResponse_consumed {x : Nat} (hx : x = (s.now - o.at64) / 2 * 2) :
    Consumed s (s.consumeResponse p) p.dest.toNat p o x := by
  have hi : p.dest.toNat < 1024 := p.dest.isLt
  have hi32 : p.dest.toNat < 2 ^ 32 := by omega
  have hindex : p.dest.toNat * 8 + latencyBin s x < 2 ^ 32 := by
    have hbin8 := latencyBin_lt s x
    omega
  have hfreed : (freed s p.dest.toNat o).regs = s.regs := rfl
  have hkeep := readCounted_keeps (freed s p.dest.toNat o) p
  have hnet := readCounted_net (freed s p.dest.toNat o) p
  have hread := pair_readCounted (freed s p.dest.toNat o) p
  rw [consumeResponse_idle hawait hwait]
  generalize readCounted (freed s p.dest.toNat o) p = c at *
  have hcount : KeepsRegs (· ∉ [R.NOC_STAT_RD_LO.off, R.NOC_STAT_RD_HI.off]) s c := fun r j hr hj =>
    (hkeep r j hr hj).trans (State.reg_congr hfreed r j)
  have hbins : latencyBin c x = latencyBin s x := by
    unfold latencyBin; rw [hcount.get F.NOC_HIST_CFG.STEP_NS (by decide) (by decide)]
  obtain ⟨hsum, hlargest, hbin⟩ := nocLatency_timed c hi hx
  rw [hbins] at hbin
  have hlatency := nocLatency_keeps c (s.now - o.at64) hi
  have hawaited : (c.nocLatency p.dest.toNat (s.now - o.at64)).outstanding p.dest.toNat =
      (s.outstanding p.dest.toNat).erase o := by
    unfold State.outstanding
    rw [nocLatency_net, hnet]
    exact SMap.get_set_self _ _ _ _
  exact {
    freed := by rw [setWait_outstanding, hawaited]
    read := by rw [pair_setWait, hlatency.pair (by decide) (by decide) hi32, hread, State.pair_congr hfreed]
    latency := by rw [pair_setWait, hsum, hcount.pair (by decide) (by decide) hi32]
    largest := by rw [reg_setWait, hlargest, hcount _ _ (by decide) hi32]
    bin := by rw [reg_setWait, hbin, hcount _ _ (by decide) hindex] }

end

/-! ### A response at Chamois -/

/-- No link engine's lane quad is Chamois's endpoint: their sub-ports are 2 and 3, or the router is none (R131). -/
theorem chlEp_ne_chamois (s : State) (f : Nat) : s.chlEp f ≠ epChamois := by
  unfold State.chlEp
  split
  · unfold epLaneQuad endpointId
    dsimp only
    split_ifs <;> simp only [show epChamois = 413 from rfl] <;> omega
  · decide

theorem chlOwner_chamois {p : Packet} (s : State) (h : p.dest.toNat = epChamois) : s.chlOwner p = none := by
  unfold State.chlOwner findBelow
  rw [List.find?_eq_none]
  intro f _
  rw [h]
  simp [chlEp_ne_chamois]

/-- Chamois's responses are recorded as arrived. -/
theorem handResponse_chamois {p : Packet} (s : State) (h : p.dest.toNat = epChamois) :
    s.handResponse p = some { s with net := { s.net with arrived := p :: s.net.arrived } } := by
  have hcore : coreOfEp epChamois = none := by decide
  have hdisp : quadOfDispatcher epChamois = none := by decide
  have hport : findBelow 128 (fun k => epPort k == epChamois) = none := by decide
  unfold State.handResponse
  dsimp only
  rw [h, chlOwner_chamois s h, hcore, hdisp, hport]
  rfl

/-- A response that arrives answers a request in the network, where no interface has made one itself (R138, R146). -/
theorem takeResponse_network {s : State} {p : Packet} (h : ∀ v ∈ s.net.flight, v.own = false) :
    s.takeResponse p = (s.takePacket p).consumeResponse p := by
  unfold State.takeResponse
  cases hf : s.net.flight.find? (fun w => w.pkt == p && w.whole) with
  | none => rfl
  | some w => simp [h w (List.mem_of_find?_eq_some hf)]

theorem arriveResponse_chamois {s : State} {p : Packet} {cmd : Nat} (hdest : p.dest.toNat = epChamois) (harr : s.arrives p = true)
    (hown : ∀ v ∈ s.net.flight, v.own = false) (hcmd : p.cmd.toNat = cmd) : s.arriveResponse p cmd =
    { (s.takePacket p).consumeResponse p with net := { ((s.takePacket p).consumeResponse p).net with
      arrived := p :: ((s.takePacket p).consumeResponse p).net.arrived } } := by
  unfold State.arriveResponse
  rw [if_neg (by simpa using hcmd), if_pos harr, takeResponse_network hown, handResponse_chamois _ hdest]

/-- A response that is not in the network and answers no forwarded request does nothing. -/
theorem arriveResponse_absent {s : State} {p : Packet} (harr : s.arrives p = false) (hfwd : s.chlAnswered p = none) (cmd : Nat) :
    s.arriveResponse p cmd = s := by
  unfold State.arriveResponse
  rw [harr, hfwd]
  split <;> rfl

/-- A response that arrives at Chamois leaves the network, frees its request, is counted, and is recorded. -/
theorem arriveResponse_received {s : State} {p : Packet} {o : Outst} {x cmd : Nat} (hdest : p.dest.toNat = epChamois)
    (harr : s.arrives p = true) (hown : ∀ v ∈ s.net.flight, v.own = false)
    (hawait : (s.outstanding epChamois).find? (fun o => o.tag == p.tag) = some o) (hwait : s.net.wait.get [] epChamois = [])
    (hx : x = (s.now - o.at64) / 2 * 2) (hcmd : p.cmd.toNat = cmd) :
    (s.arriveResponse p cmd).net.flight = (s.takePacket p).net.flight ∧
    (s.arriveResponse p cmd).net.arrived = p :: s.net.arrived ∧ Consumed s (s.arriveResponse p cmd) epChamois p o x := by
  rw [← hdest] at hawait hwait
  obtain ⟨hflight, harrived⟩ := consumeResponse_net (s := s.takePacket p) hawait hwait
  have hconsumed := consumeResponse_consumed (s := s.takePacket p) hawait hwait hx
  rw [arriveResponse_chamois hdest harr hown hcmd, ← hdest]
  generalize (s.takePacket p).consumeResponse p = t at *
  exact ⟨hflight, congrArg (p :: ·) harrived, hconsumed.of_same rfl rfl rfl rfl⟩

/-- A response that is not in the network and answers no forwarded request does nothing, whichever its row. -/
theorem responses_absent {s : State} {p : Packet} (harr : s.arrives p = false) (hfwd : s.chlAnswered p = none) :
    exec (.readResponse p) s = .next s ∧ exec (.writeResponse p) s = .next s ∧ exec (.errorResponse p) s = .next s :=
  have h := fun cmd => congrArg Host.Outcome.next (arriveResponse_absent harr hfwd cmd)
  ⟨h cmdReadRsp, h cmdWriteRsp, h cmdErrorRsp⟩

/-- Settles O23: a response's row is one branch of its arrival; routes, header fields and rounds each from their definition. -/
theorem responsesAndRoutes : Obligations.ResponsesAndRoutes := by
  unfold Obligations.ResponsesAndRoutes
  refine ⟨fun p o s x hdest harr hown hawait hwait hx => ?_, fun p s => responses_absent,
    fun cx cy sx dx dy => ⟨routeDirs_ne_nil cx cy sx dx dy, fun d hd => (routeDirs_nearer cx cy sx dx dy d hd).directions⟩,
    routeXy_order, by decide, by decide, fun p => ?_, round_packets⟩
  · have hgot := fun {cmd : Nat} => arriveResponse_received (cmd := cmd) hdest harr hown hawait hwait hx
    refine ⟨fun hcmd => ?_, fun hcmd => ?_, fun hcmd => ?_⟩
    · obtain ⟨hflight, harrived, hfreed, hread, hlatency, hlargest, hbin⟩ := hgot hcmd
      exact ⟨_, rfl, hfreed, hflight, harrived, hread.trans (if_pos hcmd), hlatency, hlargest, hbin⟩
    · obtain ⟨hflight, harrived, hfreed, hread, hlatency, -, -⟩ := hgot hcmd
      exact ⟨_, rfl, hfreed, hflight, harrived, hread.trans (if_neg (by rw [hcmd]; decide)), hlatency⟩
    · obtain ⟨hflight, harrived, hfreed, -⟩ := hgot hcmd
      exact ⟨_, rfl, hfreed, hflight, harrived⟩
  · have hlayout := headerField_layout p
    simp only [hlayout, true_and]
    exact ⟨packetUnits_length p, fun k u => packetUnits_last⟩

end Sys2Proof.Network
